-- ==== Sys2Proof/Word.lean ====
section
/-! DEFINITION. The word types of the PE-5480 and the sparse table type its state is kept in. Plain data only;
every operation on them stands in Machine/Ops.lean. -/

namespace Sys2Proof

/-- One byte of memory. -/
abbrev Byte := BitVec 8

/-- A register word (R11) or a Meper general register (R108). -/
abbrev Word := BitVec 32

/-- The 64-bit TICK count, in units of 10 ns (R66). -/
abbrev Tick := BitVec 64

/-- The 48-bit process position count, 1/64 line per count (R69). -/
abbrev Ppc := BitVec 48

/-- A 24-bit wrapping sheet identifier (R9). -/
abbrev Sid := BitVec 24

/-- A sparse table: pairs of index and value, indices strictly rising. An index that is not listed reads as the
default its owner names. -/
abbrev Tab (α : Type) := List (Nat × α)

end Sys2Proof
end

