-- ==== Sys2Proof/Config.lean ====
section
/-! DEFINITION. What one part or one build fixes: the family member, the constants of the address map, and the
free values (opaque constants without a body) for what the spec leaves open. -/

namespace Sys2Proof

/-- The two members of the family (R1). -/
inductive Part where
  | pe5480
  | pe5440
  deriving DecidableEq, Repr

/-- Stations of the part (R1): five on the PE-5480, four on the PE-5440. -/
def Part.stations : Part → Nat
  | .pe5480 => 5
  | .pe5440 => 4

/-- SYS_TYPEID (R18, Table 0.6). -/
def Part.typeId : Part → Nat
  | .pe5480 => 0x00505480
  | .pe5440 => 0x00505440

namespace Config

/-- The free value number n: a word the spec leaves open, fresh for each use (`Mach.fresh` counts them). No body,
so no proof can lean on one. Log entry 3. -/
opaque freeWord : Nat → BitVec 32

/-- The unit ID in OTP (R392). Log entry 3. -/
opaque unitId : BitVec 64

/-- Word i of the unit certificate and of the production CA certificate (R392, Table 14.11). Log entry 3. -/
opaque certWord : Nat → BitVec 32
opaque caCertWord : Nat → BitVec 32

/-- The silicon revision SYS_REV reads (R429: revision A reads 0x01, B 0x02 ...): which one a part is, is open.
Log entry 3. -/
opaque siliconRev : Nat

/-- Byte at an offset of the boot ROM (R80): the spec gives no contents. Log entry 3. -/
opaque bootRom : Nat → BitVec 8

/-- The levels that the outside drives on the general input balls in a TICK, bit n for GPn (R427): no command carries them.
Log entry 3. -/
opaque gpLevels : Nat → Nat

/-- Bank and row of an in-channel DRAM offset, and the controller cycles in a number of TICKs at a RATE code: the spec gives
none of them (R306, R310). Log entry 46. -/
opaque dramBank : Nat → Nat
opaque dramRow : Nat → Nat
opaque dramCycles : Nat → Nat → Nat

/-- The store unit from which a band of a sheet lies in the job store: SID, station and band (R152). Log entry 46. -/
opaque bandUnit : Nat → Nat → Nat → Nat

/-- The byte that RAM and DRAM read as before anything has written them: 0 (DESIGN CHOICE, log entry 2), but for
the EPOCH_TAIL of the two snapshot banks, which reads 0xFFFF_FFFF before the first capture (R45). -/
def ramFill (a : Nat) : Byte := if a / 4 = 0x00307F7FFC / 4 ∨ a / 4 = 0x00307FFFFC / 4 then 0xFF else 0

/-- The byte host memory reads as before anything has written it (DESIGN CHOICE, log entry 2). -/
def hostFill (_ : Nat) : Byte := 0

/-- The byte an erased NOR flash reads as (R367). -/
def flashFill (_ : Nat) : Byte := 0xFF

end Config

end Sys2Proof
end

