-- ==== Sys2Proof/Syntax.lean ====
section
/-! DEFINITION. The commands of the block: one constructor per row of spec/opcode_table.json. -/

namespace Sys2Proof

/-- Who makes a register access (Table 3.7): a context of Cox core 0-7 or of the supervisor (core 8), the host
through BAR0, a DMA channel (R321), or the Scull engine (R202). -/
inductive Requester where
  | ctx (core k : Nat)
  | host
  | dma (c : Nat)
  | scull
  deriving DecidableEq, Repr


/-- A converted input: general input AINk (R223), on-die sensor n (R347), or shunt input n (R280). -/
inductive AdcInput where
  | ain (k : Nat)
  | die (n : Nat)
  | shunt (n : Nat)
  deriving DecidableEq, Repr

/-- What ECC finds in the DRAM data of an access (R308). -/
inductive Ecc where
  | clean | corrected | poisoned
  deriving DecidableEq, Repr

/-- How the target of an access outside a core's own memories answers (R114): with the data, or with an error, or not
within 10 us. -/
inductive BusAns where
  | data (e : Ecc)
  | error
  deriving DecidableEq, Repr

/-- A Fjarilink frame: the fields of Table 14.1 and its payload words. -/
structure Frame where
  cls : Nat
  grp : Bool
  bc : Bool
  typ : Nat
  hops : Nat
  dst : Nat
  src : Nat
  lseq : Nat
  body : List Word
  deriving DecidableEq, Repr

/-- A rising edge at the Z input of a quadrature channel, and for how many units of 10 ns it has kept its level (R248). -/
structure IndexPulse where
  ch : Nat
  held : Nat
  deriving DecidableEq, Repr

/-- One command of the PE-5480: one constructor per row of the opcode table, in the table's order. Operands that a
row's own rule leaves to the world outside (levels, stamps, codes, frame contents) are carried by the command. -/
inductive Instr where
  /-- REGISTER_WRITE (R16). A write to a register that has no row of its own is accepted, staged or refused according to its access code and field class. -/
  | registerWrite (q : Requester) (off bytes : Nat) (v : Word)
  /-- LATCHED_LOW_READ (R12). Reading the low word of a 64-bit quantity latches the high word for the same requester. -/
  | latchedLowRead (q : Requester) (off : Nat)
  /-- READ_CLEAR (R14). A read of an RC field returns its value and clears the field. -/
  | readClear (q : Requester) (off : Nat)
  /-- SLU_CREATE (R31). A committed write of a SID takes the lowest FREE record into QUEUED, or fails with SIDORDER or FULL. -/
  | sluCreate (core k : Nat) (sid : Sid)
  /-- RESERVE (R32). Checks the record's fields, in-flight limit and residency, then moves it from QUEUED to READY. -/
  | reserve (core k r : Nat)
  /-- ADMIT (R32). Checks every admission condition in order, then moves the record from READY to ADMITTED with its catch scheduled. -/
  | admitSheet (core k r : Nat)
  /-- UNADMIT (R32). Returns an ADMITTED record to READY before its lock point, or fails with LOCKED. -/
  | unadmit (core k r : Nat)
  /-- WITHDRAW (R32). Moves a QUEUED, READY or pre-lock-point ADMITTED record to WITHDRAWN. -/
  | withdraw (core k r : Nat)
  /-- UNRESERVE (R31). Returns a READY record to QUEUED. -/
  | unreserve (core k r : Nat)
  /-- FREE (R31). Returns a terminal record to FREE, changing only STATE and TRTICK. -/
  | free (core k r : Nat)
  /-- SLU_OP_UNDEFINED (R31). An SLU_OP write with OP 0x0 or 0x7-0xF fails with code STATE. -/
  | sluOpUndefined (core k op r : Nat)
  /-- SHEET_RECORD_WRITE (R21). A committed write to a sheet record field is applied only in the states that allow it, and is otherwise ignored with a note. -/
  | sheetRecordWrite (core k r w : Nat) (v : Word)
  /-- SLU_CTL_WRITE (R28). A write to SLU_CTL is refused when it clears EN with sheets in flight or enables with an invalid GATEAX. -/
  | sluCtlWrite (core k : Nat) (v : Word)
  /-- SLU_RSV_WRITE (R29). A write to SLU_RSV refuses speed, HV-set or fuser-band changes while sheets depend on them, and clears the OK bit of each accepted change. -/
  | sluRsvWrite (core k : Nat) (v : Word)
  /-- THROTTLE_SPEED_STEP (R30). While TENF = 1, once no sheet is admitted or busy and SPEED exceeds TMAX, the controller writes SPEED := TMAX and clears SPDOK. -/
  | throttleSpeedStep
  /-- SHEET_ARM (R38). At T_c - ARMLEAD the ledger delivers the catch to the video islands, the gate axis and its own deadlines and watches. -/
  | sheetArm (r : Nat)
  /-- CATCH (R37). When master TICK reaches T_c the record becomes CAUGHT, CPPC and TRTICK are captured and a snapshot is triggered. -/
  | catch (r : Nat)
  /-- SHEET_TRANSFERRED (R24). When PPC reaches CPPC + TRDIST + 64 x LINES, the record becomes TRANSFERRED, followed by any held later transitions. -/
  | sheetTransferred (r : Nat)
  /-- BAND_DEADLINE (R35). At a band's deadline under the early-catch rule, a non-resident band spoils the sheet with band-late. -/
  | bandDeadline (r stn k : Nat)
  /-- WATCH_WINDOW_JUDGED (R430). Once CLOSE + DEB has passed and the base is known, a watch window with no edge fails and raises its fault. -/
  | watchWindowJudged (w r : Nat)
  /-- WATCH_CFG_WRITE (R430). A write of a watch CFG that would enable a sensor above 47 is ignored as a whole with a note. -/
  | watchCfgWrite (core k w : Nat) (v : Word)
  /-- SNAPSHOT_PERIODIC_TRIGGER (R44). Every 1 ms of TICK while SNAP_CTL.EN = 1, a periodic capture is triggered or merged into a waiting one. -/
  | snapshotPeriodicTrigger
  /-- SNAPSHOT_CAPTURE_DONE (R45). A capture finishes writing its bank with EPOCH_TAIL, updates LATEST and EPOCH, and the next waiting capture begins. -/
  | snapshotCaptureDone
  /-- SNAPSHOT_BANK_READ (R46). A read of a snapshot bank returns data and holds that bank for 1 ms. -/
  | snapshotBankRead (q : Requester) (b off : Nat)
  /-- SNAPSHOT_HOLD_EXPIRE (R46). A bank hold ends, and a capture deferred because both banks were held begins with DEFERRED set. -/
  | snapshotHoldExpire (b : Nat)
  /-- HSF_WRITE (R48). A waiting heritage status frame is written to the host ring in two parts, and MSI-X vector HSFVEC is raised. -/
  | hsfWrite
  /-- SYNTH_ENABLE (R59). Writing EN = 1 moves a synthesiser from OFF to ACQUIRE. -/
  | synthEnable (q : Requester) (k : Nat) (v : Word)
  /-- SYNTH_DISABLE (R55). Writing EN = 0 turns a synthesiser OFF, unless a refusal condition holds. -/
  | synthDisable (q : Requester) (k : Nat) (v : Word)
  /-- SYNTH_LOCK (R58). When the lock condition holds for LOCKN x 16 cycles, the synthesiser enters LOCKED and its islands switch back to it. -/
  | synthLock (k : Nat)
  /-- SYNTH_LOCK_LOSS (R58). A loss of lock judged in LOCKED sends the synthesiser to COAST or GATED and starts the clock-loss handling. -/
  | synthLockLoss (k : Nat)
  /-- SYNTH_RAMP_END (R58). 50 us after a small change of F, the ramped frequency comparison ends and the phase criterion applies again. -/
  | synthRampEnd (k : Nat)
  /-- CLOCK_LOSS_DRAIN_END (R60). When no record remains in ADMITTED through FUSED after a SYSPLL or MEMPLL loss, a class 3 fault is raised. -/
  | clockLossDrainEnd
  /-- CLOCK_LOSS_DRAIN_TIMEOUT (R60). When DRAINTO ms pass after a SYSPLL or MEMPLL loss, a class 3 fault is raised and remaining sheets end JAMMED. -/
  | clockLossDrainTimeout
  /-- REFCLK_LOSS (R62). Loss of REFCLK makes synthesisers coast, moves AON to the internal oscillator, sets TICK coasting and raises refclk-loss. -/
  | refclkLoss
  /-- REFCLK_RETURN (R62). REFCLK stable for 1 ms is declared returned, and coasting synthesisers enter REACQ. -/
  | refclkReturn
  /-- PPCRATE_WRITE (R70). A write to PPCRATE sets the PPC rate and sets PPCOK to 1. -/
  | ppcrateWrite (q : Requester) (v : Word)
  /-- PPC_WATCHDOG_EXPIRE (R70). When PPCWDOG TICKs pass without a PPCRATE write, PPCOK falls and ppc-loss is raised. -/
  | ppcWatchdogExpire
  /-- STROKE_START (R57). A BD edge starts a stroke: counters advance, staged fields apply, and the island selects catching strokes and forms the stroke's pulses. -/
  | strokeStart (stn : Nat)
  /-- LINE_STEP (R73). LINEs advances by one at each 1/L of the previous stroke period, forming the S:line boundary. -/
  | lineStep (stn : Nat)
  /-- BD_MISSING (R187). With no BD within 1.5 forecast periods, a stroke is taken as started, nothing is exposed and caught sheets are run out with bd-missing. -/
  | bdMissing (stn : Nat)
  /-- LEVEL_FRAME (R181). A level frame is latched on the drive link at a zone boundary, or skipped when the zone is too short. -/
  | levelFrame (stn z : Nat)
  /-- SAFE_FRAME (R181). While LEN is deasserted, a safe frame with all levels 0 is sent and latched every 10 us. -/
  | safeFrame (stn : Nat)
  /-- HEAD_TEMP_SAMPLE (R184). A 10 kHz head temperature sample updates HT and applies the soft, hard and ceiling actions. -/
  | headTempSample (stn : Nat)
  /-- FZ_EDGE (R185). A facet-zero edge checks the BD count and re-zeroes FACETs or records a mismatch. -/
  | fzEdge (stn : Nat)
  /-- SIGNATURE_DONE (R186). A completed period-signature measurement, over `revs` revolutions, establishes facet identity or counts a failed attempt. -/
  | signatureDone (stn revs : Nat)
  /-- VID_CTL_WRITE (R170). A write to VIDs_CTL is refused on an invalid facet or zone setting, or when it disables the island under a caught sheet. -/
  | vidCtlWrite (q : Requester) (stn : Nat) (w : Word)
  /-- BMAP_SEL_WRITE (R172). A write to BMAP_SEL selects the requester's own Beam Map station. -/
  | bmapSelWrite (q : Requester) (w : Word)
  /-- START (R89). Starts a context from ENTRY at PRIO, clearing its stage buffer, registers and events. -/
  | start (core k : Nat)
  /-- HALT (R106). Halts a context to IDLE, clearing its stage buffer, cancelling its commit and disarming its comparators. -/
  | halt (core k : Nat)
  /-- RESUME (R89). Resumes a parked context by re-executing the faulting instruction. -/
  | resume (core k : Nat)
  /-- DISCARD (R106). Clears a context's stage buffer. -/
  | discard (core k : Nat)
  /-- CANCEL (R102). Cancels every pending commit of the core with CANCELLED. -/
  | cancel (core : Nat)
  /-- DISARM (R93). Disarms every comparator of the core. -/
  | disarm (core : Nat)
  /-- COX_ENABLE (R105). Writing COXc_CFG.EN = 1 enables a Cox core so that its contexts can be started. -/
  | coxEnable (core : Nat) (v : Word)
  /-- COX_DISABLE (R105). Writing COXc_CFG.EN = 0 halts every context of the core, cancels commits and disarms comparators. -/
  | coxDisable (core : Nat) (v : Word)
  /-- SWEV (R94). Sets software event bits in the named contexts of the core. -/
  | swev (q : Requester) (core : Nat) (v : Word)
  /-- SUPMPU_LOCK (R86). Writing LOCK = 1 locks the supervisor MPU until reset. -/
  | supmpuLock (v : Word)
  /-- COMPARATOR_FIRE (R90). An armed comparator whose timebase reaches its target performs its action, sets CMPFIRE and re-arms if periodic. -/
  | comparatorFire (core n : Nat)
  /-- PINPULSE_END (R90). At the end of a PINPULSE width, the output returns to its previous level. -/
  | pinpulseEnd (core n : Nat)
  /-- COMMIT_READY (R97). A sealed commit becomes ready, and a late commit fails with LATE or applies at once with LATEOK. -/
  | commitReady (core k : Nat)
  /-- COMMIT_APPLY (R98). At its boundary's capture instant, a commit applies all its writes indivisibly in staging order and resolves. -/
  | commitApply (core k : Nat)
  /-- RESET (R103). RST_N rising resets the device and starts the boot ROM in supervisor context 0. -/
  | reset
  /-- ADD (R111). rd := rs1 + rs2 modulo 2^32. -/
  | add (core k rd rs1 rs2 : Nat)
  /-- SUB (R111). rd := rs1 - rs2 modulo 2^32. -/
  | sub (core k rd rs1 rs2 : Nat)
  /-- AND (R111). Bitwise and of two registers. -/
  | and (core k rd rs1 rs2 : Nat)
  /-- OR (R111). Bitwise or of two registers. -/
  | or (core k rd rs1 rs2 : Nat)
  /-- XOR (R111). Bitwise exclusive or of two registers. -/
  | xor (core k rd rs1 rs2 : Nat)
  /-- SLL (R111). Shift left by rs2[4:0]. -/
  | sll (core k rd rs1 rs2 : Nat)
  /-- SLLI (R111). Shift left by the immediate u5. -/
  | slli (core k rd rs1 u5 : Nat)
  /-- SRL (R111). Logical shift right by rs2[4:0]. -/
  | srl (core k rd rs1 rs2 : Nat)
  /-- SRLI (R111). Logical shift right by the immediate u5. -/
  | srli (core k rd rs1 u5 : Nat)
  /-- SRA (R111). Arithmetic shift right by rs2[4:0]. -/
  | sra (core k rd rs1 rs2 : Nat)
  /-- SRAI (R111). Arithmetic shift right by the immediate u5. -/
  | srai (core k rd rs1 u5 : Nat)
  /-- SLT (R111). Signed set-less-than of two registers. -/
  | slt (core k rd rs1 rs2 : Nat)
  /-- SLTU (R111). Unsigned set-less-than of two registers. -/
  | sltu (core k rd rs1 rs2 : Nat)
  /-- MIN (R111). Signed minimum. -/
  | min (core k rd rs1 rs2 : Nat)
  /-- MAX (R111). Signed maximum. -/
  | max (core k rd rs1 rs2 : Nat)
  /-- MINU (R111). Unsigned minimum. -/
  | minu (core k rd rs1 rs2 : Nat)
  /-- MAXU (R111). Unsigned maximum. -/
  | maxu (core k rd rs1 rs2 : Nat)
  /-- ADDS (R111). Signed saturating add. -/
  | adds (core k rd rs1 rs2 : Nat)
  /-- SUBS (R111). Signed saturating subtract. -/
  | subs (core k rd rs1 rs2 : Nat)
  /-- CLZ (R111). Counts the leading zero bits of rs1. -/
  | clz (core k rd rs1 : Nat)
  /-- MUL (R111). Low 32 bits of the product. -/
  | mul (core k rd rs1 rs2 : Nat)
  /-- MULH (R111). High 32 bits of the signed product. -/
  | mulh (core k rd rs1 rs2 : Nat)
  /-- MULHU (R111). High 32 bits of the unsigned product. -/
  | mulhu (core k rd rs1 rs2 : Nat)
  /-- SATS (R111). Clamps rs1 to a signed range of 2^u5. -/
  | sats (core k rd rs1 u5 : Nat)
  /-- SATU (R111). Clamps signed rs1 to 0 to 2^u5 - 1. -/
  | satu (core k rd rs1 u5 : Nat)
  /-- ADDI (R110). rd := rs1 + sign-extended immediate. -/
  | addi (core k rd rs1 : Nat) (imm : BitVec 16)
  /-- ANDI (R110). rd := rs1 and zero-extended immediate. -/
  | andi (core k rd rs1 : Nat) (imm : BitVec 16)
  /-- ORI (R110). rd := rs1 or zero-extended immediate. -/
  | ori (core k rd rs1 : Nat) (imm : BitVec 16)
  /-- XORI (R110). rd := rs1 xor zero-extended immediate. -/
  | xori (core k rd rs1 : Nat) (imm : BitVec 16)
  /-- SLTI (R110). Signed compare of rs1 with the immediate. -/
  | slti (core k rd rs1 : Nat) (imm : BitVec 16)
  /-- SLTIU (R110). Unsigned compare of rs1 with the sign-extended immediate. -/
  | sltiu (core k rd rs1 : Nat) (imm : BitVec 16)
  /-- LDH (R110). rd := imm16 << 16. -/
  | ldh (core k rd : Nat) (imm : BitVec 16)
  /-- LW (R112). Near word load. -/
  | lw (core k rd rs1 : Nat) (imm : BitVec 16) (ans : BusAns)
  /-- LH (R112). Near signed half-word load. -/
  | lh (core k rd rs1 : Nat) (imm : BitVec 16) (ans : BusAns)
  /-- LHU (R112). Near unsigned half-word load. -/
  | lhu (core k rd rs1 : Nat) (imm : BitVec 16) (ans : BusAns)
  /-- LB (R112). Near signed byte load. -/
  | lb (core k rd rs1 : Nat) (imm : BitVec 16) (ans : BusAns)
  /-- LBU (R112). Near unsigned byte load. -/
  | lbu (core k rd rs1 : Nat) (imm : BitVec 16) (ans : BusAns)
  /-- LWF (R112). Far word load using FARHI. -/
  | lwf (core k rd rs1 : Nat) (imm : BitVec 16) (ans : BusAns)
  /-- SW (R114). Near word store, completed before the next instruction. -/
  | sw (core k rs2 rs1 : Nat) (imm : BitVec 16) (ans : BusAns)
  /-- SH (R114). Near half-word store. -/
  | sh (core k rs2 rs1 : Nat) (imm : BitVec 16) (ans : BusAns)
  /-- SB (R114). Near byte store. -/
  | sb (core k rs2 rs1 : Nat) (imm : BitVec 16) (ans : BusAns)
  /-- SWF (R114). Far word store using FARHI. -/
  | swf (core k rs2 rs1 : Nat) (imm : BitVec 16) (ans : BusAns)
  /-- AMOADD (R117). Indivisible fetch-and-add at the target word. -/
  | amoadd (core k rd rs1 rs2 : Nat) (far : Bool) (ans : BusAns)
  /-- AMOSWP (R117). Indivisible fetch-and-swap at the target word. -/
  | amoswp (core k rd rs1 rs2 : Nat) (far : Bool) (ans : BusAns)
  /-- BEQ (R110). Branches when rs1 = rs2. -/
  | beq (core k rs1 rs2 : Nat) (off : BitVec 16)
  /-- BNE (R110). Branches when rs1 differs from rs2. -/
  | bne (core k rs1 rs2 : Nat) (off : BitVec 16)
  /-- BLT (R110). Branches when rs1 < rs2, signed. -/
  | blt (core k rs1 rs2 : Nat) (off : BitVec 16)
  /-- BGE (R110). Branches when rs1 >= rs2, signed. -/
  | bge (core k rs1 rs2 : Nat) (off : BitVec 16)
  /-- BLTU (R110). Branches when rs1 < rs2, unsigned. -/
  | bltu (core k rs1 rs2 : Nat) (off : BitVec 16)
  /-- BGEU (R110). Branches when rs1 >= rs2, unsigned. -/
  | bgeu (core k rs1 rs2 : Nat) (off : BitVec 16)
  /-- JAL (R110). g31 := PC + 4, and jumps by off26. -/
  | jal (core k : Nat) (off : BitVec 26)
  /-- JALR (R110). rd := PC + 4, and jumps to rs1 + imm. -/
  | jalr (core k rd rs1 : Nat) (imm : BitVec 16)
  /-- CSRR (R118). Reads a CSR. -/
  | csrr (core k rd csr : Nat)
  /-- CSRW (R118). Writes a CSR and returns its old value. -/
  | csrw (core k rd csr rs1 : Nat)
  /-- CSRS (R118). Sets CSR bits and returns the old value. -/
  | csrs (core k rd csr rs1 : Nat)
  /-- CSRC (R118). Clears CSR bits and returns the old value. -/
  | csrc (core k rd csr rs1 : Nat)
  /-- STGCLR (R119). Writing the STGCLR CSR discards the stage buffer. -/
  | stgclr (core k rd rs1 : Nat)
  /-- CMTCAN (R128). Writing CMTCAN cancels the context's pending commit if its capture instant has not come. -/
  | cmtcan (core k rd rs1 : Nat)
  /-- WAITT (R121). Continues at once or waits until a timebase reaches its target. -/
  | waitt (core k rd rs1 rs2 code sub : Nat)
  /-- WAITT_WAKE (R121). A waiting context's timebase reaches its target, and the context becomes READY with rd := 0. -/
  | waittWake (core k : Nat)
  /-- WAITE (R122). Returns and clears masked pending events, or waits for one. -/
  | waite (core k rd rs1 : Nat)
  /-- WAITE_WAKE (R122). A masked event arrives for a waiting context, which returns and clears the bits. -/
  | waiteWake (core k : Nat)
  /-- SLEEP (R123). Waits until TICK reaches T0 + g[rs1]. -/
  | sleep (core k rs1 : Nat)
  /-- SLEEP_WAKE (R123). A sleeping context's interval ends and the context becomes READY. -/
  | sleepWake (core k : Nat)
  /-- YIELD (R123). Passes the core to the longest-READY context of equal priority. -/
  | yield (core k : Nat)
  /-- PRI (R123). Changes the context's own priority. -/
  | pri (core k rd rs1 : Nat)
  /-- ARM (R124). Arms a free comparator from an arm block and reports the result. -/
  | arm (core k rd rs1 : Nat)
  /-- DARM (R125). Disarms a comparator that the calling context armed. -/
  | darm (core k rd rs1 : Nat)
  /-- STG (R126). Appends a register write to the stage buffer. -/
  | stg (core k rs2 rs1 : Nat) (imm : BitVec 16)
  /-- CMT (R127). Seals the stage buffer as a commit bound to a boundary. -/
  | cmt (core k rd rs1 rs2 code sub : Nat) (late : Bool)
  /-- PUSH (R129). Copies a descriptor into a ring's next producer slot. -/
  | push (core k rd rs1 ring : Nat) (ans : BusAns)
  /-- POP (R129). Copies a descriptor from a ring's next consumer slot. -/
  | pop (core k rd rs1 ring : Nat) (ans : BusAns)
  /-- FLT (R130). Sends a program fault message to the collector. -/
  | flt (core k rd rs1 rs2 code sub : Nat)
  /-- UNDEFINED_INSTRUCTION (R110). An undefined encoding parks the context with cause ILLEGAL. -/
  | undefinedInstruction (core k : Nat) (w : Word)
  /-- INGEST_DESCRIPTOR (R142). The ingest unit takes the next descriptor from the ingest ring and checks its own fields. -/
  | ingestDescriptor
  /-- INGEST_ALLOCATE (R142). Once enough store units and an index entry are free, they are allocated and the transfer starts. -/
  | ingestAllocate
  /-- PEAT_HEADER_ARRIVED (R142). When 32 bytes of a Peat header have arrived it is checked, and a bad header ends the transfer. -/
  | peatHeaderArrived (ecc : Ecc)
  /-- INGEST_TRANSFER_DONE (R142). When a band's transfer ends, the band is checked, classified again and made resident, compressed or discarded. -/
  | ingestTransferDone (ecc : Ecc)
  /-- DEFLATE_START (R147). A free deflate engine takes the next raw band. -/
  | deflateStart
  /-- DEFLATE_DONE (R148). A deflate engine finishes a band, keeping it compressed or raw after self-verification. -/
  | deflateDone (e : Nat) (out : List Byte)
  /-- INGEST_VERIFY_DONE (R149). Ingest verification of a Peat stream completes, with the band made resident or completed DECODE. -/
  | ingestVerifyDone (e : Nat)
  /-- INGEST_COMPLETION_POST (R142). Once the completion ring has room, a completion record is posted in descriptor order. -/
  | ingestCompletionPost
  /-- PURGE (R154). Releases a job store entry at once and drops its pin. -/
  | purge (q : Requester) (sid : Sid)
  /-- PIN (R154). Keeps a job store entry until UNPIN or PURGE. -/
  | pin (q : Requester) (sid : Sid)
  /-- UNPIN (R154). Drops a pin, releasing an entry whose hold has ended. -/
  | unpin (q : Requester) (sid : Sid)
  /-- QUERY (R154). Reports the pin, reference, hold and unit state of an entry. -/
  | query (q : Requester) (sid : Sid)
  /-- SWEEP (R154). Releases every entry that is neither referenced, pinned nor on hold. -/
  | sweep (q : Requester)
  /-- JSOP_UNDEFINED (R154). A job store operation with OP 0, 6 or 7 fails with code OP. -/
  | jsopUndefined (q : Requester) (op : Nat) (sid : Sid)
  /-- JOB_STORE_HOLD_EXPIRE (R153). When an entry's hold ends, it is released if neither referenced nor pinned. -/
  | jobStoreHoldExpire (sid : Sid)
  /-- FEEDER_START (R157). A station's band feeder starts a sheet at the later of the arm and the end of the previous sheet. -/
  | feederStart (stn : Nat)
  /-- FEEDER_BAND_START (R157). A feeder starts the next band once its slots are free and, under early catch, the band is resident. -/
  | feederBandStart (stn : Nat) (ecc : Ecc)
  /-- INFLATE_RUN_START (R151). A free inflate engine takes the waiting stream with the fewest lines ahead. -/
  | inflateRunStart
  /-- INFLATE_RUN_DONE (R150). An inflate engine finishes a run of up to 8 lines and saves the stream context. -/
  | inflateRunDone (e : Nat) (ecc : Ecc)
  /-- CRC_GO (R163). Starts CRC unit 3 over a memory range. -/
  | crcGo (q : Requester)
  /-- CRC_DONE (R163). CRC unit 3 completes, sets GRES or ERR and asserts GDONE. -/
  | crcDone (ecc : Ecc)
  /-- SLOT_TRIGGER (R194). A slot's trigger fires and its inputs are read, or the trigger is counted as a miss. -/
  | slotTrigger (n : Nat)
  /-- SLOT_INPUTS_READ (R201). Every input of a triggered slot has arrived, and the slot becomes pending. -/
  | slotInputsRead (n : Nat)
  /-- SCULL_DISPATCH (R195). The idle engine dispatches the highest-priority pending slot and runs its microprogram to END. -/
  | scullDispatch
  /-- SCULL_BUDGET_EXPIRE (R197). A run that has not reached END within BUDGET cycles is stopped without outputs and raises scull-budget. -/
  | scullBudgetExpire
  /-- SCULL_OUTPUT_WRITE (R202). A run's outputs are written indivisibly after END, including hand-over blending of binding 0. -/
  | scullOutputWrite
  /-- RC_SYNC_EVENT (R214). A sync event checks and resets a slot's repetitive-controller index. -/
  | rcSyncEvent (n : Nat)
  /-- SLOT_ENABLE (R203). A write of SLOTn_CTL.EN = 1 is refused with bind-denied on invalid bindings or trigger settings. -/
  | slotEnable (q : Requester) (n : Nat) (v : Word)
  /-- ADC_CONVERSION (R223). A general or shunt conversion completes and feeds the broken, arc, bus, fuser, head and thermal checks. -/
  | adcConversion (i : AdcInput) (v : Int)
  /-- HV_SUSTAINED_OVERCURRENT (R235). A current monitor above the sustained limit for 1 ms turns the channel off with hv-overcurrent. -/
  | hvSustainedOvercurrent (h : Nat)
  /-- MARK_ARM (R227). Arms a registration mark frame at MKPOS, or refuses it. -/
  | markArm (q : Requester) (v : Word)
  /-- MARK_ABORT (R227). Abandons the armed or active mark frame. -/
  | markAbort (q : Requester) (v : Word)
  /-- MARK_WINDOW_CLOSE (R228). A mark window closes, and its bar's edges are judged: the PPC stamps, in 1/16
  count, of the samples that the sensor's converter took in it, and their codes. -/
  | markWindowClose (stn x bar : Nat) (stamps codes : List Nat)
  /-- ZC_EDGE (R237). A valid mains zero crossing updates ZCOK and HALFP and advances the triac accumulators. -/
  | zcEdge
  /-- ZC_LOSS (R237). No ZC edge for 12.5 ms clears ZCOK, stops firing and raises zc-loss. -/
  | zcLoss
  /-- FUSER_GATE_FIRE (R236). ZCDLY after a crossing, a zone that fires raises its gate pulse. -/
  | fuserGateFire (z : Nat)
  /-- FUSER_GATE_END (R236). At the end of GATEW, the gate pulse falls. -/
  | fuserGateEnd (z : Nat)
  /-- ENC_EDGE (R247). An accepted quadrature change counts, is stamped and updates RPOS and speed, or a rejected change counts as a glitch. -/
  | encEdge (q : Nat) (a b : Bool) (held sub : Nat)
  /-- ENC_INDEX (R253). An index edge captures ICAP, checks the count per revolution and re-zeroes or defers. -/
  | encIndex (q : IndexPulse)
  /-- ENC_STANDSTILL (R256). After STILL ms without a valid edge, speed reads 0 and direction becomes unknown. -/
  | encStandstill (q : Nat)
  /-- SPEED_WINDOW_END (R257). A count-method window ends, updating SPD and changing method across the thresholds. -/
  | speedWindowEnd (q : Nat)
  /-- ENC_MODE_WRITE (R251). Writing MODE resets the direction, and writing MODE = 0 sets RPOS := CNT. -/
  | encModeWrite (q : Requester) (ch : Nat) (v : Word)
  /-- SSI_FRAME_START (R258). At each SPER multiple an SSI port starts a frame. -/
  | ssiFrameStart (p : Nat) (d : Bool)
  /-- SSI_FRAME_END (R258). An SSI frame ends and updates POS and SPD, or counts an error. -/
  | ssiFrameEnd (p data : Nat) (err par returned : Bool)
  /-- SNS_RAW_TRANSITION (R260). A raw sensor transition restarts the filter and counts toward chatter. -/
  | snsRawTransition (i : Nat) (lvl : Bool)
  /-- SENSOR_EDGE (R259). A raw level that has held DEB us changes the filtered level and delivers a stamped edge to watches, limits and homing. -/
  | sensorEdge (i : Nat)
  /-- CHATTER_END (R260). A chatter episode clears after CHW ms without a raw transition. -/
  | chatterEnd (i : Nat)
  /-- SNS_CTL_WRITE (R273). Writing SNS_CTL.EN = 1 restarts filtering on every input. -/
  | snsCtlWrite (q : Requester) (v : Word)
  /-- SERVO_PERIOD (R261). At each SPER multiple every enabled axis issues its next set-point and velocity. -/
  | servoPeriod
  /-- SEGMENT_MOVE (R262). GO with MODE 0 starts a move to TARGET. -/
  | segmentMove (q : Requester) (a : Nat) (v : Word)
  /-- SEGMENT_MOVE_RELATIVE (R262). GO with MODE 1 starts a move by TARGET. -/
  | segmentMoveRelative (q : Requester) (a : Nat) (v : Word)
  /-- SEGMENT_RUN (R262). GO with MODE 2 runs at VMAX until replaced. -/
  | segmentRun (q : Requester) (a : Nat) (v : Word)
  /-- SEGMENT_DECELERATE (R262). GO with MODE 3 decelerates at DEC to rest. -/
  | segmentDecelerate (q : Requester) (a : Nat) (v : Word)
  /-- SEGMENT_QUICK_STOP (R262). GO with MODE 4 quick-stops at QDEC. -/
  | segmentQuickStop (q : Requester) (a : Nat) (v : Word)
  /-- SEGMENT_HOME (R267). GO with MODE 5 starts homing by HMODE. -/
  | segmentHome (q : Requester) (a : Nat) (v : Word)
  /-- SEGMENT_UNDEFINED (R262). GO with MODE 6-7 or during a quick-stop is ignored with cmd-ignored. -/
  | segmentUndefined (q : Requester) (a mode : Nat) (v : Word)
  /-- SEGMENT_DELAYED_START (R263). A segment waiting with START = 1 begins when TICK reaches STARTT. -/
  | segmentDelayedStart (a : Nat)
  /-- PROFILE_RATE_WRITE (R264). A write of VMAX, ACC or DEC acts on the segment in progress or is deferred. -/
  | profileRateWrite (q : Requester) (a which : Nat) (v : Word)
  /-- POLY_ENABLE (R287). Enabling a polygon drive starts ALIGN, or RUN in Hall mode. -/
  | polyEnable (q : Requester) (n : Nat) (w : Word)
  /-- POLY_DISABLE (R287). Disabling a polygon drive sets STATE := OFF, unless the write is refused. -/
  | polyDisable (q : Requester) (n : Nat) (w : Word)
  /-- POLY_ALIGN_END (R287). After ALIGNT the drive enters the open-loop RAMP. -/
  | polyAlignEnd (n : Nat)
  /-- POLY_RAMP_END (R287). RAMP ends without RUN, and the drive faults with poly-start. -/
  | polyRampEnd (n : Nat)
  /-- BEMF_CROSSING (R284). A back-EMF crossing is stamped, updating T60, speed, the speed loop and the Ke check. -/
  | bemfCrossing (n phase : Nat) (rising : Bool) (sub : Nat)
  /-- HALL_EDGE (R285). A Hall code change sets the commutation step in Hall mode. -/
  | hallEdge (n code : Nat)
  /-- POLY_COMMUTATE (R284). t_com after a crossing, the drive commutates to the next step. -/
  | polyCommutate (n : Nat)
  /-- POLY_STEP_TIMEOUT (R288). No crossing by 2 x T60 counts as a bad step, and LOSTN bad steps enter CATCH with rotor-lost. -/
  | polyStepTimeout (n : Nat)
  /-- POLY_CATCH_TIMEOUT (R288). CATCHT expires without a catch, and the drive brakes by short winding. -/
  | polyCatchTimeout (n : Nat)
  /-- POLY_PWM_PERIOD (R283). Each polygon PWM period samples the current, runs the current loop and checks overcurrent. -/
  | polyPwmPeriod (n : Nat)
  /-- SERVO_PWM_PERIOD (R290). Each servo PWM period samples the currents, runs the current regulators and checks the peak limit. -/
  | servoPwmPeriod (n : Nat)
  /-- STEPPER_PWM_PERIOD (R294). Each stepper PWM period regulates both phase currents and checks the peak limit. -/
  | stepperPwmPeriod (n : Nat)
  /-- STEPPER_HOLD_TIMEOUT (R295). After HOLDT ms at rest, the amplitude ramps down to IHOLD. -/
  | stepperHoldTimeout (n : Nat)
  /-- CHOPPER_CURRENT_CHECK (R297). 20 us after BRK_G rises, missing chopper current is a chopper failure. -/
  | chopperCurrentCheck
  /-- CHOPPER_RISE_CHECK (R297). TRISE x 10 us after BRK_G rises, a still-rising bus is a chopper failure. -/
  | chopperRiseCheck
  /-- DRAM_ENABLE (R309). Writing DRC_CFG.EN = 1 starts full training, unless MEMPLL does not match. -/
  | dramEnable (q : Requester) (v : Word)
  /-- DRAM_TRAINING_DONE (R313). Full training completes and sets TRAINED, or fails with dram-train. -/
  | dramTrainingDone (ok : Bool)
  /-- REFRESH_DUE (R312). A refresh falls due and is issued, postponed or forced; `video` says that a video-class
  request is queued which no command of this model makes. -/
  | refreshDue (video : Bool)
  /-- MR4_POLL (R312). Every 16 ms the controller reads mode register 4 and updates the refresh derating. -/
  | mr4Poll (derate : Nat)
  /-- DQS_OSC_CHECK (R314). Every RTPER ms the DQS oscillator is measured, and excess drift makes a retrain due. -/
  | dqsOscCheck (drift : Nat)
  /-- RETRAIN_START (R314). A due retrain starts at a station 0 gap once every feeder is 32 lines ahead. -/
  | retrainStart
  /-- RETRAIN_DONE (R314). A retrain completes and asserts RTDONE. -/
  | retrainDone
  /-- RETRAIN_LATE (R314). A retrain still due after RTWAIT raises retrain-late. -/
  | retrainLate
  /-- RING_ENABLE (R315). Writing a ring's EN = 1 resets its indices, or fails on an invalid configuration. -/
  | ringEnable (q : Requester) (r : Nat) (v : Word)
  /-- RING_PRODUCER_DOORBELL (R316). A host write of PIDX is accepted as a doorbell or refused with BADIDX. -/
  | ringProducerDoorbell (r : Nat) (v : Word)
  /-- RING_CONSUMER_INDEX (R316). A host write of CIDX frees slots, or is refused with BADIDX. -/
  | ringConsumerIndex (r : Nat) (v : Word)
  /-- RING_IRQ_TIMER (R318). ITIME us after the earliest unsignalled entry, the ring raises its MSI-X vector. -/
  | ringIrqTimer (r : Nat)
  /-- DMA_GO (R319). From IDLE, starts the shadow TD or fetches the TD at NEXT. -/
  | dmaGo (q : Requester) (c : Nat)
  /-- DMA_ABORT (R324). Empties both sets of a channel with RESULT := ABORTED. -/
  | dmaAbort (q : Requester) (c : Nat)
  /-- DMA_SKIP (R324). Ends the active TD with FAULT and starts the shadow TD. -/
  | dmaSkip (q : Requester) (c : Nat)
  /-- DMA_SHLOAD (R319). Validates the shadow registers as the next TD. -/
  | dmaShload (q : Requester) (c : Nat)
  /-- TD_FETCH (R319). A chained TD is fetched into the shadow set and checked for validity and the hop limit. -/
  | tdFetch (c : Nat) (ecc : Ecc)
  /-- DMA_BURST (R320). A channel is granted and performs one burst of at most 256 bytes. -/
  | dmaBurst (c : Nat) (ecc : Ecc)
  /-- TD_COMPLETE (R322). A TD completes, writing its record, result, event and interrupt, and the shadow TD becomes active. -/
  | tdComplete (c : Nat)
  /-- DMA_BUS_TIMEOUT (R324). An access unanswered within BTO parks the channel with bus-timeout. -/
  | dmaBusTimeout (c : Nat)
  /-- DMA_WAIT_TIMEOUT (R325). WTO ms in WAIT aborts the channel with xlate-abort. -/
  | dmaWaitTimeout (c : Nat)
  /-- DMA_POWERDOWN_TIMEOUT (R326). PDTO us after a held power-down, the TD is aborted and the domain goes down. -/
  | dmaPowerdownTimeout (d : Nat)
  /-- DATU_WALK_DONE (R327). A table walk completes, filling the IOTLB or leading to a page request or abort. -/
  | datuWalkDone (q : Nat) (failed : Bool)
  /-- PAGE_REQUEST_POST (R328). Once the page request ring has room, a page request record is posted and the requester waits. -/
  | pageRequestPost
  /-- PRACK (R329). The host answers a page request, and the requester walks again or aborts. -/
  | prack (q : Requester) (v : Word)
  /-- INVPAGE (R330). Removes one page from the IOTLB. -/
  | invpage (q : Requester) (v : Word)
  /-- INVALL (R330). Empties the IOTLB. -/
  | invall (q : Requester) (v : Word)
  /-- INVALIDATION_DONE (R330). Bursts that used removed translations have completed, and INVSTAT.BUSY falls. -/
  | invalidationDone
  /-- FUNCTION_LEVEL_RESET (R334). An FLR resets the endpoint, empties the IOTLB, aborts page requests and disables host rings. -/
  | functionLevelReset
  /-- PCIE_PERST (R412). PCIE_PERST_N low holds the endpoint in reset and acts as an FLR on the rest of the controller. -/
  | pciePerst (low : Bool)
  /-- PCIE_LINK_CHANGE (R331). The PCIe link comes up or goes down, raising LINKDOWN on loss. -/
  | pcieLinkChange (up : Bool) (gen width : Nat)
  /-- MSIX_UNMASK (R333). Unmasking a vector with its pending bit set sends the message. -/
  | msixUnmask (v : Nat)
  /-- DOMAIN_REQUEST (R337). A DOMREQ write switches domains on or off, is refused, or is held for DMA. -/
  | domainRequest (q : Requester) (v : Word)
  /-- DOMAIN_UP (R337). A switched-on domain comes up with its reset values and asserts DOMCHG. -/
  | domainUp (d : Nat)
  /-- RAIL_SEQUENCE_UP (R340). SEQCTL.UP in state OFF starts the up sequence over the enabled slots. -/
  | railSequenceUp (q : Requester)
  /-- RAIL_SEQUENCE_DOWN (R341). SEQCTL.DOWN in state ON starts the down sequence in reverse order. -/
  | railSequenceDown (q : Requester)
  /-- RAIL_POWER_GOOD (R340). A slot's power-good arrives in the up sequence and its UPDLY starts. -/
  | railPowerGood (n : Nat)
  /-- RAIL_PG_TIMEOUT (R342). No power-good by PGTO fails the rail with rail-up-fail and runs the down sequence. -/
  | railPgTimeout (n : Nat)
  /-- RAIL_UP_DELAY_END (R340). UPDLY ends and the next slot is switched on, or the sequence reaches ON. -/
  | railUpDelayEnd (n : Nat)
  /-- RAIL_DISCHARGED (R341). A slot's rail has discharged in the down sequence and its DNDLY starts. -/
  | railDischarged (n : Nat)
  /-- RAIL_DISCHARGE_TIMEOUT (R341). DISTO expires without discharge, and the slot records DTO with rail-down-fail. -/
  | railDischargeTimeout (n : Nat)
  /-- RAIL_DOWN_DELAY_END (R341). DNDLY ends and the next slot is switched off, or the sequence ends OFF or LATCHED. -/
  | railDownDelayEnd (n : Nat)
  /-- RAIL_LOST (R342). Power-good absent for 100 us in state ON fails the rail with rail-lost. -/
  | railLost (n : Nat)
  /-- PMBUS_TRANSACTION_DONE (R339). A PMBus transaction completes, or is retried and finally fails with pmbus-error. -/
  | pmbusTransactionDone (n : Nat) (ok : Bool) (data : Nat)
  /-- PMBUS_STATUS_POLL (R339). Every 1 ms STATUS_WORD of a PMBus slot is polled. -/
  | pmbusStatusPoll (n : Nat)
  /-- LATCHCLR (R343). A supervisor write of 0xC3 in state LATCHED clears the rail failure latch. -/
  | latchclr (q : Requester) (v : Word)
  /-- AC_LOSS (R344). AC_OK low for ACDEB us runs the hardware shutdown: outputs off, records LOST, last words, down sequence and power-down. -/
  | acLoss
  /-- AC_RESTART (R344). After OFFT and AC_OK high for ACDEB, the device restarts from cold. -/
  | acRestart
  /-- SOFTWARE_RESET (R346). SYS_SWRST with key 0x96 shuts down with sw-reset and restarts. -/
  | softwareReset (q : Requester) (v : Word)
  /-- THROTTLE_GRACE_END (R349). The grace timer ends with a request present, and TENF := 1. -/
  | throttleGraceEnd
  /-- FAULT_MESSAGE (R363). A fault message reaches the collector, applies its class effects on sheets and outputs, and is captured or lost. -/
  | faultMessage (src kind cls : Nat) (sid : Sid) (param : BitVec 40)
  /-- FAULT_CLEAR (R364). FLT_CLR frees a record and re-raises its kind if the standing condition holds. -/
  | faultClear (q : Requester) (v : Word)
  /-- ALIVE_TOGGLE (R372). At each TICK multiple of HALF, ALIVE inverts unless held. -/
  | aliveToggle
  /-- ALIVE_WRITE (R372). Writing FLT_ALIVE.EN = 1 restarts toggling at the next multiple of HALF. -/
  | aliveWrite (q : Requester) (v : Word)
  /-- KICK (R431). A KICK write restarts the kick window. -/
  | kick (q : Requester) (v : Word)
  /-- KICK_WINDOW_EXPIRE (R431). KWIN ms without a kick raises alive-kick, class 3, once. -/
  | kickWindowExpire
  /-- INTERLOCK_OPEN (R371). ILK_N low deasserts LEN and HVEN without a clock and raises interlock-open. -/
  | interlockOpen
  /-- INTERLOCK_QUALIFIED (R371). ILK_N high for 100 ms is qualified, allowing LEN and HVEN again. -/
  | interlockQualified
  /-- PORT_UP (R377). A Fjarilink port comes up after 1 ms of block lock and a HELLO. -/
  | portUp (p : Nat)
  /-- HELLO_TIMER (R380). Every 1 ms a node sends HELLO on both ports. -/
  | helloTimer
  /-- HELLO_FRAME (R380). A received HELLO updates routes, is forwarded, and may raise addr-duplicate. -/
  | helloFrame (p : Nat) (f : Frame) (good : Bool)
  /-- FRAME_ACK (R379). A neighbour's acknowledgement retires an event or bulk frame. -/
  | frameAck (p lseq : Nat)
  /-- FRAME_RETRANSMIT (R379). An unacknowledged frame is resent after 20 us, and a fifth failure takes the port down. -/
  | frameRetransmit (p : Nat)
  /-- TIME_EXCHANGE_TIMER (R382). Every SYNCPER x 125 us a node sends a stamped time request on its time port. -/
  | timeExchangeTimer (sub : Nat)
  /-- TIME_REQUEST_FRAME (R382). A time request is stamped on arrival and answered with a stamped reply. -/
  | timeRequestFrame (p : Nat) (f : Frame) (good : Bool) (sub turn : Nat)
  /-- TIME_REPLY_FRAME (R383). A time reply yields theta and d, updating TOFF, TRIM and the time state. -/
  | timeReplyFrame (p : Nat) (f : Frame) (good : Bool) (sub : Nat)
  /-- TIME_HOLDOVER_TIMEOUT (R383). No valid exchange for 8 periods, or the time port down, enters HOLDOVER. -/
  | timeHoldoverTimeout
  /-- GROUP_TIME_TIMEOUT (R383). A group slave in HOLDOVER for GHOLD ms raises group-time. -/
  | groupTimeTimeout
  /-- USER_FRAME (R384). A USER event frame is accepted and scheduled for its domain time, or discarded as late. -/
  | userFrame (p : Nat) (f : Frame) (good : Bool)
  /-- USER_EVENT_DUE (R384). A scheduled USER event's time is reached, EVDATA is written and USER is asserted. -/
  | userEventDue
  /-- CATCH_FRAME (R385). A received CATCH enters the slave's catch table and asserts GCATCH. -/
  | catchFrame (p : Nat) (f : Frame) (good : Bool)
  /-- CANCEL_FRAME (R384). A received CANCEL raises group-cancel naming the SID. -/
  | cancelFrame (p : Nat) (f : Frame) (good : Bool)
  /-- MISS_FRAME (R384). A received MISS makes the group master raise group-miss. -/
  | missFrame (p : Nat) (f : Frame) (good : Bool)
  /-- SPOIL_FRAME (R386). A received SPOIL raises group-spoil naming the SID. -/
  | spoilFrame (p : Nat) (f : Frame) (good : Bool)
  /-- STOP_FRAME (R386). A received STOP raises group-stop, class 3. -/
  | stopFrame (p : Nat) (f : Frame) (good : Bool)
  /-- HEART_FRAME (R387). A received HEART confirms group membership. -/
  | heartFrame (p : Nat) (f : Frame) (good : Bool)
  /-- HEART_TIMER (R387). Every 1 ms the master sends HEART to its group. -/
  | heartTimer
  /-- MEMBER_LOST_TIMEOUT (R387). No HEART for 10 ms raises member-lost. -/
  | memberLostTimeout (node : Nat)
  /-- GCGO (R385). The group master sends CATCH for GCATCH_SID at GCATCH_T, or refuses with LEAD or ROLE. -/
  | gcgo (q : Requester)
  /-- CHREQ (R398). A chunk request is answered in hardware with CHDATA or CHNAK. -/
  | chreq (p : Nat) (f : Frame) (good : Bool)
  /-- CHDATA (R398). A received chunk of an image is taken by the loader. -/
  | chdata (p : Nat) (f : Frame) (good back : Bool)
  /-- CHNAK (R398). A neighbour reports that it does not hold the chunk. -/
  | chnak (p : Nat) (f : Frame) (good : Bool)
  /-- ATTEST (R393). Signs the attestation statement with the unit key. -/
  | attest (q : Requester)
  /-- LOAD (R393). Loads a section into its target and sets its measurement slot. -/
  | load (q : Requester) (target : Nat)
  /-- CHECKHDR (R399). Applies image checks 1-7 to the header in the buffer. -/
  | checkhdr (q : Requester)
  /-- ARMUPD (R400). Writes the update record with its source order and starts a software reset. -/
  | armupd (q : Requester) (order : Nat)
  /-- ENVWRITE (R405). Checks an envelope in the buffer and writes it over the older or invalid flash copy. -/
  | envwrite (q : Requester)
  /-- ADVANCE (R397). Blows rollback fuses up to the running bundle's ROLLBACK. -/
  | advance (q : Requester)
  /-- KEYPROG (R394). Programs an unprogrammed OTP key hash from the buffer. -/
  | keyprog (q : Requester) (key : Nat)
  /-- DBGCHAL (R394). Places a 32-byte debug challenge in the buffer. -/
  | dbgchal (q : Requester)
  /-- DBGRESP (R394). Verifies the debugger's signature and unlocks JTAG until reset. -/
  | dbgresp (q : Requester)
  /-- SEC_OP_DONE (R405). A SEC operation ends with DONE and its code, and asserts OPDONE. -/
  | secOpDone (ok : Bool)
  /-- LOADER_CHUNK_DESCRIPTOR (R401). The resident loader takes a chunk descriptor from ring 0, writes and reads back the chunk, and answers on ring 1. -/
  | loaderChunkDescriptor (back : Bool)
  /-- LOADER_SOURCE_TIMEOUT (R401). A source that supplies no chunk for 10 s is dropped for the next. -/
  | loaderSourceTimeout
  /-- BLOCK_LOCK_LOSS (R377). A Fjarilink receiver loses block lock, the port goes down, routes are relearned and a time port going down sends the node to HOLDOVER. -/
  | blockLockLoss (p : Nat)
  /-- PCIE_POWER_STATE (R331). The host moves the function between D0 and D3hot, which stops or restores BAR decoding and holds or releases host-window accesses. -/
  | pciePowerState (d3 : Bool)
  /-- RESET_ASSERTED (R279). RST_N falls, which resets the device at once, drives every output to its reset state and ends a running shutdown or flash operation early. -/
  | resetAsserted
  /-- BAR4_ACCESS (R307). A host access through BAR4 reads or writes DRAM from B4BASE, and one at or above the usable capacity reads zero, writes nothing and raises a class 0 note. -/
  | bar4Access (write : Option Word) (lanes off : Nat) (ecc : Ecc)
  /-- BAR2_WRITE (R332). A host write to the snapshot banks through BAR2 is ignored with a class 0 note. -/
  | bar2Write (off : Nat)
  deriving DecidableEq, Repr

end Sys2Proof
end

