-- ==== Sys2Proof/WellFormed.lean ====
section
/-! DEFINITION. Which operands of a command name units and fields that the family has. -/

namespace Sys2Proof

/-- Context k of a core: Cox cores 0-7 and the supervisor 8, four contexts each (R74). -/
def okCtx (core k : Nat) : Bool := core < 9 && k < 4

/-- A general register g0-g31, or a 5-bit immediate. -/
def okG (r : Nat) : Bool := r < 32

/-- A requester of Table 3.7: a context, the host, one of the 24 DMA channels, or the Scull engine. -/
def okReq : Requester → Bool
  | .ctx core k => okCtx core k
  | .dma c => c < 24
  | .host | .scull => true

/-- A conversion input: AIN0-AIN63, on-die sensor 0-8, or shunt input. -/
def okAdc : AdcInput → Bool
  | .ain k => k < 64
  | .die n => n < 9
  | .shunt n => n < 54

/-- A Fjarilink frame whose fields fit Table 14.1. -/
def okFrame (f : Frame) : Bool :=
  f.cls < 4 && f.typ < 16 && f.hops < 256 && f.dst < 16384 && f.src < 16384 && f.lseq < 65536 && f.body.length ≤ 1028

/-- Every operand names something that the larger part of the family, the PE-5480, has. -/
def wellFormed (i : Instr) : Bool :=
  match i with
  | .registerWrite q off bytes _ => okReq q && decide (off < 0x1000000) && (bytes == 1 || bytes == 2 || bytes == 4 || bytes == 8)
  | .latchedLowRead q off => okReq q && decide (off < 0x1000000)
  | .readClear q off => okReq q && decide (off < 0x1000000)
  | .sluCreate core k _ => okCtx core k
  | .reserve core k r => okCtx core k && decide (r < 256)
  | .admitSheet core k r => okCtx core k && decide (r < 256)
  | .unadmit core k r => okCtx core k && decide (r < 256)
  | .withdraw core k r => okCtx core k && decide (r < 256)
  | .unreserve core k r => okCtx core k && decide (r < 256)
  | .free core k r => okCtx core k && decide (r < 256)
  | .sluOpUndefined core k op r => okCtx core k && (op == 0 || (7 ≤ op && op < 16)) && decide (r < 256)
  | .sheetRecordWrite core k r w _ => okCtx core k && decide (r < 256) && decide (w < 16)
  | .sluCtlWrite core k _ => okCtx core k
  | .sluRsvWrite core k _ => okCtx core k
  | .throttleSpeedStep => true
  | .sheetArm r => decide (r < 256)
  | .catch r => decide (r < 256)
  | .sheetTransferred r => decide (r < 256)
  | .bandDeadline r stn k => decide (r < 256) && decide (stn < 5) && decide (k < 1024)
  | .watchWindowJudged w r => decide (w < 16) && decide (r < 256)
  | .watchCfgWrite core k w _ => okCtx core k && decide (w < 16)
  | .snapshotPeriodicTrigger => true
  | .snapshotCaptureDone => true
  | .snapshotBankRead q b off => okReq q && decide (b < 2) && decide (off < 32768)
  | .snapshotHoldExpire b => decide (b < 2)
  | .hsfWrite => true
  | .synthEnable q k _ => okReq q && decide (k < 7)
  | .synthDisable q k _ => okReq q && decide (k < 7)
  | .synthLock k => decide (k < 7)
  | .synthLockLoss k => decide (k < 7)
  | .synthRampEnd k => decide (k < 7)
  | .clockLossDrainEnd => true
  | .clockLossDrainTimeout => true
  | .refclkLoss => true
  | .refclkReturn => true
  | .ppcrateWrite q _ => okReq q
  | .ppcWatchdogExpire => true
  | .strokeStart stn => decide (stn < 5)
  | .lineStep stn => decide (stn < 5)
  | .bdMissing stn => decide (stn < 5)
  | .levelFrame stn z => decide (stn < 5) && decide (z < 32)
  | .safeFrame stn => decide (stn < 5)
  | .headTempSample stn => decide (stn < 5)
  | .fzEdge stn => decide (stn < 5)
  | .signatureDone stn _ => decide (stn < 5)
  | .vidCtlWrite q stn _ => okReq q && decide (stn < 5)
  | .bmapSelWrite q _ => okReq q
  | .start core k => okCtx core k
  | .halt core k => okCtx core k
  | .resume core k => okCtx core k
  | .discard core k => okCtx core k
  | .cancel core => decide (core < 9)
  | .disarm core => decide (core < 9)
  | .coxEnable core _ => decide (core < 8)
  | .coxDisable core _ => decide (core < 8)
  | .swev q core _ => okReq q && decide (core < 9)
  | .supmpuLock _ => true
  | .comparatorFire core n => decide (core < 9) && (if core == 8 then decide (n < 16) else decide (n < 32))
  | .pinpulseEnd core n => decide (core < 9) && (if core == 8 then decide (n < 16) else decide (n < 32))
  | .commitReady core k => okCtx core k
  | .commitApply core k => okCtx core k
  | .reset => true
  | .add core k rd rs1 rs2 => okCtx core k && okG rd && okG rs1 && okG rs2
  | .sub core k rd rs1 rs2 => okCtx core k && okG rd && okG rs1 && okG rs2
  | .and core k rd rs1 rs2 => okCtx core k && okG rd && okG rs1 && okG rs2
  | .or core k rd rs1 rs2 => okCtx core k && okG rd && okG rs1 && okG rs2
  | .xor core k rd rs1 rs2 => okCtx core k && okG rd && okG rs1 && okG rs2
  | .sll core k rd rs1 rs2 => okCtx core k && okG rd && okG rs1 && okG rs2
  | .slli core k rd rs1 u5 => okCtx core k && okG rd && okG rs1 && okG u5
  | .srl core k rd rs1 rs2 => okCtx core k && okG rd && okG rs1 && okG rs2
  | .srli core k rd rs1 u5 => okCtx core k && okG rd && okG rs1 && okG u5
  | .sra core k rd rs1 rs2 => okCtx core k && okG rd && okG rs1 && okG rs2
  | .srai core k rd rs1 u5 => okCtx core k && okG rd && okG rs1 && okG u5
  | .slt core k rd rs1 rs2 => okCtx core k && okG rd && okG rs1 && okG rs2
  | .sltu core k rd rs1 rs2 => okCtx core k && okG rd && okG rs1 && okG rs2
  | .min core k rd rs1 rs2 => okCtx core k && okG rd && okG rs1 && okG rs2
  | .max core k rd rs1 rs2 => okCtx core k && okG rd && okG rs1 && okG rs2
  | .minu core k rd rs1 rs2 => okCtx core k && okG rd && okG rs1 && okG rs2
  | .maxu core k rd rs1 rs2 => okCtx core k && okG rd && okG rs1 && okG rs2
  | .adds core k rd rs1 rs2 => okCtx core k && okG rd && okG rs1 && okG rs2
  | .subs core k rd rs1 rs2 => okCtx core k && okG rd && okG rs1 && okG rs2
  | .clz core k rd rs1 => okCtx core k && okG rd && okG rs1
  | .mul core k rd rs1 rs2 => okCtx core k && okG rd && okG rs1 && okG rs2
  | .mulh core k rd rs1 rs2 => okCtx core k && okG rd && okG rs1 && okG rs2
  | .mulhu core k rd rs1 rs2 => okCtx core k && okG rd && okG rs1 && okG rs2
  | .sats core k rd rs1 u5 => okCtx core k && okG rd && okG rs1 && okG u5
  | .satu core k rd rs1 u5 => okCtx core k && okG rd && okG rs1 && okG u5
  | .addi core k rd rs1 _ => okCtx core k && okG rd && okG rs1
  | .andi core k rd rs1 _ => okCtx core k && okG rd && okG rs1
  | .ori core k rd rs1 _ => okCtx core k && okG rd && okG rs1
  | .xori core k rd rs1 _ => okCtx core k && okG rd && okG rs1
  | .slti core k rd rs1 _ => okCtx core k && okG rd && okG rs1
  | .sltiu core k rd rs1 _ => okCtx core k && okG rd && okG rs1
  | .ldh core k rd _ => okCtx core k && okG rd
  | .lw core k rd rs1 _ _ => okCtx core k && okG rd && okG rs1
  | .lh core k rd rs1 _ _ => okCtx core k && okG rd && okG rs1
  | .lhu core k rd rs1 _ _ => okCtx core k && okG rd && okG rs1
  | .lb core k rd rs1 _ _ => okCtx core k && okG rd && okG rs1
  | .lbu core k rd rs1 _ _ => okCtx core k && okG rd && okG rs1
  | .lwf core k rd rs1 _ _ => okCtx core k && okG rd && okG rs1
  | .sw core k rs2 rs1 _ _ => okCtx core k && okG rs2 && okG rs1
  | .sh core k rs2 rs1 _ _ => okCtx core k && okG rs2 && okG rs1
  | .sb core k rs2 rs1 _ _ => okCtx core k && okG rs2 && okG rs1
  | .swf core k rs2 rs1 _ _ => okCtx core k && okG rs2 && okG rs1
  | .amoadd core k rd rs1 rs2 _ _ => okCtx core k && okG rd && okG rs1 && okG rs2
  | .amoswp core k rd rs1 rs2 _ _ => okCtx core k && okG rd && okG rs1 && okG rs2
  | .beq core k rs1 rs2 _ => okCtx core k && okG rs1 && okG rs2
  | .bne core k rs1 rs2 _ => okCtx core k && okG rs1 && okG rs2
  | .blt core k rs1 rs2 _ => okCtx core k && okG rs1 && okG rs2
  | .bge core k rs1 rs2 _ => okCtx core k && okG rs1 && okG rs2
  | .bltu core k rs1 rs2 _ => okCtx core k && okG rs1 && okG rs2
  | .bgeu core k rs1 rs2 _ => okCtx core k && okG rs1 && okG rs2
  | .jal core k _ => okCtx core k
  | .jalr core k rd rs1 _ => okCtx core k && okG rd && okG rs1
  | .csrr core k rd csr => okCtx core k && okG rd && decide (csr < 4096)
  | .csrw core k rd csr rs1 => okCtx core k && okG rd && decide (csr < 4096) && okG rs1
  | .csrs core k rd csr rs1 => okCtx core k && okG rd && decide (csr < 4096) && okG rs1
  | .csrc core k rd csr rs1 => okCtx core k && okG rd && decide (csr < 4096) && okG rs1
  | .stgclr core k rd rs1 => okCtx core k && okG rd && okG rs1
  | .cmtcan core k rd rs1 => okCtx core k && okG rd && okG rs1
  | .waitt core k rd rs1 rs2 code sub => okCtx core k && okG rd && okG rs1 && okG rs2 && decide (code < 8) && decide (sub < 128)
  | .waittWake core k => okCtx core k
  | .waite core k rd rs1 => okCtx core k && okG rd && okG rs1
  | .waiteWake core k => okCtx core k
  | .sleep core k rs1 => okCtx core k && okG rs1
  | .sleepWake core k => okCtx core k
  | .yield core k => okCtx core k
  | .pri core k rd rs1 => okCtx core k && okG rd && okG rs1
  | .arm core k rd rs1 => okCtx core k && okG rd && okG rs1
  | .darm core k rd rs1 => okCtx core k && okG rd && okG rs1
  | .stg core k rs2 rs1 _ => okCtx core k && okG rs2 && okG rs1
  | .cmt core k rd rs1 rs2 code sub _ => okCtx core k && okG rd && okG rs1 && okG rs2 && decide (code < 8) && decide (sub < 128)
  | .push core k rd rs1 ring _ => okCtx core k && okG rd && okG rs1 && decide (ring < 32)
  | .pop core k rd rs1 ring _ => okCtx core k && okG rd && okG rs1 && decide (ring < 32)
  | .flt core k rd rs1 rs2 code sub => okCtx core k && okG rd && okG rs1 && okG rs2 && decide (code < 8) && decide (sub < 128)
  | .undefinedInstruction core k _ => okCtx core k
  | .ingestDescriptor => true
  | .ingestAllocate => true
  | .peatHeaderArrived _ => true
  | .ingestTransferDone _ => true
  | .deflateStart => true
  | .deflateDone e _ => decide (e < 4)
  | .ingestVerifyDone e => decide (e < 4)
  | .ingestCompletionPost => true
  | .purge q _ => okReq q
  | .pin q _ => okReq q
  | .unpin q _ => okReq q
  | .query q _ => okReq q
  | .sweep q => okReq q
  | .jsopUndefined q op _ => okReq q && (op == 0 || op == 6 || op == 7)
  | .jobStoreHoldExpire _ => true
  | .feederStart stn => decide (stn < 5)
  | .feederBandStart stn _ => decide (stn < 5)
  | .inflateRunStart => true
  | .inflateRunDone e _ => decide (e < 4)
  | .crcGo q => okReq q
  | .crcDone _ => true
  | .slotTrigger n => decide (n < 96)
  | .slotInputsRead n => decide (n < 96)
  | .scullDispatch => true
  | .scullBudgetExpire => true
  | .scullOutputWrite => true
  | .rcSyncEvent n => decide (n < 96)
  | .slotEnable q n _ => okReq q && decide (n < 96)
  | .adcConversion i _ => okAdc i
  | .hvSustainedOvercurrent h => decide (h < 24)
  | .markArm q _ => okReq q
  | .markAbort q _ => okReq q
  | .markWindowClose stn x bar _ _ => decide (stn < 5) && decide (x < 4) && decide (bar < 2)
  | .zcEdge => true
  | .zcLoss => true
  | .fuserGateFire z => decide (z < 4)
  | .fuserGateEnd z => decide (z < 4)
  | .encEdge q _ _ _ sub => decide (q < 12) && decide (sub < 8)
  | .encIndex q => decide (q.ch < 12)
  | .encStandstill q => decide (q < 12)
  | .speedWindowEnd q => decide (q < 12)
  | .encModeWrite q ch _ => okReq q && decide (ch < 12)
  | .ssiFrameStart p _ => decide (p < 4)
  | .ssiFrameEnd p _ _ _ _ => decide (p < 4)
  | .snsRawTransition i _ => decide (i < 48)
  | .sensorEdge i => decide (i < 48)
  | .chatterEnd i => decide (i < 48)
  | .snsCtlWrite q _ => okReq q
  | .servoPeriod => true
  | .segmentMove q a _ => okReq q && decide (a < 20)
  | .segmentMoveRelative q a _ => okReq q && decide (a < 20)
  | .segmentRun q a _ => okReq q && decide (a < 20)
  | .segmentDecelerate q a _ => okReq q && decide (a < 20)
  | .segmentQuickStop q a _ => okReq q && decide (a < 20)
  | .segmentHome q a _ => okReq q && decide (a < 20)
  | .segmentUndefined q a mode _ => okReq q && decide (a < 20) && decide (mode < 8)
  | .segmentDelayedStart a => decide (a < 20)
  | .profileRateWrite q a which _ => okReq q && decide (a < 20) && decide (which < 3)
  | .polyEnable q n _ => okReq q && decide (n < 5)
  | .polyDisable q n _ => okReq q && decide (n < 5)
  | .polyAlignEnd n => decide (n < 5)
  | .polyRampEnd n => decide (n < 5)
  | .bemfCrossing n phase _ sub => decide (n < 5) && decide (phase < 3) && decide (sub < 8)
  | .hallEdge n code => decide (n < 5) && decide (code < 8)
  | .polyCommutate n => decide (n < 5)
  | .polyStepTimeout n => decide (n < 5)
  | .polyCatchTimeout n => decide (n < 5)
  | .polyPwmPeriod n => decide (n < 5)
  | .servoPwmPeriod n => decide (n < 8)
  | .stepperPwmPeriod n => decide (n < 12)
  | .stepperHoldTimeout n => decide (n < 12)
  | .chopperCurrentCheck => true
  | .chopperRiseCheck => true
  | .dramEnable q _ => okReq q
  | .dramTrainingDone _ => true
  | .refreshDue _ => true
  | .mr4Poll derate => decide (derate < 4)
  | .dqsOscCheck _ => true
  | .retrainStart => true
  | .retrainDone => true
  | .retrainLate => true
  | .ringEnable q r _ => okReq q && decide (r < 32)
  | .ringProducerDoorbell r _ => decide (r < 32)
  | .ringConsumerIndex r _ => decide (r < 32)
  | .ringIrqTimer r => decide (r < 32)
  | .dmaGo q c => okReq q && decide (c < 24)
  | .dmaAbort q c => okReq q && decide (c < 24)
  | .dmaSkip q c => okReq q && decide (c < 24)
  | .dmaShload q c => okReq q && decide (c < 24)
  | .tdFetch c _ => decide (c < 24)
  | .dmaBurst c _ => decide (c < 24)
  | .tdComplete c => decide (c < 24)
  | .dmaBusTimeout c => decide (c < 24)
  | .dmaWaitTimeout c => decide (c < 24)
  | .dmaPowerdownTimeout d => decide (d < 12)
  | .datuWalkDone q _ => decide (q < 27)
  | .pageRequestPost => true
  | .prack q _ => okReq q
  | .invpage q _ => okReq q
  | .invall q _ => okReq q
  | .invalidationDone => true
  | .functionLevelReset => true
  | .pciePerst _ => true
  | .pcieLinkChange _ gen width => (1 ≤ gen && gen < 4) && (width == 1 || width == 2 || width == 4)
  | .msixUnmask v => decide (v < 64)
  | .domainRequest q _ => okReq q
  | .domainUp d => decide (d < 12)
  | .railSequenceUp q => okReq q
  | .railSequenceDown q => okReq q
  | .railPowerGood n => decide (n < 16)
  | .railPgTimeout n => decide (n < 16)
  | .railUpDelayEnd n => decide (n < 16)
  | .railDischarged n => decide (n < 16)
  | .railDischargeTimeout n => decide (n < 16)
  | .railDownDelayEnd n => decide (n < 16)
  | .railLost n => decide (n < 16)
  | .pmbusTransactionDone n _ data => decide (n < 16) && decide (data < 65536)
  | .pmbusStatusPoll n => decide (n < 16)
  | .latchclr q _ => okReq q
  | .acLoss => true
  | .acRestart => true
  | .softwareReset q _ => okReq q
  | .throttleGraceEnd => true
  | .faultMessage src kind cls _ _ => decide (src < 1024) && decide (kind < 256) && decide (cls < 5)
  | .faultClear q _ => okReq q
  | .aliveToggle => true
  | .aliveWrite q _ => okReq q
  | .kick q _ => okReq q
  | .kickWindowExpire => true
  | .interlockOpen => true
  | .interlockQualified => true
  | .portUp p => decide (p < 2)
  | .helloTimer => true
  | .helloFrame p f _ => decide (p < 2) && okFrame f
  | .frameAck p lseq => decide (p < 2) && decide (lseq < 65536)
  | .frameRetransmit p => decide (p < 2)
  | .timeExchangeTimer sub => decide (sub < 64)
  | .timeRequestFrame p f _ sub _ => decide (p < 2) && okFrame f && decide (sub < 64)
  | .timeReplyFrame p f _ sub => decide (p < 2) && okFrame f && decide (sub < 64)
  | .timeHoldoverTimeout => true
  | .groupTimeTimeout => true
  | .userFrame p f _ => decide (p < 2) && okFrame f
  | .userEventDue => true
  | .catchFrame p f _ => decide (p < 2) && okFrame f
  | .cancelFrame p f _ => decide (p < 2) && okFrame f
  | .missFrame p f _ => decide (p < 2) && okFrame f
  | .spoilFrame p f _ => decide (p < 2) && okFrame f
  | .stopFrame p f _ => decide (p < 2) && okFrame f
  | .heartFrame p f _ => decide (p < 2) && okFrame f
  | .heartTimer => true
  | .memberLostTimeout node => decide (node < 16384)
  | .gcgo q => okReq q
  | .chreq p f _ => decide (p < 2) && okFrame f
  | .chdata p f _ _ => decide (p < 2) && okFrame f
  | .chnak p f _ => decide (p < 2) && okFrame f
  | .attest q => okReq q
  | .load q target => okReq q && decide (target < 16)
  | .checkhdr q => okReq q
  | .armupd q order => okReq q && decide (order < 256)
  | .envwrite q => okReq q
  | .advance q => okReq q
  | .keyprog q key => okReq q && decide (key < 256)
  | .dbgchal q => okReq q
  | .dbgresp q => okReq q
  | .secOpDone _ => true
  | .loaderChunkDescriptor _ => true
  | .loaderSourceTimeout => true
  | .blockLockLoss p => decide (p < 2)
  | .pciePowerState _ => true
  | .resetAsserted => true
  | .bar4Access _ lanes _ _ => decide (lanes < 16)
  | .bar2Write off => decide (off < 65536)

end Sys2Proof
end

