-- ==== Sys2Proof/Decode.lean ====
section
/-! DEFINITION. The command that a table word spells, and the words of Meper instructions (R109, R110, Tables 4.1 to
4.4, 4.6). The opcode table gives its rows no bits, so no table word spells a command; the Meper words are the ones that
the cores fetch. -/

namespace Sys2Proof

/-- The command that a word spells by the opcode table's bits: the table gives no row any bits. -/
def decodeTableWord (_nbits _w : Nat) : Option Instr := none

/-! ## Fields of an instruction word -/

/-- The n bits of a word from bit lo on. -/
def fieldAt (w : Word) (lo n : Nat) : Nat := w.toNat / 2 ^ lo % 2 ^ n

/-- The immediate half-word, bits [31:16]. -/
def immField (w : Word) : BitVec 16 := BitVec.ofNat 16 (w.toNat / 65536)

/-- A word of format A: op, rd, rs1, rs2, func. -/
def packA (op rd rs1 rs2 func : Nat) : Word :=
  BitVec.ofNat 32 (op + rd * 2 ^ 6 + rs1 * 2 ^ 11 + rs2 * 2 ^ 16 + func * 2 ^ 21)

/-- A word of the formats I, S, B and U: op, the two low register fields and the upper half-word. -/
def packI (op x y : Nat) (imm : BitVec 16) : Word := BitVec.ofNat 32 (op + x * 2 ^ 6 + y * 2 ^ 11 + imm.toNat * 2 ^ 16)

/-- A word of format J. -/
def packJ (op : Nat) (off : BitVec 26) : Word := BitVec.ofNat 32 (op + off.toNat * 2 ^ 6)

/-- A word of format C: op, rd, rs1, kind, csr. -/
def packC (op rd rs1 kind csr : Nat) : Word :=
  BitVec.ofNat 32 (op + rd * 2 ^ 6 + rs1 * 2 ^ 11 + kind * 2 ^ 16 + csr * 2 ^ 20)

/-- A word of format T: op, rd, rs1, rs2, code, flag, sub. -/
def packT (op rd rs1 rs2 code flag sub : Nat) : Word :=
  BitVec.ofNat 32 (op + rd * 2 ^ 6 + rs1 * 2 ^ 11 + rs2 * 2 ^ 16 + code * 2 ^ 21 + flag * 2 ^ 24 + sub * 2 ^ 25)

/-! ## Decoding -/

/-- The instruction if the condition on its unused fields holds. -/
def whenOk (ok : Bool) (i : Instr) : Option Instr := if ok then some i else none

/-- The ALU group, op 0x01 (Table 4.3): func is func[5:0] with func[10] as bit 10. -/
def decodeAlu (core k rd rs1 rs2 func : Nat) : Option Instr :=
  match func with
  | 0x000 => some (.add core k rd rs1 rs2)
  | 0x001 => some (.sub core k rd rs1 rs2)
  | 0x002 => some (.and core k rd rs1 rs2)
  | 0x003 => some (.or core k rd rs1 rs2)
  | 0x004 => some (.xor core k rd rs1 rs2)
  | 0x005 => some (.sll core k rd rs1 rs2)
  | 0x405 => some (.slli core k rd rs1 rs2)
  | 0x006 => some (.srl core k rd rs1 rs2)
  | 0x406 => some (.srli core k rd rs1 rs2)
  | 0x007 => some (.sra core k rd rs1 rs2)
  | 0x407 => some (.srai core k rd rs1 rs2)
  | 0x008 => some (.slt core k rd rs1 rs2)
  | 0x009 => some (.sltu core k rd rs1 rs2)
  | 0x00A => some (.min core k rd rs1 rs2)
  | 0x00B => some (.max core k rd rs1 rs2)
  | 0x00C => some (.minu core k rd rs1 rs2)
  | 0x00D => some (.maxu core k rd rs1 rs2)
  | 0x00E => some (.adds core k rd rs1 rs2)
  | 0x00F => some (.subs core k rd rs1 rs2)
  | 0x010 => whenOk (rs2 == 0) (.clz core k rd rs1)
  | 0x011 => some (.mul core k rd rs1 rs2)
  | 0x012 => some (.mulh core k rd rs1 rs2)
  | 0x013 => some (.mulhu core k rd rs1 rs2)
  | 0x414 => some (.sats core k rd rs1 rs2)
  | 0x415 => some (.satu core k rd rs1 rs2)
  | _ => none

/-- Access of a CSR: some true when it can be written, none when there is no such CSR (Table 4.4). -/
def csrKind (n : Nat) : Option Bool :=
  match n with
  | 0x002 | 0x003 | 0x005 | 0x007 => some true
  | 0x000 | 0x001 | 0x004 | 0x006 | 0x010 | 0x011 | 0x012 | 0x013 | 0x020 | 0x021 | 0x022 | 0x023 => some false
  | _ => none

/-- The CSR group, op 0x28 (R118): a CSRW of STGCLR or CMTCAN is the table's command of that name. -/
def decodeCsr (core k rd rs1 kind csr : Nat) : Option Instr :=
  match csrKind csr, kind with
  | some _, 0 => whenOk (rs1 == 0) (.csrr core k rd csr)
  | some true, 1 =>
    if csr = 5 then some (.stgclr core k rd rs1) else if csr = 7 then some (.cmtcan core k rd rs1)
    else some (.csrw core k rd csr rs1)
  | some true, 2 => some (.csrs core k rd csr rs1)
  | some true, 3 => some (.csrc core k rd csr rs1)
  | _, _ => none

/-- The fields of a WAITT that are in range on a part with that many stations (R121). -/
def waittOk (stations rs2 code sub : Nat) : Bool :=
  (code < 2 && sub == 0) || ((code == 2 || code == 3) && rs2 == 0 && sub < stations)

/-- The fields of a CMT that are in range (R127, Table 4.6). -/
def cmtOk (stations rs1 rs2 code sub : Nat) (late : Bool) : Bool :=
  match code with
  | 0 => rs1 == 0 && rs2 == 0 && sub == 0 && !late
  | 1 | 2 => sub == 0
  | 3 | 4 | 5 => rs1 == 0 && rs2 == 0 && sub < stations && !late
  | 6 => rs1 == 0 && rs2 == 0 && sub < 96 && !late
  | 7 => rs2 == 0 && sub < stations
  | _ => false

/-- The Meper instruction that a word spells for context k of a core, on a part with that many stations; `ans` is how
the target of a memory access answers. None: the encoding is undefined (R110). -/
def decodeMeper (stations core k : Nat) (ans : BusAns) (w : Word) : Option Instr :=
  let x := fieldAt w 6 5
  let y := fieldAt w 11 5
  let z := fieldAt w 16 5
  let func := fieldAt w 21 11
  let imm := immField w
  let code := fieldAt w 21 3
  let flag := fieldAt w 24 1 == 1
  let sub := fieldAt w 25 7
  match fieldAt w 0 6 with
  | 0x01 => decodeAlu core k x y z func
  | 0x02 => some (.addi core k x y imm)
  | 0x03 => some (.andi core k x y imm)
  | 0x04 => some (.ori core k x y imm)
  | 0x05 => some (.xori core k x y imm)
  | 0x06 => some (.slti core k x y imm)
  | 0x07 => some (.sltiu core k x y imm)
  | 0x09 => whenOk (y == 0) (.ldh core k x imm)
  | 0x10 => some (.lw core k x y imm ans)
  | 0x11 => some (.lh core k x y imm ans)
  | 0x12 => some (.lhu core k x y imm ans)
  | 0x13 => some (.lb core k x y imm ans)
  | 0x14 => some (.lbu core k x y imm ans)
  | 0x15 => some (.lwf core k x y imm ans)
  | 0x18 => some (.sw core k x y imm ans)
  | 0x19 => some (.sh core k x y imm ans)
  | 0x1A => some (.sb core k x y imm ans)
  | 0x1B => some (.swf core k x y imm ans)
  | 0x1C =>
    match func with
    | 0 => some (.amoadd core k x y z false ans)
    | 1 => some (.amoswp core k x y z false ans)
    | 2 => some (.amoadd core k x y z true ans)
    | 3 => some (.amoswp core k x y z true ans)
    | _ => none
  | 0x20 => some (.beq core k x y imm)
  | 0x21 => some (.bne core k x y imm)
  | 0x22 => some (.blt core k x y imm)
  | 0x23 => some (.bge core k x y imm)
  | 0x24 => some (.bltu core k x y imm)
  | 0x25 => some (.bgeu core k x y imm)
  | 0x26 => some (.jal core k (BitVec.ofNat 26 (w.toNat / 64)))
  | 0x27 => some (.jalr core k x y imm)
  | 0x28 => if fieldAt w 18 2 = 0 then decodeCsr core k x y (fieldAt w 16 2) (fieldAt w 20 12) else none
  | 0x30 => whenOk (!flag && waittOk stations z code sub) (.waitt core k x y z code sub)
  | 0x31 => whenOk (z == 0 && func == 0) (.waite core k x y)
  | 0x32 => whenOk (x == 0 && z == 0 && func == 0) (.sleep core k y)
  | 0x33 => whenOk (x == 0 && y == 0 && z == 0 && func == 0) (.yield core k)
  | 0x34 => whenOk (z == 0 && func == 0) (.pri core k x y)
  | 0x35 => whenOk (z == 0 && func == 0) (.arm core k x y)
  | 0x36 => whenOk (z == 0 && func == 0) (.darm core k x y)
  | 0x38 => some (.stg core k x y imm)
  | 0x39 => whenOk (cmtOk stations y z code sub flag) (.cmt core k x y z code sub flag)
  | 0x3A => whenOk (z == 0 && func < 32) (.push core k x y func ans)
  | 0x3B => whenOk (z == 0 && func < 32) (.pop core k x y func ans)
  | 0x3C => whenOk (!flag && code < 5) (.flt core k x y z code sub)
  | _ => none

/-- Is the word an undefined encoding on a part with that many stations? (R110) -/
def undefinedWord (stations : Nat) (w : Word) : Bool := (decodeMeper stations 0 0 .error w).isNone

/-! ## Encoding -/

/-- The fields of a Meper instruction are in the ranges that its encoding defines, on a part with that many stations,
and it is the table's own name for its word: a CSRW of STGCLR or CMTCAN is the command of that name. -/
def encodable (stations : Nat) (i : Instr) : Bool :=
  match i with
  | .csrr _ _ _ csr => (csrKind csr).isSome
  | .csrw _ _ _ csr _ => csrKind csr == some true && csr != 5 && csr != 7
  | .csrs _ _ _ csr _ => csrKind csr == some true
  | .csrc _ _ _ csr _ => csrKind csr == some true
  | .waitt _ _ _ _ rs2 code sub => waittOk stations rs2 code sub
  | .cmt _ _ _ rs1 rs2 code sub late => cmtOk stations rs1 rs2 code sub late
  | .flt _ _ _ _ _ code _ => code < 5
  | _ => true

/-- The word of a Meper instruction; none for a command that is no instruction. -/
def encodeMeper (i : Instr) : Option Word :=
  match i with
  | .add _ _ rd rs1 rs2 => some (packA 0x01 rd rs1 rs2 0x000)
  | .sub _ _ rd rs1 rs2 => some (packA 0x01 rd rs1 rs2 0x001)
  | .and _ _ rd rs1 rs2 => some (packA 0x01 rd rs1 rs2 0x002)
  | .or _ _ rd rs1 rs2 => some (packA 0x01 rd rs1 rs2 0x003)
  | .xor _ _ rd rs1 rs2 => some (packA 0x01 rd rs1 rs2 0x004)
  | .sll _ _ rd rs1 rs2 => some (packA 0x01 rd rs1 rs2 0x005)
  | .slli _ _ rd rs1 u => some (packA 0x01 rd rs1 u 0x405)
  | .srl _ _ rd rs1 rs2 => some (packA 0x01 rd rs1 rs2 0x006)
  | .srli _ _ rd rs1 u => some (packA 0x01 rd rs1 u 0x406)
  | .sra _ _ rd rs1 rs2 => some (packA 0x01 rd rs1 rs2 0x007)
  | .srai _ _ rd rs1 u => some (packA 0x01 rd rs1 u 0x407)
  | .slt _ _ rd rs1 rs2 => some (packA 0x01 rd rs1 rs2 0x008)
  | .sltu _ _ rd rs1 rs2 => some (packA 0x01 rd rs1 rs2 0x009)
  | .min _ _ rd rs1 rs2 => some (packA 0x01 rd rs1 rs2 0x00A)
  | .max _ _ rd rs1 rs2 => some (packA 0x01 rd rs1 rs2 0x00B)
  | .minu _ _ rd rs1 rs2 => some (packA 0x01 rd rs1 rs2 0x00C)
  | .maxu _ _ rd rs1 rs2 => some (packA 0x01 rd rs1 rs2 0x00D)
  | .adds _ _ rd rs1 rs2 => some (packA 0x01 rd rs1 rs2 0x00E)
  | .subs _ _ rd rs1 rs2 => some (packA 0x01 rd rs1 rs2 0x00F)
  | .clz _ _ rd rs1 => some (packA 0x01 rd rs1 0 0x010)
  | .mul _ _ rd rs1 rs2 => some (packA 0x01 rd rs1 rs2 0x011)
  | .mulh _ _ rd rs1 rs2 => some (packA 0x01 rd rs1 rs2 0x012)
  | .mulhu _ _ rd rs1 rs2 => some (packA 0x01 rd rs1 rs2 0x013)
  | .sats _ _ rd rs1 u => some (packA 0x01 rd rs1 u 0x414)
  | .satu _ _ rd rs1 u => some (packA 0x01 rd rs1 u 0x415)
  | .addi _ _ rd rs1 imm => some (packI 0x02 rd rs1 imm)
  | .andi _ _ rd rs1 imm => some (packI 0x03 rd rs1 imm)
  | .ori _ _ rd rs1 imm => some (packI 0x04 rd rs1 imm)
  | .xori _ _ rd rs1 imm => some (packI 0x05 rd rs1 imm)
  | .slti _ _ rd rs1 imm => some (packI 0x06 rd rs1 imm)
  | .sltiu _ _ rd rs1 imm => some (packI 0x07 rd rs1 imm)
  | .ldh _ _ rd imm => some (packI 0x09 rd 0 imm)
  | .lw _ _ rd rs1 imm _ => some (packI 0x10 rd rs1 imm)
  | .lh _ _ rd rs1 imm _ => some (packI 0x11 rd rs1 imm)
  | .lhu _ _ rd rs1 imm _ => some (packI 0x12 rd rs1 imm)
  | .lb _ _ rd rs1 imm _ => some (packI 0x13 rd rs1 imm)
  | .lbu _ _ rd rs1 imm _ => some (packI 0x14 rd rs1 imm)
  | .lwf _ _ rd rs1 imm _ => some (packI 0x15 rd rs1 imm)
  | .sw _ _ rs2 rs1 imm _ => some (packI 0x18 rs2 rs1 imm)
  | .sh _ _ rs2 rs1 imm _ => some (packI 0x19 rs2 rs1 imm)
  | .sb _ _ rs2 rs1 imm _ => some (packI 0x1A rs2 rs1 imm)
  | .swf _ _ rs2 rs1 imm _ => some (packI 0x1B rs2 rs1 imm)
  | .amoadd _ _ rd rs1 rs2 far _ => some (packA 0x1C rd rs1 rs2 (if far then 2 else 0))
  | .amoswp _ _ rd rs1 rs2 far _ => some (packA 0x1C rd rs1 rs2 (if far then 3 else 1))
  | .beq _ _ rs1 rs2 off => some (packI 0x20 rs1 rs2 off)
  | .bne _ _ rs1 rs2 off => some (packI 0x21 rs1 rs2 off)
  | .blt _ _ rs1 rs2 off => some (packI 0x22 rs1 rs2 off)
  | .bge _ _ rs1 rs2 off => some (packI 0x23 rs1 rs2 off)
  | .bltu _ _ rs1 rs2 off => some (packI 0x24 rs1 rs2 off)
  | .bgeu _ _ rs1 rs2 off => some (packI 0x25 rs1 rs2 off)
  | .jal _ _ off => some (packJ 0x26 off)
  | .jalr _ _ rd rs1 imm => some (packI 0x27 rd rs1 imm)
  | .csrr _ _ rd csr => some (packC 0x28 rd 0 0 csr)
  | .csrw _ _ rd csr rs1 => some (packC 0x28 rd rs1 1 csr)
  | .stgclr _ _ rd rs1 => some (packC 0x28 rd rs1 1 5)
  | .cmtcan _ _ rd rs1 => some (packC 0x28 rd rs1 1 7)
  | .csrs _ _ rd csr rs1 => some (packC 0x28 rd rs1 2 csr)
  | .csrc _ _ rd csr rs1 => some (packC 0x28 rd rs1 3 csr)
  | .waitt _ _ rd rs1 rs2 code sub => some (packT 0x30 rd rs1 rs2 code 0 sub)
  | .waite _ _ rd rs1 => some (packA 0x31 rd rs1 0 0)
  | .sleep _ _ rs1 => some (packA 0x32 0 rs1 0 0)
  | .yield _ _ => some (packA 0x33 0 0 0 0)
  | .pri _ _ rd rs1 => some (packA 0x34 rd rs1 0 0)
  | .arm _ _ rd rs1 => some (packA 0x35 rd rs1 0 0)
  | .darm _ _ rd rs1 => some (packA 0x36 rd rs1 0 0)
  | .stg _ _ rs2 rs1 imm => some (packI 0x38 rs2 rs1 imm)
  | .cmt _ _ rd rs1 rs2 code sub late => some (packT 0x39 rd rs1 rs2 code (if late then 1 else 0) sub)
  | .push _ _ rd rs1 ring _ => some (packA 0x3A rd rs1 0 ring)
  | .pop _ _ rd rs1 ring _ => some (packA 0x3B rd rs1 0 ring)
  | .flt _ _ rd rs1 rs2 code sub => some (packT 0x3C rd rs1 rs2 code 0 sub)
  | _ => none

end Sys2Proof
end

