-- ==== Sys2Proof/Machine/State.lean ====
section
/-! DEFINITION. The state of the block, as plain data: the register file, the sheet ledger, the cores, the fault
collector and every other piece of state the spec gives the machine, its memories, and the queue of waiting
commands. Each field's default value is its value at reset. -/

namespace Sys2Proof.Machine

/-! ## The register map's vocabulary -/

/-- A field of a register: the register's BAR0 offset ((block << 16) + offset) and the field's bits [hi:lo]. -/
structure FRef where
  key : Nat
  hi : Nat
  lo : Nat
  deriving DecidableEq, Repr

/-- Access codes (Table 0.3). -/
inductive Acc where
  | rw | ro | wo | rc | w1c
  deriving DecidableEq, Repr

/-- Field classes (Table 0.4). -/
inductive Cls where
  | live | locked | line | stroke | gap | sample | segment
  deriving DecidableEq, Repr

/-- One field row of a register table. `rst` is the reset value, or one value per unit (innermost index). -/
structure Fld where
  hi : Nat
  lo : Nat
  acc : Acc
  cls : Cls
  rst : List Nat
  deriving DecidableEq, Repr

/-- One register row: its offset, the (stride, count) of each index, and its fields. -/
structure RegDef where
  off : Nat
  dims : List (Nat × Nat)
  flds : List Fld
  deriving DecidableEq, Repr

/-! ## How a step can stop -/

/-- The faults of the model: none. The spec gives every command an effect; what a command cannot do it notes, parks or
leaves undone. -/
inductive Fault where
  deriving DecidableEq, Repr

/-- The refusals of the model. -/
inductive Refusal where
  /-- Raised by an arm whose command has no meaning yet. Safe: the machine stops. -/
  | notModelled (mnemonic : String)
  deriving DecidableEq, Repr

/-! ## Sheets (R19-R26) -/

/-- The states of Table 1.2, in the order of their codes. -/
inductive SheetState where
  | free | queued | ready | admitted | caught | imaging | transferred | fused
  | delivered | spoiled | jammed | lost | withdrawn
  deriving DecidableEq, Repr

/-- One station's part of a sheet: what the video island and the ledger hold for it. -/
structure Leg where
  /-- the line-0 point L0[s], once fixed at the selection of the catching stroke (R37) -/
  l0 : Option Ppc := none
  /-- line 0 has been exposed (R24) -/
  begun : Bool := false
  /-- the last line has been exposed -/
  done : Bool := false
  /-- index i0 of the first line written by lane 0 of the catching stroke, as a count of lines already passed -/
  lead : Nat := 0
  /-- strokes exposed since the catching stroke, which is stroke 0 -/
  stroke : Nat := 0
  /-- lane-retired has named the sheet at this station (R179) -/
  retNoted : Bool := false
  /-- the station's band feeder has taken the sheet up (R157) -/
  fed : Bool := false
  /-- first line from which every read is blank, once the station is run out (R40) -/
  blankFrom : Option Nat := none
  /-- the run-out acts from the station's next stroke start (R40) -/
  blankNext : Bool := false
  deriving DecidableEq, Repr

/-- One sheet record: the fields of Table 1.1, then what the ledger keeps for it unseen. -/
structure Sheet where
  sid : Sid := 0
  state : SheetState := .free
  early : Bool := false
  spoil : Bool := false
  tsusp : Bool := false
  reimg : Bool := false
  sideb : Bool := false
  planes : Nat := 0
  speed : Nat := 0
  nearly : Nat := 0
  lines : Nat := 0
  width : Nat := 0
  fusband : Nat := 0
  hvset : Nat := 0
  media : Nat := 0
  hosttag : Nat := 0
  catchT : Tick := 0
  gateoff : Word := 0
  origsid : Sid := 0
  cppc : Ppc := 0
  dlmargin : Nat := 0
  trtick : Tick := 0
  fsrc : Nat := 0
  fkind : Nat := 0
  fclass : Nat := 0
  spband : Nat := 0x3FF
  spstn : Nat := 7
  res : List Nat := [0, 0, 0, 0, 0]
  /-- the early-catch rule, fixed at the ADMIT (R35) -/
  earlyRule : Bool := false
  /-- the arm has been reached (R38) -/
  armed : Bool := false
  /-- T_c + GATEOFF has been delivered to the gate axis (R38) -/
  gateSent : Bool := false
  /-- watches enabled at the ADMIT (bit w), which alone judge this sheet (Table 1.12) -/
  watches : Nat := 0
  /-- watches already judged for this sheet (bit w) -/
  judged : Nat := 0
  /-- held conditions of R24: transfer point reached, FUSE watch and TERM watch satisfied -/
  heldTransfer : Bool := false
  heldFuse : Bool := false
  heldTerm : Bool := false
  /-- the next band to judge at its deadline, per station: the deadlines of the bands below it have passed (R35) -/
  nextDl : List Nat := [0, 0, 0, 0, 0]
  legs : Tab Leg := []
  deriving DecidableEq, Repr

/-! ## The fault collector (R357-R364) -/

/-- A source or class record (Table 13.12). `aux` keeps the context of a park message for R364. -/
structure FltRec where
  held : Bool := false
  cls : Nat := 0
  kind : Nat := 0
  reraise : Bool := false
  src : Nat := 0
  sid : Sid := 0
  param : BitVec 40 := 0
  tick : Tick := 0
  aux : Nat := 0
  deriving DecidableEq, Repr

/-- The collector and the alive signal. -/
structure Collector where
  srcs : Tab FltRec := []
  clss : Tab FltRec := []
  /-- the latest message of class 2 to 4 (Table 12.3) -/
  last : FltRec := {}
  /-- the sources most recently captured, latest first, at most 16 (Table 13.14) -/
  recent : List Nat := []
  /-- ALIVE toggles at the first multiple of HALF later than this TICK (R372) -/
  aliveFrom : Tick := 0
  /-- start of the running kick window, none when no window runs (R431) -/
  kickFrom : Option Tick := none
  deriving DecidableEq, Repr

/-! ## The snapshot block (R44-R49) -/

/-- What kind of ledger event a capture or a status frame serves (Table 1.16). -/
inductive SnapKind where
  | caught | terminal
  deriving DecidableEq, Repr

/-- A catch or terminal trigger: the record, its identifier and state just after the event, its TICK, and whether
HSFEN was 1 in that cycle (R48). -/
structure SnapEvent where
  kind : SnapKind
  idx : Nat
  sid : Sid
  state : SheetState
  trtick : Tick
  frame : Bool
  deriving DecidableEq, Repr

/-- A capture that is being written: its bank, its frozen words (offset, value; unlisted words are zero) and the
events it serves. -/
structure Capture where
  bank : Nat
  epoch : Word
  words : List (Nat × Word)
  /-- the status frames of the events served: words 0x00-0xFF with FRAMESEQ and CHECK still zero -/
  frames : List (List Word)
  deriving DecidableEq, Repr

/-- The snapshot block's unseen state. -/
structure Snap where
  writing : Option Capture := none
  /-- periodic triggers absorbed into the waiting one; 0 when none waits -/
  waitPer : Nat := 0
  waitEv : List SnapEvent := []
  /-- the waiting capture found both banks held (R46) -/
  deferred : Bool := false
  /-- end of the hold of banks 0 and 1; none when not held -/
  hold0 : Option Tick := none
  hold1 : Option Tick := none
  /-- the bank written by the latest capture, none before the first -/
  lastBank : Option Nat := none
  /-- the next periodic trigger is at the first multiple of 1 ms later than this TICK -/
  perFrom : Tick := 0
  /-- status frames waiting to be written, oldest first: sequence number and the 64 words -/
  frames : List (Word × List Word) := []
  /-- an indivisible step is in progress, within which no capture begins (R44) -/
  frozen : Bool := false
  /-- DELIVERED, SPOILED, JAMMED, LOST and WITHDRAWN counts since reset (Table 1.16) -/
  counts : List Nat := [0, 0, 0, 0, 0]
  deriving DecidableEq, Repr

/-! ## Clocks (R50-R73) -/

/-- The third-order MASH 1-1-1 modulator of a synthesiser: its three accumulators, in 2^-25 of the ratio, the carries its
output still needs, and the ratio of the present PFD cycle. -/
structure Mash where
  a1 : Nat := 0
  a2 : Nat := 0
  a3 : Nat := 0
  /-- the second stage's latest carry; the third stage's latest two -/
  c2 : Nat := 0
  c3 : Nat := 0
  c3' : Nat := 0
  div : Int := 0
  deriving DecidableEq, Repr

/-- A synthesiser's unseen state. -/
structure Syn where
  mash : Mash := {}
  /-- the oscillator control value (CVAL), a free value but while it is frozen (R54) -/
  cval : BitVec 16 := 0
  /-- the coast was caused by REFCLK loss (Table 2.6) -/
  coastRef : Bool := false
  /-- end of the 50 us ramp after a change of F (R58) -/
  rampEnd : Option Tick := none
  /-- the dither generator; its default is the seed that SYSPLL loads at reset, where it enters ACQUIRE (R54, R56) -/
  dither : Nat := 4096
  /-- REFCLK cycles since the latest PFD cycle (R52, R56) -/
  pfd : Nat := 0
  /-- the value of F in use, which a change in COAST or GATED updates at the next LOCKED (Table 2.7) -/
  fUsed : Nat := 0
  deriving DecidableEq, Repr

/-- The master timebases and the clock system's unseen state. -/
structure Clk where
  tick : Tick := 0
  tickFrac : Word := 0
  ppc : Ppc := 0
  ppcFrac : Word := 0
  /-- core clock cycles since RST_N rose (Table 4.4) -/
  cycles : BitVec 64 := 0
  refclk : Bool := false
  /-- TICK of the latest PPCRATE write (R70) -/
  ppcWrite : Tick := 0
  /-- SYSPLL and MEMPLL losses that are draining: the fault kind and the TICK of the loss (R60) -/
  drain : List (Nat × Tick) := []
  syn : Tab Syn := []
  deriving DecidableEq, Repr

/-! ## The cores (R74-R106) -/

/-- Context states (Table 3.2), in the order of their codes. -/
inductive CtxState where
  | idle | ready | running | waiting | parked
  deriving DecidableEq, Repr

/-- Commit boundaries (Table 3.12). -/
inductive Boundary where
  | now
  | tick (t : Tick)
  | ppc (p : Ppc)
  | stroke (s : Nat)
  | line (s : Nat)
  | gap (s : Nat)
  | slot (n : Nat)
  | strokeN (s : Nat) (n : Word)
  deriving DecidableEq, Repr

/-- A sealed commit in a context's slot (R96). -/
structure Commit where
  boundary : Boundary
  lateOk : Bool
  /-- register offset and value, in staging order -/
  entries : List (Nat × Word)
  /-- order of sealing among all commits (Table 3.14) -/
  seq : Nat
  ready : Bool := false
  /-- TICK at the CMT -/
  sealedAt : Tick
  deriving DecidableEq, Repr

/-- What a WAITING context waits for. -/
inductive Wait where
  | none
  | timebase (base stn : Nat) (target : BitVec 64) (rd : Nat)
  | events (mask : Word) (rd : Nat)
  | sleep (end_ : Tick)
  | commit (b : Boundary) (late : Bool) (rd : Nat)
  /-- an issued access that completes in the background, the context having been pre-empted (R78) -/
  | access
  deriving DecidableEq, Repr

/-- One hardware context (R74). -/
structure Ctx where
  regs : Tab Word := []
  pc : Word := 0
  state : CtxState := .idle
  prio : Nat := 0
  cause : Nat := 0
  faddr : BitVec 40 := 0
  evpend : Word := 0
  stage : List (Nat × Word) := []
  slot : Option Commit := none
  cmtCode : Nat := 0
  cmtSeq : Nat := 0
  cmtCount : Nat := 0
  farhi : BitVec 8 := 0
  iret : BitVec 64 := 0
  cycleHi : Word := 0
  iretHi : Word := 0
  tickHi : Word := 0
  ppcHi : Word := 0
  wait : Wait := .none
  /-- order in which the context last became READY (R77) -/
  readyAt : Nat := 0
  /-- core cycle in which an event made it READY, until it has completed an instruction (R79) -/
  woken : Option (BitVec 64) := none
  /-- the access of its present instruction has been issued and not answered (R78) -/
  issued : Bool := false
  /-- HALT has been written while the access was on its way: the context goes IDLE once it has completed (Table 4.9) -/
  halting : Bool := false
  deriving DecidableEq, Repr

/-- One timed-action comparator (R90), with the arm block it was armed from. -/
structure Cmp where
  armed : Bool := false
  base : Nat := 0
  stn : Nat := 0
  periodic : Bool := false
  ctx : Nat := 0
  action : Nat := 0
  late : Bool := false
  tgt : BitVec 64 := 0
  per : Word := 0
  pin : Nat := 0
  regOff : Nat := 0
  value : Word := 0
  width : Nat := 0
  /-- PINPULSEs that run, by pin: the end and the level to return to -/
  pulses : Tab (Tick × Bool) := []
  deriving DecidableEq, Repr

/-- The cores: contexts at core * 4 + k and comparators at core * 32 + n, the supervisor being core 8. -/
structure Cox where
  ctxs : Tab Ctx := [(32, { state := .running, prio := 3 })]
  cmps : Tab Cmp := []
  readyClock : Nat := 1
  sealClock : Nat := 0
  /-- the boot ROM has been left (R104) -/
  romSealed : Bool := false
  deriving DecidableEq, Repr

/-! ## The Scull engine's unseen state (R193-R220) -/

/-- A slot's unseen state. -/
structure SclSlot where
  /-- it has been triggered, and its inputs are on their way -/
  reading : Bool := false
  /-- index that the run of the latest trigger uses (R212) -/
  idx : Nat := 0
  /-- TICK of the latest trigger -/
  last : Option Tick := none
  /-- triggers for which a sync hold still freezes learning (R214); the latest trigger was one of them -/
  hold : Nat := 0
  held : Bool := false
  /-- hand-over value and blend sample (R217) -/
  h : Int := 0
  k : Nat := 0
  /-- TICK of the latest rc-sat -/
  satAt : Option Tick := none
  deriving DecidableEq, Repr

/-- The run in progress: its slot, whether it has reached END (else it has gone past its budget), and the engine
cycles it takes. -/
structure SclRun where
  slot : Nat
  ended : Bool
  cycles : Nat
  deriving DecidableEq, Repr

/-- A program's write that waits for the run in progress to end (R211, R218): to a word of the repetitive-controller
memory, or to a register. -/
structure SclWrite where
  rc : Bool
  key : Nat
  v : Word
  deriving DecidableEq, Repr

/-- The Scull engine: what lies between a trigger and a slot's outputs. -/
structure Scl where
  /-- slots whose trigger condition has been met and has not been served, oldest first -/
  trigDue : List Nat := []
  /-- slots whose sync event has been asserted and has not been served -/
  syncDue : List Nat := []
  slots : Tab SclSlot := []
  run : Option SclRun := none
  /-- slots whose sample boundary waits for a run of their group to end (R218) -/
  bounds : List Nat := []
  waiting : List SclWrite := []
  /-- the slot whose latest run wrote a register last, by register, for the guards that act later (R202) -/
  writers : Tab Nat := []
  /-- the repetitive-controller memory, two Q15 words to an entry -/
  rc : Tab Word := []
  /-- runs of the latest 1 ms: TICK of the end, and engine time in 2.5 ns -/
  hist : List (Tick × Nat) := []
  deriving DecidableEq, Repr

/-! ## The video islands' unseen state (R164-R192) -/

/-- A pulse of a lane (R173): start and width in 1/64 dot from the stroke start, and its drive level. -/
structure Pulse where
  lane : Nat
  start : Int
  width : Nat
  level : Nat
  deriving DecidableEq, Repr

/-- The sheet or mark frame whose catching stroke at a station started most recently (R168). -/
structure Recent where
  /-- its record; none for a mark frame -/
  sheet : Option Nat
  sid : Sid
  /-- the target t of R168 -/
  target : Ppc
  lead : Nat
  /-- strokes since the catching stroke -/
  stroke : Nat
  deriving DecidableEq, Repr

/-- A video island's unseen state. -/
structure Vid where
  /-- duty of each lane and of the station over 1 ms and 10 ms, in 1/65,536, at the latest stroke start (R183) -/
  duty1 : List Nat := []
  duty10 : List Nat := []
  sduty1 : Nat := 0
  sduty10 : Nat := 0
  /-- the record whose catching stroke started most recently and is still being exposed (Table 6.10) -/
  exposing : Option Nat := none
  /-- TICK and PPC stamps of the latest two stroke starts, latest first (R68) -/
  stamps : List (Tick × Ppc) := []
  /-- TICK of the BD edge of the latest stroke, or of the forecast that stood for it (R57, R187) -/
  bdAt : Tick := 0
  /-- LINEs at the latest stroke start (R73) -/
  line0 : Word := 0
  recent : Option Recent := none
  /-- pulses of the latest stroke -/
  pulses : List Pulse := []
  /-- strokes of the latest 10 ms: stamp, on-time of each lane and of the station in 1/64 dot (R183) -/
  hist : List (Tick × List Nat × Nat) := []
  /-- consecutive strokes in which the drive ceiling clamped each lane (R179) -/
  clampRun : List Nat := []
  /-- consecutive strokes within FTOL, and beyond 4 x FTOL (R233) -/
  lockRun : Nat := 0
  missRun : Nat := 0
  /-- a facet-zero edge waits for its BD; a previous one exists to count from; BD edges since it (R185) -/
  fzPend : Bool := false
  fzHave : Bool := false
  bdSince : Nat := 0
  fzMiss : Nat := 0
  rezero : Bool := false
  /-- the signature measurement that runs: the sum of the BD periods of each facet position, and how many (R186) -/
  sigSums : List Nat := []
  sigCount : Nat := 0
  /-- identity from the signature is settled until the next speed lock; failed attempts (R186) -/
  sigDone : Bool := false
  sigTries : Nat := 0
  /-- the head reading was at or above the ceiling at the latest sample (R184) -/
  headCeil : Bool := false
  /-- levels of the latest drive-link frame that was latched (R181) -/
  levels : List Nat := []
  /-- zone of the latest frame of this stroke, and the TICK of the latest safe frame -/
  zone : Nat := 0
  safeAt : Tick := 0
  /-- the latest stroke was an S:gap boundary (R100) -/
  gap : Bool := false
  deriving DecidableEq, Repr

/-! ## Analog inputs, high voltage and the fuser (R223-R225, R234-R238) -/

/-- What an analog input's latest conversions were: consecutive ones near either end of the range, consecutive ones
inside it, and consecutive ones at or beyond the limit that guards it. -/
structure AdcIn where
  near : Nat := 0
  inside : Nat := 0
  hits : Nat := 0
  deriving DecidableEq, Repr

/-- A high-voltage channel's unseen state. -/
structure HvCh where
  /-- TICK from which the monitor has stayed above the sustained limit -/
  above : Option Tick := none
  /-- TICK of the latest hv-clamp -/
  clampAt : Option Tick := none
  /-- CFG.EN has been written 0 since the overcurrent record was cleared -/
  rearm : Bool := false
  deriving DecidableEq, Repr

/-- The fuser's unseen state. -/
structure Fuser where
  /-- FUS_G0-FUS_G3 that are high, bit z -/
  gates : Nat := 0
  /-- the zones' accumulators (R236) -/
  acc : List Nat := [0, 0, 0, 0]
  /-- TICK of the latest valid crossing, and consecutive valid half-cycles (R237) -/
  zcAt : Option Tick := none
  zcGood : Nat := 0
  /-- gate pulses due to rise, and due to fall, by zone -/
  fireAt : Tab Tick := []
  endAt : Tab Tick := []
  /-- induction mode: the fabric cycle at which the present PWM period began, and its duties in 1/32,768 -/
  pwmAt : Nat := 0
  duty : List Nat := [0, 0, 0, 0]
  /-- consecutive guard conversions at or above each zone's ceiling, at most 4 -/
  ceil : List Nat := [0, 0, 0, 0]
  /-- TICK of the latest fuser-clamp -/
  clampAt : Option Tick := none
  deriving DecidableEq, Repr

/-! ## Temperature (R347-R349) -/

/-- The thermal unit's unseen state. -/
structure Thermal where
  /-- groups at or above CRIT, bit g; die sensors at or above the trip, bit n -/
  crit : Nat := 0
  die : Nat := 0
  /-- end of the grace that runs -/
  grace : Option Tick := none
  deriving DecidableEq, Repr

/-! ## Feedback, switches and motion (R247-R276) -/

/-- A quadrature channel's unseen state. Stamps count 1.25 ns, eight to a TICK (R247). -/
structure Enc where
  /-- the decoder's state of A and B -/
  a : Bool := false
  b : Bool := false
  /-- stamp of the previous accepted change, and its PPC with 32 fractional bits -/
  lastAcc : Option Nat := none
  accPpc : Nat := 0
  /-- stamp of the previous accepted index -/
  lastZ : Option Nat := none
  /-- stamp from which t_e runs: the latest valid edge, or what made the direction unknown if none has come since (R256) -/
  valid : Nat := 0
  /-- what the standstill of this TICK forgot: an accepted count in the same cycle comes before it (Table 9.3) -/
  still : Option (Nat × List Nat × Bool × Bool) := none
  /-- the direction is known (R255) -/
  dirKnown : Bool := false
  /-- stamps of the valid edges since the latest change of direction, latest first, at most five -/
  edges : List Nat := []
  /-- dir of R251 -/
  hyst : Int := 0
  /-- the next index is the first since enable or standstill (R253) -/
  idxFirst : Bool := true
  /-- the previous comparison was a mismatch -/
  mismatch : Bool := false
  /-- TICKs of the changes rejected within the latest 1 ms (R249) -/
  rejects : List Nat := []
  /-- TICK of the latest glitch-rate fault -/
  glAt : Option Nat := none
  /-- CNT and TICK at the start of the count window (R257) -/
  winCnt : Word := 0
  winAt : Tick := 0
  deriving DecidableEq, Repr

/-- An SSI port's unseen state (R258). -/
structure Ssi where
  /-- TICK of the latest frame start -/
  start : Tick := 0
  /-- a frame is running; true = it found D low at its start -/
  frame : Option Bool := none
  /-- the next frame starts no sooner than this TICK -/
  ready : Tick := 0
  /-- the latest valid value and the TICK of its frame -/
  last : Option (Nat × Tick) := none
  /-- consecutive bad frames -/
  bad : Nat := 0
  deriving DecidableEq, Repr

/-- A switch input's unseen state (R259, R260). -/
structure SnsIn where
  /-- TICK and PPC from which the present raw level is timed -/
  tick : Tick := 0
  ppc : Ppc := 0
  /-- TICKs of the raw transitions within the chatter window, latest first -/
  trans : List Nat := []
  /-- TICK of the latest raw transition -/
  raw : Tick := 0
  /-- positions of the axes at the stamp (R268) -/
  pos : List Int := []
  deriving DecidableEq, Repr

/-- A filtered edge of an input, with its stamp. -/
structure SnsEdge where
  sns : Nat
  lvl : Bool
  tick : Tick
  ppc : Ppc
  /-- positions of the axes at the stamp -/
  pos : List Int := []
  deriving DecidableEq, Repr

/-- Phases of homing (Table 9.2). -/
inductive Homing where
  | none
  /-- the search at HV1, or at HV2 in mode 3 -/
  | search
  /-- stopping after the sought switch asserted -/
  | turn
  /-- the return at HV2 -/
  | back
  /-- onward at HV2 to the index (mode 2) -/
  | onward
  /-- quick-stopping after a limit trip, before the search goes the other way -/
  | trip (was : Nat)
  /-- stopping after the capture; the phase to resume if it is discarded (0 search, 1 back, 2 onward) -/
  | settle (was : Nat)
  deriving DecidableEq, Repr

/-- An axis's unseen state. Positions and velocities have 16 fractional bits. -/
structure Axis where
  pos : Int := 0
  vel : Int := 0
  /-- MODE of the segment in progress -/
  mode : Nat := 0
  /-- the target of a move -/
  tgt : Int := 0
  /-- VMAX, ACC and DEC as the segment in progress uses them (R264) -/
  vmax : Nat := 0
  acc : Nat := 0
  dec : Nat := 0
  /-- sign of a run, and of a homing movement -/
  sgn : Int := 1
  /-- braking onto the target has begun -/
  braking : Bool := false
  /-- a segment waits (PEND): its MODE and its target -/
  pend : Option (Nat × Int) := none
  /-- the gate time delivered for the segment that waits, and its sheet (R265) -/
  gateT : Option (Tick × Sid) := none
  /-- TICK of the latest set-point, or of the segment's time origin -/
  last : Tick := 0
  homing : Homing := .none
  /-- the position latched at the capture edge -/
  cap : Option Int := none
  /-- the capture came in the present servo period -/
  capNew : Bool := false
  /-- a limit has already reversed this search (R269) -/
  tripped : Bool := false
  /-- the limit that tripped is the positive one -/
  limPos : Bool := false
  /-- TICK at which a stepper came to rest, for its holding current (R295) -/
  restAt : Tick := 0
  deriving DecidableEq, Repr

/-! ## Ingest, the job store and the feeders (R136-R163) -/

/-- A band in the job store: the fields of its header (Table 5.1) and its payload. -/
structure Band where
  stn : Nat
  band : Nat
  nlines : Nat
  width : Nat
  raw : Bool
  blank : Bool
  /-- compressed or kept raw by the controller (STORED) -/
  stored : Bool
  tag : Word
  payload : List Byte
  deriving DecidableEq, Repr

/-- The bands of one sheet identifier (R153). -/
structure Entry where
  bands : List Band := []
  pinned : Bool := false
  /-- end of the hold that runs -/
  hold : Option Tick := none
  /-- a hold has ended, and the entry was kept for a reference or a pin -/
  ended : Bool := false
  deriving DecidableEq, Repr

/-- Where a descriptor stands in the steps of R142. -/
inductive Stage where
  /-- step 2: waiting for store units and an index entry -/
  | room
  /-- step 3: in transfer; true once a Peat header has passed its check -/
  | transfer (header : Bool)
  /-- a raw band waiting for a deflate engine, or a Peat band waiting for its verification -/
  | wait
  /-- on a deflate engine -/
  | engine (e : Nat)
  /-- step 5: the completion record waits -/
  | post
  deriving DecidableEq, Repr

/-- A descriptor that ingest has taken. -/
structure Ingest where
  desc : List Word
  stage : Stage
  code : Nat := 0
  kept : Nat := 0
  /-- store units allocated to it -/
  units : Nat := 0
  /-- the band, once transferred -/
  band : Option Band := none
  /-- its entry has been purged while it was in transfer (Table 5.6) -/
  purged : Bool := false
  /-- KEEPRAW as it stood when its units were allocated -/
  keepRaw : Bool := false
  /-- the hash-chain depth that the deflate engine read when it started the band (R147) -/
  depth : Nat := 0
  deriving DecidableEq, Repr

/-- A Huffman code: the number of codes of each length 0-15, and the symbols in canonical order. -/
structure Huff where
  counts : List Nat
  syms : List Nat
  deriving DecidableEq, Repr

/-- Where a DEFLATE decoder stands: before a block header, within a stored block with bytes left, within a block of
Huffman codes, or past the last block. -/
inductive InfBlk where
  | head
  | stored (left : Nat)
  | codes (lit dist : Huff)
  | done
  deriving DecidableEq, Repr

/-- A stream context (R150): the position in the payload in bits, the bytes written so far, whether the present block is
the last one, the block with its tables, and a match still to copy. -/
structure Stream where
  pos : Nat := 0
  len : Nat := 0
  last : Bool := false
  blk : InfBlk := .head
  left : Nat := 0
  dist : Nat := 0
  deriving DecidableEq, Repr

/-- A station's band feeder and stream context (R150, R157). -/
structure Feeder where
  /-- the record whose bands it feeds, and its identifier -/
  sheet : Option Nat := none
  sid : Sid := 0
  /-- the band being fed, and whether it has been started -/
  band : Nat := 0
  started : Bool := false
  /-- lines of the sheet that have been written to the line buffer -/
  filled : Nat := 0
  /-- the inflate engine running this stream, and the context between its runs -/
  eng : Option Nat := none
  stream : Stream := {}
  deriving DecidableEq, Repr

/-- Ingest, the job store and the feeders. -/
structure Peat where
  entries : Tab Entry := []
  /-- descriptors taken, in ring order -/
  ingest : List Ingest := []
  feeders : Tab Feeder := []
  /-- CRC unit 3 is running over this address and length -/
  crc : Option (Nat × Nat) := none
  deriving DecidableEq, Repr

/-! ## Registration marks (R226-R229) -/

/-- The mark unit's unseen state: the frame that is armed or active. -/
structure Mark where
  /-- MKPOS as it stood at the ARM -/
  pos : Ppc := 0
  /-- the frame's part at each station, as for a sheet -/
  legs : Tab Leg := []
  /-- windows that have closed, by (station * 4 + sensor) * 2 + bar: the sum of the two stamps of a valid bar,
  relative to the window's centre, in 1/16 count -/
  bars : Tab (Option Int) := []
  deriving DecidableEq, Repr

/-! ## DRAM, DMA, the DATU and the endpoint (R306-R335) -/

/-- A request that waits in the DRAM controller: its class, its page hint, bank and row, and the TICK of its arrival (R310,
R311). -/
structure DramReq where
  video : Bool
  opn : Bool
  bank : Nat
  row : Nat
  at_ : Tick
  deriving DecidableEq, Repr

/-- One channel of the DRAM controller: the queue, oldest first; the open row of each bank that has one; the row hits served in
succession ahead of an older request. -/
structure DramChan where
  queue : List DramReq := []
  rows : List (Nat × Nat) := []
  hits : Nat := 0
  deriving DecidableEq, Repr

/-- The DRAM controller's unseen state. -/
structure Dram where
  /-- TICK of the latest oscillator check and of the latest read of mode register 4 -/
  oscAt : Tick := 0
  mr4At : Tick := 0
  /-- TICK of the latest dram-ce -/
  ceAt : Option Tick := none
  /-- TICK at which a retrain became due; retrain-late has been raised for it; it is running -/
  dueAt : Tick := 0
  lateSent : Bool := false
  retrain : Bool := false
  /-- the two channels; the instant of the latest refresh that fell due, in 1/4 ns -/
  ch0 : DramChan := {}
  ch1 : DramChan := {}
  refAt : Nat := 0
  deriving DecidableEq, Repr

/-- A DMA channel's unseen state. -/
structure Chan where
  /-- the active set holds a TD -/
  act : Bool := false
  /-- addresses the active TD and the shadow TD were taken from -/
  addr : Nat := 0
  shAddr : Nat := 0
  /-- position in the active TD: line, and byte within it -/
  line : Nat := 0
  off : Nat := 0
  /-- every burst is done and the completion is due; a COMPARE has found a difference -/
  done : Bool := false
  mism : Bool := false
  /-- a TD is to be fetched from this address -/
  fetch : Option Nat := none
  /-- TICK of the entry into WAIT -/
  waitAt : Option Tick := none
  deriving DecidableEq, Repr

/-- A translation in the IOTLB: the page of the window, the host page and its permissions. -/
structure Xlat where
  page : Nat
  frame : Nat
  r : Bool
  w : Bool
  deriving DecidableEq, Repr

/-- A table walk in progress for a requester (0-23 a DMA channel, 24 the status-frame writer): the internal address,
the direction, and whether INVPAGE has named its page. -/
structure Walk where
  req : Nat
  addr : Nat
  wr : Bool
  inval : Bool := false
  deriving DecidableEq, Repr

/-- A page request: posted once it has a tag. -/
structure PageReq where
  req : Nat
  addr : Nat
  wr : Bool
  perm : Bool
  tag : Option Nat := none
  deriving DecidableEq, Repr

/-- A ring's unsignalled entries, and the TICK of the earliest (R318). -/
structure RingIrq where
  count : Nat := 0
  since : Tick := 0
  deriving DecidableEq, Repr

/-- Rings, DMA channels, the DATU and the endpoint. -/
structure HostIf where
  rings : Tab RingIrq := []
  chans : Tab Chan := []
  /-- the video-class channel granted most recently -/
  lastVid : Nat := 23
  /-- the IOTLB by set, most recently used first -/
  tlb : Tab (List Xlat) := []
  walks : List Walk := []
  reqs : List PageReq := []
  /-- the tag the next page request takes -/
  tag : Nat := 0
  /-- BAR4 is present, settled when the link first trains (Table 11.9) -/
  bar4 : Option Bool := none
  /-- PCIE_PERST_N is low -/
  perst : Bool := false
  deriving DecidableEq, Repr


/-! ## Fjarilink's unseen state (R377-R391) -/

/-- A frame that the neighbour has not acknowledged: how often it has been sent, and when last (R379). -/
structure Unacked where
  frame : Frame
  tries : Nat
  at_ : Tick
  deriving DecidableEq, Repr

/-- How far a node was by one port, and when its latest HELLO came by it (R380). -/
structure Hop where
  hops : Nat
  at_ : Tick
  deriving DecidableEq, Repr

/-- What the HELLOs of a node have told (R380): the way by the upstream and by the downstream port, and TMASTER. -/
structure Route where
  up : Option Hop := none
  down : Option Hop := none
  master : Bool := false
  deriving DecidableEq, Repr

/-- A USER event that waits for its domain time (R384). -/
structure UserEv where
  due : Nat
  code : Nat
  value : BitVec 64
  deriving DecidableEq, Repr

/-- Fjarilink's unseen state. Port 0 is the upstream port, port 1 the downstream port. -/
structure Fjl where
  lseq0 : Nat := 0
  lseq1 : Nat := 0
  unacked0 : List Unacked := []
  unacked1 : List Unacked := []
  routes : Tab Route := []
  /-- sheet identifiers the group master has scheduled (R385) -/
  sched : List Sid := []
  /-- catch-table entries whose arm has been checked (R386), bit e -/
  armChecked : Nat := 0
  /-- TICK at which EN became 1, of the latest HELLO and of the latest HEART sent -/
  enAt : Tick := 0
  helloAt : Tick := 0
  heartAt : Tick := 0
  /-- TICK of the latest HELLO with this node's address and another unit ID -/
  dupAt : Option Tick := none
  /-- stamp t1 of the request that waits for its reply, and the TICK of the latest request -/
  t1 : Option Nat := none
  reqAt : Tick := 0
  /-- TICK of the latest valid exchange; exchanges since ACQUIRE began; consecutive ones within TWIN -/
  exAt : Tick := 0
  acq : Nat := 0
  within : Nat := 0
  /-- TOFF has been set, and time-offset raised, in this ACQUIRE -/
  toffSet : Bool := false
  offSent : Bool := false
  /-- TICK of the entry into HOLDOVER; group-time has been raised in it -/
  holdAt : Tick := 0
  gtSent : Bool := false
  /-- values given to TRIM and when, latest first -/
  trims : List (Tick × Int) := []
  users : List UserEv := []
  /-- TICK of the latest HEART of a node; nodes found lost -/
  hearts : Tab Tick := []
  lost : Tab Bool := []
  deriving DecidableEq, Repr

/-! ## Identity and update (R392-R402) -/

/-- The SEC operations (Table 14.11). -/
inductive SecOp where
  | attest | load | checkhdr | armupd | envwrite | advance | keyprog | dbgchal | dbgresp
  deriving DecidableEq, Repr

/-- A SEC operation that runs: its argument and the requester whose OPRES reports it. -/
structure SecRun where
  op : SecOp
  arg : Nat
  q : Nat
  deriving DecidableEq, Repr

/-- The resident loader at work (R399-R402). -/
structure Loader where
  /-- SHA-256 of the header that the update record names; none when there is no record -/
  want : Option (List Byte) := none
  /-- sources in order (1 upstream, 2 downstream, 3 host), and which of them is asked -/
  order : List Nat := []
  cur : Nat := 0
  /-- TICK at which the present source last supplied a chunk, or became the one that is asked -/
  since : Tick := 0
  /-- chunk 0, held until every other chunk is written -/
  chunk0 : Option (List Byte) := none
  /-- chunks written and read back -/
  got : List Nat := []
  deriving DecidableEq, Repr

/-- Identity and update: OTP (R392, R394) and what the operations keep. -/
structure Sec where
  /-- ENVKEYHASH, IMGKEYHASH and DBGKEYHASH; an empty list is one that is not programmed -/
  keys : List (List Byte) := [[], [], []]
  /-- fuses blown -/
  rollback : Nat := 0
  run : Option SecRun := none
  /-- CHECKHDR passed on the present buffer -/
  checked : Bool := false
  /-- ROLLBACK of the running bundle -/
  running : Nat := 0
  /-- the debug challenge that waits for its response -/
  chal : Option (List Byte) := none
  loader : Option Loader := none
  deriving DecidableEq, Repr

/-! ## The motor drives' unseen state (R280-R300) -/

/-- The outputs of a leg: the spans, in fabric cycles from the start of the PWM period, in which the high-side and the
low-side output are high; those of the period before count back from it. -/
structure LegOut where
  hi : List (Int × Int) := []
  lo : List (Int × Int) := []
  deriving DecidableEq, Repr

/-- The gate outputs of a drive of three legs: the fabric cycle at which its PWM period began, the period, and the legs. -/
structure GateSet where
  at_ : Nat := 0
  per : Nat := 0
  legs : List LegOut := []
  deriving DecidableEq, Repr

/-- The chopping of a stepper phase in strong mode (R294): driven or decaying, and since which TICK. -/
structure Chop where
  on : Bool := false
  since : Tick := 0
  deriving DecidableEq, Repr

/-- A polygon drive. Stamps and periods count fabric cycles of 1.25 ns, eight to a TICK. -/
structure PolyDrv where
  /-- TICK at which ALIGN, RAMP or CATCH began -/
  since : Tick := 0
  /-- stamp of the latest crossing or Hall edge, none before the first; the instant from which a missing one is timed -/
  last : Option Nat := none
  refAt : Nat := 0
  /-- the code at the Hall inputs, 0 until an edge has been seen -/
  hall : Nat := 0
  /-- the latest commutation, and the next one due -/
  comAt : Nat := 0
  comDue : Option Nat := none
  /-- open-loop steps taken in RAMP -/
  steps : Nat := 0
  /-- consecutive crossings within the window; consecutive bad steps; consecutive steps above 102% of PMAX -/
  good : Nat := 0
  bad : Nat := 0
  fast : Nat := 0
  /-- consecutive steps within 1% of CMD; steps since the latest Ke check; consecutive Ke checks out of tolerance -/
  stable : Nat := 0
  keStep : Nat := 0
  keBad : Nat := 0
  /-- motor-constant has been raised since the enable -/
  keSent : Bool := false
  /-- speed integrator (1/65,536 mA), current demand (mA), current integrator (1/256 of 1/65,536 duty) -/
  integS : Int := 0
  demand : Nat := 0
  integC : Int := 0
  /-- consecutive periods above the peak limit -/
  peak : Nat := 0
  clampAt : Option Tick := none
  /-- crossings seen in CATCH: phase and stamp, latest first -/
  seen : List (Nat × Nat) := []
  deriving DecidableEq, Repr

/-- A servo axis's current regulators: integrators in uV, leg duties in 1/65,536. -/
structure SrvDrv where
  integQ : Int := 0
  integD : Int := 0
  duty : List Int := [0, 0, 0]
  peak : Nat := 0
  clampAt : Option Tick := none
  deriving DecidableEq, Repr

/-- A stepper axis's current regulators: integrators in 1/256 of 1/65,536 duty, outputs in 1/65,536. -/
structure StpDrv where
  integA : Int := 0
  integB : Int := 0
  outA : Int := 0
  outB : Int := 0
  /-- the fabric cycle at which the quiet PWM period began; the phases in strong mode -/
  at_ : Nat := 0
  chopA : Chop := {}
  chopB : Chop := {}
  /-- TICK at which the hold reduction began -/
  holdAt : Tick := 0
  peak : Nat := 0
  clampAt : Option Tick := none
  deriving DecidableEq, Repr

/-- The drives' unseen state; drive numbers are n for polygon n, 32 + n for servo axis n, 64 + n for stepper n, and
96 for the brake chopper. -/
structure Drives where
  /-- source and kind of each fault that put a drive into short-winding braking (R296), or off -/
  brake : Tab (List (Nat × Nat)) := []
  /-- drives whose enable has been written 0 since the records of those faults were cleared -/
  rearm : Tab Bool := []
  /-- gate outputs of polygons and servo axes, by drive number -/
  gates : Tab GateSet := []
  poly : Tab PolyDrv := []
  srv : Tab SrvDrv := []
  stp : Tab StpDrv := []
  /-- TICK at which BRK_G rose, and the bus voltage then in 10 mV; the checks of R297 still to make -/
  brkAt : Tick := 0
  brkV : Nat := 0
  brkCur : Bool := false
  brkRise : Bool := false
  deriving DecidableEq, Repr

/-- Motion: a class 3 stop waits for the next servo period (R365). -/
structure Motion where
  stopDue : Bool := false
  /-- TICK of the latest servo period -/
  period : Tick := 0
  deriving DecidableEq, Repr

/-- The power system's unseen state (R336-R346). -/
structure Power where
  /-- AC_OK at the ball, and the TICK of its latest change -/
  acOk : Bool := true
  acSince : Tick := 0
  /-- a shutdown under R344 or R346 is running -/
  shutdown : Bool := false
  /-- what follows the down sequence that runs: 0 nothing, 1 the wait of R344, 2 the restart of R346 -/
  after : Nat := 0
  /-- end of step 5 of R344 -/
  offAt : Option Tick := none
  /-- the restart is to be made now -/
  restart : Bool := false
  /-- slots the running sequence has still to handle after the present one -/
  slots : List Nat := []
  /-- TICK at which the present slot's wait began; it is the delay, not the wait for power-good or discharge -/
  railAt : Tick := 0
  inDelay : Bool := false
  /-- the latest loss found no erased last-words slot -/
  lwFull : Bool := false
  /-- PMBus transactions in progress, by slot: the command, its data, and the failed attempts so far -/
  pmb : Tab (Nat × Nat × Nat) := []
  /-- TICK of the latest poll of a slot's STATUS_WORD -/
  polled : Tab Tick := []
  /-- domains switched on and not yet up, bit d -/
  coming : Nat := 0
  /-- TICK at which a held power-down was requested, by domain (R326) -/
  heldAt : Tab Tick := []
  deriving DecidableEq, Repr

/-! ## What the block sends -/

/-- A message or frame that leaves the block. -/
inductive Sent where
  /-- an MSI-X message of this vector (R333) -/
  | msix (vec : Nat)
  /-- a Fjarilink frame on a port -/
  | frame (port : Nat) (f : Frame)
  /-- a drive-link frame of a station: its 176 bits (Table 6.3) -/
  | level (stn frame : Nat)
  /-- a PMBus command: its port, the slave's address, 400 kHz instead of 100, with PEC, the code and the data byte
  (Tables 12.2 and 12.7) -/
  | pmbus (port addr : Nat) (fast pec : Bool) (cmd data : Nat)
  deriving DecidableEq, Repr

/-! ## The whole -/

/-- Everything but the memories and the queue. -/
structure Mach where
  part : Part := .pe5480
  /-- effective register words by BAR0 offset; an unlisted register holds its reset value (Regs.lean) -/
  regs : Tab Word := []
  /-- staged values not yet in effect: mask and value by BAR0 offset (R17) -/
  pend : Tab (Word × Word) := []
  /-- holding copies of high words (R12), by requester and offset -/
  latches : Tab Word := []
  /-- registers that each requester has its own copy of, by requester and offset -/
  perReq : Tab Word := []
  /-- the word that each requester's latest read returned, by requester (the model's own) -/
  reply : Tab Word := []
  /-- number of free values used so far (the model's own) -/
  fresh : Nat := 0
  clk : Clk := {}
  sheets : Tab Sheet := []
  flt : Collector := {}
  snap : Snap := {}
  cox : Cox := {}
  scl : Scl := {}
  fjl : Fjl := {}
  sec : Sec := {}
  drv : Drives := {}
  mot : Motion := {}
  pwr : Power := {}
  vid : Tab Vid := []
  fus : Fuser := {}
  /-- general inputs at 0-63, die sensors at 64-72 -/
  adc : Tab AdcIn := []
  hv : Tab HvCh := []
  thm : Thermal := {}
  /-- the latest two conversions of each shunt input, latest first: PI{n} at n, SI{n}_U, _V, _W at 5 + 3n, SC{nn}_A,
  _B at 29 + 2n, BRK_I at 53 -/
  shunt : Tab (Nat × Nat) := []
  enc : Tab Enc := []
  ssi : Tab Ssi := []
  sns : Tab SnsIn := []
  /-- edges that wait for a window to be placed, with their watch (R430) -/
  heldEdges : List (Nat × SnsEdge) := []
  axes : Tab Axis := []
  peat : Peat := {}
  mark : Mark := {}
  dram : Dram := {}
  hif : HostIf := {}
  /-- levels driven on GP outputs under comparator control, bit n for GPn (R427) -/
  gp : Nat := 0
  /-- messages and frames the block has sent, oldest first -/
  sent : List Sent := []
  deriving DecidableEq, Repr

/-- The memories: the 40-bit internal map's storage, the host memory behind the DATU, and the boot flash. -/
structure Mem where
  ram : List Host.Cell := []
  host : List Host.Cell := []
  flash : List Host.Cell := []
  deriving DecidableEq, Repr

/-- The state of the block. -/
structure State where
  mach : Mach := {}
  mem : Mem := {}
  /-- commands waiting, first in, first out -/
  pending : List Instr := []
  deriving DecidableEq, Repr

/-- The machine right after reset: every field at its default. -/
def State.reset : State := {}

end Sys2Proof.Machine
end

