-- ==== Sys2Proof/Machine/Regs.lean ====
section
/-! DEFINITION. The register map: one named field reference for every field of every register table of the spec,
and the rows of those tables (bits, access code of Table 0.3, class of Table 0.4, reset value) as data. Index
parameters follow the order of the offsets in the tables (station or unit first). -/

namespace Sys2Proof.Machine

/-! ## Field references, named BLOCK_REGISTER_FIELD as the spec names them -/

namespace R
def SYS_TYPEID_TYPE : FRef := ⟨0x000000, 31, 0⟩
def SYS_REV : FRef := ⟨0x000004, 7, 0⟩
def SYS_RSTCAUSE_PIN : FRef := ⟨0x000008, 0, 0⟩
def SYS_RSTCAUSE_ACRESTART : FRef := ⟨0x000008, 1, 1⟩
def SYS_RSTCAUSE_SWRST : FRef := ⟨0x000008, 2, 2⟩
def SYS_SWRST_KEY : FRef := ⟨0x00000C, 7, 0⟩
def CLK_DRAIN_DRAINTO : FRef := ⟨0x010000, 15, 0⟩
def CLK_STATUS_REFOK : FRef := ⟨0x010004, 0, 0⟩
def CLK_STATUS_ONOSC : FRef := ⟨0x010004, 1, 1⟩
def CLK_STATUS_TICKCOAST : FRef := ⟨0x010004, 2, 2⟩
def CLK_STATUS_PPCOK : FRef := ⟨0x010004, 3, 3⟩
def CLK_TRIM : FRef := ⟨0x010008, 31, 0⟩
def CLK_TICK_TICK_LO : FRef := ⟨0x010010, 31, 0⟩
def CLK_TICK_TICK_HI : FRef := ⟨0x010014, 31, 0⟩
def CLK_PPC_PPC_LO : FRef := ⟨0x010018, 31, 0⟩
def CLK_PPC_PPC_HI : FRef := ⟨0x01001C, 15, 0⟩
def CLK_PPCRATE : FRef := ⟨0x010020, 31, 0⟩
def CLK_PPCWDOG : FRef := ⟨0x010024, 31, 0⟩
def CLK_SYN_CFG_EN (a : Nat) : FRef := ⟨0x010100 + 0x20 * a, 0, 0⟩
def CLK_SYN_CFG_PDIV (a : Nat) : FRef := ⟨0x010100 + 0x20 * a, 3, 1⟩
def CLK_SYN_CFG_NINT (a : Nat) : FRef := ⟨0x010100 + 0x20 * a, 11, 4⟩
def CLK_SYN_CFG_KDIV (a : Nat) : FRef := ⟨0x010100 + 0x20 * a, 13, 12⟩
def CLK_SYN_CFG_DITHEN (a : Nat) : FRef := ⟨0x010100 + 0x20 * a, 14, 14⟩
def CLK_SYN_CFG_LOCKWIN (a : Nat) : FRef := ⟨0x010100 + 0x20 * a, 23, 16⟩
def CLK_SYN_CFG_LOCKN (a : Nat) : FRef := ⟨0x010100 + 0x20 * a, 31, 24⟩
def CLK_SYN_F (a : Nat) : FRef := ⟨0x010104 + 0x20 * a, 23, 0⟩
def CLK_SYN_SEED (a : Nat) : FRef := ⟨0x010108 + 0x20 * a, 15, 0⟩
def CLK_SYN_LSDLY (a : Nat) : FRef := ⟨0x01010C + 0x20 * a, 15, 0⟩
def CLK_SYN_STAT_STATE (a : Nat) : FRef := ⟨0x010110 + 0x20 * a, 2, 0⟩
def CLK_SYN_STAT_LOCK (a : Nat) : FRef := ⟨0x010110 + 0x20 * a, 3, 3⟩
def CLK_SYN_STAT_COAST (a : Nat) : FRef := ⟨0x010110 + 0x20 * a, 4, 4⟩
def CLK_SYN_STAT_GATED (a : Nat) : FRef := ⟨0x010110 + 0x20 * a, 5, 5⟩
def CLK_SYN_STAT_LOSSCNT (a : Nat) : FRef := ⟨0x010110 + 0x20 * a, 15, 8⟩
def CLK_SYN_STAT_CVAL (a : Nat) : FRef := ⟨0x010110 + 0x20 * a, 31, 16⟩
def CLK_TB_STROKE (a : Nat) : FRef := ⟨0x010200 + 0x10 * a, 31, 0⟩
def CLK_TB_LINE (a : Nat) : FRef := ⟨0x010204 + 0x10 * a, 31, 0⟩
def CLK_TB_FACET (a : Nat) : FRef := ⟨0x010208 + 0x10 * a, 3, 0⟩
def CLK_TB_STRKTICK (a : Nat) : FRef := ⟨0x01020C + 0x10 * a, 31, 0⟩
def PWR_DOMREQ_ON : FRef := ⟨0x020000, 11, 0⟩
def PWR_DOMSTAT_UP : FRef := ⟨0x020004, 11, 0⟩
def PWR_DOMSTAT_PEND : FRef := ⟨0x020004, 23, 12⟩
def PWR_SEQCTL_UP : FRef := ⟨0x020010, 0, 0⟩
def PWR_SEQCTL_DOWN : FRef := ⟨0x020010, 1, 1⟩
def PWR_SEQSTAT_STATE : FRef := ⟨0x020014, 2, 0⟩
def PWR_SEQSTAT_SLOT : FRef := ⟨0x020014, 7, 3⟩
def PWR_SEQSTAT_PG : FRef := ⟨0x020014, 23, 8⟩
def PWR_FAIL_LATCH : FRef := ⟨0x020018, 15, 0⟩
def PWR_FAIL_DTO : FRef := ⟨0x020018, 31, 16⟩
def PWR_LATCHCLR_KEY : FRef := ⟨0x02001C, 7, 0⟩
def PWR_ACCFG_OFFT : FRef := ⟨0x020020, 15, 0⟩
def PWR_ACCFG_ACDEB : FRef := ⟨0x020020, 23, 16⟩
def PWR_ACCFG_PMBSPD : FRef := ⟨0x020020, 25, 24⟩
def PWR_LWADDR_ADDR : FRef := ⟨0x020024, 31, 12⟩
def PWR_LWSTAT_USED : FRef := ⟨0x020028, 4, 0⟩
def PWR_LWSTAT_FULL : FRef := ⟨0x020028, 5, 5⟩
def PWR_RAILCFG_EN (a : Nat) : FRef := ⟨0x020100 + 0x10 * a, 0, 0⟩
def PWR_RAILCFG_KIND (a : Nat) : FRef := ⟨0x020100 + 0x10 * a, 1, 1⟩
def PWR_RAILCFG_PGSRC (a : Nat) : FRef := ⟨0x020100 + 0x10 * a, 3, 2⟩
def PWR_RAILCFG_ORDER (a : Nat) : FRef := ⟨0x020100 + 0x10 * a, 7, 4⟩
def PWR_RAILCFG_CRIT (a : Nat) : FRef := ⟨0x020100 + 0x10 * a, 8, 8⟩
def PWR_RAILCFG_FCLS (a : Nat) : FRef := ⟨0x020100 + 0x10 * a, 11, 9⟩
def PWR_RAILCFG_PORT (a : Nat) : FRef := ⟨0x020100 + 0x10 * a, 12, 12⟩
def PWR_RAILCFG_ADDR (a : Nat) : FRef := ⟨0x020100 + 0x10 * a, 19, 13⟩
def PWR_RAILCFG_PAGE (a : Nat) : FRef := ⟨0x020100 + 0x10 * a, 27, 20⟩
def PWR_RAILCFG_PEC (a : Nat) : FRef := ⟨0x020100 + 0x10 * a, 28, 28⟩
def PWR_RAILCFG_SOFT (a : Nat) : FRef := ⟨0x020100 + 0x10 * a, 29, 29⟩
def PWR_RAILTIM_PGTO (a : Nat) : FRef := ⟨0x020104 + 0x10 * a, 15, 0⟩
def PWR_RAILTIM_UPDLY (a : Nat) : FRef := ⟨0x020104 + 0x10 * a, 31, 16⟩
def PWR_RAILDIS_DISTO (a : Nat) : FRef := ⟨0x020108 + 0x10 * a, 15, 0⟩
def PWR_RAILDIS_DNDLY (a : Nat) : FRef := ⟨0x020108 + 0x10 * a, 31, 16⟩
def PWR_RAILSTAT_ENOUT (a : Nat) : FRef := ⟨0x02010C + 0x10 * a, 0, 0⟩
def PWR_RAILSTAT_PG (a : Nat) : FRef := ⟨0x02010C + 0x10 * a, 1, 1⟩
def PWR_RAILSTAT_FAILED (a : Nat) : FRef := ⟨0x02010C + 0x10 * a, 2, 2⟩
def PWR_RAILSTAT_DISTO (a : Nat) : FRef := ⟨0x02010C + 0x10 * a, 3, 3⟩
def THM_CTL_EN : FRef := ⟨0x030000, 0, 0⟩
def THM_CTL_GRACE : FRef := ⟨0x030000, 15, 1⟩
def THM_CTL_HSTEP : FRef := ⟨0x030000, 18, 16⟩
def THM_CTL_VEC : FRef := ⟨0x030000, 24, 19⟩
def THM_STAT_REQ : FRef := ⟨0x030004, 7, 0⟩
def THM_STAT_HEADREQ : FRef := ⟨0x030004, 8, 8⟩
def THM_STAT_GRACERUN : FRef := ⟨0x030004, 9, 9⟩
def THM_STAT_TENF : FRef := ⟨0x030004, 10, 10⟩
def THM_STAT_TMAX : FRef := ⟨0x030004, 13, 11⟩
def THM_SENSCFG_USE (a : Nat) : FRef := ⟨0x030100 + 0x8 * a, 0, 0⟩
def THM_SENSCFG_GRP (a : Nat) : FRef := ⟨0x030100 + 0x8 * a, 3, 1⟩
def THM_SENSCFG_TBL (a : Nat) : FRef := ⟨0x030100 + 0x8 * a, 5, 4⟩
def THM_SENS_T (a : Nat) : FRef := ⟨0x030104 + 0x8 * a, 15, 0⟩
def THM_SENS_BROKEN (a : Nat) : FRef := ⟨0x030104 + 0x8 * a, 16, 16⟩
def THM_GRPCFG_THR (a : Nat) : FRef := ⟨0x030300 + 0x10 * a, 15, 0⟩
def THM_GRPCFG_CRIT (a : Nat) : FRef := ⟨0x030300 + 0x10 * a, 31, 16⟩
def THM_GRPCFG2_HYST (a : Nat) : FRef := ⟨0x030304 + 0x10 * a, 7, 0⟩
def THM_GRPCFG2_STEPMAX (a : Nat) : FRef := ⟨0x030304 + 0x10 * a, 10, 8⟩
def THM_GRPCFG2_CRITCLS (a : Nat) : FRef := ⟨0x030304 + 0x10 * a, 13, 11⟩
def THM_GRPMAX_MAX (a : Nat) : FRef := ⟨0x030308 + 0x10 * a, 15, 0⟩
def THM_GRPMAX_BROKEN (a : Nat) : FRef := ⟨0x030308 + 0x10 * a, 16, 16⟩
def THM_TBL_T (a b : Nat) : FRef := ⟨0x030800 + 0x80 * a + 0x4 * b, 15, 0⟩
def FLT_CTL_AUTONOTE : FRef := ⟨0x040000, 0, 0⟩
def FLT_CTL_VEC : FRef := ⟨0x040000, 6, 1⟩
def FLT_CTL_IRQMIN : FRef := ⟨0x040000, 9, 7⟩
def FLT_STAT_OPENCLS : FRef := ⟨0x040004, 4, 0⟩
def FLT_STAT_NHELD : FRef := ⟨0x040004, 26, 16⟩
def FLT_LOSTCNT_LOST : FRef := ⟨0x040008, 31, 0⟩
def FLT_CLR_SRC : FRef := ⟨0x04000C, 9, 0⟩
def FLT_CLR_CREC : FRef := ⟨0x04000C, 11, 10⟩
def FLT_CLRRES_CODE : FRef := ⟨0x040010, 1, 0⟩
def FLT_CLRRES_SRC : FRef := ⟨0x040010, 11, 2⟩
def FLT_CLRRES_CREC : FRef := ⟨0x040010, 13, 12⟩
def FLT_ALIVE_EN : FRef := ⟨0x040020, 0, 0⟩
def FLT_ALIVE_LEVEL : FRef := ⟨0x040020, 1, 1⟩
def FLT_ALIVE_HELD : FRef := ⟨0x040020, 2, 2⟩
def FLT_ALIVE_HALF : FRef := ⟨0x040020, 21, 3⟩
def FLT_KICK_KWIN : FRef := ⟨0x040024, 15, 0⟩
def FLT_KICK : FRef := ⟨0x040024, 16, 16⟩
def ENV_STAT_SEALED : FRef := ⟨0x050000, 0, 0⟩
def ENV_STAT_VALID : FRef := ⟨0x050000, 1, 1⟩
def ENV_STAT_COPY : FRef := ⟨0x050000, 3, 2⟩
def ENV_STAT_REASONA : FRef := ⟨0x050000, 6, 4⟩
def ENV_STAT_REASONB : FRef := ⟨0x050000, 9, 7⟩
def ENV_STAT_ILK : FRef := ⟨0x050000, 10, 10⟩
def ENV_SEQ : FRef := ⟨0x050004, 31, 0⟩
def ENV_CLAMP_SHEET : FRef := ⟨0x050008, 0, 0⟩
def ENV_CLAMP_LEVEL : FRef := ⟨0x050008, 1, 1⟩
def ENV_CLAMP_DUTY : FRef := ⟨0x050008, 2, 2⟩
def ENV_CLAMP_PSPEED : FRef := ⟨0x050008, 3, 3⟩
def ENV_CLAMP_PCUR : FRef := ⟨0x050008, 4, 4⟩
def ENV_CLAMP_SCUR : FRef := ⟨0x050008, 5, 5⟩
def ENV_CLAMP_TCUR : FRef := ⟨0x050008, 6, 6⟩
def ENV_CLAMP_BRKON : FRef := ⟨0x050008, 7, 7⟩
def ENV_CLAMP_HVREF : FRef := ⟨0x050008, 8, 8⟩
def ENV_CLAMP_FPOWER : FRef := ⟨0x050008, 9, 9⟩
def ENV_GUARD (a : Nat) : FRef := ⟨0x051000 + 0x4 * a, 31, 0⟩
def SNAP_CTL_EN : FRef := ⟨0x060000, 0, 0⟩
def SNAP_CTL_HSFEN : FRef := ⟨0x060000, 1, 1⟩
def SNAP_CTL_HSFVEC : FRef := ⟨0x060000, 7, 2⟩
def SNAP_CTL_HSFLOG2 : FRef := ⟨0x060000, 11, 8⟩
def SNAP_STAT_LATEST : FRef := ⟨0x060004, 0, 0⟩
def SNAP_STAT_DEFER : FRef := ⟨0x060004, 15, 8⟩
def SNAP_STAT_PEND : FRef := ⟨0x060004, 23, 16⟩
def SNAP_STAT_HSFDROP : FRef := ⟨0x060004, 31, 24⟩
def SNAP_EPOCH : FRef := ⟨0x060008, 31, 0⟩
def SNAP_HSFBASE_LO : FRef := ⟨0x060010, 31, 0⟩
def SNAP_HSFBASE_HI : FRef := ⟨0x060014, 31, 0⟩
def SNAP_HSFSEQ : FRef := ⟨0x060018, 31, 0⟩
def SLU_COUNT_INFLT : FRef := ⟨0x070008, 5, 0⟩
def SLU_COUNT_NREADY : FRef := ⟨0x070008, 11, 6⟩
def SLU_COUNT_NADMIT : FRef := ⟨0x070008, 17, 12⟩
def SLU_COUNT_NBUSY : FRef := ⟨0x070008, 23, 18⟩
def SLU_QTHR_STRETCH : FRef := ⟨0x07000C, 5, 0⟩
def SLU_QTHR_SLOW : FRef := ⟨0x07000C, 11, 6⟩
def SLU_MINLEAD : FRef := ⟨0x070010, 31, 0⟩
def SLU_ARMLEAD : FRef := ⟨0x070014, 31, 0⟩
def SLU_GAPMIN : FRef := ⟨0x070018, 15, 0⟩
def SLU_TRDIST : FRef := ⟨0x07001C, 31, 0⟩
def SLU_SPD_LINETK (a : Nat) : FRef := ⟨0x070020 + 0x4 * a, 31, 0⟩
def SLU_SDIST (a : Nat) : FRef := ⟨0x070040 + 0x4 * a, 31, 0⟩
def SLU_CREATE_SID : FRef := ⟨0x070060, 23, 0⟩
def SLU_OP : FRef := ⟨0x070064, 3, 0⟩
def SLU_OP_REC : FRef := ⟨0x070064, 11, 4⟩
def SLU_OPRES_CODE : FRef := ⟨0x070068, 7, 0⟩
def SLU_OPRES_REC : FRef := ⟨0x070068, 15, 8⟩
def SLU_OPRES_OP : FRef := ⟨0x070068, 19, 16⟩
def SLU_OPRES_SEQ : FRef := ⟨0x070068, 27, 20⟩
def SLU_LASTSID_SID : FRef := ⟨0x07006C, 23, 0⟩
def SLU_CTL_EN : FRef := ⟨0x070000, 0, 0⟩
def SLU_CTL_MAXFLT : FRef := ⟨0x070000, 6, 1⟩
def SLU_CTL_RUNALL : FRef := ⟨0x070000, 7, 7⟩
def SLU_CTL_NSTEP : FRef := ⟨0x070000, 10, 8⟩
def SLU_CTL_EARLYEN : FRef := ⟨0x070000, 11, 11⟩
def SLU_CTL_GATEAX : FRef := ⟨0x070000, 15, 12⟩
def SLU_RSV_SPEED : FRef := ⟨0x070004, 2, 0⟩
def SLU_RSV_FUSBAND : FRef := ⟨0x070004, 6, 3⟩
def SLU_RSV_HVSET : FRef := ⟨0x070004, 10, 7⟩
def SLU_RSV_SPDOK : FRef := ⟨0x070004, 11, 11⟩
def SLU_RSV_FUSOK : FRef := ⟨0x070004, 12, 12⟩
def SLU_RSV_HVOK : FRef := ⟨0x070004, 13, 13⟩
def SLU_RSV_TMAX : FRef := ⟨0x070004, 16, 14⟩
def SLU_RSV_TENF : FRef := ⟨0x070004, 17, 17⟩
def SLU_WATCH_CFG_EN (a : Nat) : FRef := ⟨0x070100 + 0x10 * a, 0, 0⟩
def SLU_WATCH_CFG_SNS (a : Nat) : FRef := ⟨0x070100 + 0x10 * a, 6, 1⟩
def SLU_WATCH_CFG_EDGE (a : Nat) : FRef := ⟨0x070100 + 0x10 * a, 7, 7⟩
def SLU_WATCH_CFG_POL (a : Nat) : FRef := ⟨0x070100 + 0x10 * a, 8, 8⟩
def SLU_WATCH_CFG_BASE (a : Nat) : FRef := ⟨0x070100 + 0x10 * a, 9, 9⟩
def SLU_WATCH_CFG_TRAIL (a : Nat) : FRef := ⟨0x070100 + 0x10 * a, 10, 10⟩
def SLU_WATCH_CFG_CLASS (a : Nat) : FRef := ⟨0x070100 + 0x10 * a, 13, 11⟩
def SLU_WATCH_CFG_FUSE (a : Nat) : FRef := ⟨0x070100 + 0x10 * a, 14, 14⟩
def SLU_WATCH_CFG_TERM (a : Nat) : FRef := ⟨0x070100 + 0x10 * a, 15, 15⟩
def SLU_WATCH_OPEN (a : Nat) : FRef := ⟨0x070104 + 0x10 * a, 31, 0⟩
def SLU_WATCH_CLOSE (a : Nat) : FRef := ⟨0x070108 + 0x10 * a, 31, 0⟩
def SLU_WATCH_STAT_SID (a : Nat) : FRef := ⟨0x07010C + 0x10 * a, 23, 0⟩
def SLU_WATCH_STAT_FAILED (a : Nat) : FRef := ⟨0x07010C + 0x10 * a, 24, 24⟩
def RING_CFG_EN (a : Nat) : FRef := ⟨0x080000 + 0x20 * a, 0, 0⟩
def RING_CFG_LOG2N (a : Nat) : FRef := ⟨0x080000 + 0x20 * a, 5, 1⟩
def RING_CFG_PSIDE (a : Nat) : FRef := ⟨0x080000 + 0x20 * a, 7, 6⟩
def RING_CFG_CSIDE (a : Nat) : FRef := ⟨0x080000 + 0x20 * a, 9, 8⟩
def RING_CFG_VEC (a : Nat) : FRef := ⟨0x080000 + 0x20 * a, 15, 10⟩
def RING_CFG_IRQEN (a : Nat) : FRef := ⟨0x080000 + 0x20 * a, 16, 16⟩
def RING_CFG_SPACEIRQ (a : Nat) : FRef := ⟨0x080000 + 0x20 * a, 17, 17⟩
def RING_CFG_EVL (a : Nat) : FRef := ⟨0x080000 + 0x20 * a, 21, 18⟩
def RING_CFG_EVEN (a : Nat) : FRef := ⟨0x080000 + 0x20 * a, 22, 22⟩
def RING_BASE_LO_BASE (a : Nat) : FRef := ⟨0x080004 + 0x20 * a, 31, 0⟩
def RING_BASE_HI_BASE (a : Nat) : FRef := ⟨0x080008 + 0x20 * a, 7, 0⟩
def RING_PIDX (a : Nat) : FRef := ⟨0x08000C + 0x20 * a, 31, 0⟩
def RING_CIDX (a : Nat) : FRef := ⟨0x080010 + 0x20 * a, 31, 0⟩
def RING_MOD_ITHR (a : Nat) : FRef := ⟨0x080014 + 0x20 * a, 15, 0⟩
def RING_MOD_ITIME (a : Nat) : FRef := ⟨0x080014 + 0x20 * a, 31, 16⟩
def RING_STAT_COUNT (a : Nat) : FRef := ⟨0x080018 + 0x20 * a, 16, 0⟩
def RING_STAT_BADIDX (a : Nat) : FRef := ⟨0x080018 + 0x20 * a, 17, 17⟩
def RING_STAT_XLATE (a : Nat) : FRef := ⟨0x080018 + 0x20 * a, 18, 18⟩
def DMA_CFG_EN (a : Nat) : FRef := ⟨0x090000 + 0x100 * a, 0, 0⟩
def DMA_CFG_CLS (a : Nat) : FRef := ⟨0x090000 + 0x100 * a, 1, 1⟩
def DMA_CFG_PHINT (a : Nat) : FRef := ⟨0x090000 + 0x100 * a, 2, 2⟩
def DMA_CFG_RLXO (a : Nat) : FRef := ⟨0x090000 + 0x100 * a, 3, 3⟩
def DMA_CFG_FCLS (a : Nat) : FRef := ⟨0x090000 + 0x100 * a, 6, 4⟩
def DMA_CFG_VEC (a : Nat) : FRef := ⟨0x090000 + 0x100 * a, 12, 7⟩
def DMA_CFG_EVL (a : Nat) : FRef := ⟨0x090000 + 0x100 * a, 16, 13⟩
def DMA_CTL_GO (a : Nat) : FRef := ⟨0x090004 + 0x100 * a, 0, 0⟩
def DMA_CTL_ABORT (a : Nat) : FRef := ⟨0x090004 + 0x100 * a, 1, 1⟩
def DMA_CTL_SKIP (a : Nat) : FRef := ⟨0x090004 + 0x100 * a, 2, 2⟩
def DMA_CTL_SHLOAD (a : Nat) : FRef := ⟨0x090004 + 0x100 * a, 3, 3⟩
def DMA_STAT_STATE (a : Nat) : FRef := ⟨0x090008 + 0x100 * a, 2, 0⟩
def DMA_STAT_SHVALID (a : Nat) : FRef := ⟨0x090008 + 0x100 * a, 3, 3⟩
def DMA_STAT_TYPE (a : Nat) : FRef := ⟨0x090008 + 0x100 * a, 6, 4⟩
def DMA_STAT_OWNED (a : Nat) : FRef := ⟨0x090008 + 0x100 * a, 7, 7⟩
def DMA_STAT_RESULT (a : Nat) : FRef := ⟨0x090008 + 0x100 * a, 15, 8⟩
def DMA_LIM_HOPLIM (a : Nat) : FRef := ⟨0x09000C + 0x100 * a, 15, 0⟩
def DMA_LIM_BTO (a : Nat) : FRef := ⟨0x09000C + 0x100 * a, 31, 16⟩
def DMA_WTO (a : Nat) : FRef := ⟨0x090010 + 0x100 * a, 15, 0⟩
def DMA_NEXT_LO_NEXT (a : Nat) : FRef := ⟨0x090014 + 0x100 * a, 31, 0⟩
def DMA_NEXT_HI_NEXT (a : Nat) : FRef := ⟨0x090018 + 0x100 * a, 7, 0⟩
def DMA_CUR_LO_CUR (a : Nat) : FRef := ⟨0x09001C + 0x100 * a, 31, 0⟩
def DMA_CUR_HI_CUR (a : Nat) : FRef := ⟨0x090020 + 0x100 * a, 7, 0⟩
def DMA_HOPS (a : Nat) : FRef := ⟨0x090024 + 0x100 * a, 31, 0⟩
def DMA_MMOFF (a : Nat) : FRef := ⟨0x090028 + 0x100 * a, 31, 0⟩
def DMA_ACT_TD (a b : Nat) : FRef := ⟨0x090040 + 0x100 * a + 0x4 * b, 31, 0⟩
def DMA_SHD_TD (a b : Nat) : FRef := ⟨0x090080 + 0x100 * a + 0x4 * b, 31, 0⟩
def DATU_CFG_EN : FRef := ⟨0x093000, 0, 0⟩
def DATU_CFG_L1LOG2 : FRef := ⟨0x093000, 5, 1⟩
def DATU_CFG_PRRING : FRef := ⟨0x093000, 10, 6⟩
def DATU_L1BASE_LO_BASE : FRef := ⟨0x093004, 31, 0⟩
def DATU_L1BASE_HI_BASE : FRef := ⟨0x093008, 31, 0⟩
def DATU_PRACK_TAG : FRef := ⟨0x09300C, 15, 0⟩
def DATU_PRACK_FAIL : FRef := ⟨0x09300C, 16, 16⟩
def DATU_INVPAGE_PAGE : FRef := ⟨0x093010, 26, 0⟩
def DATU_INVALL_ALL : FRef := ⟨0x093014, 0, 0⟩
def DATU_INVSTAT_BUSY : FRef := ⟨0x093018, 0, 0⟩
def DATU_STAT_PRPEND : FRef := ⟨0x09301C, 15, 0⟩
def DATU_STAT_WALKS : FRef := ⟨0x09301C, 31, 16⟩
def DRC_CFG_EN : FRef := ⟨0x0A0000, 0, 0⟩
def DRC_CFG_RATE : FRef := ⟨0x0A0000, 3, 1⟩
def DRC_CFG_DENS : FRef := ⟨0x0A0000, 5, 4⟩
def DRC_CFG_RANKS : FRef := ⟨0x0A0000, 6, 6⟩
def DRC_CFG_ECC : FRef := ⟨0x0A0000, 7, 7⟩
def DRC_SCHED_VCAP : FRef := ⟨0x0A0004, 9, 0⟩
def DRC_SCHED_RHMAX : FRef := ⟨0x0A0004, 14, 10⟩
def DRC_REF_INT : FRef := ⟨0x0A0008, 15, 0⟩
def DRC_REF_DERATE : FRef := ⟨0x0A0008, 17, 16⟩
def DRC_REFSTAT_OWED : FRef := ⟨0x0A000C, 3, 0⟩
def DRC_REFSTAT_CLASS : FRef := ⟨0x0A000C, 4, 4⟩
def DRC_REFSTAT_FORCED : FRef := ⟨0x0A000C, 15, 8⟩
def DRC_TRN_RTPER : FRef := ⟨0x0A0010, 7, 0⟩
def DRC_TRN_RTDRIFT : FRef := ⟨0x0A0010, 15, 8⟩
def DRC_TRN_RTWAIT : FRef := ⟨0x0A0010, 31, 16⟩
def DRC_STAT_TRAINED : FRef := ⟨0x0A0014, 0, 0⟩
def DRC_STAT_SELFREF : FRef := ⟨0x0A0014, 1, 1⟩
def DRC_STAT_RTDUE : FRef := ⟨0x0A0014, 2, 2⟩
def DRC_STAT_CE : FRef := ⟨0x0A0014, 15, 8⟩
def DRC_STAT_UE : FRef := ⟨0x0A0014, 23, 16⟩
def DRC_UEADDR_LO_ADDR : FRef := ⟨0x0A0018, 31, 0⟩
def DRC_UEADDR_HI_ADDR : FRef := ⟨0x0A001C, 7, 0⟩
def DRC_CAP_MIB : FRef := ⟨0x0A0020, 15, 0⟩
def PEAT_CTL_EN : FRef := ⟨0x0B0000, 0, 0⟩
def PEAT_CTL_INRING : FRef := ⟨0x0B0000, 5, 1⟩
def PEAT_CTL_CPRING : FRef := ⟨0x0B0000, 10, 6⟩
def PEAT_CTL_INCH : FRef := ⟨0x0B0000, 15, 11⟩
def PEAT_CTL_VERIFY : FRef := ⟨0x0B0000, 16, 16⟩
def PEAT_CTL_KEEPRAW : FRef := ⟨0x0B0000, 17, 17⟩
def PEAT_CTL_RCRCREQ : FRef := ⟨0x0B0000, 18, 18⟩
def PEAT_AHEAD : FRef := ⟨0x0B0004, 7, 0⟩
def PEAT_DEFCFG_DEPTH : FRef := ⟨0x0B0008, 6, 0⟩
def PEAT_STAT_CRCERR : FRef := ⟨0x0B000C, 7, 0⟩
def PEAT_STAT_REJECT : FRef := ⟨0x0B000C, 15, 8⟩
def PEAT_STAT_STALE : FRef := ⟨0x0B000C, 23, 16⟩
def PEAT_STAT_DUP : FRef := ⟨0x0B000C, 31, 24⟩
def PEAT_STAT2_VERIFYMM : FRef := ⟨0x0B0010, 7, 0⟩
def PEAT_STAT2_CORRUPT : FRef := ⟨0x0B0010, 15, 8⟩
def PEAT_STAT2_INFBUSY : FRef := ⟨0x0B0010, 19, 16⟩
def PEAT_STAT2_DEFBUSY : FRef := ⟨0x0B0010, 21, 20⟩
def PEAT_JSBASE_LO_BASE : FRef := ⟨0x0B0020, 31, 0⟩
def PEAT_JSBASE_HI_BASE : FRef := ⟨0x0B0024, 7, 0⟩
def PEAT_JSSIZE_MIB : FRef := ⟨0x0B0028, 15, 0⟩
def PEAT_JSFREE_UNITS : FRef := ⟨0x0B002C, 23, 0⟩
def PEAT_JSLOW_UNITS : FRef := ⟨0x0B0030, 23, 0⟩
def PEAT_JSHOLD_MS : FRef := ⟨0x0B0034, 15, 0⟩
def PEAT_JSOP_SID : FRef := ⟨0x0B0038, 23, 0⟩
def PEAT_JSOP_OP : FRef := ⟨0x0B0038, 26, 24⟩
def PEAT_JSRES_CODE : FRef := ⟨0x0B003C, 3, 0⟩
def PEAT_JSRES_PINNED : FRef := ⟨0x0B003C, 4, 4⟩
def PEAT_JSRES_REFD : FRef := ⟨0x0B003C, 5, 5⟩
def PEAT_JSRES_HOLDRUN : FRef := ⟨0x0B003C, 6, 6⟩
def PEAT_JSRES_UNITS : FRef := ⟨0x0B003C, 31, 8⟩
def PEAT_FEED_AHEADLN (a : Nat) : FRef := ⟨0x0B0100 + 0x10 * a, 7, 0⟩
def PEAT_FEED_BAND (a : Nat) : FRef := ⟨0x0B0100 + 0x10 * a, 17, 8⟩
def PEAT_FEED_ACTIVE (a : Nat) : FRef := ⟨0x0B0100 + 0x10 * a, 18, 18⟩
def PEAT_FEED_BLANKING (a : Nat) : FRef := ⟨0x0B0100 + 0x10 * a, 19, 19⟩
def PEAT_FEEDSID_SID (a : Nat) : FRef := ⟨0x0B0104 + 0x10 * a, 23, 0⟩
def CRC_ERR_ERRS (a : Nat) : FRef := ⟨0x0C0000 + 0x4 * a, 15, 0⟩
def CRC_GADDR_LO_ADDR : FRef := ⟨0x0C0010, 31, 0⟩
def CRC_GADDR_HI_ADDR : FRef := ⟨0x0C0014, 7, 0⟩
def CRC_GLEN_LEN : FRef := ⟨0x0C0018, 31, 0⟩
def CRC_GCTL_GO : FRef := ⟨0x0C001C, 0, 0⟩
def CRC_GCTL_BUSY : FRef := ⟨0x0C001C, 1, 1⟩
def CRC_GCTL_ERR : FRef := ⟨0x0C001C, 2, 2⟩
def CRC_GRES_CRC : FRef := ⟨0x0C0020, 31, 0⟩
def COX_CFG_EN (a : Nat) : FRef := ⟨0x0D0000 + 0x1000 * a, 0, 0⟩
def COX_CFG_PARKCLS (a : Nat) : FRef := ⟨0x0D0000 + 0x1000 * a, 3, 1⟩
def COX_CFG_PARKDISARM (a : Nat) : FRef := ⟨0x0D0000 + 0x1000 * a, 4, 4⟩
def COX_RUN_START (a : Nat) : FRef := ⟨0x0D0004 + 0x1000 * a, 3, 0⟩
def COX_RUN_HALT (a : Nat) : FRef := ⟨0x0D0004 + 0x1000 * a, 7, 4⟩
def COX_RUN_RESUME (a : Nat) : FRef := ⟨0x0D0004 + 0x1000 * a, 11, 8⟩
def COX_RUN_DISCARD (a : Nat) : FRef := ⟨0x0D0004 + 0x1000 * a, 15, 12⟩
def COX_RUN_CANCEL (a : Nat) : FRef := ⟨0x0D0004 + 0x1000 * a, 16, 16⟩
def COX_RUN_DISARM (a : Nat) : FRef := ⟨0x0D0004 + 0x1000 * a, 17, 17⟩
def COX_SWEV_EV (a : Nat) : FRef := ⟨0x0D0008 + 0x1000 * a, 3, 0⟩
def COX_SWEV_CTX (a : Nat) : FRef := ⟨0x0D0008 + 0x1000 * a, 7, 4⟩
def COX_FREE_NCMP (a : Nat) : FRef := ⟨0x0D000C + 0x1000 * a, 5, 0⟩
def COX_CTL_ENTRY (a b : Nat) : FRef := ⟨0x0D0100 + 0x1000 * a + 0x20 * b, 17, 2⟩
def COX_CTL_PRIO (a b : Nat) : FRef := ⟨0x0D0100 + 0x1000 * a + 0x20 * b, 19, 18⟩
def COX_STAT_STATE (a b : Nat) : FRef := ⟨0x0D0104 + 0x1000 * a + 0x20 * b, 2, 0⟩
def COX_STAT_PRIO (a b : Nat) : FRef := ⟨0x0D0104 + 0x1000 * a + 0x20 * b, 4, 3⟩
def COX_STAT_STGCNT (a b : Nat) : FRef := ⟨0x0D0104 + 0x1000 * a + 0x20 * b, 10, 5⟩
def COX_STAT_CMTPEND (a b : Nat) : FRef := ⟨0x0D0104 + 0x1000 * a + 0x20 * b, 11, 11⟩
def COX_STAT_CAUSE (a b : Nat) : FRef := ⟨0x0D0104 + 0x1000 * a + 0x20 * b, 19, 12⟩
def COX_PC (a b : Nat) : FRef := ⟨0x0D0108 + 0x1000 * a + 0x20 * b, 31, 0⟩
def COX_FADDR_LO_FADDR (a b : Nat) : FRef := ⟨0x0D010C + 0x1000 * a + 0x20 * b, 31, 0⟩
def COX_FADDR_HI_FADDR (a b : Nat) : FRef := ⟨0x0D0110 + 0x1000 * a + 0x20 * b, 7, 0⟩
def COX_EVPEND_EV (a b : Nat) : FRef := ⟨0x0D0114 + 0x1000 * a + 0x20 * b, 31, 0⟩
def COX_CMTRES_CODE (a b : Nat) : FRef := ⟨0x0D0118 + 0x1000 * a + 0x20 * b, 3, 0⟩
def COX_CMTRES_SEQ (a b : Nat) : FRef := ⟨0x0D0118 + 0x1000 * a + 0x20 * b, 11, 4⟩
def COX_CMTRES_COUNT (a b : Nat) : FRef := ⟨0x0D0118 + 0x1000 * a + 0x20 * b, 17, 12⟩
def COX_BASE (a b : Nat) : FRef := ⟨0x0D0200 + 0x1000 * a + 0x10 * b, 27, 0⟩
def COX_LIMIT (a b : Nat) : FRef := ⟨0x0D0204 + 0x1000 * a + 0x10 * b, 27, 0⟩
def COX_ATTR_EN (a b : Nat) : FRef := ⟨0x0D0208 + 0x1000 * a + 0x10 * b, 0, 0⟩
def COX_ATTR_R (a b : Nat) : FRef := ⟨0x0D0208 + 0x1000 * a + 0x10 * b, 1, 1⟩
def COX_ATTR_W (a b : Nat) : FRef := ⟨0x0D0208 + 0x1000 * a + 0x10 * b, 2, 2⟩
def COX_ATTR_X (a b : Nat) : FRef := ⟨0x0D0208 + 0x1000 * a + 0x10 * b, 3, 3⟩
def COX_ATTR_CTX (a b : Nat) : FRef := ⟨0x0D0208 + 0x1000 * a + 0x10 * b, 7, 4⟩
def COX_EVSEL_SRC (a b : Nat) : FRef := ⟨0x0D0300 + 0x1000 * a + 0x4 * b, 9, 0⟩
def COX_CMPSTAT_ARMED (a b : Nat) : FRef := ⟨0x0D0400 + 0x1000 * a + 0x10 * b, 0, 0⟩
def COX_CMPSTAT_BASE (a b : Nat) : FRef := ⟨0x0D0400 + 0x1000 * a + 0x10 * b, 2, 1⟩
def COX_CMPSTAT_STN (a b : Nat) : FRef := ⟨0x0D0400 + 0x1000 * a + 0x10 * b, 5, 3⟩
def COX_CMPSTAT_PERIODIC (a b : Nat) : FRef := ⟨0x0D0400 + 0x1000 * a + 0x10 * b, 6, 6⟩
def COX_CMPSTAT_CTX (a b : Nat) : FRef := ⟨0x0D0400 + 0x1000 * a + 0x10 * b, 8, 7⟩
def COX_CMPSTAT_ACTION (a b : Nat) : FRef := ⟨0x0D0400 + 0x1000 * a + 0x10 * b, 11, 9⟩
def COX_CMPSTAT_LATE (a b : Nat) : FRef := ⟨0x0D0400 + 0x1000 * a + 0x10 * b, 12, 12⟩
def COX_CMPTGT_LO_TGT (a b : Nat) : FRef := ⟨0x0D0404 + 0x1000 * a + 0x10 * b, 31, 0⟩
def COX_CMPTGT_HI_TGT (a b : Nat) : FRef := ⟨0x0D0408 + 0x1000 * a + 0x10 * b, 31, 0⟩
def COX_CMPPER_PERIOD (a b : Nat) : FRef := ⟨0x0D040C + 0x1000 * a + 0x10 * b, 31, 0⟩
def COX_SUPMPU_EN (a : Nat) : FRef := ⟨0x0D0800 + 0x1000 * a, 0, 0⟩
def COX_SUPMPU_LOCK (a : Nat) : FRef := ⟨0x0D0800 + 0x1000 * a, 1, 1⟩
def SCL_CTL_EN : FRef := ⟨0x0E0000, 0, 0⟩
def SCL_CTL_SHEDEN : FRef := ⟨0x0E0000, 1, 1⟩
def SCL_STAT_FALLBK : FRef := ⟨0x0E0004, 0, 0⟩
def SCL_STAT_SLOT : FRef := ⟨0x0E0004, 14, 8⟩
def SCL_STAT_BUSY : FRef := ⟨0x0E0004, 15, 15⟩
def SCL_LOAD_UTIL : FRef := ⟨0x0E0008, 15, 0⟩
def SCL_LOAD_PEAK : FRef := ⟨0x0E0008, 31, 16⟩
def SCL_MISSALL_MISS : FRef := ⟨0x0E000C, 15, 0⟩
def SCL_MISSALL_BUDOVR : FRef := ⟨0x0E000C, 31, 16⟩
def SCL_RCSEL_PAGE : FRef := ⟨0x0E0010, 0, 0⟩
def SCL_GCFG_YOWN (a : Nat) : FRef := ⟨0x0E0100 + 0x4 * a, 6, 0⟩
def SCL_SLOT_CTL_EN (a : Nat) : FRef := ⟨0x0E0400 + 0x40 * a, 0, 0⟩
def SCL_SLOT_CTL_MODE (a : Nat) : FRef := ⟨0x0E0400 + 0x40 * a, 1, 1⟩
def SCL_SLOT_CTL_PRIO (a : Nat) : FRef := ⟨0x0E0400 + 0x40 * a, 3, 2⟩
def SCL_SLOT_CTL_SHED (a : Nat) : FRef := ⟨0x0E0400 + 0x40 * a, 4, 4⟩
def SCL_SLOT_CTL_MISSCLS (a : Nat) : FRef := ⟨0x0E0400 + 0x40 * a, 7, 5⟩
def SCL_SLOT_CTL_BUDCLS (a : Nat) : FRef := ⟨0x0E0400 + 0x40 * a, 10, 8⟩
def SCL_SLOT_CTL_AUTOFRZ (a : Nat) : FRef := ⟨0x0E0400 + 0x40 * a, 11, 11⟩
def SCL_SLOT_CTL_FREEZE (a : Nat) : FRef := ⟨0x0E0400 + 0x40 * a, 12, 12⟩
def SCL_SLOT_CTL_BLENDM (a : Nat) : FRef := ⟨0x0E0400 + 0x40 * a, 13, 13⟩
def SCL_SLOT_CTL_PSTART (a : Nat) : FRef := ⟨0x0E0400 + 0x40 * a, 27, 16⟩
def SCL_SLOT_TRIG_SRC (a : Nat) : FRef := ⟨0x0E0404 + 0x40 * a, 2, 0⟩
def SCL_SLOT_TRIG_STN (a : Nat) : FRef := ⟨0x0E0404 + 0x40 * a, 5, 3⟩
def SCL_SLOT_TRIG_EVT (a : Nat) : FRef := ⟨0x0E0404 + 0x40 * a, 15, 6⟩
def SCL_SLOT_PER (a : Nat) : FRef := ⟨0x0E0408 + 0x40 * a, 31, 0⟩
def SCL_SLOT_PHASE (a : Nat) : FRef := ⟨0x0E040C + 0x40 * a, 31, 0⟩
def SCL_SLOT_BUD_BUDGET (a : Nat) : FRef := ⟨0x0E0410 + 0x40 * a, 11, 0⟩
def SCL_SLOT_BUD_BIND (a : Nat) : FRef := ⟨0x0E0410 + 0x40 * a, 20, 12⟩
def SCL_SLOT_BUD_NIN (a : Nat) : FRef := ⟨0x0E0410 + 0x40 * a, 24, 21⟩
def SCL_SLOT_BUD_NOUT (a : Nat) : FRef := ⟨0x0E0410 + 0x40 * a, 27, 25⟩
def SCL_SLOT_MAN_MANVAL (a : Nat) : FRef := ⟨0x0E0414 + 0x40 * a, 15, 0⟩
def SCL_SLOT_MAN_BLEND (a : Nat) : FRef := ⟨0x0E0414 + 0x40 * a, 23, 16⟩
def SCL_SLOT_MAN_BLIM (a : Nat) : FRef := ⟨0x0E0414 + 0x40 * a, 31, 24⟩
def SCL_SLOT_CBASE (a : Nat) : FRef := ⟨0x0E0418 + 0x40 * a, 12, 0⟩
def SCL_SLOT_STAT_RUNNING (a : Nat) : FRef := ⟨0x0E041C + 0x40 * a, 0, 0⟩
def SCL_SLOT_STAT_PEND (a : Nat) : FRef := ⟨0x0E041C + 0x40 * a, 1, 1⟩
def SCL_SLOT_STAT_HOV (a : Nat) : FRef := ⟨0x0E041C + 0x40 * a, 2, 2⟩
def SCL_SLOT_STAT_BLENDING (a : Nat) : FRef := ⟨0x0E041C + 0x40 * a, 3, 3⟩
def SCL_SLOT_STAT_LIMF (a : Nat) : FRef := ⟨0x0E041C + 0x40 * a, 4, 4⟩
def SCL_SLOT_STAT_SATF (a : Nat) : FRef := ⟨0x0E041C + 0x40 * a, 5, 5⟩
def SCL_SLOT_STAT_ECLAMP (a : Nat) : FRef := ⟨0x0E041C + 0x40 * a, 6, 6⟩
def SCL_SLOT_STAT_FROZEN (a : Nat) : FRef := ⟨0x0E041C + 0x40 * a, 7, 7⟩
def SCL_SLOT_STAT_OUT0 (a : Nat) : FRef := ⟨0x0E041C + 0x40 * a, 31, 16⟩
def SCL_SLOT_CNT_MISS (a : Nat) : FRef := ⟨0x0E0420 + 0x40 * a, 15, 0⟩
def SCL_SLOT_CNT_BUDOVR (a : Nat) : FRef := ⟨0x0E0420 + 0x40 * a, 31, 16⟩
def SCL_SLOT_RCA_BASE (a : Nat) : FRef := ⟨0x0E0424 + 0x40 * a, 13, 0⟩
def SCL_SLOT_RCA_LEN (a : Nat) : FRef := ⟨0x0E0424 + 0x40 * a, 28, 14⟩
def SCL_SLOT_RCB_LEAD (a : Nat) : FRef := ⟨0x0E0428 + 0x40 * a, 7, 0⟩
def SCL_SLOT_RCB_SYNC (a : Nat) : FRef := ⟨0x0E0428 + 0x40 * a, 17, 8⟩
def SCL_SLOT_RCB_SYNCTOL (a : Nat) : FRef := ⟨0x0E0428 + 0x40 * a, 25, 18⟩
def SCL_SLOT_RCG_LEARN (a : Nat) : FRef := ⟨0x0E042C + 0x40 * a, 15, 0⟩
def SCL_SLOT_RCG_FORGET (a : Nat) : FRef := ⟨0x0E042C + 0x40 * a, 31, 16⟩
def SCL_SLOT_RCSTAT_IDX (a : Nat) : FRef := ⟨0x0E0430 + 0x40 * a, 13, 0⟩
def SCL_SLOT_RCSTAT_SYNCERR (a : Nat) : FRef := ⟨0x0E0430 + 0x40 * a, 23, 16⟩
def SCL_SLOT_RCSTAT_RCSAT (a : Nat) : FRef := ⟨0x0E0430 + 0x40 * a, 31, 24⟩
def SCL_SLOT_TRTICK_TICK (a : Nat) : FRef := ⟨0x0E0434 + 0x40 * a, 31, 0⟩
def SCL_BINDA_ADDR (a : Nat) : FRef := ⟨0x0E1C00 + 0x8 * a, 23, 0⟩
def SCL_BINDB_XIDX (a : Nat) : FRef := ⟨0x0E1C04 + 0x8 * a, 5, 0⟩
def SCL_BINDB_RAW32 (a : Nat) : FRef := ⟨0x0E1C04 + 0x8 * a, 6, 6⟩
def SCL_BINDB_LSB (a : Nat) : FRef := ⟨0x0E1C04 + 0x8 * a, 11, 7⟩
def SCL_BINDB_WM1 (a : Nat) : FRef := ⟨0x0E1C04 + 0x8 * a, 16, 12⟩
def SCL_BINDB_SIGNED (a : Nat) : FRef := ⟨0x0E1C04 + 0x8 * a, 17, 17⟩
def SCL_BINDB_SH (a : Nat) : FRef := ⟨0x0E1C04 + 0x8 * a, 21, 18⟩
def VID_CTL_EN (a : Nat) : FRef := ⟨0x100000 + 0x10000 * a, 0, 0⟩
def VID_CTL_PASS (a : Nat) : FRef := ⟨0x100000 + 0x10000 * a, 1, 1⟩
def VID_CTL_FACETS (a : Nat) : FRef := ⟨0x100000 + 0x10000 * a, 5, 2⟩
def VID_CTL_NZM1 (a : Nat) : FRef := ⟨0x100000 + 0x10000 * a, 10, 6⟩
def VID_CTL_FZEN (a : Nat) : FRef := ⟨0x100000 + 0x10000 * a, 11, 11⟩
def VID_CTL_AUTORET (a : Nat) : FRef := ⟨0x100000 + 0x10000 * a, 12, 12⟩
def VID_CTL_BANKS (a : Nat) : FRef := ⟨0x100000 + 0x10000 * a, 13, 13⟩
def VID_CTL_BANK (a : Nat) : FRef := ⟨0x100000 + 0x10000 * a, 14, 14⟩
def VID_CTL_LFEN (a : Nat) : FRef := ⟨0x100000 + 0x10000 * a, 15, 15⟩
def VID_CTL_LFCLS (a : Nat) : FRef := ⟨0x100000 + 0x10000 * a, 17, 16⟩
def VID_LINECFG_PDLY (a : Nat) : FRef := ⟨0x100004 + 0x10000 * a, 11, 0⟩
def VID_SCAN_ACTIVE (a : Nat) : FRef := ⟨0x100008 + 0x10000 * a, 13, 0⟩
def VID_LIVE_LF (a : Nat) : FRef := ⟨0x10000C + 0x10000 * a, 7, 0⟩
def VID_LIVE_PERR (a : Nat) : FRef := ⟨0x10000C + 0x10000 * a, 23, 8⟩
def VID_LIVE_LFCLAMP (a : Nat) : FRef := ⟨0x10000C + 0x10000 * a, 24, 24⟩
def VID_RETIRE_LANES (a : Nat) : FRef := ⟨0x100010 + 0x10000 * a, 15, 0⟩
def VID_MASKSEL_SEL0 (a : Nat) : FRef := ⟨0x100014 + 0x10000 * a, 3, 0⟩
def VID_MASKSEL_SEL1 (a : Nat) : FRef := ⟨0x100014 + 0x10000 * a, 7, 4⟩
def VID_MASKSEL_SEL2 (a : Nat) : FRef := ⟨0x100014 + 0x10000 * a, 11, 8⟩
def VID_MASKSEL_SEL3 (a : Nat) : FRef := ⟨0x100014 + 0x10000 * a, 15, 12⟩
def VID_MASKSEL_SEL4 (a : Nat) : FRef := ⟨0x100014 + 0x10000 * a, 19, 16⟩
def VID_MASKSEL_SEL5 (a : Nat) : FRef := ⟨0x100014 + 0x10000 * a, 23, 20⟩
def VID_MASKSEL_SEL6 (a : Nat) : FRef := ⟨0x100014 + 0x10000 * a, 27, 24⟩
def VID_MASKSEL_SEL7 (a : Nat) : FRef := ⟨0x100014 + 0x10000 * a, 31, 28⟩
def VID_STAT_IDOK (a : Nat) : FRef := ⟨0x100018 + 0x10000 * a, 0, 0⟩
def VID_STAT_HTSOFT (a : Nat) : FRef := ⟨0x100018 + 0x10000 * a, 1, 1⟩
def VID_STAT_HTHARD (a : Nat) : FRef := ⟨0x100018 + 0x10000 * a, 2, 2⟩
def VID_STAT_FZMISS (a : Nat) : FRef := ⟨0x100018 + 0x10000 * a, 15, 8⟩
def VID_DUTYSUP_LANES (a : Nat) : FRef := ⟨0x10001C + 0x10000 * a, 15, 0⟩
def VID_DUTYSUP_STN (a : Nat) : FRef := ⟨0x10001C + 0x10000 * a, 16, 16⟩
def VID_HT_TEMP (a : Nat) : FRef := ⟨0x100020 + 0x10000 * a, 15, 0⟩
def VID_HTLIM_HTSOFT (a : Nat) : FRef := ⟨0x100024 + 0x10000 * a, 15, 0⟩
def VID_HTLIM_HTHARD (a : Nat) : FRef := ⟨0x100024 + 0x10000 * a, 31, 16⟩
def VID_DLSTAT_DLSKIP (a : Nat) : FRef := ⟨0x100028 + 0x10000 * a, 7, 0⟩
def VID_DLSTAT_LCLAMP (a : Nat) : FRef := ⟨0x100028 + 0x10000 * a, 15, 8⟩
def VID_DLSTAT_FCLAMP (a : Nat) : FRef := ⟨0x100028 + 0x10000 * a, 23, 16⟩
def VID_IDCFG_FZTOL (a : Nat) : FRef := ⟨0x100030 + 0x10000 * a, 3, 0⟩
def VID_IDCFG_IDCLS (a : Nat) : FRef := ⟨0x100030 + 0x10000 * a, 6, 4⟩
def VID_IDCFG_SIGREV (a : Nat) : FRef := ⟨0x100030 + 0x10000 * a, 14, 7⟩
def VID_IDCFG_SIGMARGIN (a : Nat) : FRef := ⟨0x100030 + 0x10000 * a, 30, 15⟩
def VID_ZSTART_DOT (a b : Nat) : FRef := ⟨0x100040 + 0x10000 * a + 0x4 * b, 13, 0⟩
def VID_PSHAPE_START (a b : Nat) : FRef := ⟨0x1000C0 + 0x10000 * a + 0x4 * b, 5, 0⟩
def VID_PSHAPE_WIDTH (a b : Nat) : FRef := ⟨0x1000C0 + 0x10000 * a + 0x4 * b, 12, 6⟩
def VID_LEVEL_BASE (a b : Nat) : FRef := ⟨0x100100 + 0x10000 * a + 0x4 * b, 9, 0⟩
def VID_MASK_LO_ROWS03 (a b : Nat) : FRef := ⟨0x100140 + 0x10000 * a + 0x8 * b, 31, 0⟩
def VID_MASK_HI_ROWS47 (a b : Nat) : FRef := ⟨0x100144 + 0x10000 * a + 0x8 * b, 31, 0⟩
def VID_SIG_PPM (a b : Nat) : FRef := ⟨0x1001C0 + 0x10000 * a + 0x4 * b, 15, 0⟩
def VID_MEAS_PPM (a b : Nat) : FRef := ⟨0x100200 + 0x10000 * a + 0x4 * b, 15, 0⟩
def VID_ENTRY (a b : Nat) : FRef := ⟨0x108000 + 0x10000 * a + 0x4 * b, 31, 0⟩
def VID_PLOCK_FTOL (a : Nat) : FRef := ⟨0x100300 + 0x10000 * a, 7, 0⟩
def VID_PLOCK_NLOCK (a : Nat) : FRef := ⟨0x100300 + 0x10000 * a, 15, 8⟩
def VID_PLOCK_LOCK (a : Nat) : FRef := ⟨0x100300 + 0x10000 * a, 31, 31⟩
def VID_SPPC_ADV (a : Nat) : FRef := ⟨0x100304 + 0x10000 * a, 23, 0⟩
def BMAP_ENTRY (a : Nat) : FRef := ⟨0x150000 + 0x4 * a, 31, 0⟩
def BMAP_SEL_STN : FRef := ⟨0x154000, 2, 0⟩
def BMAP_INFO_USED : FRef := ⟨0x154004, 12, 0⟩
def BMAP_INFO_BANKS : FRef := ⟨0x154004, 13, 13⟩
def BMAP_INFO_BANK : FRef := ⟨0x154004, 14, 14⟩
def FBK_CFG_EN (a : Nat) : FRef := ⟨0x180100 + 0x40 * a, 0, 0⟩
def FBK_CFG_MODE (a : Nat) : FRef := ⟨0x180100 + 0x40 * a, 1, 1⟩
def FBK_CFG_INV (a : Nat) : FRef := ⟨0x180100 + 0x40 * a, 2, 2⟩
def FBK_CFG_ZEN (a : Nat) : FRef := ⟨0x180100 + 0x40 * a, 3, 3⟩
def FBK_CFG_IZERO (a : Nat) : FRef := ⟨0x180100 + 0x40 * a, 4, 4⟩
def FBK_CFG_SLEN (a : Nat) : FRef := ⟨0x180100 + 0x40 * a, 5, 5⟩
def FBK_CFG_MINEDGE (a : Nat) : FRef := ⟨0x180100 + 0x40 * a, 15, 6⟩
def FBK_CFG_GAPSTN (a : Nat) : FRef := ⟨0x180100 + 0x40 * a, 18, 16⟩
def FBK_CFG_IDXCLS (a : Nat) : FRef := ⟨0x180100 + 0x40 * a, 21, 19⟩
def FBK_CFG_GLCLS (a : Nat) : FRef := ⟨0x180100 + 0x40 * a, 24, 22⟩
def FBK_SPDCFG_GLTHR (a : Nat) : FRef := ⟨0x180104 + 0x40 * a, 7, 0⟩
def FBK_SPDCFG_CWIN (a : Nat) : FRef := ⟨0x180104 + 0x40 * a, 14, 8⟩
def FBK_SPDCFG_STILL (a : Nat) : FRef := ⟨0x180104 + 0x40 * a, 24, 15⟩
def FBK_SPDTHR_VDN (a : Nat) : FRef := ⟨0x180108 + 0x40 * a, 15, 0⟩
def FBK_SPDTHR_VUP (a : Nat) : FRef := ⟨0x180108 + 0x40 * a, 31, 16⟩
def FBK_NOM (a : Nat) : FRef := ⟨0x18010C + 0x40 * a, 23, 0⟩
def FBK_NOM_ITOL (a : Nat) : FRef := ⟨0x18010C + 0x40 * a, 27, 24⟩
def FBK_SLMIN_MIN (a : Nat) : FRef := ⟨0x180110 + 0x40 * a, 31, 0⟩
def FBK_SLMAX_MAX (a : Nat) : FRef := ⟨0x180114 + 0x40 * a, 31, 0⟩
def FBK_CNT (a : Nat) : FRef := ⟨0x180118 + 0x40 * a, 31, 0⟩
def FBK_RPOS (a : Nat) : FRef := ⟨0x18011C + 0x40 * a, 31, 0⟩
def FBK_SPD (a : Nat) : FRef := ⟨0x180120 + 0x40 * a, 31, 0⟩
def FBK_STAT_DIR (a : Nat) : FRef := ⟨0x180124 + 0x40 * a, 0, 0⟩
def FBK_STAT_METH (a : Nat) : FRef := ⟨0x180124 + 0x40 * a, 1, 1⟩
def FBK_STAT_STILL (a : Nat) : FRef := ⟨0x180124 + 0x40 * a, 2, 2⟩
def FBK_STAT_SAT (a : Nat) : FRef := ⟨0x180124 + 0x40 * a, 3, 3⟩
def FBK_STAT_IDXOK (a : Nat) : FRef := ⟨0x180124 + 0x40 * a, 4, 4⟩
def FBK_STAT_IDXDEF (a : Nat) : FRef := ⟨0x180124 + 0x40 * a, 5, 5⟩
def FBK_STAT_GLITCH (a : Nat) : FRef := ⟨0x180124 + 0x40 * a, 15, 8⟩
def FBK_STAT_IMISS (a : Nat) : FRef := ⟨0x180124 + 0x40 * a, 23, 16⟩
def FBK_ICAP (a : Nat) : FRef := ⟨0x180128 + 0x40 * a, 31, 0⟩
def FBK_IDIFF (a : Nat) : FRef := ⟨0x18012C + 0x40 * a, 31, 0⟩
def FBK_SSI_CFG_EN (a : Nat) : FRef := ⟨0x180400 + 0x20 * a, 0, 0⟩
def FBK_SSI_CFG_NBITS (a : Nat) : FRef := ⟨0x180400 + 0x20 * a, 5, 1⟩
def FBK_SSI_CFG_GRAY (a : Nat) : FRef := ⟨0x180400 + 0x20 * a, 6, 6⟩
def FBK_SSI_CFG_ERRBIT (a : Nat) : FRef := ⟨0x180400 + 0x20 * a, 7, 7⟩
def FBK_SSI_CFG_PAR (a : Nat) : FRef := ⟨0x180400 + 0x20 * a, 8, 8⟩
def FBK_SSI_CFG_CKDIV (a : Nat) : FRef := ⟨0x180400 + 0x20 * a, 17, 9⟩
def FBK_SSI_CFG_SSICLS (a : Nat) : FRef := ⟨0x180400 + 0x20 * a, 20, 18⟩
def FBK_SSI_MONO (a : Nat) : FRef := ⟨0x180404 + 0x20 * a, 7, 0⟩
def FBK_SSI_POS (a : Nat) : FRef := ⟨0x180408 + 0x20 * a, 31, 0⟩
def FBK_SSI_SPD (a : Nat) : FRef := ⟨0x18040C + 0x20 * a, 31, 0⟩
def FBK_SSI_STAT_ERRS (a : Nat) : FRef := ⟨0x180410 + 0x20 * a, 7, 0⟩
def FBK_SSI_STAT_VALID (a : Nat) : FRef := ⟨0x180410 + 0x20 * a, 8, 8⟩
def MOT_CTL_EN : FRef := ⟨0x190000, 0, 0⟩
def MOT_CTL_SPER : FRef := ⟨0x190000, 14, 1⟩
def MOT_CFG_EN (a : Nat) : FRef := ⟨0x190100 + 0x80 * a, 0, 0⟩
def MOT_CFG_LIMN (a : Nat) : FRef := ⟨0x190100 + 0x80 * a, 6, 1⟩
def MOT_CFG_LIMP (a : Nat) : FRef := ⟨0x190100 + 0x80 * a, 12, 7⟩
def MOT_CFG_HOME (a : Nat) : FRef := ⟨0x190100 + 0x80 * a, 18, 13⟩
def MOT_CFG_LIMEN (a : Nat) : FRef := ⟨0x190100 + 0x80 * a, 19, 19⟩
def MOT_CFG_LIMCLS (a : Nat) : FRef := ⟨0x190100 + 0x80 * a, 22, 20⟩
def MOT_CFG_HOMCLS (a : Nat) : FRef := ⟨0x190100 + 0x80 * a, 25, 23⟩
def MOT_CFG_FBCH (a : Nat) : FRef := ⟨0x190100 + 0x80 * a, 29, 26⟩
def MOT_CMD_MODE (a : Nat) : FRef := ⟨0x190104 + 0x80 * a, 2, 0⟩
def MOT_CMD_START (a : Nat) : FRef := ⟨0x190104 + 0x80 * a, 3, 3⟩
def MOT_CMD_GO (a : Nat) : FRef := ⟨0x190104 + 0x80 * a, 4, 4⟩
def MOT_TARGET (a : Nat) : FRef := ⟨0x190108 + 0x80 * a, 31, 0⟩
def MOT_VMAX (a : Nat) : FRef := ⟨0x19010C + 0x80 * a, 31, 0⟩
def MOT_ACC (a : Nat) : FRef := ⟨0x190110 + 0x80 * a, 31, 0⟩
def MOT_DEC (a : Nat) : FRef := ⟨0x190114 + 0x80 * a, 31, 0⟩
def MOT_QDEC (a : Nat) : FRef := ⟨0x190118 + 0x80 * a, 31, 0⟩
def MOT_STARTT_LO_T (a : Nat) : FRef := ⟨0x19011C + 0x80 * a, 31, 0⟩
def MOT_STARTT_HI_T (a : Nat) : FRef := ⟨0x190120 + 0x80 * a, 31, 0⟩
def MOT_SETP (a : Nat) : FRef := ⟨0x190124 + 0x80 * a, 31, 0⟩
def MOT_SETPF_FRAC (a : Nat) : FRef := ⟨0x190128 + 0x80 * a, 15, 0⟩
def MOT_VSET (a : Nat) : FRef := ⟨0x19012C + 0x80 * a, 31, 0⟩
def MOT_STAT_PHASE (a : Nat) : FRef := ⟨0x190130 + 0x80 * a, 2, 0⟩
def MOT_STAT_PEND (a : Nat) : FRef := ⟨0x190130 + 0x80 * a, 3, 3⟩
def MOT_STAT_DECDEF (a : Nat) : FRef := ⟨0x190130 + 0x80 * a, 4, 4⟩
def MOT_STAT_HOMED (a : Nat) : FRef := ⟨0x190130 + 0x80 * a, 5, 5⟩
def MOT_STAT_HFAULT (a : Nat) : FRef := ⟨0x190130 + 0x80 * a, 6, 6⟩
def MOT_STAT_LIMTRIP (a : Nat) : FRef := ⟨0x190130 + 0x80 * a, 7, 7⟩
def MOT_STAT_STRONG (a : Nat) : FRef := ⟨0x190130 + 0x80 * a, 8, 8⟩
def MOT_STAT_SWPEND (a : Nat) : FRef := ⟨0x190130 + 0x80 * a, 9, 9⟩
def MOT_HCFG_HMODE (a : Nat) : FRef := ⟨0x190134 + 0x80 * a, 2, 0⟩
def MOT_HCFG_HDIR (a : Nat) : FRef := ⟨0x190134 + 0x80 * a, 3, 3⟩
def MOT_HCFG_HV1 (a : Nat) : FRef := ⟨0x190134 + 0x80 * a, 19, 4⟩
def MOT_HV2 (a : Nat) : FRef := ⟨0x190138 + 0x80 * a, 15, 0⟩
def MOT_HOFF (a : Nat) : FRef := ⟨0x19013C + 0x80 * a, 31, 0⟩
def MOT_STEP_MLOG2 (a : Nat) : FRef := ⟨0x190140 + 0x80 * a, 3, 0⟩
def MOT_STEP_QSUP (a : Nat) : FRef := ⟨0x190140 + 0x80 * a, 19, 4⟩
def MOT_QSDN (a : Nat) : FRef := ⟨0x190144 + 0x80 * a, 15, 0⟩
def POLY_CFG_EN (a : Nat) : FRef := ⟨0x1A0100 + 0x80 * a, 0, 0⟩
def POLY_CFG_SENSE (a : Nat) : FRef := ⟨0x1A0100 + 0x80 * a, 1, 1⟩
def POLY_CFG_DIR (a : Nat) : FRef := ⟨0x1A0100 + 0x80 * a, 2, 2⟩
def POLY_CFG_SYNC (a : Nat) : FRef := ⟨0x1A0100 + 0x80 * a, 3, 3⟩
def POLY_CFG_PP (a : Nat) : FRef := ⟨0x1A0100 + 0x80 * a, 7, 4⟩
def POLY_CFG_KECLS (a : Nat) : FRef := ⟨0x1A0100 + 0x80 * a, 10, 8⟩
def POLY_PWM_PERIOD (a : Nat) : FRef := ⟨0x1A0104 + 0x80 * a, 16, 0⟩
def POLY_PWM_DT (a : Nat) : FRef := ⟨0x1A0104 + 0x80 * a, 28, 17⟩
def POLY_WIN_TMIN (a : Nat) : FRef := ⟨0x1A0108 + 0x80 * a, 11, 0⟩
def POLY_WIN_BLANK (a : Nat) : FRef := ⟨0x1A0108 + 0x80 * a, 23, 12⟩
def POLY_CMD (a : Nat) : FRef := ⟨0x1A010C + 0x80 * a, 19, 0⟩
def POLY_SGAIN_KPS (a : Nat) : FRef := ⟨0x1A0110 + 0x80 * a, 15, 0⟩
def POLY_SGAIN_KIS (a : Nat) : FRef := ⟨0x1A0110 + 0x80 * a, 31, 16⟩
def POLY_CGAIN_KPC (a : Nat) : FRef := ⟨0x1A0114 + 0x80 * a, 15, 0⟩
def POLY_CGAIN_KIC (a : Nat) : FRef := ⟨0x1A0114 + 0x80 * a, 31, 16⟩
def POLY_ILIM (a : Nat) : FRef := ⟨0x1A0118 + 0x80 * a, 15, 0⟩
def POLY_ILIM_ISC (a : Nat) : FRef := ⟨0x1A0118 + 0x80 * a, 31, 16⟩
def POLY_STARTA_ALIGNT (a : Nat) : FRef := ⟨0x1A011C + 0x80 * a, 7, 0⟩
def POLY_STARTA_ALIGND (a : Nat) : FRef := ⟨0x1A011C + 0x80 * a, 15, 8⟩
def POLY_STARTA_HAND (a : Nat) : FRef := ⟨0x1A011C + 0x80 * a, 31, 16⟩
def POLY_STARTB_RAMPT (a : Nat) : FRef := ⟨0x1A0120 + 0x80 * a, 15, 0⟩
def POLY_STARTB_ZCN (a : Nat) : FRef := ⟨0x1A0120 + 0x80 * a, 19, 16⟩
def POLY_CATCH_CATCHT (a : Nat) : FRef := ⟨0x1A0124 + 0x80 * a, 15, 0⟩
def POLY_CATCH_LOSTN (a : Nat) : FRef := ⟨0x1A0124 + 0x80 * a, 19, 16⟩
def POLY_KE_KENOM (a : Nat) : FRef := ⟨0x1A0128 + 0x80 * a, 15, 0⟩
def POLY_KE_KETOL (a : Nat) : FRef := ⟨0x1A0128 + 0x80 * a, 23, 16⟩
def POLY_WIND_OHM (a : Nat) : FRef := ⟨0x1A012C + 0x80 * a, 15, 0⟩
def POLY_ADVSTEP_STEP (a : Nat) : FRef := ⟨0x1A0130 + 0x80 * a, 15, 0⟩
def POLY_ADV_ADV0 (a b : Nat) : FRef := ⟨0x1A0134 + 0x80 * a + 0x4 * b, 7, 0⟩
def POLY_ADV_ADV1 (a b : Nat) : FRef := ⟨0x1A0134 + 0x80 * a + 0x4 * b, 15, 8⟩
def POLY_ADV_ADV2 (a b : Nat) : FRef := ⟨0x1A0134 + 0x80 * a + 0x4 * b, 23, 16⟩
def POLY_ADV_ADV3 (a b : Nat) : FRef := ⟨0x1A0134 + 0x80 * a + 0x4 * b, 31, 24⟩
def POLY_STAT_STATE (a : Nat) : FRef := ⟨0x1A0144 + 0x80 * a, 2, 0⟩
def POLY_STAT_STEP (a : Nat) : FRef := ⟨0x1A0144 + 0x80 * a, 5, 3⟩
def POLY_STAT_CLAMP (a : Nat) : FRef := ⟨0x1A0144 + 0x80 * a, 6, 6⟩
def POLY_STAT_WLIM (a : Nat) : FRef := ⟨0x1A0144 + 0x80 * a, 7, 7⟩
def POLY_STAT_KEBAD (a : Nat) : FRef := ⟨0x1A0144 + 0x80 * a, 8, 8⟩
def POLY_STAT_SWB (a : Nat) : FRef := ⟨0x1A0144 + 0x80 * a, 9, 9⟩
def POLY_SPEED (a : Nat) : FRef := ⟨0x1A0148 + 0x80 * a, 19, 0⟩
def POLY_MEAS_I (a : Nat) : FRef := ⟨0x1A014C + 0x80 * a, 15, 0⟩
def POLY_MEAS_DUTY (a : Nat) : FRef := ⟨0x1A014C + 0x80 * a, 31, 16⟩
def POLY_KEMEAS_KE (a : Nat) : FRef := ⟨0x1A0150 + 0x80 * a, 15, 0⟩
def POLY_T60 (a : Nat) : FRef := ⟨0x1A0154 + 0x80 * a, 23, 0⟩
def POLY_CNT_LOST (a : Nat) : FRef := ⟨0x1A0158 + 0x80 * a, 7, 0⟩
def POLY_CNT_CATCHOK (a : Nat) : FRef := ⟨0x1A0158 + 0x80 * a, 15, 8⟩
def SRV_BRKCFG_BEN : FRef := ⟨0x1B0000, 0, 0⟩
def SRV_BRKCFG_ON : FRef := ⟨0x1B0000, 10, 1⟩
def SRV_BRKCFG_OFF : FRef := ⟨0x1B0000, 20, 11⟩
def SRV_BRKCHK_IMIN : FRef := ⟨0x1B0004, 7, 0⟩
def SRV_BRKCHK_TRISE : FRef := ⟨0x1B0004, 15, 8⟩
def SRV_BRKCHK_BISC : FRef := ⟨0x1B0004, 31, 16⟩
def SRV_BRKSTAT_ON : FRef := ⟨0x1B0008, 0, 0⟩
def SRV_BRKSTAT_FAIL : FRef := ⟨0x1B0008, 1, 1⟩
def SRV_BRKSTAT_SWB : FRef := ⟨0x1B0008, 2, 2⟩
def SRV_BRKSTAT_VBUS : FRef := ⟨0x1B0008, 31, 16⟩
def SRV_CFG_EN (a : Nat) : FRef := ⟨0x1B0100 + 0x40 * a, 0, 0⟩
def SRV_CFG_PPM1 (a : Nat) : FRef := ⟨0x1B0100 + 0x40 * a, 3, 1⟩
def SRV_CFG_DTC (a : Nat) : FRef := ⟨0x1B0100 + 0x40 * a, 4, 4⟩
def SRV_CFG_ISC (a : Nat) : FRef := ⟨0x1B0100 + 0x40 * a, 31, 16⟩
def SRV_PWM_PERIOD (a : Nat) : FRef := ⟨0x1B0104 + 0x40 * a, 16, 0⟩
def SRV_PWM_DT (a : Nat) : FRef := ⟨0x1B0104 + 0x40 * a, 28, 17⟩
def SRV_LIM_TMIN (a : Nat) : FRef := ⟨0x1B0108 + 0x40 * a, 11, 0⟩
def SRV_LIM_VLIM (a : Nat) : FRef := ⟨0x1B0108 + 0x40 * a, 27, 12⟩
def SRV_EOFF (a : Nat) : FRef := ⟨0x1B010C + 0x40 * a, 31, 0⟩
def SRV_IREF_IQ (a : Nat) : FRef := ⟨0x1B0110 + 0x40 * a, 15, 0⟩
def SRV_IREF_ID (a : Nat) : FRef := ⟨0x1B0110 + 0x40 * a, 31, 16⟩
def SRV_GAIN_KP (a : Nat) : FRef := ⟨0x1B0114 + 0x40 * a, 15, 0⟩
def SRV_GAIN_KI (a : Nat) : FRef := ⟨0x1B0114 + 0x40 * a, 31, 16⟩
def SRV_STAT_LIMV (a : Nat) : FRef := ⟨0x1B0118 + 0x40 * a, 0, 0⟩
def SRV_STAT_ICLAMP (a : Nat) : FRef := ⟨0x1B0118 + 0x40 * a, 1, 1⟩
def SRV_STAT_OC (a : Nat) : FRef := ⟨0x1B0118 + 0x40 * a, 2, 2⟩
def SRV_STAT_SWB (a : Nat) : FRef := ⟨0x1B0118 + 0x40 * a, 3, 3⟩
def SRV_MEAS_IQ (a : Nat) : FRef := ⟨0x1B011C + 0x40 * a, 15, 0⟩
def SRV_MEAS_ID (a : Nat) : FRef := ⟨0x1B011C + 0x40 * a, 31, 16⟩
def SRV_VOLT_VQ (a : Nat) : FRef := ⟨0x1B0120 + 0x40 * a, 15, 0⟩
def SRV_VOLT_VD (a : Nat) : FRef := ⟨0x1B0120 + 0x40 * a, 31, 16⟩
def STP_CFG_EN (a : Nat) : FRef := ⟨0x1C0100 + 0x40 * a, 0, 0⟩
def STP_CFG_ISC (a : Nat) : FRef := ⟨0x1C0100 + 0x40 * a, 31, 16⟩
def STP_IRUN (a : Nat) : FRef := ⟨0x1C0104 + 0x40 * a, 15, 0⟩
def STP_IRUN_IHOLD (a : Nat) : FRef := ⟨0x1C0104 + 0x40 * a, 31, 16⟩
def STP_HOLD_HOLDT (a : Nat) : FRef := ⟨0x1C0108 + 0x40 * a, 15, 0⟩
def STP_QPWM_PERIOD (a : Nat) : FRef := ⟨0x1C010C + 0x40 * a, 16, 0⟩
def STP_STRG_TOFF (a : Nat) : FRef := ⟨0x1C0110 + 0x40 * a, 7, 0⟩
def STP_STRG_SQ (a : Nat) : FRef := ⟨0x1C0110 + 0x40 * a, 15, 8⟩
def STP_STRG_BLANKS (a : Nat) : FRef := ⟨0x1C0110 + 0x40 * a, 23, 16⟩
def STP_GAIN_KP (a : Nat) : FRef := ⟨0x1C0114 + 0x40 * a, 15, 0⟩
def STP_GAIN_KI (a : Nat) : FRef := ⟨0x1C0114 + 0x40 * a, 31, 16⟩
def STP_STAT_STRONG (a : Nat) : FRef := ⟨0x1C0118 + 0x40 * a, 0, 0⟩
def STP_STAT_HOLDING (a : Nat) : FRef := ⟨0x1C0118 + 0x40 * a, 1, 1⟩
def STP_STAT_ICLAMP (a : Nat) : FRef := ⟨0x1C0118 + 0x40 * a, 2, 2⟩
def STP_STAT_OC (a : Nat) : FRef := ⟨0x1C0118 + 0x40 * a, 3, 3⟩
def STP_STAT_SWB (a : Nat) : FRef := ⟨0x1C0118 + 0x40 * a, 4, 4⟩
def STP_MEAS_IA (a : Nat) : FRef := ⟨0x1C011C + 0x40 * a, 15, 0⟩
def STP_MEAS_IB (a : Nat) : FRef := ⟨0x1C011C + 0x40 * a, 31, 16⟩
def HV_CTL_EN : FRef := ⟨0x1D0000, 0, 0⟩
def HV_CTL_HVREQ : FRef := ⟨0x1D0000, 1, 1⟩
def HV_CTL_HVENOUT : FRef := ⟨0x1D0000, 2, 2⟩
def HV_CTL_PERIOD : FRef := ⟨0x1D0000, 18, 4⟩
def HV_CFG_EN (a : Nat) : FRef := ⟨0x1D0100 + 0x10 * a, 0, 0⟩
def HV_CFG_FBI (a : Nat) : FRef := ⟨0x1D0100 + 0x10 * a, 1, 1⟩
def HV_REF_DUTY (a : Nat) : FRef := ⟨0x1D0104 + 0x10 * a, 15, 0⟩
def HV_STAT_APPLIED (a : Nat) : FRef := ⟨0x1D0108 + 0x10 * a, 15, 0⟩
def HV_STAT_CLAMP (a : Nat) : FRef := ⟨0x1D0108 + 0x10 * a, 16, 16⟩
def HV_STAT_OC (a : Nat) : FRef := ⟨0x1D0108 + 0x10 * a, 17, 17⟩
def FUS_CTL_EN : FRef := ⟨0x1E0000, 0, 0⟩
def FUS_CTL_MODE : FRef := ⟨0x1E0000, 1, 1⟩
def FUS_CTL_STAGGER : FRef := ⟨0x1E0000, 2, 2⟩
def FUS_CTL_ZCDLY : FRef := ⟨0x1E0000, 13, 3⟩
def FUS_CTL_GATEW : FRef := ⟨0x1E0000, 21, 14⟩
def FUS_PWM_PERIOD : FRef := ⟨0x1E0004, 16, 0⟩
def FUS_STAT_ZCOK : FRef := ⟨0x1E0008, 0, 0⟩
def FUS_STAT_HALFP : FRef := ⟨0x1E0008, 14, 1⟩
def FUS_STAT_ZCLAMP : FRef := ⟨0x1E0008, 18, 15⟩
def FUS_STAT_TCLAMP : FRef := ⟨0x1E0008, 19, 19⟩
def FUS_DEM_DEMAND (a : Nat) : FRef := ⟨0x1E0010 + 0x4 * a, 15, 0⟩
def FUS_DEM_CIN (a : Nat) : FRef := ⟨0x1E0010 + 0x4 * a, 18, 16⟩
def FUS_APPL_APPLIED (a : Nat) : FRef := ⟨0x1E0020 + 0x4 * a, 15, 0⟩
def FUS_APPL_FIRE (a : Nat) : FRef := ⟨0x1E0020 + 0x4 * a, 16, 16⟩
def FUS_TEMP_T (a : Nat) : FRef := ⟨0x1E0040 + 0x4 * a, 15, 0⟩
def FUS_TEMP_BROKEN (a : Nat) : FRef := ⟨0x1E0040 + 0x4 * a, 16, 16⟩
def SNS_CTL_EN : FRef := ⟨0x1F0000, 0, 0⟩
def SNS_CFG_DEB (a : Nat) : FRef := ⟨0x1F0100 + 0x8 * a, 15, 0⟩
def SNS_CFG_INV (a : Nat) : FRef := ⟨0x1F0100 + 0x8 * a, 16, 16⟩
def SNS_CFG_CHN (a : Nat) : FRef := ⟨0x1F0100 + 0x8 * a, 20, 17⟩
def SNS_CFG_CHW (a : Nat) : FRef := ⟨0x1F0100 + 0x8 * a, 28, 21⟩
def SNS_STAT_LVL (a : Nat) : FRef := ⟨0x1F0104 + 0x8 * a, 0, 0⟩
def SNS_STAT_RAW (a : Nat) : FRef := ⟨0x1F0104 + 0x8 * a, 1, 1⟩
def SNS_STAT_CHAT (a : Nat) : FRef := ⟨0x1F0104 + 0x8 * a, 2, 2⟩
def FJL_CTL_EN : FRef := ⟨0x200000, 0, 0⟩
def FJL_CTL_TMASTER : FRef := ⟨0x200000, 1, 1⟩
def FJL_CTL_RING : FRef := ⟨0x200000, 2, 2⟩
def FJL_CTL_SYNCPER : FRef := ⟨0x200000, 10, 3⟩
def FJL_NODE_ADDR : FRef := ⟨0x200004, 13, 0⟩
def FJL_PSTAT_UUP : FRef := ⟨0x200008, 0, 0⟩
def FJL_PSTAT_DUP : FRef := ⟨0x200008, 1, 1⟩
def FJL_PSTAT_TPORT : FRef := ⟨0x200008, 3, 2⟩
def FJL_PSTAT_TSTATE : FRef := ⟨0x200008, 6, 4⟩
def FJL_PSTAT_TMADDR : FRef := ⟨0x200008, 29, 16⟩
def FJL_TOFF_LO_TOFF : FRef := ⟨0x20000C, 31, 0⟩
def FJL_TOFF_HI_TOFF : FRef := ⟨0x200010, 31, 0⟩
def FJL_THETA : FRef := ⟨0x200014, 31, 0⟩
def FJL_TWIN : FRef := ⟨0x200018, 7, 0⟩
def FJL_TWIN_GHOLD : FRef := ⟨0x200018, 23, 8⟩
def FJL_GRP_MODE : FRef := ⟨0x200020, 1, 0⟩
def FJL_GRP_ROLE : FRef := ⟨0x200020, 3, 2⟩
def FJL_GRP_GID : FRef := ⟨0x200020, 11, 4⟩
def FJL_GRP_NMEM : FRef := ⟨0x200020, 14, 12⟩
def FJL_GMEM_ADDR (a : Nat) : FRef := ⟨0x200024 + 0x4 * a, 13, 0⟩
def FJL_GLEAD : FRef := ⟨0x200044, 31, 0⟩
def FJL_TANDOFF_OFF : FRef := ⟨0x200048, 31, 0⟩
def FJL_DDIST_DIST : FRef := ⟨0x20004C, 31, 0⟩
def FJL_STITCH_SIDE : FRef := ⟨0x200050, 0, 0⟩
def FJL_STITCH_OVL : FRef := ⟨0x200050, 11, 1⟩
def FJL_GCATCH_SID : FRef := ⟨0x200060, 23, 0⟩
def FJL_GCATCH_T (a : Nat) : FRef := ⟨0x200064 + 0x4 * a, 31, 0⟩
def FJL_GCGO_GO : FRef := ⟨0x20006C, 0, 0⟩
def FJL_GCRES_CODE : FRef := ⟨0x200070, 3, 0⟩
def FJL_EVDATA_VAL (a : Nat) : FRef := ⟨0x200078 + 0x4 * a, 31, 0⟩
def FJL_EVCODE_CODE : FRef := ⟨0x200080, 15, 0⟩
def FJL_LSTAT_CRCU : FRef := ⟨0x200084, 7, 0⟩
def FJL_LSTAT_CRCD : FRef := ⟨0x200084, 15, 8⟩
def FJL_LSTAT_RETX : FRef := ⟨0x200084, 23, 16⟩
def FJL_CTAB_SID (a : Nat) : FRef := ⟨0x200400 + 0x10 * a, 23, 0⟩
def FJL_CTAB_VALID (a : Nat) : FRef := ⟨0x200400 + 0x10 * a, 24, 24⟩
def SEC_UNITID_LO_ID : FRef := ⟨0x210000, 31, 0⟩
def SEC_UNITID_HI_ID : FRef := ⟨0x210004, 31, 0⟩
def SEC_STAT_RBCNT : FRef := ⟨0x210008, 6, 0⟩
def SEC_STAT_DBG : FRef := ⟨0x210008, 7, 7⟩
def SEC_STAT_LDR : FRef := ⟨0x210008, 8, 8⟩
def SEC_STAT_KEYS : FRef := ⟨0x210008, 11, 9⟩
def SEC_STAT_REASON : FRef := ⟨0x210008, 15, 12⟩
def SEC_OP : FRef := ⟨0x21000C, 3, 0⟩
def SEC_OP_ARG : FRef := ⟨0x21000C, 7, 4⟩
def SEC_OPRES_CODE : FRef := ⟨0x210010, 2, 0⟩
def SEC_OPRES_DONE : FRef := ⟨0x210010, 3, 3⟩
def SEC_MEAS_HASH (a b : Nat) : FRef := ⟨0x211000 + 0x20 * a + 0x4 * b, 31, 0⟩
def SEC_BUF_DATA (a : Nat) : FRef := ⟨0x212000 + 0x4 * a, 31, 0⟩
def SEC_CERT_DER (a : Nat) : FRef := ⟨0x214000 + 0x4 * a, 31, 0⟩
def SEC_CACERT_DER (a : Nat) : FRef := ⟨0x214800 + 0x4 * a, 31, 0⟩
def PCIE_CFG_LINKEN : FRef := ⟨0x220000, 0, 0⟩
def PCIE_CFG_B4EN : FRef := ⟨0x220000, 1, 1⟩
def PCIE_CFG_MAXGEN : FRef := ⟨0x220000, 3, 2⟩
def PCIE_B4BASE_BASE : FRef := ⟨0x220004, 11, 0⟩
def PCIE_LINK_UP : FRef := ⟨0x220008, 0, 0⟩
def PCIE_LINK_GEN : FRef := ⟨0x220008, 2, 1⟩
def PCIE_LINK_WIDTH : FRef := ⟨0x220008, 5, 3⟩
def PCIE_LINK_D3 : FRef := ⟨0x220008, 6, 6⟩
def PCIE_LINK_FLR : FRef := ⟨0x220008, 23, 16⟩
def PIN_GPIN_IN : FRef := ⟨0x230000, 15, 0⟩
def PIN_GPOUT_OUT : FRef := ⟨0x230004, 15, 0⟩
def PIN_GPCFG_MODE (a : Nat) : FRef := ⟨0x230100 + 0x4 * a, 1, 0⟩
def PIN_GPCFG_PD (a : Nat) : FRef := ⟨0x230100 + 0x4 * a, 2, 2⟩
def PIN_GPCFG_OUT (a : Nat) : FRef := ⟨0x230100 + 0x4 * a, 3, 3⟩
def PIN_GPCFG_DRV (a : Nat) : FRef := ⟨0x230100 + 0x4 * a, 5, 4⟩
def ADC_CTL_EN : FRef := ⟨0x240000, 0, 0⟩
def ADC_AIN_VAL (a : Nat) : FRef := ⟨0x240100 + 0x4 * a, 11, 0⟩
def ADC_AIN_BROKEN (a : Nat) : FRef := ⟨0x240100 + 0x4 * a, 12, 12⟩
def ADC_MKCTL_MKEN : FRef := ⟨0x240400, 0, 0⟩
def ADC_MKCTL_ARM : FRef := ⟨0x240400, 1, 1⟩
def ADC_MKCTL_ABORT : FRef := ⟨0x240400, 2, 2⟩
def ADC_MKCTL_WIN : FRef := ⟨0x240400, 8, 3⟩
def ADC_MKCTL_WTOL : FRef := ⟨0x240400, 12, 9⟩
def ADC_MKPOS_LO_POS : FRef := ⟨0x240404, 31, 0⟩
def ADC_MKPOS_HI_POS : FRef := ⟨0x240408, 15, 0⟩
def ADC_SENSDIST_DIST : FRef := ⟨0x24040C, 31, 0⟩
def ADC_MKX_DOT (a : Nat) : FRef := ⟨0x240410 + 0x4 * a, 13, 0⟩
def ADC_MKSTN_THR (a : Nat) : FRef := ⟨0x240420 + 0x4 * a, 11, 0⟩
def ADC_MKSTN_HYS (a : Nat) : FRef := ⟨0x240420 + 0x4 * a, 19, 12⟩
def ADC_MKSTN_POL (a : Nat) : FRef := ⟨0x240420 + 0x4 * a, 20, 20⟩
def ADC_MKSTN_VAL (a : Nat) : FRef := ⟨0x240420 + 0x4 * a, 24, 21⟩
def ADC_MKSTN_INCL (a : Nat) : FRef := ⟨0x240420 + 0x4 * a, 25, 25⟩
def ADC_MKSTAT_ARMED : FRef := ⟨0x240440, 0, 0⟩
def ADC_MKSTAT_ACTIVE : FRef := ⟨0x240440, 1, 1⟩
def ADC_MKSTAT_REFUSED : FRef := ⟨0x240440, 2, 2⟩
def ADC_MKSTAT_ABAND : FRef := ⟨0x240440, 3, 3⟩
def ADC_MKSTAT_VALID : FRef := ⟨0x240440, 8, 4⟩
def ADC_MKSTAT_DIRTY : FRef := ⟨0x240440, 13, 9⟩
def ADC_MKSTAT_SEQ : FRef := ⟨0x240440, 23, 16⟩
def ADC_MKA_A (a b : Nat) : FRef := ⟨0x240500 + 0x20 * a + 0x8 * b, 31, 0⟩
def ADC_MKQ_Q (a b : Nat) : FRef := ⟨0x240504 + 0x20 * a + 0x8 * b, 31, 0⟩
def ADC_REGRES_P (a : Nat) : FRef := ⟨0x240600 + 0x4 * a, 15, 0⟩
def ADC_REGRES_Q (a : Nat) : FRef := ⟨0x240600 + 0x4 * a, 31, 16⟩
def DMA_GCFG_PDTO : FRef := ⟨0x092000, 15, 0⟩
def FJL_CTAB_T_LO_T (a : Nat) : FRef := ⟨0x200404 + 0x10 * a, 31, 0⟩
def FJL_CTAB_T_HI_T (a : Nat) : FRef := ⟨0x200408 + 0x10 * a, 31, 0⟩
def SCL_XFILE (a b : Nat) : FRef := ⟨0x0E2C00 + 0x80 * a + 0x4 * b, 31, 0⟩
def SCL_YFILE (a b : Nat) : FRef := ⟨0x0E3200 + 0x80 * a + 0x4 * b, 31, 0⟩
def SCL_COEF (a : Nat) : FRef := ⟨0x0E4000 + 0x4 * a, 31, 0⟩
def SCL_UCODE (a : Nat) : FRef := ⟨0x0E8000 + 0x4 * a, 31, 0⟩
def SCL_RCWIN (a : Nat) : FRef := ⟨0x0EC000 + 0x4 * a, 31, 0⟩
def DMA_MSIXT_ADDR_LO (a : Nat) : FRef := ⟨0x09E000 + 0x10 * a, 31, 0⟩
def DMA_MSIXT_ADDR_HI (a : Nat) : FRef := ⟨0x09E004 + 0x10 * a, 31, 0⟩
def DMA_MSIXT_DATA (a : Nat) : FRef := ⟨0x09E008 + 0x10 * a, 31, 0⟩
def DMA_MSIXT_MASK (a : Nat) : FRef := ⟨0x09E00C + 0x10 * a, 0, 0⟩
def DMA_MSIXP_PBA (a : Nat) : FRef := ⟨0x09F000 + 0x4 * a, 31, 0⟩

end R

/-! ## Register rows -/

/-- The register rows of block SYS (0x00), as its table of the spec prints them. -/
def tabSYS : List RegDef := [
  ⟨0x0000, [], [⟨31, 0, .ro, .live, [0]⟩]⟩,
  ⟨0x0004, [], [⟨7, 0, .ro, .live, [0]⟩]⟩,
  ⟨0x0008, [], [⟨0, 0, .ro, .live, [1]⟩, ⟨1, 1, .ro, .live, [0]⟩, ⟨2, 2, .ro, .live, [0]⟩]⟩,
  ⟨0x000C, [], [⟨7, 0, .wo, .live, [0]⟩]⟩]

/-- The register rows of block CLK (0x01), as its table of the spec prints them. -/
def tabCLK : List RegDef := [
  ⟨0x0000, [], [⟨15, 0, .rw, .live, [5000]⟩]⟩,
  ⟨0x0004, [], [⟨0, 0, .ro, .live, [0]⟩, ⟨1, 1, .ro, .live, [1]⟩, ⟨2, 2, .ro, .live, [0]⟩, ⟨3, 3, .ro, .live, [0]⟩]⟩,
  ⟨0x0008, [], [⟨31, 0, .rw, .live, [0]⟩]⟩,
  ⟨0x0010, [], [⟨31, 0, .ro, .live, [0]⟩]⟩,
  ⟨0x0014, [], [⟨31, 0, .ro, .live, [0]⟩]⟩,
  ⟨0x0018, [], [⟨31, 0, .ro, .live, [0]⟩]⟩,
  ⟨0x001C, [], [⟨15, 0, .ro, .live, [0]⟩]⟩,
  ⟨0x0020, [], [⟨31, 0, .rw, .live, [0]⟩]⟩,
  ⟨0x0024, [], [⟨31, 0, .rw, .live, [10000]⟩]⟩,
  ⟨0x0100, [(0x20, 7)], [⟨0, 0, .rw, .live, [1, 0, 0, 0, 0, 0, 0]⟩, ⟨3, 1, .rw, .locked, [0, 0, 3, 3, 3, 3, 3]⟩, ⟨11, 4, .rw, .locked, [40, 16, 32, 32, 32, 32, 32]⟩, ⟨13, 12, .rw, .locked, [0, 0, 1, 1, 1, 1, 1]⟩, ⟨14, 14, .rw, .locked, [0, 1, 1, 1, 1, 1, 1]⟩, ⟨23, 16, .rw, .live, [16]⟩, ⟨31, 24, .rw, .live, [64]⟩]⟩,
  ⟨0x0104, [(0x20, 7)], [⟨23, 0, .rw, .gap, [0]⟩]⟩,
  ⟨0x0108, [(0x20, 7)], [⟨15, 0, .rw, .locked, [4096, 4097, 4098, 4099, 4100, 4101, 4102]⟩]⟩,
  ⟨0x010C, [(0x20, 7)], [⟨15, 0, .rw, .stroke, [0]⟩]⟩,
  ⟨0x0110, [(0x20, 7)], [⟨2, 0, .ro, .live, [1, 0, 0, 0, 0, 0, 0]⟩, ⟨3, 3, .ro, .live, [0]⟩, ⟨4, 4, .ro, .live, [0]⟩, ⟨5, 5, .ro, .live, [0]⟩, ⟨15, 8, .rc, .live, [0]⟩, ⟨31, 16, .ro, .live, [0]⟩]⟩,
  ⟨0x0200, [(0x10, 5)], [⟨31, 0, .ro, .live, [0]⟩]⟩,
  ⟨0x0204, [(0x10, 5)], [⟨31, 0, .ro, .live, [0]⟩]⟩,
  ⟨0x0208, [(0x10, 5)], [⟨3, 0, .ro, .live, [0]⟩]⟩,
  ⟨0x020C, [(0x10, 5)], [⟨31, 0, .ro, .live, [0]⟩]⟩]

/-- The register rows of block PWR (0x02), as its table of the spec prints them. -/
def tabPWR : List RegDef := [
  ⟨0x0000, [], [⟨11, 0, .rw, .live, [1039]⟩]⟩,
  ⟨0x0004, [], [⟨11, 0, .ro, .live, [1039]⟩, ⟨23, 12, .ro, .live, [0]⟩]⟩,
  ⟨0x0010, [], [⟨0, 0, .wo, .live, [0]⟩, ⟨1, 1, .wo, .live, [0]⟩]⟩,
  ⟨0x0014, [], [⟨2, 0, .ro, .live, [0]⟩, ⟨7, 3, .ro, .live, [31]⟩, ⟨23, 8, .ro, .live, [0]⟩]⟩,
  ⟨0x0018, [], [⟨15, 0, .ro, .live, [0]⟩, ⟨31, 16, .ro, .live, [0]⟩]⟩,
  ⟨0x001C, [], [⟨7, 0, .wo, .live, [0]⟩]⟩,
  ⟨0x0020, [], [⟨15, 0, .rw, .live, [500]⟩, ⟨23, 16, .rw, .live, [10]⟩, ⟨25, 24, .rw, .locked, [0]⟩]⟩,
  ⟨0x0024, [], [⟨31, 12, .rw, .live, [0]⟩]⟩,
  ⟨0x0028, [], [⟨4, 0, .ro, .live, [0]⟩, ⟨5, 5, .ro, .live, [0]⟩]⟩,
  ⟨0x0100, [(0x10, 16)], [⟨0, 0, .rw, .locked, [0]⟩, ⟨1, 1, .rw, .locked, [0]⟩, ⟨3, 2, .rw, .locked, [0]⟩, ⟨7, 4, .rw, .locked, [0]⟩, ⟨8, 8, .rw, .locked, [1]⟩, ⟨11, 9, .rw, .locked, [3]⟩, ⟨12, 12, .rw, .locked, [0]⟩, ⟨19, 13, .rw, .locked, [0]⟩, ⟨27, 20, .rw, .locked, [0]⟩, ⟨28, 28, .rw, .locked, [0]⟩, ⟨29, 29, .rw, .locked, [0]⟩]⟩,
  ⟨0x0104, [(0x10, 16)], [⟨15, 0, .rw, .locked, [100]⟩, ⟨31, 16, .rw, .locked, [10]⟩]⟩,
  ⟨0x0108, [(0x10, 16)], [⟨15, 0, .rw, .locked, [500]⟩, ⟨31, 16, .rw, .locked, [10]⟩]⟩,
  ⟨0x010C, [(0x10, 16)], [⟨0, 0, .ro, .live, [0]⟩, ⟨1, 1, .ro, .live, [0]⟩, ⟨2, 2, .ro, .live, [0]⟩, ⟨3, 3, .ro, .live, [0]⟩]⟩]

/-- The register rows of block THM (0x03), as its table of the spec prints them. -/
def tabTHM : List RegDef := [
  ⟨0x0000, [], [⟨0, 0, .rw, .live, [0]⟩, ⟨15, 1, .rw, .live, [2000]⟩, ⟨18, 16, .rw, .live, [0]⟩, ⟨24, 19, .rw, .live, [0]⟩]⟩,
  ⟨0x0004, [], [⟨7, 0, .ro, .live, [0]⟩, ⟨8, 8, .ro, .live, [0]⟩, ⟨9, 9, .ro, .live, [0]⟩, ⟨10, 10, .ro, .live, [0]⟩, ⟨13, 11, .ro, .live, [7]⟩]⟩,
  ⟨0x0100, [(0x8, 25)], [⟨0, 0, .rw, .locked, [0]⟩, ⟨3, 1, .rw, .locked, [0]⟩, ⟨5, 4, .rw, .locked, [0]⟩]⟩,
  ⟨0x0104, [(0x8, 25)], [⟨15, 0, .ro, .live, [0]⟩, ⟨16, 16, .ro, .live, [0]⟩]⟩,
  ⟨0x0300, [(0x10, 8)], [⟨15, 0, .rw, .live, [1200]⟩, ⟨31, 16, .rw, .live, [1600]⟩]⟩,
  ⟨0x0304, [(0x10, 8)], [⟨7, 0, .rw, .live, [48]⟩, ⟨10, 8, .rw, .live, [0]⟩, ⟨13, 11, .rw, .live, [3]⟩]⟩,
  ⟨0x0308, [(0x10, 8)], [⟨15, 0, .ro, .live, [0]⟩, ⟨16, 16, .ro, .live, [0]⟩]⟩,
  ⟨0x0800, [(0x80, 4), (0x4, 4)], [⟨15, 0, .rw, .locked, [0]⟩]⟩]

/-- The register rows of block FLT (0x04), as its table of the spec prints them, the records' words last (Table 13.12;
the records themselves stand in `Collector`). -/
def tabFLT : List RegDef := [
  ⟨0x0000, [], [⟨0, 0, .rw, .live, [1]⟩, ⟨6, 1, .rw, .live, [0]⟩, ⟨9, 7, .rw, .live, [1]⟩]⟩,
  ⟨0x0004, [], [⟨4, 0, .ro, .live, [0]⟩, ⟨26, 16, .ro, .live, [0]⟩]⟩,
  ⟨0x0008, [], [⟨31, 0, .ro, .live, [0]⟩]⟩,
  ⟨0x000C, [], [⟨9, 0, .wo, .live, [0]⟩, ⟨11, 10, .wo, .live, [0]⟩]⟩,
  ⟨0x0010, [], [⟨1, 0, .ro, .live, [0]⟩, ⟨11, 2, .ro, .live, [0]⟩, ⟨13, 12, .ro, .live, [0]⟩]⟩,
  ⟨0x0020, [], [⟨0, 0, .rw, .live, [0]⟩, ⟨1, 1, .ro, .live, [0]⟩, ⟨2, 2, .ro, .live, [0]⟩, ⟨21, 3, .rw, .locked, [50000]⟩]⟩,
  ⟨0x0024, [], [⟨15, 0, .rw, .live, [0]⟩, ⟨16, 16, .wo, .live, [0]⟩]⟩,
  ⟨0x0100, [(0x20, 3)], [⟨0, 0, .ro, .live, [0]⟩, ⟨3, 1, .ro, .live, [0]⟩, ⟨11, 4, .ro, .live, [0]⟩, ⟨12, 12, .ro, .live, [0]⟩, ⟨31, 22, .ro, .live, [0]⟩]⟩,
  ⟨0x0104, [(0x20, 3)], [⟨23, 0, .ro, .live, [0]⟩]⟩,
  ⟨0x0108, [(0x20, 3)], [⟨31, 0, .ro, .live, [0]⟩]⟩,
  ⟨0x010C, [(0x20, 3)], [⟨7, 0, .ro, .live, [0]⟩]⟩,
  ⟨0x0110, [(0x20, 3)], [⟨31, 0, .ro, .live, [0]⟩]⟩,
  ⟨0x0114, [(0x20, 3)], [⟨31, 0, .ro, .live, [0]⟩]⟩,
  ⟨0x0118, [(0x20, 3)], []⟩,
  ⟨0x011C, [(0x20, 3)], []⟩,
  ⟨0x8000, [(0x20, 1024)], [⟨0, 0, .ro, .live, [0]⟩, ⟨3, 1, .ro, .live, [0]⟩, ⟨11, 4, .ro, .live, [0]⟩, ⟨12, 12, .ro, .live, [0]⟩, ⟨31, 22, .ro, .live, [0]⟩]⟩,
  ⟨0x8004, [(0x20, 1024)], [⟨23, 0, .ro, .live, [0]⟩]⟩,
  ⟨0x8008, [(0x20, 1024)], [⟨31, 0, .ro, .live, [0]⟩]⟩,
  ⟨0x800C, [(0x20, 1024)], [⟨7, 0, .ro, .live, [0]⟩]⟩,
  ⟨0x8010, [(0x20, 1024)], [⟨31, 0, .ro, .live, [0]⟩]⟩,
  ⟨0x8014, [(0x20, 1024)], [⟨31, 0, .ro, .live, [0]⟩]⟩,
  ⟨0x8018, [(0x20, 1024)], []⟩,
  ⟨0x801C, [(0x20, 1024)], []⟩]

/-- The register rows of block ENV (0x05), as its table of the spec prints them. -/
def tabENV : List RegDef := [
  ⟨0x0000, [], [⟨0, 0, .ro, .live, [0]⟩, ⟨1, 1, .ro, .live, [0]⟩, ⟨3, 2, .ro, .live, [0]⟩, ⟨6, 4, .ro, .live, [0]⟩, ⟨9, 7, .ro, .live, [0]⟩, ⟨10, 10, .ro, .live, [0]⟩]⟩,
  ⟨0x0004, [], [⟨31, 0, .ro, .live, [0]⟩]⟩,
  ⟨0x0008, [], [⟨0, 0, .rc, .live, [0]⟩, ⟨1, 1, .rc, .live, [0]⟩, ⟨2, 2, .rc, .live, [0]⟩, ⟨3, 3, .rc, .live, [0]⟩, ⟨4, 4, .rc, .live, [0]⟩, ⟨5, 5, .rc, .live, [0]⟩, ⟨6, 6, .rc, .live, [0]⟩, ⟨7, 7, .rc, .live, [0]⟩, ⟨8, 8, .rc, .live, [0]⟩, ⟨9, 9, .rc, .live, [0]⟩]⟩,
  ⟨0x1000, [(0x4, 256)], [⟨31, 0, .ro, .live, [0]⟩]⟩]

/-- The register rows of block SNAP (0x06), as its table of the spec prints them. -/
def tabSNAP : List RegDef := [
  ⟨0x0000, [], [⟨0, 0, .rw, .live, [0]⟩, ⟨1, 1, .rw, .live, [0]⟩, ⟨7, 2, .rw, .locked, [0]⟩, ⟨11, 8, .rw, .locked, [4]⟩]⟩,
  ⟨0x0004, [], [⟨0, 0, .ro, .live, [0]⟩, ⟨15, 8, .rc, .live, [0]⟩, ⟨23, 16, .ro, .live, [0]⟩, ⟨31, 24, .rc, .live, [0]⟩]⟩,
  ⟨0x0008, [], [⟨31, 0, .ro, .live, [0]⟩]⟩,
  ⟨0x0010, [], [⟨31, 0, .rw, .locked, [0]⟩]⟩,
  ⟨0x0014, [], [⟨31, 0, .rw, .locked, [0]⟩]⟩,
  ⟨0x0018, [], [⟨31, 0, .ro, .live, [0]⟩]⟩]

/-- The register rows of block SLU (0x07), as its tables of the spec print them, the sheet records' words last (Table 1.1;
the records themselves stand in `Mach.sheets`). -/
def tabSLU : List RegDef := [
  ⟨0x0008, [], [⟨5, 0, .ro, .live, [0]⟩, ⟨11, 6, .ro, .live, [0]⟩, ⟨17, 12, .ro, .live, [0]⟩, ⟨23, 18, .ro, .live, [0]⟩]⟩,
  ⟨0x000C, [], [⟨5, 0, .rw, .live, [8]⟩, ⟨11, 6, .rw, .live, [4]⟩]⟩,
  ⟨0x0010, [], [⟨31, 0, .rw, .live, [100000]⟩]⟩,
  ⟨0x0014, [], [⟨31, 0, .rw, .locked, [100000]⟩]⟩,
  ⟨0x0018, [], [⟨15, 0, .rw, .live, [1000]⟩]⟩,
  ⟨0x001C, [], [⟨31, 0, .rw, .locked, [0]⟩]⟩,
  ⟨0x0020, [(0x4, 8)], [⟨31, 0, .rw, .locked, [0]⟩]⟩,
  ⟨0x0040, [(0x4, 5)], [⟨31, 0, .rw, .locked, [0]⟩]⟩,
  ⟨0x0060, [], [⟨23, 0, .wo, .live, [0]⟩]⟩,
  ⟨0x0064, [], [⟨3, 0, .wo, .live, [0]⟩, ⟨11, 4, .wo, .live, [0]⟩]⟩,
  ⟨0x0068, [], [⟨7, 0, .ro, .live, [0]⟩, ⟨15, 8, .ro, .live, [0]⟩, ⟨19, 16, .ro, .live, [0]⟩, ⟨27, 20, .ro, .live, [0]⟩]⟩,
  ⟨0x006C, [], [⟨23, 0, .ro, .live, [16777215]⟩]⟩,
  ⟨0x0000, [], [⟨0, 0, .rw, .live, [0]⟩, ⟨6, 1, .rw, .locked, [48]⟩, ⟨7, 7, .rw, .live, [1]⟩, ⟨10, 8, .rw, .locked, [0]⟩, ⟨11, 11, .rw, .live, [0]⟩, ⟨15, 12, .rw, .locked, [0]⟩]⟩,
  ⟨0x0004, [], [⟨2, 0, .rw, .live, [0]⟩, ⟨6, 3, .rw, .live, [0]⟩, ⟨10, 7, .rw, .live, [0]⟩, ⟨11, 11, .rw, .live, [0]⟩, ⟨12, 12, .rw, .live, [0]⟩, ⟨13, 13, .rw, .live, [0]⟩, ⟨16, 14, .ro, .live, [7]⟩, ⟨17, 17, .ro, .live, [0]⟩]⟩,
  ⟨0x0100, [(0x10, 16)], [⟨0, 0, .rw, .live, [0]⟩, ⟨6, 1, .rw, .live, [0]⟩, ⟨7, 7, .rw, .live, [0]⟩, ⟨8, 8, .rw, .live, [0]⟩, ⟨9, 9, .rw, .live, [0]⟩, ⟨10, 10, .rw, .live, [0]⟩, ⟨13, 11, .rw, .live, [3]⟩, ⟨14, 14, .rw, .live, [0]⟩, ⟨15, 15, .rw, .live, [0]⟩]⟩,
  ⟨0x0104, [(0x10, 16)], [⟨31, 0, .rw, .live, [0]⟩]⟩,
  ⟨0x0108, [(0x10, 16)], [⟨31, 0, .rw, .live, [0]⟩]⟩,
  ⟨0x010C, [(0x10, 16)], [⟨23, 0, .ro, .live, [0]⟩, ⟨24, 24, .ro, .live, [0]⟩]⟩,
  ⟨0x2000, [(0x40, 256)], [⟨23, 0, .ro, .live, [0]⟩, ⟨27, 24, .ro, .live, [0]⟩]⟩,
  ⟨0x2004, [(0x40, 256)], [⟨0, 0, .rw, .live, [0]⟩, ⟨1, 1, .ro, .live, [0]⟩, ⟨2, 2, .ro, .live, [0]⟩, ⟨3, 3, .rw, .live, [0]⟩, ⟨4, 4, .rw, .live, [0]⟩, ⟨9, 5, .rw, .live, [0]⟩, ⟨12, 10, .rw, .live, [0]⟩, ⟨25, 16, .rw, .live, [0]⟩]⟩,
  ⟨0x2008, [(0x40, 256)], [⟨15, 0, .rw, .live, [0]⟩, ⟨29, 16, .rw, .live, [0]⟩]⟩,
  ⟨0x200C, [(0x40, 256)], [⟨3, 0, .rw, .live, [0]⟩, ⟨7, 4, .rw, .live, [0]⟩, ⟨15, 8, .rw, .live, [0]⟩, ⟨31, 16, .rw, .live, [0]⟩]⟩,
  ⟨0x2010, [(0x40, 256)], [⟨31, 0, .rw, .live, [0]⟩]⟩,
  ⟨0x2014, [(0x40, 256)], [⟨31, 0, .rw, .live, [0]⟩]⟩,
  ⟨0x2018, [(0x40, 256)], [⟨31, 0, .rw, .live, [0]⟩]⟩,
  ⟨0x201C, [(0x40, 256)], [⟨23, 0, .rw, .live, [0]⟩]⟩,
  ⟨0x2020, [(0x40, 256)], [⟨31, 0, .ro, .live, [0]⟩]⟩,
  ⟨0x2024, [(0x40, 256)], [⟨15, 0, .ro, .live, [0]⟩, ⟨31, 16, .rw, .live, [0]⟩]⟩,
  ⟨0x2028, [(0x40, 256)], [⟨31, 0, .ro, .live, [0]⟩]⟩,
  ⟨0x202C, [(0x40, 256)], [⟨31, 0, .ro, .live, [0]⟩]⟩,
  ⟨0x2030, [(0x40, 256)], [⟨9, 0, .ro, .live, [0]⟩, ⟨17, 10, .ro, .live, [0]⟩, ⟨20, 18, .ro, .live, [0]⟩]⟩,
  ⟨0x2034, [(0x40, 256)], [⟨9, 0, .ro, .live, [1023]⟩, ⟨12, 10, .ro, .live, [7]⟩]⟩,
  ⟨0x2038, [(0x40, 256)], [⟨9, 0, .ro, .live, [0]⟩, ⟨19, 10, .ro, .live, [0]⟩, ⟨29, 20, .ro, .live, [0]⟩]⟩,
  ⟨0x203C, [(0x40, 256)], [⟨9, 0, .ro, .live, [0]⟩, ⟨19, 10, .ro, .live, [0]⟩]⟩]

/-- The register rows of block RING (0x08), as its table of the spec prints them. -/
def tabRING : List RegDef := [
  ⟨0x0000, [(0x20, 32)], [⟨0, 0, .rw, .live, [0]⟩, ⟨5, 1, .rw, .locked, [4]⟩, ⟨7, 6, .rw, .locked, [0]⟩, ⟨9, 8, .rw, .locked, [0]⟩, ⟨15, 10, .rw, .locked, [0]⟩, ⟨16, 16, .rw, .live, [0]⟩, ⟨17, 17, .rw, .live, [0]⟩, ⟨21, 18, .rw, .locked, [0]⟩, ⟨22, 22, .rw, .live, [0]⟩]⟩,
  ⟨0x0004, [(0x20, 32)], [⟨31, 0, .rw, .locked, [0]⟩]⟩,
  ⟨0x0008, [(0x20, 32)], [⟨7, 0, .rw, .locked, [0]⟩]⟩,
  ⟨0x000C, [(0x20, 32)], [⟨31, 0, .rw, .live, [0]⟩]⟩,
  ⟨0x0010, [(0x20, 32)], [⟨31, 0, .rw, .live, [0]⟩]⟩,
  ⟨0x0014, [(0x20, 32)], [⟨15, 0, .rw, .live, [1]⟩, ⟨31, 16, .rw, .live, [0]⟩]⟩,
  ⟨0x0018, [(0x20, 32)], [⟨16, 0, .ro, .live, [0]⟩, ⟨17, 17, .rc, .live, [0]⟩, ⟨18, 18, .ro, .live, [0]⟩]⟩]

/-- The register rows of block DMA (0x09), as its table of the spec prints them. -/
def tabDMA : List RegDef := [
  ⟨0x0000, [(0x100, 24)], [⟨0, 0, .rw, .live, [0]⟩, ⟨1, 1, .rw, .locked, [0]⟩, ⟨2, 2, .rw, .locked, [1]⟩, ⟨3, 3, .rw, .locked, [0]⟩, ⟨6, 4, .rw, .live, [0]⟩, ⟨12, 7, .rw, .live, [0]⟩, ⟨16, 13, .rw, .live, [0]⟩]⟩,
  ⟨0x0004, [(0x100, 24)], [⟨0, 0, .wo, .live, [0]⟩, ⟨1, 1, .wo, .live, [0]⟩, ⟨2, 2, .wo, .live, [0]⟩, ⟨3, 3, .wo, .live, [0]⟩]⟩,
  ⟨0x0008, [(0x100, 24)], [⟨2, 0, .ro, .live, [0]⟩, ⟨3, 3, .ro, .live, [0]⟩, ⟨6, 4, .ro, .live, [0]⟩, ⟨7, 7, .ro, .live, [0]⟩, ⟨15, 8, .ro, .live, [0]⟩]⟩,
  ⟨0x000C, [(0x100, 24)], [⟨15, 0, .rw, .live, [4096]⟩, ⟨31, 16, .rw, .live, [1000]⟩]⟩,
  ⟨0x0010, [(0x100, 24)], [⟨15, 0, .rw, .live, [0]⟩]⟩,
  ⟨0x0014, [(0x100, 24)], [⟨31, 0, .rw, .live, [0]⟩]⟩,
  ⟨0x0018, [(0x100, 24)], [⟨7, 0, .rw, .live, [0]⟩]⟩,
  ⟨0x001C, [(0x100, 24)], [⟨31, 0, .ro, .live, [0]⟩]⟩,
  ⟨0x0020, [(0x100, 24)], [⟨7, 0, .ro, .live, [0]⟩]⟩,
  ⟨0x0024, [(0x100, 24)], [⟨31, 0, .ro, .live, [0]⟩]⟩,
  ⟨0x0028, [(0x100, 24)], [⟨31, 0, .ro, .live, [0]⟩]⟩,
  ⟨0x0040, [(0x100, 24), (0x4, 16)], [⟨31, 0, .ro, .live, [0]⟩]⟩,
  ⟨0x0080, [(0x100, 24), (0x4, 16)], [⟨31, 0, .rw, .live, [0]⟩]⟩,
  ⟨0x3000, [], [⟨0, 0, .rw, .live, [0]⟩, ⟨5, 1, .rw, .locked, [18]⟩, ⟨10, 6, .rw, .locked, [2]⟩]⟩,
  ⟨0x3004, [], [⟨31, 0, .rw, .locked, [0]⟩]⟩,
  ⟨0x3008, [], [⟨31, 0, .rw, .locked, [0]⟩]⟩,
  ⟨0x300C, [], [⟨15, 0, .wo, .live, [0]⟩, ⟨16, 16, .wo, .live, [0]⟩]⟩,
  ⟨0x3010, [], [⟨26, 0, .wo, .live, [0]⟩]⟩,
  ⟨0x3014, [], [⟨0, 0, .wo, .live, [0]⟩]⟩,
  ⟨0x3018, [], [⟨0, 0, .ro, .live, [0]⟩]⟩,
  ⟨0x301C, [], [⟨15, 0, .ro, .live, [0]⟩, ⟨31, 16, .rc, .live, [0]⟩]⟩,
  ⟨0x2000, [], [⟨15, 0, .rw, .live, [1000]⟩]⟩,
  ⟨0xE000, [(0x10, 64)], [⟨31, 0, .rw, .live, [0]⟩]⟩,
  ⟨0xE004, [(0x10, 64)], [⟨31, 0, .rw, .live, [0]⟩]⟩,
  ⟨0xE008, [(0x10, 64)], [⟨31, 0, .rw, .live, [0]⟩]⟩,
  ⟨0xE00C, [(0x10, 64)], [⟨0, 0, .rw, .live, [1]⟩]⟩,
  ⟨0xF000, [(0x4, 2)], [⟨31, 0, .ro, .live, [0]⟩]⟩]

/-- The register rows of block DRC (0x0A), as its table of the spec prints them. -/
def tabDRC : List RegDef := [
  ⟨0x0000, [], [⟨0, 0, .rw, .live, [0]⟩, ⟨3, 1, .rw, .locked, [0]⟩, ⟨5, 4, .rw, .locked, [0]⟩, ⟨6, 6, .rw, .locked, [0]⟩, ⟨7, 7, .rw, .locked, [0]⟩]⟩,
  ⟨0x0004, [], [⟨9, 0, .rw, .live, [256]⟩, ⟨14, 10, .rw, .live, [16]⟩]⟩,
  ⟨0x0008, [], [⟨15, 0, .rw, .locked, [3904]⟩, ⟨17, 16, .ro, .live, [0]⟩]⟩,
  ⟨0x000C, [], [⟨3, 0, .ro, .live, [0]⟩, ⟨4, 4, .ro, .live, [0]⟩, ⟨15, 8, .rc, .live, [0]⟩]⟩,
  ⟨0x0010, [], [⟨7, 0, .rw, .live, [100]⟩, ⟨15, 8, .rw, .live, [20]⟩, ⟨31, 16, .rw, .live, [1000]⟩]⟩,
  ⟨0x0014, [], [⟨0, 0, .ro, .live, [0]⟩, ⟨1, 1, .ro, .live, [0]⟩, ⟨2, 2, .ro, .live, [0]⟩, ⟨15, 8, .rc, .live, [0]⟩, ⟨23, 16, .rc, .live, [0]⟩]⟩,
  ⟨0x0018, [], [⟨31, 0, .ro, .live, [0]⟩]⟩,
  ⟨0x001C, [], [⟨7, 0, .ro, .live, [0]⟩]⟩,
  ⟨0x0020, [], [⟨15, 0, .ro, .live, [0]⟩]⟩]

/-- The register rows of block PEAT (0x0B), as its table of the spec prints them. -/
def tabPEAT : List RegDef := [
  ⟨0x0000, [], [⟨0, 0, .rw, .live, [0]⟩, ⟨5, 1, .rw, .locked, [0]⟩, ⟨10, 6, .rw, .locked, [1]⟩, ⟨15, 11, .rw, .locked, [0]⟩, ⟨16, 16, .rw, .live, [0]⟩, ⟨17, 17, .rw, .live, [0]⟩, ⟨18, 18, .rw, .live, [0]⟩]⟩,
  ⟨0x0004, [], [⟨7, 0, .rw, .live, [64]⟩]⟩,
  ⟨0x0008, [], [⟨6, 0, .rw, .live, [8]⟩]⟩,
  ⟨0x000C, [], [⟨7, 0, .rc, .live, [0]⟩, ⟨15, 8, .rc, .live, [0]⟩, ⟨23, 16, .rc, .live, [0]⟩, ⟨31, 24, .rc, .live, [0]⟩]⟩,
  ⟨0x0010, [], [⟨7, 0, .rc, .live, [0]⟩, ⟨15, 8, .rc, .live, [0]⟩, ⟨19, 16, .ro, .live, [0]⟩, ⟨21, 20, .ro, .live, [0]⟩]⟩,
  ⟨0x0020, [], [⟨31, 0, .rw, .locked, [0]⟩]⟩,
  ⟨0x0024, [], [⟨7, 0, .rw, .locked, [4]⟩]⟩,
  ⟨0x0028, [], [⟨15, 0, .rw, .locked, [0]⟩]⟩,
  ⟨0x002C, [], [⟨23, 0, .ro, .live, [0]⟩]⟩,
  ⟨0x0030, [], [⟨23, 0, .rw, .live, [4096]⟩]⟩,
  ⟨0x0034, [], [⟨15, 0, .rw, .live, [10000]⟩]⟩,
  ⟨0x0038, [], [⟨23, 0, .wo, .live, [0]⟩, ⟨26, 24, .wo, .live, [0]⟩]⟩,
  ⟨0x003C, [], [⟨3, 0, .ro, .live, [0]⟩, ⟨4, 4, .ro, .live, [0]⟩, ⟨5, 5, .ro, .live, [0]⟩, ⟨6, 6, .ro, .live, [0]⟩, ⟨31, 8, .ro, .live, [0]⟩]⟩,
  ⟨0x0100, [(0x10, 5)], [⟨7, 0, .ro, .live, [0]⟩, ⟨17, 8, .ro, .live, [0]⟩, ⟨18, 18, .ro, .live, [0]⟩, ⟨19, 19, .ro, .live, [0]⟩]⟩,
  ⟨0x0104, [(0x10, 5)], [⟨23, 0, .ro, .live, [0]⟩]⟩]

/-- The register rows of block CRC (0x0C), as its table of the spec prints them. -/
def tabCRC : List RegDef := [
  ⟨0x0000, [(0x4, 3)], [⟨15, 0, .rc, .live, [0]⟩]⟩,
  ⟨0x0010, [], [⟨31, 0, .rw, .live, [0]⟩]⟩,
  ⟨0x0014, [], [⟨7, 0, .rw, .live, [0]⟩]⟩,
  ⟨0x0018, [], [⟨31, 0, .rw, .live, [0]⟩]⟩,
  ⟨0x001C, [], [⟨0, 0, .wo, .live, [0]⟩, ⟨1, 1, .ro, .live, [0]⟩, ⟨2, 2, .ro, .live, [0]⟩]⟩,
  ⟨0x0020, [], [⟨31, 0, .ro, .live, [0]⟩]⟩]

/-- The register rows of block COX (0x0D), as its table of the spec prints them. -/
def tabCOX : List RegDef := [
  ⟨0x0000, [(0x1000, 9)], [⟨0, 0, .rw, .live, [0, 0, 0, 0, 0, 0, 0, 0, 1]⟩, ⟨3, 1, .rw, .live, [2]⟩, ⟨4, 4, .rw, .live, [0]⟩]⟩,
  ⟨0x0004, [(0x1000, 9)], [⟨3, 0, .wo, .live, [0]⟩, ⟨7, 4, .wo, .live, [0]⟩, ⟨11, 8, .wo, .live, [0]⟩, ⟨15, 12, .wo, .live, [0]⟩, ⟨16, 16, .wo, .live, [0]⟩, ⟨17, 17, .wo, .live, [0]⟩]⟩,
  ⟨0x0008, [(0x1000, 9)], [⟨3, 0, .wo, .live, [0]⟩, ⟨7, 4, .wo, .live, [0]⟩]⟩,
  ⟨0x000C, [(0x1000, 9)], [⟨5, 0, .ro, .live, [32]⟩]⟩,
  ⟨0x0100, [(0x1000, 9), (0x20, 4)], [⟨17, 2, .rw, .live, [0]⟩, ⟨19, 18, .rw, .live, [0, 1, 2, 3]⟩]⟩,
  ⟨0x0104, [(0x1000, 9), (0x20, 4)], [⟨2, 0, .ro, .live, [0]⟩, ⟨4, 3, .ro, .live, [0, 1, 2, 3]⟩, ⟨10, 5, .ro, .live, [0]⟩, ⟨11, 11, .ro, .live, [0]⟩, ⟨19, 12, .ro, .live, [0]⟩]⟩,
  ⟨0x0108, [(0x1000, 9), (0x20, 4)], [⟨31, 0, .ro, .live, [0]⟩]⟩,
  ⟨0x010C, [(0x1000, 9), (0x20, 4)], [⟨31, 0, .ro, .live, [0]⟩]⟩,
  ⟨0x0110, [(0x1000, 9), (0x20, 4)], [⟨7, 0, .ro, .live, [0]⟩]⟩,
  ⟨0x0114, [(0x1000, 9), (0x20, 4)], [⟨31, 0, .ro, .live, [0]⟩]⟩,
  ⟨0x0118, [(0x1000, 9), (0x20, 4)], [⟨3, 0, .ro, .live, [0]⟩, ⟨11, 4, .ro, .live, [0]⟩, ⟨17, 12, .ro, .live, [0]⟩]⟩,
  ⟨0x0200, [(0x1000, 9), (0x10, 16)], [⟨27, 0, .rw, .locked, [0]⟩]⟩,
  ⟨0x0204, [(0x1000, 9), (0x10, 16)], [⟨27, 0, .rw, .locked, [0]⟩]⟩,
  ⟨0x0208, [(0x1000, 9), (0x10, 16)], [⟨0, 0, .rw, .locked, [0]⟩, ⟨1, 1, .rw, .locked, [0]⟩, ⟨2, 2, .rw, .locked, [0]⟩, ⟨3, 3, .rw, .locked, [0]⟩, ⟨7, 4, .rw, .locked, [0]⟩]⟩,
  ⟨0x0300, [(0x1000, 9), (0x4, 24)], [⟨9, 0, .rw, .live, [0]⟩]⟩,
  ⟨0x0400, [(0x1000, 9), (0x10, 32)], [⟨0, 0, .ro, .live, [0]⟩, ⟨2, 1, .ro, .live, [0]⟩, ⟨5, 3, .ro, .live, [0]⟩, ⟨6, 6, .ro, .live, [0]⟩, ⟨8, 7, .ro, .live, [0]⟩, ⟨11, 9, .ro, .live, [0]⟩, ⟨12, 12, .ro, .live, [0]⟩]⟩,
  ⟨0x0404, [(0x1000, 9), (0x10, 32)], [⟨31, 0, .ro, .live, [0]⟩]⟩,
  ⟨0x0408, [(0x1000, 9), (0x10, 32)], [⟨31, 0, .ro, .live, [0]⟩]⟩,
  ⟨0x040C, [(0x1000, 9), (0x10, 32)], [⟨31, 0, .ro, .live, [0]⟩]⟩,
  ⟨0x0800, [(0x1000, 9)], [⟨0, 0, .rw, .live, [0]⟩, ⟨1, 1, .rw, .live, [0]⟩]⟩]

/-- The register rows of block SCL (0x0E), as its table of the spec prints them. -/
def tabSCL : List RegDef := [
  ⟨0x0000, [], [⟨0, 0, .rw, .live, [0]⟩, ⟨1, 1, .rw, .live, [0]⟩]⟩,
  ⟨0x0004, [], [⟨0, 0, .ro, .live, [0]⟩, ⟨14, 8, .ro, .live, [0]⟩, ⟨15, 15, .ro, .live, [0]⟩]⟩,
  ⟨0x0008, [], [⟨15, 0, .ro, .live, [0]⟩, ⟨31, 16, .rc, .live, [0]⟩]⟩,
  ⟨0x000C, [], [⟨15, 0, .rc, .live, [0]⟩, ⟨31, 16, .rc, .live, [0]⟩]⟩,
  ⟨0x0010, [], [⟨0, 0, .rw, .live, [0]⟩]⟩,
  ⟨0x0100, [(0x4, 12)], [⟨6, 0, .rw, .locked, [0, 8, 16, 24, 32, 40, 48, 56, 64, 72, 80, 88]⟩]⟩,
  ⟨0x0400, [(0x40, 96)], [⟨0, 0, .rw, .live, [0]⟩, ⟨1, 1, .rw, .sample, [1]⟩, ⟨3, 2, .rw, .locked, [0]⟩, ⟨4, 4, .rw, .live, [0]⟩, ⟨7, 5, .rw, .live, [0]⟩, ⟨10, 8, .rw, .live, [2]⟩, ⟨11, 11, .rw, .live, [1]⟩, ⟨12, 12, .rw, .sample, [0]⟩, ⟨13, 13, .rw, .live, [0]⟩, ⟨27, 16, .rw, .locked, [0]⟩]⟩,
  ⟨0x0404, [(0x40, 96)], [⟨2, 0, .rw, .locked, [0]⟩, ⟨5, 3, .rw, .locked, [0]⟩, ⟨15, 6, .rw, .locked, [0]⟩]⟩,
  ⟨0x0408, [(0x40, 96)], [⟨31, 0, .rw, .locked, [5000]⟩]⟩,
  ⟨0x040C, [(0x40, 96)], [⟨31, 0, .rw, .locked, [0]⟩]⟩,
  ⟨0x0410, [(0x40, 96)], [⟨11, 0, .rw, .locked, [64]⟩, ⟨20, 12, .rw, .locked, [0]⟩, ⟨24, 21, .rw, .locked, [0]⟩, ⟨27, 25, .rw, .locked, [0]⟩]⟩,
  ⟨0x0414, [(0x40, 96)], [⟨15, 0, .rw, .sample, [0]⟩, ⟨23, 16, .rw, .sample, [8]⟩, ⟨31, 24, .rw, .sample, [16]⟩]⟩,
  ⟨0x0418, [(0x40, 96)], [⟨12, 0, .rw, .sample, [0]⟩]⟩,
  ⟨0x041C, [(0x40, 96)], [⟨0, 0, .ro, .live, [0]⟩, ⟨1, 1, .ro, .live, [0]⟩, ⟨2, 2, .ro, .live, [0]⟩, ⟨3, 3, .ro, .live, [0]⟩, ⟨4, 4, .ro, .live, [0]⟩, ⟨5, 5, .ro, .live, [0]⟩, ⟨6, 6, .ro, .live, [0]⟩, ⟨7, 7, .ro, .live, [0]⟩, ⟨31, 16, .ro, .live, [0]⟩]⟩,
  ⟨0x0420, [(0x40, 96)], [⟨15, 0, .rc, .live, [0]⟩, ⟨31, 16, .rc, .live, [0]⟩]⟩,
  ⟨0x0424, [(0x40, 96)], [⟨13, 0, .rw, .locked, [0]⟩, ⟨28, 14, .rw, .locked, [0]⟩]⟩,
  ⟨0x0428, [(0x40, 96)], [⟨7, 0, .rw, .sample, [0]⟩, ⟨17, 8, .rw, .locked, [0]⟩, ⟨25, 18, .rw, .live, [0]⟩]⟩,
  ⟨0x042C, [(0x40, 96)], [⟨15, 0, .rw, .sample, [0]⟩, ⟨31, 16, .rw, .sample, [32767]⟩]⟩,
  ⟨0x0430, [(0x40, 96)], [⟨13, 0, .ro, .live, [0]⟩, ⟨23, 16, .rc, .live, [0]⟩, ⟨31, 24, .rc, .live, [0]⟩]⟩,
  ⟨0x0434, [(0x40, 96)], [⟨31, 0, .ro, .live, [0]⟩]⟩,
  ⟨0x1C00, [(0x8, 512)], [⟨23, 0, .rw, .locked, [0]⟩]⟩,
  ⟨0x1C04, [(0x8, 512)], [⟨5, 0, .rw, .locked, [0]⟩, ⟨6, 6, .rw, .locked, [0]⟩, ⟨11, 7, .rw, .locked, [0]⟩, ⟨16, 12, .rw, .locked, [0]⟩, ⟨17, 17, .rw, .locked, [0]⟩, ⟨21, 18, .rw, .locked, [0]⟩]⟩,
  ⟨0x2C00, [(0x80, 12), (0x4, 32)], [⟨31, 0, .rw, .live, [0]⟩]⟩,
  ⟨0x3200, [(0x80, 12), (0x4, 32)], [⟨31, 0, .rw, .sample, [0]⟩]⟩,
  ⟨0x4000, [(0x4, 4096)], [⟨31, 0, .rw, .live, [0]⟩]⟩,
  ⟨0x8000, [(0x4, 4096)], [⟨31, 0, .rw, .locked, [0]⟩]⟩,
  ⟨0xC000, [(0x4, 4096)], [⟨31, 0, .rw, .live, [0]⟩]⟩]

/-- The register rows of block VID (0x10), as its table of the spec prints them. -/
def tabVID : List RegDef := [
  ⟨0x0000, [], [⟨0, 0, .rw, .live, [0]⟩, ⟨1, 1, .rw, .locked, [0]⟩, ⟨5, 2, .rw, .locked, [8]⟩, ⟨10, 6, .rw, .locked, [0]⟩, ⟨11, 11, .rw, .locked, [1]⟩, ⟨12, 12, .rw, .live, [0]⟩, ⟨13, 13, .rw, .locked, [0]⟩, ⟨14, 14, .rw, .gap, [0]⟩, ⟨15, 15, .rw, .live, [1]⟩, ⟨17, 16, .rw, .live, [0]⟩]⟩,
  ⟨0x0004, [], [⟨11, 0, .rw, .gap, [0]⟩]⟩,
  ⟨0x0008, [], [⟨13, 0, .rw, .locked, [15648]⟩]⟩,
  ⟨0x000C, [], [⟨7, 0, .ro, .live, [0]⟩, ⟨23, 8, .ro, .live, [0]⟩, ⟨24, 24, .ro, .live, [0]⟩]⟩,
  ⟨0x0010, [], [⟨15, 0, .rw, .stroke, [0]⟩]⟩,
  ⟨0x0014, [], [⟨3, 0, .rw, .gap, [0]⟩, ⟨7, 4, .rw, .gap, [1]⟩, ⟨11, 8, .rw, .gap, [2]⟩, ⟨15, 12, .rw, .gap, [3]⟩, ⟨19, 16, .rw, .gap, [4]⟩, ⟨23, 20, .rw, .gap, [5]⟩, ⟨27, 24, .rw, .gap, [6]⟩, ⟨31, 28, .rw, .gap, [7]⟩]⟩,
  ⟨0x0018, [], [⟨0, 0, .ro, .live, [0]⟩, ⟨1, 1, .ro, .live, [0]⟩, ⟨2, 2, .ro, .live, [0]⟩, ⟨15, 8, .rc, .live, [0]⟩]⟩,
  ⟨0x001C, [], [⟨15, 0, .ro, .live, [0]⟩, ⟨16, 16, .ro, .live, [0]⟩]⟩,
  ⟨0x0020, [], [⟨15, 0, .ro, .live, [0]⟩]⟩,
  ⟨0x0024, [], [⟨15, 0, .rw, .live, [1280]⟩, ⟨31, 16, .rw, .live, [1440]⟩]⟩,
  ⟨0x0028, [], [⟨7, 0, .rc, .live, [0]⟩, ⟨15, 8, .rc, .live, [0]⟩, ⟨23, 16, .rc, .live, [0]⟩]⟩,
  ⟨0x0030, [], [⟨3, 0, .rw, .locked, [0]⟩, ⟨6, 4, .rw, .live, [1]⟩, ⟨14, 7, .rw, .locked, [64]⟩, ⟨30, 15, .rw, .locked, [400]⟩]⟩,
  ⟨0x0040, [(0x4, 32)], [⟨13, 0, .rw, .gap, [0]⟩]⟩,
  ⟨0x00C0, [(0x4, 16)], [⟨5, 0, .rw, .gap, [0]⟩, ⟨12, 6, .rw, .gap, [0]⟩]⟩,
  ⟨0x0100, [(0x4, 16)], [⟨9, 0, .rw, .stroke, [0]⟩]⟩,
  ⟨0x0140, [(0x8, 16)], [⟨31, 0, .rw, .gap, [2857740885]⟩]⟩,
  ⟨0x0144, [(0x8, 16)], [⟨31, 0, .rw, .gap, [2857740885]⟩]⟩,
  ⟨0x01C0, [(0x4, 12)], [⟨15, 0, .rw, .locked, [0]⟩]⟩,
  ⟨0x0200, [(0x4, 12)], [⟨15, 0, .ro, .live, [0]⟩]⟩,
  ⟨0x8000, [(0x4, 4096)], [⟨31, 2, .rw, .stroke, [0]⟩]⟩,
  ⟨0x0300, [], [⟨7, 0, .rw, .live, [16]⟩, ⟨15, 8, .rw, .live, [64]⟩, ⟨31, 31, .ro, .live, [0]⟩]⟩,
  ⟨0x0304, [], [⟨23, 0, .ro, .live, [0]⟩]⟩]

/-- The register rows of block BMAP (0x15), as its table of the spec prints them. -/
def tabBMAP : List RegDef := [
  ⟨0x0000, [(0x4, 4096)], [⟨31, 2, .rw, .stroke, [0]⟩]⟩,
  ⟨0x4000, [], [⟨2, 0, .rw, .live, [0]⟩]⟩,
  ⟨0x4004, [], [⟨12, 0, .ro, .live, [0]⟩, ⟨13, 13, .ro, .live, [0]⟩, ⟨14, 14, .ro, .live, [0]⟩]⟩]

/-- The register rows of block FBK (0x18), as its table of the spec prints them. -/
def tabFBK : List RegDef := [
  ⟨0x0100, [(0x40, 12)], [⟨0, 0, .rw, .live, [0]⟩, ⟨1, 1, .rw, .live, [1]⟩, ⟨2, 2, .rw, .locked, [0]⟩, ⟨3, 3, .rw, .locked, [0]⟩, ⟨4, 4, .rw, .locked, [0]⟩, ⟨5, 5, .rw, .live, [0]⟩, ⟨15, 6, .rw, .locked, [2]⟩, ⟨18, 16, .rw, .locked, [0]⟩, ⟨21, 19, .rw, .live, [1]⟩, ⟨24, 22, .rw, .live, [0]⟩]⟩,
  ⟨0x0104, [(0x40, 12)], [⟨7, 0, .rw, .live, [16]⟩, ⟨14, 8, .rw, .locked, [5]⟩, ⟨24, 15, .rw, .live, [100]⟩]⟩,
  ⟨0x0108, [(0x40, 12)], [⟨15, 0, .rw, .live, [4000]⟩, ⟨31, 16, .rw, .live, [4800]⟩]⟩,
  ⟨0x010C, [(0x40, 12)], [⟨23, 0, .rw, .locked, [0]⟩, ⟨27, 24, .rw, .locked, [0]⟩]⟩,
  ⟨0x0110, [(0x40, 12)], [⟨31, 0, .rw, .live, [2147483648]⟩]⟩,
  ⟨0x0114, [(0x40, 12)], [⟨31, 0, .rw, .live, [2147483647]⟩]⟩,
  ⟨0x0118, [(0x40, 12)], [⟨31, 0, .ro, .live, [0]⟩]⟩,
  ⟨0x011C, [(0x40, 12)], [⟨31, 0, .ro, .live, [0]⟩]⟩,
  ⟨0x0120, [(0x40, 12)], [⟨31, 0, .ro, .live, [0]⟩]⟩,
  ⟨0x0124, [(0x40, 12)], [⟨0, 0, .ro, .live, [0]⟩, ⟨1, 1, .ro, .live, [0]⟩, ⟨2, 2, .ro, .live, [1]⟩, ⟨3, 3, .ro, .live, [0]⟩, ⟨4, 4, .ro, .live, [0]⟩, ⟨5, 5, .ro, .live, [0]⟩, ⟨15, 8, .rc, .live, [0]⟩, ⟨23, 16, .rc, .live, [0]⟩]⟩,
  ⟨0x0128, [(0x40, 12)], [⟨31, 0, .ro, .live, [0]⟩]⟩,
  ⟨0x012C, [(0x40, 12)], [⟨31, 0, .ro, .live, [0]⟩]⟩,
  ⟨0x0400, [(0x20, 4)], [⟨0, 0, .rw, .live, [0]⟩, ⟨5, 1, .rw, .locked, [24]⟩, ⟨6, 6, .rw, .locked, [0]⟩, ⟨7, 7, .rw, .locked, [0]⟩, ⟨8, 8, .rw, .locked, [0]⟩, ⟨17, 9, .rw, .locked, [49]⟩, ⟨20, 18, .rw, .live, [2]⟩]⟩,
  ⟨0x0404, [(0x20, 4)], [⟨7, 0, .rw, .locked, [20]⟩]⟩,
  ⟨0x0408, [(0x20, 4)], [⟨31, 0, .ro, .live, [0]⟩]⟩,
  ⟨0x040C, [(0x20, 4)], [⟨31, 0, .ro, .live, [0]⟩]⟩,
  ⟨0x0410, [(0x20, 4)], [⟨7, 0, .rc, .live, [0]⟩, ⟨8, 8, .ro, .live, [0]⟩]⟩]

/-- The register rows of block MOT (0x19), as its table of the spec prints them. -/
def tabMOT : List RegDef := [
  ⟨0x0000, [], [⟨0, 0, .rw, .live, [0]⟩, ⟨14, 1, .rw, .locked, [5000]⟩]⟩,
  ⟨0x0100, [(0x80, 20)], [⟨0, 0, .rw, .live, [0]⟩, ⟨6, 1, .rw, .locked, [0]⟩, ⟨12, 7, .rw, .locked, [0]⟩, ⟨18, 13, .rw, .locked, [0]⟩, ⟨19, 19, .rw, .locked, [0]⟩, ⟨22, 20, .rw, .live, [2]⟩, ⟨25, 23, .rw, .live, [2]⟩, ⟨29, 26, .rw, .locked, [15]⟩]⟩,
  ⟨0x0104, [(0x80, 20)], [⟨2, 0, .rw, .segment, [0]⟩, ⟨3, 3, .rw, .segment, [0]⟩, ⟨4, 4, .wo, .live, [0]⟩]⟩,
  ⟨0x0108, [(0x80, 20)], [⟨31, 0, .rw, .segment, [0]⟩]⟩,
  ⟨0x010C, [(0x80, 20)], [⟨31, 0, .rw, .live, [0]⟩]⟩,
  ⟨0x0110, [(0x80, 20)], [⟨31, 0, .rw, .live, [0]⟩]⟩,
  ⟨0x0114, [(0x80, 20)], [⟨31, 0, .rw, .live, [0]⟩]⟩,
  ⟨0x0118, [(0x80, 20)], [⟨31, 0, .rw, .live, [0]⟩]⟩,
  ⟨0x011C, [(0x80, 20)], [⟨31, 0, .rw, .live, [0]⟩]⟩,
  ⟨0x0120, [(0x80, 20)], [⟨31, 0, .rw, .live, [0]⟩]⟩,
  ⟨0x0124, [(0x80, 20)], [⟨31, 0, .ro, .live, [0]⟩]⟩,
  ⟨0x0128, [(0x80, 20)], [⟨15, 0, .ro, .live, [0]⟩]⟩,
  ⟨0x012C, [(0x80, 20)], [⟨31, 0, .ro, .live, [0]⟩]⟩,
  ⟨0x0130, [(0x80, 20)], [⟨2, 0, .ro, .live, [0]⟩, ⟨3, 3, .ro, .live, [0]⟩, ⟨4, 4, .ro, .live, [0]⟩, ⟨5, 5, .ro, .live, [0]⟩, ⟨6, 6, .ro, .live, [0]⟩, ⟨7, 7, .ro, .live, [0]⟩, ⟨8, 8, .ro, .live, [0]⟩, ⟨9, 9, .ro, .live, [0]⟩]⟩,
  ⟨0x0134, [(0x80, 20)], [⟨2, 0, .rw, .locked, [0]⟩, ⟨3, 3, .rw, .locked, [0]⟩, ⟨19, 4, .rw, .locked, [0]⟩]⟩,
  ⟨0x0138, [(0x80, 20)], [⟨15, 0, .rw, .locked, [0]⟩]⟩,
  ⟨0x013C, [(0x80, 20)], [⟨31, 0, .rw, .live, [0]⟩]⟩,
  ⟨0x0140, [(0x80, 20)], [⟨3, 0, .rw, .locked, [4]⟩, ⟨19, 4, .rw, .locked, [0]⟩]⟩,
  ⟨0x0144, [(0x80, 20)], [⟨15, 0, .rw, .locked, [0]⟩]⟩]

/-- The register rows of block POLY (0x1A), as its table of the spec prints them. -/
def tabPOLY : List RegDef := [
  ⟨0x0100, [(0x80, 5)], [⟨0, 0, .rw, .live, [0]⟩, ⟨1, 1, .rw, .locked, [0]⟩, ⟨2, 2, .rw, .locked, [0]⟩, ⟨3, 3, .rw, .locked, [1]⟩, ⟨7, 4, .rw, .locked, [2]⟩, ⟨10, 8, .rw, .live, [2]⟩]⟩,
  ⟨0x0104, [(0x80, 5)], [⟨16, 0, .rw, .locked, [20000]⟩, ⟨28, 17, .rw, .locked, [400]⟩]⟩,
  ⟨0x0108, [(0x80, 5)], [⟨11, 0, .rw, .locked, [960]⟩, ⟨23, 12, .rw, .locked, [200]⟩]⟩,
  ⟨0x010C, [(0x80, 5)], [⟨19, 0, .rw, .live, [0]⟩]⟩,
  ⟨0x0110, [(0x80, 5)], [⟨15, 0, .rw, .live, [0]⟩, ⟨31, 16, .rw, .live, [0]⟩]⟩,
  ⟨0x0114, [(0x80, 5)], [⟨15, 0, .rw, .live, [0]⟩, ⟨31, 16, .rw, .live, [0]⟩]⟩,
  ⟨0x0118, [(0x80, 5)], [⟨15, 0, .rw, .live, [0]⟩, ⟨31, 16, .rw, .locked, [256]⟩]⟩,
  ⟨0x011C, [(0x80, 5)], [⟨7, 0, .rw, .locked, [200]⟩, ⟨15, 8, .rw, .locked, [40]⟩, ⟨31, 16, .rw, .locked, [3000]⟩]⟩,
  ⟨0x0120, [(0x80, 5)], [⟨15, 0, .rw, .locked, [2000]⟩, ⟨19, 16, .rw, .locked, [6]⟩]⟩,
  ⟨0x0124, [(0x80, 5)], [⟨15, 0, .rw, .live, [500]⟩, ⟨19, 16, .rw, .locked, [3]⟩]⟩,
  ⟨0x0128, [(0x80, 5)], [⟨15, 0, .rw, .locked, [0]⟩, ⟨23, 16, .rw, .locked, [15]⟩]⟩,
  ⟨0x012C, [(0x80, 5)], [⟨15, 0, .rw, .locked, [0]⟩]⟩,
  ⟨0x0130, [(0x80, 5)], [⟨15, 0, .rw, .live, [4000]⟩]⟩,
  ⟨0x0134, [(0x80, 5), (0x4, 4)], [⟨7, 0, .rw, .live, [0]⟩, ⟨15, 8, .rw, .live, [0]⟩, ⟨23, 16, .rw, .live, [0]⟩, ⟨31, 24, .rw, .live, [0]⟩]⟩,
  ⟨0x0144, [(0x80, 5)], [⟨2, 0, .ro, .live, [0]⟩, ⟨5, 3, .ro, .live, [0]⟩, ⟨6, 6, .ro, .live, [0]⟩, ⟨7, 7, .ro, .live, [0]⟩, ⟨8, 8, .ro, .live, [0]⟩, ⟨9, 9, .ro, .live, [0]⟩]⟩,
  ⟨0x0148, [(0x80, 5)], [⟨19, 0, .ro, .live, [0]⟩]⟩,
  ⟨0x014C, [(0x80, 5)], [⟨15, 0, .ro, .live, [0]⟩, ⟨31, 16, .ro, .live, [0]⟩]⟩,
  ⟨0x0150, [(0x80, 5)], [⟨15, 0, .ro, .live, [0]⟩]⟩,
  ⟨0x0154, [(0x80, 5)], [⟨23, 0, .ro, .live, [0]⟩]⟩,
  ⟨0x0158, [(0x80, 5)], [⟨7, 0, .rc, .live, [0]⟩, ⟨15, 8, .rc, .live, [0]⟩]⟩]

/-- The register rows of block SRV (0x1B), as its table of the spec prints them. -/
def tabSRV : List RegDef := [
  ⟨0x0000, [], [⟨0, 0, .rw, .live, [0]⟩, ⟨10, 1, .rw, .live, [560]⟩, ⟨20, 11, .rw, .live, [540]⟩]⟩,
  ⟨0x0004, [], [⟨7, 0, .rw, .locked, [10]⟩, ⟨15, 8, .rw, .locked, [20]⟩, ⟨31, 16, .rw, .locked, [256]⟩]⟩,
  ⟨0x0008, [], [⟨0, 0, .ro, .live, [0]⟩, ⟨1, 1, .ro, .live, [0]⟩, ⟨2, 2, .ro, .live, [0]⟩, ⟨31, 16, .ro, .live, [0]⟩]⟩,
  ⟨0x0100, [(0x40, 8)], [⟨0, 0, .rw, .live, [0]⟩, ⟨3, 1, .rw, .locked, [1]⟩, ⟨4, 4, .rw, .locked, [0]⟩, ⟨31, 16, .rw, .locked, [256]⟩]⟩,
  ⟨0x0104, [(0x40, 8)], [⟨16, 0, .rw, .locked, [40000]⟩, ⟨28, 17, .rw, .locked, [400]⟩]⟩,
  ⟨0x0108, [(0x40, 8)], [⟨11, 0, .rw, .locked, [960]⟩, ⟨27, 12, .rw, .live, [65535]⟩]⟩,
  ⟨0x010C, [(0x40, 8)], [⟨31, 0, .rw, .live, [0]⟩]⟩,
  ⟨0x0110, [(0x40, 8)], [⟨15, 0, .rw, .live, [0]⟩, ⟨31, 16, .rw, .live, [0]⟩]⟩,
  ⟨0x0114, [(0x40, 8)], [⟨15, 0, .rw, .live, [0]⟩, ⟨31, 16, .rw, .live, [0]⟩]⟩,
  ⟨0x0118, [(0x40, 8)], [⟨0, 0, .ro, .live, [0]⟩, ⟨1, 1, .ro, .live, [0]⟩, ⟨2, 2, .ro, .live, [0]⟩, ⟨3, 3, .ro, .live, [0]⟩]⟩,
  ⟨0x011C, [(0x40, 8)], [⟨15, 0, .ro, .live, [0]⟩, ⟨31, 16, .ro, .live, [0]⟩]⟩,
  ⟨0x0120, [(0x40, 8)], [⟨15, 0, .ro, .live, [0]⟩, ⟨31, 16, .ro, .live, [0]⟩]⟩]

/-- The register rows of block STP (0x1C), as its table of the spec prints them. -/
def tabSTP : List RegDef := [
  ⟨0x0100, [(0x40, 12)], [⟨0, 0, .rw, .live, [0]⟩, ⟨31, 16, .rw, .locked, [256]⟩]⟩,
  ⟨0x0104, [(0x40, 12)], [⟨15, 0, .rw, .live, [0]⟩, ⟨31, 16, .rw, .live, [0]⟩]⟩,
  ⟨0x0108, [(0x40, 12)], [⟨15, 0, .rw, .live, [500]⟩]⟩,
  ⟨0x010C, [(0x40, 12)], [⟨16, 0, .rw, .locked, [20000]⟩]⟩,
  ⟨0x0110, [(0x40, 12)], [⟨7, 0, .rw, .locked, [40]⟩, ⟨15, 8, .rw, .live, [64]⟩, ⟨23, 16, .rw, .locked, [50]⟩]⟩,
  ⟨0x0114, [(0x40, 12)], [⟨15, 0, .rw, .live, [0]⟩, ⟨31, 16, .rw, .live, [0]⟩]⟩,
  ⟨0x0118, [(0x40, 12)], [⟨0, 0, .ro, .live, [0]⟩, ⟨1, 1, .ro, .live, [0]⟩, ⟨2, 2, .ro, .live, [0]⟩, ⟨3, 3, .ro, .live, [0]⟩, ⟨4, 4, .ro, .live, [0]⟩]⟩,
  ⟨0x011C, [(0x40, 12)], [⟨15, 0, .ro, .live, [0]⟩, ⟨31, 16, .ro, .live, [0]⟩]⟩]

/-- The register rows of block HV (0x1D), as its table of the spec prints them. -/
def tabHV : List RegDef := [
  ⟨0x0000, [], [⟨0, 0, .rw, .live, [0]⟩, ⟨1, 1, .rw, .live, [0]⟩, ⟨2, 2, .ro, .live, [0]⟩, ⟨18, 4, .rw, .locked, [16000]⟩]⟩,
  ⟨0x0100, [(0x10, 24)], [⟨0, 0, .rw, .live, [0]⟩, ⟨1, 1, .rw, .locked, [0]⟩]⟩,
  ⟨0x0104, [(0x10, 24)], [⟨15, 0, .rw, .live, [0]⟩]⟩,
  ⟨0x0108, [(0x10, 24)], [⟨15, 0, .ro, .live, [0]⟩, ⟨16, 16, .ro, .live, [0]⟩, ⟨17, 17, .ro, .live, [0]⟩]⟩]

/-- The register rows of block FUS (0x1E), as its table of the spec prints them. -/
def tabFUS : List RegDef := [
  ⟨0x0000, [], [⟨0, 0, .rw, .live, [0]⟩, ⟨1, 1, .rw, .locked, [0]⟩, ⟨2, 2, .rw, .locked, [0]⟩, ⟨13, 3, .rw, .locked, [0]⟩, ⟨21, 14, .rw, .locked, [100]⟩]⟩,
  ⟨0x0004, [], [⟨16, 0, .rw, .locked, [40000]⟩]⟩,
  ⟨0x0008, [], [⟨0, 0, .ro, .live, [0]⟩, ⟨14, 1, .ro, .live, [0]⟩, ⟨18, 15, .ro, .live, [0]⟩, ⟨19, 19, .ro, .live, [0]⟩]⟩,
  ⟨0x0010, [(0x4, 4)], [⟨15, 0, .rw, .live, [0]⟩, ⟨18, 16, .rw, .locked, [0, 2, 4, 6]⟩]⟩,
  ⟨0x0020, [(0x4, 4)], [⟨15, 0, .ro, .live, [0]⟩, ⟨16, 16, .ro, .live, [0]⟩]⟩,
  ⟨0x0040, [(0x4, 8)], [⟨15, 0, .ro, .live, [0]⟩, ⟨16, 16, .ro, .live, [0]⟩]⟩]

/-- The register rows of block SNS (0x1F), as its table of the spec prints them. -/
def tabSNS : List RegDef := [
  ⟨0x0000, [], [⟨0, 0, .rw, .live, [0]⟩]⟩,
  ⟨0x0100, [(0x8, 48)], [⟨15, 0, .rw, .locked, [2000]⟩, ⟨16, 16, .rw, .locked, [0]⟩, ⟨20, 17, .rw, .locked, [8]⟩, ⟨28, 21, .rw, .locked, [50]⟩]⟩,
  ⟨0x0104, [(0x8, 48)], [⟨0, 0, .ro, .live, [0]⟩, ⟨1, 1, .ro, .live, [0]⟩, ⟨2, 2, .ro, .live, [0]⟩]⟩]

/-- The register rows of block FJL (0x20), as its table of the spec prints them. -/
def tabFJL : List RegDef := [
  ⟨0x0000, [], [⟨0, 0, .rw, .live, [0]⟩, ⟨1, 1, .rw, .locked, [0]⟩, ⟨2, 2, .rw, .locked, [0]⟩, ⟨10, 3, .rw, .locked, [8]⟩]⟩,
  ⟨0x0004, [], [⟨13, 0, .rw, .locked, [0]⟩]⟩,
  ⟨0x0008, [], [⟨0, 0, .ro, .live, [0]⟩, ⟨1, 1, .ro, .live, [0]⟩, ⟨3, 2, .ro, .live, [0]⟩, ⟨6, 4, .ro, .live, [0]⟩, ⟨29, 16, .ro, .live, [0]⟩]⟩,
  ⟨0x000C, [], [⟨31, 0, .ro, .live, [0]⟩]⟩,
  ⟨0x0010, [], [⟨31, 0, .ro, .live, [0]⟩]⟩,
  ⟨0x0014, [], [⟨31, 0, .ro, .live, [0]⟩]⟩,
  ⟨0x0018, [], [⟨7, 0, .rw, .live, [20]⟩, ⟨23, 8, .rw, .live, [50]⟩]⟩,
  ⟨0x0020, [], [⟨1, 0, .rw, .locked, [0]⟩, ⟨3, 2, .rw, .locked, [0]⟩, ⟨11, 4, .rw, .locked, [0]⟩, ⟨14, 12, .rw, .locked, [0]⟩]⟩,
  ⟨0x0024, [(0x4, 8)], [⟨13, 0, .rw, .locked, [0]⟩]⟩,
  ⟨0x0044, [], [⟨31, 0, .rw, .locked, [200000]⟩]⟩,
  ⟨0x0048, [], [⟨31, 0, .rw, .locked, [0]⟩]⟩,
  ⟨0x004C, [], [⟨31, 0, .rw, .locked, [0]⟩]⟩,
  ⟨0x0050, [], [⟨0, 0, .rw, .locked, [0]⟩, ⟨11, 1, .rw, .locked, [0]⟩]⟩,
  ⟨0x0060, [], [⟨23, 0, .wo, .live, [0]⟩]⟩,
  ⟨0x0064, [(0x4, 2)], [⟨31, 0, .wo, .live, [0]⟩]⟩,
  ⟨0x006C, [], [⟨0, 0, .wo, .live, [0]⟩]⟩,
  ⟨0x0070, [], [⟨3, 0, .ro, .live, [0]⟩]⟩,
  ⟨0x0078, [(0x4, 2)], [⟨31, 0, .ro, .live, [0]⟩]⟩,
  ⟨0x0080, [], [⟨15, 0, .ro, .live, [0]⟩]⟩,
  ⟨0x0084, [], [⟨7, 0, .rc, .live, [0]⟩, ⟨15, 8, .rc, .live, [0]⟩, ⟨23, 16, .rc, .live, [0]⟩]⟩,
  ⟨0x0400, [(0x10, 64)], [⟨23, 0, .ro, .live, [0]⟩, ⟨24, 24, .ro, .live, [0]⟩]⟩,
  ⟨0x0404, [(0x10, 64)], [⟨31, 0, .ro, .live, [0]⟩]⟩,
  ⟨0x0408, [(0x10, 64)], [⟨31, 0, .ro, .live, [0]⟩]⟩]

/-- The register rows of block SEC (0x21), as its table of the spec prints them. -/
def tabSEC : List RegDef := [
  ⟨0x0000, [], [⟨31, 0, .ro, .live, [0]⟩]⟩,
  ⟨0x0004, [], [⟨31, 0, .ro, .live, [0]⟩]⟩,
  ⟨0x0008, [], [⟨6, 0, .ro, .live, [0]⟩, ⟨7, 7, .ro, .live, [0]⟩, ⟨8, 8, .ro, .live, [0]⟩, ⟨11, 9, .ro, .live, [0]⟩, ⟨15, 12, .ro, .live, [0]⟩]⟩,
  ⟨0x000C, [], [⟨3, 0, .wo, .live, [0]⟩, ⟨7, 4, .wo, .live, [0]⟩]⟩,
  ⟨0x0010, [], [⟨2, 0, .ro, .live, [0]⟩, ⟨3, 3, .ro, .live, [0]⟩]⟩,
  ⟨0x1000, [(0x20, 13), (0x4, 8)], [⟨31, 0, .ro, .live, [0]⟩]⟩,
  ⟨0x2000, [(0x4, 1024)], [⟨31, 0, .rw, .live, [0]⟩]⟩,
  ⟨0x4000, [(0x4, 512)], [⟨31, 0, .ro, .live, [0]⟩]⟩,
  ⟨0x4800, [(0x4, 512)], [⟨31, 0, .ro, .live, [0]⟩]⟩]

/-- The register rows of block PCIE (0x22), as its table of the spec prints them. -/
def tabPCIE : List RegDef := [
  ⟨0x0000, [], [⟨0, 0, .rw, .live, [0]⟩, ⟨1, 1, .rw, .locked, [0]⟩, ⟨3, 2, .rw, .locked, [3]⟩]⟩,
  ⟨0x0004, [], [⟨11, 0, .rw, .live, [64]⟩]⟩,
  ⟨0x0008, [], [⟨0, 0, .ro, .live, [0]⟩, ⟨2, 1, .ro, .live, [0]⟩, ⟨5, 3, .ro, .live, [0]⟩, ⟨6, 6, .ro, .live, [0]⟩, ⟨23, 16, .rc, .live, [0]⟩]⟩]

/-- The register rows of block PIN (0x23), as its table of the spec prints them. -/
def tabPIN : List RegDef := [
  ⟨0x0000, [], [⟨15, 0, .ro, .live, [0]⟩]⟩,
  ⟨0x0004, [], [⟨15, 0, .ro, .live, [0]⟩]⟩,
  ⟨0x0100, [(0x4, 16)], [⟨1, 0, .rw, .live, [0]⟩, ⟨2, 2, .rw, .live, [1]⟩, ⟨3, 3, .rw, .live, [0]⟩, ⟨5, 4, .rw, .live, [1]⟩]⟩]

/-- The register rows of block ADC (0x24), as its table of the spec prints them. -/
def tabADC : List RegDef := [
  ⟨0x0000, [], [⟨0, 0, .rw, .live, [0]⟩]⟩,
  ⟨0x0100, [(0x4, 64)], [⟨11, 0, .ro, .live, [0]⟩, ⟨12, 12, .ro, .live, [0]⟩]⟩,
  ⟨0x0400, [], [⟨0, 0, .rw, .live, [0]⟩, ⟨1, 1, .wo, .live, [0]⟩, ⟨2, 2, .wo, .live, [0]⟩, ⟨8, 3, .rw, .locked, [32]⟩, ⟨12, 9, .rw, .locked, [4]⟩]⟩,
  ⟨0x0404, [], [⟨31, 0, .rw, .live, [0]⟩]⟩,
  ⟨0x0408, [], [⟨15, 0, .rw, .live, [0]⟩]⟩,
  ⟨0x040C, [], [⟨31, 0, .rw, .locked, [0]⟩]⟩,
  ⟨0x0410, [(0x4, 4)], [⟨13, 0, .rw, .locked, [0]⟩]⟩,
  ⟨0x0420, [(0x4, 5)], [⟨11, 0, .rw, .locked, [2048]⟩, ⟨19, 12, .rw, .locked, [64]⟩, ⟨20, 20, .rw, .locked, [0]⟩, ⟨24, 21, .rw, .locked, [15]⟩, ⟨25, 25, .rw, .locked, [0]⟩]⟩,
  ⟨0x0440, [], [⟨0, 0, .ro, .live, [0]⟩, ⟨1, 1, .ro, .live, [0]⟩, ⟨2, 2, .ro, .live, [0]⟩, ⟨3, 3, .ro, .live, [0]⟩, ⟨8, 4, .ro, .live, [0]⟩, ⟨13, 9, .ro, .live, [0]⟩, ⟨23, 16, .ro, .live, [0]⟩]⟩,
  ⟨0x0500, [(0x20, 5), (0x8, 4)], [⟨31, 0, .ro, .live, [0]⟩]⟩,
  ⟨0x0504, [(0x20, 5), (0x8, 4)], [⟨31, 0, .ro, .live, [0]⟩]⟩,
  ⟨0x0600, [(0x4, 5)], [⟨15, 0, .rw, .live, [0]⟩, ⟨31, 16, .rw, .live, [0]⟩]⟩]

/-- The rows of a register block (Table 3.6); an unlisted block has none (R83). -/
def blockRows (b : Nat) : List RegDef :=
  match b with
  | 0x00 => tabSYS
  | 0x01 => tabCLK
  | 0x02 => tabPWR
  | 0x03 => tabTHM
  | 0x04 => tabFLT
  | 0x05 => tabENV
  | 0x06 => tabSNAP
  | 0x07 => tabSLU
  | 0x08 => tabRING
  | 0x09 => tabDMA
  | 0x0A => tabDRC
  | 0x0B => tabPEAT
  | 0x0C => tabCRC
  | 0x0D => tabCOX
  | 0x0E => tabSCL
  | 0x15 => tabBMAP
  | 0x18 => tabFBK
  | 0x19 => tabMOT
  | 0x1A => tabPOLY
  | 0x1B => tabSRV
  | 0x1C => tabSTP
  | 0x1D => tabHV
  | 0x1E => tabFUS
  | 0x1F => tabSNS
  | 0x20 => tabFJL
  | 0x21 => tabSEC
  | 0x22 => tabPCIE
  | 0x23 => tabPIN
  | 0x24 => tabADC
  | 0x10 => tabVID
  | 0x11 => tabVID
  | 0x12 => tabVID
  | 0x13 => tabVID
  | 0x14 => tabVID
  | _ => []

end Sys2Proof.Machine
end

