-- ==== Sys2Proof/Machine/Ops.lean ====
section
/-! DEFINITION. The named operations every meaning is built from: tables, bit fields, the register file, memory,
the timebases, event lines and messages. -/

namespace Sys2Proof.Machine

/-! ## Tables -/

/-- Read of a table: the value at index k, or the default. -/
def tget {α : Type} (d : α) (k : Nat) : Tab α → α
  | [] => d
  | (i, a) :: t => if i = k then a else tget d k t

/-- Write of a table, indices kept strictly rising. -/
def tput {α : Type} (k : Nat) (v : α) : Tab α → Tab α
  | [] => [(k, v)]
  | (i, a) :: t => if k < i then (k, v) :: (i, a) :: t else if k = i then (k, v) :: t else (i, a) :: tput k v t

/-- Removal of an index. -/
def tdel {α : Type} (k : Nat) : Tab α → Tab α
  | [] => []
  | (i, a) :: t => if k = i then t else (i, a) :: tdel k t

/-- Is the index listed? -/
def thas {α : Type} (k : Nat) (t : Tab α) : Bool := t.any fun p => p.1 == k

/-- Element i of a list with every other element kept. -/
def setAt {α : Type} (l : List α) (i : Nat) (v : α) : List α := l.set i v

/-! ## Bit fields and number forms -/

/-- Bits [hi:lo] of a word. -/
def bitsOf (w : Word) (hi lo : Nat) : Nat := w.toNat / 2 ^ lo % 2 ^ (hi + 1 - lo)

/-- A word with bits [hi:lo] replaced by v, taken modulo the field's width. -/
def withBits (w : Word) (hi lo v : Nat) : Word :=
  BitVec.ofNat 32 (w.toNat / 2 ^ (hi + 1) * 2 ^ (hi + 1) + v % 2 ^ (hi + 1 - lo) * 2 ^ lo + w.toNat % 2 ^ lo)

/-- The two's complement value of the low `bits` bits of n. -/
def sint (bits n : Nat) : Int :=
  let u := n % 2 ^ bits
  if u < 2 ^ (bits - 1) then (u : Int) else (u : Int) - 2 ^ bits

/-- The two's complement form of an integer in `bits` bits. -/
def uint (bits : Nat) (i : Int) : Nat := (i % 2 ^ bits).toNat

/-- An integer limited to lo..hi. -/
def clampI (lo hi i : Int) : Int := if i < lo then lo else if hi < i then hi else i

/-- A natural number limited to lo..hi. -/
def clampN (lo hi n : Nat) : Nat := if n < lo then lo else if hi < n then hi else n

/-- Ceiling of a quotient. -/
def ceilDiv (a b : Nat) : Nat := (a + (b - 1)) / b

/-- Bit i of a number. -/
def bitOf (n i : Nat) : Bool := n / 2 ^ i % 2 == 1

/-- A number with bit i set. -/
def setBit (n i : Nat) : Nat := if bitOf n i then n else n + 2 ^ i

/-- A number with bit i cleared. -/
def clrBit (n i : Nat) : Nat := if bitOf n i then n - 2 ^ i else n

/-- 1 for true, 0 for false. -/
def b2n (b : Bool) : Nat := if b then 1 else 0

/-- Sheet identifier a is later than b (R9). -/
def sidLater (a b : Sid) : Bool := let d := (a - b).toNat; 1 ≤ d && d ≤ 0x7FFFFF

/-! ## The register file -/

/-- The unit indices of an offset within a row, outermost first; none when the offset is not of the row. -/
def idxOf : List (Nat × Nat) → Nat → Option (List Nat)
  | [], d => if d = 0 then some [] else none
  | (st, n) :: ds, d =>
    if d / st < n then
      match idxOf ds (d % st) with
      | some is => some (d / st :: is)
      | none => none
    else none

/-- The row that covers an offset, with its unit indices. -/
def rowIn : List RegDef → Nat → Option (RegDef × List Nat)
  | [], _ => none
  | d :: ds, off =>
    if off < d.off then rowIn ds off
    else match idxOf d.dims (off - d.off) with
      | some is => some (d, is)
      | none => rowIn ds off

/-- The register row at a BAR0 offset. -/
def rowAt (key : Nat) : Option (RegDef × List Nat) := rowIn (blockRows (key / 65536)) (key % 65536)

/-- A field's reset value for a unit. -/
def Fld.reset (f : Fld) (is : List Nat) : Nat :=
  match f.rst with
  | [v] => v
  | l => l.getD (is.getLastD 0) 0

/-- A register's reset word. -/
def rstWord (key : Nat) : Word :=
  match rowAt key with
  | none => 0
  | some (d, is) => d.flds.foldl (fun w f => withBits w f.hi f.lo (f.reset is)) 0

/-- The word listed for a register, if it has been written since reset. -/
def tfind {α : Type} (k : Nat) : Tab α → Option α
  | [] => none
  | (i, a) :: t => if i = k then some a else tfind k t

/-- The effective word of a register. -/
def Mach.word (m : Mach) (key : Nat) : Word :=
  match tfind key m.regs with
  | some w => w
  | none => rstWord key

/-- Replaces the effective word of a register. -/
def Mach.setWord (m : Mach) (key : Nat) (w : Word) : Mach := { m with regs := tput key w m.regs }

/-- The effective value of a field. -/
def Mach.get (m : Mach) (f : FRef) : Nat := bitsOf (m.word f.key) f.hi f.lo

/-- A one-bit field as a truth value. -/
def Mach.on (m : Mach) (f : FRef) : Bool := m.get f == 1

/-- The effective value of a signed field. -/
def Mach.getI (m : Mach) (f : FRef) : Int := sint (f.hi + 1 - f.lo) (m.get f)

/-- Sets a field at once. -/
def Mach.set (m : Mach) (f : FRef) (v : Nat) : Mach := m.setWord f.key (withBits (m.word f.key) f.hi f.lo v)

/-- Sets a signed field at once. -/
def Mach.setI (m : Mach) (f : FRef) (v : Int) : Mach := m.set f (uint (f.hi + 1 - f.lo) v)

/-- Adds to a counter that saturates at its field's greatest value. -/
def Mach.incSat (m : Mach) (f : FRef) (n : Nat := 1) : Mach :=
  m.set f (min (m.get f + n) (2 ^ (f.hi + 1 - f.lo) - 1))

/-- Adds to a counter that wraps at its field's width. -/
def Mach.incWrap (m : Mach) (f : FRef) (n : Nat := 1) : Mach := m.set f (m.get f + n)

/-- A field of a word that is being written. -/
def FRef.of (f : FRef) (w : Word) : Nat := bitsOf w f.hi f.lo

/-! ## Requesters -/

/-- The number of a requester: core * 4 + context, the host 36, DMA channel c 37 + c, the Scull engine 61. -/
def Requester.id : Requester → Nat
  | .ctx c k => c * 4 + k
  | .host => 36
  | .dma c => 37 + c
  | .scull => 61

/-- Key of a requester's own copy of a register. -/
def reqKey (q : Nat) (off : Nat) : Nat := q * 0x1000000 + off

/-- A requester's own copy of a register (SLU_OPRES, CLRRES, ...). -/
def Mach.own (m : Mach) (q off : Nat) : Word := tget (rstWord off) (reqKey q off) m.perReq

/-- Replaces a requester's own copy of a register. -/
def Mach.setOwn (m : Mach) (q off : Nat) (w : Word) : Mach := { m with perReq := tput (reqKey q off) w m.perReq }

/-! ## Timebases -/

/-- TICK as a number. -/
def Mach.now (m : Mach) : Nat := m.clk.tick.toNat

/-- PPC as a number. -/
def Mach.ppcNow (m : Mach) : Nat := m.clk.ppc.toNat

/-- PPC has reached a target (R120). -/
def ppcReached (ppc target : Nat) : Bool := (ppc + 2 ^ 48 - target % 2 ^ 48) % 2 ^ 48 < 2 ^ 47

/-- A 32-bit count has reached a target (R120). -/
def cntReached (v target : Nat) : Bool := (v + 2 ^ 32 - target % 2 ^ 32) % 2 ^ 32 < 2 ^ 31

/-- Signed distance from PPC value b to PPC value a, within half the range. -/
def ppcDiff (a b : Nat) : Int := sint 48 ((a + 2 ^ 48 - b % 2 ^ 48) % 2 ^ 48)

/-- TICK counts of a number of milliseconds. -/
def msTicks (n : Nat) : Nat := n * 100000

/-- TICK counts of a number of microseconds. -/
def usTicks (n : Nat) : Nat := n * 100

/-- Is there a multiple of per, plus phase, later than a and not later than b? -/
def multipleIn (per phase a b : Nat) : Bool :=
  (a + per - phase % per) / per < (b + per - phase % per) / per

/-! ## Free values -/

/-- The next free word, and the machine that has used it. -/
def Mach.free (m : Mach) : Word × Mach := (Config.freeWord m.fresh, { m with fresh := m.fresh + 1 })

/-- A quotient whose rounding the spec leaves open: exact where it divides, else its floor or the next integer by a
free value (log entry 3). -/
def Mach.roundFree (m : Mach) (n : Int) (d : Nat) : Int × Mach :=
  if n % d = 0 then (n / d, m) else (n / d + (m.free.1.toNat % 2 : Nat), m.free.2)

/-! ## Messages and event lines -/

/-- Sends something out of the block. -/
def Mach.send (m : Mach) (x : Sent) : Mach := { m with sent := m.sent ++ [x] }

/-- Raises an MSI-X vector: sent at once, or recorded as pending while the vector is masked (R333). -/
def Mach.msix (m : Mach) (vec : Nat) : Mach :=
  let v := vec % 64
  if m.on (R.DMA_MSIXT_MASK v) then
    m.setWord (R.DMA_MSIXP_PBA (v / 32)).key (m.word (R.DMA_MSIXP_PBA (v / 32)).key ||| BitVec.ofNat 32 (2 ^ (v % 32)))
  else m.send (.msix v)

/-- A context (core * 4 + k). -/
def Mach.ctx (m : Mach) (i : Nat) : Ctx := tget { prio := i % 4 } i m.cox.ctxs

/-- Replaces a context. -/
def Mach.setCtx (m : Mach) (i : Nat) (c : Ctx) : Mach := { m with cox := { m.cox with ctxs := tput i c m.cox.ctxs } }

/-- Sets event-pending bits of a context (R94). -/
def Mach.evSet (m : Mach) (i : Nat) (bits : Word) : Mach :=
  let c := m.ctx i
  m.setCtx i { c with evpend := c.evpend ||| bits }

/-- Sets one event-pending bit of every context of a core. -/
def evSetCore (bit : Nat) (core : Nat) (m : Mach) : Mach :=
  (List.range 4).foldl (fun m k => m.evSet (core * 4 + k) (BitVec.ofNat 32 (2 ^ bit))) m

/-- The EVSEL registers written since reset that select an event line: pairs of core and index (R94). -/
def evselHits (regs : Tab Word) (code : Nat) : List (Nat × Nat) :=
  regs.filterMap fun (k, w) =>
    let o := k % 0x1000
    if k / 65536 = 0x0D ∧ 0x300 ≤ o ∧ o < 0x360 ∧ bitsOf w 9 0 = code then some (k % 65536 / 0x1000, (o - 0x300) / 4)
    else none

/-- The slots whose word at an offset of their group satisfies p. -/
def slotHits (regs : Tab Word) (off : Nat) (p : Word → Bool) : List Nat :=
  regs.filterMap fun (k, w) =>
    let o := k % 65536
    if k / 65536 = 0x0E ∧ 0x400 + off ≤ o ∧ o < 0x400 + off + 0x40 * 96 ∧ (o - 0x400 - off) % 0x40 = 0 ∧ p w then
      some ((o - 0x400 - off) / 0x40)
    else none

/-- Marks Scull slots as triggered. -/
def markTrig (ns : List Nat) (m : Mach) : Mach :=
  { m with scl := { m.scl with trigDue := m.scl.trigDue ++ ns.filter fun n => m.on (R.SCL_SLOT_CTL_EN n) } }

/-- Asserts an event line (block * 16 + line): sets the pending bit of every context whose core selects it (R94),
and marks the Scull slots it triggers (R194) or synchronises (R214). Code 0 selects nothing. -/
def assertEvent (code : Nat) (m : Mach) : Mach :=
  if code = 0 then m else
  let m := (evselHits m.regs code).foldl (fun m cj => evSetCore (8 + cj.2) cj.1 m) m
  let m := markTrig (slotHits m.regs 0x04 fun w => bitsOf w 2 0 == 4 && bitsOf w 15 6 == code) m
  let sy := (slotHits m.regs 0x28 fun w => bitsOf w 17 8 == code).filter fun n => m.on (R.SCL_SLOT_CTL_EN n)
  { m with scl := { m.scl with syncDue := m.scl.syncDue ++ sy } }

/-! ## Memory -/

/-- Read of one cell, with the value an unlisted address reads as. -/
def cellGet (d : Nat → Byte) (a : Nat) (l : List Host.Cell) : Byte := tget (d a) a l

/-- Write of one cell, keeping the canonical form. -/
def cellPut (d : Nat → Byte) (a : Nat) (b : Byte) (l : List Host.Cell) : List Host.Cell :=
  if b = d a then tdel a l else tput a b l

/-- The canonical form: addresses strictly rising, none listed at its default. -/
def cellsWf (d : Nat → Byte) : List Host.Cell → Bool
  | [] => true
  | [(a, b)] => b != d a
  | (a, b) :: (a', b') :: t => a < a' && b != d a && cellsWf d ((a', b') :: t)

/-- The three memories are in canonical form. -/
def Memory.wf (m : Mem) : Bool :=
  cellsWf Config.ramFill m.ram && cellsWf Config.hostFill m.host && cellsWf Config.flashFill m.flash

/-- One byte of the internal map's storage. -/
def Mem.rd (m : Mem) (a : Nat) : Byte := cellGet Config.ramFill a m.ram
/-- One byte of host memory. -/
def Mem.hostRd (m : Mem) (a : Nat) : Byte := cellGet Config.hostFill a m.host
/-- One byte of the boot flash. -/
def Mem.flashRd (m : Mem) (a : Nat) : Byte := cellGet Config.flashFill a m.flash
/-- Writes one byte of the internal map's storage. -/
def Mem.wr (m : Mem) (a : Nat) (b : Byte) : Mem := { m with ram := cellPut Config.ramFill a b m.ram }
/-- Writes one byte of host memory. -/
def Mem.hostWr (m : Mem) (a : Nat) (b : Byte) : Mem := { m with host := cellPut Config.hostFill a b m.host }
/-- Writes one byte of the boot flash. -/
def Mem.flashWr (m : Mem) (a : Nat) (b : Byte) : Mem := { m with flash := cellPut Config.flashFill a b m.flash }

/-- n bytes of the internal map's storage from an address. -/
def Mem.rdBytes (m : Mem) (a n : Nat) : List Byte := (List.range n).map fun i => m.rd (a + i)
/-- n bytes of host memory. -/
def Mem.hostBytes (m : Mem) (a n : Nat) : List Byte := (List.range n).map fun i => m.hostRd (a + i)
/-- n bytes of flash. -/
def Mem.flashBytes (m : Mem) (a n : Nat) : List Byte := (List.range n).map fun i => m.flashRd (a + i)

/-- Writes bytes from an address up. -/
def Mem.wrBytes (m : Mem) (a : Nat) : List Byte → Mem
  | [] => m
  | b :: bs => Mem.wrBytes (m.wr a b) (a + 1) bs
/-- Writes bytes of host memory from an address up. -/
def Mem.hostWrBytes (m : Mem) (a : Nat) : List Byte → Mem
  | [] => m
  | b :: bs => Mem.hostWrBytes (m.hostWr a b) (a + 1) bs
/-- Writes bytes of flash from an address up. -/
def Mem.flashWrBytes (m : Mem) (a : Nat) : List Byte → Mem
  | [] => m
  | b :: bs => Mem.flashWrBytes (m.flashWr a b) (a + 1) bs

/-- The number a little-endian byte list spells. -/
def leNat : List Byte → Nat
  | [] => 0
  | b :: bs => b.toNat + 256 * leNat bs

/-- n little-endian bytes of a number. -/
def leBytes : Nat → Nat → List Byte
  | 0, _ => []
  | n + 1, v => BitVec.ofNat 8 v :: leBytes n (v / 256)

/-- A word of the internal map's storage. -/
def Mem.rdWord (m : Mem) (a : Nat) : Word := BitVec.ofNat 32 (leNat (m.rdBytes a 4))
/-- Writes a word of the internal map's storage. -/
def Mem.wrWord (m : Mem) (a : Nat) (w : Word) : Mem := m.wrBytes a (leBytes 4 w.toNat)

/-- Empties a range of cells: every address of it reads as its default again. -/
def cellsClear (lo hi : Nat) (l : List Host.Cell) : List Host.Cell := l.filter fun c => c.1 < lo || hi ≤ c.1

/-! ## Running a list of effects -/

/-- Applies an effect for each element of a list, in order. -/
def each {α : Type} (l : List α) (f : α → Mach → Mach) (m : Mach) : Mach := l.foldl (fun m a => f a m) m

/-- Applies an effect when a condition holds. -/
def when (c : Bool) (f : Mach → Mach) (m : Mach) : Mach := if c then f m else m

/-! ## Outcomes of a meaning -/

/-- A command that acts on everything but the memories. -/
def State.onMach (s : State) (f : Mach → Mach) : State := { s with mach := f s.mach }

/-- A command on a unit. Of a unit that the part lacks no ball is connected (R3), so nothing reaches the machine and
nothing changes (DEDUCED, log entry 7). -/
def onUnit (ok : Bool) (f : Mach → Mach) (s : State) : Host.Outcome State Fault Refusal :=
  .next (if ok then s.onMach f else s)

/-- The same for a command that may also act on the memories. -/
def onUnitM (ok : Bool) (f : Mach → Mem → Mach × Mem) (s : State) : Host.Outcome State Fault Refusal :=
  .next (if ok then { s with mach := (f s.mach s.mem).1, mem := (f s.mach s.mem).2 } else s)

/-- The same for a command that reads the memories and writes none of them. -/
def onUnitR (ok : Bool) (f : Mem → Mach → Mach) (s : State) : Host.Outcome State Fault Refusal :=
  onUnit ok (f s.mem) s

end Sys2Proof.Machine
end

