-- ==== Sys2Proof/Machine/Inflate.lean ====
section
/-! DEFINITION. DEFLATE decoding (RFC 1951, within the limits of R139). -/

namespace Sys2Proof.Machine

/-- A decoder at work on a stream: the bits still to read, the bytes written in this run, latest first, the context, and
the headers met in this run, latest first: where each stood, how much had been written, and whether its block is stored. -/
structure Inflate where
  bits : List Bool
  out : List Byte := []
  st : Stream := {}
  heads : List (Nat × Nat × Bool) := []
  deriving DecidableEq, Repr

/-- Bits of a byte, least significant first. -/
def byteBits (b : Byte) : List Bool := (List.range 8).map fun i => b.getLsbD i

/-- Takes n bits as a number, least significant first; none at the end of the payload. -/
def Inflate.take (z : Inflate) (n : Nat) : Option (Nat × Inflate) :=
  if z.bits.length < n then none
  else some ((z.bits.take n).foldr (fun b a => b2n b + 2 * a) 0, { z with bits := z.bits.drop n, st := { z.st with pos := z.st.pos + n } })

/-- The canonical code of a list of code lengths. -/
def huffOf (lens : List Nat) : Huff :=
  { counts := (List.range 16).map fun l => (lens.filter (· == l)).length
    syms := ((List.range 15).map (· + 1)).flatMap fun l => (List.range lens.length).filter fun i => lens.getD i 0 == l }

/-- Codes left over at length 15, in units of that length: 0 when the code is complete, negative when over-subscribed. -/
def Huff.left (h : Huff) : Int :=
  ((List.range 15).foldl (fun (a : Int × Bool) l =>
    let v := 2 * a.1 - (h.counts.getD (l + 1) 0 : Int)
    if a.2 then a else if v < 0 then (-1, true) else (v, false)) (1, false)).1

/-- The number of symbols that have a code. -/
def Huff.used (h : Huff) : Nat := h.syms.length

/-- Decodes one symbol; `code`, `first` and `index` run as the lengths grow. -/
def Huff.step (h : Huff) (z : Inflate) : Nat → Nat → Int → Int → Nat → Option (Nat × Inflate)
  | 0, _, _, _, _ => none
  | fuel + 1, l, code, first, index =>
    match z.take 1 with
    | none => none
    | some (b, z) =>
      let code := code + b
      let n := h.counts.getD l 0
      if code - n < first then some (h.syms.getD (index + (code - first).toNat) 0, z)
      else h.step z fuel (l + 1) (2 * code) (2 * (first + n)) (index + n)

/-- Decodes one symbol. -/
def Huff.decode (h : Huff) (z : Inflate) : Option (Nat × Inflate) := h.step z 15 1 0 0 0

/-- Base length and extra bits of length code 257 + i. -/
def lenBase : List Nat :=
  [3, 4, 5, 6, 7, 8, 9, 10, 11, 13, 15, 17, 19, 23, 27, 31, 35, 43, 51, 59, 67, 83, 99, 115, 131, 163, 195, 227, 258]
def lenExtra : List Nat := [0, 0, 0, 0, 0, 0, 0, 0, 1, 1, 1, 1, 2, 2, 2, 2, 3, 3, 3, 3, 4, 4, 4, 4, 5, 5, 5, 5, 0]

/-- Base distance and extra bits of distance code i. -/
def distBase (i : Nat) : Nat := if i < 4 then i + 1 else 2 ^ (i / 2) + 1 + i % 2 * 2 ^ (i / 2 - 1)
def distExtra (i : Nat) : Nat := if i < 4 then 0 else i / 2 - 1

/-- The fixed codes. -/
def fixedLit : Huff :=
  huffOf (List.replicate 144 8 ++ List.replicate 112 9 ++ List.replicate 24 7 ++ List.replicate 8 8)
def fixedDist : Huff := huffOf (List.replicate 32 5)

/-- Reads code lengths, in reverse, until `want` are there. -/
def readLens (h : Huff) (want : Nat) : Nat → List Nat → Inflate → Option (List Nat × Inflate)
  | 0, _, _ => none
  | fuel + 1, acc, z =>
    if want < acc.length then none
    else if acc.length = want then some (acc.reverse, z)
    else match h.decode z with
      | none => none
      | some (s, z) =>
        if s < 16 then readLens h want fuel (s :: acc) z
        else
          let rep (v bits base : Nat) : Option (List Nat × Inflate) :=
            match z.take bits with
            | none => none
            | some (n, z) => readLens h want fuel (List.replicate (base + n) v ++ acc) z
          match s, acc with
          | 16, [] => none
          | 16, v :: _ => rep v 2 3
          | 17, _ => rep 0 3 3
          | _, _ => rep 0 7 11

/-- Order in which the lengths of the code-length code stand. -/
def clOrder : List Nat := [16, 17, 18, 0, 8, 7, 9, 6, 10, 5, 11, 4, 12, 3, 13, 2, 14, 1, 15]

/-- Reads n three-bit lengths. -/
def readCl : Nat → Inflate → Option (List Nat × Inflate)
  | 0, z => some ([], z)
  | n + 1, z =>
    match z.take 3 with
    | none => none
    | some (v, z) => match readCl n z with
      | none => none
      | some (l, z) => some (v :: l, z)

/-- The incomplete distance codes that R139 allows: no code at all, or a single one of one bit. -/
def distAllowed (h : Huff) : Bool := h.used == 0 || (h.used == 1 && h.counts.getD 1 0 == 1)

/-- The codes of a dynamic block; none when they break R139. HLIT 30 and 31, which announce 287 and 288 literal/length
codes, are accepted (DESIGN CHOICE, log entry 45: R139 does not list them among the errors). -/
def dynCodes (z : Inflate) : Option (Huff × Huff × Inflate) :=
  match z.take 14 with
  | none => none
  | some (v, z) =>
    let nl := v % 32 + 257
    let nd := v / 32 % 32 + 1
    match readCl (v / 1024 + 4) z with
    | none => none
    | some (cl, z) =>
      let h := huffOf ((List.range 19).map fun i => match clOrder.findIdx? (· == i) with
        | some j => cl.getD j 0 | none => 0)
      if h.left != 0 then none
      else match readLens h (nl + nd) (nl + nd + 1) [] z with
        | none => none
        | some (l, z) =>
          let lit := huffOf (l.take nl)
          let dist := huffOf (l.drop nl)
          if lit.left != 0 || (dist.left != 0 && !(0 < dist.left && distAllowed dist)) then none
          else some (lit, dist, z)

/-- Appends one byte. -/
def Inflate.put (z : Inflate) (b : Byte) : Inflate := { z with out := b :: z.out, st := { z.st with len := z.st.len + 1 } }

/-- The byte at a distance back: one of this run, or an earlier one, which `old` reads by its place in the output. -/
def Inflate.back (old : Nat → Byte) (z : Inflate) (d : Nat) : Byte :=
  match z.out[d - 1]? with
  | some b => b
  | none => old (z.st.len - d)

/-- Goes on to a block, or to a place within one. -/
def Inflate.goTo (z : Inflate) (b : InfBlk) : Inflate := { z with st := { z.st with blk := b } }

/-- The block has ended. -/
def Inflate.blockEnd (z : Inflate) : Inflate := z.goTo (if z.st.last then .done else .head)

/-- The header of a stored block, from its byte boundary; no more than `lim` bytes may come out. -/
def storedHead (lim : Nat) (z : Inflate) : Option Inflate :=
  match z.take ((8 - z.st.pos % 8) % 8) with
  | none => none
  | some (_, z) =>
    match z.take 32 with
    | none => none
    | some (v, z) =>
      let n := v % 65536
      if v / 65536 != 65535 - n || lim < z.st.len + n then none else some (z.goTo (.stored n))

/-- A block header (R139). -/
def blockHead (lim : Nat) (z : Inflate) : Option Inflate :=
  match z.take 3 with
  | none => none
  | some (v, y) =>
    let y := { y with heads := (z.st.pos, z.st.len, v / 2 == 0) :: z.heads, st := { y.st with last := v % 2 == 1 } }
    match v / 2 with
    | 0 => storedHead lim y
    | 1 => some (y.goTo (.codes fixedLit fixedDist))
    | 2 => (dynCodes y).map fun c => c.2.2.goTo (.codes c.1 c.2.1)
    | _ => none

/-- One symbol of a block of codes: a literal, the end, or a match, which is then copied byte by byte. -/
def codeStep (lim : Nat) (lit dist : Huff) (z : Inflate) : Option Inflate :=
  match lit.decode z with
  | none => none
  | some (s, z) =>
    if s < 256 then if z.st.len < lim then some (z.put (BitVec.ofNat 8 s)) else none
    else if s = 256 then some z.blockEnd
    else if 286 ≤ s then none
    else match z.take (lenExtra.getD (s - 257) 0) with
      | none => none
      | some (x, z) =>
        let n := lenBase.getD (s - 257) 0 + x
        match dist.decode z with
        | none => none
        | some (t, z) =>
          if 30 ≤ t then none
          else match z.take (distExtra t) with
            | none => none
            | some (y, z) =>
              let d := distBase t + y
              if z.st.len < d || lim < z.st.len + n then none
              else some { z with st := { z.st with left := n, dist := d } }

/-- One step of a decoder: it reads something or writes a byte; none where the stream breaks R139. -/
def infStep (old : Nat → Byte) (lim : Nat) (z : Inflate) : Option Inflate :=
  match z.st.blk with
  | .done => some z
  | .head => blockHead lim z
  | .stored 0 => some z.blockEnd
  | .stored (n + 1) => (z.take 8).map fun x => (x.2.put (BitVec.ofNat 8 x.1)).goTo (.stored n)
  | .codes lit dist =>
    if z.st.left = 0 then codeStep lim lit dist z
    else some { z.put (z.back old z.st.dist) with st := { (z.put (z.back old z.st.dist)).st with left := z.st.left - 1 } }

/-- Runs a decoder until `target` bytes of a band of `lim` bytes have been written, or, when the run is to write them
all, to the end of the stream; false when the stream breaks R139 on the way. -/
def infRun (old : Nat → Byte) (lim target : Nat) : Nat → Inflate → Inflate × Bool
  | 0, z => (z, false)
  | fuel + 1, z =>
    if z.st.blk == .done || (target ≤ z.st.len && target < lim) then (z, true)
    else match infStep old lim z with
      | none => (z, false)
      | some z => infRun old lim target fuel z

/-- A run of a stream from its context: at each step a bit is read, a byte is written or a block ends. -/
def inflateRun (old : Nat → Byte) (payload : List Byte) (lim target : Nat) (st : Stream) : Inflate × Bool :=
  infRun old lim target (2 * (payload.length * 8 + lim) + 2) { bits := (payload.flatMap byteBits).drop st.pos, st := st }

/-- A run that was to go to the end has met the last block with the whole output written and no further byte of payload
left (R139). -/
def infWhole (lim : Nat) (r : Inflate × Bool) : Bool := r.2 && r.1.st.len == lim && decide (r.1.bits.length < 8)

/-- Decodes a payload to `raw` bytes (R139): the output, as far as it went, and whether the stream is valid. -/
def inflate (payload : List Byte) (raw : Nat) : List Byte × Bool :=
  let r := inflateRun (fun _ => 0) payload raw raw {}
  (r.1.out.reverse, infWhole raw r)

/-- The blocks of a stream, from its headers, latest first: the bits of each, the bytes it gives, whether it is stored, and
the bits that a stored block in its place would take. -/
def blocksOf : Nat → Nat → List (Nat × Nat × Bool) → List (Nat × Nat × Bool × Nat)
  | _, _, [] => []
  | pos, len, (p, l, s) :: t =>
    (pos - p, len - l, s, 3 + (8 - (p + 3) % 8) % 8 + 32 + 8 * (len - l)) :: blocksOf p l t

/-- A deflate engine gives the output (R147): no block of more than 65,535 input bytes, a Huffman-coded block only where
it is shorter than a stored one, and the bound of R140 kept. -/
def deflates (out : List Byte) (raw : Nat) : Bool :=
  let z := (inflateRun (fun _ => 0) out raw raw {}).1
  decide (out.length ≤ raw + 5 * ceilDiv raw 65535)
    && (blocksOf z.st.pos z.st.len z.heads).all fun b => decide (b.2.1 ≤ 65535) && (b.2.2.1 || decide (b.1 < b.2.2.2))

end Sys2Proof.Machine
end

