-- ==== Sys2Proof/Machine/Gates.lean ====
section
/-! DEFINITION. The gate outputs of the drives (R277-R279, R281, R282, R293, R296): how each leg is driven over a PWM
period, with the interlock, the dead time and the shortest pulse. -/

namespace Sys2Proof.Machine

/-! ## A leg -/

/-- How a leg is driven for the rest of a PWM period: both switches off, the low-side switch on, or the high-side switch on
from cycle a to cycle b of the period, the low-side switch conducting outside that where `sync` says so. -/
inductive LegMode where
  | off
  | low
  | pwm (sync : Bool) (a b : Nat)
  deriving DecidableEq, Repr

/-- The shortest pulse that is emitted, in fabric cycles (R278). -/
def shortest : Nat := 32

/-- The parts of a list of spans at or after cycle c. -/
def spansFrom (c : Int) (l : List (Int × Int)) : List (Int × Int) :=
  l.filterMap fun p => if max p.1 c < p.2 then some (max p.1 c, p.2) else none

/-- The parts of a list of spans before cycle c. -/
def spansTo (c : Int) (l : List (Int × Int)) : List (Int × Int) :=
  l.filterMap fun p => if p.1 < min p.2 c then some (p.1, min p.2 c) else none

/-- Active interval of a period without pulses that are too short: of the high side, or of its pause (R278). -/
def wholePulse (per a b : Nat) : Nat × Nat :=
  if b < a + shortest then (0, 0) else if per < b - a + shortest then (0, per) else (a, b)

/-- The spans, before dead time, in which the high-side and the low-side switch are to be on. -/
def wanted (per : Nat) : LegMode → List (Int × Int) × List (Int × Int)
  | .off => ([], [])
  | .low => ([], [(0, per)])
  | .pwm sync a b =>
    let r := wholePulse per a b
    ([((r.1 : Int), (r.2 : Int))], if sync then [(0, (r.1 : Int)), ((r.2 : Int), (per : Int))] else [])

/-- The earliest cycle from s on at which one output may rise, DT after every earlier fall of the other. -/
def riseAt (dt : Nat) (other : List (Int × Int)) (s : Int) : Int :=
  other.foldl (fun t p => if p.2 ≤ s then max t (p.2 + dt) else t) s

/-- The spans of one output from what is wanted of it, what it did before and what the other output does: its rising edges
wait for the dead time, and a pulse that becomes too short is not emitted. One that only goes on has no rising edge. -/
def spansWith (dt : Nat) (own other want : List (Int × Int)) : List (Int × Int) :=
  want.filterMap fun p =>
    let s := riseAt dt other p.1
    if own.any (fun q => q.2 == p.1) then some p
    else if s + shortest ≤ p.2 then some (s, p.2) else none

/-- A leg that is driven in another way from cycle c of the period on. -/
def legNext (per dt : Nat) (c : Int) (mode : LegMode) (l : LegOut) : LegOut :=
  let hi := spansTo c l.hi
  let lo := spansTo c l.lo
  let w := wanted per mode
  let wh := spansFrom c w.1
  let wl := spansFrom c w.2
  { hi := hi ++ spansWith dt hi (lo ++ wl) wh, lo := lo ++ spansWith dt lo (hi ++ wh) wl }

/-- A leg's spans as the next period, n cycles later, sees them; what lies more than a period back is forgotten. -/
def legShift (per n : Nat) (l : LegOut) : LegOut :=
  let f (p : Int × Int) : Option (Int × Int) := if -(per : Int) < p.2 - n then some (p.1 - n, p.2 - n) else none
  { hi := l.hi.filterMap f, lo := l.lo.filterMap f }

/-! ## A drive of three legs -/

/-- The gates of a drive (n for polygon n, 32 + n for servo axis n). -/
def Mach.gatesOf (m : Mach) (d : Nat) : GateSet := tget {} d m.drv.gates

/-- Replaces them. -/
def Mach.setGates (m : Mach) (d : Nat) (g : GateSet) : Mach := { m with drv := { m.drv with gates := tput d g m.drv.gates } }

/-- The gates of a drive from now on: at a PWM period start, or within the period that runs. -/
def driveGates (d per dt : Nat) (start : Bool) (modes : List LegMode) (m : Mach) : Mach :=
  let g := m.gatesOf d
  let t := m.now * 8
  let n := t - g.at_
  let anew := start || max 1 g.per ≤ n
  let legs := (modes.zip (List.range 3)).map fun x =>
    let l := g.legs.getD x.2 {}
    if anew then legNext per dt 0 x.1 (legShift (max per g.per) n l) else legNext per dt n x.1 l
  m.setGates d (if anew then { at_ := t, per := per, legs := legs } else { g with legs := legs })

/-- The levels of a leg's two outputs, high side and low side, now. -/
def legLevels (m : Mach) (d leg : Nat) : Bool × Bool :=
  let g := m.gatesOf d
  let c : Int := ((m.now * 8 - g.at_) % max 1 g.per : Nat)
  let l := g.legs.getD leg {}
  let on (s : List (Int × Int)) : Bool := s.any fun p => p.1 ≤ c && c < p.2
  (on l.hi, on l.lo)

/-! ## Polygon drives (R281, R282) -/

/-- The phase driven high and the one driven low in a step, 0 U, 1 V, 2 W (Table 10.2); DIR = 1 swaps them. -/
def drivenPhases (m : Mach) (n : Nat) : Nat × Nat :=
  let st := m.get (R.POLY_STAT_STEP n)
  let h := st / 2 % 3
  let f := (2 + 2 * (st % 3)) % 3
  let l := 3 - h - f
  if m.on (R.POLY_CFG_DIR n) then (l, h) else (h, l)

/-- How the three legs of a polygon drive are driven in its present state, step and duty: short-winding braking, six-step
with the high phase modulated, or every gate low (R279, R281-R283, R296). -/
def polyModes (m : Mach) (n : Nat) : List LegMode :=
  let st := m.get (R.POLY_STAT_STATE n)
  let per := m.get (R.POLY_PWM_PERIOD n)
  let on := m.get (R.POLY_MEAS_DUTY n) * per / 65536
  if m.on (R.POLY_STAT_SWB n) then [.low, .low, .low]
  else if 1 ≤ st && st ≤ 3 && 0 < on then
    let p := drivenPhases m n
    (List.range 3).map fun x => if x == p.1 then .pwm (m.on (R.POLY_CFG_SYNC n)) 0 on else if x == p.2 then .low else .off
  else [.off, .off, .off]

/-- The gates of a polygon drive follow its state. -/
def polyGates (n : Nat) (start : Bool) (m : Mach) : Mach :=
  driveGates n (m.get (R.POLY_PWM_PERIOD n)) (m.get (R.POLY_PWM_DT n)) start (polyModes m n) m

/-! ## Servo drives (R290) -/

/-- How the three legs of a servo axis are driven: short-winding braking, the duties of its period centred in it, or, while
the axis is disabled or off on overcurrent, every gate low. -/
def srvModes (m : Mach) (n : Nat) : List LegMode :=
  let per := m.get (R.SRV_PWM_PERIOD n)
  if m.on (R.SRV_STAT_SWB n) then [.low, .low, .low]
  else if !m.on (R.SRV_CFG_EN n) || m.on (R.SRV_STAT_OC n) then [.off, .off, .off]
  else (tget {} n m.drv.srv).duty.map fun d =>
    let on := d.toNat * per / 65536
    .pwm true ((per - on) / 2) ((per - on) / 2 + on)

/-- The gates of a servo axis follow it. -/
def srvGates (n : Nat) (start : Bool) (m : Mach) : Mach :=
  driveGates (32 + n) (m.get (R.SRV_PWM_PERIOD n)) (m.get (R.SRV_PWM_DT n)) start (srvModes m n) m

/-! ## Steppers (R293, R294) -/

/-- The bridge inputs (A1, A2) of a phase driven in the sign of an output. -/
def bridgeDrive (x : Int) : Bool × Bool := (decide (0 < x), decide (x < 0))

/-- The outputs ST{nn}_A1, _A2 (phase 0) or _B1, _B2 (phase 1) now (Table 10.4): (1, 1) in short-winding braking and in slow
decay, (0, 0) while the axis is off and in fast decay. -/
def stpLevels (m : Mach) (n phase : Nat) : Bool × Bool :=
  let p : StpDrv := tget {} n m.drv.stp
  let out := if phase = 0 then p.outA else p.outB
  let c := if phase = 0 then p.chopA else p.chopB
  if m.on (R.STP_STAT_SWB n) then (true, true)
  else if !m.on (R.STP_CFG_EN n) || m.on (R.STP_STAT_OC n) then (false, false)
  else if m.on (R.STP_STAT_STRONG n) then (if c.on then bridgeDrive out else (false, false))
  else
    let per := max 1 (m.get (R.STP_QPWM_PERIOD n))
    let r := wholePulse per 0 (out.natAbs * per / 65536)
    if (m.now * 8 - p.at_) % per < r.2 then bridgeDrive out else (true, true)

end Sys2Proof.Machine
end

