-- ==== Sys2Proof/Machine/Access.lean ====
section
/-! DEFINITION. What a register read shows: the registers that are computed from the ledger, the collector, the
cores and the pins, and the overlay of staged values (R17). Reads here have no side effect. -/

namespace Sys2Proof.Machine

/-! ## The ledger -/

/-- The code of Table 1.2. -/
def SheetState.code : SheetState → Nat
  | .free => 0 | .queued => 1 | .ready => 2 | .admitted => 3 | .caught => 4 | .imaging => 5 | .transferred => 6
  | .fused => 7 | .delivered => 8 | .spoiled => 9 | .jammed => 10 | .lost => 11 | .withdrawn => 12

/-- Terminal states (R23). -/
def SheetState.terminal : SheetState → Bool
  | .delivered | .spoiled | .jammed | .lost | .withdrawn => true
  | _ => false

/-- In flight: from READY until a terminal state (R23). -/
def SheetState.inFlight : SheetState → Bool
  | .ready | .admitted | .caught | .imaging | .transferred | .fused => true
  | _ => false

/-- ADMITTED through FUSED. -/
def SheetState.engaged : SheetState → Bool
  | .admitted | .caught | .imaging | .transferred | .fused => true
  | _ => false

/-- CAUGHT or IMAGING (NBUSY, R27). -/
def SheetState.busy : SheetState → Bool
  | .caught | .imaging => true
  | _ => false

/-- A sheet record. -/
def Mach.sheet (m : Mach) (r : Nat) : Sheet := tget {} r m.sheets

/-- Replaces a sheet record. -/
def Mach.setSheet (m : Mach) (r : Nat) (sh : Sheet) : Mach := { m with sheets := tput r sh m.sheets }

/-- Indices of the records whose state satisfies p, lowest first. Records never written are FREE. -/
def recsIn (p : SheetState → Bool) (m : Mach) : List Nat :=
  m.sheets.filterMap fun (r, sh) => if p sh.state then some r else none

/-- Number of records whose state satisfies p. -/
def countIn (p : SheetState → Bool) (m : Mach) : Nat := (recsIn p m).length

/-- Number of bands of each plane: ceil(LINES / 64) (R20). -/
def Sheet.bands (sh : Sheet) : Nat := ceilDiv sh.lines 64

/-- One word of a sheet record (Table 1.1). -/
def Sheet.word (sh : Sheet) (i : Nat) : Word :=
  let w (n : Nat) : Word := BitVec.ofNat 32 n
  match i with
  | 0 => w (sh.sid.toNat + sh.state.code * 2 ^ 24)
  | 1 => w (b2n sh.early + b2n sh.spoil * 2 + b2n sh.tsusp * 4 + b2n sh.reimg * 8 + b2n sh.sideb * 16
           + sh.planes % 32 * 2 ^ 5 + sh.speed % 8 * 2 ^ 10 + sh.nearly % 1024 * 2 ^ 16)
  | 2 => w (sh.lines % 65536 + sh.width % 16384 * 2 ^ 16)
  | 3 => w (sh.fusband % 16 + sh.hvset % 16 * 16 + sh.media % 256 * 256 + sh.hosttag % 65536 * 65536)
  | 4 => w sh.catchT.toNat
  | 5 => w (sh.catchT.toNat / 2 ^ 32)
  | 6 => sh.gateoff
  | 7 => w sh.origsid.toNat
  | 8 => w sh.cppc.toNat
  | 9 => w (sh.cppc.toNat / 2 ^ 32 + sh.dlmargin % 65536 * 65536)
  | 10 => w sh.trtick.toNat
  | 11 => w (sh.trtick.toNat / 2 ^ 32)
  | 12 => w (sh.fsrc % 1024 + sh.fkind % 256 * 2 ^ 10 + sh.fclass % 8 * 2 ^ 18)
  | 13 => w (sh.spband % 1024 + sh.spstn % 8 * 2 ^ 10)
  | 14 => w (sh.res.getD 0 0 % 1024 + sh.res.getD 1 0 % 1024 * 2 ^ 10 + sh.res.getD 2 0 % 1024 * 2 ^ 20)
  | 15 => w (sh.res.getD 3 0 % 1024 + sh.res.getD 4 0 % 1024 * 2 ^ 10)
  | _ => 0

/-- SLU_COUNT (Table 1.4). -/
def sluCount (m : Mach) : Word :=
  BitVec.ofNat 32 (countIn (·.inFlight) m % 64 + countIn (· == .ready) m % 64 * 2 ^ 6
    + countIn (· == .admitted) m % 64 * 2 ^ 12 + countIn (·.busy) m % 64 * 2 ^ 18)

/-! ## The collector -/

/-- The records that are held, source and class records alike. -/
def heldRecs (m : Mach) : List FltRec := ((m.flt.srcs.map (·.2)) ++ (m.flt.clss.map (·.2))).filter (·.held)

/-- A record of class c is open (R360). -/
def classOpen (c : Nat) (m : Mach) : Bool := (heldRecs m).any (·.cls == c)

/-- A record of this source and kind is held. -/
def recOpen (src kind : Nat) (m : Mach) : Bool := (heldRecs m).any fun r => r.src == src && r.kind == kind

/-- OPENCLS (Table 13.11). -/
def openCls (m : Mach) : Nat := (List.range 5).foldl (fun n c => n + b2n (classOpen c m) * 2 ^ c) 0

/-- FLT_STAT. -/
def fltStat (m : Mach) : Word := BitVec.ofNat 32 (openCls m + (heldRecs m).length % 2048 * 65536)

/-- A class 3 or 4 record is open: ALIVE is held (R372). -/
def aliveHeld (m : Mach) : Bool := classOpen 3 m || classOpen 4 m

/-- One word of a fault record (Table 13.12). -/
def FltRec.word (r : FltRec) (i : Nat) : Word :=
  let w (n : Nat) : Word := BitVec.ofNat 32 n
  match i with
  | 0 => w (b2n r.held + r.cls % 8 * 2 + r.kind % 256 * 16 + b2n r.reraise * 2 ^ 12 + r.src % 1024 * 2 ^ 22)
  | 1 => w r.sid.toNat
  | 2 => w r.param.toNat
  | 3 => w (r.param.toNat / 2 ^ 32)
  | 4 => w r.tick.toNat
  | 5 => w (r.tick.toNat / 2 ^ 32)
  | _ => 0

/-! ## The cores -/

/-- The code of Table 3.2. -/
def CtxState.code : CtxState → Nat
  | .idle => 0 | .ready => 1 | .running => 2 | .waiting => 3 | .parked => 4

/-- Comparators of a core: 32 on a Cox core, 16 on the supervisor (R74). -/
def cmpCount (core : Nat) : Nat := if core = 8 then 16 else 32

/-- Protection regions of a core (R85, R86). -/
def regionCount (core : Nat) : Nat := if core = 8 then 16 else 8

/-- A comparator (core * 32 + n). -/
def Mach.cmp (m : Mach) (i : Nat) : Cmp := tget {} i m.cox.cmps

/-- Replaces a comparator. -/
def Mach.setCmp (m : Mach) (i : Nat) (c : Cmp) : Mach := { m with cox := { m.cox with cmps := tput i c m.cox.cmps } }

/-- CMTRES (Table 3.16). -/
def Ctx.cmtRes (c : Ctx) : Word := BitVec.ofNat 32 (c.cmtCode % 16 + c.cmtSeq % 256 * 16 + c.cmtCount % 64 * 2 ^ 12)

/-- CTXk_STAT (Table 3.16). -/
def Ctx.statWord (c : Ctx) : Word :=
  BitVec.ofNat 32 (c.state.code + c.prio % 4 * 8 + c.stage.length % 64 * 32 + b2n c.slot.isSome * 2 ^ 11
    + c.cause % 256 * 2 ^ 12)

/-- CMPSTAT (Table 3.16). -/
def Cmp.statWord (c : Cmp) : Word :=
  BitVec.ofNat 32 (b2n c.armed + c.base % 4 * 2 + c.stn % 8 * 8 + b2n c.periodic * 64 + c.ctx % 4 * 128
    + c.action % 8 * 512 + b2n c.late * 4096)

/-- A register of a core group that shows a context or a comparator; none for the group's other registers. -/
def coxWord (m : Mach) (core o : Nat) : Option Word :=
  if o = 0x00C then
    some (BitVec.ofNat 32 ((List.range (cmpCount core)).filter fun n => !(m.cmp (core * 32 + n)).armed).length)
  else if 0x100 ≤ o && o < 0x180 then
    let c := m.ctx (core * 4 + (o - 0x100) / 0x20)
    match o % 0x20 with
    | 0x04 => some c.statWord
    | 0x08 => some c.pc
    | 0x0C => some (BitVec.ofNat 32 c.faddr.toNat)
    | 0x10 => some (BitVec.ofNat 32 (c.faddr.toNat / 2 ^ 32))
    | 0x14 => some c.evpend
    | 0x18 => some c.cmtRes
    | _ => none
  else if 0x400 ≤ o && o < 0x600 then
    let c := m.cmp (core * 32 + (o - 0x400) / 0x10)
    match o % 0x10 with
    | 0x0 => some c.statWord
    | 0x4 => some (BitVec.ofNat 32 c.tgt.toNat)
    | 0x8 => some (BitVec.ofNat 32 (c.tgt.toNat / 2 ^ 32))
    | _ => some c.per
  else none

/-! ## Pins and enables -/

/-- GPOUT (R427): the level driven on each output; an input drives none and reads 0. -/
def gpOut (m : Mach) : Nat :=
  (List.range 16).foldl (fun a n =>
    let lvl := match m.get (R.PIN_GPCFG_MODE n) with
      | 1 => m.on (R.PIN_GPCFG_OUT n)
      | 2 => bitOf m.gp n
      | _ => false
    a + b2n lvl * 2 ^ n) 0

/-- GPIN (R427): the level at each ball, what the output drives or what comes from outside. -/
def gpIn (m : Mach) : Nat :=
  (List.range 16).foldl (fun a n =>
    let out : Bool := m.get (R.PIN_GPCFG_MODE n) % 3 != 0
    a + b2n (bitOf (if out then gpOut m else Config.gpLevels m.now) n) * 2 ^ n) 0

/-- Domain d is up (R336, Table 12.1). -/
def domUp (d : Nat) (m : Mach) : Bool := bitOf (m.get R.PWR_DOMSTAT_UP) d

/-- Stations of the part. -/
def Mach.nStn (m : Mach) : Nat := m.part.stations

/-- LEN of a station is asserted (R370). -/
def lenOn (s : Nat) (m : Mach) : Bool :=
  s < m.nStn && domUp (4 + s) m && m.on (R.VID_CTL_EN s) && m.on R.ENV_STAT_ILK && !classOpen 4 m && !m.pwr.shutdown

/-- HVEN is asserted (R235). -/
def hvenOn (m : Mach) : Bool :=
  m.on R.HV_CTL_EN && m.on R.HV_CTL_HVREQ && m.on R.ENV_STAT_ILK && !classOpen 4 m && !m.pwr.shutdown

/-! ## Speed of a quadrature channel -/

/-- A channel's unseen state. -/
def Mach.encOf (m : Mach) (q : Nat) : Enc := tget {} q m.enc

/-- Replaces it. -/
def Mach.setEnc (m : Mach) (q : Nat) (e : Enc) : Mach := { m with enc := tput q e m.enc }

/-- SPD by the period method (R256), in 1/16 count/s: over the held periods, or 1 / t_e once t_e, in whole
microseconds, exceeds the latest period. -/
def periodSpeed (m : Mach) (q : Nat) : Int :=
  let e := m.encOf q
  match e.edges with
  | t1 :: t' :: ts =>
    let n := ts.length + 1
    let t0 := (t' :: ts).getLastD t'
    let te := (m.now * 8 - t1) / 800
    let v : Nat := if t1 - t' < te * 800 then 16000000 / te else 16 * n * 800000000 / max 1 (t1 - t0)
    if m.on (R.FBK_STAT_DIR q) then -(v : Int) else v
  | _ => 0

/-! ## The read of a register -/

/-- Is the register absent from this part (R2, R234) or from this core's group (R106)? Of the station-4 registers of shared
blocks that R2 does not list, the PE-5440 lacks CLK_TB4 and keeps the others (DESIGN CHOICE, log entry 45). -/
def absentReg (m : Mach) (key : Nat) : Bool :=
  let b := key / 65536
  let o := key % 65536
  let stn4 := b == 0x14 || (b == 0x01 && ((0x1C0 ≤ o && o < 0x1E0) || (0x240 ≤ o && o < 0x250)))
    || (b == 0x1A && 0x300 ≤ o && o < 0x380)
  let g := o / 0x1000
  let q := o % 0x1000
  let cox := b == 0x0D && ((g < 8 && ((0x280 ≤ q && q < 0x300) || q == 0x800)) || (g == 8 && 0x500 ≤ q && q < 0x600))
  let hv := b == 0x1D && 0x200 ≤ o && o < 0x240
  (m.part == .pe5440 && (stn4 || hv)) || cox

/-- Usable DRAM capacity in MiB (R307, R308, Table 11.1): two controller channels of 2, 3 or 4 GiB a rank, 7/8 of it
with ECC, once the controller is enabled. -/
def dramMib (m : Mach) : Nat :=
  if m.on R.DRC_CFG_EN then
    let cap := 2 * (2048 + 1024 * m.get R.DRC_CFG_DENS) * (m.get R.DRC_CFG_RANKS + 1)
    if m.on R.DRC_CFG_ECC then cap * 7 / 8 else cap
  else 0

/-- The imaging class of refresh applies (R312): a record in CAUGHT through FUSED, or refreshes still owed. -/
def imagingClass (m : Mach) : Bool :=
  0 < countIn (fun st => st.busy || st == .transferred || st == .fused) m || 0 < m.get R.DRC_REFSTAT_OWED

/-- Entries a ring holds (R316). -/
def ringCount (m : Mach) (r : Nat) : Nat :=
  ((m.get (R.RING_PIDX r)) + 2 ^ 32 - m.get (R.RING_CIDX r)) % 2 ^ 32

/-- The ingest unit owns DMA channel c (R319): it is PEAT_CTL.INCH while ingest is enabled or at work. -/
def chanOwned (m : Mach) (c : Nat) : Bool :=
  c == m.get R.PEAT_CTL_INCH && (m.on R.PEAT_CTL_EN || !m.peat.ingest.isEmpty)

/-- DMAc_STAT: of an owned channel, SHVALID shows that the ingest unit holds the next descriptor (R142). -/
def chanStat (m : Mach) (c : Nat) : Word :=
  let w := withBits (m.word (R.DMA_STAT_STATE c).key) 7 7 (b2n (chanOwned m c))
  if chanOwned m c then
    let moving := m.peat.ingest.any fun i => match i.stage with | .transfer _ => true | _ => false
    withBits w 3 3 (b2n (moving && m.peat.ingest.any fun i => i.stage == .room))
  else w

/-- Inflate engines that run, bit e. -/
def infBusy (m : Mach) : Nat :=
  (List.range 4).foldl (fun n e => n + b2n (m.peat.feeders.any fun f => f.2.eng == some e) * 2 ^ e) 0

/-- Deflate engines that run, bit e. -/
def defBusy (m : Mach) : Nat :=
  (List.range 2).foldl (fun n e => n + b2n (m.peat.ingest.any fun i => i.stage == .engine e) * 2 ^ e) 0

/-- A record whose exposure goes on (R39): in flight, or lost to a dead PPC, which stops no island. -/
def Sheet.exposes (sh : Sheet) : Bool :=
  sh.state.engaged || (sh.state == .lost && sh.fsrc == 0x018 && sh.fkind == 0x05)

/-- The sheet a feeder has: its record still holds that sheet and the station has not exposed all of it. -/
def feederSheet (m : Mach) (s : Nat) : Option Nat :=
  let f := tget {} s m.peat.feeders
  match f.sheet with
  | some r =>
    let sh := m.sheet r
    if sh.sid == f.sid && sh.exposes && !(tget {} s sh.legs).done then some r else none
  | none => none

/-- Lines of the sheet that lie before the present stroke's first line. -/
def passedLines (m : Mach) (s : Nat) (l : Leg) : Nat :=
  if !l.begun then 0
  else if m.on (R.VID_CTL_PASS s) then 8 * l.stroke - 8 - l.lead else 16 * l.stroke - l.lead

/-- FEEDs of Table 5.8. -/
def feedWord (m : Mach) (s : Nat) : Word :=
  let f := tget {} s m.peat.feeders
  match feederSheet m s with
  | some r =>
    let l := tget {} s (m.sheet r).legs
    BitVec.ofNat 32 (min 128 (f.filled - passedLines m s l) + f.band % 1024 * 2 ^ 8 + 2 ^ 18
      + b2n (l.blankFrom.isSome && l.begun) * 2 ^ 19)
  | none => 0

/-- SCL_LOAD.UTIL (R196): busy engine time over the latest 1 ms, in 1/65,536. -/
def sclUtil (m : Mach) : Nat :=
  let busy := (m.scl.hist.filter fun p => m.now < p.1.toNat + msTicks 1).foldl (fun n p => n + p.2) 0
  min 65535 (busy * 65536 / 400000)

/-- The registers that show computed state; none for a register that holds its own word. -/
def computedWord (m : Mach) (key : Nat) : Option Word :=
  let b := key / 65536
  let o := key % 65536
  let w (n : Nat) : Option Word := some (BitVec.ofNat 32 n)
  if key = R.SYS_TYPEID_TYPE.key then w m.part.typeId
  else if key = R.SYS_REV.key then w (Config.siliconRev % 256)
  else if key = R.CLK_TICK_TICK_LO.key then w m.now
  else if key = R.CLK_TICK_TICK_HI.key then w (m.now / 2 ^ 32)
  else if key = R.CLK_PPC_PPC_LO.key then w m.ppcNow
  else if key = R.CLK_PPC_PPC_HI.key then w (m.ppcNow / 2 ^ 32)
  else if b = 0x01 ∧ 0x100 ≤ o ∧ o < 0x1E0 ∧ o % 0x20 = 0x10 then
    some (withBits (m.word key) 31 16 (tget {} ((o - 0x100) / 0x20) m.clk.syn).cval.toNat)
  else if key = R.SLU_COUNT_INFLT.key then some (sluCount m)
  else if key = R.SNAP_STAT_PEND.key then
    some (withBits (m.word key) 23 16 (m.snap.waitEv.length + b2n (0 < m.snap.waitPer)))
  else if key = R.FLT_STAT_OPENCLS.key then some (fltStat m)
  else if key = R.FLT_ALIVE_HELD.key then some (withBits (m.word key) 2 2 (b2n (aliveHeld m)))
  else if key = R.PIN_GPOUT_OUT.key then w (gpOut m)
  else if key = R.PIN_GPIN_IN.key then w (gpIn m)
  else if key = R.HV_CTL_HVENOUT.key then some (withBits (m.word key) 2 2 (b2n (hvenOn m)))
  else if b = 0x18 ∧ 0x100 ≤ o ∧ o < 0x400 ∧ (o - 0x100) % 0x40 = 0x20 ∧ !m.on (R.FBK_STAT_METH ((o - 0x100) / 0x40)) then
    w (uint 32 (periodSpeed m ((o - 0x100) / 0x40)))
  else if b = 0x07 ∧ 0x2000 ≤ o ∧ o < 0x6000 then some ((m.sheet ((o - 0x2000) / 0x40)).word (o % 0x40 / 4))
  else if b = 0x04 ∧ 0x8000 ≤ o then some ((tget {} ((o - 0x8000) / 0x20) m.flt.srcs).word (o % 0x20 / 4))
  else if b = 0x04 ∧ 0x100 ≤ o ∧ o < 0x160 then some ((tget {} ((o - 0x100) / 0x20 + 2) m.flt.clss).word (o % 0x20 / 4))
  else if b = 0x0D ∧ o < 0x9000 then coxWord m (o / 0x1000) (o % 0x1000)
  else if b = 0x08 ∧ o < 0x400 ∧ o % 0x20 = 0x18 then some (withBits (m.word key) 16 0 (ringCount m (o / 0x20)))
  else if b = 0x09 ∧ o < 0x1800 ∧ o % 0x100 = 0x08 then some (chanStat m (o / 0x100))
  else if key = R.DATU_STAT_PRPEND.key then
    some (withBits (m.word key) 15 0 (m.hif.reqs.filter fun q => q.tag.isSome).length)
  else if key = R.SCL_LOAD_UTIL.key then some (withBits (m.word key) 15 0 (sclUtil m))
  else if key = R.SEC_UNITID_LO_ID.key then some (Config.unitId.truncate 32)
  else if key = R.SEC_UNITID_HI_ID.key then some ((Config.unitId >>> 32).truncate 32)
  else if key = R.SEC_STAT_RBCNT.key then
    some (withBits (withBits (m.word key) 6 0 m.sec.rollback) 11 9
      ((List.range 3).foldl (fun n k => n + b2n (!(m.sec.keys.getD k []).isEmpty) * 2 ^ k) 0))
  else if (R.SEC_CERT_DER 0).key ≤ key ∧ key < (R.SEC_CACERT_DER 0).key then
    some (Config.certWord ((key - (R.SEC_CERT_DER 0).key) / 4))
  else if (R.SEC_CACERT_DER 0).key ≤ key ∧ key < (R.SEC_CACERT_DER 0).key + 0x800 then
    some (Config.caCertWord ((key - (R.SEC_CACERT_DER 0).key) / 4))
  else if key = R.DRC_CAP_MIB.key then w (dramMib m)
  else if key = R.DRC_REFSTAT_CLASS.key then some (withBits (m.word key) 4 4 (b2n (imagingClass m)))
  else if key = R.PEAT_STAT2_INFBUSY.key then some (withBits (withBits (m.word key) 19 16 (infBusy m)) 21 20 (defBusy m))
  else if b = 0x0B ∧ 0x100 ≤ o ∧ o < 0x150 ∧ o % 0x10 = 0 then some (feedWord m ((o - 0x100) / 0x10))
  else if b = 0x0B ∧ 0x100 ≤ o ∧ o < 0x150 ∧ o % 0x10 = 4 then
    w (match feederSheet m ((o - 0x100) / 0x10) with | some r => (m.sheet r).sid.toNat | none => 0)
  else none

/-- Offset of a word within its group, when the key lies in [lo, hi) of block b. -/
def inGroup (key b lo hi : Nat) : Bool := key / 65536 == b && lo ≤ key % 65536 && key % 65536 < hi

/-- A field that this unit does not have: it reads zero and a write has no effect. -/
def fldReserved (key : Nat) (f : Fld) : Bool :=
  let o := key % 65536
  (inGroup key 0x01 0x100 0x140 && ((o % 0x20 == 0x00 && f.lo == 12) || o % 0x20 == 0x0C))
  || key == (R.VID_LINECFG_PDLY 0).key
  || (inGroup key 0x0D 0 0x8000 && 0x200 ≤ o % 0x1000 && o % 0x1000 < 0x300 && o % 0x10 == 8 && f.lo == 3)
  || (inGroup key 0x19 0x100 0x500 && (o - 0x100) % 0x80 ≥ 0x40)

/-- Bits of a register that read: write-only and reserved bits read as zero (R14, Table 0.3). -/
def readMask (key : Nat) : Word :=
  match rowAt key with
  | none => 0
  | some (d, _) => d.flds.foldl (fun w f => if f.acc == .wo || fldReserved key f then w else withBits w f.hi f.lo (2 ^ 32 - 1)) 0

/-- The word a register shows: its computed value, or its effective word overlaid by what has been staged (R17). -/
def Mach.shown (m : Mach) (key : Nat) : Word :=
  match computedWord m key with
  | some w => w
  | none =>
    let p := tget (0, 0) key m.pend
    ((m.word key &&& ~~~p.1) ||| (p.2 &&& p.1)) &&& readMask key

/-- The value of a field as a read shows it. -/
def Mach.seen (m : Mach) (f : FRef) : Nat := bitsOf (m.shown f.key) f.hi f.lo

end Sys2Proof.Machine
end

