-- ==== Sys2Proof/Machine/SnapImage.lean ====
section
/-! DEFINITION. What a capture freezes: the snapshot bank of Table 1.14 and the heritage status frame of Table 1.16,
as functions of the state. Also the CRC-32C of R138. -/

namespace Sys2Proof.Machine

/-! ## CRC-32C (R138) -/

/-- One bit of the reflected CRC-32C, polynomial 0x1EDC6F41. -/
def crcBit (c : Word) : Word := if c.getLsbD 0 then (c >>> 1) ^^^ 0x82F63B78#32 else c >>> 1

/-- One byte of the CRC. -/
def crcByte (c : Word) (b : Byte) : Word := (List.range 8).foldl (fun c _ => crcBit c) (c ^^^ b.zeroExtend 32)

/-- CRC-32C of a byte list: initial value and final exclusive-or all ones. -/
def crc32c (l : List Byte) : Word := l.foldl crcByte 0xFFFFFFFF#32 ^^^ 0xFFFFFFFF#32

/-! ## The bank -/

/-- A video island's unseen state. -/
def Mach.vidOf (m : Mach) (s : Nat) : Vid := tget {} s m.vid

/-- Replaces a video island's unseen state. -/
def Mach.setVid (m : Mach) (s : Nat) (v : Vid) : Mach := { m with vid := tput s v m.vid }

/-- Words shown by consecutive registers. -/
def shownRun (m : Mach) (off key n : Nat) : List (Nat × Word) :=
  (List.range n).map fun i => (off + 4 * i, m.shown (key + 4 * i))

/-- Packs 16-bit values in pairs into words. -/
def pack16 (l : List Nat) (n : Nat) : List Word :=
  (List.range (n / 2)).map fun i => BitVec.ofNat 32 (l.getD (2 * i) 0 % 65536 + l.getD (2 * i + 1) 0 % 65536 * 65536)

/-- Places words at consecutive offsets. -/
def placed (off : Nat) (ws : List Word) : List (Nat × Word) :=
  (List.range ws.length).map fun i => (off + 4 * i, ws.getD i 0)

/-- Packs one-bit values into words. -/
def packBits (n : Nat) (f : Nat → Bool) : List Word :=
  (List.range (n / 32)).map fun i =>
    BitVec.ofNat 32 ((List.range 32).foldl (fun a j => a + b2n (f (32 * i + j)) * 2 ^ j) 0)

/-- Station region s (Table 6.10), at its offset in the bank. -/
def snapStation (m : Mach) (s : Nat) : List (Nat × Word) :=
  if s < m.nStn then
    let o := 0x400 + s * 0x200
    let v := m.vidOf s
    let sid := match v.exposing with | some r => (m.sheet r).sid.toNat | none => 0
    [(o, m.shown (R.VID_CTL_EN s).key), (o + 4, m.shown (R.VID_STAT_IDOK s).key),
     (o + 8, m.shown (R.VID_LIVE_LF s).key), (o + 0xC, m.shown (R.VID_RETIRE_LANES s).key),
     (o + 0x10, m.shown (R.VID_HT_TEMP s).key), (o + 0x14, m.shown (R.VID_DUTYSUP_LANES s).key),
     (o + 0x18, m.shown (R.CLK_TB_STROKE s).key), (o + 0x1C, m.shown (R.CLK_TB_LINE s).key),
     (o + 0x20, BitVec.ofNat 32 (m.get (R.CLK_TB_FACET s) + sid * 256)), (o + 0x24, m.shown (R.VID_DLSTAT_DLSKIP s).key),
     (o + 0x80, BitVec.ofNat 32 (v.sduty1 % 65536 + v.sduty10 % 65536 * 65536))]
    ++ placed (o + 0x40) (pack16 v.duty1 16) ++ placed (o + 0x60) (pack16 v.duty10 16)
  else []

/-- Power and temperature region (Table 12.10). -/
def snapPower (m : Mach) : List (Nat × Word) :=
  [(0xE00, m.shown R.PWR_DOMSTAT_UP.key), (0xE04, m.shown R.PWR_SEQSTAT_STATE.key),
   (0xE08, m.shown R.PWR_FAIL_LATCH.key), (0xE0C, m.shown R.THM_STAT_REQ.key)]
  ++ (List.range 8).map (fun g => (0xE20 + 4 * g, m.shown (0x030308 + 0x10 * g)))
  ++ (List.range 25).map (fun i => (0xE40 + 4 * i, m.shown (R.THM_SENS_T i).key))
  ++ (List.range 16).map (fun i => (0xEC0 + 4 * i, m.shown (R.PWR_RAILSTAT_ENOUT i).key))

/-- Fault region (Table 13.14). -/
def snapFault (m : Mach) : List (Nat × Word) :=
  [(0x40, m.shown R.FLT_CTL_AUTONOTE.key), (0x44, fltStat m), (0x48, m.shown R.FLT_LOSTCNT_LOST.key),
   (0x4C, m.shown R.FLT_ALIVE_EN.key), (0x50, m.shown R.ENV_STAT_SEALED.key), (0x54, m.shown R.ENV_SEQ.key)]
  ++ (List.range 3).flatMap (fun c => placed (0x60 + 0x20 * c) ((List.range 8).map (tget {} (c + 2) m.flt.clss).word))
  ++ placed 0xC0 (packBits 1024 fun i => (tget {} i m.flt.srcs).held)
  ++ (List.range m.flt.recent.length).flatMap (fun j =>
      placed (0x140 + 0x20 * j) ((List.range 8).map (tget {} (m.flt.recent.getD j 0) m.flt.srcs).word))

/-- Loop, process, motion and drive regions (R222, Tables 8.13, 9.8 and 10.10). -/
def snapLoops (m : Mach) : List (Nat × Word) :=
  shownRun m 0x5000 0x0E0000 4
  ++ (List.range 96).flatMap (fun n =>
      [(0x5040 + 0x10 * n, m.shown (0x0E041C + 0x40 * n)), (0x5044 + 0x10 * n, m.shown (0x0E0420 + 0x40 * n)),
       (0x5048 + 0x10 * n, m.shown (0x0E0430 + 0x40 * n)), (0x504C + 0x10 * n, m.shown (0x0E0434 + 0x40 * n))])
  ++ [(0x5800, m.shown 0x240440)] ++ shownRun m 0x5804 0x240600 5 ++ shownRun m 0x5820 0x240500 40
  ++ [(0x5900, m.shown R.HV_CTL_EN.key)]
  ++ (List.range 24).flatMap (fun h =>
      [(0x5910 + 0x10 * h, m.shown (0x1D0104 + 0x10 * h)), (0x5914 + 0x10 * h, m.shown (0x1D0108 + 0x10 * h)),
       (0x5918 + 0x10 * h, m.shown (0x240100 + 4 * h))])
  ++ [(0x5B00, m.shown R.FUS_CTL_EN.key), (0x5B04, m.shown R.FUS_STAT_ZCOK.key)]
  ++ shownRun m 0x5B10 0x1E0020 4 ++ shownRun m 0x5B20 0x1E0040 8
  ++ (List.range m.nStn).flatMap (fun s =>
      [(0x5C00 + 8 * s, m.shown (R.VID_PLOCK_FTOL s).key), (0x5C04 + 8 * s, m.shown (R.VID_SPPC_ADV s).key)])
  ++ (List.range 12).flatMap (fun q => shownRun m (0x6000 + 0x20 * q) (0x180118 + 0x40 * q) 5)
  ++ (List.range 4).flatMap (fun p => shownRun m (0x6180 + 0x10 * p) (0x180408 + 0x20 * p) 3)
  ++ (List.range 20).flatMap (fun a => shownRun m (0x6200 + 0x20 * a) (0x190124 + 0x80 * a) 4)
  ++ placed 0x6480 (packBits 64 fun i => i < 48 && m.on (R.SNS_STAT_LVL i))
  ++ placed 0x6488 (packBits 64 fun i => i < 48 && m.on (R.SNS_STAT_CHAT i))
  ++ (List.range m.nStn).flatMap (fun n =>
      [(0x6500 + 0x20 * n, m.shown (0x1A0144 + 0x80 * n)), (0x6504 + 0x20 * n, m.shown (0x1A0148 + 0x80 * n)),
       (0x6508 + 0x20 * n, m.shown (0x1A014C + 0x80 * n)), (0x650C + 0x20 * n, m.shown (0x1A0150 + 0x80 * n)),
       (0x6510 + 0x20 * n, m.shown (0x1A0158 + 0x80 * n))])
  ++ [(0x6600, m.shown R.SRV_BRKSTAT_ON.key)]
  ++ (List.range 8).flatMap (fun n => shownRun m (0x6610 + 0x10 * n) (0x1B0118 + 0x40 * n) 3)
  ++ (List.range 12).flatMap (fun n => shownRun m (0x6700 + 8 * n) (0x1C0118 + 0x40 * n) 2)

/-- Fjarilink region (0x7000-0x7FEF). -/
def snapLink (m : Mach) : List (Nat × Word) :=
  shownRun m 0x7000 0x200000 6 ++ [(0x7018, m.shown R.FJL_GRP_MODE.key), (0x7020, m.shown R.SEC_STAT_RBCNT.key)]
  ++ (List.range 64).flatMap (fun e => shownRun m (0x7400 + 0x10 * e) (0x200400 + 0x10 * e) 3)

/-- The words of a bank at a capture (Table 1.14); unlisted words are zero. -/
def snapWords (m : Mach) (reason ntrig : Nat) (epoch : Word) : List (Nat × Word) :=
  ([(0x0000, epoch), (0x0004, BitVec.ofNat 32 reason), (0x0008, BitVec.ofNat 32 m.now),
    (0x000C, BitVec.ofNat 32 (m.now / 2 ^ 32)), (0x0010, BitVec.ofNat 32 m.ppcNow),
    (0x0014, BitVec.ofNat 32 (m.ppcNow / 2 ^ 32)), (0x0018, BitVec.ofNat 32 ntrig),
    (0x0020, m.shown R.SLU_CTL_EN.key), (0x0024, m.shown R.SLU_RSV_SPEED.key), (0x0028, sluCount m),
    (0x002C, m.shown R.SLU_QTHR_STRETCH.key), (0x0030, m.shown R.SLU_LASTSID_SID.key), (0x7FFC, epoch)]
   ++ snapFault m ++ (List.range 5).flatMap (snapStation m) ++ snapPower m
   ++ m.sheets.flatMap (fun (p : Nat × Sheet) => placed (0x1000 + 0x40 * p.1) ((List.range 16).map p.2.word))
   ++ ((List.range 256).filter fun r => !thas r m.sheets).map (fun r => (0x1034 + 0x40 * r, ({} : Sheet).word 13))
   ++ snapLoops m ++ snapLink m).filter fun p => p.2 != 0 || p.1 == 0x7FFC

/-! ## The heritage status frame -/

/-- HEADT: VIDs_HT.TEMP / 16 rounded down and saturated to a signed byte (Table 1.16). -/
def headByte (t : Nat) : Nat := uint 8 (clampI (-128) 127 (sint 16 t / 16))

/-- A station's word of the frame at 0x50 + 4s. -/
def frameStation (m : Mach) (s : Nat) : Word :=
  if s < m.nStn then
    let ret := m.get (R.VID_RETIRE_LANES s)
    let n := ((List.range 16).filter (bitOf ret)).length
    BitVec.ofNat 32 (headByte (m.get (R.VID_HT_TEMP s)) + n * 2 ^ 8 + m.get (R.CLK_SYN_STAT_LOCK (2 + s)) * 2 ^ 13
      + m.get (R.CLK_SYN_STAT_COAST (2 + s)) * 2 ^ 14 + m.get (R.VID_PLOCK_LOCK s) * 2 ^ 15)
  else 0

/-- The 64 words of a frame for an event, FRAMESEQ, CHECK and FRAMESEQ2 still zero (R48, Table 1.16). -/
def frameBody (m : Mach) (epoch : Word) (e : SnapEvent) : List Word :=
  let w (n : Nat) : Word := BitVec.ofNat 32 n
  let sh := m.sheet e.idx
  let ev := match e.kind with | .caught => 1 | .terminal => 2
  [w 0x31465348, 0, epoch, w (e.sid.toNat + e.state.code * 2 ^ 24 + ev * 2 ^ 28),
   w m.now, w (m.now / 2 ^ 32), w sh.catchT.toNat, w (sh.catchT.toNat / 2 ^ 32),
   w e.trtick.toNat, w (e.trtick.toNat / 2 ^ 32),
   w (sh.hosttag % 65536 + sh.speed % 8 * 2 ^ 16 + sh.planes % 32 * 2 ^ 19 + b2n sh.spoil * 2 ^ 24
      + b2n sh.tsusp * 2 ^ 25 + b2n sh.early * 2 ^ 26 + b2n sh.reimg * 2 ^ 27 + b2n sh.sideb * 2 ^ 28),
   sh.word 12, sh.word 13,
   w (sh.lines % 65536 + sh.media % 256 * 2 ^ 16 + countIn (·.inFlight) m % 256 * 2 ^ 24)]
  ++ (List.range 5).map (fun i => w (m.snap.counts.getD i 0))
  ++ [w (m.get R.SLU_RSV_SPEED + m.get R.SLU_RSV_FUSBAND * 8 + m.get R.SLU_RSV_HVSET * 2 ^ 7 + openCls m * 2 ^ 11
      + m.get R.SLU_RSV_TENF * 2 ^ 16)]
  ++ (List.range 5).map (frameStation m)
  ++ pack16 ((List.range 4).map fun z => m.get (R.FUS_TEMP_T (m.get (R.FUS_DEM_CIN z)))) 4
  ++ [0]
  ++ (List.range 5).map (fun s => if s < m.nStn then m.shown (0x240600 + 4 * s) else 0)
  ++ List.replicate 27 0
  ++ [w m.part.typeId, m.shown R.FLT_LOSTCNT_LOST.key, 0, 0]

/-- The bytes of a word list, little-endian. -/
def wordBytes (ws : List Word) : List Byte := ws.flatMap fun w => leBytes 4 w.toNat

/-- A frame with its sequence number and check value filled in (Table 1.16). -/
def frameSealed (seq : Word) (body : List Word) : List Word :=
  let b := (body.set 1 seq)
  let c := crc32c (wordBytes (b.take 62))
  (b.set 62 c).set 63 seq

end Sys2Proof.Machine
end

