-- ==== Sys2Proof/Machine/JobStore.lean ====
section
/-! DEFINITION. The job store: store units, residency, references and release (R146, R152-R156). -/

namespace Sys2Proof.Machine

/-! ## Units -/

/-- Bytes of a band's header and payload. -/
def Band.bytes (b : Band) : Nat := 32 + b.payload.length

/-- Store units of a band: 4 KiB each (R152). -/
def Band.units (b : Band) : Nat := ceilDiv b.bytes 4096

/-- Store units of an entry. -/
def Entry.units (e : Entry) : Nat := e.bands.foldl (fun n b => n + b.units) 0

/-- Units in use: stored bands and units allocated to bands in ingest. -/
def usedUnits (m : Mach) : Nat :=
  m.peat.entries.foldl (fun n p => n + p.2.units) 0 + m.peat.ingest.foldl (fun n i => n + i.units) 0

/-- Free store units: JSSIZE less the 2 MiB index, less what is used (R152). -/
def freeUnits (m : Mach) : Nat := (m.get R.PEAT_JSSIZE_MIB - 2) * 256 - usedUnits m

/-- Index entries in use, of 131,072 (R152): one for each stored band and each band that has been allocated units. -/
def usedIndex (m : Mach) : Nat :=
  m.peat.entries.foldl (fun n p => n + p.2.bands.length) 0 + (m.peat.ingest.filter fun i => 0 < i.units).length

/-- Puts the free units into PEAT_JSFREE. While they lie below PEAT_JSLOW, event JSLOW is asserted (R155): anew whenever
JSFREE is counted or JSLOW is written (DEDUCED, log entry 45). -/
def jsCount (m : Mach) : Mach :=
  let n := freeUnits m
  when (n < m.get R.PEAT_JSLOW_UNITS) (assertEvent 0x0B1) (m.set R.PEAT_JSFREE_UNITS n)

/-- An entry of the job store. -/
def Mach.entry (m : Mach) (sid : Sid) : Option Entry := tfind sid.toNat m.peat.entries

/-- Replaces an entry. -/
def Mach.setEntry (m : Mach) (sid : Sid) (e : Entry) : Mach :=
  { m with peat := { m.peat with entries := tput sid.toNat e m.peat.entries } }

/-- Releases an entry. -/
def jsRelease (sid : Sid) (m : Mach) : Mach :=
  jsCount { m with peat := { m.peat with entries := tdel sid.toNat m.peat.entries } }

/-! ## References and holds -/

/-- A record in QUEUED through FUSED. -/
def SheetState.live (st : SheetState) : Bool := st == .queued || st.inFlight

/-- The entry is referenced (R153). -/
def referenced (sid : Sid) (m : Mach) : Bool :=
  m.sheets.any fun p => p.2.state.live && (p.2.sid == sid || (p.2.reimg && p.2.origsid == sid))

/-- Starts the hold of an entry after a delivery; a hold of 0 ms ends at once (R153). -/
def jsHold (sid : Sid) (m : Mach) : Mach :=
  match m.entry sid with
  | none => m
  | some e =>
    let ms := m.get R.PEAT_JSHOLD_MS
    if ms = 0 then
      if referenced sid m || e.pinned then m.setEntry sid { e with hold := none, ended := true } else jsRelease sid m
    else m.setEntry sid { e with hold := some (BitVec.ofNat 64 (m.now + msTicks ms)), ended := false }

/-- A record has been delivered: the entries it referenced go on hold (R153). -/
def jsDelivered (sh : Sheet) (m : Mach) : Mach :=
  let m := jsHold sh.sid m
  when sh.reimg (jsHold sh.origsid) m

/-! ## Residency -/

/-- The band fits the record (R146). -/
def Band.fits (b : Band) (sh : Sheet) : Bool :=
  bitOf sh.planes b.stn && b.band < sh.bands && b.width == sh.width && b.nlines == min 64 (sh.lines - 64 * b.band)

/-- The entry that holds a record's bands (R156). -/
def Sheet.store (sh : Sheet) : Sid := if sh.reimg then sh.origsid else sh.sid

/-- The band of a record that is present and fits. -/
def bandOf (m : Mach) (sh : Sheet) (n k : Nat) : Option Band :=
  match m.entry sh.store with
  | none => none
  | some e => e.bands.find? fun b => b.stn == n && b.band == k && b.fits sh

/-- Number of bands 0, 1, ... present without a gap, looking at most `fuel` bands ahead. -/
def runOfBands (m : Mach) (sh : Sheet) (n k : Nat) : Nat → Nat
  | 0 => k
  | fuel + 1 => if (bandOf m sh n k).isSome then runOfBands m sh n (k + 1) fuel else k

/-- RESn (R33, R146). -/
def resOf (m : Mach) (sh : Sheet) (n : Nat) : Nat := runOfBands m sh n 0 sh.bands

/-- Recomputes the counters of a record; outside QUEUED a counter never falls (R33, R146). -/
def recount (r : Nat) (m : Mach) : Mach :=
  let sh := m.sheet r
  let new := (List.range 5).map fun n =>
    let v := resOf m sh n
    if sh.state == .queued then v else max v (sh.res.getD n 0)
  m.setSheet r { sh with res := new }

/-- A band of an entry has become resident: every live record that takes its bands from there is recounted. -/
def recountFor (sid : Sid) (m : Mach) : Mach :=
  each ((recsIn (·.live) m).filter fun r => (m.sheet r).store == sid) recount m

end Sys2Proof.Machine
end

