-- ==== Sys2Proof/Machine/Collector.lean ====
section
/-! DEFINITION. What happens in hardware, at once, when something happens: snapshot triggers (R44-R46), ledger
transitions (R24-R26), group frames (R386), and the fault collector with its class effects (R357-R365). -/

namespace Sys2Proof.Machine

/-! ## Snapshot triggers -/

/-- Bank b is held by a recent read (R46). -/
def bankHeld (b : Nat) (m : Mach) : Bool :=
  match (if b = 0 then m.snap.hold0 else m.snap.hold1) with
  | some t => m.now < t.toNat
  | none => false

/-- The bank a capture that begins now goes to (R46): the one written less recently unless it is held. -/
def captureBank (m : Mach) : Option Nat :=
  let b := match m.snap.lastBank with | some b => 1 - b | none => 0
  if !bankHeld b m then some b else if !bankHeld (1 - b) m then some (1 - b) else none

/-- Freezes a capture into bank b, serving every waiting trigger (R44, R45). -/
def captureBegin (b : Nat) (m : Mach) : Mach :=
  let sn := m.snap
  let epoch : Word := BitVec.ofNat 32 (m.get R.SNAP_EPOCH + 1)
  let reason := b2n (0 < sn.waitPer) + b2n (sn.waitEv.any (·.kind == .caught)) * 2
    + b2n (sn.waitEv.any (·.kind == .terminal)) * 4 + b2n sn.deferred * 8
  let m := when sn.deferred (·.incSat R.SNAP_STAT_DEFER) m
  let cap : Capture :=
    { bank := b, epoch := epoch, words := snapWords m reason (sn.waitPer + sn.waitEv.length) epoch,
      frames := (sn.waitEv.filter (·.frame)).map (frameBody m epoch) }
  { m with snap := { m.snap with writing := some cap, waitPer := 0, waitEv := [], deferred := false } }

/-- Begins the next capture when none is being written and a trigger waits; if both banks are held it waits (R46). -/
def snapTry (m : Mach) : Mach :=
  let sn := m.snap
  if !sn.frozen && sn.writing.isNone && (0 < sn.waitPer || !sn.waitEv.isEmpty) then
    match captureBank m with
    | some b => captureBegin b m
    | none => { m with snap := { sn with deferred := true } }
  else m

/-- Runs an effect as one indivisible step: its triggers share one capture, which sees all of it or nothing (R44). -/
def indivisible (f : Mach → Mach) (m : Mach) : Mach :=
  let was := m.snap.frozen
  let m := f { m with snap := { m.snap with frozen := true } }
  snapTry { m with snap := { m.snap with frozen := was } }

/-- A catch or terminal trigger (R44): queued, or, with 64 already waiting, dropped with its frame number. -/
def snapEvent (k : SnapKind) (r : Nat) (m : Mach) : Mach :=
  let hsf := m.on R.SNAP_CTL_HSFEN
  if m.on R.SNAP_CTL_EN || hsf then
    if m.snap.waitEv.length < 64 then
      let sh := m.sheet r
      let e : SnapEvent := { kind := k, idx := r, sid := sh.sid, state := sh.state, trtick := sh.trtick, frame := hsf }
      { m with snap := { m.snap with waitEv := m.snap.waitEv ++ [e] } }
    else if hsf then (m.incSat R.SNAP_STAT_HSFDROP).incWrap R.SNAP_HSFSEQ
    else m
  else m

/-! ## Frames to the group -/

/-- Hands a frame to a port that is up; event and bulk frames wait for the neighbour's acknowledgement (R379). -/
def frameTx (port : Nat) (f : Frame) (m : Mach) : Mach :=
  let up := if port = 0 then m.on R.FJL_PSTAT_UUP else m.on R.FJL_PSTAT_DUP
  if m.on R.FJL_CTL_EN && up then
    let q := if port = 0 then m.fjl.lseq0 else m.fjl.lseq1
    let f := { f with lseq := q }
    let u : List Unacked := if 2 ≤ f.cls then [{ frame := f, tries := 1, at_ := m.clk.tick }] else []
    let m := m.send (.frame port f)
    if port = 0 then
      { m with fjl := { m.fjl with lseq0 := (q + 1) % 65536, unacked0 := m.fjl.unacked0 ++ u } }
    else { m with fjl := { m.fjl with lseq1 := (q + 1) % 65536, unacked1 := m.fjl.unacked1 ++ u } }
  else m

/-- The port by which a node is reached: the one with the fewer hops, upstream when equal (R380). -/
def routeTo (node : Nat) (m : Mach) : Option Nat :=
  let r := tget {} node m.fjl.routes
  match r.up, r.down with
  | some a, some b => if b.hops < a.hops then some 1 else some 0
  | some _, none => some 0
  | none, some _ => some 1
  | none, none => none

/-- Sends a frame of this node: to one port when its destination has been learned, else on both (R381). -/
def frameSend (f : Frame) (m : Mach) : Mach :=
  let f := { f with src := m.get R.FJL_NODE_ADDR }
  if f.grp || f.bc then frameTx 1 f (frameTx 0 f m)
  else match routeTo f.dst m with
    | some p => frameTx p f m
    | none => frameTx 1 f (frameTx 0 f m)

/-- An event frame to this node's group (R384, R385). -/
def groupFrame (typ : Nat) (body : List Word) (m : Mach) : Frame :=
  { cls := 2, grp := true, bc := false, typ := typ, hops := 255, dst := m.get R.FJL_GRP_GID, src := 0, lseq := 0,
    body := body }

/-- A member of a press group: 1 master, 2 slave (R385). -/
def groupRole (m : Mach) : Nat := if m.on R.FJL_CTL_EN then m.get R.FJL_GRP_ROLE else 0

/-- An identifier of a group sheet: scheduled by this master, or in this slave's catch table (R385). -/
def groupSheet (sid : Sid) (m : Mach) : Bool :=
  match groupRole m with
  | 1 => m.fjl.sched.contains sid
  | 2 => (List.range 64).any fun e => m.on (R.FJL_CTAB_VALID e) && m.get (R.FJL_CTAB_SID e) == sid.toNat
  | _ => false

/-! ## Ledger transitions -/

/-- The lock point (R23): the earlier of T_c - ARMLEAD and T_c + GATEOFF. ARMLEAD acts as written, also outside the range
that Table 1.4 gives (DESIGN CHOICE, log entry 45). -/
def lockPoint (sh : Sheet) (m : Mach) : Int :=
  min ((sh.catchT.toNat : Int) - m.get R.SLU_ARMLEAD) ((sh.catchT.toNat : Int) + sint 32 sh.gateoff.toNat)

/-- The lock point has been reached (Table 1.13: its own cycle included). -/
def pastLock (sh : Sheet) (m : Mach) : Bool := lockPoint sh m ≤ (m.now : Int)

/-- Raises QSTRETCH and QSLOW when NREADY has fallen below their values (Table 1.4). -/
def queueEvents (before : Nat) (m : Mach) : Mach :=
  let n := countIn (· == .ready) m
  let fell (t : Nat) : Bool := t ≤ before && n < t
  when (fell (m.get R.SLU_QTHR_SLOW)) (assertEvent 0x071)
    (when (fell (m.get R.SLU_QTHR_STRETCH)) (assertEvent 0x070) m)

/-- What a record forgets when it returns to READY: everything its ADMIT fixed. -/
def Sheet.unadmitted (sh : Sheet) : Sheet :=
  { sh with earlyRule := false, armed := false, gateSent := false, watches := 0, judged := 0, heldTransfer := false,
            heldFuse := false, heldTerm := false, nextDl := [0, 0, 0, 0, 0], legs := [] }

/-- Counts a terminal transition for the status frames (Table 1.16). -/
def countTerminal (st : SheetState) (m : Mach) : Mach :=
  let i := match st with | .delivered => 0 | .spoiled => 1 | .jammed => 2 | .lost => 3 | _ => 4
  { m with snap := { m.snap with counts := m.snap.counts.set i (m.snap.counts.getD i 0 + 1) } }

/-- Moves a record to a state (R24): STATE and TRTICK change, the events, counts and snapshot triggers of the
transition happen. -/
def sheetTo (r : Nat) (st : SheetState) (m : Mach) : Mach :=
  let nready := countIn (· == .ready) m
  let sh := m.sheet r
  let back := sh.state == .admitted && (st == .ready || st == .withdrawn)
  let cancel := back && groupRole m == 1 && groupSheet sh.sid m
  let sh' := { (if back then sh.unadmitted else sh) with state := st, trtick := m.clk.tick }
  let m := m.setSheet r sh'
  let m := when cancel (fun m => frameSend (groupFrame 2 [BitVec.ofNat 32 sh.sid.toNat] m) m) m
  let m := when (st == .caught) (fun m => snapEvent .caught r (assertEvent 0x072 m)) m
  let m := when (st == .delivered) (jsDelivered sh) m
  let m := when st.terminal (fun m => snapEvent .terminal r (countTerminal st (assertEvent 0x073 m))) m
  queueEvents nready m

/-- Every station in PLANES has exposed line 0. -/
def Sheet.allBegun (sh : Sheet) : Bool :=
  (List.range 5).all fun s => !bitOf sh.planes s || (tget {} s sh.legs).begun

/-- One hardware transition whose condition is held (R24), if any. -/
def sheetStep (r : Nat) (m : Mach) : Mach :=
  let sh := m.sheet r
  match sh.state with
  | .caught => if sh.allBegun then sheetTo r .imaging m else m
  | .imaging => if sh.heldTransfer then sheetTo r .transferred m else m
  | .transferred => if sh.heldFuse then sheetTo r .fused m else m
  | .fused => if sh.heldTerm then sheetTo r (if sh.spoil then .spoiled else .delivered) m else m
  | _ => m

/-- Takes every hardware transition whose condition is held, in table order (R24). -/
def sheetAdvance (r : Nat) (m : Mach) : Mach :=
  if m.on R.SLU_CTL_EN then sheetStep r (sheetStep r (sheetStep r (sheetStep r m))) else m

/-- Records the first fault that spoiled, jammed or lost the sheet (Table 1.1, word 0x30). -/
def Sheet.blame (sh : Sheet) (src kind cls : Nat) : Sheet :=
  if sh.fclass = 0 then { sh with fsrc := src, fkind := kind, fclass := cls } else sh

/-- Runs a sheet out (R40): SPOIL is set and every affected station blanks from its next stroke start. `stn` is the
station the fault names, if any. -/
def runOut (r : Nat) (stn : Option Nat) (m : Mach) : Mach :=
  let sh := m.sheet r
  let hit (s : Nat) : Bool :=
    bitOf sh.planes s && (m.on R.SLU_CTL_RUNALL || (match stn with | some t => s == t | none => true))
  let legs := (List.range 5).foldl (fun l s =>
    if hit s then tput s { (tget {} s l) with blankNext := true } l else l) sh.legs
  m.setSheet r { sh with spoil := true, legs := legs }

/-! ## Class effects -/

/-- A fault message (Table 13.1), with what the controller knows of it beside: the station it names, the context of
a park, whether it is a re-raise, and whether a received group frame raised it. -/
structure Msg where
  src : Nat
  kind : Nat
  cls : Nat
  sid : Sid := 0
  param : BitVec 40 := 0
  stn : Option Nat := none
  aux : Nat := 0
  reraise : Bool := false
  fromGroup : Bool := false
  deriving DecidableEq, Repr

/-- The station that a source names (R40): a video island, or a station's band feeder. -/
def srcStation (src : Nat) : Option Nat :=
  if 0x100 ≤ src && src < 0x150 then some (src / 16 - 0x10)
  else if 0x0B1 ≤ src && src ≤ 0x0B5 then some (src - 0x0B1)
  else none

/-- The effect of a message on one record (Table 1.11). -/
def msgOnRecord (g : Msg) (r : Nat) (m : Mach) : Mach :=
  let sh := m.sheet r
  if !sh.state.engaged then m
  else
    let before := sh.state == .admitted && !pastLock sh m
    match g.cls with
    | 0 => m
    | 1 =>
      if g.sid != sh.sid then m
      else if before then
        let m := sheetTo r .ready m
        m.setSheet r { m.sheet r with catchT := 0 }
      else
        let stn := match g.stn with | some s => some s | none => srcStation g.src
        runOut r stn (m.setSheet r (sh.blame g.src g.kind g.cls))
    | 2 => if before then sheetTo r .ready m else m
    | 3 =>
      if before then sheetTo r .ready m
      else sheetTo r .jammed (m.setSheet r (sh.blame g.src g.kind g.cls))
    | _ =>
      if before then sheetTo r .ready m
      else sheetTo r .lost (m.setSheet r (sh.blame g.src g.kind g.cls))

/-- Changes an island's unseen state. -/
def Mach.onVid (m : Mach) (s : Nat) (f : Vid → Vid) : Mach := m.setVid s (f (m.vidOf s))

/-- Fault source of an island: unit 0 lanes, 1 head, 2 facet identity, 3 polygon lock (Table 13.2). -/
def vidSrc (s unit : Nat) : Nat := (0x10 + s) * 16 + unit

/-- Event code of an island's line (R191). -/
def vidEvent (s line : Nat) : Nat := (0x10 + s) * 16 + line

/-- Sets IDOK, with event IDENT on a change (R191). -/
def setIdok (s : Nat) (b : Bool) (m : Mach) : Mach :=
  if m.on (R.VID_STAT_IDOK s) == b then m else assertEvent (vidEvent s 4) (m.set (R.VID_STAT_IDOK s) (b2n b))

/-- The sheets caught for station s whose line 0 it has not exposed (R233). -/
def unexposed (s : Nat) (m : Mach) : List Nat :=
  (recsIn (·.busy) m).filter fun r => let sh := m.sheet r; bitOf sh.planes s && !(tget {} s sh.legs).begun

/-- LOCK falls and identity is to be established anew (R185, R233), before the messages that say so. -/
def lockDrop (s : Nat) (m : Mach) : Mach :=
  let m := assertEvent (vidEvent s 5) (m.set (R.VID_PLOCK_LOCK s) 0)
  setIdok s false (m.onVid s fun v =>
    { v with lockRun := 0, missRun := 0, sigSums := [], sigCount := 0, fzHave := false, sigDone := false, sigTries := 0 })

/-- The drives of the part: polygons, servo axes, stepper axes. -/
def driveIds (m : Mach) : List Nat :=
  (List.range m.nStn) ++ (List.range 8).map (32 + ·) ++ (List.range 12).map (64 + ·)

/-- The drive is off with every gate low for a fault of its own: it is not braked (R287, R292, R300). -/
def driveOff (m : Mach) (d : Nat) : Bool :=
  if d < 32 then m.get (R.POLY_STAT_STATE d) == 6
  else if d < 64 then m.on (R.SRV_STAT_OC (d - 32))
  else m.on (R.STP_STAT_OC (d - 64))

/-- Holds a drive off or braking for a fault of this source and kind, beside what holds it already. -/
def holdDrive (src kind d : Nat) (m : Mach) : Mach :=
  let l := (src, kind) :: (tget [] d m.drv.brake).filter (· != (src, kind))
  { m with drv := { m.drv with brake := tput d l m.drv.brake, rearm := tdel d m.drv.rearm } }

/-- Puts a drive into short-winding braking (R296), for a fault of this source and kind: its low-side outputs rise, a stepper
holds (1, 1) on both phases. -/
def brakeDrive (src kind d : Nat) (m : Mach) : Mach :=
  let m := holdDrive src kind d (m.set R.SRV_BRKSTAT_SWB 1)
  if d < 32 then
    let m := ((m.set (R.POLY_STAT_SWB d) 1).set (R.POLY_STAT_STATE d) 5).set (R.POLY_MEAS_DUTY d) 0
    let p : PolyDrv := tget {} d m.drv.poly
    polyGates d false { m with drv := { m.drv with poly := tput d { p with comDue := none } m.drv.poly } }
  else if d < 64 then srvGates (d - 32) false (m.set (R.SRV_STAT_SWB (d - 32)) 1)
  else m.set (R.STP_STAT_SWB (d - 64)) 1

/-- Puts every drive into short-winding braking but those that their own fault holds off. -/
def brakeAll (src kind : Nat) (m : Mach) : Mach :=
  each ((driveIds m).filter fun d => !driveOff m d) (brakeDrive src kind) m

/-- Releases every fuser gate and drops what is due. -/
def gatesOff (m : Mach) : Mach :=
  { m with fus := { m.fus with gates := 0, fireAt := [], endAt := [], duty := [0, 0, 0, 0] } }

/-- The outputs of a class 4 trip (Table 13.6); LEN and HVEN follow from the open record (R370, R235). -/
def tripOutputs (src kind : Nat) (m : Mach) : Mach :=
  brakeAll src kind (gatesOff ((m.set R.HV_CTL_EN 0).set R.FUS_CTL_EN 0))

/-- The effects of a message on sheets and outputs (R363, R365). -/
def classEffects (g : Msg) (m : Mach) : Mach :=
  let m := each (recsIn (·.engaged) m) (msgOnRecord g) m
  match g.cls with
  | 3 => { m with mot := { m.mot with stopDue := true } }
  | 4 => tripOutputs g.src g.kind m
  | _ => m

/-! ## The collector -/

/-- The record a message leaves. -/
def Msg.toRec (g : Msg) (m : Mach) (held : Bool) : FltRec :=
  { held := held, cls := g.cls, kind := g.kind, reraise := g.reraise, src := g.src, sid := g.sid, param := g.param,
    tick := m.clk.tick, aux := g.aux }

/-- What follows when a message is captured in a record that becomes held (R376, Table 13.11). -/
def captured (g : Msg) (m : Mach) : Mach :=
  let m := assertEvent 0x040 m
  let m := when (g.cls == 3) (assertEvent 0x041) m
  let m := when (g.cls == 4) (assertEvent 0x042) m
  when (m.get R.FLT_CTL_IRQMIN ≤ g.cls) (fun m => m.msix (m.get R.FLT_CTL_VEC)) m

/-- Captures a message or counts it as lost (R360-R362). -/
def collect (g : Msg) (m : Mach) : Mach :=
  let r := tget {} g.src m.flt.srcs
  if !r.held then
    if g.cls == 0 && m.on R.FLT_CTL_AUTONOTE then
      { m with flt := { m.flt with srcs := tput g.src (g.toRec m false) m.flt.srcs } }
    else
      let rc := (g.src :: m.flt.recent.filter (· != g.src)).take 16
      captured g { m with flt := { m.flt with srcs := tput g.src (g.toRec m true) m.flt.srcs, recent := rc } }
  else
    let m := assertEvent 0x043 (m.incSat R.FLT_LOSTCNT_LOST)
    if 2 ≤ g.cls && !(tget {} g.cls m.flt.clss).held then
      captured g { m with flt := { m.flt with clss := tput g.cls (g.toRec m true) m.flt.clss } }
    else m

/-- What a message sends to the group (R386): SPOIL for a group sheet, STOP when a class 3 or 4 record opens. -/
def groupEffects (g : Msg) (wasOpen : Bool) (m : Mach) : Mach :=
  if g.fromGroup || groupRole m = 0 then m
  else if g.cls = 1 && groupSheet g.sid m then frameSend (groupFrame 4 [BitVec.ofNat 32 g.sid.toNat] m) m
  else if 3 ≤ g.cls && !wasOpen then frameSend (groupFrame 5 [BitVec.ofNat 32 (m.get R.FJL_NODE_ADDR)] m) m
  else m

/-- What a fault message does to the collector, the ledger and the outputs, whether it is captured or lost (R363). -/
def deliverNow (g : Msg) (m : Mach) : Mach :=
  let wasOpen := classOpen g.cls m
  let m := when (2 ≤ g.cls) (fun m => { m with flt := { m.flt with last := g.toRec m false } }) m
  groupEffects g wasOpen (classEffects g (collect g m))

/-! ## The windows of the watches (R42, R430) -/

/-- The end of the image as an offset of a watch's base: 64 x LINES counts, or LINES x LINETK / 65,536 TICKs, rounded
down where it does not divide (DESIGN CHOICE, log entry 45). -/
def trailOffset (m : Mach) (w : Nat) (sh : Sheet) : Nat :=
  if !m.on (R.SLU_WATCH_CFG_TRAIL w) then 0
  else if m.on (R.SLU_WATCH_CFG_BASE w) then 64 * sh.lines
  else sh.lines * m.get (R.SLU_SPD_LINETK sh.speed) / 65536

/-- The base is known: T_c from the ADMIT, CPPC from the catch. -/
def baseKnown (m : Mach) (w : Nat) (sh : Sheet) : Bool := !m.on (R.SLU_WATCH_CFG_BASE w) || sh.state != .admitted

/-- The watch waits for this record's edge. -/
def watchOpen (w : Nat) (sh : Sheet) : Bool := sh.state.engaged && bitOf sh.watches w && !bitOf sh.judged w

/-- A stamp's distance from the base of a record's window. -/
def stampOffset (m : Mach) (w : Nat) (sh : Sheet) (tick : Tick) (ppc : Ppc) : Int :=
  if m.on (R.SLU_WATCH_CFG_BASE w) then ppcDiff ppc.toNat (sh.cppc.toNat + trailOffset m w sh)
  else (tick.toNat : Int) - (sh.catchT.toNat + trailOffset m w sh : Nat)

/-- The stamp lies inside the record's window. -/
def inWindow (m : Mach) (w : Nat) (sh : Sheet) (e : SnsEdge) : Bool :=
  let d := stampOffset m w sh e.tick e.ppc
  baseKnown m w sh && m.getI (R.SLU_WATCH_OPEN w) ≤ d && d ≤ m.getI (R.SLU_WATCH_CLOSE w)

/-- The record of a list whose catch comes first. -/
def earliest (m : Mach) (l : List Nat) : Option Nat :=
  l.foldl (fun best r =>
    match best with
    | none => some r
    | some b => if (m.sheet r).catchT.toNat < (m.sheet b).catchT.toNat then some r else some b) none

/-- Reports a judgement in STAT. -/
def watchStat (w : Nat) (sid : Sid) (failed : Bool) (m : Mach) : Mach :=
  (m.set (R.SLU_WATCH_STAT_SID w) sid.toNat).set (R.SLU_WATCH_STAT_FAILED w) (b2n failed)

/-- A watch is satisfied for a record (R42): the transition it holds is taken by `advanceAll`. -/
def watchOk (w r : Nat) (m : Mach) : Mach :=
  let sh := m.sheet r
  let m := watchStat w sh.sid false m
  m.setSheet r { sh with judged := setBit sh.judged w,
                         heldFuse := sh.heldFuse || m.on (R.SLU_WATCH_CFG_FUSE w),
                         heldTerm := sh.heldTerm || m.on (R.SLU_WATCH_CFG_TERM w) }

/-- Class of a failure: 2 or 3, other values acting as 3 (Table 1.12). -/
def watchClass (w : Nat) (m : Mach) : Nat := if m.get (R.SLU_WATCH_CFG_CLASS w) = 2 then 2 else 3

/-- A watch fails, naming a record if there is one (R42): the record ends JAMMED, or goes back to READY before its
lock point, and the fault of the watch's class is raised. -/
def watchFail (w : Nat) (r : Option Nat) (m : Mach) : Mach :=
  let cls := watchClass w m
  let msg (sid : Sid) : Msg := { src := 0x071, kind := 0x02, cls := cls, sid := sid, param := BitVec.ofNat 40 w }
  match r with
  | none => deliverNow (msg 0) (watchStat w 0 true m)
  | some r =>
    let sh := m.sheet r
    let m := m.setSheet r { sh with judged := setBit sh.judged w }
    let m := watchStat w sh.sid true m
    deliverNow (msg sh.sid) (if sh.state == .admitted && !pastLock sh m then sheetTo r .ready m
      else sheetTo r .jammed (m.setSheet r ((m.sheet r).blame 0x071 0x02 cls)))

/-- What an edge is to a watch (R430): it satisfies a record's window, it is stray and names the next sheet due if
there is one, it is held until that sheet's catch, or the watch does not look at it. -/
inductive Verdict where
  | sat (r : Nat)
  | stray (r : Option Nat)
  | held
  | unseen
  deriving DecidableEq, Repr

/-- Judges an edge for one watch (R430): the earliest window that holds it claims it; else, before the catch of the
next sheet due, the edge is held. -/
def judgeEdge (w : Nat) (e : SnsEdge) (m : Mach) : Verdict :=
  let due := (recsIn (·.engaged) m).filter fun r => watchOpen w (m.sheet r)
  match earliest m (due.filter fun r => inWindow m w (m.sheet r) e), earliest m due with
  | some r, _ => .sat r
  | none, some r => if (m.sheet r).state == .admitted then .held else .stray (some r)
  | none, none => if m.on (R.SLU_WATCH_CFG_EN w) then .stray none else .unseen

/-- Acts on a verdict. -/
def actOn (p : Nat × SnsEdge) (v : Verdict) (m : Mach) : Mach :=
  match v with
  | .sat r => watchOk p.1 r m
  | .stray r => watchFail p.1 r m
  | .held => { m with heldEdges := m.heldEdges ++ [p] }
  | .unseen => m

/-- Takes the held transitions of every record, after the failures of the same cycle have acted (R26). -/
def advanceAll (m : Mach) : Mach := each (recsIn (·.engaged) m) sheetAdvance m

/-- Judges the held edges once more, each against what those before it left. -/
def settlePass (m : Mach) : Mach :=
  advanceAll (each m.heldEdges (fun p m => actOn p (judgeEdge p.1 p.2 m) m) { m with heldEdges := [] })

/-- Judges the edges that were held, now that windows have been placed or records have gone (R430); a failure may free
a further edge. -/
def settleEdges (m : Mach) : Mach := (List.range m.heldEdges.length).foldl (fun m _ => settlePass m) m

/-- A class 4 trip has stopped the polygons: the locks that stand fall, naming no sheet, as none is caught any more (R233,
R365). -/
def locksDrop (m : Mach) : Mach :=
  each ((List.range m.nStn).filter fun s => m.on (R.VID_PLOCK_LOCK s))
    (fun s m => deliverNow { src := vidSrc s 3, kind := 0x0D, cls := 0, sid := 0 } (lockDrop s m)) m

/-- A fault message reaches the collector (R363); an edge held for a sheet that a fault sends back to READY is then
judged, and a capture that the message triggers begins. -/
def deliver (g : Msg) (m : Mach) : Mach :=
  snapTry (when (0 < g.cls) settleEdges (when (g.cls == 4) locksDrop (deliverNow g m)))

/-- A hardware fault of a source. -/
def raise (src kind cls : Nat) (m : Mach) (sid : Sid := 0) (param : Nat := 0) : Mach :=
  deliver { src := src, kind := kind, cls := cls, sid := sid, param := BitVec.ofNat 40 param } m

/-- A class 0 note. -/
def note (src kind param : Nat) (m : Mach) : Mach := raise src kind 0 m 0 param

/-- The source of a register block's notes: block * 16, unit 0. -/
def blockSrc (key : Nat) : Nat := key / 65536 * 16

end Sys2Proof.Machine
end

