-- ==== Sys2Proof/Machine/Registers.lean ====
section
/-! DEFINITION. How a register write behaves: rights (Table 3.7), access codes (Table 0.3), classes and staging
(R15-R17), and the boundaries at which staged values take effect. -/

namespace Sys2Proof.Machine

/-! ## Sources of a block's notes -/

/-- A block number of Table 3.6. -/
def blockAssigned (b : Nat) : Bool := !(blockRows b).isEmpty

/-- The fault source of the unit a register belongs to (R358, Table 13.2). No block owns an offset outside Table 3.6:
its notes come from SYS (DESIGN CHOICE, log entry 45). -/
def regSrc (key : Nat) : Nat :=
  let b := key / 65536
  let o := key % 65536
  let split (n lo hi : Nat) : Nat := if n < 16 then lo * 16 + n else hi * 16 + (n - 16)
  if !blockAssigned b then 0
  else if b = 0x01 && 0x100 ≤ o && o < 0x1E0 then 0x010 + (o - 0x100) / 0x20
  else if b = 0x09 && o < 0x1800 then split (o / 0x100) 0x09 0x0F
  else if b = 0x0D then 0x0D0 + min (o / 0x1000) 8
  else if b = 0x18 && 0x100 ≤ o && o < 0x400 then 0x180 + (o - 0x100) / 0x40
  else if b = 0x18 && 0x400 ≤ o && o < 0x480 then 0x180 + 12 + (o - 0x400) / 0x20
  else if b = 0x19 && 0x100 ≤ o && o < 0xB00 then split ((o - 0x100) / 0x80) 0x19 0x17
  else if b = 0x1A && 0x100 ≤ o && o < 0x380 then 0x1A0 + (o - 0x100) / 0x80
  else if b = 0x1B && 0x100 ≤ o && o < 0x300 then 0x1B0 + (o - 0x100) / 0x40
  else if b = 0x1C && 0x100 ≤ o && o < 0x400 then 0x1C0 + (o - 0x100) / 0x40
  else if b = 0x1D && 0x100 ≤ o && o < 0x280 then split ((o - 0x100) / 0x10) 0x1D 0x16
  else b * 16

/-- A class 0 note about a register. -/
def regNote (kind key : Nat) (m : Mach) : Mach := note (regSrc key) kind (0x40000000 + key) m

/-- write-ignored about a register. -/
def ignored (key : Nat) (m : Mach) : Mach := regNote 0x3C key m

/-! ## Rights -/

/-- Table 3.7: may this requester write this register? `staged` is a write by a commit (R22). A DMA channel and the
Scull engine have the rights of a Cox context without an own core (log entry 29). -/
def mayWrite (q : Requester) (staged : Bool) (key : Nat) : Bool :=
  let b := key / 65536
  match q with
  | .ctx c _ =>
    let sup := c == 8
    match b with
    | 0x05 => false
    | 0x00 | 0x21 | 0x22 => sup
    | 0x0D => sup || key % 65536 == c * 0x1000 + 8
    | 0x07 => staged
    | _ => true
  | .host => b == 0x08 || b == 0x09
  | _ => !(b == 0x00 || b == 0x05 || b == 0x07 || b == 0x0D || b == 0x21 || b == 0x22)

/-- The power domain that a register lives in (Table 12.1). -/
def domainOf (key : Nat) : Nat :=
  let b := key / 65536
  match b with
  | 0x0A => 9
  | 0x0B => 11
  | 0x0D => if key % 65536 / 0x1000 = 8 then 1 else 2
  | 0x0E => 3
  | 0x10 => 4 | 0x11 => 5 | 0x12 => 6 | 0x13 => 7 | 0x14 => 8
  | 0x22 => 10
  | _ => 0

/-- The register's domain is up. -/
def regUp (key : Nat) (m : Mach) : Bool := let d := domainOf key; d == 0 || domUp d m

/-- A register exists at this offset on this part. -/
def regExists (key : Nat) (m : Mach) : Bool := (rowAt key).isSome && !absentReg m key

/-! ## The enable that governs a register (R16) -/

/-- A slot's own pool entries include entry e (R200). -/
def poolUses (m : Mach) (n e : Nat) : Bool :=
  let b := m.get (R.SCL_SLOT_BUD_BIND n)
  b ≤ e && e < b + m.get (R.SCL_SLOT_BUD_NIN n) + m.get (R.SCL_SLOT_BUD_NOUT n)

/-- The slots that are enabled; a slot never written is not. -/
def slotsOn (m : Mach) : List Nat := slotHits m.regs 0x00 fun w => bitsOf w 0 0 == 1

/-- The slot that owns Y words of a group (GCFG.YOWN). -/
def yOwner (g : Nat) (m : Mach) : Nat := m.get (R.SCL_GCFG_YOWN g)

/-- The enable that governs the locked and staged fields of a register is 1 (R16). -/
def govOn (key : Nat) (m : Mach) : Bool :=
  let o := key % 65536
  match key / 65536 with
  | 0x01 => 0x100 ≤ o && o < 0x1E0 && m.on (R.CLK_SYN_CFG_EN ((o - 0x100) / 0x20))
  | 0x02 => m.get R.PWR_SEQSTAT_STATE != 0
  | 0x03 => m.on R.THM_CTL_EN
  | 0x04 => m.on R.FLT_ALIVE_EN
  | 0x06 => m.on R.SNAP_CTL_HSFEN
  | 0x07 => m.on R.SLU_CTL_EN
  | 0x08 => m.on (R.RING_CFG_EN (o / 0x20))
  | 0x09 => if o < 0x1800 then m.on (R.DMA_CFG_EN (o / 0x100)) else m.on R.DATU_CFG_EN
  | 0x0A => m.on R.DRC_CFG_EN
  | 0x0B => m.on R.PEAT_CTL_EN
  | 0x0D => m.on (R.COX_CFG_EN (o / 0x1000))
  | 0x0E =>
    if 0x400 ≤ o && o < 0x1C00 then m.on (R.SCL_SLOT_CTL_EN ((o - 0x400) / 0x40))
    else if 0x1C00 ≤ o && o < 0x2C00 then (slotsOn m).any fun n => poolUses m n ((o - 0x1C00) / 8)
    else if 0x3200 ≤ o && o < 0x3800 then
      let n := yOwner ((o - 0x3200) / 0x80) m
      n < 96 && m.on (R.SCL_SLOT_CTL_EN n)
    else m.on R.SCL_CTL_EN
  | 0x10 => m.on (R.VID_CTL_EN 0)
  | 0x11 => m.on (R.VID_CTL_EN 1)
  | 0x12 => m.on (R.VID_CTL_EN 2)
  | 0x13 => m.on (R.VID_CTL_EN 3)
  | 0x14 => m.on (R.VID_CTL_EN 4)
  | 0x18 =>
    if o < 0x400 then m.on (R.FBK_CFG_EN ((o - 0x100) / 0x40)) else m.on (R.FBK_SSI_CFG_EN ((o - 0x400) / 0x20))
  | 0x19 => if o < 0x100 then m.on R.MOT_CTL_EN else m.on (R.MOT_CFG_EN ((o - 0x100) / 0x80))
  | 0x1A => m.on (R.POLY_CFG_EN ((o - 0x100) / 0x80))
  | 0x1B => if o < 0x100 then m.on R.SRV_BRKCFG_BEN else m.on (R.SRV_CFG_EN ((o - 0x100) / 0x40))
  | 0x1C => m.on (R.STP_CFG_EN ((o - 0x100) / 0x40))
  | 0x1D => if o < 0x100 then m.on R.HV_CTL_EN else m.on (R.HV_CFG_EN ((o - 0x100) / 0x10))
  | 0x1E => m.on R.FUS_CTL_EN
  | 0x1F => m.on R.SNS_CTL_EN
  | 0x20 => m.on R.FJL_CTL_EN
  | 0x22 => m.on R.PCIE_CFG_LINKEN
  | 0x24 => if 0x400 ≤ o && o < 0x600 then m.on R.ADC_MKCTL_MKEN else m.on R.ADC_CTL_EN
  | _ => false

/-! ## Access code and class as a unit has them -/

/-- The access code of a field of this unit. -/
def fldAcc (key : Nat) (f : Fld) (m : Mach) : Acc :=
  if key == 0x010100 && f.lo == 0 then .ro
  else if key == (R.SLU_SDIST 0).key then .ro
  else if m.on R.SLU_CTL_EN && inGroup key 0x19 0x100 0xB00 && ((key % 65536 - 0x100) % 0x80 == 0x1C || (key % 65536 - 0x100) % 0x80 == 0x20)
      && (key % 65536 - 0x100) / 0x80 == 8 + m.get R.SLU_CTL_GATEAX then .ro
  else f.acc

/-- The class of a field of this unit. -/
def fldCls (key : Nat) (f : Fld) : Cls :=
  if inGroup key 0x01 0x100 0x140 && key % 0x20 == 0x04 then .locked
  else if inGroup key 0x0D 0x8200 0x8300 then .live
  else f.cls

/-- Bits of a register whose class is in a list. -/
def clsMask (cs : List Cls) (key : Nat) : Word :=
  match rowAt key with
  | none => 0
  | some (d, _) => d.flds.foldl (fun w f => if cs.contains (fldCls key f) then withBits w f.hi f.lo (2 ^ 32 - 1) else w) 0

/-! ## Staging -/

/-- Stages a value for bits of a register (R17: it replaces what was pending). -/
def stage (key : Nat) (mask v : Word) (m : Mach) : Mach :=
  let p := tget (0, 0) key m.pend
  { m with pend := tput key (p.1 ||| mask, (p.2 &&& ~~~mask) ||| (v &&& mask)) m.pend }

/-- Drops what is pending for bits of a register. -/
def unstage (key : Nat) (mask : Word) (m : Mach) : Mach :=
  let p := tget (0, 0) key m.pend
  let rest := p.1 &&& ~~~mask
  { m with pend := if rest = 0 then tdel key m.pend else tput key (rest, p.2) m.pend }

/-- Puts pending bits of one register into effect. -/
def applyKey (key : Nat) (mask : Word) (m : Mach) : Mach :=
  let p := tget (0, 0) key m.pend
  let sel := p.1 &&& mask
  if sel = 0 then m else unstage key sel (m.setWord key ((m.word key &&& ~~~sel) ||| (p.2 &&& sel)))

/-- The station a staged field is tied to (Table 0.4); none for a field of another unit. -/
def stationOf (key : Nat) : Option Nat :=
  let b := key / 65536
  if 0x10 ≤ b && b < 0x15 then some (b - 0x10)
  else if inGroup key 0x01 0x140 0x1E0 then some ((key % 65536 - 0x100) / 0x20 - 2)
  else none

/-- Puts into effect what station s has pending in fields of these classes. -/
def applyStation (s : Nat) (cs : List Cls) (m : Mach) : Mach :=
  each ((m.pend.map (·.1)).filter fun k => stationOf k == some s) (fun k => applyKey k (clsMask cs k)) m

/-- Puts into effect the sample-class fields of a slot, its Y words included. -/
def applySlot (n : Nat) (m : Mach) : Mach :=
  let own (k : Nat) : Bool :=
    inGroup k 0x0E (0x400 + 0x40 * n) (0x440 + 0x40 * n)
    || (inGroup k 0x0E 0x3200 0x3800 && yOwner ((k % 65536 - 0x3200) / 0x80) m == n)
  each ((m.pend.map (·.1)).filter own) (fun k => applyKey k (clsMask [.sample] k)) m

/-- Puts into effect the segment-class fields of an axis. -/
def applyAxis (a : Nat) (m : Mach) : Mach :=
  each ((m.pend.map (·.1)).filter fun k => inGroup k 0x19 (0x100 + 0x80 * a) (0x180 + 0x80 * a))
    (fun k => applyKey k (clsMask [.segment] k)) m

/-- Applies at once every pending value whose governing enable is 0 (Table 0.5). -/
def settlePend (m : Mach) : Mach :=
  each ((m.pend.map (·.1)).filter fun k => !govOn k m) (fun k => applyKey k (2 ^ 32 - 1)) m

/-! ## The write of a register's fields -/

/-- One field of a write: `gov` is the governing enable as it stood before the write. The second result says that a
locked field kept its value against the write (R16). -/
def storeFld (key : Nat) (w : Word) (gov : Bool) (ml : Mach × Bool) (f : Fld) : Mach × Bool :=
  let m := ml.1
  let v := bitsOf w f.hi f.lo
  let fr : FRef := ⟨key, f.hi, f.lo⟩
  let mask := withBits 0 f.hi f.lo (2 ^ 32 - 1)
  if fldReserved key f then ml
  else match fldAcc key f m with
    | .rw =>
      match fldCls key f with
      | .live => (m.set fr v, ml.2)
      | .locked => if gov then (m, ml.2 || v != m.get fr) else (m.set fr v, ml.2)
      | _ => if gov then (stage key mask w m, ml.2) else (unstage key mask (m.set fr v), ml.2)
    | .w1c => (m.setWord key (m.word key &&& ~~~(w &&& mask)), ml.2)
    | _ => ml

/-- Writes every field of a register by its access code and class (R14-R17), with one locked-field note when a
locked field refused. -/
def storeFields (key : Nat) (w : Word) (m : Mach) : Mach :=
  match rowAt key with
  | none => m
  | some (d, _) =>
    let r := d.flds.foldl (storeFld key w (govOn key m)) (m, false)
    when r.2 (regNote 0x3A key) (settlePend r.1)

/-- What comes before the write of any register: rights, existence, domain (R84, R13, R338). The write itself is
`f`. A forbidden write of an unassigned offset of an assigned block is write-denied (DESIGN CHOICE, log entry 45); an
unassigned offset of a block that is down is unassigned. -/
def guarded (q : Requester) (staged : Bool) (key : Nat) (f : Mach → Mach) (m : Mach) : Mach :=
  if blockAssigned (key / 65536) && !mayWrite q staged key then regNote 0x3B key m
  else if !regExists key m then regNote 0x38 key m
  else if !regUp key m then note 0x020 0x02 (0x40000000 + key) m
  else f m

/-- Remembers which slot has written a register last, or that another requester has (R202). -/
def noteWriter (q : Requester) (key : Nat) (m : Mach) : Mach :=
  let ws := tdel key m.scl.writers
  { m with scl := { m.scl with writers := match m.scl.run with
    | some r => if q == .scull then tput key r.slot ws else ws
    | none => ws } }

/-- An envelope guard clamps a quantity that these registers set (R369, R202): its bit of ENV_CLAMP, and ECLAMP of the slot
that has written one of them. -/
def guardClamp (f : FRef) (keys : List Nat) (m : Mach) : Mach :=
  each (keys.filterMap fun k => tfind k m.scl.writers) (fun n m => m.set (R.SCL_SLOT_STAT_ECLAMP n) 1) (m.set f 1)

/-! ## Reads -/

/-- Clears the read-to-clear fields of a register (Table 0.3). The highest UTIL since this read begins with the present
one (R220). -/
def readClear (key : Nat) (m : Mach) : Mach :=
  match rowAt key with
  | none => m
  | some (d, _) =>
    let m := d.flds.foldl (fun m f => if f.acc == .rc then m.set ⟨key, f.hi, f.lo⟩ 0 else m) m
    when (key == R.SCL_LOAD_PEAK.key) (fun m => m.set R.SCL_LOAD_PEAK (sclUtil m)) m

/-- Low words of 64-bit quantities that latch their high word for the reader (R12). -/
def latchesHigh (key : Nat) : Bool :=
  let b := key / 65536
  let o := key % 65536
  (b == 0x01 && (o == 0x10 || o == 0x18)) || (b == 0x20 && (o == 0x0C || o == 0x78))
  || (b == 0x07 && 0x2000 ≤ o && o < 0x6000 && (o % 0x40 == 0x10 || o % 0x40 == 0x20 || o % 0x40 == 0x28))
  || (b == 0x04 && (0x8000 ≤ o || (0x100 ≤ o && o < 0x160)) && o % 0x20 == 0x10)
  || (b == 0x0D && 0x400 ≤ o % 0x1000 && o % 0x1000 < 0x600 && o % 0x10 == 4)
  || (b == 0x0D && 0x100 ≤ o % 0x1000 && o % 0x1000 < 0x180 && o % 0x20 == 0x0C)
  || key == R.SNAP_HSFBASE_LO.key || key == R.DRC_UEADDR_LO_ADDR.key || key == R.ADC_MKPOS_LO_POS.key
  || key == R.SEC_UNITID_LO_ID.key || key == R.PEAT_JSBASE_LO_BASE.key || key == R.DATU_L1BASE_LO_BASE.key
  || (b == 0x09 && o < 0x1800 && (o % 0x100 == 0x14 || o % 0x100 == 0x1C))
  || (b == 0x19 && 0x100 ≤ o && (o - 0x100) % 0x80 == 0x1C) || (b == 0x08 && o % 0x20 == 0x04)
  || key == R.CRC_GADDR_LO_ADDR.key || (b == 0x20 && 0x400 ≤ o && o < 0x800 && o % 0x10 == 4)
  || (b == 0x09 && 0xE000 ≤ o && o < 0xF000 && o % 0x10 == 0)
  || (0x10 ≤ b && b < 0x15 && 0x140 ≤ o && o < 0x1C0 && o % 8 == 0)

/-- Registers of which each requester has its own copy. -/
def perRequester (key : Nat) : Bool :=
  key == R.SLU_OPRES_CODE.key || key == R.FLT_CLRRES_CODE.key || key == R.BMAP_SEL_STN.key
  || key == R.SCL_RCSEL_PAGE.key || key == R.PEAT_JSRES_CODE.key || key == R.SEC_OPRES_CODE.key
  || key == R.FJL_GCRES_CODE.key

end Sys2Proof.Machine
end

