-- ==== Sys2Proof/Machine/Clocks.lean ====
section
/-! DEFINITION. Clock synthesisers, REFCLK and the timebases (chapter 2, R50-R73). -/

namespace Sys2Proof.Machine

/-! ## Synthesisers -/

/-- Codes of Table 2.5. -/
def synOff : Nat := 0
def synAcquire : Nat := 1
def synLocked : Nat := 2
def synCoast : Nat := 3
def synReacq : Nat := 4
def synGated : Nat := 5

/-- A synthesiser's unseen state. -/
def Mach.syn (m : Mach) (k : Nat) : Syn := tget {} k m.clk.syn

/-- Replaces a synthesiser's unseen state. -/
def Mach.setSyn (m : Mach) (k : Nat) (y : Syn) : Mach := { m with clk := { m.clk with syn := tput k y m.clk.syn } }

/-- Synthesisers of the part: PIXPLL4 is absent from the PE-5440 (R2). -/
def synCount (m : Mach) : Nat := 2 + m.nStn

/-- The seed the dither generator loads (Table 2.3: 0 acts as 1). -/
def ditherSeed (k : Nat) (m : Mach) : Nat := max 1 (m.get (R.CLK_SYN_SEED k))

/-- One step of the dither generator: taps x^16 + x^14 + x^13 + x^11 + 1 (R56). The register shifts toward bit 0, as a
Fibonacci register, and its dither bit is bit 0 (DESIGN CHOICE, log entry 45: the rule gives the taps). -/
def ditherStep (n : Nat) : Nat :=
  let b := (n + n / 2 ^ 2 + n / 2 ^ 3 + n / 2 ^ 5) % 2
  n / 2 + b * 2 ^ 15

/-- F as the modulator takes it: the value in use while locked or coasting, else the programmed one (R58). -/
def mashF (k : Nat) (m : Mach) : Nat :=
  let st := m.get (R.CLK_SYN_STAT_STATE k)
  if st == synAcquire || st == synGated then m.get (R.CLK_SYN_F k) else (m.syn k).fUsed

/-- One PFD cycle of the modulator (R52, R56): the fraction, with the dither bit at weight 2^-25 of the ratio, passes
three accumulators, whose carries give the cycle's ratio. The three stages are those of a MASH 1-1-1 as it is known
(PRESUMED, log entry 45). -/
def mashStep (k : Nat) (m : Mach) (y : Syn) : Mash :=
  let h := y.mash
  let s1 := h.a1 + 2 * mashF k m + b2n (m.on (R.CLK_SYN_CFG_DITHEN k) && bitOf y.dither 0)
  let s2 := h.a2 + s1 % 2 ^ 25
  let s3 := h.a3 + s2 % 2 ^ 25
  let c2 := s2 / 2 ^ 25
  let c3 := s3 / 2 ^ 25
  { a1 := s1 % 2 ^ 25, a2 := s2 % 2 ^ 25, a3 := s3 % 2 ^ 25, c2 := c2, c3 := c3, c3' := h.c3,
    div := (m.get (R.CLK_SYN_CFG_NINT k) : Int) + (s1 / 2 ^ 25 : Nat) + ((c2 : Int) - h.c2)
      + ((c3 : Int) - 2 * h.c3 + h.c3') }

/-- On the fall-back clock, pending runs of shed slots are discarded (R199, Table 7.6). -/
def shedPending (m : Mach) : Mach :=
  if m.on R.SCL_STAT_FALLBK && m.on R.SCL_CTL_SHEDEN then
    each (slotHits m.regs 0x00 fun w => bitsOf w 0 0 == 1 && bitsOf w 4 4 == 1) (fun n m => m.set (R.SCL_SLOT_STAT_PEND n) 0) m
  else m

/-- Puts a synthesiser into a state of Table 2.5, with the flags that follow it; ACQUIRE and GATED load the dither
seed and start the modulator afresh, so that equal settings give equal sequences (R56), and the entry to LOCKED takes up the programmed F (Table 2.7). -/
def synTo (k st : Nat) (m : Mach) : Mach :=
  let m := (((m.set (R.CLK_SYN_STAT_STATE k) st).set (R.CLK_SYN_STAT_LOCK k) (b2n (st == synLocked))).set
    (R.CLK_SYN_STAT_COAST k) (b2n (st == synCoast || st == synReacq))).set (R.CLK_SYN_STAT_GATED k) (b2n (st == synGated))
  let y := m.syn k
  let y := if st == synAcquire || st == synGated then { y with dither := ditherSeed k m, pfd := 0, mash := {} } else y
  let y := if st == synLocked then { y with fUsed := m.get (R.CLK_SYN_F k), rampEnd := none } else y
  let m := m.setSyn k y
  when (k == 0) (fun m => shedPending (m.set R.SCL_STAT_FALLBK (b2n (st == synGated)))) m

/-- f_VCO x P x 2^26 / 100 MHz: NINT + (F + 0.25 DITHEN) / 2^24, in units of 2^-26 (R52). -/
def synRatio (k : Nat) (m : Mach) : Nat :=
  m.get (R.CLK_SYN_CFG_NINT k) * 2 ^ 26 + m.get (R.CLK_SYN_F k) * 4 + m.get (R.CLK_SYN_CFG_DITHEN k)

/-- The setting lies within R52 and Table 2.2, so that the synthesiser can reach LOCKED. -/
def synSettable (k : Nat) (m : Mach) : Bool :=
  let p := m.get (R.CLK_SYN_CFG_PDIV k) + 1
  let v := synRatio k m * 100  -- f_VCO in MHz, times p * 2^26
  let u := p * 2 ^ 26
  8 ≤ m.get (R.CLK_SYN_CFG_NINT k) &&
    (if k = 0 then v == 4000 * u else if k = 1 then 1600 * u ≤ v && v ≤ 4267 * u else 400 * u ≤ v && v ≤ 1200 * u)

/-- Station s has a sheet in CAUGHT or IMAGING whose last line it has not yet exposed (R55, Table 2.6). -/
def stationBusy (s : Nat) (m : Mach) : Bool :=
  (recsIn (·.busy) m).any fun r => let sh := m.sheet r; bitOf sh.planes s && !(tget {} s sh.legs).done

/-- Sets TSUSP in every sheet the station is exposing (R61). -/
def suspectSheets (s : Nat) (m : Mach) : Mach :=
  each (recsIn (fun st => st.busy) m) (fun r m =>
    let sh := m.sheet r
    let l := tget {} s sh.legs
    if bitOf sh.planes s && l.begun && !l.done then m.setSheet r { sh with tsusp := true } else m) m

/-- A PIXPLL enters GATED (R61): its island's lanes go idle at once, and a class 1 fault names every ADMITTED sheet that needs its station. -/
def pixGate (k : Nat) (m : Mach) : Mach :=
  let m := synTo k synGated m
  let m := { m with vid := tput (k - 2) { m.vidOf (k - 2) with pulses := [] } m.vid }
  each ((recsIn (· == .admitted) m).filter fun r => bitOf (m.sheet r).planes (k - 2))
    (fun r m => raise (0x010 + k) 0x03 1 m (m.sheet r).sid) m

/-- A PIXPLL enters COAST on its own loss (R61). -/
def pixCoast (k : Nat) (m : Mach) : Mach :=
  let m := synTo k synCoast (m.setSyn k { m.syn k with coastRef := false })
  suspectSheets (k - 2) (note (0x010 + k) 0x03 0 m)

/-- SYSPLL or MEMPLL loses lock with REFCLK present (R60 steps 1 to 3). -/
def mainLoss (k : Nat) (m : Mach) : Mach :=
  let kind := if k = 0 then 0x01 else 0x02
  let m := synTo k synGated m
  let m := when (k == 1 && m.on R.DRC_CFG_EN) (fun m => m.set R.DRC_STAT_SELFREF 1) m
  let m := { m with clk := { m.clk with drain := m.clk.drain ++ [(kind, m.clk.tick)] } }
  let hit := (recsIn (fun st => st == .admitted || st.busy) m).filter fun r => pastLock (m.sheet r) m
  let m := each hit (fun r m => raise (0x010 + k) kind 1 m (m.sheet r).sid) m
  raise (0x010 + k) kind 2 m

/-- A loss of lock judged in LOCKED (R58, Table 2.6). -/
def lockLoss (k : Nat) (m : Mach) : Mach :=
  let m := m.incSat (R.CLK_SYN_STAT_LOSSCNT k)
  if k < 2 then mainLoss k m
  else if stationBusy (k - 2) m then pixCoast k m
  else pixGate k m

/-- A change of F takes effect at its capture instant (R58): within 2,000 ppm it ramps for 50 us, beyond it is a loss
judged against the ratio in use before. -/
def fChanged (k old : Nat) (m : Mach) : Mach :=
  let new := m.get (R.CLK_SYN_F k)
  if old = new || m.get (R.CLK_SYN_STAT_STATE k) != synLocked then m
  else
    let ratio := m.get (R.CLK_SYN_CFG_NINT k) * 2 ^ 24 + old
    if (if new < old then old - new else new - old) * 500 ≤ ratio then
      m.setSyn k { m.syn k with fUsed := new, rampEnd := some (BitVec.ofNat 64 (m.now + usTicks 50)) }
    else lockLoss k m

/-- Applies what a station has pending in these classes, a new F with its consequences. -/
def applyAt (s : Nat) (cs : List Cls) (m : Mach) : Mach :=
  let old := m.get (R.CLK_SYN_F (2 + s))
  fChanged (2 + s) old (applyStation s cs m)

/-- A write of a synthesiser's CFG word (R55, R59). -/
def synCfgWrite (k : Nat) (v : Word) (m : Mach) : Mach :=
  let key := (R.CLK_SYN_CFG_EN k).key
  let was := m.on (R.CLK_SYN_CFG_EN k)
  let on := (R.CLK_SYN_CFG_EN k).of v == 1
  let refused := was && !on && ((k == 1 && domUp 9 m) || (2 ≤ k && stationBusy (k - 2) m))
  if refused then ignored key m
  else
    let m := storeFields key v m
    if k = 0 then m
    else if on && !was then synTo k synAcquire m
    else if was && !on then synTo k synOff m
    else m

/-- A write of a synthesiser's F word: staged for a PIXPLL that is enabled, at once otherwise (Table 2.3). -/
def synFWrite (k : Nat) (v : Word) (m : Mach) : Mach :=
  let old := m.get (R.CLK_SYN_F k)
  fChanged k old (storeFields (R.CLK_SYN_F k).key v m)

/-- SYNTH_ENABLE (R59). -/
def opSynthEnable (q : Requester) (k : Nat) (v : Word) (m : Mach) : Mach :=
  guarded q false (R.CLK_SYN_CFG_EN k).key (synCfgWrite k (withBits v 0 0 1)) m

/-- SYNTH_DISABLE (R55). -/
def opSynthDisable (q : Requester) (k : Nat) (v : Word) (m : Mach) : Mach :=
  guarded q false (R.CLK_SYN_CFG_EN k).key (synCfgWrite k (withBits v 0 0 0)) m

/-- SYNTH_LOCK (R58): the lock condition has held for LOCKN x 16 cycles. The DRAM is trained again after a loss that
gated MEMPLL, not after a coast (R60, R313). -/
def opSynthLock (k : Nat) (m : Mach) : Mach :=
  let st := m.get (R.CLK_SYN_STAT_STATE k)
  if (st == synAcquire || st == synGated || st == synReacq) && m.clk.refclk && synSettable k m then
    let m := synTo k synLocked m
    when (k == 1 && st == synGated && m.on R.DRC_CFG_EN) (fun m =>
      { (m.set R.DRC_STAT_TRAINED 0).set R.DRC_STAT_RTDUE 0 with dram := { m.dram with retrain := false } }) m
  else m

/-- A change of F is being followed: neither criterion can declare a loss (R58). -/
def synRamping (k : Nat) (m : Mach) : Bool := match (m.syn k).rampEnd with | some t => m.now < t.toNat | none => false

/-- SYNTH_LOCK_LOSS (R58): judged only while LOCKED, and not within the ramp of a change of F. -/
def opSynthLockLoss (k : Nat) (m : Mach) : Mach :=
  if m.get (R.CLK_SYN_STAT_STATE k) == synLocked && !synRamping k m then lockLoss k m else m

/-- SYNTH_RAMP_END (R58). -/
def opSynthRampEnd (k : Nat) (m : Mach) : Mach :=
  match (m.syn k).rampEnd with
  | some t => if t.toNat ≤ m.now then m.setSyn k { m.syn k with rampEnd := none } else m
  | none => m

/-- The class 3 message that ends a clock-loss drain (R60 step 4). -/
def drainFault (kind : Nat) (m : Mach) : Mach :=
  raise 0x019 kind 3 { m with clk := { m.clk with drain := m.clk.drain.filter (·.1 != kind) } }

/-- CLOCK_LOSS_DRAIN_END (R60): no record remains in ADMITTED through FUSED. -/
def opClockLossDrainEnd (m : Mach) : Mach :=
  match m.clk.drain with
  | (kind, _) :: _ => if countIn (·.engaged) m = 0 then drainFault kind m else m
  | [] => m

/-- CLOCK_LOSS_DRAIN_TIMEOUT (R60): DRAINTO ms have passed since the loss. -/
def opClockLossDrainTimeout (m : Mach) : Mach :=
  match m.clk.drain with
  | (kind, t) :: _ => if t.toNat + msTicks (m.get R.CLK_DRAIN_DRAINTO) ≤ m.now then drainFault kind m else m
  | [] => m

/-- REFCLK_LOSS (R62). -/
def opRefclkLoss (m : Mach) : Mach :=
  if !m.clk.refclk then m
  else
    let m := { m with clk := { m.clk with refclk := false } }
    let m := each (List.range (synCount m)) (fun k m =>
      let st := m.get (R.CLK_SYN_STAT_STATE k)
      if st == synLocked || st == synReacq then
        let m := synTo k synCoast (m.setSyn k { m.syn k with coastRef := true })
        if 2 ≤ k then suspectSheets (k - 2) m else m
      else m) m
    let m := ((m.set R.CLK_STATUS_REFOK 0).set R.CLK_STATUS_ONOSC 1).set R.CLK_STATUS_TICKCOAST 1
    raise 0x017 0x04 3 m

/-- REFCLK_RETURN (R62, Table 2.6). -/
def opRefclkReturn (m : Mach) : Mach :=
  let m := { m with clk := { m.clk with refclk := true } }
  let m := ((m.set R.CLK_STATUS_REFOK 1).set R.CLK_STATUS_ONOSC 0).set R.CLK_STATUS_TICKCOAST 0
  each (List.range (synCount m)) (fun k m =>
    if m.get (R.CLK_SYN_STAT_STATE k) == synCoast && (m.syn k).coastRef then synTo k synReacq m else m) m

/-! ## Timebases -/

/-- The write of PPCRATE that has been let through (R70). -/
def ppcrateSet (v : Word) (m : Mach) : Mach :=
  let m := (m.setWord R.CLK_PPCRATE.key v).set R.CLK_STATUS_PPCOK 1
  { m with clk := { m.clk with ppcWrite := m.clk.tick } }

/-- PPCRATE_WRITE (R70). -/
def opPpcrateWrite (q : Requester) (v : Word) (m : Mach) : Mach :=
  guarded q false R.CLK_PPCRATE.key (ppcrateSet v) m

/-- Every record in ADMITTED past its lock point through FUSED becomes LOST, for a fault of this source and kind
(Table 1.3); a record before its lock point is left to the class 3 fault that follows. -/
def loseAll (src kind cls : Nat) (m : Mach) : Mach :=
  each ((recsIn (·.engaged) m).filter fun r => let sh := m.sheet r; sh.state != .admitted || pastLock sh m)
    (fun r m => sheetTo r .lost (m.setSheet r ((m.sheet r).blame src kind cls))) m

/-- TRIM as it acts: limited to 1,000 ppm (Table 2.3). -/
def trimOf (m : Mach) : Int := clampI (-4294967) 4294967 (m.getI R.CLK_TRIM)

/-- The enabled slots whose TICK or PPC trigger fires between two values of the timebases (Table 7.1); the later value of
PPC is given before it wraps, so that a multiple is met across the wrap too (R120). -/
def timeTrigs (t0 t1 p0 p1 : Nat) (m : Mach) : List Nat :=
  (slotHits m.regs 0x04 fun w => bitsOf w 2 0 == 1 || bitsOf w 2 0 == 2).filter fun n =>
    let per := m.get (R.SCL_SLOT_PER n)
    let ph := m.get (R.SCL_SLOT_PHASE n)
    m.on (R.SCL_SLOT_CTL_EN n) &&
      (if m.get (R.SCL_SLOT_TRIG_SRC n) = 1 then multipleIn (max per 1000) ph t0 t1
       else if p1 < 2 ^ 48 then multipleIn per ph p0 p1
       else multipleIn per ph p0 (2 ^ 48 - 1) || (ph = 0 && per != 0) || multipleIn per ph 0 (p1 - 2 ^ 48))

/-- One REFCLK cycle of a synthesiser that is on: its PFD runs at REFCLK / P; at each PFD cycle the dither generator and
the modulator advance (R52, R56), and the control value moves unless it is frozen in COAST (R54, R58). Without REFCLK
there is no PFD cycle. -/
def pfdCycle (k : Nat) (m : Mach) : Mach :=
  let st := m.get (R.CLK_SYN_STAT_STATE k)
  if m.clk.refclk && st != synOff then
    let y := m.syn k
    if m.get (R.CLK_SYN_CFG_PDIV k) ≤ y.pfd then
      let y := { y with mash := mashStep k m y, dither := ditherStep y.dither, pfd := 0 }
      if st == synCoast then m.setSyn k y else m.free.2.setSyn k { y with cval := m.free.1.truncate 16 }
    else m.setSyn k { y with pfd := y.pfd + 1 }
  else m

/-- The islands of SYSPLL run from it. -/
def sysRuns (m : Mach) : Bool :=
  let st := m.get (R.CLK_SYN_STAT_STATE 0)
  st == synLocked || st == synCoast || st == synReacq

/-- The fabric runs from the internal 25 MHz oscillator: REFCLK is lost, and SYSPLL does not run (Tables 2.1 and 2.7).
Before REFCLK first qualifies the fall-back source is REFCLK itself (log entry 45). -/
def onOscillator (m : Mach) : Bool := m.on R.CLK_STATUS_TICKCOAST && !sysRuns m

/-- One application of the rule of R66 and R69: TICK takes 1 + TRIM through its accumulator, PPC takes PPCRATE per
integer step, and slots triggered by TICK or PPC fall due. -/
def tickRule (m : Mach) : Mach :=
  let c := m.clk
  let acc := ((c.tickFrac.toNat : Int) + 2 ^ 32 + trimOf m).toNat
  let inc := acc / 2 ^ 32
  let ppc := c.ppc.toNat * 2 ^ 32 + c.ppcFrac.toNat + m.get R.CLK_PPCRATE * inc
  let m' := { m with clk := { c with tick := c.tick + BitVec.ofNat 64 inc, tickFrac := BitVec.ofNat 32 acc,
                                     ppc := BitVec.ofNat 48 (ppc / 2 ^ 32), ppcFrac := BitVec.ofNat 32 ppc } }
  markTrig (timeTrigs c.tick.toNat m'.now c.ppc.toNat (ppc / 2 ^ 32) m') m'

/-- The core clocks run on: five cycles to 10 ns from SYSPLL, one from REFCLK. -/
def coreCycles (n : Nat) (m : Mach) : Mach := { m with clk := { m.clk with cycles := m.clk.cycles + BitVec.ofNat 64 n } }

/-- One period of the clock that TICK is advanced from: 10 ns with one application of the rule, or, with the fabric on
the internal oscillator, one of its cycles with four (R66). -/
def tickAdvance (m : Mach) : Mach :=
  let m :=
    if onOscillator m then coreCycles 1 (tickRule (tickRule (tickRule (tickRule m))))
    else coreCycles (if sysRuns m then 5 else 1) (tickRule m)
  each (List.range (synCount m)) pfdCycle m

end Sys2Proof.Machine
end

