-- ==== Sys2Proof/Machine/Flags.lean ====
section
/-! DEFINITION. Comparisons, saturation and products of the Meper ALU group (Table 4.3) and the branch conditions.
Meper has no flags: a comparison writes 0 or 1 to its destination. -/

namespace Sys2Proof.Machine

/-- 1 or 0 as a word: the result of SLT, SLTU, SLTI and SLTIU. -/
def boolWord (b : Bool) : Word := if b then 1 else 0

/-- Signed saturation of an integer to 32 bits (ADDS, SUBS). -/
def satWord (i : Int) : Word := BitVec.ofInt 32 (clampI (-(2 ^ 31)) (2 ^ 31 - 1) i)

/-- SATS: rs1 limited to -2^u to 2^u - 1. -/
def satSigned (a : Word) (u : Nat) : Word := BitVec.ofInt 32 (clampI (-(2 ^ u)) (2 ^ u - 1) a.toInt)

/-- SATU: rs1 as signed, limited to 0 to 2^u - 1. -/
def satUnsigned (a : Word) (u : Nat) : Word := BitVec.ofInt 32 (clampI 0 (2 ^ u - 1) a.toInt)

/-- Number of leading zero bits of a word, 0 to 32. -/
def leadZeros (a : Word) : Nat := 32 - (if a.toNat = 0 then 0 else Nat.log2 a.toNat + 1)

/-- High word of the signed product. -/
def mulHigh (a b : Word) : Word := BitVec.ofInt 32 (a.toInt * b.toInt / 2 ^ 32)

/-- High word of the unsigned product. -/
def mulHighU (a b : Word) : Word := BitVec.ofNat 32 (a.toNat * b.toNat / 2 ^ 32)

end Sys2Proof.Machine
end

