-- ==== Sys2Proof/Machine/Operands.lean ====
section
/-! DEFINITION. Operand forms of the Meper formats (Table 4.1): general registers, immediates, branch offsets and
the addresses of near and far accesses (R112). -/

namespace Sys2Proof.Machine

/-- General register r; g0 reads 0 (R108). -/
def Ctx.g (c : Ctx) (r : Nat) : Word := if r = 0 then 0 else tget 0 r c.regs

/-- Writes general register r; a write to g0 is discarded (R108). -/
def Ctx.setG (c : Ctx) (r : Nat) (v : Word) : Ctx := if r = 0 then c else { c with regs := tput r v c.regs }

/-- imm16, sign-extended. -/
def immS (i : BitVec 16) : Word := i.signExtend 32

/-- imm16, zero-extended. -/
def immZ (i : BitVec 16) : Word := i.zeroExtend 32

/-- The target of a branch: off16 words from the branch. -/
def branchTo (pc : Word) (off : BitVec 16) : Word := pc + (off.signExtend 32 <<< 2)

/-- The target of JAL: off26 words from the instruction. -/
def jumpTo (pc : Word) (off : BitVec 26) : Word := pc + (off.signExtend 32 <<< 2)

/-- Address of a near access (R112). -/
def nearAddr (c : Ctx) (rs1 : Nat) (imm : BitVec 16) : Nat := (c.g rs1 + immS imm).toNat

/-- Address of a far access: FARHI in bits [39:32] (R112). -/
def farAddr (c : Ctx) (rs1 : Nat) (imm : BitVec 16) : Nat := c.farhi.toNat * 2 ^ 32 + (c.g rs1 + immS imm).toNat

/-- The 64-bit target of a TICK wait or commit, the 48-bit target of a PPC one (R121, Table 4.6). -/
def pairTarget (c : Ctx) (rs1 rs2 : Nat) (bits : Nat) : BitVec 64 :=
  BitVec.ofNat 64 ((c.g rs2).toNat % 2 ^ (bits - 32) * 2 ^ 32 + (c.g rs1).toNat)

end Sys2Proof.Machine
end

