-- ==== Sys2Proof/Machine/Cox.lean ====
section
/-! DEFINITION. The cores (chapter 3): contexts, pre-emption and parking (R76-R79, R87-R89), comparators' ends and
pins (R90-R93), events (R94), and the resolution of commits (R96, R101, R102). -/

namespace Sys2Proof.Machine

/-- Index of context k of a core. -/
def cix (core k : Nat) : Nat := core * 4 + k

/-- Applies a change to a context. -/
def Mach.modCtx (m : Mach) (i : Nat) (f : Ctx → Ctx) : Mach := m.setCtx i (f (m.ctx i))

/-! ## Which context runs (R77, R78) -/

/-- The context of a core that is RUNNING, if any. -/
def runningOf (core : Nat) (m : Mach) : Option Nat :=
  (List.range 4).find? fun k => (m.ctx (cix core k)).state == .running

/-- Two contexts became READY in the same core cycle, and neither has completed an instruction since (R79). -/
def together (a b : Ctx) : Bool := a.woken.isSome && a.woken == b.woken

/-- Is READY context a ahead of READY context b, of a lower number: higher priority, then longer READY; the lower number
goes first when both became READY in one cycle (R79). -/
def aheadOf (a b : Ctx) : Bool := b.prio < a.prio || (a.prio == b.prio && a.readyAt < b.readyAt && !together a b)

/-- The READY context of a core that goes first, if any. -/
def readyFirst (core : Nat) (m : Mach) : Option Nat :=
  (List.range 4).foldl (fun best k =>
    let c := m.ctx (cix core k)
    if c.state != .ready then best
    else match best with
      | none => some k
      | some b => if aheadOf c (m.ctx (cix core b)) then some k else best) none

/-- Makes a context READY, as the latest to become so; `woken` says in which cycle an event did it. -/
def becomeReady (i : Nat) (woken : Option (BitVec 64)) (m : Mach) : Mach :=
  let m := m.modCtx i fun c => { c with state := .ready, wait := .none, readyAt := m.cox.readyClock, woken := woken }
  { m with cox := { m.cox with readyClock := m.cox.readyClock + 1 } }

/-- An event makes a context READY. -/
def makeReady (i : Nat) (m : Mach) : Mach := becomeReady i (some m.clk.cycles) m

/-- A RUNNING context loses the core: it is READY, or, with an access issued and not answered, waits for it (R78). The
code it shows meanwhile is WAITING (DESIGN CHOICE, log entry 45: Table 3.2 has no other for it). -/
def loseCore (i : Nat) (m : Mach) : Mach :=
  if (m.ctx i).issued then m.modCtx i fun c => { c with state := .waiting, wait := .access } else becomeReady i none m

/-- Gives the core to context k; the context that held it loses it. -/
def switchTo (core k : Nat) (m : Mach) : Mach :=
  let m := match runningOf core m with
    | some j => loseCore (cix core j) m
    | none => m
  m.modCtx (cix core k) fun c => { c with state := .running }

/-- The instruction boundary (R77): the READY or RUNNING context of highest priority runs, the RUNNING one keeping the
core among equals, unless both became READY in one cycle and the other has the lower number (R79). -/
def resched (core : Nat) (m : Mach) : Mach :=
  match readyFirst core m, runningOf core m with
  | some k, none => switchTo core k m
  | some k, some j =>
    let a := m.ctx (cix core k)
    let b := m.ctx (cix core j)
    if b.prio < a.prio || (a.prio == b.prio && together a b && k < j) then switchTo core k m else m
  | none, _ => m

/-! ## Comparators -/

/-- Disarms every comparator of a core that satisfies p. -/
def disarmIf (core : Nat) (p : Cmp → Bool) (m : Mach) : Mach :=
  each (List.range (cmpCount core)) (fun n m =>
    let c := m.cmp (core * 32 + n)
    if c.armed && p c then m.setCmp (core * 32 + n) { c with armed := false } else m) m

/-- A timebase has reached a target (R120): 0 TICK, 1 PPC, 2 STROKEs, 3 LINEs. -/
def baseReached (base stn : Nat) (tgt : BitVec 64) (m : Mach) : Bool :=
  match base with
  | 0 => tgt.toNat ≤ m.now
  | 1 => ppcReached m.ppcNow (tgt.toNat % 2 ^ 48)
  | 2 => cntReached (m.get (R.CLK_TB_STROKE stn)) (tgt.toNat % 2 ^ 32)
  | _ => cntReached (m.get (R.CLK_TB_LINE stn)) (tgt.toNat % 2 ^ 32)

/-- Drives a general output from a comparator; a pin not under comparator control discards the action (R428). -/
def pinDrive (pin : Nat) (lvl : Bool) (m : Mach) : Mach :=
  if m.get (R.PIN_GPCFG_MODE pin) = 2 then { m with gp := if lvl then setBit m.gp pin else clrBit m.gp pin }
  else ignored (R.PIN_GPCFG_MODE pin).key m

/-- A write of GPCFGn: an output that enters MODE 2 starts at OUT; in MODE 2 it keeps its level (R427, R428). -/
def gpCfgWrite (n : Nat) (w : Word) (m : Mach) : Mach :=
  let was := m.get (R.PIN_GPCFG_MODE n)
  let m := storeFields (R.PIN_GPCFG_MODE n).key w m
  if was != 2 && m.get (R.PIN_GPCFG_MODE n) = 2 then
    { m with gp := if m.on (R.PIN_GPCFG_OUT n) then setBit m.gp n else clrBit m.gp n }
  else m

/-- The pin actions of Table 3.9. -/
def pinAction (i : Nat) (m : Mach) : Mach :=
  let c := m.cmp i
  let lvl := bitOf m.gp c.pin
  match c.action with
  | 1 => pinDrive c.pin true m
  | 2 => pinDrive c.pin false m
  | 3 => pinDrive c.pin (!lvl) m
  | 4 =>
    let back := match tfind c.pin c.pulses with | some (_, b) => b | none => lvl
    let m := pinDrive c.pin (!back) m
    if m.get (R.PIN_GPCFG_MODE c.pin) = 2 then
      m.setCmp i { m.cmp i with pulses := tput c.pin (BitVec.ofNat 64 (m.now + c.width), back) c.pulses }
    else m
  | _ => m

/-- The target of a periodic comparator after a firing (R90). -/
def nextTarget (c : Cmp) : BitVec 64 :=
  let t := c.tgt.toNat + c.per.toNat
  BitVec.ofNat 64 (match c.base with | 0 => t | 1 => t % 2 ^ 48 | _ => t % 2 ^ 32)

/-- What a firing makes of the comparator (R90): it is armed anew for its next target, or free. Its action comes after,
so that an action which disarms the comparator leaves it disarmed (R93). -/
def rearm (i : Nat) (m : Mach) : Mach :=
  let c := m.cmp i
  m.setCmp i { c with armed := c.periodic, tgt := if c.periodic then nextTarget c else c.tgt }

/-- PINPULSE_END (R90): a pulse of the comparator has run its width. -/
def opPinpulseEnd (core n : Nat) (m : Mach) : Mach :=
  let c := m.cmp (core * 32 + n)
  match c.pulses.find? fun p => p.2.1.toNat ≤ m.now with
  | some (pin, _, lvl) =>
    let m := m.setCmp (core * 32 + n) { c with pulses := tdel pin c.pulses }
    if m.get (R.PIN_GPCFG_MODE pin) = 2 then { m with gp := if lvl then setBit m.gp pin else clrBit m.gp pin } else m
  | none => m

/-! ## Commits -/

/-- Seals the stage buffer as the context's commit (R96); rd receives the sequence number it will have (R127). -/
def sealNow (i : Nat) (b : Boundary) (late : Bool) (rd : Nat) (m : Mach) : Mach :=
  let c := m.ctx i
  let k : Commit := { boundary := b, lateOk := late, entries := c.stage, seq := m.cox.sealClock, sealedAt := m.clk.tick }
  let m := m.setCtx i { (c.setG rd (BitVec.ofNat 32 ((c.cmtSeq + 1) % 256))) with stage := [], slot := some k }
  { m with cox := { m.cox with sealClock := m.cox.sealClock + 1 } }

/-- The end of an instruction: the PC goes on and the instruction counts as completed. -/
def Ctx.retire (c : Ctx) : Ctx := { c with pc := c.pc + 4, iret := c.iret + 1, issued := false, woken := none }

/-- A context that waits in CMT goes on once its slot is free (R96, R127). -/
def commitWakes (i : Nat) (m : Mach) : Mach :=
  match (m.ctx i).wait with
  | .commit b late rd =>
    let m := sealNow i b late rd m
    resched (i / 4) (makeReady i (m.modCtx i Ctx.retire))
  | _ => m

/-- Reports the end of a commit that has left its slot, with a code of Table 3.13 (R101). -/
def resolveWith (i code : Nat) (k : Commit) (m : Mach) : Mach :=
  commitWakes i (m.modCtx i fun c =>
    { c with cmtCode := code, cmtSeq := (c.cmtSeq + 1) % 256, cmtCount := k.entries.length,
             evpend := c.evpend ||| (if code ≤ 1 then 2#32 else 4#32) })

/-- Takes a context's commit out of its slot. -/
def slotEmpty (i : Nat) (m : Mach) : Mach := m.modCtx i fun c => { c with slot := none }

/-- Resolves a context's commit, if it has one, without applying it. -/
def resolve (i code : Nat) (m : Mach) : Mach :=
  match (m.ctx i).slot with
  | none => m
  | some k => resolveWith i code k (slotEmpty i m)

/-- Cancels a context's pending commit (R102). -/
def cancelCommit (i : Nat) (m : Mach) : Mach := resolve i 4 m

/-! ## Parking (R87, R88) -/

/-- Park causes (Table 3.8). -/
inductive Park where
  | ifetch | illegal | align | prot | addr | buserr | stgfull | stgaddr | rom | atomic
  deriving DecidableEq, Repr

/-- The code of a park cause. -/
def Park.code : Park → Nat
  | .ifetch => 1 | .illegal => 2 | .align => 3 | .prot => 4 | .addr => 5 | .buserr => 6 | .stgfull => 7
  | .stgaddr => 8 | .rom => 9 | .atomic => 10

/-- The class a park carries: PARKCLS, values above 4 acting as 4. -/
def parkClass (core : Nat) (m : Mach) : Nat := min 4 (m.get (R.COX_CFG_PARKCLS core))

/-- A faulting instruction parks its context (R87, R88). -/
def parkCtx (core k : Nat) (cause : Park) (addr : Nat) (m : Mach) : Mach :=
  let i := cix core k
  let m := m.modCtx i fun c => { c with state := .parked, cause := cause.code, faddr := BitVec.ofNat 40 addr, wait := .none, issued := false }
  let m := each (List.range 4) (fun j m => if j = k then m else m.evSet (cix core j) 8) m
  let m := when (m.on (R.COX_CFG_PARKDISARM core)) (disarmIf core (·.ctx == k)) m
  let m := deliver { src := 0x0D0 + core, kind := 0x40 + cause.code, cls := parkClass core m,
                     param := BitVec.ofNat 40 addr, aux := k } m
  resched core m

/-! ## START, HALT and the rest of COXc_RUN -/

/-- First address of a context's program (R107). -/
def entryPc (core k : Nat) (m : Mach) : Word :=
  BitVec.ofNat 32 ((if core = 8 then 0x10000000 else 0x2F000000) + m.get (R.COX_CTL_ENTRY core k) * 4)

/-- A command of COXc_RUN that a context's state does not allow is ignored with a note (R89). -/
def runIgnored (core : Nat) (m : Mach) : Mach := ignored (R.COX_RUN_START core).key m

/-- Starts a context (R89): only from IDLE or PARKED, on a core that is enabled. What Table 4.4 gives a value after START,
CMTRES with it, takes that value. -/
def startCtx (core k : Nat) (m : Mach) : Mach :=
  let i := cix core k
  let st := (m.ctx i).state
  if m.on (R.COX_CFG_EN core) && (st == .idle || st == .parked) then
    let m := disarmIf core (·.ctx == k) (cancelCommit i m)
    let m := m.modCtx i fun c =>
      { regs := [], pc := entryPc core k m, state := .idle, prio := m.get (R.COX_CTL_PRIO core k), cause := c.cause,
        faddr := c.faddr }
    resched core (makeReady i m)
  else runIgnored core m

/-- The context goes IDLE (R79, R102): the wait is abandoned, the stage buffer cleared, the commit cancelled and its
comparators disarmed. -/
def idleCtx (core k : Nat) (m : Mach) : Mach :=
  let i := cix core k
  let m := m.modCtx i fun c =>
    { c with state := .idle, wait := .none, stage := [], issued := false, halting := false }
  resched core (disarmIf core (·.ctx == k) (cancelCommit i m))

/-- Halts a context, at once or, with an access issued and not answered, once that has completed (Table 4.9). -/
def haltCtx (core k : Nat) (m : Mach) : Mach :=
  if (m.ctx (cix core k)).issued then m.modCtx (cix core k) fun c => { c with halting := true } else idleCtx core k m

/-- Resumes a parked context (R89). -/
def resumeCtx (core k : Nat) (m : Mach) : Mach :=
  if (m.ctx (cix core k)).state == .parked then resched core (makeReady (cix core k) m) else runIgnored core m

/-- Clears a context's stage buffer. -/
def discardStage (core k : Nat) (m : Mach) : Mach := m.modCtx (cix core k) fun c => { c with stage := [] }

/-- Cancels every pending commit of a core. -/
def cancelCore (core : Nat) (m : Mach) : Mach := each (List.range 4) (fun k => cancelCommit (cix core k)) m

/-- A write of COXc_RUN: several bits act in the order HALT, DISCARD, CANCEL, DISARM, START, RESUME, so that a context
that one write both stops and starts runs on afresh, with what START discards already gone (DESIGN CHOICE, log entry 12). -/
def runWrite (core : Nat) (v : Word) (m : Mach) : Mach :=
  let bits (lo : Nat) : List Nat := (List.range 4).filter fun k => bitOf v.toNat (lo + k)
  let m := each (bits 4) (haltCtx core) m
  let m := each (bits 12) (discardStage core) m
  let m := when (bitOf v.toNat 16) (cancelCore core) m
  let m := when (bitOf v.toNat 17) (disarmIf core fun _ => true) m
  let m := each (bits 0) (startCtx core) m
  each (bits 8) (resumeCtx core) m

/-- Disables a Cox core (R105): every context is halted, so that none seals again, before its commit is cancelled. -/
def disableCore (core : Nat) (m : Mach) : Mach :=
  let all (f : Ctx → Ctx) (m : Mach) : Mach := each (List.range 4) (fun k m => m.modCtx (cix core k) f) m
  let m := cancelCore core (all (fun c => { c with state := .idle, wait := .none, stage := [], issued := false, halting := false }) m)
  disarmIf core (fun _ => true) (all (fun c => { c with evpend := 0 }) m)

/-- A write of COXc_CFG (R105); the supervisor's EN reads 1 and ignores writes. -/
def coxCfgWrite (core : Nat) (v : Word) (m : Mach) : Mach :=
  let v := if core = 8 then withBits v 0 0 1 else v
  let was := m.on (R.COX_CFG_EN core)
  let m := storeFields (R.COX_CFG_EN core).key v m
  when (was && !m.on (R.COX_CFG_EN core)) (disableCore core) m

/-- A write of COXc_SWEV (R94, Table 3.11). -/
def swevWrite (core : Nat) (v : Word) (m : Mach) : Mach :=
  let ev : Word := BitVec.ofNat 32 (v.toNat % 16 * 16)
  each ((List.range 4).filter fun k => bitOf v.toNat (4 + k)) (fun k m => m.evSet (cix core k) ev) m

/-- A write of SUPMPU (R86): once LOCK is 1 it is ignored with a note. -/
def supmpuWrite (v : Word) (m : Mach) : Mach :=
  if m.on (R.COX_SUPMPU_LOCK 8) then ignored (R.COX_SUPMPU_EN 8).key m
  else
    let m := m.set (R.COX_SUPMPU_EN 8) (v.toNat % 2)
    when (bitOf v.toNat 1) (fun m => m.set (R.COX_SUPMPU_LOCK 8) 1) m

/-- The supervisor as requester. -/
def supQ : Requester := .ctx 8 0

/-- START (R89). -/
def opStart (core k : Nat) (m : Mach) : Mach := guarded supQ false (R.COX_RUN_START core).key (startCtx core k) m
/-- HALT (R106). -/
def opHalt (core k : Nat) (m : Mach) : Mach := guarded supQ false (R.COX_RUN_START core).key (haltCtx core k) m
/-- RESUME (R89). -/
def opResume (core k : Nat) (m : Mach) : Mach := guarded supQ false (R.COX_RUN_START core).key (resumeCtx core k) m
/-- DISCARD (R106). -/
def opDiscard (core k : Nat) (m : Mach) : Mach := guarded supQ false (R.COX_RUN_START core).key (discardStage core k) m
/-- CANCEL (R102). -/
def opCancel (core : Nat) (m : Mach) : Mach := guarded supQ false (R.COX_RUN_START core).key (cancelCore core) m
/-- DISARM (R93). -/
def opDisarm (core : Nat) (m : Mach) : Mach :=
  guarded supQ false (R.COX_RUN_START core).key (disarmIf core fun _ => true) m
/-- COX_ENABLE (R105). -/
def opCoxEnable (core : Nat) (v : Word) (m : Mach) : Mach :=
  guarded supQ false (R.COX_CFG_EN core).key (coxCfgWrite core (withBits v 0 0 1)) m
/-- COX_DISABLE (R105). -/
def opCoxDisable (core : Nat) (v : Word) (m : Mach) : Mach :=
  guarded supQ false (R.COX_CFG_EN core).key (coxCfgWrite core (withBits v 0 0 0)) m
/-- SWEV (R94). -/
def opSwev (q : Requester) (core : Nat) (v : Word) (m : Mach) : Mach :=
  guarded q false (R.COX_SWEV_EV core).key (swevWrite core v) m
/-- SUPMPU_LOCK (R86). -/
def opSupmpuLock (v : Word) (m : Mach) : Mach :=
  guarded supQ false (R.COX_SUPMPU_EN 8).key (supmpuWrite (v ||| 2)) m

/-! ## Waits that end (R121-R123) -/

/-- Ends a context's wait with a value for rd. -/
def wake (i rd : Nat) (v : Word) (m : Mach) : Mach :=
  resched (i / 4) (makeReady i (m.modCtx i fun c => (c.setG rd v).retire))

/-- WAITT_WAKE (R121): the timebase has reached the target. -/
def opWaittWake (core k : Nat) (m : Mach) : Mach :=
  match (m.ctx (cix core k)).wait with
  | .timebase base stn tgt rd => if baseReached base stn tgt m then wake (cix core k) rd 0 m else m
  | _ => m

/-- WAITE_WAKE (R122): a masked event is pending; the context returns the bits and clears them. -/
def opWaiteWake (core k : Nat) (m : Mach) : Mach :=
  let i := cix core k
  let c := m.ctx i
  match c.wait with
  | .events mask rd =>
    let hit := c.evpend &&& mask
    if hit = 0 then m else wake i rd hit (m.setCtx i { c with evpend := c.evpend &&& ~~~hit })
  | _ => m

/-- SLEEP_WAKE (R123). -/
def opSleepWake (core k : Nat) (m : Mach) : Mach :=
  match (m.ctx (cix core k)).wait with
  | .sleep t => if t.toNat ≤ m.now then wake (cix core k) 0 0 m else m
  | _ => m

end Sys2Proof.Machine
end

