-- ==== Sys2Proof/Machine/Feedback.lean ====
section
/-! DEFINITION. Position feedback: quadrature channels, SSI ports and the filtered inputs (R247-R260, R271-R273). -/

namespace Sys2Proof.Machine

/-! ## Quadrature channels -/

/-- An SSI port's unseen state. -/
def Mach.ssiOf (m : Mach) (p : Nat) : Ssi := tget {} p m.ssi
/-- Replaces it. -/
def Mach.setSsi (m : Mach) (p : Nat) (x : Ssi) : Mach := { m with ssi := tput p x m.ssi }
/-- An input's unseen state. -/
def Mach.snsOf (m : Mach) (i : Nat) : SnsIn := tget {} i m.sns
/-- Replaces it. -/
def Mach.setSns (m : Mach) (i : Nat) (x : SnsIn) : Mach := { m with sns := tput i x m.sns }
/-- An axis's unseen state. -/
def Mach.axis (m : Mach) (a : Nat) : Axis := tget {} a m.axes
/-- Replaces it. -/
def Mach.setAxis (m : Mach) (a : Nat) (x : Axis) : Mach := { m with axes := tput a x m.axes }

/-- Present TICK in units of 1.25 ns, with the eighth at which a stamp lies (R247). -/
def fineNow (sub : Nat) (m : Mach) : Nat := m.now * 8 + sub % 8

/-- An axis that homes uses this channel (R251). -/
def homingOn (q : Nat) (m : Mach) : Bool :=
  (List.range 8).any fun a => m.get (R.MOT_STAT_PHASE a) == 5 && m.get (R.MOT_CFG_FBCH a) == q

/-- A rejected change (R248, R249). -/
def glitch (q : Nat) (m : Mach) : Mach :=
  let m := m.incSat (R.FBK_STAT_GLITCH q)
  let e := m.encOf q
  let rs := (m.now :: e.rejects).filter fun t => m.now < t + msTicks 1
  let thr := m.get (R.FBK_SPDCFG_GLTHR q)
  let due := thr != 0 && thr < rs.length && (match e.glAt with | some t => t + msTicks 1 ≤ m.now | none => true)
  let m := m.setEnc q { e with rejects := rs, glAt := if due then some m.now else e.glAt }
  when due (fun m => raise (0x180 + q) 0x02 (m.get (R.FBK_CFG_GLCLS q)) (assertEvent 0x18D m)) m

/-- The position of an axis (R268): CNT of FBCH for a servo axis that has a channel, else the step position. -/
def axisPos (m : Mach) (a : Nat) : Int :=
  let q := m.get (R.MOT_CFG_FBCH a)
  if a < 8 && q < 12 then m.getI (R.FBK_CNT q) else (m.axis a).pos / 65536

/-- The positions of all axes. -/
def axesPos (m : Mach) : List Int := (List.range 20).map (axisPos m)

/-- CNT after one count, with the soft limits of R250. SAT clears once a count lies inside the range. -/
def countTo (q : Nat) (d : Int) (m : Mach) : Mach :=
  let c := m.getI (R.FBK_CNT q) + d
  let lo := m.getI (R.FBK_SLMIN_MIN q)
  let hi := m.getI (R.FBK_SLMAX_MAX q)
  if m.on (R.FBK_CFG_SLEN q) && !homingOn q m then
    if c < lo || hi < c then
      let was := m.on (R.FBK_STAT_SAT q)
      let m := (m.setI (R.FBK_CNT q) (clampI lo hi c)).set (R.FBK_STAT_SAT q) 1
      when (!was) (note (0x180 + q) 0x01 0) m
    else (m.setI (R.FBK_CNT q) c).set (R.FBK_STAT_SAT q) 0
  else when (decide (lo ≤ c) && decide (c ≤ hi)) (fun m => m.set (R.FBK_STAT_SAT q) 0) (m.setI (R.FBK_CNT q) c)

/-- RPOS after an accepted count (R251). -/
def reportPos (q : Nat) (m : Mach) : Mach :=
  let c := m.getI (R.FBK_CNT q)
  let e := m.encOf q
  if !m.on (R.FBK_CFG_MODE q) && !homingOn q m then m.setI (R.FBK_RPOS q) c
  else
    let d := c - m.getI (R.FBK_RPOS q)
    if 0 < d * e.hyst then m.setI (R.FBK_RPOS q) c
    else if 2 ≤ d || d ≤ -2 then (m.setI (R.FBK_RPOS q) c).setEnc q { e with hyst := if 0 < d then 1 else -1 }
    else m

/-- One accepted count (R247, R250, R251, R255). -/
def countEdge (q : Nat) (neg : Bool) (stamp : Nat) (m : Mach) : Mach :=
  let m := reportPos q (countTo q (if neg then -1 else 1) m)
  let e := m.encOf q
  let turned := !e.dirKnown || m.on (R.FBK_STAT_DIR q) != neg
  let m := m.setEnc q { e with
    dirKnown := true, edges := if turned then [] else (stamp :: e.edges).take 5,
    valid := if turned && e.dirKnown then e.valid else stamp }
  (m.set (R.FBK_STAT_DIR q) (b2n neg)).set (R.FBK_STAT_STILL q) 0

/-- Changes a channel's unseen state. -/
def Mach.onEnc (m : Mach) (q : Nat) (f : Enc → Enc) : Mach := m.setEnc q (f (m.encOf q))

/-- A count in the cycle in which the standstill timeout fell due is taken first (Table 9.3): the direction stays known. -/
def beforeStill (q : Nat) (m : Mach) : Mach :=
  m.onEnc q fun e =>
    match e.still with
    | some (t, es, dir, first) =>
      if t = m.now then { e with edges := es, dirKnown := dir, idxFirst := first, still := none } else { e with still := none }
    | none => e

/-- ENC_EDGE (R247, R248): inputs A and B have changed to these levels and held them `held` x 10 ns. -/
def opEncEdge (q : Nat) (a b : Bool) (held sub : Nat) (m : Mach) : Mach :=
  let e := m.encOf q
  if !m.on (R.FBK_CFG_EN q) then m.setEnc q { e with a := a, b := b }
  else if e.a == a && e.b == b then m
  else
    let me := clampN 1 1000 (m.get (R.FBK_CFG_MINEDGE q))
    let t := fineNow sub m
    let far := match e.lastAcc with | some p => p + me * 8 ≤ t | none => true
    if held < me || !far then glitch q m
    else
      let p := (m.ppcNow * 2 ^ 32 + m.clk.ppcFrac.toNat + m.get R.CLK_PPCRATE * (sub % 8) / 8) % 2 ^ 80
      let m := (beforeStill q m).onEnc q fun e => { e with a := a, b := b, lastAcc := some t, accPpc := p }
      if e.a != a && e.b != b then glitch q m
      else
        let plus := if e.a != a then a != b else a == b
        countEdge q (plus == m.on (R.FBK_CFG_INV q)) t m

/-- A sheet is being exposed at station s: from its catching stroke to the stroke of its last line (R254). -/
def duringSheet (s : Nat) (m : Mach) : Bool :=
  m.sheets.any fun p => p.2.exposes && (match tfind s p.2.legs with | some l => l.begun && !l.done | none => false)

/-- Moves CNT, RPOS and the count window of a channel by an amount, EOFF of the servo axes it feeds (R290), and their
positions at the stamps of edges that are forming. -/
def shiftCount (q : Nat) (d : Int) (m : Mach) : Mach :=
  let fed := (List.range 8).filter fun a => m.get (R.MOT_CFG_FBCH a) == q
  let moved (l : List Int) : List Int := fed.foldl (fun l a => l.set a (l.getD a 0 + d)) l
  let m := { m with sns := m.sns.map fun p => (p.1, { p.2 with pos := moved p.2.pos }) }
  let m := each fed (fun a m => m.setI (R.SRV_EOFF a) (m.getI (R.SRV_EOFF a) + d)) m
  let m := (m.setI (R.FBK_CNT q) (m.getI (R.FBK_CNT q) + d)).setI (R.FBK_RPOS q) (m.getI (R.FBK_RPOS q) + d)
  let e := m.encOf q
  m.setEnc q { e with winCnt := e.winCnt + BitVec.ofInt 32 d }

/-- The comparison at an index (R253). -/
def indexCheck (q : Nat) (m : Mach) : Mach :=
  let e := m.encOf q
  let diff := m.getI (R.FBK_IDIFF q)
  let off := diff.natAbs
  let nom := m.get (R.FBK_NOM q)
  let m := m.setEnc q { e with idxFirst := false }
  if m.on (R.FBK_STAT_SAT q) || e.idxFirst then m
  else if (if off < nom then nom - off else off - nom) ≤ m.get (R.FBK_NOM_ITOL q) then
    (m.set (R.FBK_STAT_IDXOK q) 1).setEnc q { m.encOf q with mismatch := false }
  else
    let m := (m.incSat (R.FBK_STAT_IMISS q)).set (R.FBK_STAT_IDXOK q) 0
    let m := note (0x180 + q) 0x03 (uint 40 diff) (m.setEnc q { m.encOf q with mismatch := true })
    when e.mismatch (fun m => raise (0x180 + q) 0x04 (m.get (R.FBK_CFG_IDXCLS q)) (assertEvent 0x18C m)) m

/-- The index itself (R253, R254): capture, comparison, and the re-zero or its deferral. -/
def indexEdge (q : Nat) (m : Mach) : Mach :=
  let c := m.getI (R.FBK_CNT q)
  let m := (m.setI (R.FBK_IDIFF q) (c - m.getI (R.FBK_ICAP q))).setI (R.FBK_ICAP q) c
  let m := indexCheck q (assertEvent (0x180 + q) m)
  if m.on (R.FBK_CFG_IZERO q) then
    if duringSheet (m.get (R.FBK_CFG_GAPSTN q)) m then m.set (R.FBK_STAT_IDXDEF q) 1
    else (shiftCount q (-c) m).setI (R.FBK_ICAP q) 0
  else m

/-- Deferred re-zeroes fall at the gap boundary of their station (R254). -/
def gapRezero (s : Nat) (m : Mach) : Mach :=
  each ((List.range 12).filter fun q => m.on (R.FBK_STAT_IDXDEF q) && m.get (R.FBK_CFG_GAPSTN q) == s) (fun q m =>
    ((shiftCount q (-(m.getI (R.FBK_ICAP q))) m).setI (R.FBK_ICAP q) 0).set (R.FBK_STAT_IDXDEF q) 0) m

/-- ENC_STANDSTILL (R256): no valid edge for more than STILL ms. -/
def opEncStandstill (q : Nat) (m : Mach) : Mach :=
  let e := m.encOf q
  if m.on (R.FBK_CFG_EN q) && !m.on (R.FBK_STAT_METH q) && !m.on (R.FBK_STAT_STILL q)
      && e.valid + 8 * msTicks (m.get (R.FBK_SPDCFG_STILL q)) < m.now * 8 then
    ((m.set (R.FBK_SPD q) 0).set (R.FBK_STAT_STILL q) 1).setEnc q
      { e with dirKnown := false, edges := [], idxFirst := true, still := some (m.now, e.edges, e.dirKnown, e.idxFirst) }
  else m

/-- SPEED_WINDOW_END (R257). -/
def opSpeedWindowEnd (q : Nat) (m : Mach) : Mach :=
  let e := m.encOf q
  let win := max 1 (m.get (R.FBK_SPDCFG_CWIN q))
  if !m.on (R.FBK_CFG_EN q) || m.now < e.winAt.toNat + win * 1000 then m
  else
    let d := sint 32 (m.word (R.FBK_CNT q).key - e.winCnt).toNat
    let v := (d * 1600000).tdiv win
    let vdn := m.get (R.FBK_SPDTHR_VDN q)
    let vup := max (m.get (R.FBK_SPDTHR_VUP q)) (vdn + 1)
    let m := m.setEnc q { e with winCnt := m.word (R.FBK_CNT q).key, winAt := m.clk.tick }
    if m.on (R.FBK_STAT_METH q) then
      let m := m.setI (R.FBK_SPD q) v
      if v.natAbs < vdn * 4096 then m.set (R.FBK_STAT_METH q) 0 else m
    else if vup * 4096 < (periodSpeed m q).natAbs then (m.setI (R.FBK_SPD q) v).set (R.FBK_STAT_METH q) 1
    else m

/-- A write of a channel's CFG word (R251, R253, R255): enabling forgets direction and index, MODE = 0 sets
RPOS := CNT, a write of MODE resets dir. -/
def fbkCfgWrite (q : Nat) (v : Word) (m : Mach) : Mach :=
  let was := m.on (R.FBK_CFG_EN q)
  let m := storeFields (R.FBK_CFG_EN q).key v m
  let e := { m.encOf q with hyst := 0 }
  let e := if !was && m.on (R.FBK_CFG_EN q) then
      { e with dirKnown := false, edges := [], idxFirst := true, mismatch := false, valid := m.now * 8,
               winCnt := m.word (R.FBK_CNT q).key, winAt := m.clk.tick } else e
  let m := m.setEnc q e
  if m.on (R.FBK_CFG_MODE q) then m else m.setWord (R.FBK_RPOS q).key (m.word (R.FBK_CNT q).key)

/-- ENC_MODE_WRITE (R251). -/
def opEncModeWrite (q : Requester) (ch : Nat) (v : Word) (m : Mach) : Mach :=
  guarded q false (R.FBK_CFG_EN ch).key (fbkCfgWrite ch v) m

/-! ## SSI ports (R258) -/

/-- The clock periods of an SSI frame in TICK. -/
def ssiClocks (v : Word) (p : Nat) : Nat :=
  let n := (R.FBK_SSI_CFG_NBITS p).of v + 1 + (R.FBK_SSI_CFG_ERRBIT p).of v + (R.FBK_SSI_CFG_PAR p).of v + 1
  n * 2 * ((R.FBK_SSI_CFG_CKDIV p).of v + 1)

/-- SSI frame length in TICK, the monoflop time included. -/
def ssiLength (v : Word) (p : Nat) (m : Mach) : Nat := ssiClocks v p + usTicks (m.get (R.FBK_SSI_MONO p))

/-- A write of a port's SSICFG: a write of EN = 1 whose frame does not fit the servo period is ignored. -/
def ssiCfgWrite (p : Nat) (v : Word) (m : Mach) : Mach :=
  let key := (R.FBK_SSI_CFG_EN p).key
  let eff := if m.on (R.FBK_SSI_CFG_EN p) then m.word key else v
  if (R.FBK_SSI_CFG_EN p).of v = 1 && m.get R.MOT_CTL_SPER < ssiLength eff p m then ignored key m
  else storeFields key v m

/-- Gray decode of an n-bit value. -/
def grayDecode : Nat → Nat → Nat
  | 0, _ => 0
  | n + 1, v => let hi := grayDecode n (v / 2); hi * 2 + (hi + v) % 2

/-- Parity of the low n bits. -/
def parity (n v : Nat) : Nat := ((List.range n).filter (bitOf v)).length % 2

/-- SSI_FRAME_START: at a TICK multiple of SPER, with D as it stands. -/
def opSsiFrameStart (p : Nat) (d : Bool) (m : Mach) : Mach :=
  let x := m.ssiOf p
  if m.on (R.FBK_SSI_CFG_EN p) && x.frame.isNone && x.ready.toNat ≤ m.now
      && multipleIn (max 1 (m.get R.MOT_CTL_SPER)) 0 x.start.toNat m.now then
    m.setSsi p { x with start := m.clk.tick, frame := some (!d) }
  else m

/-- A bad SSI frame. -/
def ssiBad (p : Nat) (m : Mach) : Mach :=
  let x := m.ssiOf p
  let m := m.setSsi p { x with bad := (x.bad + 1) % 3 }
  let m := (m.incSat (R.FBK_SSI_STAT_ERRS p)).set (R.FBK_SSI_STAT_VALID p) 0
  let m := note (0x18C + p) 0x05 0 (assertEvent 0x18E m)
  when (x.bad == 2) (fun m => raise (0x18C + p) 0x06 (m.get (R.FBK_SSI_CFG_SSICLS p)) m) m

/-- SSI_FRAME_END: the data bits as received, the error and parity bits, and whether D stands high. The frame's clock periods
have passed, the last rising edge coming with their end (DEDUCED, log entry 45); D must be high within MONO us of it, and as
long as it may still become so the frame has not ended. -/
def opSsiFrameEnd (p : Nat) (data : Nat) (err par returned : Bool) (m : Mach) : Mach :=
  let x := m.ssiOf p
  let rise := x.start.toNat + ssiClocks (m.word (R.FBK_SSI_CFG_EN p).key) p
  let lim := rise + usTicks (m.get (R.FBK_SSI_MONO p))
  match x.frame with
  | none => m
  | some notReady =>
    if m.now < rise || (!returned && m.now < lim) then m
    else
    let n := m.get (R.FBK_SSI_CFG_NBITS p) + 1
    let m := m.setSsi p { x with frame := none, ready := BitVec.ofNat 64 lim }
    let e := m.on (R.FBK_SSI_CFG_ERRBIT p) && err
    let badPar := m.on (R.FBK_SSI_CFG_PAR p) && (parity n data + b2n e + b2n par) % 2 == 1
    if notReady || e || badPar || !returned || lim < m.now then ssiBad p m
    else
      let d := data % 2 ^ n
      let v := if m.on (R.FBK_SSI_CFG_GRAY p) then grayDecode n d else d
      let spd : Int := match x.last with
        | some (w, t) => (sint n (v + 2 ^ n - w) * 1600000000).tdiv (max 1 (x.start.toNat - t.toNat))
        | none => 0
      let m := ((m.set (R.FBK_SSI_POS p) v).setI (R.FBK_SSI_SPD p) spd).set (R.FBK_SSI_STAT_VALID p) 1
      m.setSsi p { m.ssiOf p with bad := 0, last := some (v, x.start) }

/-! ## Switch inputs (R259, R260, R273) -/

/-- The input after its inversion: what the filter takes. -/
def snsInput (i : Nat) (m : Mach) : Bool := m.on (R.SNS_STAT_RAW i) != m.on (R.SNS_CFG_INV i)

/-- A chatter episode begins (R260). -/
def chatterOn (i : Nat) (m : Mach) : Mach := note 0x1F0 0x01 i (assertEvent 0x1F0 (m.set (R.SNS_STAT_CHAT i) 1))

/-- The raw level of an input changes: the filter restarts, and the transition counts toward chatter. The second
result says that a chatter episode has begun. -/
def rawChange (i : Nat) (lvl : Bool) (m : Mach) : Mach × Bool :=
  if m.on (R.SNS_STAT_RAW i) == lvl then (m, false)
  else
    let m := (m.set (R.SNS_STAT_RAW i) (b2n lvl)).setSns i { m.snsOf i with raw := m.clk.tick }
    if !m.on R.SNS_CTL_EN then (m, false)
    else
      let win := msTicks (max 1 (m.get (R.SNS_CFG_CHW i)))
      let ts := (m.now :: (m.snsOf i).trans).filter fun t => m.now < t + win
      let m := m.setSns i { tick := m.clk.tick, ppc := m.clk.ppc, trans := ts, raw := m.clk.tick, pos := axesPos m }
      if max 1 (m.get (R.SNS_CFG_CHN i)) < ts.length && !m.on (R.SNS_STAT_CHAT i) then (chatterOn i m, true)
      else (m, false)

/-- CHATTER_END (R260): no raw transition for CHW ms. -/
def opChatterEnd (i : Nat) (m : Mach) : Mach :=
  let quiet := decide ((m.snsOf i).raw.toNat + msTicks (max 1 (m.get (R.SNS_CFG_CHW i))) ≤ m.now)
  if m.on (R.SNS_STAT_CHAT i) && quiet then m.set (R.SNS_STAT_CHAT i) 0 else m

/-- A filtered edge, when the raw level has held for DEB (R259): the new level is stored and its stamp is given. -/
def filteredEdge (i : Nat) (m : Mach) : Option (SnsEdge × Mach) :=
  let x := m.snsOf i
  let lvl := snsInput i m
  if m.on R.SNS_CTL_EN && lvl != m.on (R.SNS_STAT_LVL i)
      && x.tick.toNat + usTicks (max 1 (m.get (R.SNS_CFG_DEB i))) ≤ m.now then
    some ({ sns := i, lvl := lvl, tick := x.tick, ppc := x.ppc, pos := x.pos }, m.set (R.SNS_STAT_LVL i) (b2n lvl))
  else none

/-- A write of SNS_CTL (R273): EN = 1 starts filtering afresh on every input. -/
def snsCtlWrite (v : Word) (m : Mach) : Mach :=
  let was := m.on R.SNS_CTL_EN
  let m := storeFields R.SNS_CTL_EN.key v m
  if !was && m.on R.SNS_CTL_EN then
    each (List.range 48) (fun i m =>
      m.setSns i { m.snsOf i with tick := m.clk.tick, ppc := m.clk.ppc, trans := [], pos := axesPos m }) m
  else m

/-- SNS_CTL_WRITE (R273). -/
def opSnsCtlWrite (q : Requester) (v : Word) (m : Mach) : Mach := guarded q false R.SNS_CTL_EN.key (snsCtlWrite v) m

end Sys2Proof.Machine
end

