-- ==== Sys2Proof/Machine/Motion.lean ====
section
/-! DEFINITION. Motion profiles, limits, homing, the gate axis and the stepper modes (R261-R271, R274). -/

namespace Sys2Proof.Machine

/-- Number of MOT axes: 0-7 servo, 8-19 stepper. -/
def axisCount : Nat := 20

/-- The fault source of an axis (Table 13.2). -/
def axisSrc (a : Nat) : Nat := if a < 16 then 0x190 + a else 0x170 + (a - 16)

/-- The gate axis while SLU_CTL.EN = 1 (R265). -/
def gateAxis (m : Mach) : Option Nat := if m.on R.SLU_CTL_EN then some (8 + m.get R.SLU_CTL_GATEAX) else none

/-! ## One period of a profile

Arithmetic of a period of dt TICK, in 1/65,536 of a unit: velocities change by rate x dt, rounded down so that no rate
is exceeded (R263), positions by the mean velocity x dt, whose rounding is open (log entry 20). -/

/-- Velocity change at a rate over dt TICK. -/
def dvel (rate dt : Nat) : Int := ((rate * dt * 65536 / 100000000 : Nat) : Int)

/-- Distance at the mean of two velocities over dt TICK; `up` rounds an inexact one up, else it is its floor. -/
def dpos (v0 v1 : Int) (dt : Nat) (up : Bool) : Int :=
  let n := (v0 + v1) * dt
  n / 200000000 + (if up && n % 200000000 != 0 then 1 else 0)

/-- The open rounding of one distance: a free bit, and the machine that has used it. -/
def freeUp (m : Mach) : Bool × Mach := (m.free.1.toNat % 2 == 1, m.free.2)

/-- Brings a velocity toward a goal: by at most `up` away from zero and `down` toward it. -/
def toward (v goal up down : Int) : Int :=
  if v < 0 && v < goal then min (v + down) (min goal 0)
  else if 0 < v && goal < v then max (v - down) (max goal 0)
  else if v < goal then min (v + up) goal
  else max (v - up) goal

/-- One period of a run at a velocity. -/
def runStep (goal : Int) (acc dec dt : Nat) (up : Bool) (p v : Int) : Int × Int × Nat :=
  let v' := toward v goal (dvel acc dt) (dvel dec dt)
  (p + dpos v v' dt up, v', if v' = v then 2 else if v.natAbs < v'.natAbs then 1 else 3)

/-- The greatest value from x on that satisfies `ok`, by the bits of what is added. -/
def growBy (ok : Int → Bool) : Nat → Int → Int
  | 0, x => x
  | b + 1, x => growBy ok b (if ok (x + 2 ^ b) then x + 2 ^ b else x)

/-- One period of a move (R263): position, velocity, PHASE, braking. Short of braking the speed rises as far as ACC, VMAX
and the stop at DEC allow. -/
def moveStep (vmax acc dec dt : Nat) (up : Bool) (tgt p v : Int) (braking : Bool) : Int × Int × Nat × Bool :=
  let s := tgt - p
  let d : Int := if s < 0 then -1 else 1
  let u := v * d
  let l := s.natAbs
  if s = 0 && v = 0 then (tgt, 0, 0, false)
  else if u < 0 then
    let v' := toward v 0 0 (dvel dec dt)
    (p + dpos v v' dt up, v', 3, false)
  else
    -- stopping now needs more than DEC: decelerate at DEC and come back (the snap onto the target excepted)
    let need := fun (w : Int) (r : Nat) => w.natAbs ^ 2 ≤ dec * 2 * r * 65536
    if !braking && !need u l then
      let v' := toward v 0 0 (dvel dec dt)
      (p + dpos v v' dt up, v', 3, false)
    else
      let top := toward u ((vmax : Int) * 65536) (dvel acc dt) (dvel dec dt)
      let ok := fun (w : Int) => let st := dpos u w dt up; decide (st < (l : Int)) && need w (l - st.natAbs)
      let u1 := if ok top then top else growBy (fun w => decide (w ≤ top) && ok w) 44 u
      if !braking && ok u1 then
        let step := dpos u u1 dt up
        (p + d * step, d * u1, if u1 = u && 0 < u then 2 else if u ≤ u1 then 1 else 3, false)
      else
        -- brake at d_need = u^2 / (2 l), moving by no more than the speed of this period gives
        let dv : Int := if l = 0 then u else ((u.natAbs ^ 2 * dt / (2 * l * 100000000) : Nat) : Int)
        let u2 := u - max 1 dv
        let st := max 1 (dpos u (max 0 u2) dt up)
        if (l : Int) ≤ st || (u2 ≤ 0 && (l : Int) ≤ dpos u u dt true) then (tgt, 0, 3, false)
        else (p + d * st, d * max 1 u2, 3, true)

/-! ## Segments -/

/-- The set-point registers follow the profile: SETP:SETPF with 16 fractional bits, VSET in counts/s. -/
def showAxis (a : Nat) (m : Mach) : Mach :=
  let x := m.axis a
  ((m.setI (R.MOT_SETP a) (x.pos / 65536)).set (R.MOT_SETPF_FRAC a) (x.pos % 65536).toNat).setI (R.MOT_VSET a)
    (x.vel.tdiv 65536)

/-- Homing of an axis may have ended: with MODE = 0, RPOS of its channel is CNT again (R251). -/
def modeApplies (a : Nat) (m : Mach) : Mach :=
  let q := m.get (R.MOT_CFG_FBCH a)
  if a < 8 && q < 12 && !m.on (R.FBK_CFG_MODE q) && !homingOn q m then
    m.setWord (R.FBK_RPOS q).key (m.word (R.FBK_CNT q).key)
  else m

/-- A segment ends at rest: PHASE := IDLE and event DONE (R262). -/
def segEnd (a : Nat) (m : Mach) : Mach :=
  let m := m.setAxis a { m.axis a with mode := 0, homing := .none, cap := none, braking := false, restAt := m.clk.tick }
  assertEvent 0x190 (modeApplies a (m.set (R.MOT_STAT_PHASE a) 0))

/-- QDEC as it acts: values below DEC act as DEC (R262). -/
def quickDec (a : Nat) (m : Mach) : Nat := max (m.get (R.MOT_QDEC a)) (m.get (R.MOT_DEC a))

/-- The axis quick-stops. -/
def quickStop (a : Nat) (m : Mach) : Mach :=
  let m := m.setAxis a { m.axis a with mode := 4, homing := .none, cap := none, dec := quickDec a m, braking := false }
  modeApplies a (m.set (R.MOT_STAT_PHASE a) 4)

/-- Rates that a new segment takes (R264). -/
def takeRates (a : Nat) (m : Mach) : Mach :=
  let x := m.axis a
  (m.setAxis a { x with vmax := m.get (R.MOT_VMAX a), acc := m.get (R.MOT_ACC a), dec := m.get (R.MOT_DEC a) }).set
    (R.MOT_STAT_DECDEF a) 0

/-- The direction of a homing search: HDIR = 1 searches negative. -/
def homeDir (a : Nat) (m : Mach) : Int := if m.on (R.MOT_HCFG_HDIR a) then -1 else 1

/-- Homing mode as it acts: 5-7 act as 0 (Table 9.6). -/
def homeMode (a : Nat) (m : Mach) : Nat := let h := m.get (R.MOT_HCFG_HMODE a); if 4 < h then 0 else h

/-- A segment begins (R262): MODE, the target of a move in 1/65,536 count, and the time origin. -/
def beginSeg (a mode : Nat) (tgt : Int) (origin : Tick) (m : Mach) : Mach :=
  let m := takeRates a m
  let x := m.axis a
  let x := { x with mode := mode, tgt := tgt, braking := false, homing := .none, cap := none, tripped := false,
                    last := origin, pend := none, gateT := none }
  let m := m.set (R.MOT_STAT_PEND a) 0
  match mode with
  | 2 => modeApplies a ((m.setAxis a { x with sgn := (m.getI (R.MOT_TARGET a)).sign }).set (R.MOT_STAT_PHASE a) 1)
  | 3 => modeApplies a ((m.setAxis a x).set (R.MOT_STAT_PHASE a) 3)
  | 4 => quickStop a (m.setAxis a x)
  | 5 =>
    let m := m.set (R.MOT_STAT_PHASE a) 5
    if homeMode a m = 0 then m.setAxis a { x with homing := .settle 0, cap := some (x.pos / 65536) }
    else m.setAxis a { x with homing := .search, sgn := homeDir a m }
  | _ => modeApplies a ((m.setAxis a x).set (R.MOT_STAT_PHASE a) 1)

/-- The start time of an axis's waiting segment, once it is known. -/
def startTime (a : Nat) (m : Mach) : Option Tick :=
  if gateAxis m = some a then (m.axis a).gateT.map (·.1)
  else some (BitVec.ofNat 64 (m.get (R.MOT_STARTT_LO_T a) + m.get (R.MOT_STARTT_HI_T a) * 2 ^ 32))

/-- A GO that is not ignored (R262): the S:segment boundary of the axis, then the segment. -/
def goSeg (a mode : Nat) (m : Mach) : Mach :=
  let m := (applyAxis a m).set (R.MOT_STAT_HFAULT a) 0
  let x := m.axis a
  let t := m.getI (R.MOT_TARGET a) * 65536
  let tgt := if mode = 1 then x.pos + t else t
  if m.on (R.MOT_CMD_START a) then
    (m.setAxis a { x with pend := some (mode, tgt), gateT := none }).set (R.MOT_STAT_PEND a) 1
  else beginSeg a mode tgt x.last m

/-- A write of an axis's CMD word (R262). -/
def motCmdWrite (a : Nat) (v : Word) (m : Mach) : Mach :=
  let m := storeFields (R.MOT_CMD_MODE a).key v m
  if (R.MOT_CMD_GO a).of v = 1 then
    let mode := (R.MOT_CMD_MODE a).of v
    if 6 ≤ mode || m.get (R.MOT_STAT_PHASE a) == 4 then note (axisSrc a) 0x05 0 m else goSeg a mode m
  else m

/-- A write of STARTT: on the gate axis only the ledger writes it (R265). -/
def starttWrite (key a : Nat) (v : Word) (m : Mach) : Mach :=
  if gateAxis m = some a then ignored key m else storeFields key v m

/-- A GO with a given MODE, as a command. -/
def opGo (q : Requester) (a mode : Nat) (v : Word) (m : Mach) : Mach :=
  guarded q false (R.MOT_CMD_MODE a).key (motCmdWrite a (withBits (withBits v 2 0 mode) 4 4 1)) m

/-- SEGMENT_DELAYED_START (R262): TICK has reached the start time of the waiting segment; the set-point it starts
from is carried to that instant. A gate axis that still quick-stops then is unloaded (Table 9.3). -/
def opSegmentDelayedStart (a : Nat) (m : Mach) : Mach :=
  let x := m.axis a
  match x.pend, startTime a m with
  | some (mode, tgt), some t =>
    if m.now < t.toNat then m
    else if m.get (R.MOT_STAT_PHASE a) = 4 then
      match x.gateT with
      | some (_, sid) => raise (axisSrc a) 0x04 1 (m.setAxis a { x with gateT := none }) sid
      | none => m
    else
      let f := freeUp m
      let carry := if t.toNat < x.last.toNat then 0 else dpos x.vel x.vel (t.toNat - x.last.toNat) f.1
      beginSeg a mode tgt t (f.2.setAxis a { x with pos := x.pos + carry })
  | _, _ => m

/-- The ledger delivers T_c + GATEOFF to the gate axis (R265). -/
def gateDeliver (sid : Sid) (t : Tick) (m : Mach) : Mach :=
  match gateAxis m with
  | none => m
  | some a =>
    let m := (m.setWord (R.MOT_STARTT_LO_T a).key (BitVec.ofNat 32 t.toNat)).setWord (R.MOT_STARTT_HI_T a).key
      (BitVec.ofNat 32 (t.toNat / 2 ^ 32))
    let x := m.axis a
    if x.pend.isSome then m.setAxis a { x with gateT := some (t, sid) } else raise (axisSrc a) 0x04 1 m sid

/-- PROFILE_RATE_WRITE (R264): which = 0 VMAX, 1 ACC, 2 DEC. -/
def rateWrite (a which : Nat) (v : Word) (m : Mach) : Mach :=
  let key := match which with | 0 => (R.MOT_VMAX a).key | 1 => (R.MOT_ACC a).key | _ => (R.MOT_DEC a).key
  let m := storeFields key v m
  let x := m.axis a
  let ph := m.get (R.MOT_STAT_PHASE a)
  let move := x.mode == 0 || x.mode == 1
  if ph = 0 || ph = 4 then m
  else match which with
    | 2 =>
      let s := x.tgt - x.pos
      let ahead := 0 < s * x.vel
      -- d_need = v^2 / (2 |s|), all in 1/65,536 units
      if move && ahead && v.toNat * 2 * s.natAbs * 65536 < x.vel.natAbs ^ 2 then
        note (axisSrc a) 0x03 0 (m.set (R.MOT_STAT_DECDEF a) 1)
      else m.setAxis a { x with dec := v.toNat }
    | 1 => if move && ph == 3 then m else m.setAxis a { x with acc := v.toNat }
    | _ => if move && ph == 3 then m else m.setAxis a { x with vmax := v.toNat }

/-- PROFILE_RATE_WRITE as a command. -/
def opProfileRateWrite (q : Requester) (a which : Nat) (v : Word) (m : Mach) : Mach :=
  let key := match which with | 0 => (R.MOT_VMAX a).key | 1 => (R.MOT_ACC a).key | _ => (R.MOT_DEC a).key
  guarded q false key (rateWrite a which v) m

/-! ## Limits and homing -/

/-- A filtered limit input is asserted. -/
def limOn (a : Nat) (pos : Bool) (m : Mach) : Bool :=
  m.on (R.SNS_STAT_LVL (if pos then m.get (R.MOT_CFG_LIMP a) else m.get (R.MOT_CFG_LIMN a)))

/-- The axis homes. -/
def homes (a : Nat) (m : Mach) : Bool := (m.axis a).homing != .none

/-- A limit stops the axis (R266); a quick-stop that runs already is not softened (R262). -/
def limitTrip (a : Nat) (pos : Bool) (m : Mach) : Mach :=
  let m := if m.get (R.MOT_STAT_PHASE a) == 4 then m else quickStop a m
  let m := (m.setAxis a { m.axis a with limPos := pos }).set (R.MOT_STAT_LIMTRIP a) 1
  raise (axisSrc a) 0x01 (m.get (R.MOT_CFG_LIMCLS a)) (assertEvent 0x193 m)

/-- Homing ends without success (R269). -/
def homingFault (a : Nat) (m : Mach) : Mach :=
  let m := ((quickStop a m).set (R.MOT_STAT_HFAULT a) 1).set (R.MOT_STAT_HOMED a) 0
  raise (axisSrc a) 0x02 (m.get (R.MOT_CFG_HOMCLS a)) (assertEvent 0x192 m)

/-- Code of the phase that follows a trip or a discarded capture (R269): 0 the search, 1 the return, 2 onward. The stop
before the return reverses into the return. -/
def homingCode : Homing → Nat
  | .turn => 1 | .back => 1 | .onward => 2 | .settle was => was | _ => 0

/-- A limit that the mode does not seek trips while the axis homes (R269). It discards a capture of the same period (Table
9.3); after a capture that stands it stops the axis at QDEC. -/
def homingLimit (a : Nat) (m : Mach) : Mach :=
  let x := m.axis a
  if x.cap.isSome && !x.capNew then m.setAxis a { x with dec := quickDec a m }
  else if x.tripped then homingFault a m
  else m.setAxis a { x with homing := .trip (homingCode x.homing), tripped := true, cap := none }

/-- The capture edge (R268): the position at the edge's stamp is latched, and the axis stops. -/
def homingCapture (a : Nat) (c : Int) (m : Mach) : Mach :=
  let x := m.axis a
  m.setAxis a { x with homing := .settle (homingCode x.homing), cap := some c, capNew := true }

/-- What a filtered edge does to one axis (R266-R269). -/
def axisEdge (e : SnsEdge) (a : Nat) (m : Mach) : Mach :=
  let x := m.axis a
  let limN := m.get (R.MOT_CFG_LIMN a) == e.sns
  let limP := m.get (R.MOT_CFG_LIMP a) == e.sns
  let lim := limN || limP
  let isPos := limP && (!limN || 0 < x.vel)
  let toward := lim && ((0 < x.vel && limP) || (x.vel < 0 && limN))
  let m := when (!e.lvl && m.on (R.MOT_STAT_LIMTRIP a) && (if x.limPos then limP else limN)) (·.set (R.MOT_STAT_LIMTRIP a) 0) m
  if x.homing == .none then
    if e.lvl && toward && m.on (R.MOT_CFG_LIMEN a) && m.on (R.MOT_CFG_EN a) then limitTrip a isPos m
    else m
  else
    let mode := homeMode a m
    let sought := if mode = 4 then (if m.on (R.MOT_HCFG_HDIR a) then limN else limP)
      else (mode = 1 || mode = 2) && m.get (R.MOT_CFG_HOME a) == e.sns
    if sought then
      match x.homing, e.lvl with
      | .search, true => m.setAxis a { x with homing := .turn }
      | .back, false => if mode = 2 then m.setAxis a { x with homing := .onward } else homingCapture a (e.pos.getD a (axisPos m a)) m
      | _, _ => m
    else if e.lvl && toward && m.on (R.MOT_CFG_LIMEN a) then homingLimit a m
    else m

/-- A filtered edge reaches every axis that names its input. -/
def axesEdge (e : SnsEdge) (m : Mach) : Mach := each (List.range axisCount) (axisEdge e) m

/-- An index reaches the axes that home on its channel (Table 9.2). -/
def axesIndex (q : Nat) (m : Mach) : Mach :=
  each (List.range 8) (fun a m =>
    let x := m.axis a
    let mode := homeMode a m
    if m.get (R.MOT_CFG_FBCH a) = q && ((mode == 3 && x.homing == .search) || (mode == 2 && x.homing == .onward)) then
      homingCapture a (axisPos m a) m
    else m) m

/-- Chatter ends the homing of every axis that uses the input (R269). -/
def axesChatter (i : Nat) (m : Mach) : Mach :=
  each (List.range axisCount) (fun a m =>
    if homes a m && (m.get (R.MOT_CFG_HOME a) == i || m.get (R.MOT_CFG_LIMN a) == i || m.get (R.MOT_CFG_LIMP a) == i) then
      homingFault a m
    else m) m

/-! ## The servo period -/

/-- The axis has come to rest after its capture (R268): set-point, CNT and RPOS shift by HOFF - c. -/
def homingDone (a : Nat) (m : Mach) : Mach :=
  let x := m.axis a
  let d := m.getI (R.MOT_HOFF a) - x.cap.getD 0
  let m := m.setAxis a { x with pos := x.pos + d * 65536 }
  let m := when (a < 8 && m.get (R.MOT_CFG_FBCH a) < 12) (shiftCount (m.get (R.MOT_CFG_FBCH a)) d) m
  segEnd a (assertEvent 0x191 (showAxis a (m.set (R.MOT_STAT_HOMED a) 1)))

/-- One period of homing. -/
def homeStep (a dt : Nat) (up : Bool) (m : Mach) : Mach :=
  let x := m.axis a
  let m := m.setAxis a { x with capNew := false }
  let x := m.axis a
  let hv1 : Int := min (m.get (R.MOT_HCFG_HV1 a) * 16) x.vmax * 65536
  let hv2 : Int := min (m.get (R.MOT_HV2 a) * 16) x.vmax * 65536
  let mv (goal : Int) (dec : Nat) : Axis := let r := runStep goal x.acc dec dt up x.pos x.vel; { x with pos := r.1, vel := r.2.1 }
  match x.homing with
  | .search => m.setAxis a (mv (x.sgn * (if homeMode a m = 3 then hv2 else hv1)) x.dec)
  | .turn =>
    let y := mv 0 x.dec
    m.setAxis a (if y.vel = 0 then { y with homing := .back, sgn := -x.sgn } else y)
  | .back => m.setAxis a (mv (x.sgn * hv2) x.dec)
  | .onward => m.setAxis a (mv (x.sgn * hv2) x.dec)
  | .trip was =>
    let y := mv 0 (quickDec a m)
    m.setAxis a (if y.vel = 0 then
      { y with sgn := -x.sgn, homing := match was with | 1 => .back | 2 => .onward | _ => .search } else y)
  | .settle _ =>
    if x.vel = 0 then homingDone a m else m.setAxis a (mv 0 x.dec)
  | .none => m

/-- Stepper mode change (R270): `old` is the set-point before this period. It reaches or crosses a full-step position; one
that it leaves was reached before. -/
def stepperMode (a : Nat) (old : Int) (m : Mach) : Mach :=
  if a < 8 then m
  else
    let x := m.axis a
    let full : Nat := 2 ^ min 8 (m.get (R.MOT_STEP_MLOG2 a))
    let v := x.vel.natAbs
    let strong := m.on (R.MOT_STAT_STRONG a)
    let want := if m.get (R.MOT_STEP_QSUP a) * full * 65536 < v then true
      else if v < m.get (R.MOT_QSDN a) * full * 65536 then false else strong
    let f : Int := full * 65536
    let passed := decide (if old ≤ x.pos then old / f < x.pos / f else (x.pos - 1) / f < (old - 1) / f)
    if want = strong then m.set (R.MOT_STAT_SWPEND a) 0
    else if passed then
      let m := (m.set (R.MOT_STAT_STRONG a) (b2n want)).set (R.MOT_STAT_SWPEND a) 0
      m.set (R.STP_STAT_STRONG (a - 8)) (b2n want)
    else m.set (R.MOT_STAT_SWPEND a) 1

/-- Stores a step of a profile and its phase; a phase 0 or a velocity 0 at the end of a stop ends the segment. -/
def profileTo (a : Nat) (p v : Int) (ph : Nat) (br done : Bool) (m : Mach) : Mach :=
  let m := m.setAxis a { m.axis a with pos := p, vel := v, braking := br }
  if done then segEnd a (showAxis a m) else showAxis a (m.set (R.MOT_STAT_PHASE a) ph)

/-- The set-point of one axis for this period (R261-R263); the first after a GO ends a stepper's holding (R295). -/
def axisPeriod (a : Nat) (m : Mach) : Mach :=
  let m := when (8 ≤ a && m.get (R.MOT_STAT_PHASE a) != 0) (fun m => m.set (R.STP_STAT_HOLDING (a - 8)) 0) m
  let x := m.axis a
  let dt := min (m.now - x.last.toNat) (m.get R.MOT_CTL_SPER)
  let f := freeUp m
  let m := f.2.setAxis a { x with last := m.clk.tick }
  let x := m.axis a
  let m' := match m.get (R.MOT_STAT_PHASE a) with
    | 0 => showAxis a m
    | 4 =>
      let r := runStep 0 x.acc x.dec dt f.1 x.pos x.vel
      profileTo a r.1 r.2.1 4 false (r.2.1 = 0) m
    | 5 => showAxis a (homeStep a dt f.1 m)
    | _ =>
      match x.mode with
      | 2 =>
        let r := runStep (x.sgn * x.vmax * 65536) x.acc x.dec dt f.1 x.pos x.vel
        profileTo a r.1 r.2.1 r.2.2 false false m
      | 3 =>
        let r := runStep 0 x.acc x.dec dt f.1 x.pos x.vel
        profileTo a r.1 r.2.1 3 false (r.2.1 = 0) m
      | _ =>
        let r := moveStep x.vmax x.acc x.dec dt f.1 x.tgt x.pos x.vel x.braking
        profileTo a r.1 r.2.1 r.2.2.1 r.2.2.2 (r.1 = x.tgt && r.2.1 = 0) m
  let y := m'.axis a
  let ph := m'.get (R.MOT_STAT_PHASE a)
  -- the shift at the end of homing is no movement
  let m' := stepperMode a (if x.cap.isSome && y.cap.isNone && ph = 0 then y.pos else x.pos) m'
  if m'.on (R.MOT_CFG_LIMEN a) && y.homing == .none && ph != 0 && ph != 4
      && ((0 < y.vel && limOn a true m') || (y.vel < 0 && limOn a false m')) then limitTrip a (0 < y.vel) m'
  else m'

/-- A class 3 stop reaches one axis (Table 13.6): MODE 3 unless at rest or quick-stopping; a wait is dropped. -/
def stopAxis (a : Nat) (m : Mach) : Mach :=
  let m := (m.setAxis a { m.axis a with pend := none, gateT := none }).set (R.MOT_STAT_PEND a) 0
  let ph := m.get (R.MOT_STAT_PHASE a)
  if ph = 0 || ph = 4 then m else beginSeg a 3 0 (m.axis a).last m

/-- SERVO_PERIOD (R261). -/
def opServoPeriod (m : Mach) : Mach :=
  if m.on R.MOT_CTL_EN && multipleIn (max 1 (m.get R.MOT_CTL_SPER)) 0 m.mot.period.toNat m.now then
    let on := (List.range axisCount).filter fun a => m.on (R.MOT_CFG_EN a)
    let m := when m.mot.stopDue (each on stopAxis) m
    each on axisPeriod { m with mot := { m.mot with stopDue := false, period := m.clk.tick } }
  else m

/-- A write of an axis's CFG (R261): an axis that is enabled times its first set-point from here. -/
def motCfgWrite (a : Nat) (v : Word) (m : Mach) : Mach :=
  let was := m.on (R.MOT_CFG_EN a)
  let m := storeFields (R.MOT_CFG_EN a).key v m
  if !was && m.on (R.MOT_CFG_EN a) then m.setAxis a { m.axis a with last := m.clk.tick } else m

end Sys2Proof.Machine
end

