-- ==== Sys2Proof/Machine/Marks.lean ====
section
/-! DEFINITION. The mark unit (R226-R229): arming, abandonment, the windows and the results. -/

namespace Sys2Proof.Machine

/-! ## The frame -/

/-- Lines of a mark frame (R226). -/
def frameLines : Nat := 960

/-- A frame is armed or active. -/
def markBusy (m : Mach) : Bool := m.on R.ADC_MKSTAT_ARMED || m.on R.ADC_MKSTAT_ACTIVE

/-- Station s is included in frames. -/
def markIncl (m : Mach) (s : Nat) : Bool := s < m.nStn && m.on (R.ADC_MKSTN_INCL s)

/-- PDLY of a station; station 0 has none (R166). -/
def pdlyOf (m : Mach) (s : Nat) : Int := if s = 0 then 0 else m.getI (R.VID_LINECFG_PDLY s)

/-- A PPC value moved by a signed amount. -/
def ppcAdd (p : Ppc) (d : Int) : Ppc := p + BitVec.ofInt 48 d

/-- Target of the frame at a station: MKPOS + SDIST[s] + PDLY (R227). -/
def markTarget (m : Mach) (s : Nat) : Ppc := ppcAdd m.mark.pos (m.get (R.SLU_SDIST s) + pdlyOf m s)

/-- The frame is abandoned (R227). Its stations expose nothing of it from their next stroke start. -/
def markAbandon (m : Mach) : Mach :=
  if markBusy m then
    let m := { m with mark := { m.mark with legs := [], bars := [] } }
    let m := ((m.set R.ADC_MKSTAT_ARMED 0).set R.ADC_MKSTAT_ACTIVE 0).set R.ADC_MKSTAT_ABAND 1
    note 0x240 0x01 0 (assertEvent 0x241 m)
  else m

/-- Forecast of CPPC: captured, or PPC as it will stand at T_c at the present rate (DEDUCED, log entry 21). -/
def cppcForecast (m : Mach) (sh : Sheet) : Ppc :=
  if sh.state == .admitted then
    m.clk.ppc + BitVec.ofNat 48 (m.get R.CLK_PPCRATE * (sh.catchT.toNat - m.now) / 2 ^ 32)
  else sh.cppc

/-- A slave of a deepened engine places every station on PPC, beyond the master's (R390). -/
def deepenSlave (m : Mach) : Bool := m.get R.FJL_GRP_MODE = 2 && groupRole m = 2

/-- From CPPC to a station's line-0 point: SDIST[s] + PDLY, and DDIST on a deepened slave (R37, R390). -/
def stationOffset (m : Mach) (s : Nat) : Int :=
  m.get (R.SLU_SDIST s) + pdlyOf m s + if deepenSlave m then m.get R.FJL_DDIST_DIST else 0

/-- The sheet's line-0 point at a station: fixed once its catching stroke is selected. -/
def lineZero (m : Mach) (sh : Sheet) (s : Nat) : Ppc :=
  (tget {} s sh.legs).l0.getD (ppcAdd (cppcForecast m sh) (stationOffset m s))

/-- The frame's lines come within 16 lines of a sheet's lines at a station of both (R227). -/
def markOverlaps (m : Mach) (sh : Sheet) : Bool :=
  (List.range 5).any fun s =>
    markIncl m s && bitOf sh.planes s &&
      (let d := ppcDiff (markTarget m s).toNat (lineZero m sh s).toNat
       d < 64 * ((sh.lines : Int) + 16) && -(64 * ((frameLines : Int) + 16)) < d)

/-- Abandons the frame if a sheet in ADMITTED through IMAGING overlaps it (R227). -/
def markCheck (m : Mach) : Mach :=
  if markBusy m && (recsIn (fun st => st == .admitted || st.busy) m).any fun r => markOverlaps m (m.sheet r) then
    markAbandon m
  else m

/-! ## Commands -/

/-- ARM (R227). -/
def markArm (m : Mach) : Mach :=
  let pos : Ppc := BitVec.ofNat 48 (m.get R.ADC_MKPOS_LO_POS + m.get R.ADC_MKPOS_HI_POS * 2 ^ 32)
  if !m.on R.ADC_CTL_EN || !m.on R.ADC_MKCTL_MKEN || markBusy m || ppcDiff pos.toNat m.ppcNow < 4096 then
    m.set R.ADC_MKSTAT_REFUSED 1
  else
    let m := ((m.set R.ADC_MKSTAT_REFUSED 0).set R.ADC_MKSTAT_ABAND 0).set R.ADC_MKSTAT_ARMED 1
    let m := m.set R.ADC_MKSTAT_DIRTY 0
    markCheck { m with mark := { pos := pos, legs := [], bars := [] } }

/-- A write of MKCTL: MKEN = 0 and ABORT abandon the frame, ARM arms one (R227). -/
def mkctlWrite (v : Word) (m : Mach) : Mach :=
  let was := m.on R.ADC_MKCTL_MKEN
  let m := storeFields R.ADC_MKCTL_MKEN.key v m
  let m := when ((was && !m.on R.ADC_MKCTL_MKEN) || R.ADC_MKCTL_ABORT.of v = 1) markAbandon m
  when (R.ADC_MKCTL_ARM.of v = 1) markArm m

/-- MARK_ARM (R227). -/
def opMarkArm (q : Requester) (v : Word) (m : Mach) : Mach :=
  guarded q false R.ADC_MKCTL_MKEN.key (mkctlWrite (withBits v 1 1 1)) m

/-- MARK_ABORT (R227). -/
def opMarkAbort (q : Requester) (v : Word) (m : Mach) : Mach :=
  guarded q false R.ADC_MKCTL_MKEN.key (mkctlWrite (withBits v 2 2 1)) m

/-! ## Windows and results -/

/-- Centre of a window (R228), bar 0 straight and 1 slant, relative to MKPOS. -/
def windowCentre (m : Mach) (s bar : Nat) : Nat := m.get R.ADC_SENSDIST_DIST + 64 * (192 * s + if bar = 0 then 8 else 104)

/-- A stamp in 1/16 count, relative to a window's centre. -/
def barOffset (m : Mach) (s bar stamp : Nat) : Int :=
  sint 52 (stamp + 2 ^ 53 - ((m.mark.pos.toNat + windowCentre m s bar) * 16) % 2 ^ 52)

/-- The signal has crossed a threshold between two samples (stamp in 1/16 count, code): the stamp of the crossing,
interpolated linearly; the rounding to 1/16 count is open. -/
def crossing (thr : Int) (p q : Nat × Nat) (m : Mach) : Nat × Mach :=
  let dc : Int := (q.2 : Int) - p.2
  let n : Int := (thr - p.2) * (if dc < 0 then -1 else 1) * ((q.1 : Int) - p.1)
  let r := m.roundFree n dc.natAbs
  (((p.1 : Int) + r.1).toNat, r.2)

/-- The first crossing in a list of samples from `off` to `on`, with the samples after it. -/
def findEdge (on : Nat → Bool) : List (Nat × Nat) → Option ((Nat × Nat) × (Nat × Nat) × List (Nat × Nat))
  | p :: q :: t => if !on p.2 && on q.2 then some (p, q, q :: t) else findEdge on (q :: t)
  | _ => none

/-- The edges of a window (R228): the leading edge at THR into toner, the trailing edge back past THR with HYS. -/
def barEdges (s : Nat) (xs : List (Nat × Nat)) (m : Mach) : Option Nat × Option Nat × Mach :=
  let thr := m.get (R.ADC_MKSTN_THR s)
  let hys := m.get (R.ADC_MKSTN_HYS s)
  let pol := m.on (R.ADC_MKSTN_POL s)
  let inn (c : Nat) : Bool := if pol then thr < c else c < thr
  let back : Int := if pol then (thr : Int) - hys else thr + hys
  let out (c : Nat) : Bool := if pol then (c : Int) < back else back < c
  match findEdge inn xs with
  | none => (none, none, m)
  | some (p, q, rest) =>
    let l := crossing thr p q m
    match findEdge out rest with
    | none => (some l.1, none, l.2)
    | some (p', q', _) =>
      let t := crossing back p' q' l.2
      (some l.1, some t.1, t.2)

/-- Judges a bar's edges (R228): the sum of its stamps when it is valid. -/
def judgeBar (m : Mach) (s bar : Nat) (lead trail : Option Nat) : Option Int :=
  match lead, trail with
  | some l, some t =>
    let a := barOffset m s bar l
    let b := barOffset m s bar t
    let win : Int := 1024 * m.get R.ADC_MKCTL_WIN
    let tol : Int := 1024 * m.get R.ADC_MKCTL_WTOL
    if -win ≤ a && a ≤ win && -win ≤ b && b ≤ win && 16384 - tol ≤ b - a && b - a ≤ 16384 + tol then some (a + b)
    else none
  | _, _ => none

/-- The judged bar of a window; none while it is open. -/
def barAt (m : Mach) (s x bar : Nat) : Option (Option Int) := tfind ((s * 4 + x) * 2 + bar) m.mark.bars

/-- Results of one station (R229). -/
def markResult (s : Nat) (m : Mach) : Mach :=
  let both (x : Nat) : Option (Int × Int) :=
    match barAt m s x 0, barAt m s x 1 with
    | some (some a), some (some b) => some (a, b)
    | _, _ => none
  let m := each (List.range 4) (fun x m =>
    match both x with
    | some (a, b) => (m.setI (R.ADC_MKA_A s x) (a / 2)).setI (R.ADC_MKQ_Q s x) ((a - b) / 2)
    | none => (m.set (R.ADC_MKA_A s x) 0x80000000).set (R.ADC_MKQ_Q s x) 0x80000000) m
  let ok := (List.range 4).all fun x => (both x).isSome
  let m := when (!ok) (note 0x240 0x02 s) m
  let v := m.get R.ADC_MKSTAT_VALID
  m.set R.ADC_MKSTAT_VALID (if ok && !bitOf (m.get R.ADC_MKSTAT_DIRTY) s then setBit v s else clrBit v s)

/-- MARK_FRAME_RESULT (R229): every window of the frame has closed. -/
def markDone (m : Mach) : Mach :=
  let m := m.set R.ADC_MKSTAT_VALID 0
  let m := each ((List.range 5).filter (markIncl m)) markResult m
  let m := (m.set R.ADC_MKSTAT_ACTIVE 0).set R.ADC_MKSTAT_ARMED 0
  assertEvent 0x240 ((m.incWrap R.ADC_MKSTAT_SEQ))

/-- MARK_WINDOW_CLOSE (R228): the window of station s, sensor x and bar closes; the converter of the sensor has taken these
samples in it (PPC in 1/16 count, code), none while the converters are off (R224). -/
def opMarkWindowClose (s x bar : Nat) (samples : List (Nat × Nat)) (m : Mach) : Mach :=
  let close : Ppc := m.mark.pos + BitVec.ofNat 48 (windowCentre m s bar + 64 * m.get R.ADC_MKCTL_WIN)
  if markBusy m && markIncl m s && (barAt m s x bar).isNone && ppcReached m.ppcNow close.toNat then
    let (lead, trail, m) := barEdges s (if m.on R.ADC_CTL_EN then samples else []) m
    let m := { m with mark := { m.mark with bars := tput ((s * 4 + x) * 2 + bar) (judgeBar m s bar lead trail) m.mark.bars } }
    let all := (List.range 5).all fun s => !markIncl m s || (List.range 8).all fun i => (tfind (s * 8 + i) m.mark.bars).isSome
    when all markDone m
  else m

/-! ## The dots of a frame -/

/-- The value of dot d of a frame line that station s exposes, where the pattern of Table 8.2 has a mark; none where
the frame is blank. -/
def markDot (m : Mach) (s line d : Nat) : Option Nat :=
  let hit := (List.range 4).any fun x =>
    let c := m.get (R.ADC_MKX_DOT x)
    let near := c ≤ d + 64 && d < c + 64
    let l : Int := (line : Int) - 192 * s
    near && ((0 ≤ l && l < 16) || (let k := l - 96 - ((d : Int) - c); 0 ≤ k && k < 16))
  if hit then some (m.get (R.ADC_MKSTN_VAL s)) else none

end Sys2Proof.Machine
end

