-- ==== Sys2Proof/Machine/Watch.lean ====
section
/-! DEFINITION. The sensor window watches (R42, R430). -/

namespace Sys2Proof.Machine

/-! ## Judgements -/

/-- The edge is of the kind and on the input that the watch names. -/
def watchTakes (m : Mach) (w : Nat) (e : SnsEdge) : Bool :=
  m.get (R.SLU_WATCH_CFG_SNS w) == e.sns && (e.lvl != m.on (R.SLU_WATCH_CFG_POL w)) == !m.on (R.SLU_WATCH_CFG_EDGE w)

/-- A filtered edge reaches the watches: each judges it on the records as the edge found them, failures act before the
transitions that other watches hold (R26), and the whole is one step. -/
def watchesEdge (e : SnsEdge) (m : Mach) : Mach :=
  let verdicts := ((List.range 16).filter fun w => watchTakes m w e).map fun w => ((w, e), judgeEdge w e m)
  indivisible (fun m => settleEdges (advanceAll (each verdicts (fun p m => actOn p.1 p.2 m) m))) m

/-- WATCH_WINDOW_JUDGED (R430): CLOSE + DEB has passed without an edge. The filter time on a PPC base is counted at
the present PPC rate (DEDUCED, log entry 22). -/
def opWatchWindowJudged (w r : Nat) (m : Mach) : Mach :=
  let sh := m.sheet r
  let deb := usTicks (max 1 (m.get (R.SNS_CFG_DEB (m.get (R.SLU_WATCH_CFG_SNS w)))))
  let wait : Int := if m.on (R.SLU_WATCH_CFG_BASE w) then (deb * m.get R.CLK_PPCRATE / 2 ^ 32 : Nat) else deb
  if m.on R.SLU_CTL_EN && watchOpen w sh && baseKnown m w sh
      && m.getI (R.SLU_WATCH_CLOSE w) + wait < stampOffset m w sh m.clk.tick m.clk.ppc then
    snapTry (settleEdges (watchFail w (some r) m))
  else m

/-- A write of a watch's CFG (R430): EN = 1 with SNS above 47 is ignored as a whole. -/
def watchCfgWrite (w : Nat) (v : Word) (m : Mach) : Mach :=
  let key := (R.SLU_WATCH_CFG_EN w).key
  if (R.SLU_WATCH_CFG_EN w).of v = 1 && 47 < (R.SLU_WATCH_CFG_SNS w).of v then ignored key m else storeFields key v m

/-- WATCH_CFG_WRITE (R430): by a commit (R22). -/
def opWatchCfgWrite (core k w : Nat) (v : Word) (m : Mach) : Mach :=
  guarded (.ctx core k) true (R.SLU_WATCH_CFG_EN w).key (watchCfgWrite w v) m

/-- SENSOR_EDGE (R259): the filtered level changes, and the edge reaches watches, limits and homing. -/
def opSensorEdge (i : Nat) (m : Mach) : Mach :=
  match filteredEdge i m with
  | some (e, m) => axesEdge e (if m.on R.SLU_CTL_EN then watchesEdge e m else m)
  | none => m

/-- SNS_RAW_TRANSITION (R259, R260, R269). An edge whose filter time has passed is delivered before the transition restarts
the filter or declares chatter (Table 9.3). -/
def opSnsRawTransition (i : Nat) (lvl : Bool) (m : Mach) : Mach :=
  let r := rawChange i lvl (if m.on (R.SNS_STAT_RAW i) == lvl then m else opSensorEdge i m)
  when r.2 (axesChatter i) r.1

end Sys2Proof.Machine
end

