-- ==== Sys2Proof/Machine/Sluice.lean ====
section
/-! DEFINITION. The Sluice (chapter 1): creates, operations and record writes of a commit, the arm, the catch and
the transitions that hardware makes (R19-R41), snapshots' own events (R44-R48). -/

namespace Sys2Proof.Machine

/-! ## Guards -/

/-- A byte of the guard registers (Table 13.7), by its offset in the envelope record. -/
def guardByte (m : Mach) (o : Nat) : Nat := (m.word (R.ENV_GUARD (o / 4)).key).toNat / 2 ^ (o % 4 * 8) % 256

/-- A 16-bit guard. -/
def guard16 (m : Mach) (o : Nat) : Nat := guardByte m o + 256 * guardByte m (o + 1)

/-- A 32-bit guard. -/
def guard32 (m : Mach) (o : Nat) : Nat := guard16 m o + 65536 * guard16 m (o + 2)

/-! ## Results -/

/-- Leaves a result in the requester's own SLU_OPRES (R31). -/
def sluResult (core k code rec op : Nat) (m : Mach) : Mach :=
  let q := cix core k
  let key := R.SLU_OPRES_CODE.key
  let seq := R.SLU_OPRES_SEQ.of (m.own q key)
  m.setOwn q key (BitVec.ofNat 32 (code + rec % 256 * 2 ^ 8 + op % 16 * 2 ^ 16 + (seq + 1) % 256 * 2 ^ 20))

/-- The lowest-numbered FREE record. -/
def freeRec (m : Mach) : Option Nat := (List.range 256).find? fun r => (m.sheet r).state == .free

/-- SLU_CREATE (R31, R19): SIDORDER is reported before FULL (Table 1.8's order). -/
def sluCreate (core k : Nat) (sid : Sid) (m : Mach) : Mach :=
  if !sidLater sid (BitVec.ofNat 24 (m.get R.SLU_LASTSID_SID)) then sluResult core k 0x11 0 0 m
  else match freeRec m with
    | none => sluResult core k 0x12 0 0 m
    | some r =>
      let m := m.setSheet r { ({} : Sheet) with sid := sid }
      let m := recount r (sheetTo r .queued m)
      sluResult core k 0 r 0 (m.set R.SLU_LASTSID_SID sid.toNat)

/-! ## Conditions of Table 1.8 -/

/-- In-flight limit as it acts: 0 as 1, above 48 as 48 (Table 1.5). -/
def maxFlight (m : Mach) : Nat := clampN 1 48 (m.get R.SLU_CTL_MAXFLT)

/-- LINES lies above the envelope's sheet-length ceiling. -/
def overLength (m : Mach) (sh : Sheet) : Bool := guard32 m 0x018 < sh.lines

/-- Condition FIELD holds. -/
def fieldsOk (m : Mach) (sh : Sheet) : Bool :=
  sh.planes != 0 && sh.planes < 2 ^ m.nStn
    && sh.width % 2 == 0 && 2 ≤ sh.width && sh.width ≤ 15616
    && 1 ≤ sh.lines && sh.lines ≤ 62362 && !overLength m sh
    && sh.speed ≤ m.get R.SLU_CTL_NSTEP && m.get (R.SLU_SPD_LINETK sh.speed) != 0
    && (!sh.early || (1 ≤ sh.nearly && sh.nearly ≤ sh.bands))

/-- The early-catch rule applies now (R35). -/
def earlyNow (m : Mach) (sh : Sheet) : Bool := sh.early && m.on R.SLU_CTL_EARLYEN

/-- Condition RESID holds (R34, R35). -/
def residOk (m : Mach) (sh : Sheet) : Bool :=
  (List.range 5).all fun n => !bitOf sh.planes n ||
    (if earlyNow m sh then sh.nearly ≤ sh.res.getD n 0 else sh.res.getD n 0 == sh.bands)

/-- Condition STATION holds at every station in PLANES; a hot head fails it too (Table 6.5). -/
def stationsOk (m : Mach) (sh : Sheet) : Bool :=
  (List.range 5).all fun s => !bitOf sh.planes s ||
    (domUp (4 + s) m && m.on (R.CLK_SYN_STAT_LOCK (2 + s)) && m.on (R.VID_PLOCK_LOCK s) && !m.on (R.VID_STAT_HTHARD s))

/-- The latest-catching record in ADMITTED, CAUGHT or IMAGING. -/
def latestCatch (m : Mach) : Option Nat :=
  (recsIn (fun st => st == .admitted || st.busy) m).foldl (fun best r =>
    match best with
    | none => some r
    | some b => if (m.sheet b).catchT.toNat < (m.sheet r).catchT.toNat then some r else some b) none

/-- Condition SPACING holds. -/
def spacingOk (m : Mach) (sh : Sheet) : Bool :=
  match latestCatch m with
  | none => true
  | some p =>
    let ps := m.sheet p
    ps.catchT.toNat + ceilDiv ((ps.lines + m.get R.SLU_GAPMIN) * m.get (R.SLU_SPD_LINETK ps.speed)) 65536
      ≤ sh.catchT.toNat

/-- Condition ORDER holds. -/
def orderOk (m : Mach) (sh : Sheet) : Bool := (recsIn (·.engaged) m).all fun r => sidLater sh.sid (m.sheet r).sid

/-- Watches that are enabled, as a bit set. -/
def watchesOn (m : Mach) : Nat := (List.range 16).foldl (fun n w => n + b2n (m.on (R.SLU_WATCH_CFG_EN w)) * 2 ^ w) 0

/-- Condition WATCH holds. -/
def watchesOk (m : Mach) : Bool :=
  let en := (List.range 16).filter fun w => m.on (R.SLU_WATCH_CFG_EN w)
  (en.any fun w => m.on (R.SLU_WATCH_CFG_FUSE w)) && en.any fun w => m.on (R.SLU_WATCH_CFG_TERM w)

/-- Local T of a catch-table entry. -/
def catchEntryT (m : Mach) (e : Nat) : Nat := m.get (R.FJL_CTAB_T_LO_T e) + m.get (R.FJL_CTAB_T_HI_T e) * 2 ^ 32

/-- Condition GROUP holds (R385). -/
def groupOk (m : Mach) (sh : Sheet) : Bool :=
  groupRole m != 2 || (List.range 64).any fun e =>
    m.on (R.FJL_CTAB_VALID e) && m.get (R.FJL_CTAB_SID e) == sh.sid.toNat && catchEntryT m e == sh.catchT.toNat

/-- The first failing condition of RESERVE, 0 when none fails. -/
def reserveCode (m : Mach) (sh : Sheet) : Nat :=
  if sh.state != .queued then 0x01
  else if maxFlight m ≤ countIn (·.inFlight) m then 0x03
  else if !fieldsOk m sh then 0x04
  else if !residOk m sh then 0x05
  else 0

/-- The first failing condition of ADMIT, in the order of Table 1.8, 0 when none fails. -/
def admitCode (m : Mach) (sh : Sheet) : Nat :=
  if sh.state != .ready then 0x01
  else if !m.on R.SLU_CTL_EN || classOpen 2 m || classOpen 3 m || classOpen 4 m then 0x02
  else if !residOk m sh then 0x05
  else if sh.speed != m.get R.SLU_RSV_SPEED || !m.on R.SLU_RSV_SPDOK then 0x06
  else if m.on R.SLU_RSV_TENF && m.get R.SLU_RSV_TMAX < sh.speed then 0x07
  else if sh.fusband != m.get R.SLU_RSV_FUSBAND || !m.on R.SLU_RSV_FUSOK then 0x08
  else if sh.hvset != m.get R.SLU_RSV_HVSET || !m.on R.SLU_RSV_HVOK then 0x09
  else if !stationsOk m sh then 0x0A
  else if lockPoint sh m < (m.now + m.get R.SLU_MINLEAD : Nat) then 0x0B
  else if !spacingOk m sh then 0x0C
  else if !orderOk m sh then 0x0D
  else if !watchesOk m then 0x0E
  else if !groupOk m sh then 0x0F
  else 0

/-! ## Operations (Table 1.7) -/

/-- RESERVE (R32). -/
def sluReserve (core k r : Nat) (m : Mach) : Mach :=
  let sh := m.sheet r
  let c := reserveCode m sh
  let m := when (c == 0x04 && overLength m sh) (·.set R.ENV_CLAMP_SHEET 1) m
  sluResult core k c r 0x1 (if c = 0 then sheetTo r .ready m else m)

/-- The instant T_c + GATEOFF. -/
def gateTime (sh : Sheet) : Tick := sh.catchT + BitVec.ofInt 64 (sint 32 sh.gateoff.toNat)

/-- Delivers the gate time of a record to the gate axis (R38, R265). -/
def sendGate (r : Nat) (m : Mach) : Mach :=
  let sh := m.sheet r
  gateDeliver sh.sid (gateTime sh) (m.setSheet r { sh with gateSent := true })

/-- ADMIT (R32): the rule for early catch and the watches are fixed, an overlapping mark frame is abandoned (R227),
and a gate time earlier than the arm is delivered at once (R38). -/
def sluAdmit (core k r : Nat) (m : Mach) : Mach :=
  let sh := m.sheet r
  let c := admitCode m sh
  if c != 0 then sluResult core k c r 0x2 m
  else
    let m := m.setSheet r { sh.unadmitted with earlyRule := earlyNow m sh, watches := watchesOn m, judged := 0 }
    let m := markCheck (sheetTo r .admitted m)
    let m := when (sint 32 sh.gateoff.toNat < -(m.get R.SLU_ARMLEAD : Int)) (sendGate r) m
    sluResult core k 0 r 0x2 m

/-- The lock point has been reached: UNADMIT and WITHDRAW fail (Table 1.13). -/
def lockedCode (m : Mach) (sh : Sheet) : Nat := if sh.state == .admitted && pastLock sh m then 0x10 else 0

/-- UNADMIT (R32). -/
def sluUnadmit (core k r : Nat) (m : Mach) : Mach :=
  let sh := m.sheet r
  let c := if sh.state != .admitted then 0x01 else lockedCode m sh
  sluResult core k c r 0x3 (if c = 0 then snapTry (settleEdges (sheetTo r .ready m)) else m)

/-- WITHDRAW (R32). -/
def sluWithdraw (core k r : Nat) (m : Mach) : Mach :=
  let sh := m.sheet r
  let c := if sh.state == .queued || sh.state == .ready || sh.state == .admitted then lockedCode m sh else 0x01
  sluResult core k c r 0x4 (if c = 0 then snapTry (settleEdges (sheetTo r .withdrawn m)) else m)

/-- UNRESERVE (R31). -/
def sluUnreserve (core k r : Nat) (m : Mach) : Mach :=
  let c := if (m.sheet r).state == .ready then 0 else 0x01
  sluResult core k c r 0x5 (if c = 0 then sheetTo r .queued m else m)

/-- FREE (R19, R31): only STATE and TRTICK change. -/
def sluFree (core k r : Nat) (m : Mach) : Mach :=
  let c := if (m.sheet r).state.terminal then 0 else 0x01
  sluResult core k c r 0x6 (if c = 0 then sheetTo r .free m else m)

/-- A committed write of SLU_OP (R31). -/
def sluOp (core k : Nat) (v : Word) (m : Mach) : Mach :=
  let r := R.SLU_OP_REC.of v
  match R.SLU_OP.of v with
  | 1 => sluReserve core k r m
  | 2 => sluAdmit core k r m
  | 3 => sluUnadmit core k r m
  | 4 => sluWithdraw core k r m
  | 5 => sluUnreserve core k r m
  | 6 => sluFree core k r m
  | op => sluResult core k 0x01 r op m

/-! ## Record writes (R21) -/

/-- The key of a record's word. -/
def recKey (r w : Nat) : Nat := 0x072000 + r * 0x40 + w * 4

/-- The RW fields of a record's word, from a written word (Table 1.1). -/
def Sheet.put (sh : Sheet) (w : Nat) (v : Word) : Sheet :=
  match w with
  | 1 => { sh with early := bitOf v.toNat 0, reimg := bitOf v.toNat 3, sideb := bitOf v.toNat 4,
                   planes := bitsOf v 9 5, speed := bitsOf v 12 10, nearly := bitsOf v 25 16 }
  | 2 => { sh with lines := bitsOf v 15 0, width := bitsOf v 29 16 }
  | 3 => { sh with fusband := bitsOf v 3 0, hvset := bitsOf v 7 4, media := bitsOf v 15 8, hosttag := bitsOf v 31 16 }
  | 4 => { sh with catchT := BitVec.ofNat 64 (sh.catchT.toNat / 2 ^ 32 * 2 ^ 32 + v.toNat) }
  | 5 => { sh with catchT := BitVec.ofNat 64 (v.toNat * 2 ^ 32 + sh.catchT.toNat % 2 ^ 32) }
  | 6 => { sh with gateoff := v }
  | 7 => { sh with origsid := BitVec.ofNat 24 v.toNat }
  | 9 => { sh with dlmargin := bitsOf v 31 16 }
  | _ => sh

/-- A committed write of a record's word (R21): in QUEUED every RW field, in READY SPEED and the catch time. A write of
word 0x04 to a READY record raises the note when it changes an RW field other than SPEED; a difference in a read-only
or reserved bit, which R14 and Table 0.3 give no effect, raises none (DEDUCED, log entry 45). -/
def sluRecordWrite (r w : Nat) (v : Word) (m : Mach) : Mach :=
  let sh := m.sheet r
  match sh.state with
  | .queued =>
    let new := sh.put w v
    let m := m.setSheet r new
    let m := when (new.reimg && !sh.reimg) (jsRelease sh.sid) m
    if w = 1 || w = 2 || w = 7 then recount r m else m
  | .ready =>
    if w = 4 || w = 5 then m.setSheet r (sh.put w v)
    else if w = 1 then
      let m := m.setSheet r { sh with speed := bitsOf v 12 10 }
      when ({ sh.put 1 v with speed := sh.speed } != sh) (ignored (recKey r 1)) m
    else ignored (recKey r w) m
  | _ => ignored (recKey r w) m

/-! ## SLU_CTL and SLU_RSV -/

/-- SLU_CTL_WRITE (R28). -/
def sluCtlSet (v : Word) (m : Mach) : Mach :=
  let key := R.SLU_CTL_EN.key
  if R.SLU_CTL_EN.of v = 1 && 11 < R.SLU_CTL_GATEAX.of v then ignored key m
  else if R.SLU_CTL_EN.of v = 0 && m.on R.SLU_CTL_EN && 0 < countIn (·.engaged) m then ignored key m
  else storeFields key v m

/-- One reservation field of an SLU_RSV write (R29): refused while `busy`, else a change clears the OK bit. -/
def rsvField (f ok : FRef) (busy : Bool) (v : Word) (m : Mach) : Mach :=
  if f.of v = m.get f then m.set ok (ok.of v)
  else if busy then ignored R.SLU_RSV_SPEED.key (m.set ok (ok.of v))
  else (m.set f (f.of v)).set ok 0

/-- SLU_RSV_WRITE (R29); a change of SPEED abandons a mark frame (R227). -/
def sluRsvSet (v : Word) (m : Mach) : Mach :=
  let old := m.get R.SLU_RSV_SPEED
  let m' := rsvField R.SLU_RSV_SPEED R.SLU_RSV_SPDOK (0 < countIn (fun st => st == .admitted || st.busy) m) v m
  let m' := rsvField R.SLU_RSV_HVSET R.SLU_RSV_HVOK (0 < countIn (fun st => st == .admitted || st.busy) m) v m'
  let m' := rsvField R.SLU_RSV_FUSBAND R.SLU_RSV_FUSOK
    (0 < countIn (fun st => st == .admitted || st.busy || st == .transferred) m) v m'
  when (m'.get R.SLU_RSV_SPEED != old) markAbandon m'

/-! ## Commands by a commit -/

/-- A committed write by a context to block SLU. -/
def byCommit (core k key : Nat) (f : Mach → Mach) (m : Mach) : Mach := guarded (.ctx core k) true key f m

/-- SLU_CREATE (R31). -/
def opSluCreate (core k : Nat) (sid : Sid) (m : Mach) : Mach :=
  byCommit core k R.SLU_CREATE_SID.key (sluCreate core k sid) m
/-- RESERVE (R32). -/
def opReserve (core k r : Nat) (m : Mach) : Mach := byCommit core k R.SLU_OP.key (sluReserve core k r) m
/-- ADMIT (R32). -/
def opAdmit (core k r : Nat) (m : Mach) : Mach := byCommit core k R.SLU_OP.key (sluAdmit core k r) m
/-- UNADMIT (R32). -/
def opUnadmit (core k r : Nat) (m : Mach) : Mach := byCommit core k R.SLU_OP.key (sluUnadmit core k r) m
/-- WITHDRAW (R32). -/
def opWithdraw (core k r : Nat) (m : Mach) : Mach := byCommit core k R.SLU_OP.key (sluWithdraw core k r) m
/-- UNRESERVE (R31). -/
def opUnreserve (core k r : Nat) (m : Mach) : Mach := byCommit core k R.SLU_OP.key (sluUnreserve core k r) m
/-- FREE (R31). -/
def opFree (core k r : Nat) (m : Mach) : Mach := byCommit core k R.SLU_OP.key (sluFree core k r) m
/-- SLU_OP_UNDEFINED (R31): OP 0x0 and 0x7-0xF fail with STATE. -/
def opSluOpUndefined (core k op r : Nat) (m : Mach) : Mach :=
  byCommit core k R.SLU_OP.key (sluResult core k 0x01 r op) m
/-- SHEET_RECORD_WRITE (R21). -/
def opSheetRecordWrite (core k r w : Nat) (v : Word) (m : Mach) : Mach :=
  byCommit core k (recKey r w) (sluRecordWrite r w v) m
/-- SLU_CTL_WRITE (R28). -/
def opSluCtlWrite (core k : Nat) (v : Word) (m : Mach) : Mach := byCommit core k R.SLU_CTL_EN.key (sluCtlSet v) m
/-- SLU_RSV_WRITE (R29). -/
def opSluRsvWrite (core k : Nat) (v : Word) (m : Mach) : Mach := byCommit core k R.SLU_RSV_SPEED.key (sluRsvSet v) m

/-! ## What the ledger does by itself -/

/-- THROTTLE_SPEED_STEP (R30). -/
def opThrottleSpeedStep (m : Mach) : Mach :=
  if m.on R.SLU_RSV_TENF && countIn (fun st => st == .admitted || st.busy) m = 0
      && m.get R.SLU_RSV_TMAX < m.get R.SLU_RSV_SPEED then
    markAbandon ((m.set R.SLU_RSV_SPEED (m.get R.SLU_RSV_TMAX)).set R.SLU_RSV_SPDOK 0)
  else m

/-- GROUP_MISS_CHECK (R386): catch-table entries whose arm has come and whose SID has no ADMITTED record. -/
def groupMissCheck (m : Mach) : Mach :=
  if groupRole m != 2 then m
  else each (List.range 64) (fun e m =>
    let sid := m.get (R.FJL_CTAB_SID e)
    if m.on (R.FJL_CTAB_VALID e) && !bitOf m.fjl.armChecked e && catchEntryT m e ≤ m.now + m.get R.SLU_ARMLEAD then
      let m := { m with fjl := { m.fjl with armChecked := setBit m.fjl.armChecked e } }
      if (recsIn (· == .admitted) m).any fun r => (m.sheet r).sid.toNat == sid then m
      else
        let m := raise 0x203 0x06 0 m (BitVec.ofNat 24 sid)
        frameSend { cls := 2, grp := false, bc := false, typ := 3, hops := 255, dst := m.get (R.FJL_GMEM_ADDR 0),
                    src := 0, lseq := 0, body := [BitVec.ofNat 32 sid, BitVec.ofNat 32 (m.get R.FJL_NODE_ADDR)] } m
    else m) m

/-- SHEET_ARM (R38): at T_c - ARMLEAD the catch is delivered to the islands and feeders of PLANES and to the gate
axis; on a group slave the catch table is checked. -/
def opSheetArm (r : Nat) (m : Mach) : Mach :=
  let sh := m.sheet r
  let m := if m.on R.SLU_CTL_EN && sh.state == .admitted && !sh.armed && sh.catchT.toNat ≤ m.now + m.get R.SLU_ARMLEAD then
      let m := m.setSheet r { sh with armed := true }
      if sh.gateSent then m else sendGate r m
    else m
  groupMissCheck m

/-- CATCH (R37): the record becomes CAUGHT, CPPC and TRTICK are captured, held edges are judged. -/
def opCatch (r : Nat) (m : Mach) : Mach :=
  let sh := m.sheet r
  if m.on R.SLU_CTL_EN && sh.state == .admitted && sh.catchT.toNat ≤ m.now then
    let legs := match tfind 0 sh.legs with
      | some l => if deepenSlave m then sh.legs else tput 0 { l with l0 := some m.clk.ppc } sh.legs
      | none => sh.legs
    let m := m.setSheet r { sh with cppc := m.clk.ppc, legs := legs }
    snapTry (settleEdges (sheetAdvance r (sheetTo r .caught m)))
  else m

/-- Takes every catch that is due. -/
def catchesDue (m : Mach) : Mach :=
  each ((recsIn (· == .admitted) m).filter fun r => (m.sheet r).catchT.toNat ≤ m.now) opCatch m

/-- PPC_WATCHDOG_EXPIRE (R70): PPCWDOG TICKs have passed without a write; PPCWDOG acts as written, also outside the range
that Table 2.3 gives (DESIGN CHOICE, log entry 45). A catch of the same cycle comes first (Table 2.7). -/
def opPpcWatchdogExpire (m : Mach) : Mach :=
  if m.on R.CLK_STATUS_PPCOK && m.clk.ppcWrite.toNat + m.get R.CLK_PPCWDOG ≤ m.now then
    indivisible (fun m => raise 0x018 0x05 3 (loseAll 0x018 0x05 3 (catchesDue (m.set R.CLK_STATUS_PPCOK 0)))) m
  else m

/-- SHEET_TRANSFERRED (R24): PPC has reached CPPC + TRDIST + 64 x LINES. -/
def opSheetTransferred (r : Nat) (m : Mach) : Mach :=
  let sh := m.sheet r
  let at_ := sh.cppc.toNat + m.get R.SLU_TRDIST + 64 * sh.lines
  if m.on R.SLU_CTL_EN && sh.state.busy && !sh.heldTransfer && ppcReached m.ppcNow (at_ % 2 ^ 48) then
    snapTry (sheetAdvance r (m.setSheet r { sh with heldTransfer := true }))
  else m

/-- Runs a sheet out from the first line of a band: with RUNALL = 0 only the named station blanks, and only from that
line (R40). -/
def runOutBand (r s k : Nat) (m : Mach) : Mach :=
  if m.on R.SLU_CTL_RUNALL then runOut r none m
  else
    let sh := m.sheet r
    let l := tget {} s sh.legs
    let b := match l.blankFrom with | some b => min b (64 * k) | none => 64 * k
    m.setSheet r { sh with spoil := true, legs := tput s { l with blankFrom := some b } sh.legs }

/-- A band is found late or corrupt (R35, R159): SPOIL, SPBAND and SPSTN, and the run-out, before the fault. -/
def spoilBand (r s k src kind : Nat) (m : Mach) : Mach :=
  let sh := m.sheet r
  if !sh.state.engaged then raise src kind 1 m sh.sid
  else
    let sh' := if sh.spband = 0x3FF then { sh with spband := k, spstn := s } else sh
    let m := runOutBand r s k (m.setSheet r (sh'.blame src kind 1))
    let msg : Msg := { src := src, kind := kind, cls := 1, sid := sh.sid, stn := some s }
    -- the run-out above already says which lines blank, so the message adds no station of its own
    snapTry (groupEffects msg false (collect msg m))

/-- BAND_DEADLINE (R35): PPC has reached the deadline of a band at a station. -/
def opBandDeadline (r s k : Nat) (m : Mach) : Mach :=
  let sh := m.sheet r
  let at_ := (lineZero m sh s).toNat + 64 * (64 * k - sh.dlmargin)
  if m.on R.SLU_CTL_EN && (sh.state.busy || sh.state == .transferred || sh.state == .fused) && sh.earlyRule
      && bitOf sh.planes s && k < sh.bands && sh.nextDl.getD s 0 ≤ k && ppcReached m.ppcNow (at_ % 2 ^ 48) then
    let m := m.setSheet r { sh with nextDl := sh.nextDl.set s (k + 1) }
    if k < sh.res.getD s 0 || sh.spoil then m else spoilBand r s k 0x070 0x01 m
  else m

/-! ## Snapshots -/

/-- SNAPSHOT_PERIODIC_TRIGGER (R44): a multiple of 1 ms of TICK has come. -/
def opSnapshotPeriodicTrigger (m : Mach) : Mach :=
  if m.on R.SNAP_CTL_EN && multipleIn (msTicks 1) 0 m.snap.perFrom.toNat m.now then
    snapTry { m with snap := { m.snap with perFrom := m.clk.tick, waitPer := m.snap.waitPer + 1 } }
  else m

/-- Gives a built frame its number and queues it; with 64 waiting the newest is dropped (R48). -/
def queueFrame (body : List Word) (m : Mach) : Mach :=
  let seq := m.word R.SNAP_HSFSEQ.key
  let m := m.incWrap R.SNAP_HSFSEQ
  if m.snap.frames.length < 64 then { m with snap := { m.snap with frames := m.snap.frames ++ [(seq, body)] } }
  else m.incSat R.SNAP_STAT_HSFDROP

/-- Base of a bank in the internal map. -/
def bankBase (b : Nat) : Nat := 0x00307F0000 + b * 0x8000

/-- Writes a capture's words into its bank: words it does not list are zero (Table 1.14). -/
def writeBank (c : Capture) (mem : Mem) : Mem :=
  let lo := bankBase c.bank
  c.words.foldl (fun mm p => mm.wrWord (lo + p.1) p.2) { mem with ram := cellsClear lo (lo + 0x8000) mem.ram }

/-- SNAPSHOT_CAPTURE_DONE (R45): the bank is written, LATEST and EPOCH change, frames are queued, and the next
waiting capture begins. -/
def opSnapshotCaptureDone (m : Mach) (mem : Mem) : Mach × Mem :=
  match m.snap.writing with
  | none => (m, mem)
  | some c =>
    let m := (m.set R.SNAP_STAT_LATEST c.bank).setWord R.SNAP_EPOCH.key c.epoch
    let m := { m with snap := { m.snap with writing := none, lastBank := some c.bank } }
    (snapTry (each c.frames queueFrame m), writeBank c mem)

/-- A read of a bank holds it for 1 ms (R46). -/
def holdBank (b : Nat) (m : Mach) : Mach :=
  let t := some (BitVec.ofNat 64 (m.now + msTicks 1))
  { m with snap := if b = 0 then { m.snap with hold0 := t } else { m.snap with hold1 := t } }

/-- A word of a bank as a read returns it: while a capture writes the bank its EPOCH_HEAD is already the new one, and
its body still the old one (R45; DESIGN CHOICE, log entry 23). -/
def bankWord (b off : Nat) (mem : Mem) (m : Mach) : Word :=
  match m.snap.writing with
  | some c => if c.bank = b ∧ off = 0 then c.epoch else mem.rdWord (bankBase b + off)
  | none => mem.rdWord (bankBase b + off)

/-- Gives a requester the word it has read. -/
def Mach.answer (m : Mach) (q : Requester) (w : Word) : Mach := { m with reply := tput (Requester.id q) w m.reply }

/-- SNAPSHOT_BANK_READ (R46): the word is returned and the bank is held. -/
def opSnapshotBankRead (q : Requester) (b off : Nat) (mem : Mem) (m : Mach) : Mach :=
  holdBank b (m.answer q (bankWord b (off / 4 * 4) mem m))

/-- SNAPSHOT_HOLD_EXPIRE (R46). -/
def opSnapshotHoldExpire (b : Nat) (m : Mach) : Mach :=
  match (if b = 0 then m.snap.hold0 else m.snap.hold1) with
  | some t =>
    if t.toNat ≤ m.now then
      snapTry { m with snap := if b = 0 then { m.snap with hold0 := none } else { m.snap with hold1 := none } }
    else m
  | none => m

end Sys2Proof.Machine
end

