-- ==== Sys2Proof/Machine/Beam.lean ====
section
/-! DEFINITION. The video islands (chapter 6): polygon lock and facet identity, the selection of the catching stroke,
the live feather, the pulses of a stroke, the duty guards, retirement and the drive-link frames. -/

namespace Sys2Proof.Machine

/-- Dual pass. -/
def dualPass (m : Mach) (s : Nat) : Bool := m.on (R.VID_CTL_PASS s)

/-- Stroke advance L in lines (R164). -/
def advLines (m : Mach) (s : Nat) : Nat := if dualPass m s then 8 else 16

/-- Facets F. -/
def facetsOf (m : Mach) (s : Nat) : Nat := max 1 (m.get (R.VID_CTL_FACETS s))

/-- Zones Z. -/
def zonesOf (m : Mach) (s : Nat) : Nat := m.get (R.VID_CTL_NZM1 s) + 1

/-- The first dot of zone z; zone 0 starts at dot 0. -/
def zoneStart (m : Mach) (s z : Nat) : Nat := if z = 0 then 0 else m.get (R.VID_ZSTART_DOT s z)

/-- Zone z is empty: its start does not exceed that of a zone before it (R182). -/
def zoneEmpty (m : Mach) (s z : Nat) : Bool := (List.range z).any fun y => zoneStart m s z ≤ zoneStart m s y

/-- The caught sheets of station s: records in CAUGHT through FUSED with a plane there, and one still ADMITTED whose
catching stroke at the station has started (R100). -/
def caughtAt (s : Nat) (m : Mach) : List Nat :=
  (recsIn (·.engaged) m).filter fun r =>
    let sh := m.sheet r
    bitOf sh.planes s && (sh.state != .admitted || (tget {} s sh.legs).begun)

/-- Raises a fault naming each sheet of a list. -/
def raiseEach (src kind cls : Nat) (rs : List Nat) (m : Mach) : Mach :=
  each rs (fun r m => raise src kind cls m (m.sheet r).sid) m

/-- The same; with no sheet to name, one message names none (SID 0). -/
def raiseNaming (src kind cls : Nat) (rs : List Nat) (m : Mach) : Mach :=
  if rs.isEmpty then raise src kind cls m else raiseEach src kind cls rs m

/-! ## Polygon lock (R233) -/

/-- PLOCK.LOCK falls (R233): poly-unlock, and identity is to be established anew (R185). -/
def polyUnlock (s : Nat) (m : Mach) : Mach :=
  let m := m.onVid s fun v => { v with lockRun := 0, missRun := 0, sigSums := [], sigCount := 0 }
  if !m.on (R.VID_PLOCK_LOCK s) then m
  else
    let m := lockDrop s m
    let rs := unexposed s m
    if rs.isEmpty then note (vidSrc s 3) 0x0D 0 m else raiseEach (vidSrc s 3) 0x0D 1 rs m

/-- The judgement of a stroke's advance, adv in 1/16 count (R233; an NLOCK of 0 acts as 1). -/
def polyJudge (s adv : Nat) (m : Mach) : Mach :=
  let nom := 1024 * advLines m s
  let dev := if adv < nom then nom - adv else adv - nom
  let tol := m.get (R.VID_PLOCK_FTOL s)
  let v := m.vidOf s
  let lockRun := if dev ≤ tol then v.lockRun + 1 else 0
  let missRun := if 4 * tol < dev then v.missRun + 1 else 0
  let m := m.setVid s { v with lockRun := lockRun, missRun := missRun }
  if m.on (R.VID_PLOCK_LOCK s) then when (4 ≤ missRun) (polyUnlock s) m
  else if max 1 (m.get (R.VID_PLOCK_NLOCK s)) ≤ lockRun then
    assertEvent (vidEvent s 5) (m.set (R.VID_PLOCK_LOCK s) 1)
  else m

/-! ## Facet identity (R185, R186) -/

/-- facet-identity, in the class of IDCFG.IDCLS (values outside 1 to 3 act as the nearer limit). -/
def facetFault (s : Nat) (m : Mach) : Mach :=
  let cls := clampN 1 3 (m.get (R.VID_IDCFG_IDCLS s))
  setIdok s false (raiseNaming (vidSrc s 2) 0x04 cls (caughtAt s m) m)

/-- FZ_EDGE (R185): the next BD is the first after it. -/
def opFzEdge (s : Nat) (m : Mach) : Mach :=
  if m.on (R.VID_CTL_EN s) && m.on (R.VID_CTL_FZEN s) then m.onVid s fun v => { v with fzPend := true } else m

/-- FACETs at a BD edge: the next facet, or what the facet-zero edge before it makes of the count (R185). -/
def facetAtBd (s : Nat) (m : Mach) : Mach :=
  let f := facetsOf m s
  let v := m.vidOf s
  let next := (m.get (R.CLK_TB_FACET s) + 1) % f
  if !v.fzPend then
    (m.set (R.CLK_TB_FACET s) next).setVid s { v with bdSince := v.bdSince + 1 }
  else if !v.fzHave then
    (m.set (R.CLK_TB_FACET s) 0).setVid s { v with fzPend := false, fzHave := true, bdSince := 1, rezero := false }
  else
    let off := if v.bdSince < f then f - v.bdSince else v.bdSince - f
    let v' := { v with fzPend := false, bdSince := 1 }
    if off ≤ m.get (R.VID_IDCFG_FZTOL s) then
      setIdok s true ((m.set (R.CLK_TB_FACET s) 0).setVid s { v' with fzMiss := 0, rezero := false })
    else
      let zero := v.rezero && !duringSheet s m
      let m := (m.set (R.CLK_TB_FACET s) (if zero then 0 else next)).setVid s
        { v' with fzMiss := v.fzMiss + 1, rezero := true }
      let m := note (vidSrc s 2) 0x03 0 (m.incSat (R.VID_STAT_FZMISS s))
      when (v.fzMiss + 1 == 2) (facetFault s) m

/-- A BD edge counts FACETs; a count that does not go on by one begins the signature measurement anew (R186). -/
def facetCount (s : Nat) (m : Mach) : Mach :=
  let n := facetAtBd s m
  if n.get (R.CLK_TB_FACET s) = (m.get (R.CLK_TB_FACET s) + 1) % facetsOf m s then n
  else n.onVid s fun v => { v with sigSums := [], sigCount := 0 }

/-- A forecast stroke advances FACETs without a BD edge (R187). -/
def facetForecast (s : Nat) (m : Mach) : Mach :=
  m.set (R.CLK_TB_FACET s) ((m.get (R.CLK_TB_FACET s) + 1) % facetsOf m s)

/-- The averages of a signature in ppm of their mean (R186 step 2); the rounding is open. -/
def sigPpms (avgs : List Nat) (m : Mach) : List Int × Mach :=
  let sum : Nat := max 1 (avgs.foldl (fun a b => a + b) 0)
  avgs.foldl (fun (p : List Int × Mach) (a : Nat) =>
    let q := p.2.roundFree (((a : Int) * avgs.length - sum) * 1000000) sum
    (p.1 ++ [q.1], q.2)) ([], m)

/-- Sum of the squared differences from SIG when position i is facet (i + r) mod F (R186 step 3). -/
def sigSum (m : Mach) (s : Nat) (ppms : List Int) (r : Nat) : Nat :=
  (List.range ppms.length).foldl (fun a i =>
    let d := ppms.getD i 0 - m.getI (R.VID_SIG_PPM s ((i + r) % ppms.length))
    a + (d * d).toNat) 0

/-- The position of the least of a list of numbers, and the least of the others. -/
def leastTwo (l : List Nat) : Nat × Nat × Option Nat :=
  l.zipIdx.foldl (fun (best : Nat × Nat × Option Nat) p =>
    if p.2 = 0 then (0, p.1, none)
    else if p.1 < best.2.1 then (p.2, p.1, some best.2.1)
    else (best.1, best.2.1, some (match best.2.2 with | some n => min n p.1 | none => p.1))) (0, 0, none)

/-- BD periods of one signature measurement: SIGREV revolutions, as written, of F periods each. -/
def sigLength (s : Nat) (m : Mach) : Nat := m.get (R.VID_IDCFG_SIGREV s) * facetsOf m s

/-- Measures the BD period that ends with an edge now, of the facet position that FACETs names (R186 step 1): while the
polygon is locked, until the measurement is complete. Periods count TICKs, the island's time stamp. -/
def sigMeasure (s : Nat) (m : Mach) : Mach :=
  let v := m.vidOf s
  if !m.on (R.VID_PLOCK_LOCK s) || sigLength s m ≤ v.sigCount then m
  else
    let f := m.get (R.CLK_TB_FACET s)
    let sums := if v.sigSums.isEmpty then List.replicate (facetsOf m s) 0 else v.sigSums
    m.setVid s { v with sigSums := sums.set f (sums.getD f 0 + (m.clk.tick - v.bdAt).toNat), sigCount := v.sigCount + 1 }

/-- SIGNATURE_DONE (R186): `revs` revolutions have been measured, as many as SIGREV asks. The averages per facet position go to MEAS, and with
FZEN = 0 they settle the identity until the next speed lock, if one rotation of SIG fits them clearly best. -/
def opSignatureDone (s revs : Nat) (m : Mach) : Mach :=
  let f := facetsOf m s
  let v := m.vidOf s
  if !m.on (R.VID_CTL_EN s) || revs != m.get (R.VID_IDCFG_SIGREV s) || v.sigSums.length != f || v.sigCount < sigLength s m || !m.on (R.VID_PLOCK_LOCK s) then m
  else
    let p := sigPpms v.sigSums m
    let m := each (List.range f) (fun i m =>
      m.setI (R.VID_MEAS_PPM s i) (clampI (-32768) 32767 (p.1.getD i 0))) p.2
    let v := { v with sigSums := [], sigCount := 0 }
    let m := m.setVid s v
    if m.on (R.VID_CTL_FZEN s) || v.sigDone then m
    else
      let best := leastTwo ((List.range f).map (sigSum m s p.1))
      let clear : Bool := match best.2.2 with
        | some n => decide (best.2.1 + m.get (R.VID_IDCFG_SIGMARGIN s) ≤ n)
        | none => true
      if clear then
        setIdok s true ((m.set (R.CLK_TB_FACET s) ((m.get (R.CLK_TB_FACET s) + best.1) % f)).setVid s
          { v with sigDone := true, sigTries := 0 })
      else
        let m := m.setVid s { v with sigTries := (v.sigTries + 1) % 4 }
        when (v.sigTries == 3) (facetFault s) m

/-! ## VIDs_CTL and the Beam Map window (R170, R172, R188) -/

/-- The write of VIDs_CTL. -/
def vidCtlWrite (s : Nat) (w : Word) (m : Mach) : Mach :=
  let key := (R.VID_CTL_EN s).key
  let was := m.on (R.VID_CTL_EN s)
  let on := (R.VID_CTL_EN s).of w == 1
  let eff := if was then m.word key else w
  let f := (R.VID_CTL_FACETS s).of eff
  let fz := f * ((R.VID_CTL_NZM1 s).of eff + 1)
  let bad := f < 4 || 12 < f || (if (R.VID_CTL_BANKS s).of eff = 1 then 128 else 256) < fz
  if (on && bad) || (was && !on && stationBusy s m) then ignored key m
  else
    let m := storeFields key w m
    if on && !was then
      setIdok s false (m.onVid s fun v =>
        { v with fzHave := false, fzPend := false, fzMiss := 0, rezero := false, stamps := [], pulses := [] })
    else if was && !on then polyUnlock s (m.onVid s fun v => { v with pulses := [] })
    else m

/-- VID_CTL_WRITE (R170, R188). -/
def opVidCtlWrite (q : Requester) (s : Nat) (w : Word) (m : Mach) : Mach :=
  guarded q false (R.VID_CTL_EN s).key (vidCtlWrite s w) m

/-- The station a requester has selected in BMAP_SEL; none for an absent one (Table 6.8). -/
def bmapStation (q : Requester) (m : Mach) : Option Nat :=
  let s := bitsOf (m.own (Requester.id q) R.BMAP_SEL_STN.key) 2 0
  if s < m.nStn then some s else none

/-- The write of BMAP_SEL. -/
def bmapSelWrite (q : Requester) (w : Word) (m : Mach) : Mach :=
  m.setOwn (Requester.id q) R.BMAP_SEL_STN.key (BitVec.ofNat 32 (bitsOf w 2 0))

/-- BMAP_SEL_WRITE (R172). -/
def opBmapSelWrite (q : Requester) (w : Word) (m : Mach) : Mach :=
  guarded q false R.BMAP_SEL_STN.key (bmapSelWrite q w) m

/-- A write of Beam Map entry e of a station: staged to a stroke, or at once into the bank no stroke reads (R172). -/
def entryWrite (s e : Nat) (w : Word) (m : Mach) : Mach :=
  let key := (R.VID_ENTRY s e).key
  if m.on (R.VID_CTL_EN s) && m.on (R.VID_CTL_BANKS s) && e / 2048 != m.get (R.VID_CTL_BANK s) then
    m.setWord key (withBits w 1 0 0)
  else storeFields key w m

/-! ## Levels and drive-link frames (R180-R182) -/

/-- The Beam Map entry that lane i uses for a facet and a zone (R170). -/
def mapKey (m : Mach) (s f z i : Nat) : Nat :=
  let b := if m.on (R.VID_CTL_BANKS s) then m.get (R.VID_CTL_BANK s) else 0
  (R.VID_ENTRY s (b * 2048 + (f * zonesOf m s + z) * 16 + i)).key

/-- Its word. -/
def mapEntry (m : Mach) (s f z i : Nat) : Word := m.word (mapKey m s f z i)

/-- The envelope's drive ceiling of a lane. -/
def laneCeil (m : Mach) (s i : Nat) : Nat := guard16 m (0x070 + 2 * (16 * s + i))

/-- LEVEL.BASE x ITRIM / 128, before the ceiling. -/
def rawLevel (m : Mach) (s f z i : Nat) : Nat :=
  (m.get (R.VID_LEVEL_BASE s i) * bitsOf (mapEntry m s f z i) 10 3 + 64) / 128

/-- Lane i is retired. -/
def retired (m : Mach) (s i : Nat) : Bool := bitOf (m.get (R.VID_RETIRE_LANES s)) i

/-- The drive level sent for a lane in a zone (R179, R180). -/
def laneLevel (m : Mach) (s f z i : Nat) : Nat :=
  if retired m s i then 0 else min (laneCeil m s i) (rawLevel m s f z i)

/-- CRC-8 of the low n bits of a number, highest bit first, polynomial 0x07, initial value c. -/
def crc8 : Nat → Nat → Nat → Nat
  | 0, _, c => c
  | n + 1, v, c =>
    let top := (c / 128 + v / 2 ^ n) % 2
    crc8 n v (c * 2 % 256 ^^^ top * 0x07)

/-- A drive-link frame (Table 6.3). -/
def linkFrame (typ zone : Nat) (levels : List Nat) : Nat :=
  let lv := (List.range 16).foldl (fun a i => a + levels.getD i 0 % 1024 * 2 ^ (10 * i)) 0
  let body := typ * 2 ^ 165 + zone % 32 * 2 ^ 160 + lv
  body * 256 + crc8 168 body 0

/-- First dot after zone z, none for the last one: an empty zone ends where it starts, another where the next zone
starts that is not empty (R182; R173's rule for a dot's zone is taken over the zones that are not empty: log entry 18). -/
def zoneEnd (m : Mach) (s z : Nat) : Option Nat :=
  if zoneEmpty m s z then some (zoneStart m s z)
  else (((List.range (zonesOf m s)).filter fun y => z < y).find? fun y => !zoneEmpty m s y).map (zoneStart m s)

/-- The station's ratio in use, in 2^-26: NINT + (F + 0.25 DITHEN) / 2^24 (R52). -/
def dotRatio (s : Nat) (m : Mach) : Nat :=
  m.get (R.CLK_SYN_CFG_NINT (2 + s)) * 2 ^ 26 + (m.syn (2 + s)).fUsed * 4 + m.get (R.CLK_SYN_CFG_DITHEN (2 + s))

/-- The dot clock's divider from 100 MHz x 2^-26 (R52, Table 2.2): a dot lasts this over `dotRatio` TICKs. -/
def dotDiv (s : Nat) (m : Mach) : Nat :=
  (m.get (R.CLK_SYN_CFG_PDIV (2 + s)) + 1) * 2 ^ m.get (R.CLK_SYN_CFG_KDIV (2 + s)) * 8 * 2 ^ 26

/-- Dots x time: a length in dots lasts at least n/100 us at the station's dot clock (R52, Table 2.2). -/
def dotsLast (m : Mach) (s dots n : Nat) : Bool :=
  n * dotRatio s m ≤ dots * dotDiv s m

/-- LEVEL_FRAME (R181, R182): the frame of zone z is latched at its boundary, or skipped for want of room. -/
def opLevelFrame (s z : Nat) (m : Mach) : Mach :=
  if !lenOn s m || zonesOf m s ≤ z then m
  else
    let room := match zoneEnd m s z with
      | none => true
      | some e => dotsLast m s (e - zoneStart m s z) 200
    if !room then m.incSat (R.VID_DLSTAT_DLSKIP s)
    else
      let lv := (List.range 16).map (laneLevel m s (m.get (R.CLK_TB_FACET s)) z)
      (m.onVid s fun v => { v with levels := lv, zone := z }).send (.level s (linkFrame 0b101 z lv))

/-- SAFE_FRAME (R181): every 10 us while LEN is deasserted. -/
def opSafeFrame (s : Nat) (m : Mach) : Mach :=
  let v := m.vidOf s
  if lenOn s m || m.now < v.safeAt.toNat + usTicks 10 then m
  else (m.setVid s { v with levels := List.replicate 16 0, zone := 0, safeAt := m.clk.tick }).send
    (.level s (linkFrame 0b110 0 []))

/-! ## Retirement (R179) -/

/-- What follows a change of RETIRE: event RETIRE, and the note for lanes whose partner takes their dots. -/
def retireChanged (s old : Nat) (m : Mach) : Mach :=
  let new := m.get (R.VID_RETIRE_LANES s)
  if new = old then m
  else
    let m := assertEvent (vidEvent s 2) m
    let handed := (List.range 16).filter fun i =>
      bitOf new i && !bitOf old i && dualPass m s && !bitOf new ((i + 8) % 16)
    when (!handed.isEmpty) (note (vidSrc s 0) 0x0B 0) m

/-- Retires lanes by the island itself. -/
def autoRetire (s : Nat) (lanes : List Nat) (m : Mach) : Mach :=
  if m.on (R.VID_CTL_AUTORET s) then
    let old := m.get (R.VID_RETIRE_LANES s)
    retireChanged s old (m.set (R.VID_RETIRE_LANES s) (lanes.foldl setBit old))
  else m

/-! ## The legs of a stroke -/

/-- First line of a leg's present stroke: lane i's nominal line is this plus i, in either pass mode (R167). -/
def Leg.first (dual : Bool) (l : Leg) : Int :=
  if dual then 8 * (l.stroke : Int) - 8 - l.lead else 16 * (l.stroke : Int) - l.lead

/-- Lines beyond a sheet's last that a stroke may still read for it: PLIN, FTH and the live feather (R178). -/
def tailLines : Nat := 28

/-- What a stroke exposes: a sheet's leg, or a mark frame's (no record). -/
structure Expo where
  rec? : Option Nat
  sid : Sid
  leg : Leg
  lines : Nat
  width : Nat
  deriving DecidableEq, Repr

/-- The sheets and the mark frame that the present stroke of station s may read. -/
def expos (m : Mach) (s : Nat) : List Expo :=
  let dual := dualPass m s
  let live (l : Leg) (n : Nat) : Bool := l.begun && decide (l.first dual < ((n + tailLines : Nat) : Int))
  let sheets := m.sheets.filterMap fun (r, sh) =>
    match tfind s sh.legs with
    | some l => if sh.exposes && live l sh.lines then
        some { rec? := some r, sid := sh.sid, leg := l, lines := sh.lines, width := sh.width : Expo } else none
    | none => none
  match tfind s m.mark.legs with
  | some l => if live l frameLines then
      sheets ++ [{ rec? := none, sid := 0, leg := l, lines := frameLines, width := 15616 : Expo }] else sheets
  | none => sheets

/-- A leg at the start of its station's next stroke: one stroke further, done once every nominal line lies past the
last, and blank if its run-out now acts (R40). -/
def Leg.advance (dual : Bool) (lines : Nat) (l : Leg) : Leg :=
  let l := if l.blankNext then { l with blankNext := false, blankFrom := some 0 } else l
  if !l.begun then l
  else
    let l := { l with stroke := l.stroke + 1 }
    if (lines : Int) ≤ l.first dual then { l with done := true } else l

/-- Advances every leg of the station. -/
def advanceLegs (s : Nat) (m : Mach) : Mach :=
  let dual := dualPass m s
  let sheets := m.sheets.map fun (r, sh) =>
    match tfind s sh.legs with
    | some l => (r, { sh with legs := tput s (l.advance dual sh.lines) sh.legs })
    | none => (r, sh)
  let mk := match tfind s m.mark.legs with
    | some l => { m.mark with legs := tput s (l.advance dual frameLines) m.mark.legs }
    | none => m.mark
  { m with sheets := sheets, mark := mk }

/-- A sheet's lines are exposed in the present stroke of station s (R100). -/
def exposesSheet (s : Nat) (m : Mach) : Bool := duringSheet s m

/-! ## Selection of the catching stroke (R166, R167) -/

/-- The stamps of the present stroke and of the one before: S_k, P_k, and the advances to them. -/
def stampsOf (m : Mach) (s : Nat) : Option (Tick × Ppc × Int × Int) :=
  match (m.vidOf s).stamps with
  | (t, p) :: (t', p') :: _ => some (t, p, ((t - t').toNat : Int), ppcDiff p.toNat p'.toNat)
  | _ => none

/-- The lead of a station that compares PPC; none when the stroke is not the one (R166, R167). -/
def ppcLead (p : Ppc) (dp : Int) (target : Ppc) : Option Int :=
  let d := ppcDiff target.toNat p.toNat
  if d < dp then some (max 0 d) else none

/-- The lead of station 0, with the forecast of CPPC. -/
def tickLead (t : Tick) (p : Ppc) (dt dp : Int) (tc : Tick) : Option (Int × Ppc) :=
  let ahead : Int := (tc.toNat : Int) - t.toNat
  if dt ≤ ahead then none
  else
    let d := dp * ahead / (max 1 dt)
    some (max 0 (if ahead < 0 then 0 else d), ppcAdd p d)

/-- Index i0 from a lead (R167). -/
def firstOffset (lead : Int) (l : Nat) : Nat := min (lead.toNat / 64) (l - 1)

/-- Selects the present stroke for a sheet at station s, if it is the one. The selection begins the station's part of the
sheet, so that IMAGING comes with the start of the last catching stroke: the stroke exposes line 0, at the instant L0[s]
within it, whatever comes after its start (DESIGN CHOICE, log entry 45: Table 1.9 gives the instant L0[s]). -/
def selectSheet (s r : Nat) (m : Mach) : Mach :=
  let sh := m.sheet r
  let leg := tget {} s sh.legs
  let byPpc := s != 0 || deepenSlave m
  let caught := sh.state.engaged && sh.state != .admitted
  if !bitOf sh.planes s || leg.begun || !sh.armed || !sh.state.engaged || (byPpc && !caught) then m
  else match stampsOf m s with
    | none => m
    | some (t, p, dt, dp) =>
      let target := lineZero m sh s
      let sel := if byPpc then (ppcLead p dp target).map (·, target) else tickLead t p dt dp sh.catchT
      match sel with
      | none => m
      | some (lead, tgt) =>
        let i0 := firstOffset lead (advLines m s)
        let l0 := if byPpc then some target else if caught then some sh.cppc else none
        let leg := { leg with begun := true, lead := i0, stroke := 0, l0 := l0 }
        let m := m.setSheet r { sh with legs := tput s leg sh.legs }
        let m := m.onVid s fun v =>
          { v with recent := some { sheet := some r, sid := sh.sid, target := tgt, lead := i0, stroke := 0 } }
        sheetAdvance r m

/-- Selects the present stroke for the mark frame at station s, if it is the one (R227). -/
def selectMark (s : Nat) (m : Mach) : Mach :=
  let leg := tget {} s m.mark.legs
  if !markBusy m || !markIncl m s || leg.begun then m
  else match stampsOf m s with
    | none => m
    | some (_, p, _, dp) =>
      let target := markTarget m s
      match ppcLead p dp target with
      | none => m
      | some lead =>
        let i0 := firstOffset lead (advLines m s)
        let leg := { leg with begun := true, lead := i0, stroke := 0, l0 := some target }
        let m := { m with mark := { m.mark with legs := tput s leg m.mark.legs } }
        let m := (m.set R.ADC_MKSTAT_ARMED 0).set R.ADC_MKSTAT_ACTIVE 1
        m.onVid s fun v =>
          { v with recent := some { sheet := none, sid := 0, target := target, lead := i0, stroke := 0 } }

/-- Judges the present stroke for every sheet and for the mark frame (R166). -/
def selectStroke (s : Nat) (m : Mach) : Mach :=
  selectMark s (each (recsIn (·.engaged) m) (selectSheet s) m)

/-! ## The live feather (R168, R169) -/

/-- The sheet a feather-clamp names: the one whose line the stroke exposes, the earlier of two. -/
def clampSheet (s : Nat) (m : Mach) : Option Nat :=
  let es := (expos m s).filter fun x => x.rec?.isSome && !x.leg.done
  (es.foldl (fun (a : Option Expo) x =>
    match a with | some y => if y.leg.stroke < x.leg.stroke then some x else some y | none => some x) none).bind (·.rec?)

/-- Computes e and the live feather of the present stroke. -/
def liveFeather (s : Nat) (m : Mach) : Mach :=
  let v := m.vidOf s
  match v.recent, v.stamps with
  | some rc, (_, p) :: _ =>
    let t := match rc.sheet with
      | some r =>
        let sh := m.sheet r
        if s = 0 && !deepenSlave m && 0 < rc.stroke && sh.sid == rc.sid && sh.state.engaged && sh.state != .admitted then
          sh.cppc
        else rc.target
      | none => rc.target
    let m := m.setVid s { v with recent := some { rc with target := t } }
    let e := ppcDiff p.toNat t.toNat + 64 * rc.lead - 64 * (advLines m s : Int) * rc.stroke
    let raw : Int := -((e + 4) / 8)
    let lf := clampI (-16) 16 raw
    let m := m.setI (R.VID_LIVE_PERR s) (clampI (-32767) 32767 e)
    if !m.on (R.VID_CTL_LFEN s) then (m.set (R.VID_LIVE_LF s) 0).set (R.VID_LIVE_LFCLAMP s) 0
    else
      let m := m.setI (R.VID_LIVE_LF s) lf
      if raw = lf then m.set (R.VID_LIVE_LFCLAMP s) 0
      else
        let m := (m.set (R.VID_LIVE_LFCLAMP s) 1).incSat (R.VID_DLSTAT_FCLAMP s)
        let sid := match clampSheet s m with | some r => (m.sheet r).sid | none => 0
        raise (vidSrc s 0) 0x05 (min 1 (m.get (R.VID_CTL_LFCLS s))) m sid
  | _, _ => m

/-! ## Pulses (R173-R178) -/

/-- What a lane does in one zone: its entry, the whole lines w and eighths r of its offset, and the zone's dots. -/
structure LaneZone where
  zone : Nat
  lo : Nat
  hi : Nat
  entry : Word
  w : Int
  r : Nat
  level : Nat
  deriving DecidableEq, Repr

/-- PLIN as it acts (Table 6.2). -/
def entryPlin (e : Word) : Int := clampI (-24) 24 (sint 6 (bitsOf e 19 14))

/-- The zones of a lane in a stroke of facet f, those where it is off left out. -/
def laneZones (m : Mach) (s f i : Nat) : List LaneZone :=
  let lf := m.getI (R.VID_LIVE_LF s)
  (List.range (zonesOf m s)).filterMap fun z =>
    let e := mapEntry m s f z i
    if bitOf e.toNat 2 then none
    else
      let q := 8 * entryPlin e + (bitsOf e 13 11 : Nat) + lf
      some { zone := z, lo := zoneStart m s z, hi := (zoneEnd m s z).getD 16384, entry := e, w := q / 8,
             r := (q % 8).toNat, level := laneLevel m s f z i }

/-- The partner of a lane can take no dot of a zone: it is retired, or off there for the facet of its own stroke. -/
def partnerOut (m : Mach) (s f z i : Nat) : Bool :=
  let n := facetsOf m s
  let f' := if 8 ≤ i then (f + 1) % n else (f + n - 1) % n
  retired m s ((i + 8) % 16) || bitOf (mapEntry m s f' z ((i + 8) % 16)).toNat 2

/-- The mask gives dot d of an image line to this lane of its pair (R176). -/
def maskOwns (m : Mach) (s i line d : Nat) : Bool :=
  let sel := bitsOf (m.word (R.VID_MASKSEL_SEL0 s).key) (4 * (i % 8) + 3) (4 * (i % 8))
  let row := line % 8
  let w := if row < 4 then m.word (R.VID_MASK_LO_ROWS03 s sel).key else m.word (R.VID_MASK_HI_ROWS47 s sel).key
  bitOf w.toNat (8 * (row % 4) + d % 8) == decide (8 ≤ i)

/-- In widen mode, the other unit owns this dot of the overlap (R389). -/
def otherOwns (m : Mach) (width line d : Nat) : Bool :=
  if m.get R.FJL_GRP_MODE != 1 || groupRole m = 0 then false
  else
    let ovl := m.get R.FJL_STITCH_OVL
    let left := !m.on R.FJL_STITCH_SIDE
    let inside := if left then width ≤ d + ovl else d < ovl
    if !inside then false
    else
      let j := if left then d + ovl - width else d
      let x := j % 8
      let y := line % 8
      let z := x ^^^ y
      let b := 32 * (z % 2) + 16 * (y % 2) + 8 * (z / 2 % 2) + 4 * (y / 2 % 2) + 2 * (z / 4 % 2) + y / 4 % 2
      (64 * (ovl - j) > ovl * b) != left

/-- A sheet line is in its station's line buffer (R157). -/
def lineHeld (m : Mach) (s r line : Nat) : Bool :=
  let f := tget {} s m.peat.feeders
  f.sheet == some r && line < f.filled && f.filled ≤ line + 128

/-- Address of a line slot of a station's line buffer (R157). -/
def slotAddr (s line : Nat) : Nat := 0x0030000000 + s * 0x00100000 + line % 128 * 7808

/-- The 4-bit value of a dot of a line, none where the exposure holds none. -/
def dotValue (m : Mach) (mem : Mem) (s : Nat) (x : Expo) (line d : Nat) : Option Nat :=
  match x.rec? with
  | some r =>
    if lineHeld m s r line then
      let b := (mem.rd (slotAddr s line + d / 2)).toNat
      some (if d % 2 = 0 then b % 16 else b / 16)
    else none
  | none => markDot m s line d

/-- The line is a line of the exposure, and the station is not blanking it. -/
def Expo.shows (x : Expo) (line : Int) : Bool :=
  0 ≤ line && line < x.lines && (match x.leg.blankFrom with | some b => line < b | none => true)

/-- shape(line, d) of R174 for one exposure. -/
def shapeOf (m : Mach) (mem : Mem) (s i : Nat) (alone : Bool) (x : Expo) (line : Int) (d : Nat) : Nat × Nat :=
  let n := line.toNat
  if !x.shows line || x.width ≤ d then (0, 0)
  else if dualPass m s && !alone && !maskOwns m s i n d then (0, 0)
  else if x.rec?.isSome && otherOwns m x.width n d then (0, 0)
  else match dotValue m mem s x n d with
    | none => (0, 0)
    | some v =>
      let st := m.get (R.VID_PSHAPE_START s v)
      (st, min (m.get (R.VID_PSHAPE_WIDTH s v)) (64 - st))

/-- shape over everything the stroke exposes: the exposure the line belongs to gives it. -/
def shapeIn (m : Mach) (mem : Mem) (s i : Nat) (alone : Bool) (es : List Expo) (back : Int) (d : Nat) : Nat × Nat :=
  match es.find? fun x => let n := x.leg.first (dualPass m s) + i - back; 0 ≤ n && n < x.lines with
  | some x => shapeOf m mem s i alone x (x.leg.first (dualPass m s) + i - back) d
  | none => (0, 0)

/-- Start and width of a dot's pulse within its slot, in 1/64 dot (R173). -/
def blend (r : Nat) (a b : Nat × Nat) : Nat × Nat :=
  let wd := ((8 - r) * a.2 + r * b.2 + 4) / 8
  let st := if a.2 = 0 then b.1 else if b.2 = 0 then a.1 else ((8 - r) * a.1 + r * b.1 + 4) / 8
  (st, min wd (64 - st))

/-- The pulses of one lane in one zone, appended to those before, latest first (R173, R177). -/
def zonePulses (m : Mach) (mem : Mem) (s f i : Nat) (es : List Expo) (z : LaneZone) (width : Nat) (acc : List Pulse) :
    List Pulse :=
  let alone := partnerOut m s f z.zone i
  let sdly := sint 12 (bitsOf z.entry 31 20)
  let ls : Int := m.get (R.CLK_SYN_LSDLY (2 + s))
  let last : Int := 64 * (m.get (R.VID_SCAN_ACTIVE s) : Int)
  (List.range (min z.hi width - z.lo)).foldl (fun acc k =>
    let d := z.lo + k
    let a := shapeIn m mem s i alone es z.w d
    let b := if z.r = 0 then (0, 0) else shapeIn m mem s i alone es (z.w + 1) d
    let p := blend z.r a b
    if p.2 = 0 then acc
    else
      let at_ : Int := 64 * (d : Int) + sdly + p.1
      let stop := match acc with | q :: _ => q.start + q.width | [] => at_
      let at' := max at_ stop
      let wd := ((p.2 : Int) - (at' - at_)).toNat
      if wd = 0 || at' + ls < 64 || last < at' then acc
      else { lane := i, start := at', width := wd, level := z.level } :: acc) acc

/-- The pulses of one lane, in dot order. -/
def lanePulses (m : Mach) (mem : Mem) (s f i : Nat) (es : List Expo) : List Pulse :=
  if retired m s i then []
  else
    let width := es.foldl (fun w x => max w x.width) 0
    ((laneZones m s f i).foldl (fun acc z => zonePulses m mem s f i es z width acc) []).reverse

/-- Lines of sheet x that the stroke reads and the line buffer does not hold (R178). -/
def missingLines (m : Mach) (s f : Nat) (x : Expo) : List Nat :=
  match x.rec? with
  | none => []
  | some r =>
    (List.range 16).flatMap fun i =>
      if retired m s i then [] else
        (laneZones m s f i).flatMap fun z =>
          let n := x.leg.first (dualPass m s) + i - z.w
          let reads := if z.r = 0 then [n] else [n, n - 1]
          (reads.filter fun n => z.lo < min z.hi x.width && x.shows n && !lineHeld m s r n.toNat).map Int.toNat

/-- A line is not in the buffer at its stroke (Table 1.10a, R178): blank, and the sheet is run out with line-late. -/
def lateLines (s : Nat) (m : Mach) : Mach :=
  each (expos m s) (fun x m =>
    match x.rec?, missingLines m s (m.get (R.CLK_TB_FACET s)) x with
    | some r, n :: ns =>
      let sh := m.sheet r
      let k := ns.foldl min n / 64
      let m := if sh.spband = 0x3FF then m.setSheet r { sh with spband := k, spstn := s } else m
      raise (vidSrc s 0) 0x01 1 m sh.sid
    | _, _ => m) m

/-! ## Duty guards (R183) -/

/-- On-time of lane i among pulses. -/
def onTime (ps : List Pulse) (i : Nat) : Nat := (ps.filter (·.lane == i)).foldl (fun n p => n + p.width) 0

/-- Strokes of a list that started within w TICKs before now. -/
def withinTicks (m : Mach) (w : Nat) (h : List (Tick × List Nat × Nat)) : List (Tick × List Nat × Nat) :=
  h.filter fun x => m.now < x.1.toNat + w

/-- The fraction of R183's limit test: on-time x divider, and window x ratio (on-times in 1/64 dot). -/
def dutyDiv (m : Mach) (s : Nat) : Nat :=
  65536 * dotDiv s m

/-- 64 x f_dot x window, in the units of `dutyDiv`. -/
def dutySpan (m : Mach) (s w : Nat) : Nat :=
  64 * w * dotRatio s m

/-- A duty in 1/65,536, saturating at 16 bits. -/
def dutyOf (m : Mach) (s w on : Nat) : Nat := min 65535 (on * dutyDiv m s / max 1 (dutySpan m s w))

/-- The on-time stays within a limit over both windows (R183). -/
def dutyOk (m : Mach) (s : Nat) (lim1 lim10 past1 past10 coming : Nat) : Bool :=
  (past1 + coming) * dutyDiv m s ≤ lim1 * dutySpan m s (msTicks 1)
    && (past10 + coming) * dutyDiv m s ≤ lim10 * dutySpan m s (msTicks 10)

/-- Names the sheets a suppression falls in, at class 1, or raises the kind at class 0. -/
def dutyFault (s kind : Nat) (m : Mach) : Mach :=
  let rs := (expos m s).filterMap fun x => if x.leg.done then none else x.rec?
  if rs.isEmpty then note (vidSrc s 0) kind 0 m else raiseEach (vidSrc s 0) kind 1 rs m

/-- Admits or suppresses the lanes and the station for the present stroke, whose pulses are given. -/
def dutyGuard (s : Nat) (ps : List Pulse) (m : Mach) : Mach :=
  let v := m.vidOf s
  let h10 := withinTicks m (msTicks 10) v.hist
  let h1 := withinTicks m (msTicks 1) v.hist
  let past (h : List (Tick × List Nat × Nat)) (i : Nat) : Nat := h.foldl (fun n x => n + x.2.1.getD i 0) 0
  let pastS (h : List (Tick × List Nat × Nat)) : Nat := h.foldl (fun n x => n + x.2.2) 0
  let on := (List.range 16).map (onTime ps)
  let l1 := guard16 m (0x020 + 16 * s)
  let l10 := guard16 m (0x022 + 16 * s)
  let s1 := guard16 m (0x024 + 16 * s)
  let s10 := guard16 m (0x026 + 16 * s)
  let bad := (List.range 16).filter fun i =>
    0 < on.getD i 0 && !dutyOk m s l1 l10 (past h1 i) (past h10 i) (on.getD i 0)
  let adm := (List.range 16).map fun i => if bad.contains i then 0 else on.getD i 0
  let sum := adm.foldl (· + ·) 0
  let stnBad := 0 < sum && !dutyOk m s (16 * s1) (16 * s10) (pastS h1) (pastS h10) sum
  let fin := if stnBad then List.replicate 16 0 else adm
  let m := m.setVid s { v with
    hist := (m.clk.tick, fin, if stnBad then 0 else sum) :: h10
    duty1 := (List.range 16).map fun i => dutyOf m s (msTicks 1) (past h1 i)
    duty10 := (List.range 16).map fun i => dutyOf m s (msTicks 10) (past h10 i)
    sduty1 := dutyOf m s (16 * msTicks 1) (pastS h1)
    sduty10 := dutyOf m s (16 * msTicks 10) (pastS h10)
    pulses := if stnBad then [] else ps.filter fun p => !bad.contains p.lane }
  let m := (m.set (R.VID_DUTYSUP_LANES s) (bad.foldl setBit 0)).set (R.VID_DUTYSUP_STN s) (b2n stnBad)
  let m := when (!bad.isEmpty || stnBad) (fun m => m.set R.ENV_CLAMP_DUTY 1) m
  let m := when stnBad (dutyFault s 0x07) m
  let m := when (!bad.isEmpty) (dutyFault s 0x06) m
  autoRetire s bad m

/-- Levels that a drive ceiling lowers in the present stroke (R180), and the retirement of a lane clamped in more
than 16 consecutive strokes (R179). -/
def levelClamps (s : Nat) (m : Mach) : Mach :=
  let f := m.get (R.CLK_TB_FACET s)
  let zs (i : Nat) : List Nat :=
    if retired m s i then [] else (List.range (zonesOf m s)).filter fun z => laneCeil m s i < rawLevel m s f z i
  let hit := (List.range 16).map fun i => !(zs i).isEmpty
  let keys := (List.range 16).flatMap fun i =>
    if hit.getD i false then (R.VID_LEVEL_BASE s i).key :: (zs i).map (fun z => mapKey m s f z i) else []
  let v := m.vidOf s
  let run := (List.range 16).map fun i => if hit.getD i false then v.clampRun.getD i 0 + 1 else 0
  let m := m.setVid s { v with clampRun := run }
  let m := when (hit.any id) (fun m =>
    note (vidSrc s 0) 0x0C 0 (guardClamp R.ENV_CLAMP_LEVEL keys (m.incSat (R.VID_DLSTAT_LCLAMP s)))) m
  autoRetire s ((List.range 16).filter fun i => 16 < run.getD i 0) m

/-- Sheets whose lines a retirement leaves unexposed are SPOILED, each named once (R179). `was` is the machine at the
stroke start: a lane that a suppression retires hands over from the next stroke, and a retired lane whose partner is
suppressed in this stroke leaves the pair's lines unexposed (Table 6.6). -/
def retireSpoils (s : Nat) (was m : Mach) : Mach :=
  let dual := dualPass m s
  let f := m.get (R.CLK_TB_FACET s)
  let lost (i : Nat) : Bool := retired was s i
    && (!dual || bitOf (m.get (R.VID_DUTYSUP_LANES s)) ((i + 8) % 16)
      || (List.range (zonesOf m s)).any fun z => partnerOut was s f z i)
  each (expos m s) (fun x m =>
    match x.rec? with
    | some r =>
      let hit := (List.range 16).any fun i => lost i && (let n := x.leg.first dual + i; 0 ≤ n && n < x.lines)
      if hit && !x.leg.retNoted then
        let sh := m.sheet r
        let m := m.setSheet r { sh with legs := tput s { (tget {} s sh.legs) with retNoted := true } sh.legs }
        raise (vidSrc s 0) 0x0B 1 m sh.sid
      else m
    | none => m) m

/-- The PIXPLL's output runs: the lanes can emit (R73, Table 2.5). -/
def pixRunning (s : Nat) (m : Mach) : Bool :=
  let st := m.get (R.CLK_SYN_STAT_STATE (2 + s))
  st == synLocked || st == synCoast || st == synReacq

/-- The record being exposed (Table 6.10): the sheet caught most recently at the station, until its last line. -/
def exposingNow (s : Nat) (m : Mach) : Option Nat :=
  let rs := (expos m s).filterMap fun x => if x.leg.done then none else x.rec?
  match (m.vidOf s).recent with
  | some rc => match rc.sheet with
    | some r => if rs.contains r then some r else rs.head?
    | none => rs.head?
  | none => none

/-- Forms and emits the stroke's pulses; `dark` says that the stroke exposes nothing. -/
def exposeStroke (s : Nat) (dark : Bool) (mem : Mem) (m : Mach) : Mach :=
  let f := m.get (R.CLK_TB_FACET s)
  let idle := dark || !pixRunning s m || m.on (R.VID_STAT_HTHARD s)
  let es := expos m s
  let ps := if idle then [] else (List.range 16).flatMap fun i => lanePulses m mem s f i es
  let m := if dark then m else lateLines s m
  let m := levelClamps s (retireSpoils s m (dutyGuard s ps m))
  m.onVid s fun v => { v with exposing := exposingNow s m }

end Sys2Proof.Machine
end

