-- ==== Sys2Proof/Machine/Analog.lean ====
section
/-! DEFINITION. Analog conversions and what they guard: temperature inputs, thermal groups and throttling (R347-R349),
the heads (R184), high voltage (R234, R235) and the fuser (R236-R238). -/

namespace Sys2Proof.Machine

/-- What is kept of an input's conversions. -/
def Mach.adcIn (m : Mach) (k : Nat) : AdcIn := tget {} k m.adc
/-- Replaces it. -/
def Mach.setAdcIn (m : Mach) (k : Nat) (x : AdcIn) : Mach := { m with adc := tput k x m.adc }

/-! ## Throttling (R349) -/

/-- The head of some station requests. -/
def headRequests (m : Mach) : Bool := (List.range m.nStn).any fun s => m.on (R.VID_STAT_HTSOFT s)

/-- Sets SLU_RSV.TENF and its copy, with event TENF on a change. -/
def setTenf (b : Bool) (m : Mach) : Mach :=
  if m.on R.SLU_RSV_TENF == b then m
  else assertEvent 0x031 ((m.set R.SLU_RSV_TENF (b2n b)).set R.THM_STAT_TENF (b2n b))

/-- Sets SLU_RSV.TMAX and its copy. -/
def setTmax (v : Nat) (m : Mach) : Mach := (m.set R.SLU_RSV_TMAX v).set R.THM_STAT_TMAX v

/-- Takes up a new set of requests: groups as bits, and the heads. -/
def requestsNow (req : Nat) (head : Bool) (m : Mach) : Mach :=
  let old := m.get R.THM_STAT_REQ
  let oldHead := m.on R.THM_STAT_HEADREQ
  let any := req != 0 || head
  let tmax := (List.range 8).foldl (fun t g =>
    if bitOf req g then min t (m.get (R.THM_GRPCFG2_STEPMAX g)) else t) (if head then m.get R.THM_CTL_HSTEP else 7)
  let m := setTmax (if any then tmax else 7) ((m.set R.THM_STAT_REQ req).set R.THM_STAT_HEADREQ (b2n head))
  let m := when (req != old || head != oldHead) (fun m =>
    note 0x030 0x01 0 ((assertEvent 0x030 m).msix (m.get R.THM_CTL_VEC))) m
  if !any then
    setTenf false { m.set R.THM_STAT_GRACERUN 0 with thm := { m.thm with grace := none } }
  else if old = 0 && !oldHead && !m.on R.SLU_RSV_TENF then
    let e : Tick := BitVec.ofNat 64 (m.now + msTicks (m.get R.THM_CTL_GRACE))
    { m.set R.THM_STAT_GRACERUN 1 with thm := { m.thm with grace := some e } }
  else m

/-- A group's request (R349): on at THR, off below THR - HYST. -/
def groupRequests (m : Mach) (g : Nat) : Bool :=
  let any := (List.range 25).any fun k => m.on (R.THM_SENSCFG_USE k) && m.get (R.THM_SENSCFG_GRP k) == g
  let x := m.getI (R.THM_GRPMAX_MAX g)
  let thr := m.getI (R.THM_GRPCFG_THR g)
  any && (thr ≤ x || (bitOf (m.get R.THM_STAT_REQ) g && thr - m.get (R.THM_GRPCFG2_HYST g) ≤ x))

/-- Judges every request anew. -/
def throttleUpdate (m : Mach) : Mach :=
  if m.on R.THM_CTL_EN then
    let req := (List.range 8).foldl (fun n g => if groupRequests m g then setBit n g else n) 0
    requestsNow req (headRequests m) m
  else requestsNow 0 false m

/-- THROTTLE_GRACE_END (R349). -/
def opThrottleGraceEnd (m : Mach) : Mach :=
  match m.thm.grace with
  | some t =>
    if t.toNat ≤ m.now then
      let m := { m.set R.THM_STAT_GRACERUN 0 with thm := { m.thm with grace := none } }
      note 0x030 0x02 0 (setTenf true m)
    else m
  | none => m

/-- Recomputes a group's maximum, and thermal-crit at its crossing (R347, R348). -/
def groupUpdate (g : Nat) (m : Mach) : Mach :=
  let ks := (List.range 25).filter fun k => m.on (R.THM_SENSCFG_USE k) && m.get (R.THM_SENSCFG_GRP k) == g
  match ks with
  | [] => m
  | k :: ks' =>
    let mx := ks'.foldl (fun a k => max a (m.getI (R.THM_SENS_T k))) (m.getI (R.THM_SENS_T k))
    let brk := ks.any fun k => m.on (R.THM_SENS_BROKEN k)
    let m := (m.setI (R.THM_GRPMAX_MAX g) mx).set (R.THM_GRPMAX_BROKEN g) (b2n brk)
    let crit := m.getI (R.THM_GRPCFG_CRIT g) ≤ mx
    let was := bitOf m.thm.crit g
    let m := { m with thm := { m.thm with crit := if crit then setBit m.thm.crit g else clrBit m.thm.crit g } }
    when (crit && !was) (raise (0x031 + g) 0x04 (min 3 (m.get (R.THM_GRPCFG2_CRITCLS g))) ·) m

/-- A sensor's reading: SENS, the note of a sensor that breaks, and its group. -/
def sensorReading (k : Nat) (t : Int) (broken : Bool) (m : Mach) : Mach :=
  let was := m.on (R.THM_SENS_BROKEN k)
  let m := (m.setI (R.THM_SENS_T k) (if broken then 0x7FFF else t)).set (R.THM_SENS_BROKEN k) (b2n broken)
  let m := when (broken && !was && m.on (R.THM_SENSCFG_USE k)) (fun m => note 0x030 0x03 0 (assertEvent 0x032 m)) m
  if m.on R.THM_CTL_EN && m.on (R.THM_SENSCFG_USE k) then
    throttleUpdate (groupUpdate (m.get (R.THM_SENSCFG_GRP k)) m)
  else m

/-- A write of THM_CTL: what is enabled or disabled is judged at once. -/
def thmCtlWrite (w : Word) (m : Mach) : Mach :=
  let m := storeFields R.THM_CTL_EN.key w m
  throttleUpdate (when (m.on R.THM_CTL_EN) (each (List.range 8) groupUpdate) m)

/-- A write of a group's limits: its requests are judged by the new ones (R348, R349). -/
def thmGroupWrite (g key : Nat) (w : Word) (m : Mach) : Mach :=
  let m := storeFields key w m
  when (m.on R.THM_CTL_EN) (fun m => throttleUpdate (groupUpdate g m)) m

/-! ## Conversions (R223, R225, R347, R348) -/

/-- A 17-point table at a code: entry j at 256 j, entry 16 for 4,095, linear between; the rounding is open. -/
def tableAt (entry : Nat → Int) (code : Nat) (m : Mach) : Int × Mach :=
  let j := min 15 (code / 256)
  let span := if j = 15 then 255 else 256
  let r := m.roundFree ((entry (j + 1) - entry j) * (code - 256 * j : Nat)) span
  (entry j + r.1, r.2)

/-- Is AINk a temperature input (R225)? -/
def tempInput (k : Nat) : Bool := (24 ≤ k && k ≤ 36) || (40 ≤ k && k ≤ 55)

/-- BROKEN of a temperature input (R225). -/
def inputBroken (k code : Nat) (m : Mach) : Mach :=
  let x := m.adcIn k
  let near := code < 16 || 0xFF0 ≤ code
  let x := { x with near := if near then x.near + 1 else 0, inside := if near then 0 else x.inside + 1 }
  let m := m.setAdcIn k x
  if 4 ≤ x.near then m.set (R.ADC_AIN_BROKEN k) 1
  else if 64 ≤ x.inside then m.set (R.ADC_AIN_BROKEN k) 0
  else m

/-- An on-die sensor's conversion (R347, R348). -/
def dieConversion (n : Nat) (t : Int) (m : Mach) : Mach :=
  let x := m.adcIn (64 + n)
  let out := t < -880 || 2400 < t
  let x := { x with near := if out then x.near + 1 else 0 }
  let broken := 4 ≤ x.near
  let m := sensorReading n t broken (m.setAdcIn (64 + n) x)
  let hot := broken || 2000 ≤ t
  let was := bitOf m.thm.die n
  let m := { m with thm := { m.thm with die := if hot then setBit m.thm.die n else clrBit m.thm.die n } }
  when (hot && !was) (raise 0x039 0x05 4 ·) m

/-! ## High voltage (R234, R235) -/

/-- Fault source of a high-voltage channel. -/
def hvSrc (h : Nat) : Nat := if h < 16 then 0x1D0 + h else 0x150 + h

/-- A channel's unseen state. -/
def Mach.hvCh (m : Mach) (h : Nat) : HvCh := tget {} h m.hv
/-- Replaces it. -/
def Mach.setHvCh (m : Mach) (h : Nat) (x : HvCh) : Mach := { m with hv := tput h x m.hv }

/-- The channel exists on this part. -/
def hvPresent (m : Mach) (h : Nat) : Bool := h < 24 && (m.part == .pe5480 || h < 16 || 20 ≤ h)

/-- APPLIED follows the reference, its ceiling, and what holds the output at 0. -/
def hvApply (h : Nat) (m : Mach) : Mach :=
  let ceil := guard16 m (0x1C0 + 8 * h)
  let d := m.get (R.HV_REF_DUTY h)
  let on := m.on (R.HV_CFG_EN h) && !m.on (R.HV_STAT_OC h)
  let clamp := on && ceil < d
  let m := (m.set (R.HV_STAT_APPLIED h) (if on then min d ceil else 0)).set (R.HV_STAT_CLAMP h) (b2n clamp)
  if !clamp then m
  else
    let m := guardClamp R.ENV_CLAMP_HVREF [(R.HV_REF_DUTY h).key] m
    let due := match (m.hvCh h).clampAt with | some t => t.toNat + msTicks 1 ≤ m.now | none => true
    when due (fun m => note (hvSrc h) 0x03 0 (m.setHvCh h { m.hvCh h with clampAt := some m.clk.tick })) m

/-- The duty of output HVP{hh} in 1/65,536: every output is held low while HVEN is deasserted (R234, R235). -/
def hvOut (m : Mach) (h : Nat) : Nat := if hvPresent m h && hvenOn m then m.get (R.HV_STAT_APPLIED h) else 0

/-- The level of output HVP{hh} now: high at the start of each period of HV_CTL.PERIOD cycles, for the whole cycles of its
duty and, in as many periods as make the mean exact, one more (R234; which periods those are is the model's choice: DESIGN
CHOICE, log entry 19). -/
def hvLevel (m : Mach) (h : Nat) : Bool :=
  let per := max 1 (m.get R.HV_CTL_PERIOD)
  let c := m.now * 8
  let n := c / per
  decide (c % per < (n + 1) * hvOut m h * per / 65536 - n * hvOut m h * per / 65536)

/-- A write of a channel's REF. -/
def hvRefWrite (h : Nat) (w : Word) (m : Mach) : Mach := hvApply h (storeFields (R.HV_REF_DUTY h).key w m)

/-- A write of a channel's CFG: OC ends once its record has been cleared and EN written 0 and then 1 (R235). -/
def hvCfgWrite (h : Nat) (w : Word) (m : Mach) : Mach :=
  let m := storeFields (R.HV_CFG_EN h).key w m
  let x := m.hvCh h
  let m :=
    if !m.on (R.HV_CFG_EN h) then
      m.setHvCh h { x with rearm := m.on (R.HV_STAT_OC h) && !recOpen (hvSrc h) 0x01 m }
    else if x.rearm then (m.set (R.HV_STAT_OC h) 0).setHvCh h { x with rearm := false }
    else m
  hvApply h m

/-- A conversion of a channel's monitor: the sustained limit is timed, the arc limit counted (R235). -/
def hvConversion (h code : Nat) (m : Mach) : Mach :=
  if !m.on (R.HV_CFG_FBI h) then m.setHvCh h { m.hvCh h with above := none }
  else
    let x := m.hvCh h
    let high := guard16 m (0x1C2 + 8 * h) < code
    let m := m.setHvCh h { x with above := if high then (match x.above with | some t => some t | none => some m.clk.tick) else none }
    let a := m.adcIn h
    let hits := if guard16 m (0x1C4 + 8 * h) ≤ code then a.hits + 1 else 0
    let m := m.setAdcIn h { a with hits := hits }
    when (hits == 4) (raise (hvSrc h) 0x02 4 ·) m

/-- HV_SUSTAINED_OVERCURRENT (R235). -/
def opHvSustainedOvercurrent (h : Nat) (m : Mach) : Mach :=
  match (m.hvCh h).above with
  | some t =>
    if m.on (R.HV_CFG_FBI h) && !m.on (R.HV_STAT_OC h) && t.toNat + msTicks 1 ≤ m.now then
      let m := hvApply h ((m.set (R.HV_STAT_OC h) 1).setHvCh h { m.hvCh h with rearm := false })
      raise (hvSrc h) 0x01 3 (assertEvent 0x1D0 m)
    else m
  | none => m

/-! ## The fuser (R236-R238) -/

/-- Demands after the zone maxima and the total (R238), and whether the total acted. -/
def fuserDemands (m : Mach) : List Nat × Bool :=
  let lim := (List.range 4).map fun z => min (min (m.get (R.FUS_DEM_DEMAND z)) 32768) (guard16 m (0x280 + 2 * z))
  let sum := lim.foldl (· + ·) 0
  let total := guard32 m 0x288
  if total < sum then (lim.map fun d => d * total / sum, true) else (lim, false)

/-- APPL follows the demands and the guards. -/
def fuserApply (m : Mach) : Mach :=
  let r := fuserDemands m
  let zc := (List.range 4).foldl (fun n z =>
    if guard16 m (0x280 + 2 * z) < min (m.get (R.FUS_DEM_DEMAND z)) 32768 then setBit n z else n) 0
  let m := each (List.range 4) (fun z m => m.set (R.FUS_APPL_APPLIED z) (r.1.getD z 0)) m
  let m := (m.set R.FUS_STAT_ZCLAMP zc).set R.FUS_STAT_TCLAMP (b2n r.2)
  if zc = 0 && !r.2 then m
  else
    let hit := (List.range 4).filter fun z => bitOf zc z || (r.2 && 0 < r.1.getD z 0)
    let m := guardClamp R.ENV_CLAMP_FPOWER (hit.map fun z => (R.FUS_DEM_DEMAND z).key) m
    let due := match m.fus.clampAt with | some t => t.toNat + msTicks 1000 ≤ m.now | none => true
    when due (fun m => note 0x1E0 0x03 0 { m with fus := { m.fus with clampAt := some m.clk.tick } }) m

/-- A write of a zone's DEM. -/
def fusDemWrite (z : Nat) (w : Word) (m : Mach) : Mach := fuserApply (storeFields (R.FUS_DEM_DEMAND z).key w m)

/-- The accumulators start (R236). -/
def accStart (m : Mach) : Mach :=
  let st := m.get R.FUS_CTL_STAGGER * 8192
  { m with fus := { m.fus with acc := [0, st, 2 * st, 3 * st] } }

/-- The duties of an induction fuser's PWM period that begins now (R236). -/
def fusLatch (m : Mach) : Mach :=
  let ds := (List.range 4).map fun z => m.get (R.FUS_APPL_APPLIED z)
  { m with fus := { m.fus with pwmAt := m.now * 8, duty := ds } }

/-- The PWM of an induction fuser as time goes on: the duty is updated at each period start. -/
def fusPwm (m : Mach) : Mach :=
  let per := max 1 (m.get R.FUS_PWM_PERIOD)
  if m.on R.FUS_CTL_EN && m.on R.FUS_CTL_MODE && m.fus.pwmAt + per ≤ m.now * 8 then
    let at_ := m.now * 8 - (m.now * 8 - m.fus.pwmAt) % per
    let m := fusLatch m
    { m with fus := { m.fus with pwmAt := at_ } }
  else m

/-- The level of FUS_Gz. -/
def fusGate (m : Mach) (z : Nat) : Bool :=
  if m.on R.FUS_CTL_MODE then (m.now * 8 - m.fus.pwmAt) * 32768 < m.fus.duty.getD z 0 * m.get R.FUS_PWM_PERIOD
  else bitOf m.fus.gates z

/-- Some zone's guard stands at its ceiling: the block cannot be enabled (R238). -/
def ceilingHit (m : Mach) : Bool := m.fus.ceil.any (4 ≤ ·)

/-- A write of FUS_CTL. -/
def fusCtlWrite (w : Word) (m : Mach) : Mach :=
  let was := m.on R.FUS_CTL_EN
  let m := storeFields R.FUS_CTL_EN.key w m
  let m := when (m.on R.FUS_CTL_MODE) (fun m =>
    { (m.set R.FUS_STAT_ZCOK 0).set R.FUS_STAT_HALFP 0 with fus := { m.fus with zcAt := none, zcGood := 0 } }) m
  if m.on R.FUS_CTL_EN && ceilingHit m then gatesOff (m.set R.FUS_CTL_EN 0)
  else if !was && m.on R.FUS_CTL_EN then when (m.on R.FUS_CTL_MODE) fusLatch (accStart m)
  else if was && !m.on R.FUS_CTL_EN then gatesOff m
  else m

/-- One zone at a valid crossing (R236). -/
def zoneCross (z : Nat) (m : Mach) : Mach :=
  let acc := m.fus.acc.getD z 0 + m.get (R.FUS_APPL_APPLIED z)
  if 32768 ≤ acc then
    let at_ : Tick := BitVec.ofNat 64 (m.now + usTicks (m.get R.FUS_CTL_ZCDLY))
    { m.set (R.FUS_APPL_FIRE z) 1 with
      fus := { m.fus with acc := m.fus.acc.set z (acc - 32768), fireAt := tput z at_ m.fus.fireAt } }
  else { m.set (R.FUS_APPL_FIRE z) 0 with fus := { m.fus with acc := m.fus.acc.set z acc } }

/-- ZC_EDGE (R236, R237). -/
def opZcEdge (m : Mach) : Mach :=
  if m.on R.FUS_CTL_MODE then m
  else
    let half := match m.fus.zcAt with | some t => some (m.now - t.toNat) | none => none
    match half with
    | some h =>
      if h < 700000 then m
      else
        let good := if h ≤ 1250000 then m.fus.zcGood + 1 else 0
        let rise := 8 ≤ good && !m.on R.FUS_STAT_ZCOK
        let m := { m.set R.FUS_STAT_HALFP (h / 100) with fus := { m.fus with zcAt := some m.clk.tick, zcGood := good } }
        let m := when rise (fun m => accStart (m.set R.FUS_STAT_ZCOK 1)) m
        let m := assertEvent 0x1E0 m
        when (m.on R.FUS_CTL_EN && m.on R.FUS_STAT_ZCOK) (each (List.range 4) zoneCross) m
    | none => assertEvent 0x1E0 { m with fus := { m.fus with zcAt := some m.clk.tick, zcGood := 0 } }

/-- ZC_LOSS (R237). -/
def opZcLoss (m : Mach) : Mach :=
  match m.fus.zcAt with
  | some t =>
    if !m.on R.FUS_CTL_MODE && t.toNat + 1250000 ≤ m.now then
      let m := { m.set R.FUS_STAT_ZCOK 0 with fus := { m.fus with zcAt := none, zcGood := 0, fireAt := [] } }
      raise 0x1E0 0x01 2 (assertEvent 0x1E1 m)
    else m
  | none => m

/-- FUSER_GATE_FIRE (R236): ZCDLY after the crossing. -/
def opFuserGateFire (z : Nat) (m : Mach) : Mach :=
  match tfind z m.fus.fireAt with
  | some t =>
    if m.on R.FUS_CTL_EN && t.toNat ≤ m.now then
      let e : Tick := t + BitVec.ofNat 64 (usTicks (m.get R.FUS_CTL_GATEW))
      { m with fus := { m.fus with gates := setBit m.fus.gates z, fireAt := tdel z m.fus.fireAt,
                                   endAt := tput z e m.fus.endAt } }
    else m
  | none => m

/-- FUSER_GATE_END (R236). -/
def opFuserGateEnd (z : Nat) (m : Mach) : Mach :=
  match tfind z m.fus.endAt with
  | some t =>
    if t.toNat ≤ m.now then
      { m with fus := { m.fus with gates := clrBit m.fus.gates z, endAt := tdel z m.fus.endAt } }
    else m
  | none => m

/-- The ceiling of a zone whose guard input has this reading (R238). It acts as long as the guard stands there, so that no
program can run a heater then; the fault is raised at the fourth hit. -/
def zoneCeiling (t : Nat) (z : Nat) (m : Mach) : Mach :=
  let hit := guard16 m (0x290 + 2 * z) ≤ t
  let was := m.fus.ceil.getD z 0
  let n := if hit then min 4 (was + 1) else 0
  let m := { m with fus := { m.fus with ceil := m.fus.ceil.set z n } }
  if n < 4 then m
  else
    let m := gatesOff (m.set R.FUS_CTL_EN 0)
    when (was < 4) (raise (0x1E1 + z) 0x02 4 ·) m

/-- A conversion of FTj (R238). -/
def fuserConversion (j code : Nat) (m : Mach) : Mach :=
  let brk := m.on (R.ADC_AIN_BROKEN (24 + j))
  let r := tableAt (fun i => (guard16 m (0x2A0 + 0x22 * j + 2 * i) : Int)) code m
  let t := if brk then 0xFFFF else r.1.toNat
  let m := if brk then m else r.2
  let m := (m.set (R.FUS_TEMP_T j) t).set (R.FUS_TEMP_BROKEN j) (b2n brk)
  each ((List.range 4).filter fun z => guardByte m (0x28C + z) % 8 == j) (zoneCeiling t) m

/-! ## The bus (R299) -/

/-- A conversion of AIN37: the bus voltage in 10 mV, and bus-overvoltage on the fourth hit. -/
def busConversion (code : Nat) (m : Mach) : Mach :=
  let uv := code * guard16 m 0x1B2
  let m := m.set R.SRV_BRKSTAT_VBUS (min 65535 (uv / 10000))
  let x := m.adcIn 37
  let hits := if guard16 m 0x1B0 * 10000 ≤ uv then x.hits + 1 else 0
  let m := m.setAdcIn 37 { x with hits := hits }
  when (hits == 4) (raise 0x1B8 0x04 4 ·) m

/-! ## ADC_CONVERSION -/

/-- A conversion of AINk. -/
def ainConversion (k code : Nat) (m : Mach) : Mach :=
  let m := m.set (R.ADC_AIN_VAL k) code
  let m := when (tempInput k) (inputBroken k code) m
  if k < 24 then when (hvPresent m k) (hvConversion k code) m
  else if k < 32 then fuserConversion (k - 24) code m
  else if k = 37 then busConversion code m
  else if 40 ≤ k && k < 56 then
    let n := 9 + (k - 40)
    let r := tableAt (fun i => m.getI (R.THM_TBL_T (m.get (R.THM_SENSCFG_TBL n)) i)) code m
    if m.on (R.ADC_AIN_BROKEN k) then sensorReading n 0 true m else sensorReading n r.1 false r.2
  else m

/-- ADC_CONVERSION (R223): a general input's 12-bit code, a die sensor's reading in 1/16 °C, or a shunt's code. -/
def opAdcConversion (i : AdcInput) (v : Int) (m : Mach) : Mach :=
  match i with
  | .ain k => ainConversion k (clampI 0 4095 v).toNat m
  | .die n => dieConversion n v m
  | .shunt n => { m with shunt := tput n ((clampI 0 4095 v).toNat, (tget (2048, 2048) n m.shunt).1) m.shunt }


/-! ## The heads (R184) -/

/-- The head reading from a conversion (R184); a broken input reads 0x7FFF. -/
def headReading (m : Mach) (s : Nat) : Int :=
  if m.on (R.ADC_AIN_BROKEN (32 + s)) then 0x7FFF else 45 * (m.get (R.ADC_AIN_VAL (32 + s)) : Int) / 64 - 800

/-- The envelope's head ceiling. -/
def headCeilOf (m : Mach) (s : Nat) : Int := sint 16 (guard16 m (0x028 + 16 * s))

/-- The soft and hard limits at a reading (Table 6.5), in a station whose domain is up. -/
def headLimits (s : Nat) (t : Int) (m : Mach) : Mach :=
  let m := m.setI (R.VID_HT_TEMP s) t
  let soft := m.getI (R.VID_HTLIM_HTSOFT s)
  let hard := min (m.getI (R.VID_HTLIM_HTHARD s)) (headCeilOf m s)
  let m :=
    if soft ≤ t then
      if m.on (R.VID_STAT_HTSOFT s) then m
      else note (vidSrc s 1) 0x08 0 (assertEvent (vidEvent s 3) (m.set (R.VID_STAT_HTSOFT s) 1))
    else if t ≤ soft - 32 then m.set (R.VID_STAT_HTSOFT s) 0
    else m
  let m :=
    if hard ≤ t then
      if m.on (R.VID_STAT_HTHARD s) then m
      else raiseNaming (vidSrc s 1) 0x09 1 (caughtAt s m) (m.set (R.VID_STAT_HTHARD s) 1)
    else if t ≤ hard - 32 then m.set (R.VID_STAT_HTHARD s) 0
    else m
  when (m.on R.THM_CTL_EN) throttleUpdate m

/-- HEAD_TEMP_SAMPLE (R184). -/
def opHeadTempSample (s : Nat) (m : Mach) : Mach :=
  let t := headReading m s
  let hot := headCeilOf m s ≤ t
  let was := (m.vidOf s).headCeil
  let m := when (domUp (4 + s) m) (headLimits s t) m
  let m := m.onVid s fun v => { v with headCeil := hot }
  when (hot && !was) (raise (vidSrc s 1) 0x0A 4 ·) m

end Sys2Proof.Machine
end

