-- ==== Sys2Proof/Machine/Drives.lean ====
section
/-! DEFINITION. Polygon, servo and stepper drives, and braking (chapter 10, R277-R300). -/

namespace Sys2Proof.Machine

/-- A polygon drive's unseen state. -/
def Mach.polyOf (m : Mach) (n : Nat) : PolyDrv := tget {} n m.drv.poly
/-- Replaces it. -/
def Mach.setPoly (m : Mach) (n : Nat) (p : PolyDrv) : Mach := { m with drv := { m.drv with poly := tput n p m.drv.poly } }
/-- A servo drive's unseen state. -/
def Mach.srvOf (m : Mach) (n : Nat) : SrvDrv := tget {} n m.drv.srv
/-- Replaces it. -/
def Mach.setSrv (m : Mach) (n : Nat) (p : SrvDrv) : Mach := { m with drv := { m.drv with srv := tput n p m.drv.srv } }
/-- A stepper drive's unseen state. -/
def Mach.stpOf (m : Mach) (n : Nat) : StpDrv := tget {} n m.drv.stp
/-- Replaces it. -/
def Mach.setStp (m : Mach) (n : Nat) (p : StpDrv) : Mach := { m with drv := { m.drv with stp := tput n p m.drv.stp } }

/-- States of a polygon drive (Table 10.6). -/
def polyOff : Nat := 0
def polyAlign : Nat := 1
def polyRamp : Nat := 2
def polyRun : Nat := 3
def polyCatch : Nat := 4
def polyFault : Nat := 6

/-- A shunt's current from its code (R280). -/
def shuntMa (code isc : Nat) : Int := ((code : Int) - 2048) * isc / 256

/-- The latest and the previous conversion of a shunt input. -/
def shuntOf (m : Mach) (n : Nat) : Nat × Nat := tget (2048, 2048) n m.shunt

/-- Bus voltage in mV. -/
def busMv (m : Mach) : Nat := m.get R.SRV_BRKSTAT_VBUS * 10

/-! ## Leaving a braking or faulted state (R287, R292, R294, R296, R298) -/

/-- Some drive brakes by short winding. -/
def anySwb (m : Mach) : Bool :=
  (List.range 5).any (fun n => m.on (R.POLY_STAT_SWB n)) || (List.range 8).any (fun n => m.on (R.SRV_STAT_SWB n))
    || (List.range 12).any (fun n => m.on (R.STP_STAT_SWB n))

/-- A write of 0 to a drive's enable: it counts once the records of the faults that hold the drive have been cleared. -/
def disarmDrive (d : Nat) (m : Mach) : Mach :=
  match tfind d m.drv.brake with
  | some l =>
    if l.any fun c => recOpen c.1 c.2 m then m else { m with drv := { m.drv with rearm := tput d true m.drv.rearm } }
  | none => m

/-- The drive is held by a fault whose record has not been cleared and answered with EN = 0. -/
def driveHeld (d : Nat) (m : Mach) : Bool := thas d m.drv.brake && !thas d m.drv.rearm

/-- A write of 1 after that ends the fault state. -/
def rearmDrive (d : Nat) (m : Mach) : Mach :=
  { m with drv := { m.drv with brake := tdel d m.drv.brake, rearm := tdel d m.drv.rearm } }

/-! ## Polygon drives -/

/-- Fault source of a polygon drive. -/
def polySrc (n : Nat) : Nat := 0x1A0 + n

/-- Pole pairs. -/
def polePairs (m : Mach) (n : Nat) : Nat := max 1 (m.get (R.POLY_CFG_PP n))

/-- The duty that a request gives within the sampling windows (R283), in 1/65,536 and long enough that both intervals last
TMIN, and whether they acted. -/
def windowDuty (m : Mach) (n req : Nat) : Nat × Bool :=
  let per := max 1 (m.get (R.POLY_PWM_PERIOD n))
  let lo := ceilDiv (m.get (R.POLY_WIN_TMIN n) * 65536) per
  let hi := 65536 - lo
  if req = 0 then (0, false) else if req < lo then (lo, true) else if hi < req then (hi, true) else (req, false)

/-- Applies a duty. -/
def setDuty (n req : Nat) (m : Mach) : Mach :=
  let d := windowDuty m n req
  polyGates n false ((m.set (R.POLY_MEAS_DUTY n) (min 65535 d.1)).set (R.POLY_STAT_WLIM n) (b2n d.2))

/-- Moves a drive to a state, from which its timer runs. -/
def polyTo (n st : Nat) (m : Mach) : Mach :=
  polyGates n false ((m.set (R.POLY_STAT_STATE n) st).setPoly n { m.polyOf n with since := m.clk.tick })

/-- A drive enters RUN (R287). -/
def polyEnterRun (n : Nat) (m : Mach) : Mach :=
  let m := polyTo n polyRun m
  assertEvent 0x1A2 (m.setPoly n { m.polyOf n with bad := 0, fast := 0, stable := 0, keStep := 0, comDue := none })

/-- A drive stops with every gate low (R286, R287); LOCK of its station falls (R233). -/
def polyFaultTo (n kind cls : Nat) (m : Mach) : Mach :=
  let m := holdDrive (polySrc n) kind n (setDuty n 0 (polyTo n polyFault m))
  let m := polyUnlock n (m.setPoly n { m.polyOf n with comDue := none })
  raise (polySrc n) kind cls m

/-- The step a Hall code names (Table 10.2); none for an invalid code. -/
def hallStep (code : Nat) : Option Nat := [1, 5, 4, 6, 2, 3].findIdx? (· == code)

/-- The enable sequence starts afresh (R287). -/
def polyStart (n : Nat) (m : Mach) : Mach :=
  let hall := (m.polyOf n).hall
  let m := m.setPoly n { clampAt := (m.polyOf n).clampAt, hall := hall }
  let step := if m.on (R.POLY_CFG_SENSE n) then (hallStep hall).getD 0 else 0
  let m := ((m.set (R.POLY_STAT_STEP n) step).set (R.POLY_STAT_KEBAD n) 0).set (R.POLY_STAT_SWB n) 0
  if m.on (R.POLY_CFG_SENSE n) then polyEnterRun n m
  else setDuty n (m.get (R.POLY_STARTA_ALIGND n) * 256) (polyTo n polyAlign m)

/-- A write of a polygon drive's CFG (R287, R300). -/
def polyCfgWrite (n : Nat) (w : Word) (m : Mach) : Mach :=
  let key := (R.POLY_CFG_EN n).key
  let was := m.on (R.POLY_CFG_EN n)
  if (R.POLY_CFG_EN n).of w = 0 && stationBusy n m then ignored key m
  else
    let m := storeFields key w m
    let now := m.on (R.POLY_CFG_EN n)
    if !now then
      let m := disarmDrive n m
      if driveHeld n m || m.on (R.POLY_STAT_SWB n) || m.get (R.POLY_STAT_STATE n) == polyOff then m
      else polyUnlock n (setDuty n 0 (polyTo n polyOff (m.setPoly n { m.polyOf n with comDue := none })))
    else if !was && now && !driveHeld n m then
      let m := polyStart n (rearmDrive n m)
      m.set R.SRV_BRKSTAT_SWB (b2n (anySwb m))
    else m

/-- POLY_ENABLE (R287). -/
def opPolyEnable (q : Requester) (n : Nat) (w : Word) (m : Mach) : Mach :=
  guarded q false (R.POLY_CFG_EN n).key (polyCfgWrite n (withBits w 0 0 1)) m

/-- POLY_DISABLE (R287, R300). -/
def opPolyDisable (q : Requester) (n : Nat) (w : Word) (m : Mach) : Mach :=
  guarded q false (R.POLY_CFG_EN n).key (polyCfgWrite n (withBits w 0 0 0)) m

/-- POLY_ALIGN_END (R287). -/
def opPolyAlignEnd (n : Nat) (m : Mach) : Mach :=
  if m.get (R.POLY_STAT_STATE n) == polyAlign
      && (m.polyOf n).since.toNat + msTicks (m.get (R.POLY_STARTA_ALIGNT n)) ≤ m.now then
    let m := polyTo n polyRamp m
    m.setPoly n { m.polyOf n with steps := 0, good := 0, last := none }
  else m

/-- POLY_RAMP_END (R287). -/
def opPolyRampEnd (n : Nat) (m : Mach) : Mach :=
  if m.get (R.POLY_STAT_STATE n) == polyRamp
      && (m.polyOf n).since.toNat + msTicks (m.get (R.POLY_STARTB_RAMPT n)) ≤ m.now then
    polyFaultTo n 0x01 2 m
  else m

/-- The advance table at the present speed (R285): linear, truncated, held above point 15, at most 128. -/
def advanceOf (m : Mach) (n : Nat) : Nat :=
  let pt (k : Nat) : Int := bitsOf (m.word (R.POLY_ADV_ADV0 n (k / 4)).key) (8 * (k % 4) + 7) (8 * (k % 4))
  let step := 16 * m.get (R.POLY_ADVSTEP_STEP n)
  let sp := m.get (R.POLY_SPEED n)
  let v : Int := if step = 0 || 15 * step ≤ sp then pt 15
    else (pt (sp / step) * step + (pt (sp / step + 1) - pt (sp / step)) * (sp % step : Nat)) / step
  min 128 v.toNat

/-- CMD as it acts: at most the envelope's maximum, with CLAMP and a note once a second (R286). -/
def polyCmd (n : Nat) (m : Mach) : Nat × Mach :=
  let cmd := m.get (R.POLY_CMD n)
  let mx := guard32 m (0x110 + 16 * n)
  let m := m.set (R.POLY_STAT_CLAMP n) (b2n (mx < cmd))
  if mx < cmd then
    let m := guardClamp R.ENV_CLAMP_PSPEED [(R.POLY_CMD n).key] m
    let p := m.polyOf n
    let due := match p.clampAt with | some t => t.toNat + msTicks 1000 ≤ m.now | none => true
    (mx, when due (fun m => note (polySrc n) 0x07 0 (m.setPoly n { p with clampAt := some m.clk.tick })) m)
  else (cmd, m)

/-- A write of CMD: the clamp shows at once in RUN; otherwise the value waits (R286, R300). -/
def polyCmdWrite (n : Nat) (w : Word) (m : Mach) : Mach :=
  let m := storeFields (R.POLY_CMD n).key w m
  if m.get (R.POLY_STAT_STATE n) = polyRun then (polyCmd n m).2 else m

/-- The speed loop at a crossing (R286): current demand in mA; its rounding is open, the integrator stays within the
clamp (log entry 34). -/
def speedLoop (n : Nat) (m : Mach) : Mach :=
  let r := polyCmd n m
  let m := r.2
  let p := m.polyOf n
  let e : Int := (r.1 : Int) - m.get (R.POLY_SPEED n)
  let env := guard16 m (0x114 + 16 * n)
  let lim : Int := min (m.get (R.POLY_ILIM n)) env
  let integ := clampI 0 (lim * 65536) (p.integS + m.get (R.POLY_SGAIN_KIS n) * e)
  let raw := m.roundFree (m.get (R.POLY_SGAIN_KPS n) * e + integ) 65536
  let m := when (decide ((env : Int) < min raw.1 (m.get (R.POLY_ILIM n))))
    (guardClamp R.ENV_CLAMP_PCUR [(R.POLY_CMD n).key, (R.POLY_ILIM n).key]) raw.2
  m.setPoly n { p with integS := integ, demand := (clampI 0 lim raw.1).toNat }

/-- The Ke check, once per electrical revolution while the speed is stable (R289). -/
def keCheck (n : Nat) (m : Mach) : Mach :=
  let p := m.polyOf n
  let sp := m.get (R.POLY_SPEED n)
  if p.stable < 256 || p.keStep < 6 || sp = 0 then m
  else
    let i := m.getI (R.POLY_MEAS_I n)
    let mv1000 : Int := (m.get (R.POLY_MEAS_DUTY n) * busMv m * 1000 / 65536 : Nat) - i * m.get (R.POLY_WIND_OHM n)
    let ke := ((mv1000 * 16 * 2 + sp) / (2 * sp)).toNat
    let nom := m.get (R.POLY_KE_KENOM n)
    let off := (if ke < nom then nom - ke else ke - nom) * 100
    let bad := nom * m.get (R.POLY_KE_KETOL n) < off
    let m := m.set (R.POLY_KEMEAS_KE n) (min 65535 ke)
    let run := if bad then p.keBad + 1 else 0
    let m := m.setPoly n { p with keStep := 0, keBad := run }
    if run < 64 then m
    else
      let m := m.set (R.POLY_STAT_KEBAD n) 1
      when (!p.keSent) (fun m =>
        raise (polySrc n) 0x04 (min 3 (m.get (R.POLY_CFG_KECLS n))) (m.setPoly n { m.polyOf n with keSent := true })) m

/-- What a step's period gives: T60 and SPEED, the overspeed trip, the speed loop and the Ke check (R284, R286). -/
def stepPeriod (n t60 : Nat) (m : Mach) : Mach :=
  let m := m.set (R.POLY_T60 n) (min t60 0xFFFFFF)
  let r := m.roundFree 128000000000 (max 1 (polePairs m n * t60))
  let m := r.2.set (R.POLY_SPEED n) (min r.1.toNat 0xFFFFF)
  if m.get (R.POLY_STAT_STATE n) != polyRun then m
  else
    let sp := m.get (R.POLY_SPEED n)
    let p := m.polyOf n
    let fast := if guard32 m (0x110 + 16 * n) * 102 < sp * 100 then p.fast + 1 else 0
    let cmd := min (m.get (R.POLY_CMD n)) (guard32 m (0x110 + 16 * n))
    let dev := if cmd < sp then sp - cmd else cmd - sp
    let m := m.setPoly n { p with fast := fast, stable := if dev * 100 ≤ cmd then p.stable + 1 else 0, keStep := p.keStep + 1 }
    let m := keCheck n (speedLoop n m)
    when (fast == 64) (raise (polySrc n) 0x06 4 ·) m

/-- The rotor is lost (R288): the gates float and the drive tries to catch it. -/
def rotorLost (n : Nat) (m : Mach) : Mach :=
  let m := setDuty n 0 (polyTo n polyCatch m)
  let m := m.setPoly n { m.polyOf n with seen := [], comDue := none, stable := 0, keStep := 0, keBad := 0 }
  let m := raise (polySrc n) 0x02 2 (assertEvent 0x1A0 (m.incSat (R.POLY_CNT_LOST n)))
  let lines := (caughtAt n m).filter fun r => let l := tget {} n (m.sheet r).legs; l.begun && !l.done && l.blankFrom != some 0
  raiseEach (vidSrc n 0) 0x02 1 lines (polyUnlock n m)

/-- A bad step (R288). -/
def badStep (n : Nat) (m : Mach) : Mach :=
  let p := m.polyOf n
  let m := m.setPoly n { p with bad := p.bad + 1 }
  when (max 1 (m.get (R.POLY_CATCH_LOSTN n)) ≤ p.bad + 1) (rotorLost n) m

/-- The floating phase of a step, 0 U, 1 V, 2 W, and whether its back-EMF rises (Table 10.2, R281). -/
def floating (m : Mach) (n : Nat) : Nat × Bool :=
  let st := m.get (R.POLY_STAT_STEP n)
  ((2 + 2 * (st % 3)) % 3, (st % 2 == 1) != m.on (R.POLY_CFG_DIR n))

/-- The next step (R281). -/
def nextStep (m : Mach) (n st : Nat) : Nat := if m.on (R.POLY_CFG_DIR n) then (st + 5) % 6 else (st + 1) % 6

/-- A crossing while CATCH watches all three inputs (R288 step 3). -/
def catchCrossing (n phase : Nat) (rising : Bool) (t : Nat) (m : Mach) : Mach :=
  let p := m.polyOf n
  let seen := ((phase, t) :: p.seen).take 3
  let m := m.setPoly n { p with seen := seen }
  match seen with
  | [(a, t2), (b, t1), (c, t0)] =>
    let d1 := t1 - t0
    let d2 := t2 - t1
    let order := (a != b && b != c && a != c) && ((b + 3 - c) % 3 == (a + 3 - b) % 3)
    let near := 4 * max d1 d2 ≤ 5 * min d1 d2 && 0 < min d1 d2
    if order && near then
      let m := m.setPoly n { m.polyOf n with last := some t2, refAt := t2, seen := [] }
      let st := (List.range 6).find? fun s => floating (m.set (R.POLY_STAT_STEP n) s) n == (a, rising)
      let m := m.set (R.POLY_STAT_STEP n) (nextStep m n (st.getD 0))
      let m := stepPeriod n ((d1 + d2) / 2) m
      let duty := m.roundFree (m.get (R.POLY_KE_KENOM n) * m.get (R.POLY_SPEED n) * 65536 : Nat) (16000 * max 1 (busMv m))
      let m := setDuty n duty.1.toNat duty.2
      let m := polyEnterRun n (m.setPoly n { m.polyOf n with integC := duty.1 * 256 })
      note (polySrc n) 0x03 0 (assertEvent 0x1A1 (m.incSat (R.POLY_CNT_CATCHOK n)))
    else m
  | _ => m

/-- A crossing of the floating phase while the drive steps (R284, R287, R288). -/
def stepCrossing (n t : Nat) (m : Mach) : Mach :=
  let p := m.polyOf n
  let t60 := m.get (R.POLY_T60 n)
  match p.last with
  | none => m.setPoly n { p with last := some t, refAt := t }
  | some l =>
    let d := t - l
    let early := t60 != 0 && 2 * d < t60
    let late := t60 != 0 && 2 * t60 < d
    let m := stepPeriod n d (m.setPoly n { p with last := some t, refAt := t })
    let p := m.polyOf n
    if m.get (R.POLY_STAT_STATE n) = polyRamp then
      let good := if early || late || t60 = 0 then 0 else p.good + 1
      let m := m.setPoly n { p with good := good }
      if max 1 (m.get (R.POLY_STARTB_ZCN n)) ≤ good then polyEnterRun n m else m
    else if early then badStep n m
    else m.setPoly n { p with bad := 0 }

/-- The gate spans of a polygon drive's phases as the present PWM period sees them, with the pattern repeated where the
period has been outrun, and the cycle of the period at which fabric cycle t lies. -/
def gateView (m : Mach) (n t : Nat) : Int × List LegOut :=
  let g := m.gatesOf n
  let per := max 1 g.per
  let k := (t - g.at_) / per
  let c : Int := ((t - g.at_) % per : Nat)
  let again (l : List (Int × Int)) : List (Int × Int) :=
    let new := spansFrom 0 l
    new.map (fun p : Int × Int => (p.1 - (per : Int), p.2 - (per : Int))) ++ new
  (c, if k = 0 then g.legs else g.legs.map fun l => { hi := again l.hi, lo := again l.lo })

/-- The intervals (after, up to) in which the crossing comparator is ignored (R284), relative to fabric cycle t: off
intervals of the phase that is modulated, BLANK after each gate edge, and T60 / 8 after the commutation. -/
def ignoredSpans (m : Mach) (n t : Nat) : List (Int × Int) :=
  let v := gateView m n t
  let blank : Int := m.get (R.POLY_WIN_BLANK n)
  let hi := (v.2.getD (drivenPhases m n).1 {}).hi
  let ends := hi.map (·.2)
  let offs := ends.map fun e => (e, ((hi.map (·.1)).filter fun s => e ≤ s).foldl min (v.1 + 1))
  let first := match hi with | [] => [(v.1 - 1, v.1 + 1)] | p :: _ => [(p.1 - max 1 (m.gatesOf n).per, p.1)]
  let edges := v.2.flatMap fun l => (l.hi ++ l.lo).flatMap fun p => [p.1, p.2]
  let demag : Int × Int := ((m.polyOf n).comAt - (t : Int) + v.1, (m.polyOf n).comAt - (t : Int) + v.1 + m.get (R.POLY_T60 n) / 8)
  ((demag :: first ++ offs ++ edges.map fun e => (e, e + blank)).filter fun p => p.1 < p.2).map fun p => (p.1 - v.1, p.2 - v.1)

/-- Where a run of ignored intervals that ends at x began. -/
def ignoredFrom (l : List (Int × Int)) : Nat → Int → Int
  | 0, x => x
  | k + 1, x =>
    match l.find? fun p => p.1 < x && x ≤ p.2 with
    | some p => ignoredFrom l k p.1
    | none => x

/-- The stamp of a crossing that the comparator shows in fabric cycle t: none in an ignored interval; in the first valid
cycle after one, the middle of that interval; else the cycle (R284). -/
def crossingStamp (m : Mach) (n t : Nat) : Option Nat :=
  let l := ignoredSpans m n t
  if l.any fun p => p.1 ≤ 0 && 0 < p.2 then none
  else
    let s := ignoredFrom l l.length 0
    some (((t : Int) + s / 2).toNat)

/-- BEMF_CROSSING (R284): the comparator of one phase shows a crossing, `sub` fabric cycles into this TICK. -/
def opBemfCrossing (n phase : Nat) (rising : Bool) (sub : Nat) (m : Mach) : Mach :=
  let t := m.now * 8 + sub % 8
  let st := m.get (R.POLY_STAT_STATE n)
  if st = polyCatch then catchCrossing n phase rising t m
  else if m.on (R.POLY_CFG_SENSE n) || !(st == polyRamp || st == polyRun) || floating m n != (phase, rising) then m
  else match crossingStamp m n t with
    | none => m
    | some t =>
      let m := stepCrossing n t m
      if m.get (R.POLY_STAT_STATE n) = polyRun then
        let p := m.polyOf n
        m.setPoly n { p with comDue := some (t + m.get (R.POLY_T60 n) * (128 - advanceOf m n) / 256) }
      else m

/-- HALL_EDGE (R285, R288): the Hall inputs read `code`, HC HB HA. -/
def opHallEdge (n code : Nat) (m : Mach) : Mach :=
  let m := m.setPoly n { m.polyOf n with hall := code }
  if !m.on (R.POLY_CFG_SENSE n) || m.get (R.POLY_STAT_STATE n) != polyRun then m
  else match hallStep code with
    | none => badStep n m
    | some st =>
      let t := m.now * 8
      let m := polyGates n false (m.set (R.POLY_STAT_STEP n) st)
      let p := m.polyOf n
      let m := match p.last with
        | some l => stepPeriod n (t - l) (m.setPoly n { p with last := some t, bad := 0, comAt := t })
        | none => m.setPoly n { p with last := some t, bad := 0, comAt := t }
      let t60 := m.get (R.POLY_T60 n)
      m.setPoly n { m.polyOf n with comDue := if t60 = 0 then none else some (t + t60 - t60 * advanceOf m n / 256) }

/-- Open-loop steps of RAMP up to now (R287): the rate rises linearly to HAND rpm over RAMPT ms. -/
def rampSteps (m : Mach) (n : Nat) : Nat :=
  let dt := m.now - (m.polyOf n).since.toNat
  m.get (R.POLY_STARTA_HAND n) * 6 * polePairs m n * dt * dt
    / (120 * max 1 (msTicks (m.get (R.POLY_STARTB_RAMPT n))) * 100000000)

/-- POLY_COMMUTATE (R284, R287): the next commutation is due. -/
def opPolyCommutate (n : Nat) (m : Mach) : Mach :=
  let p := m.polyOf n
  let st := m.get (R.POLY_STAT_STATE n)
  let next (m : Mach) : Mach := polyGates n false (m.set (R.POLY_STAT_STEP n) (nextStep m n (m.get (R.POLY_STAT_STEP n))))
  if st = polyRamp && p.steps < rampSteps m n then
    next (m.setPoly n { p with steps := p.steps + 1, comAt := m.now * 8 })
  else if st = polyRun then
    match p.comDue with
    | some t => if t ≤ m.now * 8 then next (m.setPoly n { p with comDue := none, comAt := m.now * 8 }) else m
    | none => m
  else m

/-- POLY_STEP_TIMEOUT (R288): no valid crossing by 2 x T60. -/
def opPolyStepTimeout (n : Nat) (m : Mach) : Mach :=
  let p := m.polyOf n
  if m.get (R.POLY_STAT_STATE n) == polyRun && !m.on (R.POLY_CFG_SENSE n) && p.last.isSome
      && p.refAt + 2 * m.get (R.POLY_T60 n) ≤ m.now * 8 then
    badStep n (m.setPoly n { p with refAt := m.now * 8 })
  else m

/-- POLY_CATCH_TIMEOUT (R288 step 4). -/
def opPolyCatchTimeout (n : Nat) (m : Mach) : Mach :=
  if m.get (R.POLY_STAT_STATE n) == polyCatch
      && (m.polyOf n).since.toNat + msTicks (m.get (R.POLY_CATCH_CATCHT n)) ≤ m.now then
    polyUnlock n (brakeDrive (polySrc n) 0x02 n m)
  else m

/-- POLY_PWM_PERIOD (R282, R283, R286): the gates of a new period, winding current, peak limit, and the current loop. -/
def opPolyPwmPeriod (n : Nat) (m : Mach) : Mach :=
  let st := m.get (R.POLY_STAT_STATE n)
  if !m.on (R.POLY_CFG_EN n) || !(st == polyAlign || st == polyRamp || st == polyRun) then polyGates n true m
  else
    let sh := shuntOf m n
    let isc := m.get (R.POLY_ILIM_ISC n)
    let i := shuntMa sh.2 isc - shuntMa sh.1 isc
    let m := m.setI (R.POLY_MEAS_I n) (clampI (-32768) 32767 i)
    let p := m.polyOf n
    let peak := if (guard16 m (0x116 + 16 * n) : Int) < i then p.peak + 1 else 0
    let m := m.setPoly n { p with peak := peak }
    if 2 ≤ peak then polyFaultTo n 0x05 3 (m.setPoly n { m.polyOf n with peak := 0 })
    else if st != polyRun then polyGates n true (setDuty n (m.get (R.POLY_STARTA_ALIGND n) * 256) m)
    else
      let p := m.polyOf n
      let e := (p.demand : Int) - i
      let integ := clampI 0 (65536 * 256) (p.integC + m.get (R.POLY_CGAIN_KIC n) * e)
      let raw := m.roundFree (m.get (R.POLY_CGAIN_KPC n) * e + integ) 256
      polyGates n true (setDuty n (clampI 0 65536 raw.1).toNat (raw.2.setPoly n { p with integC := integ }))

/-! ## Sine and cosine -/

/-- 2 pi x 2^40. -/
def twoPi40 : Int := 6908435304715

/-- Taylor terms of a sine: the present term t, x squared, and the next odd number. -/
def sinTerms : Nat → Int → Int → Int → Int
  | 0, t, _, _ => t
  | n + 1, t, x2, k => t + sinTerms n (-(t * x2 / 2 ^ 40) / ((k + 1) * (k + 2))) x2 (k + 2)

/-- Sine x 2^40 of an angle in turns of 2^16 (R290). -/
def sin40 (a : Int) : Int :=
  let u := a % 65536
  let q : Int := if u < 16384 then u else if u < 49152 then 32768 - u else u - 65536
  let x := q * twoPi40 / 65536
  sinTerms 9 x (x * x / 2 ^ 40) 1

/-- Cosine x 2^40. -/
def cos40 (a : Int) : Int := sin40 (a + 16384)

/-- Integer square root from below, by bits. -/
def isqrt : Nat → Nat → Nat → Nat
  | 0, _, r => r
  | b + 1, n, r => let c := r + 2 ^ b; isqrt b n (if c * c ≤ n then c else r)

/-- Magnitude of a vector, from below. -/
def magnitude (x y : Int) : Nat := isqrt 32 (x * x + y * y).toNat 0

/-! ## Servo drives (R290-R292) -/

/-- Fault source of a servo axis. -/
def srvSrc (n : Nat) : Nat := 0x1B0 + n

/-- Electrical angle in 1/65,536 turn (R290). -/
def srvAngle (m : Mach) (n : Nat) : Int :=
  let q := m.get (R.MOT_CFG_FBCH n)
  let nom : Int := (max 1 (m.get (R.FBK_NOM q)) : Nat)
  (m.getI (R.FBK_CNT q) - m.getI (R.SRV_EOFF n)) * (m.get (R.SRV_CFG_PPM1 n) + 1 : Nat) * 65536 / nom % 65536

/-- The regulators of a servo axis stand at zero: it applies no voltage. -/
def srvZero (n : Nat) (m : Mach) : Mach :=
  (m.setSrv n { clampAt := (m.srvOf n).clampAt }).setWord (R.SRV_VOLT_VQ n).key 0

/-- A write of a servo axis's CFG (R292, R296). -/
def srvCfgWrite (n : Nat) (w : Word) (m : Mach) : Mach :=
  let was := m.on (R.SRV_CFG_EN n)
  let m := storeFields (R.SRV_CFG_EN n).key w m
  let now := m.on (R.SRV_CFG_EN n)
  if !now then srvGates n false (disarmDrive (32 + n) (srvZero n m))
  else if !was && now && !driveHeld (32 + n) m then
    let m := srvGates n false (((rearmDrive (32 + n) m).set (R.SRV_STAT_OC n) 0).set (R.SRV_STAT_SWB n) 0)
    m.set R.SRV_BRKSTAT_SWB (b2n (anySwb m))
  else m

/-- The references after the envelope's limit (R291): scaled with the angle kept, ICLAMP and a note once a second. -/
def srvRefs (n : Nat) (m : Mach) : Int × Int × Mach :=
  let iq := m.getI (R.SRV_IREF_IQ n)
  let id_ := m.getI (R.SRV_IREF_ID n)
  let lim := guard16 m (0x160 + 4 * n)
  if iq * iq + id_ * id_ ≤ (lim * lim : Nat) then (iq, id_, m.set (R.SRV_STAT_ICLAMP n) 0)
  else
    let mag := max 1 (magnitude iq id_)
    let a := m.roundFree (iq * lim) mag
    let b := a.2.roundFree (id_ * lim) mag
    let m := guardClamp R.ENV_CLAMP_SCUR [(R.SRV_IREF_IQ n).key] (b.2.set (R.SRV_STAT_ICLAMP n) 1)
    let p := m.srvOf n
    let due := match p.clampAt with | some t => t.toNat + msTicks 1000 ≤ m.now | none => true
    (a.1, b.1, when due (fun m => note (srvSrc n) 0x02 0 (m.setSrv n { p with clampAt := some m.clk.tick })) m)

/-- Phase currents: each sample less a third of their sum, in 1/3 mA (R290). -/
def srvPhases (m : Mach) (n : Nat) : Int × Int × Int :=
  let isc := m.get (R.SRV_CFG_ISC n)
  let u := shuntMa (shuntOf m (5 + 3 * n)).1 isc
  let v := shuntMa (shuntOf m (6 + 3 * n)).1 isc
  let w := shuntMa (shuntOf m (7 + 3 * n)).1 isc
  (3 * u - (u + v + w), 3 * v - (u + v + w), 3 * w - (u + v + w))

/-- 1/sqrt 3 in units of 10^-9. -/
def invSqrt3 : Int := 577350269

/-- The measured currents in the rotor's frame (R291), (i_q, i_d) in mA; the rounding is open. -/
def srvPark (m : Mach) (n : Nat) (th : Int) : Int × Int × Mach :=
  let (u, v, w) := srvPhases m n
  let al := u * 1000000000
  let be := (v - w) * invSqrt3
  let d := al * cos40 th + be * sin40 th
  let q := be * cos40 th - al * sin40 th
  let a := m.roundFree q (3000000000 * 2 ^ 40)
  let b := a.2.roundFree d (3000000000 * 2 ^ 40)
  (a.1, b.1, b.2)

/-- Leg duties by min-max injection, in 1/65,536 (R290), with dead-time compensation (R291); the rounding is open. -/
def srvDuties (n : Nat) (th vq vd : Int) (m : Mach) : List Int × Mach :=
  -- phase voltages in mV, times 2 x 2^40 x 10^9
  let va := (vd * cos40 th - vq * sin40 th) * 1000000000
  let s3 := (vd * sin40 th + vq * cos40 th) * 3 * invSqrt3
  let ph := [2 * va, s3 - va, -s3 - va]
  let hi := max (2 * va) (max (s3 - va) (-s3 - va))
  let lo := min (2 * va) (min (s3 - va) (-s3 - va))
  let den : Nat := 2 * 2 ^ 40 * 1000000000 * max 1 (busMv m)
  let per := max 1 (m.get (R.SRV_PWM_PERIOD n))
  let dt : Int := if m.on (R.SRV_CFG_DTC n) then m.get (R.SRV_PWM_DT n) * 65536 else 0
  let (u, v, w) := srvPhases m n
  (ph.zip [u, v, w]).foldl (fun x p =>
    let comp := if 0 < p.2 then dt else if p.2 < 0 then -dt else 0
    let q := x.2.roundFree ((2 * p.1 - hi - lo) * 32768 * (per : Int) + comp * (den : Int)) (den * per)
    (x.1 ++ [clampI 0 65536 (32768 + q.1)], q.2)) ([], m)

/-- SERVO_PWM_PERIOD (R290-R292). -/
def opServoPwmPeriod (n : Nat) (m : Mach) : Mach :=
  if !m.on (R.SRV_CFG_EN n) || driveHeld (32 + n) m || m.on (R.SRV_STAT_OC n) || m.on (R.SRV_STAT_SWB n) then
    srvGates n true m
  else
    let th := srvAngle m n
    let pk := 3 * (guard16 m (0x162 + 4 * n) : Int)
    let (u, v, w) := srvPhases m n
    let (iq, id_, m) := srvPark m n th
    let m := (m.setI (R.SRV_MEAS_IQ n) (clampI (-32768) 32767 iq)).setI (R.SRV_MEAS_ID n) (clampI (-32768) 32767 id_)
    let p := m.srvOf n
    let hit := pk < u.natAbs || pk < v.natAbs || pk < w.natAbs
    let peak := if hit then p.peak + 1 else 0
    let m := m.setSrv n { p with peak := peak }
    if 2 ≤ peak then
      let m := (holdDrive (srvSrc n) 0x01 (32 + n) m).set (R.SRV_STAT_OC n) 1
      raise (srvSrc n) 0x01 3 (assertEvent 0x1B1 (srvGates n false (srvZero n m)))
    else
      let (rq, rd, m) := srvRefs n m
      let p := m.srvOf n
      let kp : Int := m.get (R.SRV_GAIN_KP n)
      let ki : Int := m.get (R.SRV_GAIN_KI n)
      let nq := p.integQ + ki * (rq - iq)
      let nd := p.integD + ki * (rd - id_)
      let (vq, m) := m.roundFree (kp * (rq - iq) + nq) 1000
      let (vd, m) := m.roundFree (kp * (rd - id_) + nd) 1000
      let per := max 1 (m.get (R.SRV_PWM_PERIOD n))
      let a := m.get (R.SRV_LIM_VLIM n) * per
      let b := (per - 2 * m.get (R.SRV_LIM_TMIN n)) * 65536
      let lim := (min a b) * busMv m * invSqrt3.toNat / (per * 65536 * 1000000000)
      let mag := magnitude vq vd
      let cut := lim < mag
      let (vq, m) := if cut then m.roundFree (vq * lim) mag else (vq, m)
      let (vd, m) := if cut then m.roundFree (vd * lim) mag else (vd, m)
      let p := if cut then p else { p with integQ := nq, integD := nd }
      let (duty, m) := srvDuties n th vq vd m
      let m := srvGates n true ((m.set (R.SRV_STAT_LIMV n) (b2n cut)).setSrv n { p with duty := duty })
      let (wq, m) := m.roundFree vq 10
      let (wd, m) := m.roundFree vd 10
      (m.setI (R.SRV_VOLT_VQ n) (clampI (-32768) 32767 wq)).setI (R.SRV_VOLT_VD n) (clampI (-32768) 32767 wd)

/-! ## Stepper drives (R293-R295) -/

/-- Fault source of a stepper axis. -/
def stpSrc (n : Nat) : Nat := 0x1C0 + n

/-- A write of a stepper axis's CFG (R294, R296). -/
def stpCfgWrite (n : Nat) (w : Word) (m : Mach) : Mach :=
  let was := m.on (R.STP_CFG_EN n)
  let m := storeFields (R.STP_CFG_EN n).key w m
  let now := m.on (R.STP_CFG_EN n)
  if !now then disarmDrive (64 + n) (m.setStp n { clampAt := (m.stpOf n).clampAt, holdAt := (m.stpOf n).holdAt })
  else if !was && now && !driveHeld (64 + n) m then
    let m := ((rearmDrive (64 + n) m).set (R.STP_STAT_OC n) 0).set (R.STP_STAT_SWB n) 0
    m.set R.SRV_BRKSTAT_SWB (b2n (anySwb m))
  else m

/-- The amplitude in use, in 1/64 mA (R294, R295), after the envelope's limit. -/
def stpAmplitude (n : Nat) (m : Mach) : Nat × Mach :=
  let lim := guard16 m (0x180 + 4 * n)
  let run := m.get (R.STP_IRUN n)
  let hold := m.get (R.STP_IRUN_IHOLD n)
  let k := min 64 ((m.now - (m.stpOf n).holdAt.toNat) / max 1 (m.get R.MOT_CTL_SPER))
  let r := min run lim
  let h := min hold lim
  let amp : Int := if m.on (R.STP_STAT_HOLDING n) then (r : Int) * 64 + ((h : Int) - r) * k else r * 64
  let clamp := lim < run || lim < hold
  let m := m.set (R.STP_STAT_ICLAMP n) (b2n clamp)
  if !clamp then (amp.toNat, m)
  else
    let m := guardClamp R.ENV_CLAMP_TCUR [(R.STP_IRUN n).key] m
    let p := m.stpOf n
    let due := match p.clampAt with | some t => t.toNat + msTicks 1000 ≤ m.now | none => true
    (amp.toNat, when due (fun m => note (stpSrc n) 0x02 0 (m.setStp n { p with clampAt := some m.clk.tick })) m)

/-- A phase's reference in mA (R294) from the amplitude in 1/64 mA: `c` is cos or sin x 2^40 of the microstep angle; the rounding is open. -/
def stpRef (strong : Bool) (sq amp : Nat) (c : Int) (m : Mach) : Int × Mach :=
  m.roundFree (amp * (if strong then clampI (-(256 * 2 ^ 40)) (256 * 2 ^ 40) (c * (256 + sq : Nat)) else 256 * c)) (256 * 64 * 2 ^ 40)

/-- One phase's quiet regulation (R294): the PI output in 1/65,536, whose rounding is open, and the integrator. -/
def stpQuiet (kp ki : Nat) (ref i integ : Int) (m : Mach) : Int × Int × Mach :=
  let integ := clampI (-(65536 * 256)) (65536 * 256) (integ + ki * (ref - i))
  let q := m.roundFree (kp * (ref - i) + integ) 256
  (clampI (-65536) 65536 q.1, integ, q.2)

/-- One phase's chopping in strong mode (R294): driven until its current reaches the reference, not judged within BLANKS of
the turn-on, and then decaying fast for TOFF. -/
def stpChop (n : Nat) (ref i : Int) (c : Chop) (m : Mach) : Chop :=
  let reached := if 0 ≤ ref then ref ≤ i else i ≤ ref
  if c.on then
    if c.since.toNat + m.get (R.STP_STRG_BLANKS n) ≤ m.now && reached then { on := false, since := m.clk.tick } else c
  else if c.since.toNat + 10 * m.get (R.STP_STRG_TOFF n) ≤ m.now then { on := true, since := m.clk.tick }
  else c

/-- The references of both phases in mA (R294), with the amplitude's clamp. -/
def stpRefs (n : Nat) (m : Mach) : Int × Int × Mach :=
  let r := stpAmplitude n m
  let m := r.2
  let th := (m.axis (8 + n)).pos / 65536 * 65536 / (4 * 2 ^ min 8 (m.get (R.MOT_STEP_MLOG2 (8 + n))) : Nat)
  let strong := m.on (R.STP_STAT_STRONG n)
  let sq := m.get (R.STP_STRG_SQ n)
  let (ra, m) := stpRef strong sq r.1 (cos40 th) m
  let (rb, m) := stpRef strong sq r.1 (sin40 th) m
  (ra, rb, m)

/-- The axis is regulated: enabled, and neither off nor braking. -/
def stpActive (n : Nat) (m : Mach) : Bool :=
  m.on (R.STP_CFG_EN n) && !driveHeld (64 + n) m && !m.on (R.STP_STAT_OC n) && !m.on (R.STP_STAT_SWB n)

/-- The measured phase currents. -/
def stpAmps (n : Nat) (m : Mach) : Int × Int :=
  let isc := m.get (R.STP_CFG_ISC n)
  (shuntMa (shuntOf m (29 + 2 * n)).1 isc, shuntMa (shuntOf m (30 + 2 * n)).1 isc)

/-- Strong mode chops both phases (R294), the sign of a reference being the direction of its drive. -/
def stpStrong (n : Nat) (m : Mach) : Mach :=
  let (ra, rb, m) := stpRefs n m
  let (ia, ib) := stpAmps n m
  let p := m.stpOf n
  m.setStp n { p with outA := ra, outB := rb, integA := 0, integB := 0,
                      chopA := stpChop n ra ia p.chopA m, chopB := stpChop n rb ib p.chopB m }

/-- STEPPER_PWM_PERIOD (R294, R295). -/
def opStepperPwmPeriod (n : Nat) (m : Mach) : Mach :=
  if !stpActive n m then m
  else
    let (ia, ib) := stpAmps n m
    let m := (m.setI (R.STP_MEAS_IA n) (clampI (-32768) 32767 ia)).setI (R.STP_MEAS_IB n) (clampI (-32768) 32767 ib)
    let p := m.stpOf n
    let pk := guard16 m (0x182 + 4 * n)
    let peak := if pk < ia.natAbs || pk < ib.natAbs then p.peak + 1 else 0
    let m := m.setStp n { p with peak := peak, at_ := m.now * 8 }
    if 2 ≤ peak then
      let m := (holdDrive (stpSrc n) 0x01 (64 + n) m).set (R.STP_STAT_OC n) 1
      raise (stpSrc n) 0x01 3 (assertEvent 0x1C0 (m.setStp n { clampAt := p.clampAt, holdAt := p.holdAt }))
    else if m.on (R.STP_STAT_STRONG n) then stpStrong n m
    else
      let (ra, rb, m) := stpRefs n m
      let p := m.stpOf n
      let kp := m.get (R.STP_GAIN_KP n)
      let ki := m.get (R.STP_GAIN_KI n)
      let (oa, ga, m) := stpQuiet kp ki ra ia p.integA m
      let (ob, gb, m) := stpQuiet kp ki rb ib p.integB m
      m.setStp n { p with outA := oa, integA := ga, outB := ob, integB := gb, chopA := {}, chopB := {} }

/-- STEPPER_HOLD_TIMEOUT (R295). -/
def opStepperHoldTimeout (n : Nat) (m : Mach) : Mach :=
  if m.on (R.STP_CFG_EN n) && m.get (R.MOT_STAT_PHASE (8 + n)) == 0 && !m.on (R.STP_STAT_HOLDING n)
      && (m.axis (8 + n)).restAt.toNat + msTicks (m.get (R.STP_HOLD_HOLDT n)) ≤ m.now then
    (m.set (R.STP_STAT_HOLDING n) 1).setStp n { m.stpOf n with holdAt := m.clk.tick }
  else m

/-! ## The brake chopper (R297, R298) -/

/-- The turn-on threshold in 10 mV: an ON above the over-voltage acts as the over-voltage less 0.50 V (R297). -/
def brakeOn (m : Mach) : Nat :=
  let on := 5 * m.get R.SRV_BRKCFG_ON
  let ov := guard16 m 0x1B0
  if ov < on then ov - 50 else on

/-- BRK_G follows the bus voltage after a conversion (R297). -/
def brakeFollow (m : Mach) : Mach :=
  let v := m.get R.SRV_BRKSTAT_VBUS
  let m := when (m.on R.SRV_BRKCFG_BEN && guard16 m 0x1B0 < 5 * m.get R.SRV_BRKCFG_ON) (guardClamp R.ENV_CLAMP_BRKON [R.SRV_BRKCFG_ON.key]) m
  if !m.on R.SRV_BRKCFG_BEN then m.set R.SRV_BRKSTAT_ON 0
  else if m.on R.SRV_BRKSTAT_ON then
    if v < 5 * m.get R.SRV_BRKCFG_OFF then
      { m.set R.SRV_BRKSTAT_ON 0 with drv := { m.drv with brkCur := false, brkRise := false } }
    else m
  else if brakeOn m < v then
    { m.set R.SRV_BRKSTAT_ON 1 with drv := { m.drv with brkAt := m.clk.tick, brkV := v, brkCur := true, brkRise := true } }
  else m

/-- A write of BRKCFG: FAIL clears once its record has been cleared and BEN written 0 and then 1 (R298). -/
def brkCfgWrite (w : Word) (m : Mach) : Mach :=
  let was := m.on R.SRV_BRKCFG_BEN
  let m := storeFields R.SRV_BRKCFG_BEN.key w m
  let now := m.on R.SRV_BRKCFG_BEN
  let m := if !now then disarmDrive 96 m
    else if !was && now && !driveHeld 96 m then (rearmDrive 96 m).set R.SRV_BRKSTAT_FAIL 0
    else m
  brakeFollow m

/-- The servo axis is decelerating (R298). -/
def srvDecelerating (m : Mach) (n : Nat) : Bool :=
  m.on (R.SRV_CFG_EN n) && m.getI (R.SRV_VOLT_VQ n) * m.getI (R.SRV_MEAS_IQ n)
    + m.getI (R.SRV_VOLT_VD n) * m.getI (R.SRV_MEAS_ID n) < 0

/-- The stepper axis is decelerating (R298): PHASE is DECEL or QSTOP. -/
def stpDecelerating (m : Mach) (n : Nat) : Bool :=
  m.on (R.STP_CFG_EN n) && (m.get (R.MOT_STAT_PHASE (8 + n)) == 3 || m.get (R.MOT_STAT_PHASE (8 + n)) == 4)

/-- CHOPPER_FAIL (R298). -/
def chopperFail (m : Mach) : Mach :=
  let sv := (List.range 8).filter fun n => srvDecelerating m n && !driveOff m (32 + n)
  let st := (List.range 12).filter fun n => stpDecelerating m n && !driveOff m (64 + n)
  let m := holdDrive 0x1B8 0x03 96 (m.set R.SRV_BRKSTAT_FAIL 1)
  let m := { m with drv := { m.drv with brkCur := false, brkRise := false } }
  let m := each sv (fun n m => quickStop n (brakeDrive 0x1B8 0x03 (32 + n) m)) m
  let m := each st (fun n m => quickStop (8 + n) (brakeDrive 0x1B8 0x03 (64 + n) m)) m
  raise 0x1B8 0x03 3 (assertEvent 0x1B0 m)

/-- BRK_I reads above IMIN x 50 mA. -/
def brakeCurrent (m : Mach) : Bool :=
  decide ((m.get R.SRV_BRKCHK_IMIN * 50 : Int) < shuntMa (shuntOf m 53).1 (m.get R.SRV_BRKCHK_BISC))

/-- A reading of BRK_I above the minimum while BRK_G is high meets the check of this rise. -/
def brakeSensed (m : Mach) : Mach :=
  if m.on R.SRV_BRKSTAT_ON && m.drv.brkCur && brakeCurrent m then { m with drv := { m.drv with brkCur := false } } else m

/-- CHOPPER_CURRENT_CHECK (R297): 20 us after BRK_G rose, no current has been read. -/
def opChopperCurrentCheck (m : Mach) : Mach :=
  let m := brakeSensed m
  if m.on R.SRV_BRKSTAT_ON && m.drv.brkCur && m.drv.brkAt.toNat + usTicks 20 ≤ m.now then chopperFail m else m

/-- CHOPPER_RISE_CHECK (R297): from TRISE x 10 us after BRK_G rose, and as long as it stays high, the bus must not stand more
than 0.50 V above its value then. -/
def opChopperRiseCheck (m : Mach) : Mach :=
  if m.on R.SRV_BRKSTAT_ON && m.drv.brkRise && m.drv.brkAt.toNat + usTicks (10 * max 1 (m.get R.SRV_BRKCHK_TRISE)) ≤ m.now
      && m.drv.brkV + 50 < m.get R.SRV_BRKSTAT_VBUS then chopperFail m
  else m

/-! ## Commands that reach the drives -/

/-- What a conversion does to the drives: the chopper follows the bus and sees its current, a stepper in strong mode sees its
current. -/
def driveSensed (i : AdcInput) (m : Mach) : Mach :=
  match i with
  | .ain 37 => opChopperRiseCheck (brakeFollow m)
  | .shunt 53 => brakeSensed m
  | .shunt k =>
    let n := (k - 29) / 2
    when (29 ≤ k && k < 53 && stpActive n m && m.on (R.STP_STAT_STRONG n)) (stpStrong n) m
  | _ => m

/-- ADC_CONVERSION (R223). -/
def opConversion (i : AdcInput) (v : Int) (m : Mach) : Mach := driveSensed i (opAdcConversion i v m)

/-- ENC_INDEX (R253, R254): a rising edge of Z that has held its level `held` x 10 ns; filtered as R248 filters, it is an
index, which reaches the axes that home on the channel. Its spacing counts from the previous index (DEDUCED, log entry 45). -/
def opEncIndex (q held : Nat) (m : Mach) : Mach :=
  let me := clampN 1 1000 (m.get (R.FBK_CFG_MINEDGE q))
  let far := match (m.encOf q).lastZ with | some t => decide (t + me * 8 ≤ m.now * 8) | none => true
  if !m.on (R.FBK_CFG_EN q) || !m.on (R.FBK_CFG_ZEN q) then m
  else if held < me || !far then glitch q m
  else axesIndex q (indexEdge q (m.onEnc q fun e => { e with lastZ := some (m.now * 8) }))

end Sys2Proof.Machine
end

