-- ==== Sys2Proof/Machine/Requests.lean ====
section
/-! DEFINITION. The requests of the DRAM controller: a queue per channel, the choice of the next request, page hints and
refresh (R310-R312). The address bits of rows and banks and the controller's cycle are `Config`'s (log entry 46). -/

namespace Sys2Proof.Machine

/-- First address of DRAM (R307). -/
def dramBase : Nat := 0x0400000000

/-- DRAM requests are held: self-refresh, training or a retrain (R60, R313, R314). -/
def dramHeld (m : Mach) : Bool :=
  m.on R.DRC_STAT_SELFREF || (m.on R.DRC_CFG_EN && !m.on R.DRC_STAT_TRAINED) || m.dram.retrain

/-! ## Arrival -/

/-- The accesses that n bytes at an address make, one for each 256 bytes: channel and in-channel offset (R307). -/
def dramParts (a n : Nat) : List (Nat × Nat) :=
  let o := a - dramBase
  (List.range ((o + n + 255) / 256 - o / 256)).map fun i =>
    let x := if i = 0 then o else (o / 256 + i) * 256
    (x / 256 % 2, x / 512 * 256 + x % 256)

/-- The requests of one channel among them, of a class and with a page hint. -/
def dramNew (m : Mach) (video opn : Bool) (a n ch : Nat) : List DramReq :=
  ((dramParts a n).filter (·.1 == ch)).map fun p =>
    { video := video, opn := opn, bank := Config.dramBank p.2, row := Config.dramRow p.2, at_ := m.clk.tick }

/-- A requester of a class asks for n bytes at a DRAM address, with its page hint (R310, R311). -/
def dramAsk (video opn : Bool) (a n : Nat) (m : Mach) : Mach :=
  let add (ch : Nat) (x : DramChan) : DramChan := { x with queue := x.queue ++ dramNew m video opn a n ch }
  { m with dram := { m.dram with ch0 := add 0 m.dram.ch0, ch1 := add 1 m.dram.ch1 } }

/-- A video-class request is queued. -/
def videoQueued (m : Mach) : Bool := (m.dram.ch0.queue ++ m.dram.ch1.queue).any (·.video)

/-! ## The choice of the next request (R310) -/

/-- The request is to a row that is open. -/
def DramChan.hit (x : DramChan) (r : DramReq) : Bool := tfind r.bank x.rows == some r.row

/-- The place in the queue, oldest first, of the request that goes next: a video-class one that has waited VCAP cycles, a row
hit unless RHMAX have gone ahead of an older request, the oldest. -/
def nextRequest (m : Mach) (x : DramChan) : Nat :=
  let waited (r : DramReq) : Nat := Config.dramCycles (m.get R.DRC_CFG_RATE) (m.now - r.at_.toNat)
  match x.queue.findIdx? fun r => r.video && m.get R.DRC_SCHED_VCAP ≤ waited r with
  | some i => i
  | none =>
    match (if x.hits < m.get R.DRC_SCHED_RHMAX then x.queue.findIdx? x.hit else none) with
    | some i => i
    | none => 0

/-- A request is served: its row stays open or its bank is precharged (R311), and a row hit ahead of an older request
counts. -/
def DramChan.serve (x : DramChan) (i : Nat) : DramChan :=
  match x.queue[i]? with
  | none => x
  | some r =>
    { queue := x.queue.eraseIdx i, rows := if r.opn then tput r.bank r.row x.rows else tdel r.bank x.rows,
      hits := if x.hit r && i != 0 then x.hits + 1 else 0 }

/-! ## Refresh (R312) -/

/-- An all-bank refresh is issued: every row is closed (PRESUMED from JESD209-4, log entry 46). -/
def refreshed (m : Mach) : Mach :=
  { m with dram := { m.dram with ch0 := { m.dram.ch0 with rows := [] }, ch1 := { m.dram.ch1 with rows := [] } } }

/-- Owed refreshes are issued back to back as soon as no video-class request is queued. -/
def owedRefreshes (m : Mach) : Mach :=
  if 0 < m.get R.DRC_REFSTAT_OWED && !videoQueued m then refreshed (m.set R.DRC_REFSTAT_OWED 0) else m

/-- One cycle of the controller's service: a request of each channel, unless requests are held (log entry 46). -/
def dramCycle (m : Mach) : Mach :=
  if dramHeld m then m
  else if m.dram.ch0.queue.isEmpty && m.dram.ch1.queue.isEmpty then owedRefreshes m
  else
    let go (x : DramChan) : DramChan := x.serve (nextRequest m x)
    owedRefreshes { m with dram := { m.dram with ch0 := go m.dram.ch0, ch1 := go m.dram.ch1 } }

/-- The refresh interval, REF.INT divided by the derating factor, in 1/4 ns. -/
def refreshEvery (m : Mach) : Nat := m.get R.DRC_REF_INT * 4 / 2 ^ min 2 (m.get R.DRC_REF_DERATE)

/-- REFRESH_DUE (R312): the interval has passed. In the imaging class a queued video-class request postpones the refresh, up
to eight of them; `video` tells of one that no command of this model has made. -/
def opRefreshDue (video : Bool) (m : Mach) : Mach :=
  if !m.on R.DRC_CFG_EN || m.on R.DRC_STAT_SELFREF || m.now * 40 < m.dram.refAt + refreshEvery m then m
  else
    let m := { m with dram := { m.dram with refAt := m.dram.refAt + refreshEvery m } }
    if !imagingClass m || !(video || videoQueued m) then refreshed (m.set R.DRC_REFSTAT_OWED 0)
    else if m.get R.DRC_REFSTAT_OWED < 8 then m.incSat R.DRC_REFSTAT_OWED
    else refreshed (m.incSat R.DRC_REFSTAT_FORCED)

end Sys2Proof.Machine
end

