-- ==== Sys2Proof/Machine/Rings.lean ====
section
/-! DEFINITION. Rings (R315-R318), the DATU (R327-R330), and the parking of DMA channels (R324); the endpoint's resets
(R334). The controller's own accesses to ring slots stand here too. -/

namespace Sys2Proof.Machine

def Mach.onHif (m : Mach) (f : HostIf → HostIf) : Mach := { m with hif := f m.hif }

/-! ## The DATU -/

/-- First address of the host window (Table 3.4). -/
def hostWindow : Nat := 0x8000000000

/-- An address in the host window. -/
def inHost (a : Nat) : Bool := hostWindow ≤ a && a < 0x10000000000

/-- What the DATU makes of an access: a host address, no cached translation, a cached one without the permission, or
an abort. -/
inductive Look where
  | hit (a : Nat)
  | miss
  | perm
  | abort
  deriving DecidableEq, Repr

/-- The window offset lies beyond the level-1 table, or translation is off: a translation abort (R327). -/
def xlatAbort (m : Mach) (w : Nat) : Bool := !m.on R.DATU_CFG_EN || 2 ^ (m.get R.DATU_CFG_L1LOG2 + 21) ≤ w

/-- The IOTLB's translation of a page; set p mod 128 of 128 (log entry 24). -/
def tlbFind (m : Mach) (p : Nat) : Option Xlat := (tget [] (p % 128) m.hif.tlb).find? (·.page == p)

/-- Puts a translation first in its set of four (R328: the least recently used one leaves). -/
def tlbUse (x : Xlat) (m : Mach) : Mach :=
  let st := x :: (tget [] (x.page % 128) m.hif.tlb).filter (·.page != x.page)
  m.onHif fun h => { h with tlb := tput (x.page % 128) (st.take 4) h.tlb }

/-- Removes a page from the IOTLB. -/
def tlbDrop (p : Nat) (m : Mach) : Mach :=
  let st := (tget [] (p % 128) m.hif.tlb).filter (·.page != p)
  m.onHif fun h => { h with tlb := if st.isEmpty then tdel (p % 128) h.tlb else tput (p % 128) st h.tlb }

/-- A cached translation allows the direction. -/
def Xlat.allows (x : Xlat) (wr : Bool) : Bool := if wr then x.w else x.r

/-- Looks an internal address of the host window up in the IOTLB. -/
def datuLook (m : Mach) (a : Nat) (wr : Bool) : Look :=
  let w := a - hostWindow
  if xlatAbort m w then .abort
  else match tlbFind m (w / 4096) with
    | some x => if x.allows wr then .hit (x.frame * 4096 + w % 4096) else .perm
    | none => .miss

/-- A table entry of eight bytes in host memory (R327). -/
def tableEntry (mem : Mem) (a : Nat) : Nat := leNat (mem.hostBytes a 8)

/-- An entry that counts as valid: V = 1 and no reserved bit set. -/
def entryValid (e : Nat) : Bool := e % 2 == 1 && e / 8 % 512 == 0

/-- The walk of the two levels (R327): the translation, or none when an entry is not valid. -/
def tableWalk (m : Mach) (mem : Mem) (w : Nat) : Option Xlat :=
  let base := m.get R.DATU_L1BASE_LO_BASE / 4096 * 4096 + m.get R.DATU_L1BASE_HI_BASE * 2 ^ 32
  let e1 := tableEntry mem (base + w / 2 ^ 21 * 8)
  if !entryValid e1 then none
  else
    let e2 := tableEntry mem (e1 / 4096 * 4096 + w / 4096 % 512 * 8)
    if !entryValid e2 then none
    else some { page := w / 4096, frame := e2 / 4096, r := bitOf e2 1, w := bitOf e2 2 }

/-- A translation for a requester that never posts a page request (R317, R328): the IOTLB, then a walk made at once;
none on an abort, an invalid entry or a missing permission. -/
def datuDirect (mem : Mem) (a : Nat) (wr : Bool) (m : Mach) : Option Nat × Mach :=
  let w := a - hostWindow
  match datuLook m a wr with
  | .hit h => (some h, match tlbFind m (w / 4096) with | some x => tlbUse x m | none => m)
  | .miss =>
    let m := m.incSat R.DATU_STAT_WALKS
    match tableWalk m mem w with
    | some x => if x.allows wr then (some (x.frame * 4096 + w % 4096), tlbUse x m) else (none, m)
    | none => (none, m)
  | _ => (none, m)

/-- Host-window accesses are held: the function is in D3hot (Table 11.8). -/
def hostHeld (m : Mach) : Bool := m.on R.PCIE_LINK_D3

/-- The host reaches the BARs: the endpoint is powered, out of reset and in D0 (Table 11.8, R412). -/
def hostReach (m : Mach) : Bool := domUp 10 m && !m.on R.PCIE_LINK_D3 && !m.hif.perst

/-! ## Ring slots -/

/-- Slots of a ring. -/
def ringSize (m : Mach) (r : Nat) : Nat := 2 ^ m.get (R.RING_CFG_LOG2N r)

/-- Address of the slot for an index. -/
def ringSlot (m : Mach) (r idx : Nat) : Nat :=
  m.get (R.RING_BASE_LO_BASE r) + m.get (R.RING_BASE_HI_BASE r) * 2 ^ 32 + 32 * (idx % ringSize m r)

/-- A translation miss disables the ring (R317). -/
def ringXlate (r : Nat) (m : Mach) : Mach :=
  note 0x080 0x02 r ((m.set (R.RING_CFG_EN r) 0).set (R.RING_STAT_XLATE r) 1)

/-- A ring slot in DRAM is a request of the controller's own. -/
def slotAsk (a : Nat) (m : Mach) : Mach := when (dramBase ≤ a && a < dramBase + dramMib m * 2 ^ 20) (dramAsk false false a 32) m

/-- Reads the 32 bytes of a slot; none when the ring was disabled by a miss. -/
def slotRead (r idx : Nat) (mem : Mem) (m : Mach) : Option (List Byte) × Mach :=
  let a := ringSlot m r idx
  if inHost a then
    match datuDirect mem a false m with
    | (some h, m) => (some (mem.hostBytes h 32), m)
    | (none, m) => (none, ringXlate r m)
  else (some (mem.rdBytes a 32), slotAsk a m)

/-- Writes the 32 bytes of a slot; false when the ring was disabled by a miss. -/
def slotWrite (r idx : Nat) (bs : List Byte) (m : Mach) (mem : Mem) : Bool × Mach × Mem :=
  let a := ringSlot m r idx
  if inHost a then
    match datuDirect mem a true m with
    | (some h, m) => (true, m, mem.hostWrBytes h bs)
    | (none, m) => (false, ringXlate r m, mem)
  else (true, slotAsk a m, mem.wrBytes a bs)

/-! ## Notification (R318) -/

/-- Raises a ring's vector and takes its entries as signalled. -/
def ringSignal (r : Nat) (m : Mach) : Mach :=
  (m.onHif fun h => { h with rings := tdel r h.rings }).msix (m.get (R.RING_CFG_VEC r))

/-- The producer has advanced by n: the consumer's side is told. -/
def tellConsumer (r n : Nat) (m : Mach) : Mach :=
  match m.get (R.RING_CFG_CSIDE r) with
  | 0 => when (m.on (R.RING_CFG_EVEN r)) (assertEvent (0x080 + m.get (R.RING_CFG_EVL r))) m
  | 1 =>
    if m.on (R.RING_CFG_IRQEN r) then
      let q := tget {} r m.hif.rings
      let q : RingIrq := { count := q.count + n, since := if q.count = 0 then m.clk.tick else q.since }
      if max 1 (m.get (R.RING_MOD_ITHR r)) ≤ q.count then ringSignal r m
      else m.onHif fun h => { h with rings := tput r q h.rings }
    else m
  | _ => m

/-- The consumer has advanced: the producer's side is told. -/
def tellProducer (r : Nat) (m : Mach) : Mach :=
  match m.get (R.RING_CFG_PSIDE r) with
  | 0 => when (m.on (R.RING_CFG_EVEN r)) (assertEvent (0x080 + m.get (R.RING_CFG_EVL r))) m
  | 1 => when (m.on (R.RING_CFG_SPACEIRQ r)) (fun m => m.msix (m.get (R.RING_CFG_VEC r))) m
  | _ => m

/-- A side of the block puts an entry into a ring that is enabled, whose producer side is `side` and which has room. -/
def ringPut (r side : Nat) (bs : List Byte) (m : Mach) (mem : Mem) : Bool × Mach × Mem :=
  if m.on (R.RING_CFG_EN r) && m.get (R.RING_CFG_PSIDE r) == side && ringCount m r < ringSize m r then
    match slotWrite r (m.get (R.RING_PIDX r)) bs m mem with
    | (true, m, mem) => (true, tellConsumer r 1 (m.incWrap (R.RING_PIDX r)), mem)
    | (false, m, mem) => (false, m, mem)
  else (false, m, mem)

/-- A side of the block takes an entry from a ring that is enabled, whose consumer side is `side` and which holds one. -/
def ringTake (r side : Nat) (mem : Mem) (m : Mach) : Option (List Byte) × Mach :=
  if m.on (R.RING_CFG_EN r) && m.get (R.RING_CFG_CSIDE r) == side && 0 < ringCount m r then
    match slotRead r (m.get (R.RING_CIDX r)) mem m with
    | (some bs, m) => (some bs, tellProducer r (m.incWrap (R.RING_CIDX r)))
    | (none, m) => (none, m)
  else (none, m)

/-! ## Ring registers -/

/-- EN = 1 may be written with this CFG word (R315). -/
def ringOk (m : Mach) (r : Nat) (v : Word) : Bool :=
  let l := (R.RING_CFG_LOG2N r).of v
  let base := m.get (R.RING_BASE_LO_BASE r) + m.get (R.RING_BASE_HI_BASE r) * 2 ^ 32
  (R.RING_CFG_PSIDE r).of v != 3 && (R.RING_CFG_CSIDE r).of v != 3 && 4 ≤ l && l ≤ 16
    && base % min (32 * 2 ^ l) 4096 == 0

/-- A write of RINGr_CFG (R315, R316). -/
def ringCfgWrite (r : Nat) (v : Word) (m : Mach) : Mach :=
  let key := (R.RING_CFG_EN r).key
  if !m.on (R.RING_CFG_EN r) && (R.RING_CFG_EN r).of v == 1 then
    if ringOk m r v then
      let m := storeFields key v m
      let m := ((m.set (R.RING_PIDX r) 0).set (R.RING_CIDX r) 0).set (R.RING_STAT_XLATE r) 0
      m.onHif fun h => { h with rings := tdel r h.rings }
    else ignored key m
  else storeFields key v m

/-- An index write that is refused (R316). -/
def badIndex (r key : Nat) (m : Mach) : Mach :=
  note 0x080 0x01 (0x40000000 + key) (m.set (R.RING_STAT_BADIDX r) 1)

/-- A write of RINGr_PIDX or RINGr_CIDX (R316). -/
def ringIndexWrite (q : Requester) (r : Nat) (prod : Bool) (v : Word) (m : Mach) : Mach :=
  let f := if prod then R.RING_PIDX r else R.RING_CIDX r
  let side := m.get (if prod then R.RING_CFG_PSIDE r else R.RING_CFG_CSIDE r)
  let old := m.get f
  let n := (v.toNat + 2 ^ 32 - old) % 2 ^ 32
  let m' := m.set f v.toNat
  if q == .host && side == 1 && n < 2 ^ 31 && ringCount m' r ≤ ringSize m' r then
    if n = 0 then m' else if prod then tellConsumer r n m' else tellProducer r m'
  else badIndex r f.key m

/-- RING_ENABLE (R315): a write of CFG that carries EN = 1. -/
def opRingEnable (q : Requester) (r : Nat) (v : Word) (m : Mach) : Mach :=
  if q == .host && !hostReach m then m
  else guarded q false (R.RING_CFG_EN r).key (ringCfgWrite r (withBits v 0 0 1)) m
/-- RING_PRODUCER_DOORBELL (R316). -/
def opRingProducerDoorbell (r : Nat) (v : Word) (m : Mach) : Mach :=
  if hostReach m then guarded .host false (R.RING_PIDX r).key (ringIndexWrite .host r true v) m else m
/-- RING_CONSUMER_INDEX (R316). -/
def opRingConsumerIndex (r : Nat) (v : Word) (m : Mach) : Mach :=
  if hostReach m then guarded .host false (R.RING_CIDX r).key (ringIndexWrite .host r false v) m else m
/-- RING_IRQ_TIMER (R318). -/
def opRingIrqTimer (r : Nat) (m : Mach) : Mach :=
  match tfind r m.hif.rings with
  | some q =>
    let t := m.get (R.RING_MOD_ITIME r)
    if t != 0 && m.on (R.RING_CFG_IRQEN r) && q.since.toNat + usTicks t ≤ m.now then ringSignal r m else m
  | none => m

/-! ## DMA channels: sources, TDs, parking -/

def Mach.chan (m : Mach) (c : Nat) : Chan := tget {} c m.hif.chans
def Mach.onChan (m : Mach) (c : Nat) (f : Chan → Chan) : Mach :=
  m.onHif fun h => { h with chans := tput c (f (tget {} c h.chans)) h.chans }

/-- Channel states (Table 11.5). -/
def dIdle : Nat := 0
def dRun : Nat := 1
def dReady : Nat := 2
def dWait : Nat := 3
def dParked : Nat := 4

/-- The source of a channel's messages (Table 13.2). -/
def chanSrc (c : Nat) : Nat := if c < 16 then 0x090 + c else 0x0F0 + (c - 16)

/-- Sets CUR. -/
def setCur (c a : Nat) (m : Mach) : Mach :=
  (m.set (R.DMA_CUR_LO_CUR c) (a % 2 ^ 32)).set (R.DMA_CUR_HI_CUR c) (a / 2 ^ 32)

/-- CUR. -/
def curOf (m : Mach) (c : Nat) : Nat := m.get (R.DMA_CUR_LO_CUR c) + m.get (R.DMA_CUR_HI_CUR c) * 2 ^ 32

/-- Forgets what the DATU does for a requester: an answer to its request is ignored (Table 11.11). -/
def datuForget (q : Nat) (m : Mach) : Mach :=
  m.onHif fun h => { h with walks := h.walks.filter (·.req != q), reqs := h.reqs.filter (·.req != q) }

/-- A descriptor's bands and units are given up with a completion code. -/
def Ingest.fail (i : Ingest) (code : Nat) : Ingest := { i with stage := .post, code := code, units := 0, band := none }

/-- The SID, station and band number of a descriptor (Table 5.2). -/
def Ingest.sid (i : Ingest) : Sid := BitVec.ofNat 24 (bitsOf (i.desc.getD 3 0) 23 0)
def Ingest.stn (i : Ingest) : Nat := bitsOf (i.desc.getD 3 0) 26 24
def Ingest.bandNo (i : Ingest) : Nat := bitsOf (i.desc.getD 4 0) 9 0

/-- The counter and the note of a completion code (Table 5.4, R143). -/
def codeNote (i : Ingest) (code : Nat) (m : Mach) : Mach :=
  let m := match code with
    | 0x00 => m
    | 0x01 | 0x02 => m.incSat R.PEAT_STAT_CRCERR
    | 0x05 => m.incSat R.PEAT_STAT_STALE
    | 0x06 => m.incSat R.PEAT_STAT_DUP
    | _ => m.incSat R.PEAT_STAT_REJECT
  if code == 0x00 || code == 0x05 || code == 0x06 then m
  else raise 0x0B0 0x01 0 m i.sid (code + i.stn * 2 ^ 8 + i.bandNo * 2 ^ 11)

/-- Ends descriptor number n with a code. -/
def ingestFail (n code : Nat) (m : Mach) : Mach :=
  match m.peat.ingest[n]? with
  | none => m
  | some i => jsCount (codeNote i code { m with peat := { m.peat with ingest := m.peat.ingest.set n (i.fail code) } })

/-- The descriptor in transfer. -/
def inTransfer (m : Mach) : Option Nat :=
  m.peat.ingest.findIdx? fun i => match i.stage with | .transfer _ => true | _ => false

/-- The ingest unit's transfer has ended in a fault: the band completes with XFER, and the unit ends its TD (log entry
25). -/
def ingestXfer (c : Nat) (m : Mach) : Mach :=
  if chanOwned m c then
    match inTransfer m with
    | some n => ingestFail n 0x09 ((m.set (R.DMA_STAT_STATE c) dIdle).set (R.DMA_STAT_RESULT c) 3)
    | none => m
  else m

/-- Fault types (R324). -/
def fHop : Nat := 1
def fTimeout : Nat := 2
def fBus : Nat := 3
def fXlate : Nat := 4
def fDomain : Nat := 5
def fDesc : Nat := 6

/-- Parks a channel (R324); a power-down held for it is released by `holdRelease`, at the latest as the cycle ends. -/
def parkChan (c ty a : Nat) (m : Mach) : Mach :=
  let m := ((m.set (R.DMA_STAT_STATE c) dParked).set (R.DMA_STAT_TYPE c) ty)
  let m := datuForget c ((setCur c a m).onChan c fun h => { h with fetch := none, waitAt := none })
  let m := raise (chanSrc c) (ty * 32 + c) (min 3 (m.get (R.DMA_CFG_FCLS c))) m 0 a
  ingestXfer c m

/-! ## The DATU's walks and page requests -/

/-- A requester's access misses: a walk starts (R328). -/
def startWalk (q a : Nat) (wr : Bool) (m : Mach) : Mach :=
  if m.hif.walks.any (·.req == q) then m
  else m.onHif fun h => { h with walks := h.walks ++ [{ req := q, addr := a, wr := wr }] }

/-- A requester needs the host: it waits for a page request to be posted and answered (R325, R328). -/
def needPage (q a : Nat) (wr perm : Bool) (m : Mach) : Mach :=
  let m := m.onHif fun h => { h with reqs := h.reqs ++ [{ req := q, addr := a, wr := wr, perm := perm }] }
  if q < 24 then
    let m := (setCur q a m).set (R.DMA_STAT_STATE q) dWait
    m.onChan q fun h => { h with waitAt := match h.waitAt with | some t => some t | none => some m.clk.tick }
  else m

/-- Drops the status frame that waits longest (R48, Table 11.11). -/
def dropFrame (m : Mach) : Mach :=
  match m.snap.frames with
  | _ :: fs => { m with snap := { m.snap with frames := fs } }.incSat R.SNAP_STAT_HSFDROP
  | [] => m

/-- A requester's access ends in a translation abort. -/
def xlatFail (q a : Nat) (m : Mach) : Mach :=
  if q < 24 then parkChan q fXlate a m else dropFrame (datuForget q m)

/-- The requester goes on: a channel leaves WAIT. -/
def xlatResume (q : Nat) (m : Mach) : Mach :=
  if q < 24 && m.get (R.DMA_STAT_STATE q) = dWait then
    (m.set (R.DMA_STAT_STATE q) dRun).onChan q fun h => { h with waitAt := none }
  else m

/-- DATU_WALK_DONE (R327, R328): a requester's walk ends; `failed` says that one of its reads failed. -/
def opDatuWalkDone (q : Nat) (failed : Bool) (mem : Mem) (m : Mach) : Mach :=
  match m.hif.walks.find? (·.req == q) with
  | none => m
  | some k =>
    let w := k.addr - hostWindow
    let m := (m.onHif fun h => { h with walks := h.walks.filter (·.req != q) }).incSat R.DATU_STAT_WALKS
    if failed || xlatAbort m w then xlatFail q k.addr m
    else if k.inval then startWalk q k.addr k.wr m
    else match tableWalk m mem w with
      | some x => if x.allows k.wr then xlatResume q (tlbUse x m) else needPage q k.addr k.wr true m
      | none => needPage q k.addr k.wr false m

/-- The page request record (Table 11.6). -/
def pageRecord (m : Mach) (p : PageReq) (tag : Nat) : List Byte :=
  leBytes 8 p.addr ++ leBytes 4 (tag + p.req * 2 ^ 16 + b2n p.wr * 2 ^ 21 + b2n p.perm * 2 ^ 22) ++ leBytes 4 0
    ++ leBytes 8 m.now ++ leBytes 8 0

/-- PAGE_REQUEST_POST (R328, R329): the oldest unposted request goes to the page request ring once that has room. -/
def opPageRequestPost (m : Mach) (mem : Mem) : Mach × Mem :=
  match m.hif.reqs.findIdx? (·.tag.isNone) with
  | none => (m, mem)
  | some n =>
    match m.hif.reqs[n]? with
    | none => (m, mem)
    | some p =>
      let tag := m.hif.tag
      match ringPut (m.get R.DATU_CFG_PRRING) 2 (pageRecord m p tag) m mem with
      | (true, m, mem) =>
        (m.onHif fun h => { h with reqs := h.reqs.set n { p with tag := some tag }, tag := (tag + 1) % 65536 }, mem)
      | (false, m, mem) => (m, mem)

/-- The wait of a channel for a translation has reached its limit (R325). -/
def waitOver (c : Nat) (m : Mach) : Bool :=
  match (m.chan c).waitAt with
  | some t => m.get (R.DMA_STAT_STATE c) == dWait && m.get (R.DMA_WTO c) != 0 && t.toNat + msTicks (m.get (R.DMA_WTO c)) ≤ m.now
  | none => false

/-- A write of DATU_PRACK (R329); a wait that expires in the same cycle expires first (Table 11.11). -/
def prackWrite (v : Word) (m : Mach) : Mach :=
  match m.hif.reqs.find? (·.tag == some (R.DATU_PRACK_TAG.of v)) with
  | none => m
  | some p =>
    let m := m.onHif fun h => { h with reqs := h.reqs.filter (·.tag != some (R.DATU_PRACK_TAG.of v)) }
    if R.DATU_PRACK_FAIL.of v = 1 || (p.req < 24 && waitOver p.req m) then xlatFail p.req p.addr m else startWalk p.req p.addr p.wr m

/-- A write of INVPAGE (R330, Table 11.11). -/
def invPage (p : Nat) (m : Mach) : Mach :=
  let m := (tlbDrop p m).set R.DATU_INVSTAT_BUSY 1
  m.onHif fun h => { h with
    walks := h.walks.map fun k => if (k.addr - hostWindow) / 4096 == p then { k with inval := true } else k }

/-- A write of INVALL with bit 0 set (R330). -/
def invAll (m : Mach) : Mach :=
  (m.onHif fun h => { h with tlb := [], walks := h.walks.map fun k => { k with inval := true } }).set
    R.DATU_INVSTAT_BUSY 1

/-- A register write by the host reaches the block only through a live endpoint. -/
def hostGuard (q : Requester) (f : Mach → Mach) (m : Mach) : Mach := if q == .host && !hostReach m then m else f m

/-- PRACK (R329). -/
def opPrack (q : Requester) (v : Word) (m : Mach) : Mach :=
  hostGuard q (guarded q false R.DATU_PRACK_TAG.key (prackWrite v)) m
/-- INVPAGE (R330). -/
def opInvpage (q : Requester) (v : Word) (m : Mach) : Mach :=
  hostGuard q (guarded q false R.DATU_INVPAGE_PAGE.key (invPage (R.DATU_INVPAGE_PAGE.of v))) m
/-- INVALL (R330). -/
def opInvall (q : Requester) (v : Word) (m : Mach) : Mach :=
  hostGuard q (guarded q false R.DATU_INVALL_ALL.key (when (R.DATU_INVALL_ALL.of v == 1) invAll)) m
/-- INVALIDATION_DONE (R330): the bursts that used removed translations have completed. -/
def opInvalidationDone (m : Mach) : Mach := m.set R.DATU_INVSTAT_BUSY 0

/-! ## Status frames (R48) -/

/-- Internal address of a host address: its place in the window (log entry 26). -/
def hostToWindow (a : Nat) : Nat := hostWindow + a % 2 ^ 39

/-- Where the frame with a sequence number goes. -/
def hsfAddr (m : Mach) (seq : Nat) : Nat :=
  let base := m.get R.SNAP_HSFBASE_LO / 256 * 256 + m.get R.SNAP_HSFBASE_HI * 2 ^ 32
  hostToWindow (base + seq % 2 ^ clampN 4 12 (m.get R.SNAP_CTL_HSFLOG2) * 256)

/-- HSF_WRITE (R48): the oldest waiting frame is written through the DATU and its vector raised; on a miss it waits. -/
def opHsfWrite (m : Mach) (mem : Mem) : Mach × Mem :=
  match m.snap.frames with
  | [] => (m, mem)
  | (seq, body) :: fs =>
    if hostHeld m || m.hif.walks.any (·.req == 24) || m.hif.reqs.any (·.req == 24) then (m, mem)
    else
      let a := hsfAddr m seq.toNat
      match datuLook m a true with
      | .hit h =>
        let m := match tlbFind m ((a - hostWindow) / 4096) with | some x => tlbUse x m | none => m
        (({ m with snap := { m.snap with frames := fs } }).msix (m.get R.SNAP_CTL_HSFVEC),
         mem.hostWrBytes h (wordBytes (frameSealed seq body)))
      | .miss => (startWalk 24 a true m, mem)
      | .perm => (needPage 24 a true true m, mem)
      | .abort => (xlatFail 24 a m, mem)

/-! ## The endpoint -/

/-- The MSI-X table and pending bits return to their reset state. -/
def msixReset (m : Mach) : Mach := { m with regs := m.regs.filter fun p => !(0x09E000 ≤ p.1 && p.1 < 0x0A0000) }

/-- Host-window accesses that were held resume: channels that wait for nothing else run on (Table 11.8). -/
def hostWake (m : Mach) : Mach :=
  each (List.range 24) (fun c m =>
    if m.hif.walks.any (·.req == c) || m.hif.reqs.any (·.req == c) then m else xlatResume c m) m

/-- A function-level reset (R334); in D3hot it brings the function back to D0. -/
def flrAct (m : Mach) : Mach :=
  let m := (msixReset ((m.incSat R.PCIE_LINK_FLR).set R.PCIE_LINK_D3 0)).onHif fun h => { h with tlb := [] }
  let reqs := m.hif.reqs
  let m := hostWake (each reqs (fun p m => xlatFail p.req p.addr m) m)
  each ((List.range 32).filter fun r =>
      m.on (R.RING_CFG_EN r) && (m.get (R.RING_CFG_PSIDE r) == 1 || m.get (R.RING_CFG_CSIDE r) == 1))
    (fun r m => m.set (R.RING_CFG_EN r) 0) m

/-- The link goes down. -/
def linkDown (m : Mach) : Mach :=
  if m.on R.PCIE_LINK_UP then
    note 0x220 0x01 0 (assertEvent 0x220
      (((m.set R.PCIE_LINK_UP 0).set R.PCIE_LINK_GEN 0).set R.PCIE_LINK_WIDTH 0))
  else m

/-- MSIX_UNMASK (R333): a vector is unmasked; a pending message is sent. -/
def msixUnmask (v : Nat) (m : Mach) : Mach :=
  let pba := (R.DMA_MSIXP_PBA (v / 32)).key
  let bit : Word := BitVec.ofNat 32 (2 ^ (v % 32))
  let m := m.set (R.DMA_MSIXT_MASK v) 0
  if m.word pba &&& bit = 0 then m else (m.setWord pba (m.word pba &&& ~~~bit)).send (.msix v)

/-- MSIX_UNMASK (R333). -/
def opMsixUnmask (v : Nat) (m : Mach) : Mach := if hostReach m then msixUnmask v m else m

end Sys2Proof.Machine
end

