-- ==== Sys2Proof/Machine/Dram.lean ====
section
/-! DEFINITION. The DRAM controller (R306-R314) and the link state of the endpoint (R331, R412). -/

namespace Sys2Proof.Machine

/-! ## The DRAM controller -/

/-- The data rate a RATE code names, in MT/s (Table 11.2). -/
def rateOf : Nat → Nat
  | 0 => 1600 | 1 => 2133 | 2 => 2667 | 3 => 3200 | 4 => 3733 | 5 => 4266
  | _ => 0

/-- MEMPLL's f_VCO in MHz is within 0.5% of a rate (R309). -/
def rateFits (m : Mach) (rate : Nat) : Bool :=
  let v := synRatio 1 m * 100
  let u := (m.get (R.CLK_SYN_CFG_PDIV 1) + 1) * 2 ^ 26 * rate
  (if v < u then u - v else v - u) * 200 ≤ u

/-- A write of DRC_CFG (R309, R313). -/
def drcCfgWrite (v : Word) (m : Mach) : Mach :=
  let key := R.DRC_CFG_EN.key
  if !m.on R.DRC_CFG_EN && R.DRC_CFG_EN.of v = 1 then
    let rate := rateOf (R.DRC_CFG_RATE.of v)
    if m.on (R.CLK_SYN_STAT_LOCK 1) && rate != 0 && R.DRC_CFG_DENS.of v != 3 && rateFits m rate then
      let m := (storeFields key v m).set R.DRC_STAT_TRAINED 0
      { m with dram := { m.dram with refAt := m.now * 40 } }
    else ignored key m
  else storeFields key v m

/-- DRAM_ENABLE (R309). -/
def opDramEnable (q : Requester) (v : Word) (m : Mach) : Mach :=
  guarded q false R.DRC_CFG_EN.key (drcCfgWrite (withBits v 0 0 1)) m

/-- DRAM_TRAINING_DONE (R313): full training ends, `ok` or failed. -/
def opDramTrainingDone (ok : Bool) (m : Mach) : Mach :=
  if m.on R.DRC_CFG_EN && !m.on R.DRC_STAT_TRAINED && m.on (R.CLK_SYN_STAT_LOCK 1) && domUp 9 m then
    if ok then
      let m := (m.set R.DRC_STAT_TRAINED 1).set R.DRC_STAT_SELFREF 0
      { m with dram := { m.dram with oscAt := m.clk.tick, mr4At := m.clk.tick, retrain := false } }
    else raise 0x0A0 0x03 3 (m.set R.DRC_CFG_EN 0)
  else m

/-- MR4_POLL (R312): every 16 ms mode register 4 gives the derating code. -/
def opMr4Poll (derate : Nat) (m : Mach) : Mach :=
  if m.on R.DRC_CFG_EN && m.dram.mr4At.toNat + msTicks 16 ≤ m.now then
    { m.set R.DRC_REF_DERATE derate with dram := { m.dram with mr4At := m.clk.tick } }
  else m

/-- DQS_OSC_CHECK (R314): the drift, in ps, since the latest training. -/
def opDqsOscCheck (drift : Nat) (m : Mach) : Mach :=
  let per := m.get R.DRC_TRN_RTPER
  if m.on R.DRC_CFG_EN && m.on R.DRC_STAT_TRAINED && per != 0 && m.dram.oscAt.toNat + msTicks per ≤ m.now then
    let m := { m with dram := { m.dram with oscAt := m.clk.tick } }
    if m.get R.DRC_TRN_RTDRIFT < drift && !m.on R.DRC_STAT_RTDUE then
      { m.set R.DRC_STAT_RTDUE 1 with dram := { m.dram with dueAt := m.clk.tick, lateSent := false } }
    else m
  else m

/-- Every feeder that has a sheet holds at least 32 lines ahead of exposure (R314). -/
def feedersAhead (m : Mach) : Bool :=
  (List.range m.nStn).all fun s => (feederSheet m s).isNone || 32 ≤ m.seen (R.PEAT_FEED_AHEADLN s)

/-- RETRAIN_START (R314): at an S:gap boundary of station 0. -/
def opRetrainStart (m : Mach) : Mach :=
  let v := m.vidOf 0
  if m.on R.DRC_STAT_RTDUE && !m.dram.retrain && (v.gap || v.stamps.isEmpty) && feedersAhead m then
    { m with dram := { m.dram with retrain := true } }
  else m

/-- RETRAIN_DONE (R314). -/
def opRetrainDone (m : Mach) : Mach :=
  if m.dram.retrain then
    assertEvent 0x0A1 { m.set R.DRC_STAT_RTDUE 0 with dram := { m.dram with retrain := false } }
  else m

/-- RETRAIN_LATE (R314): a retrain is still due after RTWAIT ms. -/
def opRetrainLate (m : Mach) : Mach :=
  if m.on R.DRC_STAT_RTDUE && !m.dram.retrain && !m.dram.lateSent
      && m.dram.dueAt.toNat + msTicks (m.get R.DRC_TRN_RTWAIT) ≤ m.now then
    note 0x0A0 0x04 0 { m with dram := { m.dram with lateSent := true } }
  else m

/-- An error that ECC found in DRAM data (R308): corrected, or delivered poisoned. Without ECC none is detected. -/
def eccEffect (e : Ecc) (a : Nat) (m : Mach) : Mach :=
  if !m.on R.DRC_CFG_ECC then m
  else match e with
    | .clean => m
    | .corrected =>
      let m := m.incSat R.DRC_STAT_CE
      let due : Bool := match m.dram.ceAt with | some t => decide (t.toNat + msTicks 1000 ≤ m.now) | none => true
      if due then note 0x0A0 0x01 0 { m with dram := { m.dram with ceAt := some m.clk.tick } } else m
    | .poisoned =>
      let m := ((m.incSat R.DRC_STAT_UE).set R.DRC_UEADDR_LO_ADDR (a % 2 ^ 32)).set R.DRC_UEADDR_HI_ADDR (a / 2 ^ 32)
      note 0x0A0 0x02 0 (assertEvent 0x0A0 m)

/-- The data is poisoned. -/
def poisoned (e : Ecc) (m : Mach) : Bool := m.on R.DRC_CFG_ECC && e == .poisoned

/-! ## The endpoint -/

/-- FUNCTION_LEVEL_RESET (R334). -/
def opFunctionLevelReset (m : Mach) : Mach := if hostReach m || m.on R.PCIE_LINK_D3 then flrAct m else m

/-- PCIE_PERST (R412): PCIE_PERST_N at the ball; its fall acts as a function-level reset and drops the link. -/
def opPciePerst (low : Bool) (m : Mach) : Mach :=
  let was := m.hif.perst
  let m := m.onHif fun h => { h with perst := low }
  if low && !was then linkDown (flrAct m) else m

/-- PCIE_LINK_CHANGE (R331, Table 11.9): the link comes up at a generation and width, or goes down. -/
def opPcieLinkChange (up : Bool) (gen width : Nat) (m : Mach) : Mach :=
  if !up then linkDown m
  else if domUp 10 m && m.on R.PCIE_CFG_LINKEN && !m.hif.perst && gen ≤ m.get R.PCIE_CFG_MAXGEN then
    let m := ((m.set R.PCIE_LINK_UP 1).set R.PCIE_LINK_GEN gen).set R.PCIE_LINK_WIDTH width
    m.onHif fun h => { h with bar4 := match h.bar4 with | some b => some b | none => some (m.on R.PCIE_CFG_B4EN) }
  else m

/-- PCIE_POWER_STATE (R331): the host moves the function to D3hot, or back to D0, where held accesses resume. -/
def opPciePowerState (d3 : Bool) (m : Mach) : Mach :=
  if !domUp 10 m || m.hif.perst then m
  else
    let was := m.on R.PCIE_LINK_D3
    let m := m.set R.PCIE_LINK_D3 (b2n d3)
    if was && !d3 then hostWake m else m

/-- BAR4_ACCESS (R307, R332): a host word read, or a write of some bytes of a word, at an offset of BAR4. -/
def opBar4Access (write : Option Word) (lanes off : Nat) (ecc : Ecc) (m : Mach) (mem : Mem) : Mach × Mem :=
  let q := Requester.host
  let a := m.get R.PCIE_B4BASE_BASE * 2 ^ 28 + off / 4 * 4
  if !hostReach m || m.hif.bar4 != some true || dramHeld m then (m, mem)
  else if !domUp 9 m || a < 0x0400000000 || 0x0400000000 + dramMib m * 2 ^ 20 ≤ a then
    let m := note 0x0A0 0x38 a m
    ((match write with | some _ => m | none => m.answer q 0), mem)
  else
    let m := dramAsk false false a 4 m
    match write with
    | some v =>
      (m, (List.range 4).foldl (fun mm i =>
        if bitOf lanes i then mm.wr (a + i) (BitVec.ofNat 8 (v.toNat / 2 ^ (8 * i))) else mm) mem)
    | none => ((eccEffect ecc a m).answer q (mem.rdWord a), mem)

/-- BAR2_WRITE (R332): a host write to the snapshot banks is ignored with a note. -/
def opBar2Write (off : Nat) (m : Mach) : Mach :=
  if hostReach m then note 0x060 0x3C (0x00307F0000 + off) m else m

end Sys2Proof.Machine
end

