-- ==== Sys2Proof/Machine/Power.lean ====
section
/-! DEFINITION. Power domains (R336-R338) and the DMA channels' control, with the holds of a power-down (R319-R326). -/

namespace Sys2Proof.Machine

/-! ## The internal map -/

/-- The power domain of an internal address's memory or register (Table 12.1, Table 3.4). -/
def addrDomain (a : Nat) : Nat :=
  if 0x10000000 ≤ a && a < 0x10040000 then 1
  else if 0x20000000 ≤ a && a < 0x20800000 then 2
  else if 0x40000000 ≤ a && a < 0x41000000 then domainOf (a - 0x40000000)
  else if 0x0400000000 ≤ a && a < 0x0800000000 then 9
  else if inHost a then 10
  else 0

/-! ## Switching a domain off -/

/-- The registers of some keys return to their reset values. -/
def clearRegs (p : Nat → Bool) (m : Mach) : Mach :=
  { m with regs := m.regs.filter fun x => !p x.1, pend := m.pend.filter fun x => !p x.1 }

/-- Everything of a domain that a switch-off does not preserve is lost (Table 12.1). A video island takes its counts with
it, which CLK mirrors, and what its PIXPLL had pending is applied when its enable falls (Table 0.5). -/
def domLose (d : Nat) (m : Mach) : Mach :=
  match d with
  | 1 =>
    { m with cox := { m.cox with ctxs := m.cox.ctxs.filter fun p => p.1 < 32, cmps := m.cox.cmps.filter fun p => p.1 < 256 } }
  | 2 =>
    let m := clearRegs (fun k => k / 65536 == 0x0D && k % 65536 < 0x8000) m
    { m with cox := { m.cox with ctxs := m.cox.ctxs.filter fun p => 32 ≤ p.1, cmps := m.cox.cmps.filter fun p => 256 ≤ p.1 } }
  | 3 => { clearRegs (fun k => k / 65536 == 0x0E) m with scl := {} }
  | 9 =>
    let m := ((m.set R.DRC_STAT_TRAINED 0).set R.DRC_CFG_EN 0).set R.DRC_STAT_SELFREF 1
    { m with dram := { m.dram with retrain := false, ch0 := {}, ch1 := {} } }
  | 10 =>
    let m := clearRegs (fun k => k / 65536 == 0x22) (linkDown (flrAct m))
    m.onHif fun h => { h with bar4 := none }
  | 11 => jsCount { m with peat := { m.peat with ingest := [], feeders := [] } }
  | d =>
    if 4 ≤ d && d < 9 then
      let s := d - 4
      let m := clearRegs (fun k => k / 65536 == 0x10 + s) m
      let m := synTo (2 + s) synOff (settlePend (m.set (R.CLK_SYN_CFG_EN (2 + s)) 0))
      let m := ((m.set (R.CLK_TB_STROKE s) 0).set (R.CLK_TB_LINE s) 0).set (R.CLK_TB_FACET s) 0
      when (m.on R.THM_CTL_EN) throttleUpdate { m with vid := tdel s m.vid }
    else m

/-- A domain goes down. -/
def domDown (d : Nat) (m : Mach) : Mach :=
  let m := domLose d m
  let m := (m.set R.PWR_DOMSTAT_UP (clrBit (m.get R.PWR_DOMSTAT_UP) d)).set R.PWR_DOMSTAT_PEND
    (clrBit (m.get R.PWR_DOMSTAT_PEND) d)
  assertEvent 0x022 { m with pwr := { m.pwr with heldAt := tdel d m.pwr.heldAt, coming := clrBit m.pwr.coming d } }

/-! ## TDs -/

/-- A 40-bit address of a TD at words i and i + 1. -/
def tdAddr (w : Nat → Word) (i : Nat) : Nat := (w i).toNat + (w (i + 1)).toNat % 256 * 2 ^ 32

/-- Word i of the active TD, and of the shadow TD (Table 11.4). -/
def actW (m : Mach) (c i : Nat) : Word := m.word (R.DMA_ACT_TD c i).key
def shdW (m : Mach) (c i : Nat) : Word := m.word (R.DMA_SHD_TD c i).key

/-- A TD is being executed: RUN, READY, WAIT, or the channel is parked with it. -/
def chanBusy (m : Mach) (c : Nat) : Bool :=
  let s := m.get (R.DMA_STAT_STATE c)
  s == dRun || s == dReady || s == dWait

/-- The domains of a TD's source and target. -/
def tdDomains (w : Nat → Word) : List Nat :=
  (if bitsOf (w 8) 1 0 = 1 then [] else [addrDomain (tdAddr w 0)]) ++ [addrDomain (tdAddr w 2)]

/-- Channels whose running TD, or the ingest unit's transfer, uses a domain. -/
def chansOn (m : Mach) (d : Nat) : List Nat :=
  (List.range 24).filter fun c => chanBusy m c &&
    (if chanOwned m c then d == 9 || d == 11 || d == 10 else (m.chan c).act && (tdDomains (actW m c)).contains d)

/-- Some running TD uses a domain. -/
def domUsed (m : Mach) (d : Nat) : Bool := !(chansOn m d).isEmpty

/-- Releases every held power-down whose TD is gone: the domain goes down (R326, Table 11.11). -/
def holdRelease (m : Mach) : Mach :=
  each ([10, 2, 3, 4, 5, 6, 7, 8, 9, 11].filter fun d => bitOf (m.get R.PWR_DOMSTAT_PEND) d)
    (fun d m => if domUsed m d then m else domDown d m) m

/-- Parks a channel and releases what was held for it. -/
def parkFree (c ty a : Nat) (m : Mach) : Mach := holdRelease (parkChan c ty a m)

/-- A TD is valid (R321). -/
def tdValid (m : Mach) (c : Nat) (w : Nat → Word) : Bool :=
  let src := tdAddr w 0
  let dst := tdAddr w 2
  let ss := (w 4).toNat
  let ds := (w 5).toNat
  let len := bitsOf (w 6) 16 0
  let op := bitsOf (w 8) 1 0
  let swap := bitsOf (w 8) 3 2
  let all (n : Nat) (l : List Nat) : Bool := l.all (· % n == 0)
  let reserved := (w 1).toNat / 256 == 0 && (w 3).toNat / 256 == 0 && bitsOf (w 6) 31 17 == 0 && bitsOf (w 7) 31 16 == 0
    && bitsOf (w 8) 31 9 == 0 && (w 11).toNat / 256 == 0 && (w 13).toNat / 256 == 0 && (w 15) == 0
  let align := (swap != 1 || all 2 [src, dst, ss, ds, len]) && (swap < 2 || all 4 [src, dst, ss, ds, len])
    && (op != 1 || all 4 [dst, ds, len])
    && (!(0x40000000 ≤ dst && dst < 0x41000000) || all 4 [dst, ds, len])
    && (!bitOf (w 8).toNat 5 || tdAddr w 12 % 16 == 0)
  reserved && align && op != 3 && !(op == 1 && swap != 0) && len != 0 && len ≤ 65536 && bitsOf (w 7) 15 0 != 0
    && !(m.on (R.DMA_CFG_CLS c) && ([tdAddr w 0, tdAddr w 2, tdAddr w 10, tdAddr w 12].any inHost))

/-- HOPLIM as it acts. -/
def hopLimit (m : Mach) (c : Nat) : Nat := if m.get (R.DMA_LIM_HOPLIM c) = 0 then 65536 else m.get (R.DMA_LIM_HOPLIM c)

/-- First access of the active TD: its source, or the target of a FILL. -/
def firstAccess (m : Mach) (c : Nat) : Nat :=
  if bitsOf (actW m c 8) 1 0 = 1 then tdAddr (actW m c) 2 else tdAddr (actW m c) 0

/-- The shadow TD becomes active (R319), or the channel parks: an invalid TD, the hop limit (`chained` TDs only), or a
domain that is down or going down (R321, R324, R326). -/
def activate (c : Nat) (chained : Bool) (m : Mach) : Mach :=
  let a := (m.chan c).shAddr
  if !tdValid m c (shdW m c) then parkFree c fDesc a m
  else if chained && hopLimit m c ≤ m.get (R.DMA_HOPS c) then parkFree c fHop a m
  else if (tdDomains (shdW m c)).any fun d => d != 0 && (!domUp d m || bitOf (m.get R.PWR_DOMSTAT_PEND) d) then
    parkFree c fDomain a m
  else
    let m := each (List.range 16) (fun i m => m.setWord (R.DMA_ACT_TD c i).key (shdW m c i)) m
    let m := ((m.set (R.DMA_STAT_SHVALID c) 0).set (R.DMA_STAT_STATE c) dRun).incWrap (R.DMA_HOPS c)
    let next := if bitOf (actW m c 8).toNat 8 then some (tdAddr (actW m c) 10) else none
    let m := m.onChan c fun _ => { act := true, addr := a, fetch := next }
    setCur c (firstAccess m c) m

/-- What follows the end of an active TD: the shadow TD, a fetch still to come, or IDLE (R319). A TD that SHLOAD has put
into the shadow set is no chained TD, so no hop limit stops it (R324). -/
def nextTd (c : Nat) (m : Mach) : Mach :=
  if m.on (R.DMA_STAT_SHVALID c) then activate c ((m.chan c).shAddr != 0x40000000 + (R.DMA_SHD_TD c 0).key) m
  else match (m.chan c).fetch with
    | some _ => (m.set (R.DMA_STAT_STATE c) dRun).onChan c fun h => { h with act := false, done := false }
    | none => (m.set (R.DMA_STAT_STATE c) dIdle).onChan c fun _ => {}

/-! ## Channel control -/

/-- GO (Table 11.5). -/
def dmaGo (c : Nat) (m : Mach) : Mach :=
  let key := (R.DMA_CTL_GO c).key
  if chanOwned m c || m.get (R.DMA_STAT_STATE c) != dIdle || !m.on (R.DMA_CFG_EN c) then
    ignored key m
  else
    let m := m.set (R.DMA_HOPS c) 0
    if m.on (R.DMA_STAT_SHVALID c) then activate c false m
    else (m.set (R.DMA_STAT_STATE c) dRun).onChan c fun _ => { fetch := some (m.get (R.DMA_NEXT_LO_NEXT c) + m.get (R.DMA_NEXT_HI_NEXT c) * 2 ^ 32) }

/-- ABORT (R324): both sets are emptied. -/
def dmaAbort (c : Nat) (m : Mach) : Mach :=
  let m := (((datuForget c m).set (R.DMA_STAT_STATE c) dIdle).set (R.DMA_STAT_SHVALID c) 0).set (R.DMA_STAT_RESULT c) 2
  let m := m.onChan c fun _ => {}
  let m := match inTransfer m with
    | some n => if chanOwned m c then ingestFail n 0x09 m else m
    | none => m
  holdRelease m

/-- SKIP (R324): the active TD ends with FAULT and the shadow TD starts; without an active TD it is ignored. -/
def dmaSkip (c : Nat) (m : Mach) : Mach :=
  if chanOwned m c || m.get (R.DMA_STAT_STATE c) = dIdle then ignored (R.DMA_CTL_GO c).key m
  else
    let m := (datuForget c (m.set (R.DMA_STAT_RESULT c) 3)).onChan c fun h => { h with act := false, done := false, waitAt := none }
    holdRelease (nextTd c m)

/-- A TD has been put into the shadow set from address a: it is valid, or the channel parks (R321). -/
def shadowLoaded (c a : Nat) (m : Mach) : Mach :=
  let m := (m.set (R.DMA_STAT_SHVALID c) 1).onChan c fun h => { h with shAddr := a, fetch := none }
  if tdValid m c (shdW m c) then m else parkFree c fDesc a m

/-- SHLOAD (R319). -/
def dmaShload (c : Nat) (m : Mach) : Mach :=
  if chanOwned m c || m.on (R.DMA_STAT_SHVALID c) then ignored (R.DMA_CTL_GO c).key m
  else shadowLoaded c (0x40000000 + (R.DMA_SHD_TD c 0).key) m

/-- A write of DMAc_CTL: several bits act in the order ABORT, SKIP, SHLOAD, GO (log entry 27). -/
def dmaCtlWrite (c : Nat) (v : Word) (m : Mach) : Mach :=
  let m := when (bitOf v.toNat 1) (dmaAbort c) m
  let m := when (bitOf v.toNat 2) (dmaSkip c) m
  let m := when (bitOf v.toNat 3) (dmaShload c) m
  when (bitOf v.toNat 0) (dmaGo c) m

/-- A write of a shadow register (Table 11.5). -/
def shdWrite (c key : Nat) (v : Word) (m : Mach) : Mach :=
  if m.on (R.DMA_STAT_SHVALID c) || chanOwned m c then ignored key m else storeFields key v m

/-- A command that writes DMAc_CTL. -/
def byCtl (q : Requester) (c : Nat) (f : Mach → Mach) (m : Mach) : Mach :=
  hostGuard q (guarded q false (R.DMA_CTL_GO c).key f) m

/-- DMA_GO (R319). -/
def opDmaGo (q : Requester) (c : Nat) (m : Mach) : Mach := byCtl q c (dmaGo c) m
/-- DMA_ABORT (R324). -/
def opDmaAbort (q : Requester) (c : Nat) (m : Mach) : Mach := byCtl q c (dmaAbort c) m
/-- DMA_SKIP (R324). -/
def opDmaSkip (q : Requester) (c : Nat) (m : Mach) : Mach := byCtl q c (dmaSkip c) m
/-- DMA_SHLOAD (R319). -/
def opDmaShload (q : Requester) (c : Nat) (m : Mach) : Mach := byCtl q c (dmaShload c) m

/-- DMA_BUS_TIMEOUT (R324): an access has had no answer within BTO; no timeout runs while DRAM requests are held. -/
def opDmaBusTimeout (c : Nat) (m : Mach) : Mach :=
  let st := m.get (R.DMA_STAT_STATE c)
  if (st == dRun || st == dReady || (m.chan c).fetch.isSome) && !dramHeld m then
    parkFree c fTimeout (match st == dRun, (m.chan c).fetch with | false, some a => a | _, _ => curOf m c) m
  else m

/-- DMA_WAIT_TIMEOUT (R325): WTO ms in WAIT. -/
def opDmaWaitTimeout (c : Nat) (m : Mach) : Mach :=
  if waitOver c m then parkFree c fXlate (curOf m c) m else m

/-- The TDs that hold a power-down are aborted with type domain, and the domain goes down (R326). -/
def abortHold (d : Nat) (m : Mach) : Mach := each (chansOn m d) (fun c m => parkFree c fDomain (curOf m c) m) m

/-- DMA_POWERDOWN_TIMEOUT (R326): PDTO us after a held power-down. -/
def opDmaPowerdownTimeout (d : Nat) (m : Mach) : Mach :=
  match tfind d m.pwr.heldAt with
  | some t =>
    if bitOf (m.get R.PWR_DOMSTAT_PEND) d && t.toNat + usTicks (m.get R.DMA_GCFG_PDTO) ≤ m.now then abortHold d m else m
  | none => m

/-! ## DOMREQ -/

/-- A request to switch domain d off is refused (Table 12.1, R160). -/
def domRefused (d : Nat) (m : Mach) : Bool :=
  match d with
  | 0 | 1 => true
  | 2 => (List.range 8).any fun c => m.on (R.COX_CFG_EN c)
  | 3 => m.on R.SCL_CTL_EN
  | 9 => domUp 11 m || 0 < countIn (·.engaged) m
  | 10 => m.on R.PCIE_CFG_LINKEN
  | 11 => m.on R.PEAT_CTL_EN || 0 < countIn (fun st => st == .admitted || st.busy) m
  | d => m.on (R.VID_CTL_EN (d - 4)) || (recsIn (fun st => st == .admitted || st.busy) m).any fun r => bitOf (m.sheet r).planes (d - 4)

/-- One bit of a DOMREQ write that is asked to change. -/
def domRequest (on : Bool) (d : Nat) (m : Mach) : Mach :=
  let req := m.get R.PWR_DOMREQ_ON
  let key := R.PWR_DOMREQ_ON.key
  if on then
    if d = 8 && m.part == .pe5440 then ignored key m
    else if d = 11 && !m.on R.DRC_STAT_TRAINED then note 0x020 0x01 (0x40000000 + key) m
    else
      let m := m.set R.PWR_DOMREQ_ON (setBit req d)
      if domUp d m then
        { m.set R.PWR_DOMSTAT_PEND (clrBit (m.get R.PWR_DOMSTAT_PEND) d) with
          pwr := { m.pwr with heldAt := tdel d m.pwr.heldAt } }
      else { m with pwr := { m.pwr with coming := setBit m.pwr.coming d } }
  else if domRefused d m then note 0x020 0x01 (0x40000000 + key) m
  else
    let m := m.set R.PWR_DOMREQ_ON (clrBit req d)
    if !domUp d m then { m with pwr := { m.pwr with coming := clrBit m.pwr.coming d } }
    else if domUsed m d then
      { m.set R.PWR_DOMSTAT_PEND (setBit (m.get R.PWR_DOMSTAT_PEND) d) with
        pwr := { m.pwr with heldAt := tput d m.clk.tick m.pwr.heldAt } }
    else domDown d m

/-- A write of PWR_DOMREQ (R336, R337): every bit that changes is a request of its own. -/
def domreqWrite (v : Word) (m : Mach) : Mach :=
  let old := m.get R.PWR_DOMREQ_ON
  let new := R.PWR_DOMREQ_ON.of v
  let ds := (List.range 12).filter fun d => bitOf old d != bitOf new d
  each ds (fun d => domRequest (bitOf new d) d) m

/-- DOMAIN_REQUEST (R337). -/
def opDomainRequest (q : Requester) (v : Word) (m : Mach) : Mach :=
  guarded q false R.PWR_DOMREQ_ON.key (domreqWrite v) m

/-- DOMAIN_UP (R337): a domain that was switched on is up; its blocks hold what the switch-off left of them, and the
TCMs of the Cox cores are empty. -/
def opDomainUp (d : Nat) (m : Mach) (mem : Mem) : Mach × Mem :=
  if bitOf m.pwr.coming d then
    let m := m.set R.PWR_DOMSTAT_UP (setBit (m.get R.PWR_DOMSTAT_UP) d)
    let m := assertEvent 0x022 { m with pwr := { m.pwr with coming := clrBit m.pwr.coming d } }
    (m, if d = 2 then { mem with ram := cellsClear 0x20000000 0x20800000 mem.ram } else mem)
  else (m, mem)

end Sys2Proof.Machine
end

