-- ==== Sys2Proof/Machine/Ingest.lean ====
section
/-! DEFINITION. Image ingest (R141-R149), the job store's operations (R152-R156), the band feeders and inflate engines
(R150, R151, R157-R159), and CRC unit 3 (R163). -/

namespace Sys2Proof.Machine

def Mach.onPeat (m : Mach) (f : Peat → Peat) : Mach := { m with peat := f m.peat }

/-! ## Descriptors (Table 5.2) -/

def Ingest.w (i : Ingest) (k : Nat) : Word := i.desc.getD k 0
def Ingest.addr (i : Ingest) : Nat := (i.w 0).toNat + (i.w 1).toNat * 2 ^ 32
def Ingest.len (i : Ingest) : Nat := (i.w 2).toNat
/-- FORM = 1: a Peat band. -/
def Ingest.isPeat (i : Ingest) : Bool := bitOf (i.w 3).toNat 27
def Ingest.rcrcen (i : Ingest) : Bool := bitOf (i.w 3).toNat 28
/-- SPACE = 1: ADDR is an internal DRAM address. -/
def Ingest.inDram (i : Ingest) : Bool := bitOf (i.w 3).toNat 29
def Ingest.nlines (i : Ingest) : Nat := bitsOf (i.w 4) 16 10
def Ingest.width (i : Ingest) : Nat := bitsOf (i.w 4) 30 17
/-- RAWLEN of the band: NLINES x WIDTH / 2. -/
def Ingest.rawLen (i : Ingest) : Nat := i.nlines * i.width / 2

/-- Words of little-endian bytes. -/
def bytesWords (n : Nat) (bs : List Byte) : List Word :=
  (List.range n).map fun i => BitVec.ofNat 32 (leNat ((bs.drop (4 * i)).take 4))

/-- The bound of R140 on a DEFLATE payload. -/
def deflateBound (rawLen : Nat) : Nat := rawLen + 5 * ceilDiv rawLen 65535

/-- The first failing check of step 1 of R142, 0 when none fails. -/
def descCode (m : Mach) (i : Ingest) : Nat :=
  if m.nStn ≤ i.stn then 0x0B
  else if bitsOf (i.w 3) 31 30 != 0 || bitOf (i.w 4).toNat 31 || i.w 7 != 0 || i.addr % 64 != 0
      || (i.inDram && (i.addr < 0x0400000000 || 0x0400000000 + dramMib m * 2 ^ 20 ≤ i.addr)) then 0x03
  else if i.nlines = 0 || 64 < i.nlines || i.width % 2 != 0 || i.width < 2 || 15616 < i.width
      || (if i.isPeat then i.len < 36 || 36 + deflateBound i.rawLen < i.len else i.len != i.rawLen) then 0x04
  else if !i.isPeat && !i.rcrcen && m.on R.PEAT_CTL_RCRCREQ then 0x02
  else 0

/-! ## Classification (R144) -/

/-- The record in QUEUED through FUSED with a SID. -/
def liveRec (m : Mach) (sid : Sid) : Option Nat := (recsIn (·.live) m).find? fun r => (m.sheet r).sid == sid

/-- A copy of a band is present: in the job store, or, of an earlier raw band that no purge has released, on its way
through a deflate engine (Table 5.6). -/
def copies (m : Mach) (sid : Sid) (stn k : Nat) : List Band :=
  let held := match m.entry sid with | some e => e.bands | none => []
  let coming := m.peat.ingest.filterMap fun i =>
    match i.stage, i.band with
    | .wait, some b => if i.sid == sid && b.raw && !i.purged then some b else none
    | .engine _, some b => if i.sid == sid && b.raw && !i.purged then some b else none
    | _, _ => none
  (held ++ coming).filter fun b => b.stn == stn && b.band == k

/-- Station s is blanking the sheet from its run-out on (R40, Table 5.5 row 2). -/
def blanking (sh : Sheet) (s : Nat) : Bool :=
  let l := tget {} s sh.legs
  sh.spoil && (l.blankFrom.isSome || l.blankNext)

/-- The first row of Table 5.5 that applies: its code, or 0 for a band that is taken. -/
def classify (m : Mach) (i : Ingest) : Nat :=
  let sid := i.sid
  let s := i.stn
  let k := i.bandNo
  let cs := copies m sid s k
  match liveRec m sid with
  | some r =>
    let sh := m.sheet r
    if sh.reimg then 0x08
    else if blanking sh s then 0x05
    else if sh.earlyRule && k < sh.nextDl.getD s 0 then 0x05
    else if sh.state == .transferred || sh.state == .fused then 0x05
    else if cs.any fun b => b.fits sh then 0x06
    else 0
  | none =>
    if !cs.isEmpty then 0x06
    else if (recsIn (·.terminal) m).any fun r => (m.sheet r).sid == sid then 0x05
    else
      let last : Sid := BitVec.ofNat 24 (m.get R.SLU_LASTSID_SID)
      if !sidLater sid last then 0x05
      else if m.get R.PEAT_AHEAD < (sid - last).toNat then 0x07
      else 0

/-! ## Taking descriptors -/

/-- Replaces descriptor n. -/
def Mach.setIngest (m : Mach) (n : Nat) (i : Ingest) : Mach :=
  m.onPeat fun p => { p with ingest := p.ingest.set n i }

/-- A descriptor is still on its way to step 3 or in it. -/
def Stage.early : Stage → Bool
  | .room | .transfer _ => true
  | _ => false

/-- The unit may take a further descriptor: no completion waits at the head, and the channel's two sets are not both
taken (R142). -/
def mayTake (m : Mach) : Bool :=
  m.on R.PEAT_CTL_EN && domUp 11 m
    && (match m.peat.ingest with | i :: _ => i.stage != .post | [] => true)
    && (m.peat.ingest.filter fun i => i.stage.early).length < 2

/-- INGEST_DESCRIPTOR (R142 step 1). -/
def opIngestDescriptor (mem : Mem) (m : Mach) : Mach :=
  if !mayTake m then m
  else match ringTake (m.get R.PEAT_CTL_INRING) 2 mem m with
    | (none, m) => m
    | (some bs, m) =>
      let i : Ingest := { desc := bytesWords 8 bs, stage := .room }
      let n := m.peat.ingest.length
      let m := m.onPeat fun p => { p with ingest := p.ingest ++ [i] }
      let c := descCode m i
      if c != 0 then ingestFail n c m
      else
        let c := classify m i
        if c != 0 then ingestFail n c m else m

/-- Store units that step 2 of R142 allocates. -/
def unitsWanted (m : Mach) (i : Ingest) : Nat :=
  if i.isPeat then ceilDiv (32 + (i.len - 36)) 4096
  else ceilDiv (32 + i.rawLen) 4096 + (if m.on R.PEAT_CTL_KEEPRAW then 0 else ceilDiv (32 + deflateBound i.rawLen) 4096)

/-- INGEST_ALLOCATE (R142 step 2): the first descriptor that waits for room gets its units, and its transfer starts
once no other is in transfer. -/
def opIngestAllocate (m : Mach) : Mach :=
  match m.peat.ingest.findIdx? (·.stage == .room) with
  | none => m
  | some n =>
    match m.peat.ingest[n]? with
    | none => m
    | some i =>
      let u := unitsWanted m i
      if (inTransfer m).isNone && u ≤ freeUnits m && usedIndex m < 131072 && domUp 11 m then
        let m := jsCount (m.setIngest n { i with units := u, stage := .transfer false, keepRaw := m.on R.PEAT_CTL_KEEPRAW })
        let c := m.get R.PEAT_CTL_INCH
        setCur c (if i.inDram then i.addr % 2 ^ 40 else hostToWindow i.addr) (m.set (R.DMA_STAT_STATE c) dRun)
      else m

/-! ## The transfer -/

/-- What a read of the transfer gives. -/
inductive Fetched where
  | bytes (bs : List Byte) (m : Mach)
  | hold (m : Mach)

/-- Reads n bytes of a host range page by page through the DATU, for requester q; all pages must be in the IOTLB. -/
def hostRange (q : Nat) (mem : Mem) : Nat → Nat → Nat → List Byte → Mach → Fetched
  | 0, _, _, acc, m => .bytes acc m
  | fuel + 1, a, n, acc, m =>
    if n = 0 then .bytes acc m
    else
      let k := min n (4096 - a % 4096)
      match datuLook m a false with
      | .hit h =>
        let m := match tlbFind m ((a - hostWindow) / 4096) with | some x => tlbUse x m | none => m
        hostRange q mem fuel (a + k) (n - k) (acc ++ mem.hostBytes h k) m
      | .miss => .hold (startWalk q a false (setCur q a m))
      | .perm => .hold (needPage q a false true m)
      | .abort => .hold (xlatFail q a m)

/-- The job store lies in usable DRAM (R152). -/
def storeUsable (m : Mach) : Bool :=
  let base := m.get R.PEAT_JSBASE_LO_BASE + m.get R.PEAT_JSBASE_HI_BASE * 2 ^ 32
  domUp 9 m && 0x0400000000 ≤ base
    && base + m.get R.PEAT_JSSIZE_MIB * 2 ^ 20 ≤ 0x0400000000 + dramMib m * 2 ^ 20

/-- Reads the first n bytes of a descriptor's band: while the DATU or the DRAM makes it wait nothing happens; a fault
of the transfer parks the channel, and the band completes with XFER. -/
def bandRead (i : Ingest) (n : Nat) (ecc : Ecc) (mem : Mem) (m : Mach) : Fetched :=
  let c := m.get R.PEAT_CTL_INCH
  if m.get (R.DMA_STAT_STATE c) = dWait || dramHeld m then .hold m
  else if !storeUsable m then .hold (parkFree c fBus (curOf m c) m)
  else if i.inDram then
    let lim := 0x0400000000 + dramMib m * 2 ^ 20
    let m := eccEffect ecc i.addr (dramAsk (m.on (R.DMA_CFG_CLS c)) (m.on (R.DMA_CFG_PHINT c)) i.addr n m)
    if poisoned ecc m then .hold (parkFree c fBus i.addr m)
    else if lim < i.addr + n then .hold (parkFree c fBus (max lim i.addr) m)
    else .bytes (mem.rdBytes i.addr n) m
  else if hostHeld m then
    .hold ((m.set (R.DMA_STAT_STATE c) dWait).onChan c fun h => { h with waitAt := some m.clk.tick })
  else if m.hif.walks.any (·.req == c) || m.hif.reqs.any (·.req == c) then .hold m
  else if 2 ^ 40 ≤ i.addr then .hold (xlatFail c i.addr m)
  else hostRange c mem 256 (hostToWindow i.addr) n [] m

/-- A field of a Peat header (Table 5.1), from its eight words. -/
def hdrBits (h : List Word) (k hi lo : Nat) : Nat := bitsOf (h.getD k 0) hi lo

/-- The check of a Peat header (R137, R140, R141): 0, HEADER or LENGTH. -/
def headerCode (i : Ingest) (h : List Word) : Nat :=
  let raw := hdrBits h 0 24 24 == 1
  let blank := hdrBits h 0 25 25 == 1
  let plen := (h.getD 4 0).toNat
  if hdrBits h 0 15 0 != 0x5042 || hdrBits h 0 19 16 != 1 || hdrBits h 0 23 23 != 0 || hdrBits h 0 31 26 != 0
      || (raw && blank) || hdrBits h 1 31 24 != 0 || hdrBits h 2 31 23 != 0 || hdrBits h 3 31 14 != 0
      || h.getD 7 0 != 0
      || hdrBits h 0 22 20 != i.stn || hdrBits h 1 23 0 != i.sid.toNat || hdrBits h 2 22 16 != i.nlines
      || hdrBits h 3 13 0 != i.width || hdrBits h 2 15 0 != 64 * i.bandNo then 0x03
  else if plen + 36 != i.len || (h.getD 5 0).toNat != i.rawLen || (raw && plen != i.rawLen) || (blank && plen != 0)
      || deflateBound i.rawLen < plen then 0x04
  else 0

/-- The transfer on the channel has ended. -/
def transferEnd (m : Mach) : Mach :=
  let c := m.get R.PEAT_CTL_INCH
  (m.set (R.DMA_STAT_STATE c) dIdle).set (R.DMA_STAT_RESULT c) 0

/-- PEAT_HEADER_ARRIVED (R142 step 3): 32 bytes are there, and the header is checked. -/
def opPeatHeaderArrived (ecc : Ecc) (mem : Mem) (m : Mach) : Mach :=
  match inTransfer m with
  | none => m
  | some n =>
    match m.peat.ingest[n]? with
    | none => m
    | some i =>
      if !i.isPeat || i.stage != .transfer false then m
      else match bandRead i 32 ecc mem m with
        | .hold m => m
        | .bytes bs m =>
          let c := headerCode i (bytesWords 8 bs)
          if c = 0 then m.setIngest n { i with stage := .transfer true }
          else ingestFail n c (holdRelease (transferEnd m))

/-! ## Residency (R145) -/

/-- Address in the job store of byte o of a stored band (R152): which units it took the spec leaves open. -/
def bandAddr (m : Mach) (sid : Sid) (s k o : Nat) : Nat :=
  m.get R.PEAT_JSBASE_LO_BASE + m.get R.PEAT_JSBASE_HI_BASE * 2 ^ 32 + 2 * 2 ^ 20
    + (Config.bandUnit sid.toNat s k * 4096 + o) % max 1 (m.get R.PEAT_JSSIZE_MIB * 2 ^ 20 - 2 * 2 ^ 20)

/-- Descriptor n's band becomes resident in the form b and completes OK; a purge while it was under way makes it STALE,
and a copy that became resident before it makes it DUP (Table 5.6). -/
def makeResident (n : Nat) (b : Band) (m : Mach) : Mach :=
  match m.peat.ingest[n]? with
  | none => m
  | some i =>
    let old := match m.entry i.sid with | some e => e | none => {}
    let same := old.bands.filter fun x => x.stn == b.stn && x.band == b.band
    let dup := match liveRec m i.sid with
      | some r => same.any fun x => x.fits (m.sheet r)
      | none => !same.isEmpty
    if i.purged then ingestFail n 0x05 m
    else if dup then ingestFail n 0x06 m
    else
      let rest := old.bands.filter fun x => !(x.stn == b.stn && x.band == b.band)
      let m := m.setEntry i.sid { old with bands := rest ++ [b] }
      let m := m.setIngest n { i with stage := .post, code := 0, kept := b.bytes, units := 0, band := none }
      recountFor i.sid (jsCount (dramAsk false false (bandAddr m i.sid b.stn b.band 0) b.bytes m))

/-- Deflate engines that are free. -/
def freeEngines (m : Mach) : List Nat := (List.range 2).filter fun e => !(m.peat.ingest.any fun i => i.stage == .engine e)

/-- The first descriptor that waits for an engine. -/
def firstWaiting (m : Mach) : Option Nat := m.peat.ingest.findIdx? (·.stage == .wait)

/-- The band of a descriptor is to be verified, not compressed (R149). -/
def Ingest.verifies (i : Ingest) : Bool := match i.band with | some b => !b.raw && !b.blank | none => false

/-- A verification that is first in arrival order takes a free engine's checker (R149). -/
def verifyTake (m : Mach) : Mach :=
  match firstWaiting m, freeEngines m with
  | some n, e :: _ =>
    match m.peat.ingest[n]? with
    | some i => if i.verifies then m.setIngest n { i with stage := .engine e } else m
    | none => m
  | _, _ => m

/-- The band of descriptor i from its transferred bytes. -/
def bandFrom (i : Ingest) (bs : List Byte) : Band :=
  let h := bytesWords 8 bs
  if i.isPeat then
    { stn := i.stn, band := i.bandNo, nlines := i.nlines, width := i.width, raw := hdrBits h 0 24 24 == 1,
      blank := hdrBits h 0 25 25 == 1, stored := false, tag := h.getD 6 0, payload := (bs.drop 32).take (i.len - 36) }
  else
    { stn := i.stn, band := i.bandNo, nlines := i.nlines, width := i.width, raw := true, blank := false, stored := true,
      tag := 0, payload := bs }

/-- The check value of the transferred bytes is right (R138, Table 5.2): the trailer, or RCRC. -/
def crcRight (i : Ingest) (bs : List Byte) : Bool :=
  if i.isPeat then crc32c (bs.take (i.len - 4)) == BitVec.ofNat 32 (leNat (bs.drop (i.len - 4)))
  else !i.rcrcen || crc32c bs == i.w 5

/-- What follows a transfer that has ended well (R142 step 4). -/
def transferred (n : Nat) (i : Ingest) (bs : List Byte) (m : Mach) : Mach :=
  if !crcRight i bs then ingestFail n (if i.isPeat then 0x01 else 0x02) (m.incSat (R.CRC_ERR_ERRS 0))
  else if i.purged then ingestFail n 0x05 m
  else
    let c := classify m i
    if c != 0 then ingestFail n c m
    else
      let b := bandFrom i bs
      if i.isPeat then
        if !b.raw && !b.blank && m.on R.PEAT_CTL_VERIFY then
          verifyTake (m.setIngest n { i with stage := .wait, band := some b })
        else makeResident n b m
      else if i.keepRaw then makeResident n b m
      else m.setIngest n { i with stage := .wait, band := some b }

/-- INGEST_TRANSFER_DONE (R142 steps 3 and 4): the whole band has arrived. -/
def opIngestTransferDone (ecc : Ecc) (mem : Mem) (m : Mach) : Mach :=
  match inTransfer m with
  | none => m
  | some n =>
    match m.peat.ingest[n]? with
    | none => m
    | some i =>
      if i.isPeat && i.stage != .transfer true then m
      else match bandRead i i.len ecc mem m with
        | .hold m => m
        | .bytes bs m => transferred n i bs (holdRelease (transferEnd m))

/-- DEFLATE_START (R147): a free engine takes the first raw band in arrival order, and reads DEPTH for it. -/
def opDeflateStart (m : Mach) : Mach :=
  match firstWaiting m, freeEngines m with
  | some n, e :: _ =>
    match m.peat.ingest[n]? with
    | some i =>
      if i.verifies then verifyTake m
      else m.setIngest n { i with stage := .engine e, depth := clampN 1 64 (m.get R.PEAT_DEFCFG_DEPTH) }
    | none => m
  | _, _ => m

/-- The descriptor on deflate engine e. -/
def onEngine (m : Mach) (e : Nat) : Option (Nat × Ingest) :=
  match m.peat.ingest.findIdx? (·.stage == .engine e) with
  | some n => (m.peat.ingest[n]?).map fun i => (n, i)
  | none => none

/-- DEFLATE_DONE (R147, R148): engine e has compressed its band into `out`; the band is kept compressed when `out`
inflates to it, else raw. Which matches the engine finds in its hash chains the spec leaves open, so the output is given;
one that breaks R147's rules for blocks is none the engine gives. -/
def opDeflateDone (e : Nat) (out : List Byte) (m : Mach) : Mach :=
  match onEngine m e with
  | none => m
  | some (n, i) =>
    match i.band with
    | none => m
    | some b =>
      if i.verifies || !deflates out i.rawLen then m
      else
        let r := inflate out i.rawLen
        if r.2 && r.1 == b.payload then verifyTake (makeResident n { b with raw := false, stored := true, payload := out } m)
        else
          let m := note 0x0B0 0x02 0 (assertEvent 0x0B3 (m.incSat R.PEAT_STAT2_VERIFYMM))
          verifyTake (makeResident n b m)

/-- INGEST_VERIFY_DONE (R149): the checker of engine e has decoded its band. -/
def opIngestVerifyDone (e : Nat) (m : Mach) : Mach :=
  match onEngine m e with
  | none => m
  | some (n, i) =>
    match i.band with
    | none => m
    | some b =>
      if !i.verifies then m
      else if (inflate b.payload i.rawLen).2 then verifyTake (makeResident n b m)
      else verifyTake (ingestFail n 0x0A m)

/-- The completion record (Table 5.3). -/
def completion (m : Mach) (i : Ingest) : List Byte :=
  leBytes 4 (i.w 6).toNat ++ leBytes 4 i.code ++ leBytes 4 (i.sid.toNat + i.stn * 2 ^ 24) ++ leBytes 4 i.bandNo
    ++ leBytes 4 (if i.code = 0 then i.kept else 0) ++ leBytes 4 0 ++ leBytes 8 m.now

/-- INGEST_COMPLETION_POST (R142 step 5, R162): the oldest descriptor's record goes to CPRING once that has room. -/
def opIngestCompletionPost (m : Mach) (mem : Mem) : Mach × Mem :=
  match m.peat.ingest with
  | i :: rest =>
    if i.stage == .post && domUp 11 m then
      match ringPut (m.get R.PEAT_CTL_CPRING) 2 (completion m i) m mem with
      | (true, m, mem) =>
        let m := assertEvent 0x0B0 (m.onPeat fun p => { p with ingest := rest })
        (when (i.code != 0x00 && i.code != 0x05 && i.code != 0x06) (assertEvent 0x0B2) m, mem)
      | (false, m, mem) => (m, mem)
    else (m, mem)
  | [] => (m, mem)

/-! ## Job store operations (Table 5.7) -/

/-- Leaves a result in the requester's own PEAT_JSRES. -/
def jsResult (q : Requester) (code : Nat) (pinned refd hold : Bool) (units : Nat) (m : Mach) : Mach :=
  m.setOwn (Requester.id q) R.PEAT_JSRES_CODE.key
    (BitVec.ofNat 32 (code + b2n pinned * 16 + b2n refd * 32 + b2n hold * 64 + units % 2 ^ 24 * 2 ^ 8))

/-- The result of an operation that has left entry e. -/
def jsReport (q : Requester) (sid : Sid) (e : Entry) (code : Nat) (m : Mach) : Mach :=
  jsResult q code e.pinned (referenced sid m) e.hold.isSome e.units m

/-- PURGE (R154). -/
def jsPurge (q : Requester) (sid : Sid) (m : Mach) : Mach :=
  match m.entry sid with
  | none => jsResult q 1 false false false 0 m
  | some e =>
    if referenced sid m then jsReport q sid e 2 m
    else
      let m := m.onPeat fun p => { p with ingest := p.ingest.map fun i =>
        if i.sid == sid && i.stage != .post then { i with purged := true } else i }
      jsResult q 0 false false false e.units (jsRelease sid m)

/-- PIN (R154). -/
def jsPin (q : Requester) (sid : Sid) (m : Mach) : Mach :=
  match m.entry sid with
  | none => jsResult q 1 false false false 0 m
  | some e => jsReport q sid { e with pinned := true } 0 (m.setEntry sid { e with pinned := true })

/-- UNPIN (R154): an entry whose hold has ended is released now. -/
def jsUnpin (q : Requester) (sid : Sid) (m : Mach) : Mach :=
  match m.entry sid with
  | none => jsResult q 1 false false false 0 m
  | some e =>
    let m' := if e.ended && !referenced sid m then jsRelease sid m else m.setEntry sid { e with pinned := false }
    jsReport q sid { e with pinned := false } 0 m'

/-- QUERY (R154). -/
def jsQuery (q : Requester) (sid : Sid) (m : Mach) : Mach :=
  match m.entry sid with
  | none => jsResult q 1 false false false 0 m
  | some e => jsReport q sid e 0 m

/-- SWEEP (R154). -/
def jsSweep (q : Requester) (m : Mach) : Mach :=
  let go := m.peat.entries.filter fun p =>
    !p.2.pinned && p.2.hold.isNone && !referenced (BitVec.ofNat 24 p.1) m
  let units := go.foldl (fun n p => n + p.2.units) 0
  jsResult q 0 false false false units (each go (fun p => jsRelease (BitVec.ofNat 24 p.1)) m)

/-- A write of PEAT_JSOP (R154). -/
def jsopWrite (q : Requester) (v : Word) (m : Mach) : Mach :=
  let sid : Sid := BitVec.ofNat 24 (R.PEAT_JSOP_SID.of v)
  match R.PEAT_JSOP_OP.of v with
  | 1 => jsPurge q sid m
  | 2 => jsPin q sid m
  | 3 => jsUnpin q sid m
  | 4 => jsQuery q sid m
  | 5 => jsSweep q m
  | _ => jsResult q 3 false false false 0 m

/-- A command that writes PEAT_JSOP. -/
def byJsop (q : Requester) (f : Mach → Mach) (m : Mach) : Mach := guarded q false R.PEAT_JSOP_SID.key f m
/-- PURGE (R154). -/
def opPurge (q : Requester) (sid : Sid) (m : Mach) : Mach := byJsop q (jsPurge q sid) m
/-- PIN (R154). -/
def opPin (q : Requester) (sid : Sid) (m : Mach) : Mach := byJsop q (jsPin q sid) m
/-- UNPIN (R154). -/
def opUnpin (q : Requester) (sid : Sid) (m : Mach) : Mach := byJsop q (jsUnpin q sid) m
/-- QUERY (R154). -/
def opQuery (q : Requester) (sid : Sid) (m : Mach) : Mach := byJsop q (jsQuery q sid) m
/-- SWEEP (R154). -/
def opSweep (q : Requester) (m : Mach) : Mach := byJsop q (jsSweep q) m
/-- JSOP_UNDEFINED (R154): OP 0, 6 or 7 fails with code OP. -/
def opJsopUndefined (q : Requester) (_op : Nat) (_sid : Sid) (m : Mach) : Mach :=
  byJsop q (jsResult q 3 false false false 0) m

/-- JOB_STORE_HOLD_EXPIRE (R153). -/
def opJobStoreHoldExpire (sid : Sid) (m : Mach) : Mach :=
  match m.entry sid with
  | none => m
  | some e =>
    match e.hold with
    | some t =>
      if t.toNat ≤ m.now then
        if referenced sid m || e.pinned then m.setEntry sid { e with hold := none, ended := true } else jsRelease sid m
      else m
    | none => m

/-- A write of PEAT_CTL (R152): EN = 1 needs a job store of at least 64 MiB. -/
def peatCtlWrite (v : Word) (m : Mach) : Mach :=
  let key := R.PEAT_CTL_EN.key
  if !m.on R.PEAT_CTL_EN && R.PEAT_CTL_EN.of v = 1 && m.get R.PEAT_JSSIZE_MIB < 64 then ignored key m
  else storeFields key v m

/-! ## The band feeders (R157) -/

def Mach.feeder (m : Mach) (s : Nat) : Feeder := tget {} s m.peat.feeders
def Mach.setFeeder (m : Mach) (s : Nat) (f : Feeder) : Mach := m.onPeat fun p => { p with feeders := tput s f p.feeders }

/-- Lines behind a stroke's own that a lane of the station may still read: PLIN, FTH and the live feather (R173). -/
def readBack (m : Mach) (s : Nat) : Int :=
  let es := (List.range 16).flatMap fun i => (List.range (facetsOf m s)).flatMap fun f =>
    (List.range (zonesOf m s)).map fun z => mapEntry m s f z i
  (es.filter fun e => !bitOf e.toNat 2).foldl (fun a e => max a (entryPlin e + 3)) 0

/-- Lines of a sheet whose slots are free: no later stroke of the station reads them (R157). -/
def linesFreed (m : Mach) (s : Nat) (l : Leg) : Int :=
  if l.begun then l.first (dualPass m s) + advLines m s - readBack m s else 0

/-- The station has finished the line it exposes last, of the sheet its feeder fed before. -/
def feederFree (m : Mach) (s : Nat) : Bool :=
  let f := m.feeder s
  match f.sheet with
  | none => true
  | some r =>
    let sh := m.sheet r
    sh.sid != f.sid || !sh.exposes || (sh.lines : Int) ≤ linesFreed m s (tget {} s sh.legs)

/-- The sheet a station's feeder takes up next: the earliest catch that has reached its arm. -/
def feedNext (m : Mach) (s : Nat) : Option Nat :=
  ((recsIn (fun st => st == .admitted || st.busy) m).filter fun r =>
      let sh := m.sheet r
      sh.armed && bitOf sh.planes s && !(tget {} s sh.legs).fed).foldl (fun best r =>
    match best with
    | none => some r
    | some b => if (m.sheet r).catchT.toNat < (m.sheet b).catchT.toNat then some r else some b) none

/-- FEEDER_START (R157). -/
def opFeederStart (s : Nat) (m : Mach) : Mach :=
  if domUp 11 m && feederFree m s && (m.feeder s).eng.isNone then
    match feedNext m s with
    | some r =>
      let sh := m.sheet r
      let m := m.setSheet r { sh with legs := tput s { (tget {} s sh.legs) with fed := true } sh.legs }
      m.setFeeder s { sheet := some r, sid := sh.sid }
    | none => m
  else m

/-- Writes lines of a sheet, each of n bytes, into the line buffer from line j. -/
def writeLines (s n : Nat) : Nat → List (List Byte) → Mem → Mem
  | _, [], mem => mem
  | j, l :: ls, mem => writeLines s n (j + 1) ls (mem.wrBytes (slotAddr s j) ((l ++ List.replicate n 0).take n))

/-- Cuts bytes into k lines of n bytes. -/
def cutLines (n k : Nat) (bs : List Byte) : List (List Byte) := (List.range k).map fun i => (bs.drop (i * n)).take n

/-- The feeder has finished its band. -/
def bandFed (s filled : Nat) (m : Mach) : Mach :=
  let f := m.feeder s
  m.setFeeder s { f with band := f.band + 1, started := false, filled := filled, eng := none }

/-- A band fails at feed time (R159): its remaining lines are zeros, and the sheet is run out with band-corrupt. -/
def bandCorrupt (s r k fin : Nat) (m : Mach) (mem : Mem) : Mach × Mem :=
  let f := m.feeder s
  let n := (m.sheet r).width / 2
  let mem := writeLines s n f.filled (List.replicate (fin - f.filled) []) mem
  (spoilBand r s k (0x0B1 + s) 0x03 ((bandFed s fin m).incSat R.PEAT_STAT2_CORRUPT), mem)

/-- FEEDER_BAND_START (R157, R151): the next band's slots are free and it is resident; a raw or blank band is written
at once. -/
def opFeederBandStart (s : Nat) (ecc : Ecc) (m : Mach) (mem : Mem) : Mach × Mem :=
  let f := m.feeder s
  match f.sheet with
  | none => (m, mem)
  | some r =>
    let sh := m.sheet r
    let k := f.band
    let fin := min sh.lines (64 * (k + 1))
    if f.started || f.eng.isSome || sh.sid != f.sid || !sh.exposes || sh.bands ≤ k || !domUp 11 m || dramHeld m
        || linesFreed m s (tget {} s sh.legs) + 128 < fin then (m, mem)
    else match bandOf m sh s k with
      | none => (m, mem)
      | some b =>
        if b.blank then (bandFed s fin m, writeLines s (sh.width / 2) (64 * k) (List.replicate (fin - 64 * k) []) mem)
        else if b.raw then
          let at_ := bandAddr m sh.sid s k 0
          let m := eccEffect ecc at_ (dramAsk true true at_ (32 + b.payload.length) m)
          if poisoned ecc m then bandCorrupt s r k fin m mem
          else (bandFed s fin m, writeLines s (sh.width / 2) (64 * k) (cutLines (sh.width / 2) (fin - 64 * k) b.payload) mem)
        else (m.setFeeder s { f with started := true, filled := 64 * k, stream := {} }, mem)

/-- Lines a station has ready ahead of exposure. -/
def aheadOf' (m : Mach) (s : Nat) : Nat := m.seen (R.PEAT_FEED_AHEADLN s)

/-- INFLATE_RUN_START (R151): the lowest-numbered free engine takes the waiting stream with the fewest lines ahead, the
lowest station among equals. -/
def opInflateRunStart (m : Mach) : Mach :=
  let waiting := (List.range m.nStn).filter fun s => (m.feeder s).started && (m.feeder s).eng.isNone
  let eng := (List.range 4).find? fun e => !(m.peat.feeders.any fun f => f.2.eng == some e)
  let best := waiting.foldl (fun b s => match b with
    | none => some s
    | some t => if aheadOf' m s < aheadOf' m t then some s else some t) none
  match eng, best with
  | some e, some s => m.setFeeder s { m.feeder s with eng := some e }
  | _, _ => m

/-- Byte o of the output of band k, where the line buffer of the station holds it (R150); lines have n bytes. -/
def bufferByte (s k n : Nat) (mem : Mem) (o : Nat) : Byte := mem.rd (slotAddr s (64 * k + o / max 1 n) + o % max 1 n)

/-- INFLATE_RUN_DONE (R150, R159): engine e has decoded up to 8 lines of its stream from the saved context, reading
matches back from the line buffer, and saves the context; `ecc` is what its job store read found. -/
def opInflateRunDone (e : Nat) (ecc : Ecc) (m : Mach) (mem : Mem) : Mach × Mem :=
  match (List.range m.nStn).find? fun s => (m.feeder s).eng == some e with
  | none => (m, mem)
  | some s =>
    let f := m.feeder s
    match f.sheet with
    | none => (m, mem)
    | some r =>
      let sh := m.sheet r
      let k := f.band
      let n := sh.width / 2
      let fin := min sh.lines (64 * (k + 1))
      if dramHeld m then (m, mem)
      else match bandOf m sh s k with
        | none => (bandFed s fin m, mem)
        | some b =>
          let at_ := bandAddr m sh.sid s k 32
          let m := eccEffect ecc at_ (dramAsk true true at_ 256 m)
          if poisoned ecc m then bandCorrupt s r k fin m mem
          else
            let all := n * (fin - 64 * k)
            let from_ := f.filled - 64 * k
            let to_ := min (fin - 64 * k) (from_ + 8)
            let x := inflateRun (bufferByte s k n mem) b.payload all (n * to_) f.stream
            let out := x.1.out.reverse
            let lines := cutLines n (out.length / max 1 n) out
            let mem := writeLines s n f.filled lines mem
            let good := x.2 && (64 * k + to_ < fin || infWhole all x)
            if !good then bandCorrupt s r k fin (m.setFeeder s { f with filled := f.filled + lines.length }) mem
            else if 64 * k + to_ = fin then (bandFed s fin m, mem)
            else (m.setFeeder s { f with filled := 64 * k + to_, eng := none, stream := x.1.st }, mem)

/-! ## CRC unit 3 (R163) -/

/-- A write of CRC_GCTL. -/
def crcGo (v : Word) (m : Mach) : Mach :=
  if bitOf v.toNat 0 && m.peat.crc.isNone then
    let a := m.get R.CRC_GADDR_LO_ADDR + m.get R.CRC_GADDR_HI_ADDR * 2 ^ 32
    (m.set R.CRC_GCTL_BUSY 1).onPeat fun p => { p with crc := some (a, m.get R.CRC_GLEN_LEN) }
  else m

/-- CRC_GO (R163). -/
def opCrcGo (q : Requester) (m : Mach) : Mach := guarded q false R.CRC_GCTL_GO.key (crcGo 1) m

/-- A range lies wholly in shared SRAM or in usable DRAM. -/
def crcRange (m : Mach) (a n : Nat) : Bool :=
  let sram := 0x30000000 ≤ a && a + n ≤ 0x30800000
  let gone := m.part == .pe5440 && a < 0x30500000 && 0x30400000 < a + n
  let dram := 0x0400000000 ≤ a && a + n ≤ 0x0400000000 + dramMib m * 2 ^ 20 && domUp 9 m
  n == 0 || (sram && !gone) || dram

/-- CRC_DONE (R163): unit 3 completes; a poisoned read answers with an error. -/
def opCrcDone (ecc : Ecc) (mem : Mem) (m : Mach) : Mach :=
  match m.peat.crc with
  | none => m
  | some (a, n) =>
    if 0x0400000000 ≤ a && dramHeld m then m
    else
      let m := when (0x0400000000 ≤ a && 0 < n) (dramAsk false false a n) m
      let m := when (0x0400000000 ≤ a) (eccEffect ecc a) m
      let bad := !crcRange m a n || (0x0400000000 ≤ a && poisoned ecc m)
      let m := ((m.set R.CRC_GCTL_BUSY 0).set R.CRC_GCTL_ERR (b2n bad)).onPeat fun p => { p with crc := none }
      assertEvent 0x0C0 (if bad then m.free.2.setWord R.CRC_GRES_CRC.key m.free.1
        else m.setWord R.CRC_GRES_CRC.key (crc32c (mem.rdBytes a n)))

end Sys2Proof.Machine
end

