-- ==== Sys2Proof/Machine/Faults.lean ====
section
/-! DEFINITION. Fault messages and their clearing (R363, R364), the interlock (R371), the alive signal (R372) and the
kick window (R431). -/

namespace Sys2Proof.Machine

/-- FAULT_MESSAGE (R363): a message of a source outside the commands of this model reaches the collector. -/
def opFaultMessage (src kind cls : Nat) (sid : Sid) (param : BitVec 40) (m : Mach) : Mach :=
  deliver { src := src, kind := kind, cls := cls, sid := sid, param := param } m

/-! ## Clearing (R364) -/

/-- The standing condition of a clock source's kinds. -/
def standsClk (u kind : Nat) (m : Mach) : Bool :=
  match u, kind with
  | 7, 0x04 => !m.on R.CLK_STATUS_REFOK
  | 8, 0x05 => !m.on R.CLK_STATUS_PPCOK
  | 9, 0x01 => !m.on (R.CLK_SYN_STAT_LOCK 0)
  | 9, 0x02 => !m.on (R.CLK_SYN_STAT_LOCK 1)
  | u, k => u < 7 && 0x01 ≤ k && k ≤ 0x03 && !m.on (R.CLK_SYN_STAT_LOCK u)

/-- The standing condition of a record's kind at its source (Table 13.5, R406). -/
def stands (r : FltRec) (m : Mach) : Bool :=
  let b := r.src / 16
  let u := r.src % 16
  if b = 0x01 then standsClk u r.kind m
  else if b = 0x0D then
    0x41 ≤ r.kind && r.kind ≤ 0x4A && (m.ctx (cix u r.aux)).state == .parked
  else if 0x10 ≤ b && b < 0x15 && u = 1 then
    match r.kind with
    | 0x08 => m.on (R.VID_STAT_HTSOFT (b - 0x10))
    | 0x09 => m.on (R.VID_STAT_HTHARD (b - 0x10))
    | 0x0A => headCeilOf m (b - 0x10) ≤ headReading m (b - 0x10)
    | _ => false
  else if b = 0x1A then r.kind == 0x06 && guard32 m (0x110 + 16 * u) * 102 < m.get (R.POLY_SPEED u) * 100
  else if b = 0x1B then r.src == 0x1B8 && r.kind == 0x04 && guard16 m 0x1B0 ≤ m.get R.SRV_BRKSTAT_VBUS
  else if b = 0x1E then
    if u = 0 then r.kind == 0x01 && !m.on R.FUS_STAT_ZCOK
    else
      let j := guardByte m (0x28C + (u - 1)) % 8
      r.kind == 0x02 && (m.on (R.ADC_AIN_BROKEN (24 + j)) || guard16 m (0x290 + 2 * (u - 1)) ≤ m.get (R.FUS_TEMP_T j))
  else if b = 0x03 then
    if u = 9 then r.kind == 0x05 && m.thm.die != 0
    else 1 ≤ u && u ≤ 8 && r.kind == 0x04 && m.getI (R.THM_GRPCFG_CRIT (u - 1)) ≤ m.getI (R.THM_GRPMAX_MAX (u - 1))
  else if b = 0x20 then
    match r.kind with
    | 0x03 => m.get R.FJL_PSTAT_TSTATE == 4
    | 0x04 => m.get R.FJL_PSTAT_TSTATE == 2
    | 0x09 => !m.fjl.lost.isEmpty
    | 0x0A => match m.fjl.dupAt with | some t => m.now ≤ t.toNat + msTicks 3 | none => false
    | _ => false
  else if b = 0x05 then
    (r.src == 0x051 && r.kind == 0x02 && !m.on R.ENV_STAT_ILK) || (r.src == 0x050 && r.kind == 0x01 && !m.on R.ENV_STAT_VALID)
  else false

/-- The sheet a source names now: the one its station exposes. -/
def sourceSid (src : Nat) (m : Mach) : Sid :=
  let stn := match srcStation src with
    | some s => some s
    | none => if 0x012 ≤ src && src ≤ 0x016 then some (src - 0x012) else none
  match stn with
  | some s => match exposingNow s m with | some r => (m.sheet r).sid | none => 0
  | none => 0

/-- Toggling resumes once the last record of class 3 or 4 is freed (R372). -/
def aliveResume (was : Bool) (m : Mach) : Mach :=
  if was && !aliveHeld m then { m with flt := { m.flt with aliveFrom := m.clk.tick } } else m

/-- Frees a record, and raises its kind again if its condition stands (R364). CLRRES names the source written to CLR, or the
source of the class record (DEDUCED, log entry 38). -/
def freeRecord (q : Requester) (src crec : Nat) (r : FltRec) (release : Mach → Mach) (m : Mach) : Mach :=
  let code (c : Nat) (m : Mach) : Mach :=
    m.setOwn (Requester.id q) R.FLT_CLRRES_CODE.key (BitVec.ofNat 32 (c + (if crec = 0 then src else r.src) * 4 + crec * 2 ^ 12))
  if !r.held then code 2 m
  else
    let was := aliveHeld m
    let m := release m
    if stands r m then
      let msg : Msg :=
        { src := r.src, kind := r.kind, cls := r.cls, sid := sourceSid r.src m, param := r.param, aux := r.aux,
          reraise := true }
      code 1 (aliveResume was (deliver msg m))
    else code 0 (aliveResume was m)

/-- A write of FLT_CLR. -/
def fltClr (q : Requester) (v : Word) (m : Mach) : Mach :=
  let src := R.FLT_CLR_SRC.of v
  let crec := R.FLT_CLR_CREC.of v
  if crec = 0 then
    let r := tget {} src m.flt.srcs
    freeRecord q src crec r (fun m => { m with flt := { m.flt with srcs := tput src { r with held := false } m.flt.srcs } }) m
  else
    let r := tget {} (crec + 1) m.flt.clss
    freeRecord q src crec r
      (fun m => { m with flt := { m.flt with clss := tput (crec + 1) { r with held := false } m.flt.clss } }) m

/-- FAULT_CLEAR (R364). -/
def opFaultClear (q : Requester) (v : Word) (m : Mach) : Mach := guarded q false R.FLT_CLR_SRC.key (fltClr q v) m

/-! ## The alive signal -/

/-- HALF as it acts (R372). -/
def aliveHalf (m : Mach) : Nat := clampN 5000 500000 (m.get R.FLT_ALIVE_HALF)

/-- ALIVE_TOGGLE (R372). -/
def opAliveToggle (m : Mach) : Mach :=
  if m.on R.FLT_ALIVE_EN && !aliveHeld m && multipleIn (aliveHalf m) 0 m.flt.aliveFrom.toNat m.now then
    let m := m.set R.FLT_ALIVE_LEVEL (1 - m.get R.FLT_ALIVE_LEVEL)
    { m with flt := { m.flt with aliveFrom := m.clk.tick } }
  else m

/-- A write of FLT_ALIVE. -/
def aliveWrite (v : Word) (m : Mach) : Mach :=
  let m := storeFields R.FLT_ALIVE_EN.key v m
  when (R.FLT_ALIVE_EN.of v == 1) (fun m => { m with flt := { m.flt with aliveFrom := m.clk.tick } }) m

/-- ALIVE_WRITE (R372). -/
def opAliveWrite (q : Requester) (v : Word) (m : Mach) : Mach := guarded q false R.FLT_ALIVE_EN.key (aliveWrite v) m

/-- A write of FLT_KICK (R431). -/
def kickWrite (v : Word) (m : Mach) : Mach :=
  let old := m.get R.FLT_KICK_KWIN
  let new := R.FLT_KICK_KWIN.of v
  let m := m.set R.FLT_KICK_KWIN new
  let start (m : Mach) : Mach := { m with flt := { m.flt with kickFrom := some m.clk.tick } }
  if new = 0 then { m with flt := { m.flt with kickFrom := none } }
  else if new != old || R.FLT_KICK.of v = 1 then start m
  else m

/-- KICK (R431). -/
def opKick (q : Requester) (v : Word) (m : Mach) : Mach := guarded q false R.FLT_KICK.key (kickWrite v) m

/-- KICK_WINDOW_EXPIRE (R431): one alive-kick, and no further window until the next KICK. A kick in the very cycle in which
the window ends is taken (Table 13.10), so the cycle must have passed. -/
def opKickWindowExpire (m : Mach) : Mach :=
  match m.flt.kickFrom with
  | some t =>
    if t.toNat + msTicks (m.get R.FLT_KICK_KWIN) < m.now then
      raise 0x040 0x01 3 { m with flt := { m.flt with kickFrom := none } }
    else m
  | none => m

/-! ## The interlock (R371) -/

/-- INTERLOCK_OPEN (R371): ILK_N has fallen. LEN and HVEN follow ENV_STAT.ILK. -/
def opInterlockOpen (m : Mach) : Mach :=
  let hit := (recsIn (·.engaged) m).any fun r => let sh := m.sheet r; sh.state != .admitted || pastLock sh m
  raise 0x051 0x02 (if hit then 3 else 2) (m.set R.ENV_STAT_ILK 0)

/-- INTERLOCK_QUALIFIED (R371): ILK_N has stayed high for 100 ms. -/
def opInterlockQualified (m : Mach) : Mach := m.set R.ENV_STAT_ILK 1

end Sys2Proof.Machine
end

