-- ==== Sys2Proof/Machine/ScullRegs.lean ====
section
/-! DEFINITION. Writes to the Scull engine's registers: the enable checks of R203, the engine enable (R219), and
writes that wait for the run in progress to end (R211, R218). -/

namespace Sys2Proof.Machine

/-! ## Enabling a slot (R203) -/

/-- Unseen state of a slot. -/
def Mach.sclSlot (m : Mach) (n : Nat) : SclSlot := tget {} n m.scl.slots

/-- Applies a change to it. -/
def Mach.onSlot (m : Mach) (n : Nat) (f : SclSlot → SclSlot) : Mach :=
  { m with scl := { m.scl with slots := tput n (f (m.sclSlot n)) m.scl.slots } }

/-- The fault source of a slot: the engine, with the slot's group as unit. -/
def slotSrc (n : Nat) : Nat := 0x0E0 + n / 8

/-- Blocks that no output may name (R203). -/
def outputBanned (b : Nat) : Bool := b == 0x00 || b == 0x05 || b == 0x07 || b == 0x0D || b == 0x21 || b == 0x22 || b == 0x0E

/-- Block of the register that pool entry e names. -/
def entryBlock (e : Nat) (m : Mach) : Nat := m.get (R.SCL_BINDA_ADDR e) / 65536

/-- First output entry of a slot. -/
def outBase (n : Nat) (m : Mach) : Nat := m.get (R.SCL_SLOT_BUD_BIND n) + m.get (R.SCL_SLOT_BUD_NIN n)

/-- The slot may be enabled as it is programmed (R203). -/
def slotSound (n : Nat) (m : Mach) : Bool :=
  let b := m.get (R.SCL_SLOT_BUD_BIND n)
  let ni := m.get (R.SCL_SLOT_BUD_NIN n)
  let no := m.get (R.SCL_SLOT_BUD_NOUT n)
  let src := m.get (R.SCL_SLOT_TRIG_SRC n)
  ni ≤ 8 && no ≤ 4 && b + ni + no ≤ 512
    && ((List.range (ni + no)).all fun i => blockAssigned (entryBlock (b + i) m))
    && ((List.range no).all fun i => !outputBanned (entryBlock (b + ni + i) m))
    && src < 6 && m.get (R.SCL_SLOT_PHASE n) < m.get (R.SCL_SLOT_PER n) && 17 ≤ m.get (R.SCL_SLOT_BUD_BUDGET n)
    && !(src == 5 && m.get (R.SCL_SLOT_TRIG_EVT n) % 128 == n)

/-- Drops what a slot has under way but its run (R219). -/
def slotDrop (n : Nat) (m : Mach) : Mach :=
  let m := (m.set (R.SCL_SLOT_STAT_PEND n) 0).onSlot n fun s => { s with reading := false }
  { m with scl := { m.scl with trigDue := m.scl.trigDue.filter (· != n), syncDue := m.scl.syncDue.filter (· != n) } }

/-- Binding 0 exists and carries a Q15 value, so that MODE, MANVAL and blending act (R215). -/
def manual0 (n : Nat) (m : Mach) : Bool := m.get (R.SCL_SLOT_BUD_NOUT n) != 0 && !m.on (R.SCL_BINDB_RAW32 (outBase n m))

/-- What a change of MODE does where it takes effect, `was` being MODE before (R215, R217). Without a Q15 binding 0 no blend
starts, and the first automatic run carries HOV with h = 0 (DEDUCED, log entry 45). -/
def handOver (n was : Nat) (m : Mach) : Mach :=
  let mode := m.get (R.SCL_SLOT_CTL_MODE n)
  if mode == was then m
  else
    let act := manual0 n m
    let m := m.onSlot n fun s => { s with h := if act then sint 16 (m.get (R.SCL_SLOT_STAT_OUT0 n)) else 0, k := 0 }
    let m := m.set (R.SCL_SLOT_STAT_BLENDING n) (b2n (act && (mode == 0 || m.on (R.SCL_SLOT_CTL_BLENDM n))))
    when (mode == 0) (fun m => m.set (R.SCL_SLOT_STAT_HOV n) 1) m

/-- A write of SLOTn_CTL: a refused enable leaves the register as it is (R203); a disable drops a pending run; a change
of MODE that takes effect here hands over here (R217). -/
def slotCtlWrite (n : Nat) (v : Word) (m : Mach) : Mach :=
  let was := m.on (R.SCL_SLOT_CTL_EN n)
  let mode := m.get (R.SCL_SLOT_CTL_MODE n)
  let en := (R.SCL_SLOT_CTL_EN n).of v == 1
  if en && !was && !slotSound n m then note (slotSrc n) 0x06 n m
  else handOver n mode (when (was && !en) (slotDrop n) (storeFields (R.SCL_SLOT_CTL_EN n).key v m))

/-- SLOT_ENABLE (R203). -/
def opSlotEnable (q : Requester) (n : Nat) (v : Word) (m : Mach) : Mach :=
  guarded q false (R.SCL_SLOT_CTL_EN n).key (slotCtlWrite n (withBits v 0 0 1)) m

/-! ## The engine's own registers -/

/-- A write of SCL_CTL (R219): EN = 0 is ignored while a record is in ADMITTED through FUSED. -/
def sclCtlWrite (v : Word) (m : Mach) : Mach :=
  if m.on R.SCL_CTL_EN && R.SCL_CTL_EN.of v == 0 && 0 < countIn (·.engaged) m then ignored R.SCL_CTL_EN.key m
  else storeFields R.SCL_CTL_EN.key v m

/-- Word of the repetitive-controller memory that a requester's window shows at an offset (R211). -/
def rcIndex (q : Nat) (key : Nat) (m : Mach) : Nat :=
  bitsOf (m.own q R.SCL_RCSEL_PAGE.key) 0 0 * 4096 + (key - (R.SCL_RCWIN 0).key) / 4

/-- Sets a word (two entries) of the repetitive-controller memory. -/
def rcPut (i : Nat) (v : Word) (m : Mach) : Mach := { m with scl := { m.scl with rc := tput i v m.scl.rc } }

/-- A write that never takes effect during a run: at once, or when the run in progress ends. -/
def sclDefer (w : SclWrite) (m : Mach) : Mach :=
  if m.scl.run.isSome then { m with scl := { m.scl with waiting := m.scl.waiting ++ [w] } }
  else if w.rc then rcPut w.key w.v m
  else m.setWord w.key w.v

/-- Applies the writes that waited for a run to end, in order. -/
def sclFlush (m : Mach) : Mach :=
  let ws := m.scl.waiting
  each ws sclDefer { m with scl := { m.scl with waiting := [] } }

/-- A write to a register of block SCL. -/
def sclWrite (q : Nat) (key : Nat) (v : Word) (m : Mach) : Mach :=
  let o := key % 65536
  if o = 0 then sclCtlWrite v m
  else if key = R.SCL_RCSEL_PAGE.key then m.setOwn q key (BitVec.ofNat 32 (v.toNat % 2))
  else if 0x400 ≤ o && o < 0x1C00 && o % 0x40 = 0 then slotCtlWrite ((o - 0x400) / 0x40) v m
  else if (0x2C00 ≤ o && o < 0x3200) || (0x4000 ≤ o && o < 0x8000) then sclDefer ⟨false, key, v⟩ m
  else if 0xC000 ≤ o then sclDefer ⟨true, rcIndex q key m, v⟩ m
  else storeFields key v m

end Sys2Proof.Machine
end

