-- ==== Sys2Proof/Machine/Fjarilink.lean ====
section
/-! DEFINITION. Fjarilink (chapter 14): ports, frames and routes (R377-R381), time transfer (R382, R383), scheduled
events and press groups (R384-R387), and the writes to its registers (R380, R389, R391, R404). The numbering of
control and time frames and the order of payload words are the model's own (log entry 30). -/

namespace Sys2Proof.Machine

/-! ## Ports and routes -/

/-- A port is up. -/
def portUp (p : Nat) (m : Mach) : Bool := if p = 0 then m.on R.FJL_PSTAT_UUP else m.on R.FJL_PSTAT_DUP

/-- Marks a port up or down. -/
def setPort (p : Nat) (up : Bool) (m : Mach) : Mach :=
  if p = 0 then m.set R.FJL_PSTAT_UUP (b2n up) else m.set R.FJL_PSTAT_DUP (b2n up)

/-- Changes Fjarilink's unseen state. -/
def Mach.onFjl (m : Mach) (f : Fjl → Fjl) : Mach := { m with fjl := f m.fjl }

/-- This node's own address. -/
def ownAddr (m : Mach) : Nat := m.get R.FJL_NODE_ADDR

/-- Period of the time exchange, in TICK (R382). -/
def syncPeriod (m : Mach) : Nat := clampN 1 128 (m.get R.FJL_CTL_SYNCPER) * 12500

/-! ## Time states (R383) -/

def tOff : Nat := 0
def tMaster : Nat := 1
def tAcquire : Nat := 2
def tTrack : Nat := 3
def tHoldover : Nat := 4

/-- Enters a time state; a change asserts TIME. -/
def setTime (st : Nat) (m : Mach) : Mach :=
  if m.get R.FJL_PSTAT_TSTATE = st then m else assertEvent 0x202 (m.set R.FJL_PSTAT_TSTATE st)

/-- Gives TRIM a value. -/
def trimTo (v : Int) (m : Mach) : Mach :=
  (m.setI R.CLK_TRIM v).onFjl fun f =>
    { f with trims := (m.clk.tick, v) :: f.trims.takeWhile fun p => m.now < p.1.toNat + 200000000 }

/-- Sum of TRIM over time, and the time, from w0 to `stop`. -/
def trimSum (w0 : Nat) : Nat → List (Tick × Int) → Int × Nat
  | _, [] => (0, 0)
  | stop, (t, v) :: r =>
    let d := stop - max t.toNat w0
    let x := trimSum w0 (min stop t.toNat) r
    (x.1 + v * d, x.2 + d)

/-- Enters HOLDOVER: TRIM is held at its mean over the last 1 s. -/
def enterHoldover (m : Mach) : Mach :=
  let x := trimSum (m.now - 100000000) m.now m.fjl.trims
  let m := if x.2 = 0 then m else
    let q := m.roundFree x.1 x.2
    q.2.setI R.CLK_TRIM q.1
  let m := m.onFjl fun f => { f with holdAt := m.clk.tick, gtSent := false, t1 := none }
  raise 0x202 0x02 0 (setTime tHoldover m)

/-- Begins ACQUIRE. -/
def enterAcquire (m : Mach) : Mach :=
  setTime tAcquire (m.onFjl fun f => { f with acq := 0, within := 0, toffSet := false, offSent := false })

/-- The time master's address: this node's own, or the lowest that a HELLO has told. -/
def timeMaster (m : Mach) : Nat :=
  if m.on R.FJL_CTL_TMASTER then ownAddr m
  else match m.fjl.routes.find? fun p => p.2.master with | some p => p.1 | none => 0

/-- Settles TPORT and TMADDR; a node that was in TRACK and loses its time port enters HOLDOVER. -/
def timePort (m : Mach) : Mach :=
  let tm := timeMaster m
  let p := if m.on R.FJL_CTL_TMASTER || tm = 0 then 0
    else match routeTo tm m with
      | some p => if portUp p m then p + 1 else 0
      | none => 0
  let m := (m.set R.FJL_PSTAT_TMADDR tm).set R.FJL_PSTAT_TPORT p
  if p = 0 && m.get R.FJL_PSTAT_TSTATE = tTrack then enterHoldover m else m

/-- Forgets what a port has told. -/
def forgetPort (p : Nat) (r : Route) : Route := if p = 0 then { r with up := none } else { r with down := none }

/-- Routes of which something is known. -/
def keepRoutes (l : Tab Route) : Tab Route := l.filter fun p => p.2.up.isSome || p.2.down.isSome

/-- A port goes down (R377, R379): its frames and routes are dropped, link-down is noted, LINK asserted. -/
def portDown (p : Nat) (m : Mach) : Mach :=
  let m := (setPort p false m).onFjl fun f =>
    { f with unacked0 := if p = 0 then [] else f.unacked0, unacked1 := if p = 0 then f.unacked1 else [],
             routes := keepRoutes (f.routes.map fun r => (r.1, forgetPort p r.2)) }
  timePort (assertEvent 0x203 (raise (0x200 + p) 0x01 0 m))

/-- BLOCK_LOCK_LOSS (R377, R381, R383). -/
def opBlockLockLoss (p : Nat) (m : Mach) : Mach := if m.on R.FJL_CTL_EN && portUp p m then portDown p m else m

/-- PORT_UP (R377): block lock has held for 1 ms, and the neighbour has sent a HELLO. -/
def opPortUp (p : Nat) (m : Mach) : Mach :=
  let heard := m.fjl.routes.any fun r => match (if p = 0 then r.2.up else r.2.down) with
    | some h => h.hops == 0
    | none => false
  if m.on R.FJL_CTL_EN && !portUp p m && heard then timePort (assertEvent 0x203 (setPort p true m)) else m

/-! ## Frames -/

/-- Acknowledges an event or bulk frame to the neighbour. -/
def ackFrame (p : Nat) (f : Frame) (m : Mach) : Mach :=
  m.send (.frame p { cls := 0, grp := false, bc := false, typ := 1, hops := 0, dst := 0, src := ownAddr m,
                     lseq := f.lseq, body := [] })

/-- A frame fails its CRC (R378, Table 14.10): check units 1 and 2 count it too (R163). -/
def badCrc (p : Nat) (m : Mach) : Mach :=
  let m := m.incSat (R.CRC_ERR_ERRS (1 + p))
  if p = 0 then m.incSat R.FJL_LSTAT_CRCU else m.incSat R.FJL_LSTAT_CRCD

/-- The frame is for this node alone: it is not forwarded. -/
def frameAlone (f : Frame) (m : Mach) : Bool := f.dst == 0 || (!f.grp && !f.bc && f.dst == ownAddr m)

/-- The frame is delivered to this node (R381). -/
def frameMine (f : Frame) (m : Mach) : Bool :=
  frameAlone f m || f.bc || (f.grp && f.dst % 256 == m.get R.FJL_GRP_GID)

/-- A frame arrives at a port: it is checked, acknowledged, forwarded and delivered (R378-R381). -/
def frameIn (p : Nat) (f : Frame) (good : Bool) (act : Mach → Mach) (m : Mach) : Mach :=
  if !m.on R.FJL_CTL_EN || !portUp p m then m
  else if !good then badCrc p m
  else
    let m := when (2 ≤ f.cls) (ackFrame p f) m
    if m.on R.FJL_CTL_RING && f.src == ownAddr m then m
    else
      let m := when (!frameAlone f m && 0 < f.hops) (frameTx (1 - p) { f with hops := f.hops - 1 }) m
      when (frameMine f m) act m

/-- FRAME_ACK (R379). -/
def opFrameAck (p lseq : Nat) (m : Mach) : Mach :=
  m.onFjl fun f =>
    if p = 0 then { f with unacked0 := f.unacked0.filter (·.frame.lseq != lseq) }
    else { f with unacked1 := f.unacked1.filter (·.frame.lseq != lseq) }

/-- Counts one more sending of the first frame of a list that is due. -/
def resendIn (t : Tick) : List Unacked → List Unacked
  | [] => []
  | u :: r =>
    if u.at_.toNat + 2000 ≤ t.toNat then { u with tries := u.tries + 1, at_ := t } :: r else u :: resendIn t r

/-- FRAME_RETRANSMIT (R379): the first frame unacknowledged for 20 us is sent again; after its fifth failure the port
goes down. -/
def opFrameRetransmit (p : Nat) (m : Mach) : Mach :=
  let l := if p = 0 then m.fjl.unacked0 else m.fjl.unacked1
  match l.find? fun u => u.at_.toNat + 2000 ≤ m.now with
  | none => m
  | some u =>
    if 5 ≤ u.tries then portDown p m
    else
      let l := resendIn m.clk.tick l
      let m := m.onFjl fun f => if p = 0 then { f with unacked0 := l } else { f with unacked1 := l }
      (m.send (.frame p u.frame)).incSat R.FJL_LSTAT_RETX

/-! ## HELLO (R380) -/

/-- This node's HELLO. -/
def helloFrame (m : Mach) : Frame :=
  { cls := 0, grp := false, bc := true, typ := 0, hops := 255, dst := 0, src := ownAddr m, lseq := 0,
    body := [BitVec.ofNat 32 (ownAddr m), Config.unitId.truncate 32, (Config.unitId >>> 32).truncate 32,
             BitVec.ofNat 32 (m.get R.FJL_CTL_TMASTER)] }

/-- Drops the ways that no HELLO has confirmed within 3 ms (R381). -/
def ageHop (now : Nat) : Option Hop → Option Hop
  | some h => if now ≤ h.at_.toNat + msTicks 3 then some h else none
  | none => none

/-- HELLO_TIMER (R380). -/
def opHelloTimer (m : Mach) : Mach :=
  if m.on R.FJL_CTL_EN && m.fjl.helloAt.toNat + msTicks 1 ≤ m.now then
    let f := helloFrame m
    let m := (m.send (.frame 0 f)).send (.frame 1 f)
    timePort (m.onFjl fun j =>
      { j with helloAt := m.clk.tick,
               routes := keepRoutes (j.routes.map fun r =>
                 (r.1, { r.2 with up := ageHop m.now r.2.up, down := ageHop m.now r.2.down })) })
  else m

/-- A HELLO with this node's own address and another unit ID has been seen within 3 ms. -/
def dupSeen (m : Mach) : Bool :=
  match m.fjl.dupAt with | some t => m.now ≤ t.toNat + msTicks 3 | none => false

/-- Learns the way to a node by a port. -/
def learn (p : Nat) (f : Frame) (m : Mach) : Mach :=
  let h : Option Hop := some { hops := 255 - f.hops, at_ := m.clk.tick }
  let tm := f.body.getD 3 0 != 0
  m.onFjl fun j =>
    let r := tget {} f.src j.routes
    { j with routes := tput f.src (if p = 0 then { r with up := h, master := tm } else { r with down := h, master := tm })
               j.routes }

/-- HELLO_FRAME (R380): it teaches a route and is forwarded; this node's own comes to an end here. -/
def opHelloFrame (p : Nat) (f : Frame) (good : Bool) (m : Mach) : Mach :=
  if !m.on R.FJL_CTL_EN then m
  else if !good then badCrc p m
  else if f.src == ownAddr m then
    let mineUid := f.body.getD 1 0 == Config.unitId.truncate 32 && f.body.getD 2 0 == (Config.unitId >>> 32).truncate 32
    if mineUid then m
    else
      let seen := dupSeen m
      let m := m.onFjl fun j => { j with dupAt := some m.clk.tick }
      when (!seen) (raise (0x200 + p) 0x0A 2) m
  else
    let m := when (0 < f.hops) (frameTx (1 - p) { f with hops := f.hops - 1 }) m
    timePort (learn p f m)

/-! ## Time transfer (R382, R383) -/

/-- TOFF. -/
def toff (m : Mach) : Nat := m.get R.FJL_TOFF_LO_TOFF + m.get R.FJL_TOFF_HI_TOFF * 2 ^ 32

/-- Sets TOFF, modulo 2^64. -/
def setToff (v : Int) (m : Mach) : Mach :=
  let n := uint 64 v
  (m.set R.FJL_TOFF_LO_TOFF n).set R.FJL_TOFF_HI_TOFF (n / 2 ^ 32)

/-- Domain time in TICK. -/
def domainNow (m : Mach) : Nat := (m.now + toff m) % 2 ^ 64

/-- Local TICK of a domain time. -/
def localOf (t : Nat) (m : Mach) : Nat := (t + 2 ^ 64 - toff m) % 2 ^ 64

/-- A stamp: domain time in 1/64 TICK, `sub` of them into the present TICK. -/
def stampNow (sub : Nat) (m : Mach) : Nat := domainNow m * 64 + sub % 64

/-- Three words of a stamp, and back. -/
def stampWords (t : Nat) : List Word := [BitVec.ofNat 32 t, BitVec.ofNat 32 (t / 2 ^ 32), BitVec.ofNat 32 (t / 2 ^ 64)]
def stampAt (b : List Word) (i : Nat) : Nat :=
  (b.getD i 0).toNat + (b.getD (i + 1) 0).toNat * 2 ^ 32 + (b.getD (i + 2) 0).toNat * 2 ^ 64

/-- A time frame to the neighbour. -/
def timeFrame (typ : Nat) (body : List Word) (m : Mach) : Frame :=
  { cls := 1, grp := false, bc := false, typ := typ, hops := 0, dst := 0, src := ownAddr m, lseq := 0, body := body }

/-- TIME_EXCHANGE_TIMER (R382): the request goes out, stamped `sub` 1/64 TICK into the present TICK. -/
def opTimeExchangeTimer (sub : Nat) (m : Mach) : Mach :=
  let tp := m.get R.FJL_PSTAT_TPORT
  if m.on R.FJL_CTL_EN && 0 < tp && m.fjl.reqAt.toNat + syncPeriod m ≤ m.now then
    let t1 := stampNow sub m
    frameTx (tp - 1) (timeFrame 0 (stampWords t1) m) (m.onFjl fun f => { f with t1 := some t1, reqAt := m.clk.tick })
  else m

/-- TIME_REQUEST_FRAME (R382): it arrives `sub` 1/64 TICK into the present TICK and is answered `turn` later. -/
def opTimeRequestFrame (p : Nat) (f : Frame) (good : Bool) (sub turn : Nat) (m : Mach) : Mach :=
  frameIn p f good (fun m =>
    let t2 := stampNow sub m
    frameTx p (timeFrame 1 (f.body.take 3 ++ stampWords t2 ++ stampWords (t2 + turn)) m) m) m

/-- Pulls domain time by TRIM, so that theta decays with a time constant of 8 exchanges, at no more than 100 ppm
(R383, log entry 31). -/
def pull (theta : Int) (m : Mach) : Mach :=
  let q := m.roundFree (theta * 2 ^ 32) (512 * syncPeriod m)
  trimTo (clampI (-429496) 429496 q.1) q.2

/-- Size of theta above 1 us, in 1/64 TICK. -/
def beyondUs (theta : Int) : Bool := 6400 < theta.natAbs

/-- One exchange in ACQUIRE (Table 14.2). -/
def acquireStep (theta : Int) (m : Mach) : Mach :=
  let ns := theta.natAbs * 10 ≤ m.get R.FJL_TWIN * 64
  let m := m.onFjl fun f => { f with acq := f.acq + 1, within := if ns then f.within + 1 else 0 }
  if 16 ≤ m.fjl.within then pull theta (setTime tTrack m)
  else if m.fjl.acq < 4 || m.fjl.toffSet then when (m.fjl.toffSet) (pull theta) m
  else if countIn (·.engaged) m = 0 then
    let q := m.roundFree (2 * theta + 64 - (if (2 * theta) % 128 = 64 then 64 else (2 * theta + 64) % 128)) 128
    let m := (setToff ((toff m : Int) + q.1) q.2).onFjl fun f => { f with toffSet := true }
    pull (theta - 64 * q.1) m
  else if beyondUs theta then
    when (!m.fjl.offSent) (fun m => raise 0x202 0x04 2 (m.onFjl fun f => { f with offSent := true })) m
  else pull theta m

/-- TIME_REPLY_FRAME (R382, R383): the reply arrives `sub` 1/64 TICK into the present TICK. -/
def opTimeReplyFrame (p : Nat) (f : Frame) (good : Bool) (sub : Nat) (m : Mach) : Mach :=
  frameIn p f good (fun m =>
    let t1 := stampAt f.body 0
    if m.fjl.t1 != some t1 || m.get R.FJL_PSTAT_TPORT != p + 1 then m
    else
      let t4 := stampNow sub m
      let d (a b : Nat) : Int := sint 70 ((a + 2 ^ 70 - b % 2 ^ 70) % 2 ^ 70)
      let q := m.roundFree (d (stampAt f.body 3) t1 - d t4 (stampAt f.body 6)) 2
      let theta := q.1
      let m := (q.2.setI R.FJL_THETA theta).onFjl fun j => { j with t1 := none, exAt := m.clk.tick }
      match m.get R.FJL_PSTAT_TSTATE with
      | 2 => acquireStep theta m
      | 3 => pull theta m
      | 4 => if beyondUs theta then acquireStep theta (enterAcquire m) else pull theta (setTime tTrack m)
      | _ => m) m

/-- TIME_HOLDOVER_TIMEOUT (R383): no valid exchange for 8 periods. -/
def opTimeHoldoverTimeout (m : Mach) : Mach :=
  if m.get R.FJL_PSTAT_TSTATE = tTrack && m.fjl.exAt.toNat + 8 * syncPeriod m ≤ m.now then enterHoldover m else m

/-- GROUP_TIME_TIMEOUT (R383): a group slave has been in HOLDOVER for GHOLD ms. -/
def opGroupTimeTimeout (m : Mach) : Mach :=
  if m.get R.FJL_PSTAT_TSTATE = tHoldover && groupRole m = 2 && !m.fjl.gtSent
      && m.fjl.holdAt.toNat + msTicks (m.get R.FJL_TWIN_GHOLD) ≤ m.now then
    raise 0x202 0x03 2 (m.onFjl fun f => { f with gtSent := true })
  else m

/-! ## Scheduled events (R384) -/

/-- The 64-bit number of two payload words. -/
def pairAt (b : List Word) (i : Nat) : Nat := (b.getD i 0).toNat + (b.getD (i + 1) 0).toNat * 2 ^ 32

/-- USER_FRAME (R384): scheduled for its domain time, or discarded as late. Payload: code, value, domain time. -/
def opUserFrame (p : Nat) (f : Frame) (good : Bool) (m : Mach) : Mach :=
  frameIn p f good (fun m =>
    let due := pairAt f.body 3
    if localOf due m < m.now then raise 0x202 0x0B 0 m
    else m.onFjl fun j =>
      { j with users := j.users ++ [{ due := due, code := (f.body.getD 0 0).toNat % 65536,
                                      value := BitVec.ofNat 64 (pairAt f.body 1) }] }) m

/-- The earliest of the USER events that wait. -/
def userFirst (m : Mach) : Option UserEv :=
  m.fjl.users.foldl (fun best u => match best with
    | none => some u
    | some b => if localOf u.due m < localOf b.due m then some u else best) none

/-- USER_EVENT_DUE (R384). -/
def opUserEventDue (m : Mach) : Mach :=
  match userFirst m with
  | none => m
  | some u =>
    if localOf u.due m ≤ m.now then
      let m := m.onFjl fun j => { j with users := j.users.erase u }
      let m := ((m.set (R.FJL_EVDATA_VAL 0) u.value.toNat).set (R.FJL_EVDATA_VAL 1) (u.value.toNat / 2 ^ 32)).set
        R.FJL_EVCODE_CODE u.code
      assertEvent 0x201 m
    else m

/-! ## Press groups (R385-R387) -/

/-- Local catch time of a catch-table entry. -/
def tableT (e : Nat) (m : Mach) : Nat := m.get (R.FJL_CTAB_T_LO_T e) + m.get (R.FJL_CTAB_T_HI_T e) * 2 ^ 32

/-- Of some entries, the one with the earliest T. -/
def earliestOf (es : List Nat) (m : Mach) : Option Nat :=
  es.foldl (fun best e => match best with
    | none => some e
    | some b => if tableT e m < tableT b m then some e else best) none

/-- The entry that a CATCH for a SID goes to (R385, R403): its own, an empty one, the earliest that has passed, or
the earliest. -/
def tableSlot (sid : Nat) (m : Mach) : Nat :=
  let all := List.range 64
  match all.find? fun e => m.on (R.FJL_CTAB_VALID e) && m.get (R.FJL_CTAB_SID e) == sid with
  | some e => e
  | none => match all.find? fun e => !m.on (R.FJL_CTAB_VALID e) with
    | some e => e
    | none => match earliestOf (all.filter fun e => tableT e m ≤ m.now) m with
      | some e => e
      | none => (earliestOf all m).getD 0

/-- CATCH_FRAME (R385): a slave enters the catch. Payload: SID, domain T. -/
def opCatchFrame (p : Nat) (f : Frame) (good : Bool) (m : Mach) : Mach :=
  frameIn p f good (fun m =>
    if groupRole m != 2 then m
    else
      let t := localOf (pairAt f.body 1) m
      if t < m.now then raise 0x202 0x0B 0 m
      else
        let sid := (f.body.getD 0 0).toNat % 2 ^ 24
        let e := tableSlot sid m
        let m := (((m.set (R.FJL_CTAB_SID e) sid).set (R.FJL_CTAB_VALID e) 1).set (R.FJL_CTAB_T_LO_T e) t).set
          (R.FJL_CTAB_T_HI_T e) (t / 2 ^ 32)
        assertEvent 0x200 (m.onFjl fun j => { j with armChecked := clrBit j.armChecked e })) m

/-- A fault that a group frame raises (Table 14.3). -/
def groupFault (kind cls : Nat) (sid : Sid) (m : Mach) : Mach :=
  deliver { src := 0x203, kind := kind, cls := cls, sid := sid, fromGroup := true } m

/-- Identifier in a frame's first payload word. -/
def frameSid (f : Frame) : Sid := (f.body.getD 0 0).truncate 24

/-- CANCEL_FRAME (R384, Table 14.3). -/
def opCancelFrame (p : Nat) (f : Frame) (good : Bool) (m : Mach) : Mach :=
  frameIn p f good (fun m => if groupRole m = 0 then m else groupFault 0x05 1 (frameSid f) m) m

/-- MISS_FRAME (R384): the group master raises group-miss. -/
def opMissFrame (p : Nat) (f : Frame) (good : Bool) (m : Mach) : Mach :=
  frameIn p f good (fun m => if groupRole m = 1 then groupFault 0x06 1 (frameSid f) m else m) m

/-- SPOIL_FRAME (R386). -/
def opSpoilFrame (p : Nat) (f : Frame) (good : Bool) (m : Mach) : Mach :=
  frameIn p f good (fun m => if groupRole m = 0 then m else groupFault 0x07 1 (frameSid f) m) m

/-- STOP_FRAME (R386). -/
def opStopFrame (p : Nat) (f : Frame) (good : Bool) (m : Mach) : Mach :=
  frameIn p f good (fun m => if groupRole m = 0 then m else groupFault 0x08 3 0 m) m

/-- The members of the group that this node listens for (R387): the master its slaves, a slave the master. -/
def counterparts (m : Mach) : List Nat :=
  let all := (List.range (m.get R.FJL_GRP_NMEM + 1)).map fun k => m.get (R.FJL_GMEM_ADDR k)
  match groupRole m with
  | 1 => all.filter fun a => a != ownAddr m && a != 0
  | 2 => all.take 1
  | _ => []

/-- A HEART to one node. -/
def heartTo (node : Nat) (m : Mach) : Frame :=
  { groupFrame 6 [] m with grp := false, dst := node }

/-- HEART_FRAME (R387): a slave answers the master's. -/
def opHeartFrame (p : Nat) (f : Frame) (good : Bool) (m : Mach) : Mach :=
  frameIn p f good (fun m =>
    if (counterparts m).contains f.src then
      let m := m.onFjl fun j => { j with hearts := tput f.src m.clk.tick j.hearts, lost := tdel f.src j.lost }
      when (groupRole m = 2) (fun m => frameSend (heartTo f.src m) m) m
    else m) m

/-- HEART_TIMER (R387). -/
def opHeartTimer (m : Mach) : Mach :=
  if groupRole m = 1 && m.fjl.heartAt.toNat + msTicks 1 ≤ m.now then
    frameSend (groupFrame 6 [] m) (m.onFjl fun j => { j with heartAt := m.clk.tick })
  else m

/-- MEMBER_LOST_TIMEOUT (R387): nothing heard from a counterpart for 10 ms. -/
def opMemberLostTimeout (node : Nat) (m : Mach) : Mach :=
  if (counterparts m).contains node && !tget false node m.fjl.lost
      && (tget m.fjl.enAt node m.fjl.hearts).toNat + msTicks 10 ≤ m.now then
    raise 0x203 0x09 2 (m.onFjl fun j => { j with lost := tput node true j.lost })
  else m

/-- The domain time a CATCH carries: the local T on this node's domain time, and TANDOFF later in heritage tandem
(R385, R391). -/
def catchDomain (t : Nat) (m : Mach) : Nat :=
  uint 64 ((t : Int) + toff m + if m.get R.FJL_GRP_MODE = 3 then m.getI R.FJL_TANDOFF_OFF else 0)

/-- A write of 1 to GCGO.GO (R385). -/
def gcGo (q : Nat) (m : Mach) : Mach :=
  let res (c : Nat) (m : Mach) : Mach := m.setOwn q R.FJL_GCRES_CODE.key (BitVec.ofNat 32 c)
  let t := m.get (R.FJL_GCATCH_T 0) + m.get (R.FJL_GCATCH_T 1) * 2 ^ 32
  let sid : Sid := BitVec.ofNat 24 (m.get R.FJL_GCATCH_SID)
  if t < m.now + clampN 100000 100000000 (m.get R.FJL_GLEAD) then res 1 m
  else if groupRole m != 1 then res 2 m
  else
    let d := catchDomain t m
    let body : List Word := [BitVec.ofNat 32 sid.toNat, BitVec.ofNat 32 d, BitVec.ofNat 32 (d / 2 ^ 32)]
    let m := m.onFjl fun f => { f with sched := sid :: f.sched.filter (· != sid) }
    res 0 (frameSend (groupFrame 1 body m) m)

/-- GCGO (R385). -/
def opGcgo (q : Requester) (m : Mach) : Mach := guarded q false R.FJL_GCGO_GO.key (gcGo (Requester.id q)) m

/-! ## Register writes -/

/-- The arrangement that a write of FJL_CTL with EN = 1 needs (R380, R389, R391). -/
def fjlSound (v : Word) (m : Mach) : Bool :=
  let mode := m.get R.FJL_GRP_MODE
  let role := m.get R.FJL_GRP_ROLE
  let ovl := m.get R.FJL_STITCH_OVL
  ownAddr m != 0
    && (mode != 1 || (ovl ≤ 1024 && ovl % 8 == 0))
    && (mode != 3 || (m.get R.FJL_GRP_NMEM == 1 && m.get (R.FJL_GMEM_ADDR 0) == 1 && m.get (R.FJL_GMEM_ADDR 1) == 2
          && R.FJL_CTL_RING.of v == 0 && ((role == 1 && ownAddr m == 1) || (role == 2 && ownAddr m == 2))))

/-- Fjarilink starts: ports down, nothing learned, the time discipline in MASTER or ACQUIRE. -/
def fjlStart (m : Mach) : Mach :=
  let t := m.clk.tick
  let m := m.onFjl fun f =>
    { sched := f.sched, lseq0 := f.lseq0, lseq1 := f.lseq1, enAt := t, helloAt := t, heartAt := t, reqAt := t }
  if m.on R.FJL_CTL_TMASTER then timePort (setTime tMaster (setToff 0 m)) else timePort (enterAcquire m)

/-- Fjarilink stops. -/
def fjlStop (m : Mach) : Mach :=
  let m := (setPort 0 false (setPort 1 false m)).onFjl fun f => { sched := f.sched, lseq0 := f.lseq0, lseq1 := f.lseq1 }
  setTime tOff ((m.set R.FJL_PSTAT_TPORT 0).set R.FJL_PSTAT_TMADDR 0)

/-- A write of FJL_CTL: EN = 1 with an arrangement that the rules forbid is ignored with a note. -/
def fjlCtlWrite (v : Word) (m : Mach) : Mach :=
  let was := m.on R.FJL_CTL_EN
  let en := R.FJL_CTL_EN.of v == 1
  if en && !was && !fjlSound v m then ignored R.FJL_CTL_EN.key m
  else
    let m := storeFields R.FJL_CTL_EN.key v m
    when (was && !en) fjlStop (when (en && !was) fjlStart m)

/-- A write to a register of block FJL. -/
def fjlWrite (q key : Nat) (v : Word) (m : Mach) : Mach :=
  if key = R.FJL_CTL_EN.key then fjlCtlWrite v m
  else if key = R.FJL_GCATCH_SID.key then m.set R.FJL_GCATCH_SID (R.FJL_GCATCH_SID.of v)
  else if key = (R.FJL_GCATCH_T 0).key || key = (R.FJL_GCATCH_T 1).key then m.setWord key v
  else if key = R.FJL_GCGO_GO.key then when (R.FJL_GCGO_GO.of v == 1) (gcGo q) m
  else storeFields key v m

end Sys2Proof.Machine
end

