-- ==== Sys2Proof/Machine/Boot.lean ====
section
/-! DEFINITION. The boot hand-off (R103, R104): the envelope (R366-R368), the image checks (R396, R397), the
measurement slots (R393), the resident loader's start (R399, R402), and the reset that all of it follows. -/

namespace Sys2Proof.Machine

/-! ## Bytes of a record -/

/-- n bytes from an offset. -/
def bytesAt (b : List Byte) (off n : Nat) : List Byte := (b.drop off).take n

/-- The little-endian number of n bytes at an offset. -/
def leAt (b : List Byte) (off n : Nat) : Nat := leNat (bytesAt b off n)

/-- n bytes at an offset are all zero. -/
def zeroAt (b : List Byte) (off n : Nat) : Bool := (bytesAt b off n).all (· == 0)

/-- A key hash of OTP is programmed and is the SHA-256 of this public key (Tables 13.8 and 14.8). -/
def keyOk (k : Nat) (pub : List Byte) (m : Mach) : Bool :=
  let h := m.sec.keys.getD k []
  !h.isEmpty && h == sha256 pub

/-! ## The envelope (R366-R368) -/

/-- Flash offsets of copies A and B. -/
def envAt (c : Nat) : Nat := 0x8000 + 0x1000 * c

/-- Every field of an envelope record lies within its range, and every zero field is zero (Table 13.7). -/
def envRanges (b : List Byte) : Bool :=
  1 ≤ leAt b 0x018 4 && leAt b 0x018 4 ≤ 62362 && zeroAt b 0x014 4 && zeroAt b 0x01C 4
    && ((List.range 5).all fun s => zeroAt b (0x02A + 0x10 * s) 2 && zeroAt b (0x02C + 0x10 * s) 4)
    && ((List.range 80).all fun l => leAt b (0x070 + 2 * l) 2 ≤ 1023)
    && ((List.range 5).all fun n => leAt b (0x110 + 0x10 * n) 4 ≤ 768000 && zeroAt b (0x118 + 0x10 * n) 8)
    && zeroAt b 0x1B4 12 && ((List.range 24).all fun h => zeroAt b (0x1C6 + 8 * h) 2)
    && leAt b 0x288 4 ≤ 131072 && ((List.range 4).all fun z => leAt b (0x28C + z) 1 ≤ 7)
    && zeroAt b 0x298 8 && zeroAt b 0x3B0 16

/-- The first check of Table 13.8 that an envelope record fails; 0 when it is accepted. -/
def envReason (m : Mach) (b : List Byte) : Nat :=
  if leAt b 0x000 4 != 0x31564E45 then 1
  else if leAt b 0x004 4 != 1 || leAt b 0x010 4 != 0x440 then 2
  else if leAt b 0x008 4 != m.part.typeId then 3
  else if !keyOk 0 (bytesAt b 0x3C0 64) m then 4
  else if !ecdsaOk (bytesAt b 0x3C0 64) (bytesAt b 0x400 64) (bytesAt b 0 0x400) then 5
  else if !envRanges b then 6
  else 0

/-! ## Measurement slots (R393) -/

/-- Sets measurement slot i. -/
def setMeas (i : Nat) (h : List Byte) (m : Mach) : Mach :=
  each (List.range 8) (fun j m => m.setWord (R.SEC_MEAS_HASH i j).key (BitVec.ofNat 32 (leAt h (4 * j) 4))) m

/-- The 32 bytes of measurement slot i. -/
def measBytes (i : Nat) (m : Mach) : List Byte :=
  (List.range 8).flatMap fun j => leBytes 4 (m.word (R.SEC_MEAS_HASH i j).key).toNat

/-- The supervisor has written a measured memory by another path than LOAD: a slot that holds a measurement reads all
ones from then on. -/
def measSpoil (i : Nat) (m : Mach) : Mach :=
  if (measBytes i m).all (· == 0) then m
  else each (List.range 8) (fun j m => m.setWord (R.SEC_MEAS_HASH i j).key (BitVec.allOnes 32)) m

/-- Loads the guards from the accepted envelope, or with zeros, and seals them (R367, R368). -/
def envLoad (mem : Mem) (m : Mach) : Mach :=
  let a := mem.flashBytes (envAt 0) 0x440
  let b := mem.flashBytes (envAt 1) 0x440
  let ra := envReason m a
  let rb := envReason m b
  let pick := if ra = 0 && (rb != 0 || leAt b 0x00C 4 ≤ leAt a 0x00C 4) then 1 else if rb = 0 then 2 else 0
  let r := if pick = 1 then a else b
  let m := (((m.set R.ENV_STAT_REASONA ra).set R.ENV_STAT_REASONB rb).set R.ENV_STAT_COPY pick).set R.ENV_STAT_VALID
    (b2n (pick != 0))
  let m := if pick = 0 then m
    else setMeas 1 (sha256 r) (each (List.range 256) (fun i m =>
      m.setWord (R.ENV_GUARD i).key (BitVec.ofNat 32 (leAt r (4 * i) 4))) (m.set R.ENV_SEQ (leAt r 0x00C 4)))
  let m := m.set R.ENV_STAT_SEALED 1
  if pick = 0 then raise 0x050 0x01 4 m else m

/-! ## Images (R396, R397) -/

/-- Flash offset of the running-image slot (Table 14.6). -/
def slotAt : Nat := 0x100000

/-- LENGTH of an image header. -/
def imgLength (h : List Byte) : Nat := leAt h 0x020 4

/-- The first of checks 1-7 that a header fails (Table 14.8); 0 when it passes them. -/
def headerReason (kind : Nat) (m : Mach) (h : List Byte) : Nat :=
  let len := imgLength h
  let n := leAt h 0x018 4
  if leAt h 0 4 != 0x4D495548 || leAt h 4 4 != 1 || len < 0x400 || 0x400000 < len || !zeroAt h 0x024 4
      || !zeroAt h 0x3A0 0x60 then 1
  else if leAt h 8 4 != kind then 2
  else if leAt h 0x00C 4 != m.part.typeId then 3
  else if n != 0 && !((List.range (min n 64)).any fun i => leAt h (0x100 + 8 * i) 8 == Config.unitId.toNat) then 4
  else if leAt h 0x014 4 < m.sec.rollback then 5
  else if !keyOk 1 (bytesAt h 0x320 64) m then 6
  else if !ecdsaOk (bytesAt h 0x320 64) (bytesAt h 0x360 64) (bytesAt h 0 0x360) then 7
  else 0

/-- The first check of Table 14.8 that the image at a flash offset fails. -/
def imageReason (kind at_ : Nat) (m : Mach) (mem : Mem) : Nat :=
  let h := mem.flashBytes at_ 0x400
  let r := headerReason kind m h
  if r != 0 then r
  else if sha256 (mem.flashBytes (at_ + 0x400) (imgLength h - 0x400)) != bytesAt h 0x300 32 then 8
  else 0

/-- The section of an image for a target: offset in the image, size and entry. -/
def sectionOf (h : List Byte) (target : Nat) : Option (Nat × Nat × Nat) :=
  ((List.range (min 12 (leAt h 0x01C 4))).find? fun k => leAt h (0x040 + 16 * k) 4 % 16 == target).map fun k =>
    (leAt h (0x044 + 16 * k) 4, leAt h (0x048 + 16 * k) 4, leAt h (0x04C + 16 * k) 4)

/-- IMGID: the first 8 bytes of the SHA-256 of an image's header (R398). -/
def imgId (h : List Byte) : Nat := leNat ((sha256 h).take 8)

/-- image-invalid (R406), with REASON. -/
def imageInvalid (reason : Nat) (m : Mach) : Mach := note 0x210 0x01 reason (m.set R.SEC_STAT_REASON reason)

/-! ## The update record and the loader (R399, R402) -/

/-- Flash offset of the update record. The model keeps the header's SHA-256 in its first 32 bytes and up to three
sources in the next three, 0 for none; an erased record is no record (log entry 32). -/
def updAt : Nat := 0xA000

/-- The update record, if there is one: the hash, and the sources in order. One that names no source acts as the
order upstream, downstream, host (R402). -/
def updRecord (mem : Mem) : Option (List Byte × List Nat) :=
  let b := mem.flashBytes updAt 35
  if b.all (· == 0xFF) then none
  else
    let o := ((bytesAt b 32 3).map (·.toNat)).filter fun s => 1 ≤ s && s ≤ 3
    some (b.take 32, if o.isEmpty then [1, 2, 3] else o)

/-- The resident loader begins (R399 step 3): the slot is erased and the first source asked. -/
def loaderStart (m : Mach) (mem : Mem) : Mach × Mem :=
  let l : Loader := match updRecord mem with
    | some (h, o) => { want := some h, order := o, since := m.clk.tick }
    | none => { order := [1, 2], since := m.clk.tick }
  ({ m with sec := { m.sec with loader := some l } },
   { mem with flash := cellsClear slotAt (slotAt + 0x400000) mem.flash })

/-! ## The boot ROM -/

/-- Context 0 of the supervisor runs from an address at priority 3 (R103); bits [1:0] of a PC are always 0 (R107). -/
def supAt (pc : Nat) (m : Mach) : Mach := m.setCtx 32 { pc := BitVec.ofNat 32 (pc / 4 * 4), state := .running, prio := 3 }

/-- Starts a checked image (R103 step 5): its supervisor section is copied and measured, the ROM sealed, and context 0
jumps to the entry point. -/
def imageStart (at_ : Nat) (m : Mach) (mem : Mem) : Mach × Mem :=
  let h := mem.flashBytes at_ 0x400
  let sc := (sectionOf h 0).getD (0x400, 0, 0x10000000)
  let bs := mem.flashBytes (at_ + sc.1) (min sc.2.1 0x40000)
  let m := setMeas 2 (sha256 bs) m
  let m := supAt sc.2.2 { m with cox := { m.cox with romSealed := true } }
  (m, mem.wrBytes 0x10000000 bs)

/-- Slots of the last-words sector that are not erased (Table 12.7). -/
def lwUsed (m : Mach) (mem : Mem) : Nat :=
  ((List.range 16).filter fun i => mem.flashBytes (m.get R.PWR_LWADDR_ADDR * 4096 + 256 * i) 4 != [0xFF, 0xFF, 0xFF, 0xFF]).length

/-- The TCMs and the supervisor's memory read as zero (R103 step 2). -/
def tcmClear (mem : Mem) : Mem :=
  { mem with ram := cellsClear 0x20000000 0x20800000 (cellsClear 0x10000000 0x10040000 mem.ram) }

/-- The boot ROM runs (R103 steps 2-5). -/
def bootRun (m : Mach) (mem : Mem) : Mach × Mem :=
  let mem := tcmClear mem
  let m := m.set R.PWR_LWSTAT_USED (lwUsed m mem)
  let m := setMeas 0 (sha256 ((List.range 0x20000).map Config.bootRom)) m
  let m := envLoad mem m
  let r := imageReason 1 slotAt m mem
  if r = 0 && (updRecord mem).isNone then
    let x := imageStart slotAt m mem
    ({ x.1 with sec := { x.1.sec with running := leAt (mem.flashBytes slotAt 0x400) 0x014 4 } }, x.2)
  else
    let m := when (r != 0) (imageInvalid r) m
    let l := imageReason 2 0 m mem
    if l = 0 then
      let x := imageStart 0 (m.set R.SEC_STAT_LDR 1) mem
      loaderStart x.1 x.2
    else (imageInvalid l (m.setCtx 32 {}), mem)

/-! ## Reset -/

/-- Everything that a reset leaves: the part, OTP, the levels at the balls, and what has left the block. -/
def afterReset (m : Mach) : Mach :=
  { part := m.part, fresh := m.fresh, sent := m.sent, sec := { keys := m.sec.keys, rollback := m.sec.rollback },
    pwr := { acOk := m.pwr.acOk }, hif := { perst := m.hif.perst } }

/-- The snapshot banks are as before a first capture (R45). -/
def bankClear (mem : Mem) : Mem := { mem with ram := cellsClear 0x307F0000 0x30800000 mem.ram }

/-- A start from cold (R103, R344, R346): everything at reset, the cause in RSTCAUSE, then the boot ROM. -/
def coldStart (cause : FRef) (m : Mach) (mem : Mem) : Mach × Mem :=
  let full := m.pwr.lwFull
  let m := ((afterReset m).set R.SYS_RSTCAUSE_PIN 0).set cause 1
  let m := when full (fun m => m.set R.PWR_LWSTAT_FULL 1) m
  bootRun m (bankClear mem)

/-- RESET (R103, R351): RST_N rises. -/
def opReset (m : Mach) (mem : Mem) : Mach × Mem := coldStart R.SYS_RSTCAUSE_PIN { m with pwr := { m.pwr with lwFull := false } } mem

/-- RESET_ASSERTED (R279, R344): RST_N falls; the device is at its reset values and no context runs. -/
def opResetAsserted (m : Mach) : Mach :=
  (afterReset m).setCtx 32 {}

end Sys2Proof.Machine
end

