-- ==== Sys2Proof/Machine/Rails.lean ====
section
/-! DEFINITION. The rail sequencer (R339-R343), the loss of AC_OK with its last words (R344, R345), and the software
reset (R346). -/

namespace Sys2Proof.Machine

/-- SEQSTAT.STATE (Table 12.7). -/
def seqOff : Nat := 0
def seqUp : Nat := 1
def seqOn : Nat := 2
def seqDown : Nat := 3
def seqLatched : Nat := 4

/-- 100 us in TICK. -/
def railUnit : Nat := 10000

/-- Changes the power system's unseen state. -/
def Mach.onPwr (m : Mach) (f : Power → Power) : Mach := { m with pwr := f m.pwr }

/-- The enabled slots in ascending ORDER, equal ones in ascending number (R340). -/
def railOrder (m : Mach) : List Nat :=
  (List.range 16).flatMap fun o => (List.range 16).filter fun n => m.on (R.PWR_RAILCFG_EN n) && m.get (R.PWR_RAILCFG_ORDER n) == o

/-- A slot's PGSRC as it acts: 3 acts as 2. -/
def pgSrc (n : Nat) (m : Mach) : Nat := min 2 (m.get (R.PWR_RAILCFG_PGSRC n))

/-- A PMBus command to the slave of a slot, on the slot's port (R339). -/
def pmbMsg (m : Mach) (n cmd data : Nat) : Sent :=
  let p := m.get (R.PWR_RAILCFG_PORT n)
  .pmbus p (m.get (R.PWR_RAILCFG_ADDR n)) (bitOf (m.get R.PWR_ACCFG_PMBSPD) p) (m.on (R.PWR_RAILCFG_PEC n)) cmd data

/-- Sends PAGE, then a command (Table 12.2). -/
def pmbPut (n cmd data : Nat) (m : Mach) : Mach :=
  (m.send (pmbMsg m n 0x00 (m.get (R.PWR_RAILCFG_PAGE n)))).send (pmbMsg m n cmd data)

/-- Starts a PMBus transaction with a slot. -/
def pmbSend (n cmd data : Nat) (m : Mach) : Mach :=
  pmbPut n cmd data (m.onPwr fun p => { p with pmb := tput n (cmd, data, 0) p.pmb })

/-- Sets a slot's power-good as SEQSTAT and RAILSTAT show it. -/
def setPg (n : Nat) (v : Bool) (m : Mach) : Mach :=
  let pg := m.get R.PWR_SEQSTAT_PG
  (m.set R.PWR_SEQSTAT_PG (if v then setBit pg n else clrBit pg n)).set (R.PWR_RAILSTAT_PG n) (b2n v)

/-- Switches a rail on (R340 step 1). -/
def railOn (n : Nat) (m : Mach) : Mach :=
  let m := m.set (R.PWR_RAILSTAT_ENOUT n) 1
  when (m.on (R.PWR_RAILCFG_KIND n)) (fun m =>
    pmbSend n 0x01 0x80 (pmbPut n 0x03 0 m)) m

/-- Switches a rail off (R341 step 1). -/
def railOff (n : Nat) (m : Mach) : Mach :=
  let m := m.set (R.PWR_RAILSTAT_ENOUT n) 0
  when (m.on (R.PWR_RAILCFG_KIND n)) (pmbSend n 0x01 (if m.on (R.PWR_RAILCFG_SOFT n) then 0x40 else 0)) m

/-- The present slot of the running sequence. -/
def railSlot (m : Mach) : Nat := m.get R.PWR_SEQSTAT_SLOT

/-- The sequence turns to a slot: its first wait begins now. -/
def railWait (n : Nat) (m : Mach) : Mach :=
  (m.set R.PWR_SEQSTAT_SLOT n).onPwr fun p => { p with railAt := m.clk.tick, inDelay := false }

/-- The present slot's delay begins. -/
def railDelay (m : Mach) : Mach := m.onPwr fun p => { p with railAt := m.clk.tick, inDelay := true }

/-- A wait for RAIL_PGn is over at once when the input has the level it waits for (R340, R341, Table 12.4). -/
def pinReady (want : Bool) (n : Nat) (m : Mach) : Mach :=
  if pgSrc n m = 0 && m.on (R.PWR_RAILSTAT_PG n) == want then railDelay m else m

/-- Step 5 of R344: every domain but AON goes down, and no hold is honoured. -/
def domainsOff (m : Mach) : Mach :=
  each [11, 10, 9, 8, 7, 6, 5, 4, 3, 2, 1] (fun d m =>
    let m := abortHold d m
    if domUp d m then domDown d m else m) m

/-- What follows the end of a down sequence (R344 steps 5 and 6, R346). -/
def afterDown (m : Mach) : Mach :=
  match m.pwr.after with
  | 1 => (domainsOff m).onPwr fun p => { p with after := 0, offAt := some m.clk.tick }
  | 2 => (domainsOff m).onPwr fun p => { p with after := 0, restart := true }
  | _ => m

/-- The down sequence reaches its end (R341). -/
def downEnd (m : Mach) : Mach :=
  let m := m.set R.PWR_SEQSTAT_STATE (if m.get R.PWR_FAIL_LATCH = 0 then seqOff else seqLatched)
  afterDown ((m.set R.PWR_SEQSTAT_SLOT 31).onPwr fun p => { p with slots := [], inDelay := false })

/-- The down sequence goes on with the slots of a list: one that has FAILED is switched off without a wait. -/
def downRun : List Nat → Mach → Mach
  | [], m => downEnd m
  | n :: ns, m =>
    let m := railOff n m
    if m.on (R.PWR_RAILSTAT_FAILED n) then downRun ns m
    else pinReady false n (railWait n (m.onPwr fun p => { p with slots := ns }))

/-- The down sequence starts over some slots, given in ascending order. -/
def downStart (ns : List Nat) (m : Mach) : Mach := downRun ns.reverse (m.set R.PWR_SEQSTAT_STATE seqDown)

/-- The up sequence goes on with the slots of a list (R340). -/
def upRun (ns : List Nat) (m : Mach) : Mach :=
  match ns with
  | [] =>
    assertEvent 0x020 (((m.set R.PWR_SEQSTAT_STATE seqOn).set R.PWR_SEQSTAT_SLOT 31).onPwr fun p =>
      { p with slots := [], inDelay := false })
  | n :: ns => pinReady true n (railWait n (railOn n (m.onPwr fun p => { p with slots := ns })))

/-- The up sequence starts; the discharge records of the latest down sequence go. -/
def upStart (m : Mach) : Mach :=
  let m := each (List.range 16) (fun n m => m.set (R.PWR_RAILSTAT_DISTO n) 0) (m.set R.PWR_FAIL_DTO 0)
  upRun (railOrder m) (m.set R.PWR_SEQSTAT_STATE seqUp)

/-- A slot has failed (R342). -/
def markFailed (n : Nat) (m : Mach) : Mach :=
  (m.set (R.PWR_RAILSTAT_FAILED n) 1).set R.PWR_FAIL_LATCH (setBit (m.get R.PWR_FAIL_LATCH) n)

/-- A slot fails in the up sequence: rail-up-fail, and the down sequence over every slot. -/
def upFail (n : Nat) (m : Mach) : Mach :=
  let m := raise 0x021 0x03 3 (markFailed n m) 0 n
  downStart (railOrder m) (assertEvent 0x021 m)

/-- A slot is lost in state ON: rail-lost, and the down sequence if it is critical, else it alone goes off. -/
def onLost (n : Nat) (m : Mach) : Mach :=
  let m := raise 0x021 0x04 (min 3 (m.get (R.PWR_RAILCFG_FCLS n))) (markFailed n m) 0 n
  let m := assertEvent 0x021 m
  if m.on (R.PWR_RAILCFG_CRIT n) then downStart (railOrder m) m else railOff n m

/-- A slot's wait has begun and it is not yet the delay; `st` is the sequence's state. -/
def waiting (st n : Nat) (m : Mach) : Bool := m.get R.PWR_SEQSTAT_STATE == st && railSlot m == n && !m.pwr.inDelay

/-- A number of 100 us has passed since the present wait began. -/
def railDue (units : Nat) (m : Mach) : Bool := m.pwr.railAt.toNat + units * railUnit ≤ m.now

/-! ## The sequencer's commands -/

/-- A write of SEQCTL (R340, R341, R343). -/
def seqctlWrite (v : Word) (m : Mach) : Mach :=
  let m :=
    if R.PWR_SEQCTL_UP.of v == 0 then m
    else if m.get R.PWR_FAIL_LATCH != 0 then ignored R.PWR_SEQCTL_UP.key m
    else if m.get R.PWR_SEQSTAT_STATE == seqOff then upStart m
    else m
  if R.PWR_SEQCTL_DOWN.of v == 1 && m.get R.PWR_SEQSTAT_STATE == seqOn then downStart (railOrder m) m else m

/-- RAIL_SEQUENCE_UP (R340). -/
def opRailSequenceUp (q : Requester) (m : Mach) : Mach := guarded q false R.PWR_SEQCTL_UP.key (seqctlWrite 1) m

/-- RAIL_SEQUENCE_DOWN (R341). -/
def opRailSequenceDown (q : Requester) (m : Mach) : Mach := guarded q false R.PWR_SEQCTL_UP.key (seqctlWrite 2) m

/-- Power-good of the present slot in the up sequence: UPDLY begins. -/
def powerGood (n : Nat) (m : Mach) : Mach := railDelay (setPg n true m)

/-- RAIL_POWER_GOOD (R340): RAIL_PGn has risen. -/
def opRailPowerGood (n : Nat) (m : Mach) : Mach :=
  if pgSrc n m != 0 then m else if waiting seqUp n m then powerGood n m else setPg n true m

/-- RAIL_PG_TIMEOUT (R340, R342): PGTO has passed. A slot whose power-good is the delay goes on. -/
def opRailPgTimeout (n : Nat) (m : Mach) : Mach :=
  if waiting seqUp n m && railDue (m.get (R.PWR_RAILTIM_PGTO n)) m then
    if pgSrc n m = 2 then powerGood n m else upFail n m
  else m

/-- RAIL_UP_DELAY_END (R340). -/
def opRailUpDelayEnd (n : Nat) (m : Mach) : Mach :=
  if m.get R.PWR_SEQSTAT_STATE = seqUp && railSlot m = n && m.pwr.inDelay && railDue (m.get (R.PWR_RAILTIM_UPDLY n)) m then
    upRun m.pwr.slots m
  else m

/-- RAIL_DISCHARGED (R341): RAIL_PGn has fallen. -/
def opRailDischarged (n : Nat) (m : Mach) : Mach :=
  if pgSrc n m != 0 then m
  else
    let m := setPg n false m
    if waiting seqDown n m then railDelay m else m

/-- RAIL_DISCHARGE_TIMEOUT (R341): DISTO has passed. -/
def opRailDischargeTimeout (n : Nat) (m : Mach) : Mach :=
  if waiting seqDown n m && railDue (m.get (R.PWR_RAILDIS_DISTO n)) m then
    if pgSrc n m = 2 then railDelay (setPg n false m)
    else
      let m := (m.set (R.PWR_RAILSTAT_DISTO n) 1).set R.PWR_FAIL_DTO (setBit (m.get R.PWR_FAIL_DTO) n)
      downRun m.pwr.slots (note 0x021 0x05 n m)
  else m

/-- RAIL_DOWN_DELAY_END (R341). -/
def opRailDownDelayEnd (n : Nat) (m : Mach) : Mach :=
  if m.get R.PWR_SEQSTAT_STATE = seqDown && railSlot m = n && m.pwr.inDelay && railDue (m.get (R.PWR_RAILDIS_DNDLY n)) m then
    downRun m.pwr.slots m
  else m

/-- RAIL_LOST (R342): power-good has been absent for more than 100 us in state ON. -/
def opRailLost (n : Nat) (m : Mach) : Mach :=
  if m.get R.PWR_SEQSTAT_STATE = seqOn && m.on (R.PWR_RAILCFG_EN n) && m.on (R.PWR_RAILSTAT_ENOUT n)
      && !m.on (R.PWR_RAILSTAT_FAILED n) && pgSrc n m != 2 then
    onLost n (setPg n false m)
  else m

/-- STATUS_WORD has been read: POWER_GOOD# in bit 11, OFF in bit 6 (Table 12.2). -/
def pmbStatus (n : Nat) (w : Nat) (m : Mach) : Mach :=
  let good := !bitOf w 11
  if waiting seqUp n m && good then powerGood n m
  else if waiting seqDown n m && !good && bitOf w 6 then railDelay (setPg n false m)
  else setPg n good m

/-- The third failure of a transaction: the rail has failed at that step (R339). -/
def pmbFail (n : Nat) (m : Mach) : Mach :=
  let m := note 0x022 0x07 n m
  if m.get R.PWR_SEQSTAT_STATE = seqUp && railSlot m = n then upFail n m
  else if m.get R.PWR_SEQSTAT_STATE = seqOn && !m.on (R.PWR_RAILSTAT_FAILED n) then onLost n m
  else if m.get R.PWR_SEQSTAT_STATE = seqDown && railSlot m = n then
    downRun m.pwr.slots (assertEvent 0x021 (markFailed n m))
  else m

/-- PMBUS_TRANSACTION_DONE (R339): acknowledged with a sound PEC or not; `data` is what STATUS_WORD read. -/
def opPmbusTransactionDone (n : Nat) (ok : Bool) (data : Nat) (m : Mach) : Mach :=
  match tfind n m.pwr.pmb with
  | none => m
  | some (cmd, d, tries) =>
    if ok then
      let m := m.onPwr fun p => { p with pmb := tdel n p.pmb }
      if cmd = 0x79 then pmbStatus n data m else m
    else if tries < 2 then
      pmbPut n cmd d (m.onPwr fun p => { p with pmb := tput n (cmd, d, tries + 1) p.pmb })
    else pmbFail n (m.onPwr fun p => { p with pmb := tdel n p.pmb })

/-- PMBUS_STATUS_POLL (R339): every 1 ms while the slot's power-good comes from STATUS_WORD. -/
def opPmbusStatusPoll (n : Nat) (m : Mach) : Mach :=
  let due := match tfind n m.pwr.polled with | some t => t.toNat + msTicks 1 ≤ m.now | none => true
  if m.on (R.PWR_RAILCFG_EN n) && m.on (R.PWR_RAILCFG_KIND n) && pgSrc n m = 1 && !thas n m.pwr.pmb && due then
    pmbSend n 0x79 0 (m.onPwr fun p => { p with polled := tput n m.clk.tick p.polled })
  else m

/-- A write of LATCHCLR by requester number q (R343). -/
def latchclrWrite (q : Nat) (v : Word) (m : Mach) : Mach :=
  if 32 ≤ q && q < 36 && R.PWR_LATCHCLR_KEY.of v == 0xC3 && m.get R.PWR_SEQSTAT_STATE == seqLatched then
    let m := each (List.range 16) (fun n m => m.set (R.PWR_RAILSTAT_FAILED n) 0) (m.set R.PWR_FAIL_LATCH 0)
    m.set R.PWR_SEQSTAT_STATE seqOff
  else ignored R.PWR_LATCHCLR_KEY.key m

/-- LATCHCLR (R343). -/
def opLatchclr (q : Requester) (v : Word) (m : Mach) : Mach :=
  guarded q false R.PWR_LATCHCLR_KEY.key (latchclrWrite (Requester.id q) v) m

/-! ## Loss of AC_OK and software reset -/

/-- A 16-bit list as little-endian bytes. -/
def halfBytes (l : List Nat) : List Byte := l.flatMap (leBytes 2)

/-- The last-words record (Table 12.3) for the records made LOST. -/
def lastWords (lost : List Sid) (m : Mach) : List Byte :=
  let f := m.flt.last
  let w (n : Nat) : List Byte := leBytes 4 n
  let body : List Byte :=
    w 0x4C575244 ++ w (m.get R.SNAP_EPOCH + 1 + b2n m.snap.writing.isSome) ++ leBytes 8 m.now ++ w m.part.typeId
    ++ w (lost.length + openCls m * 256) ++ w (m.get R.PWR_SEQSTAT_PG + m.get R.PWR_FAIL_LATCH * 65536)
    ++ w (m.get R.FLT_LOSTCNT_LOST)
    ++ (List.range 48).flatMap (fun i => leBytes 3 (match lost[i]? with | some s => s.toNat | none => 0xFFFFFF))
    ++ w (f.src + f.kind * 2 ^ 10 + f.cls * 2 ^ 18) ++ w f.sid.toNat ++ leBytes 8 f.param.toNat ++ leBytes 8 f.tick.toNat
    ++ halfBytes ((List.range 8).map fun g => m.get (R.THM_GRPMAX_MAX g)) ++ List.replicate 32 0
  body ++ w (crc32c body).toNat ++ w 0x4C575244

/-- Writes the last-words record into the first slot whose first word is erased (R345). -/
def lastWordsWrite (lost : List Sid) (m : Mach) (mem : Mem) : Mach × Mem :=
  let at_ (i : Nat) : Nat := m.get R.PWR_LWADDR_ADDR * 4096 + 256 * i
  match (List.range 16).find? fun i => mem.flashBytes (at_ i) 4 == [0xFF, 0xFF, 0xFF, 0xFF] with
  | some i => (m.onPwr fun p => { p with lwFull := false }, mem.flashWrBytes (at_ i) (lastWords lost m))
  | none => (m.onPwr fun p => { p with lwFull := true }, mem)

/-- Steps 1 and 2 of R344: outputs off, drives braking, sheets LOST, the class 3 fault. -/
def shutOutputs (src kind : Nat) (m : Mach) : Mach :=
  let m := brakeAll src kind (gatesOff { m with pwr := { m.pwr with shutdown := true } })
  each (List.range m.nStn) polyUnlock (raise src kind 3 (loseAll src kind 3 m))

/-- Step 4 of R344 with what follows it: an up sequence stops, and only slots that are on go down. -/
def shutRails (after : Nat) (m : Mach) : Mach :=
  let m := m.onPwr fun p => { p with after := after }
  let st := m.get R.PWR_SEQSTAT_STATE
  if st = seqOn then downStart (railOrder m) m
  else if st = seqUp then downStart ((railOrder m).filter fun n => m.on (R.PWR_RAILSTAT_ENOUT n)) m
  else if st = seqDown then m
  else afterDown m

/-- AC_LOSS (R344): AC_OK has been low for ACDEB us. -/
def opAcLoss (m : Mach) (mem : Mem) : Mach × Mem :=
  let m := m.onPwr fun p => { p with acOk := false, acSince := m.clk.tick }
  if m.pwr.shutdown && m.pwr.after != 2 then (m, mem)
  else
    let lost := ((recsIn (·.engaged) m).filter fun r => let sh := m.sheet r; sh.state != .admitted || pastLock sh m).map
      fun r => (m.sheet r).sid
    let m := assertEvent 0x023 (shutOutputs 0x023 0x06 m)
    let x := lastWordsWrite lost m mem
    (shutRails 1 x.1, x.2)

/-- AC_RESTART (R344 step 6): OFFT has passed since step 5, and AC_OK has been high for ACDEB us. -/
def opAcRestart (m : Mach) (mem : Mem) : Mach × Mem :=
  match m.pwr.offAt with
  | some t =>
    if t.toNat + msTicks (clampN 100 60000 (m.get R.PWR_ACCFG_OFFT)) ≤ m.now then
      coldStart R.SYS_RSTCAUSE_ACRESTART (m.onPwr fun p => { p with acOk := true }) mem
    else (m, mem)
  | none => (m, mem)

/-- A write of SYS_SWRST (R346). -/
def swrstWrite (v : Word) (m : Mach) : Mach :=
  if R.SYS_SWRST_KEY.of v == 0x96 && !m.pwr.shutdown then shutRails 2 (shutOutputs 0x020 0x08 m) else m

/-- SOFTWARE_RESET (R346). -/
def opSoftwareReset (q : Requester) (v : Word) (m : Mach) : Mach :=
  guarded q false R.SYS_SWRST_KEY.key (swrstWrite v) m

/-- A software reset whose steps are done restarts the device (R346). -/
def settle (s : State) : State :=
  if s.mach.pwr.restart then
    let x := coldStart R.SYS_RSTCAUSE_SWRST s.mach s.mem
    { s with mach := x.1, mem := x.2 }
  else s

/-- A command that may end a software reset: it acts on everything but the memories, and a restart that it makes due
follows at once. -/
def onUnitS (ok : Bool) (f : Mach → Mach) (s : State) : Host.Outcome State Fault Refusal :=
  .next (if ok then settle (s.onMach f) else s)

/-- The same for a command that may also act on the memories. -/
def onUnitSM (ok : Bool) (f : Mach → Mem → Mach × Mem) (s : State) : Host.Outcome State Fault Refusal :=
  .next (if ok then settle { s with mach := (f s.mach s.mem).1, mem := (f s.mach s.mem).2 } else s)

end Sys2Proof.Machine
end

