-- ==== Sys2Proof/Machine/Sec.lean ====
section
/-! DEFINITION. Identity and image update: the SEC operations (R392-R397, R405), the chunk service (R398), and the
resident loader's installation (R399-R402). -/

namespace Sys2Proof.Machine

/-! ## The buffer and results -/

/-- Changes what SEC keeps. -/
def Mach.onSec (m : Mach) (f : Sec → Sec) : Mach := { m with sec := f m.sec }

/-- n bytes of the operation buffer. -/
def bufBytes (off n : Nat) (m : Mach) : List Byte :=
  bytesAt ((List.range (ceilDiv (off + n) 4)).flatMap fun i => leBytes 4 (m.word (R.SEC_BUF_DATA i).key).toNat) off n

/-- Writes whole words into the operation buffer. -/
def setBuf (off : Nat) (bs : List Byte) (m : Mach) : Mach :=
  each (List.range (bs.length / 4)) (fun i m =>
    m.setWord (R.SEC_BUF_DATA (off / 4 + i)).key (BitVec.ofNat 32 (leAt bs (4 * i) 4))) m

/-- Result codes (Table 14.11). -/
def secOk : Nat := 0
def secBusy : Nat := 1
def secRefused : Nat := 2
def secVerify : Nat := 3
def secFlash : Nat := 4

/-- An operation ends for a requester: its code, DONE, and OPDONE. -/
def secEnd (q code : Nat) (m : Mach) : Mach :=
  assertEvent 0x210 (m.setOwn q R.SEC_OPRES_CODE.key (BitVec.ofNat 32 (code + 8)))

/-! ## Starting an operation (R405) -/

/-- The domain of a LOAD target is down, or its Cox core is enabled, or it is the program store of an enabled Scull engine
(R207). -/
def loadRefused (t : Nat) (m : Mach) : Bool :=
  if t = 0 then !domUp 1 m
  else if t ≤ 8 then !domUp 2 m || m.on (R.COX_CFG_EN (t - 1))
  else if t ≤ 10 then !domUp 3 m || (t == 9 && m.on R.SCL_CTL_EN)
  else true

/-- An operation is refused from the start (R400, R405). -/
def secRefuses (op : SecOp) (arg : Nat) (m : Mach) : Bool :=
  match op with
  | .load => loadRefused arg m
  | .armupd => !m.sec.checked || arg == 15
  | .keyprog => 2 < arg || !(m.sec.keys.getD arg []).isEmpty
  | _ => false

/-- An operation of requester number q starts, or ends at once with BUSY or REFUSED. -/
def secStart (op : SecOp) (arg q : Nat) (m : Mach) : Mach :=
  if m.sec.run.isSome then secEnd q secBusy m
  else if secRefuses op arg m then secEnd q secRefused m
  else (m.setOwn q R.SEC_OPRES_CODE.key 0).onSec fun s => { s with run := some { op := op, arg := arg, q := q } }

/-- The operation of an OP code. -/
def secOpOf (n : Nat) : Option SecOp :=
  match n with
  | 1 => some .attest | 2 => some .load | 3 => some .checkhdr | 4 => some .armupd | 5 => some .envwrite
  | 6 => some .advance | 7 => some .keyprog | 8 => some .dbgchal | 9 => some .dbgresp
  | _ => none

/-- A write of SEC_OP; an OP that Table 14.11 does not list is refused. -/
def secOpWrite (q : Nat) (v : Word) (m : Mach) : Mach :=
  match secOpOf (R.SEC_OP.of v) with
  | some op => secStart op (R.SEC_OP_ARG.of v) q m
  | none => if m.sec.run.isSome then secEnd q secBusy m else secEnd q secRefused m

/-- A command that writes SEC_OP. -/
def bySec (q : Requester) (op : SecOp) (arg : Nat) (m : Mach) : Mach :=
  guarded q false R.SEC_OP.key (secStart op arg (Requester.id q)) m

/-- ATTEST (R393). -/
def opAttest (q : Requester) (m : Mach) : Mach := bySec q .attest 0 m
/-- LOAD (R393). -/
def opLoad (q : Requester) (target : Nat) (m : Mach) : Mach := bySec q .load target m
/-- CHECKHDR (R399). -/
def opCheckhdr (q : Requester) (m : Mach) : Mach := bySec q .checkhdr 0 m
/-- ARMUPD (R400). -/
def opArmupd (q : Requester) (order : Nat) (m : Mach) : Mach := bySec q .armupd order m
/-- ENVWRITE (R405). -/
def opEnvwrite (q : Requester) (m : Mach) : Mach := bySec q .envwrite 0 m
/-- ADVANCE (R397). -/
def opAdvance (q : Requester) (m : Mach) : Mach := bySec q .advance 0 m
/-- KEYPROG (R394). -/
def opKeyprog (q : Requester) (key : Nat) (m : Mach) : Mach := bySec q .keyprog key m
/-- DBGCHAL (R394). -/
def opDbgchal (q : Requester) (m : Mach) : Mach := bySec q .dbgchal 0 m
/-- DBGRESP (R394). -/
def opDbgresp (q : Requester) (m : Mach) : Mach := bySec q .dbgresp 0 m

/-! ## What the operations do -/

/-- n bytes the spec leaves open, four to a free word. -/
def freeBytes : Nat → Mach → List Byte × Mach
  | 0, m => ([], m)
  | n + 1, m =>
    let x := freeBytes n m.free.2
    (leBytes 4 m.free.1.toNat ++ x.1, x.2)

/-- The attestation statement (Table 14.5). -/
def attestation (m : Mach) : List Byte :=
  let w (n : Nat) : List Byte := leBytes 4 n
  w 0x54544148 ++ w 1 ++ w m.part.typeId ++ w (Config.siliconRev % 256) ++ leBytes 8 Config.unitId.toNat
    ++ w (m.sec.rollback % 128 + m.get R.SEC_STAT_DBG * 128 + m.get R.SEC_STAT_LDR * 256) ++ w (m.get R.ENV_SEQ)
    ++ leBytes 8 m.now ++ List.replicate 8 0 ++ bufBytes 0x030 32 m
    ++ (List.range 13).flatMap (fun i => measBytes i m) ++ List.replicate 16 0

/-- ATTEST: the statement goes into the buffer, and a signature with the unit key after it. The signature's value is
open (the key is in OTP): free bytes. -/
def doAttest (m : Mach) : Nat × Mach :=
  let sig := freeBytes 16 m
  (secOk, setBuf 0x200 sig.1 (setBuf 0 (attestation m) sig.2))

/-- Writes a section into its target (Table 14.7). -/
def sectionPut (t : Nat) (bs : List Byte) (m : Mach) (mem : Mem) : Mach × Mem :=
  let words (k : Nat → FRef) (n : Nat) (m : Mach) : Mach :=
    each (List.range (min n (bs.length / 4))) (fun i m => m.setWord (k i).key (BitVec.ofNat 32 (leAt bs (4 * i) 4))) m
  if t = 0 then (m, mem.wrBytes 0x10000000 (bs.take 0x40000))
  else if t ≤ 8 then (m, mem.wrBytes (0x20000000 + (t - 1) * 0x100000) (bs.take 0x20000))
  else if t = 9 then (words R.SCL_UCODE 4096 m, mem)
  else (words R.SCL_COEF 4096 m, mem)

/-- LOAD: the running bundle is checked, its section copied, and the slot of the target set. -/
def doLoad (t : Nat) (m : Mach) (mem : Mem) : Nat × Mach × Mem :=
  if loadRefused t m then (secRefused, m, mem)
  else
    let r := imageReason 1 slotAt m mem
    if r != 0 then (secVerify, imageInvalid r m, mem)
    else match sectionOf (mem.flashBytes slotAt 0x400) t with
      | none => (secRefused, m, mem)
      | some (off, n, _) =>
        let bs := mem.flashBytes (slotAt + off) n
        let x := sectionPut t bs m mem
        (secOk, setMeas (t + 2) (sha256 bs) x.1, x.2)

/-- CHECKHDR: checks 1-7 of the header in the buffer. -/
def doCheckhdr (m : Mach) : Nat × Mach :=
  let r := headerReason 1 m (bufBytes 0 0x400 m)
  let m := m.onSec fun s => { s with checked := r == 0 }
  if r = 0 then (secOk, m) else (secVerify, imageInvalid r m)

/-- The sources of an ARMUPD argument (Table 14.8a): 1 upstream, 2 downstream, 3 host. -/
def updOrder (arg : Nat) : List Nat :=
  [[1, 2, 3], [1, 3, 2], [2, 1, 3], [2, 3, 1], [3, 1, 2], [3, 2, 1], [1, 2], [1, 3], [2, 1], [2, 3], [3, 1], [3, 2],
   [1], [2], [3]].getD arg []

/-- Replaces the contents of a flash sector. -/
def sectorWrite (a : Nat) (bs : List Byte) (mem : Mem) : Mem :=
  ({ mem with flash := cellsClear a (a + 4096) mem.flash } : Mem).flashWrBytes a bs

/-- ARMUPD: the update record is written and a software reset starts (R399, R400). -/
def doArmupd (arg : Nat) (ok : Bool) (m : Mach) (mem : Mem) : Nat × Mach × Mem :=
  if !m.sec.checked then (secRefused, m, mem)
  else if !ok then (secFlash, m, mem)
  else
    let o := updOrder arg
    let rec_ := sha256 (bufBytes 0 0x400 m) ++ (List.range 3).map fun i => BitVec.ofNat 8 (o.getD i 0)
    (secOk, m, sectorWrite updAt rec_ mem)

/-- ENVWRITE: a sound record replaces the copy that is invalid, or has the lower SEQ (R405). -/
def doEnvwrite (ok : Bool) (m : Mach) (mem : Mem) : Nat × Mach × Mem :=
  let b := bufBytes 0 0x440 m
  if envReason m b != 0 then (secVerify, m, mem)
  else if !ok then (secFlash, m, mem)
  else
    let a0 := mem.flashBytes (envAt 0) 0x440
    let a1 := mem.flashBytes (envAt 1) 0x440
    let c := if envReason m a0 != 0 then 0 else if envReason m a1 != 0 then 1
      else if leAt a0 0x00C 4 < leAt a1 0x00C 4 then 0 else 1
    (secOk, m, sectorWrite (envAt c) b mem)

/-- ADVANCE: the counter rises to the running bundle's ROLLBACK and never falls (R397). -/
def doAdvance (m : Mach) : Nat × Mach :=
  (secOk, m.onSec fun s => { s with rollback := max s.rollback (min 64 s.running) })

/-- KEYPROG: the key hash in the buffer; one of zeros leaves the slot as it is (R394). -/
def doKeyprog (k : Nat) (m : Mach) : Nat × Mach :=
  let h := bufBytes 0 32 m
  if !(m.sec.keys.getD k []).isEmpty then (secRefused, m)
  else (secOk, m.onSec fun s => { s with keys := s.keys.set k (if h.all (· == 0) then [] else h) })

/-- DBGCHAL: a 32-byte challenge, whose value is open. -/
def doDbgchal (m : Mach) : Nat × Mach :=
  let x := freeBytes 8 m
  (secOk, (setBuf 0 x.1 x.2).onSec fun s => { s with chal := some x.1 })

/-- DBGRESP: the public key and then the signature lie in the buffer (R394). -/
def doDbgresp (m : Mach) : Nat × Mach :=
  match m.sec.chal with
  | none => (secVerify, m)
  | some ch =>
    let pub := bufBytes 0 64 m
    let m' := m.onSec fun s => { s with chal := none }
    if keyOk 2 pub m && ecdsaOk pub (bufBytes 64 64 m) (leBytes 8 Config.unitId.toNat ++ ch) then
      (secOk, raise 0x210 0x02 0 (m'.set R.SEC_STAT_DBG 1))
    else (secVerify, m')

/-- The effect of the operation that runs; `ok` says that the flash took what was written. -/
def secDo (r : SecRun) (ok : Bool) (m : Mach) (mem : Mem) : Nat × Mach × Mem :=
  let plain (x : Nat × Mach) : Nat × Mach × Mem := (x.1, x.2, mem)
  match r.op with
  | .attest => plain (doAttest m)
  | .load => doLoad r.arg m mem
  | .checkhdr => plain (doCheckhdr m)
  | .armupd => doArmupd r.arg ok m mem
  | .envwrite => doEnvwrite ok m mem
  | .advance => plain (doAdvance m)
  | .keyprog => plain (doKeyprog r.arg m)
  | .dbgchal => plain (doDbgchal m)
  | .dbgresp => plain (doDbgresp m)

/-- SEC_OP_DONE (R405): the operation ends with its code; an update that is armed starts a software reset. -/
def opSecOpDone (ok : Bool) (m : Mach) (mem : Mem) : Mach × Mem :=
  match m.sec.run with
  | none => (m, mem)
  | some r =>
    let x := secDo r ok (m.onSec fun s => { s with run := none }) mem
    let m := secEnd r.q x.1 x.2.1
    (when (r.op == .armupd && x.1 == secOk) (swrstWrite 0x96) m, x.2.2)

/-- A write to a register of block SEC. -/
def secWrite (q key : Nat) (v : Word) (m : Mach) : Mach :=
  if key = R.SEC_OP.key then secOpWrite q v m
  else if (R.SEC_BUF_DATA 0).key ≤ key && key < (R.SEC_BUF_DATA 0).key + 0x1000 then
    (m.setWord key v).onSec fun s => { s with checked := false }
  else storeFields key v m

/-! ## Chunks (R398) -/

/-- Number of chunks of an image. -/
def chunkCount (h : List Byte) : Nat := ceilDiv (imgLength h) 4096

/-- Bytes of chunk k. -/
def chunkLen (h : List Byte) (k : Nat) : Nat := min 4096 (imgLength h - 4096 * k)

/-- The unit holds chunk k of image `id`: of its running slot, or written and read back by its loader. -/
def holdsChunk (id k : Nat) (m : Mach) (mem : Mem) : Bool :=
  match m.sec.loader with
  | some l =>
    (match l.chunk0 with | some c => imgId (c.take 0x400) == id | none => false) && l.got.contains k
  | none =>
    let h := mem.flashBytes slotAt 0x400
    !m.on R.SEC_STAT_LDR && imgId h == id && k < chunkCount h

/-- A bulk frame to the neighbour on a port. -/
def bulkFrame (typ : Nat) (body : List Word) (m : Mach) : Frame :=
  { cls := 3, grp := false, bc := false, typ := typ, hops := 0, dst := 0, src := ownAddr m, lseq := 0, body := body }

/-- IMGID and k as payload words. -/
def chunkName (id k : Nat) : List Word := [BitVec.ofNat 32 id, BitVec.ofNat 32 (id / 2 ^ 32), BitVec.ofNat 32 k]

/-- CHREQ (R398): answered with the chunk, or with CHNAK. -/
def opChreq (p : Nat) (f : Frame) (good : Bool) (mem : Mem) (m : Mach) : Mach :=
  frameIn p f good (fun m =>
    let id := pairAt f.body 0
    let k := (f.body.getD 2 0).toNat
    if holdsChunk id k m mem then
      let h := match m.sec.loader with
        | some l => (l.chunk0.getD []).take 0x400
        | none => mem.flashBytes slotAt 0x400
      let bs := mem.flashBytes (slotAt + 4096 * k) (chunkLen h k)
      let ws := (List.range (ceilDiv bs.length 4)).map fun i => BitVec.ofNat 32 (leAt bs (4 * i) 4)
      frameTx p (bulkFrame 2 (chunkName id k ++ ws) m) m
    else frameTx p (bulkFrame 3 (chunkName id k) m) m) m

/-! ## The resident loader at work (R399-R402) -/

/-- The source that is asked now. -/
def Loader.source (l : Loader) : Nat := l.order.getD l.cur 0

/-- IMGID of the image the loader wants, once it knows it. -/
def Loader.id? (l : Loader) : Option Nat :=
  match l.want, l.chunk0 with
  | some h, _ => some (leNat (h.take 8))
  | none, some c => some (imgId (c.take 0x400))
  | none, none => none

/-- The next chunk to ask for: chunk 0, then the lowest that is missing. -/
def Loader.next (l : Loader) : Nat :=
  match l.chunk0 with
  | none => 0
  | some c => ((List.range (chunkCount c)).find? fun k => k != 0 && !l.got.contains k).getD 0

/-- Asks a neighbour for the next chunk. -/
def loaderAsk (m : Mach) : Mach :=
  match m.sec.loader with
  | some l => match l.id? with
    | some id =>
      if l.source = 1 || l.source = 2 then frameTx (l.source - 1) (bulkFrame 1 (chunkName id l.next) m) m else m
    | none => m
  | none => m

/-- Every chunk but chunk 0 is written: chunk 0 follows, the slot is verified, and the device restarts; a slot that
fails is erased and fetched again (R399 steps 5 and 6). -/
def loaderFinish (l : Loader) (c0 : List Byte) (m : Mach) (mem : Mem) : Mach × Mem :=
  let mem := mem.flashWrBytes slotAt c0
  let r := imageReason 1 slotAt m mem
  if r = 0 then
    coldStart R.SYS_RSTCAUSE_SWRST m { mem with flash := cellsClear updAt (updAt + 4096) mem.flash }
  else
    let l : Loader := { want := l.want, order := l.order, cur := l.cur, since := m.clk.tick }
    ((imageInvalid r m).onSec fun s => { s with loader := some l },
     { mem with flash := cellsClear slotAt (slotAt + 0x400000) mem.flash })

/-- The loader judges a chunk from a source: accepted or rejected (R401). `back` says that it read back as written. -/
def loaderChunk (src id k : Nat) (bs : List Byte) (back : Bool) (m : Mach) (mem : Mem) : Bool × Mach × Mem :=
  match m.sec.loader with
  | none => (false, m, mem)
  | some l =>
    let idOk := match l.id? with | some i => i == id | none => true
    if l.source != src || !idOk || !back then (false, m, mem)
    else
      let hdr := if k = 0 then bs else l.chunk0.getD []
      if hdr.isEmpty || (k = 0 && headerReason 1 m (bs.take 0x400) != 0) || chunkCount hdr ≤ k
          || bs.length != chunkLen hdr k then (false, m, mem)
      else
        let l : Loader := if k = 0 then { l with chunk0 := some bs, since := m.clk.tick }
          else { l with got := k :: l.got.filter (· != k), since := m.clk.tick }
        let mem := if k = 0 then mem else mem.flashWrBytes (slotAt + 4096 * k) bs
        (true, m.onSec fun s => { s with loader := some l }, mem)

/-- What follows an accepted chunk, once it has been answered: the next is asked for, or the installation ends (R399). -/
def loaderOn (m : Mach) (mem : Mem) : Mach × Mem :=
  match m.sec.loader with
  | some l =>
    match l.chunk0 with
    | some c =>
      if (List.range (chunkCount c)).all fun k => k == 0 || l.got.contains k then
        loaderFinish { l with got := 0 :: l.got } c m mem
      else (loaderAsk m, mem)
    | none => (m, mem)
  | none => (m, mem)

/-- CHDATA (R398, R399): the loader takes a chunk from the neighbour it asks; `back` says that it read back. -/
def opChdata (p : Nat) (f : Frame) (good back : Bool) (m : Mach) (mem : Mem) : Mach × Mem :=
  let m1 := frameIn p f good id m
  if m.on R.FJL_CTL_EN && portUp p m && good && frameMine f m then
    let k := (f.body.getD 2 0).toNat
    let bs := (f.body.drop 3).flatMap fun w => leBytes 4 w.toNat
    let n := match m.sec.loader with
      | some l => chunkLen (if k = 0 then bs else l.chunk0.getD []) k
      | none => 0
    let x := loaderChunk (p + 1) (pairAt f.body 0) k (bs.take n) back m1 mem
    if x.1 then loaderOn x.2.1 x.2.2 else x.2
  else (m1, mem)

/-- CHNAK (R398): the neighbour does not hold the chunk; the loader goes on asking until the source's 10 s end (R401). -/
def opChnak (p : Nat) (f : Frame) (good : Bool) (m : Mach) : Mach := frameIn p f good loaderAsk m

/-- LOADER_SOURCE_TIMEOUT (R401): a source that has supplied no chunk for 10 s is dropped for the next. -/
def opLoaderSourceTimeout (m : Mach) : Mach :=
  match m.sec.loader with
  | some l =>
    if l.since.toNat + 1000000000 ≤ m.now then
      loaderAsk (m.onSec fun s =>
        { s with loader := some { l with cur := (l.cur + 1) % max 1 l.order.length, since := m.clk.tick } })
    else m
  | none => m

/-- n bytes of host memory at a host address, through the DATU; none where a page is not to be had. -/
def hostFetch (mem : Mem) (a n : Nat) (m : Mach) : Option (List Byte) × Mach :=
  let w := hostToWindow a
  let n1 := min n (4096 - w % 4096)
  match datuDirect mem w false m with
  | (none, m) => (none, m)
  | (some h, m) =>
    if n1 = n then (some (mem.hostBytes h n), m)
    else match datuDirect mem (hostToWindow (a + n1)) false m with
      | (none, m) => (none, m)
      | (some h', m) => (some (mem.hostBytes h n1 ++ mem.hostBytes h' (n - n1)), m)

/-- LOADER_CHUNK_DESCRIPTOR (R401): the next descriptor of ring 0 is taken, its chunk judged, and the answer put into
ring 1. -/
def opLoaderChunkDescriptor (back : Bool) (m : Mach) (mem : Mem) : Mach × Mem :=
  let asks := match m.sec.loader with | some l => l.source == 3 | none => false
  if !asks || ringSize m 1 ≤ ringCount m 1 then (m, mem)
  else match ringTake 0 0 mem m with
    | (none, m) => (m, mem)
    | (some d, m) =>
      let k := leAt d 8 4
      let n := leAt d 12 4
      let id := leAt d 16 8
      let tick := m.now
      let x := if leAt d 0 8 % 64 != 0 || n = 0 || 4096 < n then (false, m, mem)
        else match hostFetch mem (leAt d 0 8) n m with
          | (none, m) => (false, m, mem)
          | (some bs, m) => loaderChunk 3 id k bs back m mem
      let ans := leBytes 4 k ++ leBytes 4 (b2n !x.1) ++ leBytes 8 id ++ leBytes 8 tick ++ List.replicate 8 0
      let y := (ringPut 1 0 ans x.2.1 x.2.2).2
      if x.1 then loaderOn y.1 y.2 else y

end Sys2Proof.Machine
end

