-- ==== Sys2Proof/Machine/Bus.lean ====
section
/-! DEFINITION. The register bus: what a write and a read of a register do, whoever makes them (R11-R17, R22, R84),
with REGISTER_WRITE, LATCHED_LOW_READ and READ_CLEAR. A register with rules of its own goes to the operation that
its own command uses. -/

namespace Sys2Proof.Machine

/-! ## Writes, block by block: `o` is the offset in the block, `key` the BAR0 offset -/

/-- A write of SNAP_CTL: periodic triggers count from the write that enables them. -/
def snapCtlWrite (v : Word) (m : Mach) : Mach :=
  let was := m.on R.SNAP_CTL_EN
  let m := storeFields R.SNAP_CTL_EN.key v m
  when (!was && m.on R.SNAP_CTL_EN) (fun m => { m with snap := { m.snap with perFrom := m.clk.tick } }) m

/-- Blocks SYS, CLK, PWR, THM, FLT, SNAP. -/
def writeBase (q : Nat) (b o key : Nat) (v : Word) (m : Mach) : Mach :=
  match b with
  | 0x00 => if key = R.SYS_SWRST_KEY.key then swrstWrite v m else storeFields key v m
  | 0x01 =>
    if key = R.CLK_PPCRATE.key then ppcrateSet v m
    else if 0x100 ≤ o && o < 0x1E0 && o % 0x20 = 0 then synCfgWrite ((o - 0x100) / 0x20) v m
    else if 0x100 ≤ o && o < 0x1E0 && o % 0x20 = 4 then synFWrite ((o - 0x100) / 0x20) v m
    else storeFields key v m
  | 0x02 =>
    if key = R.PWR_DOMREQ_ON.key then domreqWrite v m
    else if key = R.PWR_SEQCTL_UP.key then seqctlWrite v m
    else if key = R.PWR_LATCHCLR_KEY.key then latchclrWrite q v m
    else storeFields key v m
  | 0x03 =>
    if key = R.THM_CTL_EN.key then thmCtlWrite v m
    else if 0x300 ≤ o && o < 0x380 && o % 0x10 < 8 then thmGroupWrite ((o - 0x300) / 0x10) key v m
    else storeFields key v m
  | 0x06 => if key = R.SNAP_CTL_EN.key then snapCtlWrite v m else storeFields key v m
  | _ => storeFields key v m

/-- Block SLU, by a commit of a context (R22). -/
def writeSlu (core k : Nat) (o key : Nat) (v : Word) (m : Mach) : Mach :=
  if key = R.SLU_CREATE_SID.key then sluCreate core k (BitVec.ofNat 24 (R.SLU_CREATE_SID.of v)) m
  else if key = R.SLU_OP.key then sluOp core k v m
  else if key = R.SLU_CTL_EN.key then sluCtlSet v m
  else if key = R.SLU_RSV_SPEED.key then sluRsvSet v m
  else if 0x2000 ≤ o && o < 0x6000 then sluRecordWrite ((o - 0x2000) / 0x40) (o % 0x40 / 4) v m
  else match (List.range 16).find? fun w => key == (R.SLU_WATCH_CFG_EN w).key with
    | some w => watchCfgWrite w v m
    | none => storeFields key v m

/-- Blocks RING, DMA and DATU with the MSI-X table, DRC, PEAT, CRC. -/
def writeData (q : Requester) (b o key : Nat) (v : Word) (m : Mach) : Mach :=
  match b with
  | 0x08 =>
    let r := o / 0x20
    if o % 0x20 = 0 then ringCfgWrite r v m
    else if o % 0x20 = 0x0C then ringIndexWrite q r true v m
    else if o % 0x20 = 0x10 then ringIndexWrite q r false v m
    else storeFields key v m
  | 0x09 =>
    if o < 0x1800 then
      if o % 0x100 = 4 then dmaCtlWrite (o / 0x100) v m
      else if 0x80 ≤ o % 0x100 && o % 0x100 < 0xC0 then shdWrite (o / 0x100) key v m
      else storeFields key v m
    else if key = R.DATU_PRACK_TAG.key then prackWrite v m
    else if key = R.DATU_INVPAGE_PAGE.key then invPage (R.DATU_INVPAGE_PAGE.of v) m
    else if key = R.DATU_INVALL_ALL.key then when (R.DATU_INVALL_ALL.of v == 1) invAll m
    else if 0xE000 ≤ o && o < 0xF000 && o % 0x10 = 0x0C then
      let m := storeFields key v m
      when (bitsOf v 0 0 == 0) (msixUnmask ((o - 0xE000) / 0x10)) m
    else storeFields key v m
  | 0x0A => if key = R.DRC_CFG_EN.key then drcCfgWrite v m else storeFields key v m
  | 0x0B =>
    if key = R.PEAT_CTL_EN.key then peatCtlWrite v m
    else if key = R.PEAT_JSOP_SID.key then jsopWrite q v m
    else if key = R.PEAT_JSSIZE_MIB.key || key = R.PEAT_JSLOW_UNITS.key then jsCount (storeFields key v m)
    else storeFields key v m
  | _ => if key = R.CRC_GCTL_GO.key then crcGo v m else storeFields key v m

/-- Block COX (R89, R94, R105, R86). -/
def writeCox (o key : Nat) (v : Word) (m : Mach) : Mach :=
  let core := o / 0x1000
  let p := o % 0x1000
  if p = 0x000 then coxCfgWrite core v m
  else if p = 0x004 then runWrite core v m
  else if p = 0x008 then swevWrite core v m
  else if p = 0x800 then supmpuWrite v m
  else if core = 8 && 0x200 ≤ p && p < 0x300 && m.on (R.COX_SUPMPU_LOCK 8) then ignored key m
  else storeFields key v m

/-- A video island's own registers. -/
def writeVid (s o key : Nat) (v : Word) (m : Mach) : Mach :=
  if key = (R.VID_CTL_EN s).key then vidCtlWrite s v m
  else if key = (R.VID_RETIRE_LANES s).key then
    let old := m.get (R.VID_RETIRE_LANES s)
    retireChanged s old (storeFields key v m)
  else if (R.VID_ENTRY s 0).key % 65536 ≤ o then entryWrite s ((key - (R.VID_ENTRY s 0).key) / 4) v m
  else storeFields key v m

/-- The Beam Map window (R172): the station that the requester has selected. -/
def writeBmap (q : Requester) (o key : Nat) (v : Word) (m : Mach) : Mach :=
  if key = R.BMAP_SEL_STN.key then bmapSelWrite q v m
  else if o < 0x4000 then
    match bmapStation q m with
    | some s => if domUp (4 + s) m then entryWrite s (o / 4) v m else note 0x020 0x02 (0x40000000 + key) m
    | none => ignored key m
  else storeFields key v m

/-- Blocks FBK, MOT, POLY, SRV, STP. -/
def writeMotion (b o key : Nat) (v : Word) (m : Mach) : Mach :=
  match b with
  | 0x18 =>
    if 0x100 ≤ o && o < 0x400 && o % 0x40 = 0 then fbkCfgWrite ((o - 0x100) / 0x40) v m
    else if 0x400 ≤ o && o % 0x20 = 0 then ssiCfgWrite ((o - 0x400) / 0x20) v m
    else storeFields key v m
  | 0x19 =>
    let a := (o - 0x100) / 0x80
    if o < 0x100 then storeFields key v m
    else match (o - 0x100) % 0x80 with
      | 0x00 => motCfgWrite a v m
      | 0x04 => motCmdWrite a v m
      | 0x0C => rateWrite a 0 v m
      | 0x10 => rateWrite a 1 v m
      | 0x14 => rateWrite a 2 v m
      | 0x1C | 0x20 => starttWrite key a v m
      | _ => storeFields key v m
  | 0x1A =>
    let n := (o - 0x100) / 0x80
    if o % 0x80 = 0 then polyCfgWrite n v m else if o % 0x80 = 0x0C then polyCmdWrite n v m else storeFields key v m
  | 0x1B =>
    if key = R.SRV_BRKCFG_BEN.key then brkCfgWrite v m
    else if 0x100 ≤ o && o % 0x40 = 0 then srvCfgWrite ((o - 0x100) / 0x40) v m
    else storeFields key v m
  | _ => if o % 0x40 = 0 then stpCfgWrite ((o - 0x100) / 0x40) v m else storeFields key v m

/-- Blocks HV, FUS, SNS, PIN, ADC. -/
def writeProcess (b o key : Nat) (v : Word) (m : Mach) : Mach :=
  match b with
  | 0x1D =>
    let h := (o - 0x100) / 0x10
    if o < 0x100 then storeFields key v m
    else if o % 0x10 = 0 then hvCfgWrite h v m
    else if o % 0x10 = 4 then hvRefWrite h v m
    else storeFields key v m
  | 0x1E =>
    if key = R.FUS_CTL_EN.key then fusCtlWrite v m
    else match (List.range 4).find? fun z => key == (R.FUS_DEM_DEMAND z).key with
      | some z => fusDemWrite z v m
      | none => storeFields key v m
  | 0x23 => if 0x100 ≤ o && o < 0x140 then gpCfgWrite ((o - 0x100) / 4) v m else storeFields key v m
  | 0x1F => if key = R.SNS_CTL_EN.key then snsCtlWrite v m else storeFields key v m
  | 0x24 => if key = R.ADC_MKCTL_MKEN.key then mkctlWrite v m else storeFields key v m
  | _ => storeFields key v m

/-- Microcode and coefficients that the supervisor, or a DMA channel, writes lose their measurement (R393). -/
def sclSpoil (q : Requester) (o : Nat) (m : Mach) : Mach :=
  let by_ : Bool := match q with | .ctx c _ => c == 8 | .dma _ => true | _ => false
  if !by_ then m
  else if 0x8000 ≤ o && o < 0xC000 && !m.on R.SCL_CTL_EN then measSpoil 11 m
  else if 0x4000 ≤ o && o < 0x8000 then measSpoil 12 m
  else m

/-- The write of a register that exists, whose block may be written by the requester and is up. -/
def writeReg (q : Requester) (key : Nat) (v : Word) (m : Mach) : Mach :=
  let b := key / 65536
  let o := key % 65536
  let n := Requester.id q
  if b < 0x04 || b = 0x06 then writeBase n b o key v m
  else if b = 0x04 then
    if key = R.FLT_CLR_SRC.key then fltClr q v m
    else if key = R.FLT_ALIVE_EN.key then aliveWrite v m
    else if key = R.FLT_KICK.key then kickWrite v m
    else storeFields key v m
  else if b = 0x07 then
    match q with
    | .ctx core k => writeSlu core k o key v m
    | _ => ignored key m
  else if b < 0x0D then writeData q b o key v m
  else if b = 0x0D then writeCox o key v m
  else if b = 0x0E then sclSpoil q o (sclWrite n key v m)
  else if b < 0x15 then writeVid (b - 0x10) o key v m
  else if b = 0x15 then writeBmap q o key v m
  else if b < 0x1D then writeMotion b o key v m
  else if b = 0x20 then fjlWrite n key v m
  else if b = 0x21 then secWrite n key v m
  else writeProcess b o key v m

/-- A word is written to the register at a BAR0 offset: by a store, a comparator, DMA, the engine or the host, or, with
`staged`, by a commit. -/
def busWrite (q : Requester) (staged : Bool) (key : Nat) (v : Word) (m : Mach) : Mach :=
  guarded q staged key (fun m => writeReg q key v (noteWriter q key m)) m

/-! ## Reads -/

/-- The word a register shows to a requester, with no side effect. -/
def readWord (q : Requester) (key : Nat) (m : Mach) : Word :=
  let n := Requester.id q
  let bmap (f : Nat → Word) : Word :=
    match bmapStation q m with | some s => if domUp (4 + s) m then f s else 0 | none => 0
  if perRequester key then m.own n key
  else if (R.BMAP_ENTRY 0).key ≤ key && key < R.BMAP_SEL_STN.key then
    bmap fun s => m.shown (R.VID_ENTRY s ((key - (R.BMAP_ENTRY 0).key) / 4)).key
  else if key = R.BMAP_INFO_USED.key then
    bmap fun s =>
      let used := m.get (R.VID_CTL_FACETS s) * (m.get (R.VID_CTL_NZM1 s) + 1) * 16
      BitVec.ofNat 32 (used % 8192 + m.get (R.VID_CTL_BANKS s) * 2 ^ 13 + m.get (R.VID_CTL_BANK s) * 2 ^ 14)
  else if (R.SCL_RCWIN 0).key ≤ key && key < 0x0F0000 then tget 0 (rcIndex n key m) m.scl.rc
  else m.shown key

/-- A read of a register's word by a requester (R12, R13, R14, R338): the value, and what the read does. -/
def busRead (q : Requester) (key : Nat) (m : Mach) : Word × Mach :=
  let n := Requester.id q
  if !regExists key m then (0, regNote 0x38 key m)
  else if !regUp key m then (0, note 0x020 0x02 (0x40000000 + key) m)
  else if latchesHigh key then
    (readWord q key m, readClear key { m with latches := tput (reqKey n (key + 4)) (readWord q (key + 4) m) m.latches })
  else match tfind (reqKey n key) m.latches with
    | some w => (w, { m with latches := tdel (reqKey n key) m.latches })
    | none => (readWord q key m, readClear key m)

/-! ## The commands -/

/-- An access of another width or alignment than an aligned word (R11). -/
def badWidth (key : Nat) (m : Mach) : Mach := note (regSrc key) 0x39 (0x40000000 + key) m

/-- A requester that is the host reaches the registers only through a live endpoint. -/
def reaches (q : Requester) (m : Mach) : Bool := q != .host || hostReach m

/-- REGISTER_WRITE (R16): a write of some bytes at a BAR0 offset, made directly (not by a commit). -/
def opRegisterWrite (q : Requester) (off bytes : Nat) (v : Word) (m : Mach) : Mach :=
  if !reaches q m then m
  else if bytes != 4 || off % 4 != 0 then badWidth off m
  else busWrite q false off v m

/-- A read command: the word goes to the requester. -/
def readFor (q : Requester) (off : Nat) (m : Mach) : Mach :=
  if !reaches q m then m
  else if off % 4 != 0 then (badWidth off m).answer q 0
  else
    let x := busRead q off m
    x.2.answer q x.1

/-- LATCHED_LOW_READ (R12). -/
def opLatchedLowRead (q : Requester) (off : Nat) (m : Mach) : Mach := readFor q off m

/-- READ_CLEAR (R14, Table 0.3). -/
def opReadClear (q : Requester) (off : Nat) (m : Mach) : Mach := readFor q off m

end Sys2Proof.Machine
end

