-- ==== Sys2Proof/Machine/Commit.lean ====
section
/-! DEFINITION. Comparators that fire (R90-R93) and commits that become ready and are applied (R97-R102). -/

namespace Sys2Proof.Machine

/-! ## Comparators -/

/-- A comparator fires (R90, R93): it is armed anew or freed, its action acts (a REGWR by the bus, which discards a write
to a domain that is down), and CMPFIRE is set in the arming context. -/
def fireNow (i : Nat) (m : Mach) : Mach :=
  let c := m.cmp i
  let m := rearm i m
  let m := if c.action = 5 then busWrite (.ctx (i / 32) c.ctx) false c.regOff c.value m else pinAction i m
  m.evSet (cix (i / 32) c.ctx) 1

/-- An armed comparator of a core has reached its target. -/
def cmpDue (core n : Nat) (m : Mach) : Bool :=
  let c := m.cmp (core * 32 + n)
  c.armed && baseReached c.base c.stn c.tgt m

/-- COMPARATOR_FIRE (R90): the timebase has reached the target of an armed comparator. Those of the core with a lower
number that have reached theirs and drive the same pin act first (Table 3.10). -/
def opComparatorFire (core n : Nat) (m : Mach) : Mach :=
  if cmpDue core n m then
    let c := m.cmp (core * 32 + n)
    let same (j : Nat) : Bool := let d := m.cmp (core * 32 + j)
      decide (1 ≤ c.action) && decide (c.action ≤ 4) && decide (1 ≤ d.action) && decide (d.action ≤ 4) && d.pin == c.pin
    let before := (List.range n).filter fun j => cmpDue core j m && same j
    fireNow (core * 32 + n) (each before (fun j => fireNow (core * 32 + j)) m)
  else m

/-! ## Applying commits -/

/-- A register that the commit writes lies in a power domain that is down (Table 3.13, DOMAIN). -/
def commitDown (k : Commit) (m : Mach) : Bool :=
  k.entries.any fun e => blockAssigned (e.1 / 65536) && !regUp e.1 m

/-- Takes every ledger transition that is due by a timebase: catches, then sheets transferred. -/
def ledgerDue (m : Mach) : Mach := each (recsIn (·.busy) (catchesDue m)) opSheetTransferred (catchesDue m)

/-- The commit writes to SLU. -/
def touchesSlu (k : Commit) : Bool := k.entries.any fun e => e.1 / 65536 == 0x07

/-- Applies a context's commit whole, in staging order, and resolves it (R98, R99); with DOMAIN nothing is
applied. A ledger transition due in the same cycle comes before a commit that writes to SLU (Table 3.14). The commit
leaves its slot first, so that no write of its own cancels it. -/
def applyCommit (code i : Nat) (m : Mach) : Mach :=
  match (m.ctx i).slot with
  | none => m
  | some k =>
    if commitDown k m then resolve i 3 m
    else
      let m := when (touchesSlu k) ledgerDue m
      resolveWith i code k (each k.entries (fun e => busWrite (.ctx (i / 4) (i % 4)) true e.1 e.2) (slotEmpty i m))

/-- Contexts whose sealed commit is ready and satisfies p, with the order of sealing. -/
def commitsWith (p : Commit → Bool) (m : Mach) : List (Nat × Nat) :=
  m.cox.ctxs.filterMap fun (i, c) =>
    match c.slot with
    | some k => if k.ready && p k then some (k.seq, i) else none
    | none => none

/-- Inserts by order of sealing. -/
def bySeq (x : Nat × Nat) : List (Nat × Nat) → List (Nat × Nat)
  | [] => [x]
  | y :: t => if x.1 < y.1 then x :: y :: t else y :: bySeq x t

/-- Applies every ready commit that satisfies p, one after the other in the order of sealing (Table 3.14), before any
snapshot capture of the cycle (R98). -/
def commitsAt (p : Commit → Bool) (m : Mach) : Mach :=
  indivisible (each ((commitsWith p m).foldl (fun l x => bySeq x l) [])
    (fun x m => if (m.ctx x.2).slot.map (·.seq) == some x.1 then applyCommit 0 x.2 m else m)) m

/-- Applies the ready commits bound to one of these boundaries. -/
def commitsFor (bs : List Boundary) (m : Mach) : Mach := commitsAt (fun k => bs.contains k.boundary) m

/-- The polygon of a station is neither driven nor sought (Table 10.4), and no stroke has started within 1.5 periods of
the latest (R187). -/
def polyStopped (s : Nat) (m : Mach) : Bool :=
  let st := m.get (R.POLY_STAT_STATE s)
  match stampsOf m s with
  | some (_, _, dt, _) => (st == 0 || 5 ≤ st) && decide (3 * dt ≤ 2 * ((m.now : Int) - (m.vidOf s).bdAt.toNat))
  | none => true

/-- A station produces no strokes (DEDUCED, log entry 14): its island is off, no two strokes have started since it came
on, or its polygon has stopped. -/
def noStrokes (s : Nat) (m : Mach) : Bool := !m.on (R.VID_CTL_EN s) || polyStopped s m

/-- The target of a commit with a target has been reached; a gap of a station without strokes comes at once (R100). -/
def boundaryHere (b : Boundary) (m : Mach) : Bool :=
  match b with
  | .now => true
  | .tick t => t.toNat ≤ m.now
  | .ppc p => ppcReached m.ppcNow p.toNat
  | .strokeN s n => cntReached (m.get (R.CLK_TB_STROKE s)) n.toNat
  | .gap s => noStrokes s m
  | _ => false

/-- Its target lies in the past, so that a commit which becomes ready only now is late (R97). A stroke's capture
instant is its start, which is past as soon as the count shows it. -/
def boundaryPast (b : Boundary) (m : Mach) : Bool :=
  match b with
  | .tick t => t.toNat < m.now
  | .ppc p => ppcReached m.ppcNow p.toNat && m.clk.ppc != p
  | .strokeN s n => cntReached (m.get (R.CLK_TB_STROKE s)) n.toNat
  | _ => false

end Sys2Proof.Machine
end

