-- ==== Sys2Proof/Machine/Scull.lean ====
section
/-! DEFINITION. The Scull engine at work (chapter 7): triggers and sample boundaries, input and output bindings, the
microprogram, the repetitive controller and the hand-over. -/

namespace Sys2Proof.Machine

/-! ## Words -/

/-- Q15 word i of a file held two to a register word, the even one low (R220). -/
def half (w : Word) (i : Nat) : Int := sint 16 (w.toNat / 2 ^ (i % 2 * 16))

/-- A register word with Q15 word i replaced. -/
def halfPut (w : Word) (i : Nat) (v : Int) : Word := withBits w (i % 2 * 16 + 15) (i % 2 * 16) (uint 16 v)

/-- X[i] of a group. -/
def xGet (m : Mach) (g i : Nat) : Int := half (m.word (R.SCL_XFILE g (i % 64 / 2)).key) i
/-- Sets X[i] of a group. -/
def xPut (g i : Nat) (v : Int) (m : Mach) : Mach :=
  let k := (R.SCL_XFILE g (i % 64 / 2)).key
  m.setWord k (halfPut (m.word k) i v)
/-- Y[i] of a group. -/
def yGet (m : Mach) (g i : Nat) : Int := half (m.word (R.SCL_YFILE g (i % 64 / 2)).key) i
/-- Coefficient word i. -/
def cGet (m : Mach) (i : Nat) : Int := half (m.word (R.SCL_COEF (i % 8192 / 2)).key) i
/-- Repetitive-controller word i. -/
def rcGet (m : Mach) (i : Nat) : Int := half (tget 0 (i % 16384 / 2) m.scl.rc) i
/-- Sets repetitive-controller word i. -/
def rcSet (i : Nat) (v : Int) (m : Mach) : Mach :=
  rcPut (i % 16384 / 2) (halfPut (tget 0 (i % 16384 / 2) m.scl.rc) i v) m

/-- Limits to Q15. -/
def q15 (i : Int) : Int := clampI (-32768) 32767 i

/-! ## Triggers (R194, R198, R218) -/

/-- A slot whose run the fall-back clock sheds (R199). -/
def slotShed (n : Nat) (m : Mach) : Bool :=
  m.on R.SCL_STAT_FALLBK && m.on R.SCL_CTL_SHEDEN && m.on (R.SCL_SLOT_CTL_SHED n)

/-- A missed trigger (R198). -/
def slotMiss (n : Nat) (m : Mach) : Mach :=
  let m := (m.incSat (R.SCL_SLOT_CNT_MISS n)).incSat R.SCL_MISSALL_MISS
  assertEvent 0x0E0 (raise (slotSrc n) 0x01 (min 3 (m.get (R.SCL_SLOT_CTL_MISSCLS n))) m 0 n)

/-- The sample boundary of a slot: the commits bound to it apply, then what is pending for it (R99, R218). -/
def sampleBoundary (n : Nat) (m : Mach) : Mach :=
  handOver n (m.get (R.SCL_SLOT_CTL_MODE n)) (applySlot n (commitsFor [.slot n] m))

/-- A run of a slot's group is in progress. -/
def groupRunning (n : Nat) (m : Mach) : Bool :=
  match m.scl.run with | some r => r.slot / 8 == n / 8 | none => false

/-- The sync event of a slot (R214). -/
def rcSync (n : Nat) (m : Mach) : Mach :=
  let len := m.get (R.SCL_SLOT_RCA_LEN n)
  let idx := m.get (R.SCL_SLOT_RCSTAT_IDX n)
  let d := if len < 2 * idx then len - idx else idx
  let m := { m with scl := { m.scl with syncDue := m.scl.syncDue.erase n } }
  if len == 0 || idx == 0 then m
  else
    let m := m.set (R.SCL_SLOT_RCSTAT_IDX n) 0
    if d ≤ m.get (R.SCL_SLOT_RCB_SYNCTOL n) then m
    else
      let m := (m.onSlot n fun s => { s with hold := len }).incSat (R.SCL_SLOT_RCSTAT_SYNCERR n)
      assertEvent 0x0E3 (note (slotSrc n) 0x04 n m)

/-- RC_SYNC_EVENT (R214): the slot's sync line has been asserted. -/
def opRcSyncEvent (n : Nat) (m : Mach) : Mach := if m.scl.syncDue.contains n then rcSync n m else m

/-- What every trigger does, dispatched or missed: its time, the index and the sync hold go on (R198, R212, R214). -/
def triggerCounts (n : Nat) (m : Mach) : Mach :=
  let len := m.get (R.SCL_SLOT_RCA_LEN n)
  let m := m.set (R.SCL_SLOT_TRTICK_TICK n) m.now
  let m := when (0 < len) (fun m => m.set (R.SCL_SLOT_RCSTAT_IDX n) ((m.get (R.SCL_SLOT_RCSTAT_IDX n) + 1) % len)) m
  m.onSlot n fun s => { s with last := some m.clk.tick, hold := s.hold - 1 }

/-- SLOT_TRIGGER (R194): a trigger of an enabled slot is recognised. A sync event that waits is applied first (R214);
the sample boundary falls here, or at the end of a run of the group. -/
def opSlotTrigger (n : Nat) (m : Mach) : Mach :=
  if !m.scl.trigDue.contains n then m
  else
    let m := { m with scl := { m.scl with trigDue := m.scl.trigDue.erase n } }
    if !(m.on (R.SCL_SLOT_CTL_EN n) && m.on R.SCL_CTL_EN) then m
    else
      let m := opRcSyncEvent n m
      let m := if groupRunning n m then { m with scl := { m.scl with bounds := m.scl.bounds ++ [n] } } else sampleBoundary n m
      let s := m.sclSlot n
      let soon := match s.last with | some t => m.now < t.toNat + 1000 | none => false
      let idx := m.get (R.SCL_SLOT_RCSTAT_IDX n)
      let m := triggerCounts n m
      if slotShed n m then m
      else if soon || s.reading || m.on (R.SCL_SLOT_STAT_PEND n) || m.on (R.SCL_SLOT_STAT_RUNNING n) then slotMiss n m
      else m.onSlot n fun x => { x with reading := true, idx := idx, held := 0 < s.hold }

/-! ## Inputs (R201) -/

/-- Reads one input into X; false when it fails to read. -/
def inputRead (n : Nat) (a : Mach × Bool) (i : Nat) : Mach × Bool :=
  let m := a.1
  let g := n / 8
  let e := m.get (R.SCL_SLOT_BUD_BIND n) + i
  let key := m.get (R.SCL_BINDA_ADDR e)
  let x := m.get (R.SCL_BINDB_XIDX e)
  let ok := regExists key m && regUp key m && key % 4 == 0
  let r := busRead .scull key m
  let m := r.2
  if !ok then (m, false)
  else if m.on (R.SCL_BINDB_RAW32 e) then
    (xPut g (x + 1) (half r.1 1) (xPut g x (half r.1 0) m), a.2)
  else
    let lo := m.get (R.SCL_BINDB_LSB e)
    let w := m.get (R.SCL_BINDB_WM1 e) + 1
    let v := bitsOf r.1 (lo + w - 1) lo
    let v : Int := if m.on (R.SCL_BINDB_SIGNED e) then sint w v else v
    (xPut g x (q15 (v * 2 ^ m.get (R.SCL_BINDB_SH e))) m, a.2)

/-- SLOT_INPUTS_READ (R201): the slot's inputs have arrived, and it becomes pending; an input that fails to read makes
the trigger a miss. They are read after the slot's sample boundary, which a run of its group may hold up (R218). -/
def opSlotInputsRead (n : Nat) (m : Mach) : Mach :=
  if !(m.sclSlot n).reading || m.scl.bounds.contains n then m
  else
    let m := m.onSlot n fun s => { s with reading := false }
    let r := (List.range (m.get (R.SCL_SLOT_BUD_NIN n))).foldl (inputRead n) (m, true)
    if !r.2 then slotMiss n r.1
    else if slotShed n r.1 then r.1
    else r.1.set (R.SCL_SLOT_STAT_PEND n) 1

/-! ## The microprogram (R204-R213, R216) -/

/-- A microinstruction (Table 7.5). -/
inductive Micro where
  | end_ | clr (a : Nat) | lda (a p : Nat) | ldl (a p : Nat) | add (a p : Nat) | sub (a p : Nat)
  | mpy (a p q : Nat) | mac (a p q : Nat) | msu (a p q : Nat) | adda (a k : Nat) | suba (a k : Nat)
  | shr (a k : Nat) | shl (a k : Nat) | lim (a p q : Nat) | str (a p : Nat) | stl (a p : Nat)
  | abs (a : Nat) | neg (a : Nat) | tbl (a p q : Nat) | rcld (a : Nat) | rcup (p : Nat) | pre (a k : Nat)
  | mov (p q : Nat) | skp (cond n : Nat) | nop
  deriving DecidableEq, Repr

/-- The microinstruction of a word, none when its encoding is undefined (R207). -/
def microOf (w : Word) : Option Micro :=
  let a := bitsOf w 26 25
  let p := bitsOf w 24 16
  let q := bitsOf w 15 7
  let k := bitsOf w 6 0
  let rd (x : Nat) : Bool := x < 0x100
  let only (c : Bool) (i : Micro) : Option Micro := if c then some i else none
  match bitsOf w 31 27 with
  | 0x01 => only (a == 0 && p == 0 && q == 0 && k == 0) .end_
  | 0x02 => only (p == 0 && q == 0 && k == 0) (.clr a)
  | 0x03 => only (rd p && q == 0 && k == 0) (.lda a p)
  | 0x04 => only (rd p && p % 2 == 0 && q == 0 && k == 0) (.ldl a p)
  | 0x05 => only (rd p && q == 0 && k == 0) (.add a p)
  | 0x06 => only (rd p && q == 0 && k == 0) (.sub a p)
  | 0x07 => only (rd p && rd q && k == 0) (.mpy a p q)
  | 0x08 => only (rd p && rd q && k == 0) (.mac a p q)
  | 0x09 => only (rd p && rd q && k == 0) (.msu a p q)
  | 0x0A => only (p == 0 && q == 0 && k < 4) (.adda a k)
  | 0x0B => only (p == 0 && q == 0 && k < 4) (.suba a k)
  | 0x0C => only (p == 0 && q == 0 && 1 ≤ k && k ≤ 39) (.shr a k)
  | 0x0D => only (p == 0 && q == 0 && 1 ≤ k && k ≤ 39) (.shl a k)
  | 0x0E => only (rd p && rd q && k == 0) (.lim a p q)
  | 0x0F => only (p < 0x40 && q == 0 && k == 0) (.str a p)
  | 0x10 => only (p < 0x40 && p % 2 == 0 && q == 0 && k == 0) (.stl a p)
  | 0x11 => only (p == 0 && q == 0 && k == 0) (.abs a)
  | 0x12 => only (p == 0 && q == 0 && k == 0) (.neg a)
  | 0x13 => only (rd p && 0x80 ≤ q && q + 16 < 0x100 && k == 0) (.tbl a p q)
  | 0x14 => only (p == 0 && q == 0 && k == 0) (.rcld a)
  | 0x15 => only (a == 0 && rd p && q == 0 && k == 0) (.rcup p)
  | 0x16 => only (p == 0 && q == 0 && k < 4) (.pre a k)
  | 0x17 => only (a == 0 && p < 0x40 && rd q && k == 0) (.mov p q)
  | 0x18 => only (p == 0 && q == 0 && k / 8 < 8 && 1 ≤ k % 8) (.skp (k / 8 * 4 + a) (k % 8))
  | 0x19 => only (a == 0 && p == 0 && q == 0 && k == 0) .nop
  | _ => none

/-- Engine cycles of a word (Table 7.5), executed or skipped (R196). -/
def microCost (w : Word) : Nat :=
  match bitsOf w 31 27 with | 0x13 => 3 | 0x14 => 2 | 0x15 => 3 | _ => 1

/-- A run under way: the accumulators and the run flags. -/
structure SclCpu where
  m : Mach
  n : Nat
  acc : List Int := [0, 0, 0, 0]
  limf : Bool := false
  satf : Bool := false
  hov : Bool
  frozen : Bool

/-- Operand x at a 9-bit address (Table 7.3). -/
def SclCpu.x (c : SclCpu) (p : Nat) : Int :=
  let g := c.n / 8
  if p < 0x40 then xGet c.m g p
  else if p < 0x80 then yGet c.m g (p - 0x40)
  else cGet c.m (c.m.get (R.SCL_SLOT_CBASE c.n) + (p - 0x80))

/-- Accumulator a. -/
def SclCpu.a (c : SclCpu) (a : Nat) : Int := c.acc.getD a 0

/-- Sets an accumulator, saturating to 40 bits (R206). -/
def SclCpu.setA (c : SclCpu) (a : Nat) (v : Int) : SclCpu :=
  let w := clampI (-(2 ^ 39)) (2 ^ 39 - 1) v
  { c with acc := setAt c.acc a w, satf := c.satf || w != v }

/-- Stores to X a value that has been limited, setting SATF if the limit acted. -/
def SclCpu.setX (c : SclCpu) (p : Nat) (v : Int) : SclCpu := { c with m := xPut (c.n / 8) p v c.m }

/-- RCUP (R212): the updated word, and what saturation reports. -/
def SclCpu.rcup (c : SclCpu) (p : Nat) : SclCpu :=
  let n := c.n
  let m := c.m
  if c.frozen then c
  else
    let i := m.get (R.SCL_SLOT_RCA_BASE n) + (m.sclSlot n).idx % m.get (R.SCL_SLOT_RCA_LEN n)
    let forget := max 0 (m.getI (R.SCL_SLOT_RCG_FORGET n))
    let v := (forget * rcGet m i + m.getI (R.SCL_SLOT_RCG_LEARN n) * c.x p + 2 ^ 14) / 2 ^ 15
    let m := rcSet i (q15 v) m
    if q15 v == v then { c with m := m }
    else
      let m := m.incSat (R.SCL_SLOT_RCSTAT_RCSAT n)
      let due := match (m.sclSlot n).satAt with | some t => decide (t.toNat + msTicks 1 ≤ m.now) | none => true
      if due then { c with m := note (slotSrc n) 0x05 n (m.onSlot n fun s => { s with satAt := some m.clk.tick }) }
      else { c with m := m }

/-- Condition of SKP (R210); the code carries the accumulator in its low bits. -/
def SclCpu.cond (c : SclCpu) (k : Nat) : Bool :=
  let v := c.a (k % 4)
  match k / 4 with
  | 0 => v < 0 | 1 => v == 0 | 2 => 0 < v | 3 => 0 ≤ v
  | 4 => c.limf | 5 => c.hov | 6 => c.m.get (R.SCL_SLOT_CTL_MODE c.n) == 1 | _ => c.frozen

/-- The effect of a microinstruction other than END and SKP (R208). -/
def SclCpu.exec (c : SclCpu) : Micro → SclCpu
  | .clr a => c.setA a 0
  | .lda a p => c.setA a (c.x p * 2 ^ 15)
  | .ldl a p => c.setA a (c.x (p + 1) * 2 ^ 16 + c.x p % 2 ^ 16)
  | .add a p => c.setA a (c.a a + c.x p * 2 ^ 15)
  | .sub a p => c.setA a (c.a a - c.x p * 2 ^ 15)
  | .mpy a p q => c.setA a (c.x p * c.x q)
  | .mac a p q => c.setA a (c.a a + c.x p * c.x q)
  | .msu a p q => c.setA a (c.a a - c.x p * c.x q)
  | .adda a k => c.setA a (c.a a + c.a k)
  | .suba a k => c.setA a (c.a a - c.a k)
  | .shr a k => c.setA a (c.a a / 2 ^ k)
  | .shl a k => c.setA a (c.a a * 2 ^ k)
  | .lim a p q =>
    let lo := c.x p * 2 ^ 15
    let hi := c.x q * 2 ^ 15
    let v := min (max (c.a a) lo) hi
    { c.setA a v with limf := c.limf || c.a a < lo || hi < max (c.a a) lo }
  | .str a p =>
    let v := (c.a a + 2 ^ 14) / 2 ^ 15
    { c.setX p (q15 v) with satf := c.satf || q15 v != v }
  | .stl a p =>
    let v := clampI (-(2 ^ 31)) (2 ^ 31 - 1) (c.a a)
    { (c.setX p v).setX (p + 1) (v / 2 ^ 16) with satf := c.satf || v != c.a a }
  | .abs a => c.setA a (if c.a a < 0 then -c.a a else c.a a)
  | .neg a => c.setA a (-c.a a)
  | .tbl a p q =>
    let u := (max 0 (c.x p)).toNat
    let t0 := c.x (q + u / 2048)
    let t1 := c.x (q + u / 2048 + 1)
    c.setA a (t0 * 2 ^ 15 + (t1 - t0) * (u % 2048 : Nat) * 2 ^ 4)
  | .rcld a =>
    let len := c.m.get (R.SCL_SLOT_RCA_LEN c.n)
    let i := ((c.m.sclSlot c.n).idx + c.m.get (R.SCL_SLOT_RCB_LEAD c.n)) % len
    c.setA a (rcGet c.m (c.m.get (R.SCL_SLOT_RCA_BASE c.n) + i) * 2 ^ 15)
  | .rcup p => c.rcup p
  | .pre a k => if c.hov then c.setA a ((if manual0 c.n c.m then (c.m.sclSlot c.n).h else 0) * 2 ^ 15 - c.a k) else c
  | .mov p q => c.setX p (c.x q)
  | _ => c

/-- How a run came to its end. -/
inductive RunEnd where
  | ended | illegal | budget
  deriving DecidableEq, Repr

/-- Microcode word at an address; there is none past the memory. -/
def ucode (m : Mach) (pc : Nat) : Option Word := if pc < 4096 then some (m.word (R.SCL_UCODE pc).key) else none

/-- One of the next k words is END, so that a skip over them would pass it (R210). -/
def skipsEnd (m : Mach) (pc k : Nat) : Bool :=
  (List.range k).any fun j => (ucode m (pc + 1 + j)).any fun w => microOf w == some .end_

/-- Engine cycles of k words from an address. -/
def skipCost (m : Mach) (pc k : Nat) : Nat :=
  (List.range k).foldl (fun n j => n + ((ucode m (pc + j)).map microCost).getD 1) 0

/-- RCLD and RCUP need a memory (R211). -/
def needsRc : Micro → Bool
  | .rcld _ => true | .rcup _ => true | _ => false

/-- Runs microcode from an address until END, an undefined word or the end of the budget (R196, R197). `used` counts
engine cycles since dispatch; the fuel is the budget, as each word takes a cycle at least. -/
def SclCpu.run : Nat → Nat → Nat → SclCpu → RunEnd × Nat × SclCpu
  | 0, _, used, c => (.budget, used, c)
  | fuel + 1, pc, used, c =>
    let budget := c.m.get (R.SCL_SLOT_BUD_BUDGET c.n)
    match (ucode c.m pc).bind microOf with
    | none => if budget ≤ used then (.budget, budget, c) else (.illegal, used, c)
    | some i =>
      let used' := used + ((ucode c.m pc).map microCost).getD 1
      if budget < used' then (.budget, budget, c)
      else match i with
        | .end_ => (.ended, used', c)
        | .skp k j =>
          if skipsEnd c.m pc j then (.illegal, used, c)
          else if c.cond k then SclCpu.run fuel (pc + 1 + j) (used' + skipCost c.m (pc + 1) j) c
          else SclCpu.run fuel (pc + 1) used' c
        | i =>
          if needsRc i && c.m.get (R.SCL_SLOT_RCA_LEN c.n) == 0 then (.illegal, used, c)
          else SclCpu.run fuel (pc + 1) used' (c.exec i)

/-! ## Dispatch and the end of a run -/

/-- The pending slot that goes first: highest PRIO, then lowest number (R195). -/
def pendingFirst (m : Mach) : Option Nat :=
  ((slotHits m.regs 0x1C fun w => bitsOf w 1 1 == 1).filter fun n => !slotShed n m).foldl (fun best n =>
    match best with
    | none => some n
    | some b => if m.get (R.SCL_SLOT_CTL_PRIO b) < m.get (R.SCL_SLOT_CTL_PRIO n) then some n else best) none

/-- Learning is frozen for a run of the slot that is dispatched now (R213): a sync hold counts that covers its trigger,
or that a sync event after it has begun. -/
def learningFrozen (n : Nat) (m : Mach) : Bool :=
  m.on (R.SCL_SLOT_CTL_FREEZE n) || (manual0 n m && m.get (R.SCL_SLOT_CTL_MODE n) == 1) || m.on (R.SCL_SLOT_STAT_BLENDING n)
    || (m.on (R.SCL_SLOT_CTL_AUTOFRZ n) && (m.on (R.SCL_SLOT_STAT_LIMF n) || m.on (R.SCL_SLOT_STAT_ECLAMP n)))
    || (m.sclSlot n).held || 0 < (m.sclSlot n).hold

/-- The engine is free again: the time is counted (R196), the sample boundaries that waited for the group fall, and
the writes that waited take effect (R211, R218). -/
def runEnd (r : SclRun) (m : Mach) : Mach :=
  let m := (m.set (R.SCL_SLOT_STAT_RUNNING r.slot) 0).set R.SCL_STAT_BUSY 0
  let t := r.cycles * (if m.on R.SCL_STAT_FALLBK then 4 else 1)
  let old := m.scl.hist.filter fun p => m.now < p.1.toNat + msTicks 1
  let bs := m.scl.bounds
  let m := { m with scl := { m.scl with run := none, bounds := [], hist := (m.clk.tick, t) :: old } }
  let m := m.set R.SCL_LOAD_PEAK (max (m.get R.SCL_LOAD_PEAK) (sclUtil m))
  sclFlush (each bs sampleBoundary m)

/-- A stopped run (R197): no outputs, and a fault of kind scull-budget or scull-illegal. -/
def runStopped (r : SclRun) (kind : Nat) (m : Mach) : Mach :=
  let n := r.slot
  let m := (m.incSat (R.SCL_SLOT_CNT_BUDOVR n)).incSat R.SCL_MISSALL_BUDOVR
  runEnd r (raise (slotSrc n) kind (min 3 (m.get (R.SCL_SLOT_CTL_BUDCLS n))) m 0 n)

/-- SCULL_DISPATCH (R195): the idle engine takes the first pending slot and runs its microprogram. -/
def opScullDispatch (m : Mach) : Mach :=
  if m.scl.run.isSome || !m.on R.SCL_CTL_EN then m
  else match pendingFirst m with
    | none => m
    | some n =>
      let frozen := learningFrozen n m
      let hov := m.on (R.SCL_SLOT_STAT_HOV n)
      let m := ((m.set (R.SCL_SLOT_STAT_PEND n) 0).set (R.SCL_SLOT_STAT_RUNNING n) 1).set (R.SCL_SLOT_STAT_HOV n) 0
      let m := ((m.set (R.SCL_SLOT_STAT_FROZEN n) (b2n frozen)).set (R.SCL_SLOT_STAT_ECLAMP n) 0).set R.SCL_STAT_SLOT n
      let m := { m.set R.SCL_STAT_BUSY 1 with scl := { m.scl with writers := m.scl.writers.filter fun p => p.2 != n } }
      let budget := m.get (R.SCL_SLOT_BUD_BUDGET n)
      let out := SclCpu.run budget (m.get (R.SCL_SLOT_CTL_PSTART n)) 16 { m := m, n := n, hov := hov, frozen := frozen }
      let c := out.2.2
      let m := (c.m.set (R.SCL_SLOT_STAT_LIMF n) (b2n c.limf)).set (R.SCL_SLOT_STAT_SATF n) (b2n c.satf)
      let r : SclRun := { slot := n, ended := out.1 == .ended, cycles := out.2.1 }
      let m := { m with scl := { m.scl with run := some r } }
      if out.1 == .illegal then runStopped r 0x03 m else m

/-- SCULL_BUDGET_EXPIRE (R197): the budget has passed without END. -/
def opScullBudgetExpire (m : Mach) : Mach :=
  match m.scl.run with
  | some r => if r.ended then m else assertEvent 0x0E1 (runStopped r 0x02 m)
  | none => m

/-! ## Outputs (R202, R215, R217) -/

/-- The value that binding 0 writes, by the hand-over of R217, and the machine after it. -/
def blendOut (n : Nat) (m : Mach) : Int × Mach :=
  let s := m.sclSlot n
  let nb := max 1 (m.get (R.SCL_SLOT_MAN_BLEND n))
  let y := if m.get (R.SCL_SLOT_CTL_MODE n) == 1 then m.getI (R.SCL_SLOT_MAN_MANVAL n)
    else xGet m (n / 8) (m.get (R.SCL_BINDB_XIDX (outBase n m)))
  let was := m.on (R.SCL_SLOT_STAT_BLENDING n)
  let starts := s.k == 0 && decide (64 * (m.get (R.SCL_SLOT_MAN_BLIM n) : Int) < (y - s.h).natAbs)
  let armed := was && (s.k != 0 || starts)
  let k := if s.k == 0 then 1 else s.k
  let out := if armed then s.h + ((y - s.h) * k * 2 + nb) / (2 * nb) else y
  let goes := armed && k != nb
  let m := m.onSlot n fun s => { s with k := if goes then k + 1 else if armed then k else s.k }
  let m := (m.set (R.SCL_SLOT_STAT_BLENDING n) (b2n goes)).setI (R.SCL_SLOT_STAT_OUT0 n) out
  (out, when (was && !goes) (assertEvent 0x0E2) m)

/-- Writes one output's word, or discards it when its domain is down: the note names the slot (Table 13.2). -/
def outputWrite (n e : Nat) (w : Word) (m : Mach) : Mach :=
  let key := m.get (R.SCL_BINDA_ADDR e)
  if regUp key m then busWrite .scull false key w m else note (slotSrc n) 0x07 n m

/-- Output i of a slot. -/
def outputDo (n i : Nat) (m : Mach) : Mach :=
  let g := n / 8
  let e := outBase n m + i
  let x := m.get (R.SCL_BINDB_XIDX e)
  if m.on (R.SCL_BINDB_RAW32 e) then
    outputWrite n e (BitVec.ofNat 32 (uint 16 (xGet m g (x + 1)) * 65536 + uint 16 (xGet m g x))) m
  else
    let r := if i == 0 then blendOut n m else (xGet m g x, m)
    let m := r.2
    let lo := m.get (R.SCL_BINDB_LSB e)
    let w := m.get (R.SCL_BINDB_WM1 e) + 1
    let v := r.1 / 2 ^ m.get (R.SCL_BINDB_SH e)
    let c := if m.on (R.SCL_BINDB_SIGNED e) then clampI (-(2 ^ (w - 1))) (2 ^ (w - 1) - 1) v else clampI 0 (2 ^ w - 1) v
    let m := when (c != v) (fun m => m.set (R.SCL_SLOT_STAT_SATF n) 1) m
    outputWrite n e (withBits 0 (lo + w - 1) lo (uint w c)) m

/-- The outputs of a slot, in binding order (R202). -/
def outputsDo (n : Nat) (m : Mach) : Mach := each (List.range (m.get (R.SCL_SLOT_BUD_NOUT n))) (outputDo n) m

/-- SCULL_OUTPUT_WRITE (R202): the run that has reached END writes its outputs as one step, the engine is free, and
the slots chained to it are triggered. -/
def opScullOutputWrite (m : Mach) : Mach :=
  match m.scl.run with
  | some r =>
    if r.ended then
      let chained := slotHits m.regs 0x04 fun w => bitsOf w 2 0 == 5 && bitsOf w 12 6 == r.slot
      markTrig chained (runEnd r (outputsDo r.slot m))
    else m
  | none => m

end Sys2Proof.Machine
end

