-- ==== Sys2Proof/Machine/Map.lean ====
section
/-! DEFINITION. The internal address map (R80, R81, Table 3.4, Table 3.5): what stands at an address, and the reads
and writes of whole places that Meper and the DMA channels share. -/

namespace Sys2Proof.Machine

/-- What stands at an internal address. The alias of a core's own TCMs is resolved before. -/
inductive Place where
  | rom
  | sup
  | itcm (c : Nat)
  | dtcm (c : Nat)
  | line (s : Nat)
  | shared
  | bank (b : Nat)
  | reg (key : Nat)
  | dram
  | host
  | nowhere
  deriving DecidableEq, Repr

/-- The place of an address (Tables 3.4 and 3.5); DRAM reaches up to the usable capacity (R82). -/
def placeOf (m : Mach) (a : Nat) : Place :=
  if a < 0x20000 then .rom
  else if 0x10000000 ≤ a && a < 0x10040000 then .sup
  else if 0x20000000 ≤ a && a < 0x20800000 then
    let o := a % 0x100000
    if o < 0x10000 then .itcm ((a - 0x20000000) / 0x100000)
    else if o < 0x20000 then .dtcm ((a - 0x20000000) / 0x100000)
    else .nowhere
  else if 0x30000000 ≤ a && a < 0x30500000 then
    let s := (a - 0x30000000) / 0x100000
    if s < m.nStn then .line s else .nowhere
  else if 0x30500000 ≤ a && a < 0x307F0000 then .shared
  else if 0x307F0000 ≤ a && a < 0x30800000 then .bank ((a - 0x307F0000) / 0x8000)
  else if 0x40000000 ≤ a && a < 0x41000000 then .reg (a - 0x40000000)
  else if 0x0400000000 ≤ a && a < 0x0400000000 + dramMib m * 2 ^ 20 then .dram
  else if inHost a then .host
  else .nowhere

/-- An address whose power domain is down (R338). -/
def addrDown (m : Mach) (a : Nat) : Bool := let d := addrDomain a; d != 0 && !domUp d m

/-- A byte of a snapshot bank: while a capture writes the bank, its head word is the new one already (log entry 23). -/
def bankByte (b off : Nat) (mem : Mem) (m : Mach) : Byte :=
  BitVec.ofNat 8 ((bankWord b (off / 4 * 4) mem m).toNat / 2 ^ (off % 4 * 8))

/-- The measurement that a write to a memory spoils (R393). -/
def placeMeas : Place → Option Nat
  | .sup => some 2
  | .itcm c => some (3 + c)
  | .dtcm c => some (3 + c)
  | _ => none

/-- A write of a measured memory by the supervisor, or by DMA. -/
def placeSpoil (p : Place) (m : Mach) : Mach := match placeMeas p with | some i => measSpoil i m | none => m

end Sys2Proof.Machine
end

