-- ==== Sys2Proof/Machine/Dma.lean ====
section
/-! DEFINITION. DMA channels at work: the accesses they make, fetches of TDs, bursts and completions (R319-R325). -/

namespace Sys2Proof.Machine

/-! ## Accesses -/

/-- Why an access cannot be made now. -/
inductive DmaStop where
  /-- a fault of a type at an address: the channel parks -/
  | fault (ty a : Nat)
  /-- no cached translation, or one without the permission: the DATU works on it -/
  | miss (a : Nat) (wr : Bool)
  | perm (a : Nat) (wr : Bool)
  /-- the endpoint is in D3hot: the channel waits -/
  | asleep (a : Nat)
  /-- DRAM requests are held: nothing happens -/
  | held
  deriving DecidableEq, Repr

/-- What stands in the way of a channel's access to one address (R324, R325). -/
def dmaStopAt (m : Mach) (wr : Bool) (a : Nat) : Option DmaStop :=
  if addrDown m a then some (.fault fDomain a)
  else match placeOf m a with
    | .nowhere => some (.fault fBus a)
    | .rom => if wr || m.cox.romSealed then some (.fault fBus a) else none
    | .dram => if dramHeld m then some .held else none
    | .host =>
      if hostHeld m then some (.asleep a)
      else match datuLook m a wr with
        | .hit _ => none
        | .miss => some (.miss a wr)
        | .perm => some (.perm a wr)
        | .abort => some (.fault fXlate a)
    | _ => none

/-- An address of the 40-bit map. -/
def addr40 (a : Nat) : Nat := a % 2 ^ 40

/-- What stands in the way of an access to n bytes. -/
def dmaStop (m : Mach) (wr : Bool) (a n : Nat) : Option DmaStop :=
  (List.range n).findSome? fun i => dmaStopAt m wr (addr40 (a + i))

/-- What a stop does to the channel. -/
def dmaStopped (c : Nat) (x : DmaStop) (m : Mach) : Mach :=
  match x with
  | .fault ty a => parkFree c ty a m
  | .miss a wr => startWalk c a wr (setCur c a m)
  | .perm a wr => needPage c a wr true m
  | .asleep a =>
    ((setCur c a m).set (R.DMA_STAT_STATE c) dWait).onChan c fun h =>
      { h with waitAt := match h.waitAt with | some t => some t | none => some m.clk.tick }
  | .held => m

/-- One byte of a place that is not a register. -/
def dmaByte (m : Mach) (mem : Mem) (a : Nat) : Byte :=
  match placeOf m a with
  | .rom => Config.bootRom a
  | .bank b => bankByte b (a % 0x8000) mem m
  | .host => match datuLook m a false with | .hit h => mem.hostRd h | _ => 0
  | _ => mem.rd a

/-- The IOTLB's translation of an address is the latest used of its set. -/
def tlbTouch (a : Nat) (m : Mach) : Mach :=
  match tlbFind m ((a - hostWindow) / 4096) with | some x => tlbUse x m | none => m

/-- Reads n bytes that nothing stands in the way of. Registers are read as aligned words; any other piece of one reads
0 with a note (R11). A read of a snapshot bank holds it (R46). -/
def dmaRead (c : Nat) (mem : Mem) : Nat → Nat → Nat → Mach → List Byte × Mach
  | 0, _, _, m => ([], m)
  | _, 0, _, m => ([], m)
  | fuel + 1, n, a, m =>
    let a := addr40 a
    match placeOf m a with
    | .reg key =>
      if a % 4 = 0 && 4 ≤ n then
        let x := busRead (.dma c) key m
        let r := dmaRead c mem fuel (n - 4) (a + 4) x.2
        (leBytes 4 x.1.toNat ++ r.1, r.2)
      else
        let r := dmaRead c mem fuel (n - 1) (a + 1) (badWidth key m)
        (0 :: r.1, r.2)
    | .bank b =>
      let r := dmaRead c mem fuel (n - 1) (a + 1) (holdBank b m)
      (bankByte b (a % 0x8000) mem m :: r.1, r.2)
    | p =>
      let r := dmaRead c mem fuel (n - 1) (a + 1) (when (p == .host) (tlbTouch a) m)
      (dmaByte m mem a :: r.1, r.2)

/-- Writes bytes where nothing stands in the way. Register targets are written as whole words. -/
def dmaWrite (c : Nat) : List Byte → Nat → Mach → Mem → Mach × Mem
  | [], _, m, mem => (m, mem)
  | b0 :: bs, a, m, mem =>
    let a := addr40 a
    match placeOf m a with
    | .reg key =>
      if a % 4 = 0 then
        dmaWrite c bs (a + 1) (busWrite (.dma c) false key (BitVec.ofNat 32 (leNat (b0 :: bs.take 3))) m) mem
      else dmaWrite c bs (a + 1) m mem
    | .host =>
      match datuLook m a true with
      | .hit h => dmaWrite c bs (a + 1) (tlbTouch a m) (mem.hostWr h b0)
      | _ => dmaWrite c bs (a + 1) m mem
    | p => dmaWrite c bs (a + 1) (placeSpoil p m) (mem.wr a b0)

/-! ## Bursts (R320, R321) -/

/-- A signed stride times a line number. -/
def strided (base : Nat) (stride : Word) (j : Nat) : Nat := uint 40 ((base : Int) + stride.toInt * j)

/-- Swaps the parts of each group (Table 11.4, SWAP). -/
def swapBytes : Nat → List Byte → List Byte
  | 1, a :: b :: t => b :: a :: swapBytes 1 t
  | 2, a :: b :: c :: d :: t => c :: d :: a :: b :: swapBytes 2 t
  | 3, a :: b :: c :: d :: t => d :: c :: b :: a :: swapBytes 3 t
  | _, l => l

/-- Source and target of the next byte of the active TD. -/
def nextSrc (m : Mach) (c : Nat) : Nat :=
  addr40 (strided (tdAddr (actW m c) 0) (actW m c 4) (m.chan c).line + (m.chan c).off)
def nextDst (m : Mach) (c : Nat) : Nat :=
  addr40 (strided (tdAddr (actW m c) 2) (actW m c 5) (m.chan c).line + (m.chan c).off)

/-- A channel's access to n bytes, where they lie in DRAM, is a request of its class with its page hint (R310, R311). -/
def chanAsk (c a n : Nat) (m : Mach) : Mach :=
  when (placeOf m a == .dram) (dramAsk (m.on (R.DMA_CFG_CLS c)) (m.on (R.DMA_CFG_PHINT c)) a n) m

/-- OP of the active TD. -/
def tdOp (m : Mach) (c : Nat) : Nat := bitsOf (actW m c 8) 1 0

/-- Bytes of the next burst: at most 256, within the line and within 256 bytes of the target (R320). -/
def burstLen (m : Mach) (c : Nat) : Nat :=
  min (bitsOf (actW m c 6) 16 0 - (m.chan c).off) (256 - nextDst m c % 256)

/-- A channel has a burst to make. -/
def chanReady (m : Mach) (c : Nat) : Bool :=
  let h := m.chan c
  let st := m.get (R.DMA_STAT_STATE c)
  h.act && !h.done && m.on (R.DMA_CFG_EN c) && (st == dRun || st == dReady)
    && !m.hif.walks.any (·.req == c) && !m.hif.reqs.any (·.req == c)

/-- The video-class channel whose turn it is: the first ready one after the latest granted (R323). -/
def videoTurn (m : Mach) : Option Nat :=
  ((List.range 24).map fun i => (m.hif.lastVid + 1 + i) % 24).find? fun c => m.on (R.DMA_CFG_CLS c) && chanReady m c

/-- The engine grants the next burst to this channel. -/
def burstGranted (m : Mach) (c : Nat) : Bool :=
  match videoTurn m with
  | some v => c == v
  | none => true

/-- The position goes on by n bytes; CUR names the next access. -/
def burstAdvance (c n : Nat) (m : Mach) : Mach :=
  let h := m.chan c
  let len := bitsOf (actW m c 6) 16 0
  let h := if h.off + n < len then { h with off := h.off + n } else { h with line := h.line + 1, off := 0 }
  let fin := bitsOf (actW m c 7) 15 0 ≤ h.line
  let m := m.onChan c fun _ => { h with done := fin }
  if fin then m else setCur c (if tdOp m c = 1 then nextDst m c else nextSrc m c) m

/-- The bytes that a burst writes or compares: the pattern from the line's start, or the source after SWAP. -/
def burstBytes (c n : Nat) (mem : Mem) (m : Mach) : List Byte × Mach :=
  if tdOp m c = 1 then
    ((List.range n).map fun i => BitVec.ofNat 8 ((actW m c 9).toNat / 2 ^ (((m.chan c).off + i) % 4 * 8)), m)
  else
    let r := dmaRead c mem n n (nextSrc m c) m
    (swapBytes (bitsOf (actW m c 8) 3 2) r.1, r.2)

/-- What stands in the way of a burst: its reads, then its writes. -/
def burstStop (m : Mach) (c n : Nat) : Option DmaStop :=
  match (if tdOp m c = 1 then none else dmaStop m false (nextSrc m c) n) with
  | some x => some x
  | none => dmaStop m (tdOp m c != 2) (nextDst m c) n

/-- One burst of a channel that has the grant. `ecc` is what DRAM returned for the burst's reads. -/
def burstDo (c : Nat) (ecc : Ecc) (m : Mach) (mem : Mem) : Mach × Mem :=
  let n := burstLen m c
  match burstStop m c n with
  | some x => (dmaStopped c x m, mem)
  | none =>
    let fromDram := tdOp m c != 1 && placeOf m (nextSrc m c) == .dram
    let dstDram := tdOp m c == 2 && placeOf m (nextDst m c) == .dram
    let ea := if fromDram then nextSrc m c else nextDst m c
    let m := when (fromDram || dstDram) (eccEffect ecc ea) m
    if (fromDram || dstDram) && poisoned ecc m then (parkFree c fBus ea m, mem)
    else
      let dst := nextDst m c
      let m := chanAsk c dst n (if tdOp m c = 1 then m else chanAsk c (nextSrc m c) n m)
      let r := burstBytes c n mem m
      if tdOp m c = 2 then
        let t := dmaRead c mem n n dst r.2
        match (List.range n).find? fun i => r.1.getD i 0 != t.1.getD i 0 with
        | some i => (t.2.onChan c fun h => { h with off := h.off + i, done := true, mism := true }, mem)
        | none => (burstAdvance c n t.2, mem)
      else
        let w := dmaWrite c r.1 dst r.2 mem
        (burstAdvance c n w.1, w.2)

/-- DMA_BURST (R320, R323): a channel's turn at a burst boundary. One that is not granted is READY and keeps its
place. -/
def opDmaBurst (c : Nat) (ecc : Ecc) (m : Mach) (mem : Mem) : Mach × Mem :=
  if !chanReady m c then (m, mem)
  else if !burstGranted m c then (m.set (R.DMA_STAT_STATE c) dReady, mem)
  else
    let m := m.set (R.DMA_STAT_STATE c) dRun
    let m := when (m.on (R.DMA_CFG_CLS c)) (fun m => m.onHif fun h => { h with lastVid := c }) m
    burstDo c ecc m mem

/-! ## Fetches (R319) -/

/-- TD_FETCH (R319): the chained TD, or the head of the chain, reaches the shadow set. At the hop limit a successor
that would miss in the DATU posts nothing (Table 11.11). -/
def opTdFetch (c : Nat) (ecc : Ecc) (m : Mach) (mem : Mem) : Mach :=
  let h := m.chan c
  match h.fetch with
  | none => m
  | some a =>
    if m.on (R.DMA_STAT_SHVALID c) || !m.on (R.DMA_CFG_EN c) || m.hif.walks.any (·.req == c) || m.hif.reqs.any (·.req == c)
    then m
    else if a % 64 != 0 then parkFree c fDesc a m
    else if !h.act && hopLimit m c ≤ m.get (R.DMA_HOPS c) then parkFree c fHop a m
    else match dmaStop m false a 64 with
      | some (.miss x wr) => if hopLimit m c ≤ m.get (R.DMA_HOPS c) then m else dmaStopped c (.miss x wr) m
      | some (.perm x wr) => if hopLimit m c ≤ m.get (R.DMA_HOPS c) then m else dmaStopped c (.perm x wr) m
      | some x => dmaStopped c x m
      | none =>
        let inDram := placeOf m a == .dram
        let m := when inDram (eccEffect ecc a) (chanAsk c a 64 m)
        if inDram && poisoned ecc m then parkFree c fBus a m
        else
          let r := dmaRead c mem 64 64 a m
          let m := each (List.range 16) (fun i m =>
            m.setWord (R.DMA_SHD_TD c i).key (BitVec.ofNat 32 (leNat ((r.1.drop (4 * i)).take 4)))) r.2
          let m := shadowLoaded c a m
          if !h.act && m.on (R.DMA_STAT_SHVALID c) && m.get (R.DMA_STAT_STATE c) != dParked then activate c true m else m

/-! ## Completion (R322) -/

/-- Address of the last word a TD wrote. -/
def lastWord (m : Mach) (c : Nat) : Nat :=
  addr40 (strided (tdAddr (actW m c) 2) (actW m c 5) (bitsOf (actW m c 7) 15 0 - 1) + bitsOf (actW m c 6) 16 0 - 1) / 4 * 4

/-- What a completion does once nothing stands in its way: the record, RESULT and MMOFF, the event, the vector, and
the next TD. MMOFF of a TD without a mismatch is a free value (log entry 3). -/
def completeDo (c : Nat) (m : Mach) (mem : Mem) : Mach × Mem :=
  let h := m.chan c
  let w := actW m c 8
  let res := b2n h.mism
  let fw := m.free
  let off : Word := if h.mism then BitVec.ofNat 32 (h.line * bitsOf (actW m c 6) 16 0 + h.off) else fw.1
  let m := if h.mism then m else fw.2
  let rec_ := leBytes 4 (actW m c 14).toNat ++ leBytes 4 res ++ leBytes 4 off.toNat ++ leBytes 4 0
  let x := if bitOf w.toNat 5 then dmaWrite c rec_ (tdAddr (actW m c) 12) (chanAsk c (tdAddr (actW m c) 12) 16 m) mem else (m, mem)
  let m := (x.1.set (R.DMA_STAT_RESULT c) res).setWord (R.DMA_MMOFF c).key off
  let m := when (bitOf w.toNat 6) (assertEvent (0x090 + m.get (R.DMA_CFG_EVL c))) m
  let m := when (bitOf w.toNat 7) (fun m => m.msix (m.get (R.DMA_CFG_VEC c))) m
  (holdRelease (nextTd c (m.onChan c fun h => { h with act := false, done := false, mism := false })), x.2)

/-- TD_COMPLETE (R322): every burst is done. With SETTLE the target is read back first; the record needs its own
access. -/
def opTdComplete (c : Nat) (m : Mach) (mem : Mem) : Mach × Mem :=
  let h := m.chan c
  let w := actW m c 8
  let st := m.get (R.DMA_STAT_STATE c)
  if !(h.act && h.done && (st == dRun || st == dReady)) || m.hif.walks.any (·.req == c) || m.hif.reqs.any (·.req == c) then
    (m, mem)
  else
    let settle := bitOf w.toNat 4 && tdOp m c != 2
    match (if settle then dmaStop m false (lastWord m c) 4 else none) with
    | some x => (dmaStopped c x m, mem)
    | none =>
      match (if bitOf w.toNat 5 then dmaStop m true (tdAddr (actW m c) 12) 16 else none) with
      | some x => (dmaStopped c x m, mem)
      | none => completeDo c (if settle then (dmaRead c mem 4 4 (lastWord m c) (chanAsk c (lastWord m c) 4 m)).2 else m) mem

end Sys2Proof.Machine
end

