-- ==== Sys2Proof/Machine/Stroke.lean ====
section
/-! DEFINITION. The stroke of a station (R57, R68, R73, R100, R187): its counts, the selection it makes, the boundaries
it is, what it exposes, and the events and triggers it gives. -/

namespace Sys2Proof.Machine

/-! ## Boundaries of a station -/

/-- A register that forms the geometry of a mark frame (R229). -/
def geometryKey (s key : Nat) : Bool :=
  ((R.VID_ENTRY s 0).key ≤ key && key < (R.VID_ENTRY s 0).key + 0x4000)
    || ((R.VID_PSHAPE_START s 0).key ≤ key && key < (R.VID_PSHAPE_START s 0).key + 0x40)
    || key == (R.VID_LINECFG_PDLY s).key || key == (R.VID_CTL_BANK s).key || key == (R.CLK_SYN_F (2 + s)).key || key == (R.CLK_SYN_LSDLY (2 + s)).key

/-- A change of geometry that takes effect between the station's first and last frame stroke makes the frame DIRTY
(R229). -/
def markDirty (s : Nat) (cs : List Cls) (m : Mach) : Mach :=
  let l := tget {} s m.mark.legs
  if l.begun && !l.done && 0 < l.stroke && m.pend.any fun p => geometryKey s p.1 && (p.2.1 &&& clsMask cs p.1) != 0 then
    m.set R.ADC_MKSTAT_DIRTY (setBit (m.get R.ADC_MKSTAT_DIRTY) s)
  else m

/-- A boundary of a station: the commits due at it apply, then what is pending in its classes (R17, R98, R99). -/
def stationBoundary (s : Nat) (cs : List Cls) (due : Boundary → Bool) (m : Mach) : Mach :=
  let m := markDirty s cs (commitsAt (fun k => due k.boundary) m)
  let old := m.get (R.VID_RETIRE_LANES s)
  retireChanged s old (applyAt s cs m)

/-- The commits that a stroke start of station s meets; a gap also meets those bound to its gap (R100). -/
def strokeMeets (s : Nat) (gap : Bool) (count : Nat) : Boundary → Bool
  | .stroke t => t == s
  | .line t => t == s
  | .gap t => gap && t == s
  | .strokeN t n => t == s && cntReached count n.toNat
  | _ => false

/-! ## Counts -/

/-- TICKs from a BD edge to the stroke start: LSDLY / 64 dots, with what a stroke start puts into effect (R57); the
island counts REFCLK periods while it runs from REFCLK (R73; DEDUCED, log entry 45). -/
def lineDelay (s : Nat) (m : Mach) : Nat :=
  let d := (applyStation s [.stroke, .line] m).get (R.CLK_SYN_LSDLY (2 + s))
  if pixRunning s m then d * dotDiv s m / (64 * max 1 (dotRatio s m)) else d / 64

/-- The stamps of a stroke start that follows a BD edge now. -/
def startStamps (s : Nat) (m : Mach) : Tick × Ppc :=
  let d := lineDelay s m
  (m.clk.tick + BitVec.ofNat 64 d,
   m.clk.ppc + BitVec.ofNat 48 ((m.clk.ppcFrac.toNat + m.get R.CLK_PPCRATE * d) / 2 ^ 32))

/-- A stroke has started, stamped t and p (R68, R73): STROKEs, LINEs, SPPC and the lines already exposed go on. -/
def strokeCount (s : Nat) (t : Tick) (p : Ppc) (m : Mach) : Mach :=
  let v := m.vidOf s
  let line : Word := v.line0 + BitVec.ofNat 32 (advLines m s)
  let m := (m.incWrap (R.CLK_TB_STROKE s)).set (R.CLK_TB_LINE s) line.toNat
  let m := m.set (R.CLK_TB_STRKTICK s) t.toNat
  let adv := match v.stamps with
    | (_, p0) :: _ => some (16 * (ppcDiff p.toNat p0.toNat).toNat)
    | [] => none
  let m := m.onVid s fun v => { v with
    line0 := line, stamps := (t, p) :: v.stamps.take 1,
    recent := v.recent.map fun r => { r with stroke := r.stroke + 1 } }
  let m := advanceLegs s m
  match adv with
  | some a => polyJudge s a (m.set (R.VID_SPPC_ADV s) (min a (2 ^ 24 - 1)))
  | none => m

/-! ## What else a stroke does -/

/-- A PIXPLL that coasts on its own loss gates off at a gap with no caught sheet left to expose (Table 2.6); while it
coasts, the sheets it exposes are suspect (R61). -/
def strokeCoast (s : Nat) (gap : Bool) (m : Mach) : Mach :=
  if m.get (R.CLK_SYN_STAT_STATE (2 + s)) == synCoast && !(m.syn (2 + s)).coastRef then
    if gap && !stationBusy s m then pixGate (2 + s) m else suspectSheets s m
  else m

/-- The polygon drive of the station looks for its rotor (R288). -/
def rotorSought (s : Nat) (m : Mach) : Bool := m.get (R.POLY_STAT_STATE s) == 4

/-- Every sheet whose lines a dark stroke should have exposed is named in bd-missing (R187). -/
def darkSheets (s : Nat) (m : Mach) : Mach :=
  each (expos m s) (fun x m =>
    match x.rec? with
    | some r => if x.leg.done then m else raise (vidSrc s 0) 0x02 1 m (m.sheet r).sid
    | none => m) m

/-- Scull slots that the stroke triggers (Table 7.1). -/
def strokeTrigs (s : Nat) (m : Mach) : List Nat :=
  (slotHits m.regs 0x04 fun w => bitsOf w 2 0 == 3 && bitsOf w 5 3 == s).filter fun n =>
    let per := m.get (R.SCL_SLOT_PER n)
    per != 0 && m.get (R.CLK_TB_STROKE s) % per == m.get (R.SCL_SLOT_PHASE n)

/-- What an S:gap boundary of a station does beside putting its fields into effect: event GAP (R191) and the deferred
re-zeroes (R254). -/
def gapEffects (s : Nat) (m : Mach) : Mach := gapRezero s (assertEvent (vidEvent s 1) m)

/-- Stamps the present stroke anew when a write that its own boundary put into effect has moved its start: a commit's
new LSDLY acts from the stroke of that commit (R57, Table 6.6). -/
def restamp (s : Nat) (m : Mach) : Mach :=
  let x := startStamps s m
  let m := m.set (R.CLK_TB_STRKTICK s) x.1.toNat
  m.onVid s fun v => { v with stamps := x :: v.stamps.drop 1 }

/-- A stroke of station s that starts with stamps t and p, its facet already counted; `miss` when no BD edge made
it. -/
def strokeRun (s : Nat) (miss : Bool) (t : Tick) (p : Ppc) (mem : Mem) (m : Mach) : Mach :=
  let m := selectStroke s (strokeCount s t p m)
  let gap := !exposesSheet s m
  let m := m.onVid s fun v => { v with gap := gap }
  let cs : List Cls := if gap then [.gap, .stroke, .line] else [.stroke, .line]
  let m := stationBoundary s cs (strokeMeets s gap (m.get (R.CLK_TB_STROKE s))) m
  let m := when (!miss) (restamp s) (when gap (gapEffects s) m)
  let m := liveFeather s (strokeCoast s gap m)
  let dark := miss || rotorSought s m
  let m := exposeStroke s dark mem (when dark (darkSheets s) m)
  markTrig (strokeTrigs s m) (assertEvent (vidEvent s 0) m)

/-- STROKE_START (R57): a BD edge starts a stroke of an enabled island, LSDLY / 64 dots after it. What the stroke does,
it does in one step with the edge (DESIGN CHOICE, log entry 45). -/
def opStrokeStart (s : Nat) (mem : Mem) (m : Mach) : Mach :=
  if m.on (R.VID_CTL_EN s) then
    let m := (sigMeasure s m).onVid s fun v => { v with bdAt := m.clk.tick }
    let x := startStamps s m
    indivisible (fun m => strokeRun s false x.1 x.2 mem (facetCount s m)) m
  else m

/-- BD_MISSING (R187): no BD edge within 1.5 forecast periods of the previous one; a stroke counts as started at the
forecast, and the missing BD takes the polygon's lock (R233). -/
def opBdMissing (s : Nat) (mem : Mem) (m : Mach) : Mach :=
  match m.on (R.VID_CTL_EN s), stampsOf m s with
  | true, some (t, p, dt, dp) =>
    if 3 * dt ≤ 2 * ((m.now : Int) - (m.vidOf s).bdAt.toNat) then
      let m := m.onVid s fun v =>
        { v with bdAt := v.bdAt + BitVec.ofInt 64 dt, sigSums := [], sigCount := 0 }
      indivisible (fun m =>
        strokeRun s true (t + BitVec.ofInt 64 dt) (ppcAdd p dp) mem (polyUnlock s (facetForecast s m))) m
    else m
  | _, _ => m

/-- LINE_STEP (R73): a further 1/L of the previous stroke's period has passed; LINEs stops at L - 1 past its value at
the stroke start. -/
def opLineStep (s : Nat) (m : Mach) : Mach :=
  match m.on (R.VID_CTL_EN s), stampsOf m s with
  | true, some (t, _, dt, _) =>
    let l := advLines m s
    let j := (BitVec.ofNat 32 (m.get (R.CLK_TB_LINE s)) - (m.vidOf s).line0).toNat
    if j + 1 < l && (j + 1 : Nat) * dt ≤ ((m.now : Int) - t.toNat) * l then
      stationBoundary s [.line] (fun b => b == .line s) (m.incWrap (R.CLK_TB_LINE s))
    else m
  | _, _ => m

/-! ## A station without strokes (R100) -/

/-- A gap boundary of a station that produces no strokes: what a gap does, and the end of a coast (Table 2.6). -/
def idleGap (s : Nat) (m : Mach) : Mach :=
  if s < m.nStn && noStrokes s m then
    strokeCoast s true (gapEffects s (stationBoundary s [.gap] (fun b => b == .gap s) m))
  else m

/-- What a fabric cycle in which no command acts brings besides the advance of the timebases: the gap boundaries of
stations without strokes, the induction fuser's PWM, a request of each DRAM channel, and the release of a power-down held for a channel that the DATU
has parked (Table 11.11). -/
def idleCycle (m : Mach) : Mach :=
  each (List.range 5) idleGap (fusPwm (dramCycle (tickAdvance (when (m.get R.PWR_DOMSTAT_PEND != 0) holdRelease m))))

/-! ## Commits whose instant has come -/

/-- Applies a ready commit whose capture instant is now: the gap boundary of a station without strokes is made (R99,
R100); at any other boundary the commits that were sealed earlier and are due with it go first (R102). -/
def commitNow (c : Commit) (m : Mach) : Mach :=
  match c.boundary with
  | .gap s => idleGap s m
  | _ => commitsAt (fun x => x.seq ≤ c.seq && boundaryHere x.boundary m) m

/-- COMMIT_READY (R97): the sealed commit is ready; one for NOW applies, a late one fails or applies at once. -/
def opCommitReady (core k : Nat) (m : Mach) : Mach :=
  let i := cix core k
  match (m.ctx i).slot with
  | some c =>
    if c.ready then m
    else
      let m := m.modCtx i fun x => { x with slot := some { c with ready := true } }
      if boundaryPast c.boundary m then (if c.lateOk then indivisible (applyCommit 1 i) m else resolve i 2 m)
      else if boundaryHere c.boundary m then commitNow c m
      else m
  | none => m

/-- COMMIT_APPLY (R98): the commit's capture instant has come. Boundaries that a stroke, a line or a trigger makes are
met within that event. -/
def opCommitApply (core k : Nat) (m : Mach) : Mach :=
  match (m.ctx (cix core k)).slot with
  | some c => if c.ready && boundaryHere c.boundary m then commitNow c m else m
  | none => m

end Sys2Proof.Machine
end

