-- ==== Sys2Proof/Machine/Meper.lean ====
section
/-! DEFINITION. Meper, first part (chapter 4): how an instruction of a context runs, integer operations, branches, CSRs,
waits and context control. A command is the instruction that the running context has fetched at its PC. -/

namespace Sys2Proof.Machine

/-! ## Running an instruction -/

/-- What the effect of an instruction comes to. -/
inductive Eff where
  /-- the effect is done; the PC goes on -/
  | done (m : Mach)
  /-- the effect is done, and the PC goes to a target -/
  | jump (m : Mach) (pc : Word)
  /-- the instruction faults with an address: no effect but what the access itself left in the target's block -/
  | park (m : Mach) (cause : Park) (addr : Nat)
  /-- the context waits in the instruction -/
  | wait (w : Wait)
  /-- the access has been issued, and its target holds it: it completes in the background (R78) -/
  | held

/-- A region of the core grants an access of n bytes to a context; `bit` is 1 for read, 2 for write, 3 for execute
(R85, R86). -/
def regionAllows (core k bit a n : Nat) (m : Mach) : Bool :=
  (List.range (regionCount core)).any fun r =>
    let w := m.word (R.COX_ATTR_EN core r).key
    bitOf w.toNat 0 && bitOf w.toNat bit && bitOf w.toNat (4 + k)
      && m.get (R.COX_BASE core r) ≤ a / 4096 && (a + n - 1) / 4096 ≤ m.get (R.COX_LIMIT core r)

/-- The protection of R85 or R86 stands against an access outside the own TCMs. -/
def regionBad (core k bit a n : Nat) (m : Mach) : Bool :=
  (core < 8 || m.on (R.COX_SUPMPU_EN 8)) && !regionAllows core k bit a n m

/-- Why a fetch at an address parks (R107, Table 3.8); none when it is allowed. -/
def fetchStop (core k pc : Nat) (m : Mach) : Option Park :=
  if core < 8 then (if 0x2F000000 ≤ pc && pc < 0x2F010000 then none else some .ifetch)
  else if pc < 0x20000 && m.cox.romSealed then some .rom
  else if (pc < 0x20000 && k == 0) || (0x10000000 ≤ pc && pc < 0x10040000) then
    if regionBad 8 k 3 pc 4 m then some .ifetch else none
  else some .ifetch

/-- The context has an instruction to go on with: it is RUNNING, or its issued access completes in the background (R78). -/
def Ctx.runs (c : Ctx) : Bool := c.state == .running || (c.state == .waiting && c.wait == .access)

/-- The context runs, and the word at its PC may be fetched. -/
def fetches (core k : Nat) (m : Mach) : Bool :=
  (m.ctx (cix core k)).runs && (fetchStop core k (m.ctx (cix core k)).pc.toNat m).isNone

/-- One instruction of context k of a core (R107, R110, R87): its effect is given the context as it was and the machine
with the PC already past the instruction. -/
def meper (core k : Nat) (f : Ctx → Mach → Eff) (m : Mach) : Mach :=
  let i := cix core k
  let c := m.ctx i
  if !c.runs then m
  else match fetchStop core k c.pc.toNat m with
    | some cause => parkCtx core k cause c.pc.toNat m
    | none =>
      match f c (m.modCtx i Ctx.retire) with
      | .done m' =>
        if c.halting then idleCtx core k m' else resched core (if c.state == .running then m' else makeReady i m')
      | .jump m' pc => resched core (m'.modCtx i fun x => { x with pc := pc })
      | .park m' cause a =>
        when c.halting (idleCtx core k) (parkCtx core k cause a (m'.modCtx i fun x => { x with pc := c.pc, iret := c.iret }))
      | .wait w => resched core (m.modCtx i fun x => { x with state := .waiting, wait := w })
      | .held => resched core (m.modCtx i fun x => { x with issued := true })

/-- The same for an instruction that may write the memories. -/
def meperM (core k : Nat) (f : Ctx → Mach → Eff × Mem) (m : Mach) (mem : Mem) : Mach × Mem :=
  (meper core k (fun c m => (f c m).1) m,
   if fetches core k m then (f (m.ctx (cix core k)) (m.modCtx (cix core k) Ctx.retire)).2 else mem)

/-- An instruction whose effect is one value for rd. -/
def setRd (core k rd : Nat) (v : Ctx → Word) (m : Mach) : Mach :=
  meper core k (fun c m => .done (m.modCtx (cix core k) fun x => x.setG rd (v c))) m

/-- An encoding that this part makes undefined (R110). -/
def illegal (c : Ctx) (m : Mach) : Eff := .park m .illegal c.pc.toNat

/-! ## Integer operations (R111, Table 4.3) -/

def opAdd (core k rd rs1 rs2 : Nat) (m : Mach) : Mach := setRd core k rd (fun c => c.g rs1 + c.g rs2) m
def opSub (core k rd rs1 rs2 : Nat) (m : Mach) : Mach := setRd core k rd (fun c => c.g rs1 - c.g rs2) m
def opAnd (core k rd rs1 rs2 : Nat) (m : Mach) : Mach := setRd core k rd (fun c => c.g rs1 &&& c.g rs2) m
def opOr (core k rd rs1 rs2 : Nat) (m : Mach) : Mach := setRd core k rd (fun c => c.g rs1 ||| c.g rs2) m
def opXor (core k rd rs1 rs2 : Nat) (m : Mach) : Mach := setRd core k rd (fun c => c.g rs1 ^^^ c.g rs2) m
/-- Shifts take rs2[4:0], or u5. -/
def opSll (core k rd rs1 rs2 : Nat) (m : Mach) : Mach := setRd core k rd (fun c => c.g rs1 <<< ((c.g rs2).toNat % 32)) m
def opSlli (core k rd rs1 u5 : Nat) (m : Mach) : Mach := setRd core k rd (fun c => c.g rs1 <<< (u5 % 32)) m
def opSrl (core k rd rs1 rs2 : Nat) (m : Mach) : Mach := setRd core k rd (fun c => c.g rs1 >>> ((c.g rs2).toNat % 32)) m
def opSrli (core k rd rs1 u5 : Nat) (m : Mach) : Mach := setRd core k rd (fun c => c.g rs1 >>> (u5 % 32)) m
def opSra (core k rd rs1 rs2 : Nat) (m : Mach) : Mach :=
  setRd core k rd (fun c => (c.g rs1).sshiftRight ((c.g rs2).toNat % 32)) m
def opSrai (core k rd rs1 u5 : Nat) (m : Mach) : Mach := setRd core k rd (fun c => (c.g rs1).sshiftRight (u5 % 32)) m
def opSlt (core k rd rs1 rs2 : Nat) (m : Mach) : Mach :=
  setRd core k rd (fun c => boolWord ((c.g rs1).slt (c.g rs2))) m
def opSltu (core k rd rs1 rs2 : Nat) (m : Mach) : Mach :=
  setRd core k rd (fun c => boolWord ((c.g rs1).ult (c.g rs2))) m
def opMin (core k rd rs1 rs2 : Nat) (m : Mach) : Mach :=
  setRd core k rd (fun c => if (c.g rs1).slt (c.g rs2) then c.g rs1 else c.g rs2) m
def opMax (core k rd rs1 rs2 : Nat) (m : Mach) : Mach :=
  setRd core k rd (fun c => if (c.g rs1).slt (c.g rs2) then c.g rs2 else c.g rs1) m
def opMinu (core k rd rs1 rs2 : Nat) (m : Mach) : Mach :=
  setRd core k rd (fun c => if (c.g rs1).ult (c.g rs2) then c.g rs1 else c.g rs2) m
def opMaxu (core k rd rs1 rs2 : Nat) (m : Mach) : Mach :=
  setRd core k rd (fun c => if (c.g rs1).ult (c.g rs2) then c.g rs2 else c.g rs1) m
def opAdds (core k rd rs1 rs2 : Nat) (m : Mach) : Mach :=
  setRd core k rd (fun c => satWord ((c.g rs1).toInt + (c.g rs2).toInt)) m
def opSubs (core k rd rs1 rs2 : Nat) (m : Mach) : Mach :=
  setRd core k rd (fun c => satWord ((c.g rs1).toInt - (c.g rs2).toInt)) m
def opClz (core k rd rs1 : Nat) (m : Mach) : Mach :=
  setRd core k rd (fun c => BitVec.ofNat 32 (leadZeros (c.g rs1))) m
def opMul (core k rd rs1 rs2 : Nat) (m : Mach) : Mach := setRd core k rd (fun c => c.g rs1 * c.g rs2) m
def opMulh (core k rd rs1 rs2 : Nat) (m : Mach) : Mach := setRd core k rd (fun c => mulHigh (c.g rs1) (c.g rs2)) m
def opMulhu (core k rd rs1 rs2 : Nat) (m : Mach) : Mach := setRd core k rd (fun c => mulHighU (c.g rs1) (c.g rs2)) m
def opSats (core k rd rs1 u5 : Nat) (m : Mach) : Mach := setRd core k rd (fun c => satSigned (c.g rs1) (u5 % 32)) m
def opSatu (core k rd rs1 u5 : Nat) (m : Mach) : Mach := setRd core k rd (fun c => satUnsigned (c.g rs1) (u5 % 32)) m

/-! ## Immediates (Table 4.2) -/

def opAddi (core k rd rs1 : Nat) (imm : BitVec 16) (m : Mach) : Mach := setRd core k rd (fun c => c.g rs1 + immS imm) m
def opAndi (core k rd rs1 : Nat) (imm : BitVec 16) (m : Mach) : Mach := setRd core k rd (fun c => c.g rs1 &&& immZ imm) m
def opOri (core k rd rs1 : Nat) (imm : BitVec 16) (m : Mach) : Mach := setRd core k rd (fun c => c.g rs1 ||| immZ imm) m
def opXori (core k rd rs1 : Nat) (imm : BitVec 16) (m : Mach) : Mach := setRd core k rd (fun c => c.g rs1 ^^^ immZ imm) m
def opSlti (core k rd rs1 : Nat) (imm : BitVec 16) (m : Mach) : Mach :=
  setRd core k rd (fun c => boolWord ((c.g rs1).slt (immS imm))) m
def opSltiu (core k rd rs1 : Nat) (imm : BitVec 16) (m : Mach) : Mach :=
  setRd core k rd (fun c => boolWord ((c.g rs1).ult (immS imm))) m
def opLdh (core k rd : Nat) (imm : BitVec 16) (m : Mach) : Mach := setRd core k rd (fun _ => immZ imm <<< 16) m

/-! ## Branches and jumps -/

/-- A conditional branch on g[rs1] and g[rs2]. -/
def branch (core k : Nat) (p : Ctx → Bool) (off : BitVec 16) (m : Mach) : Mach :=
  meper core k (fun c m => if p c then .jump m (branchTo c.pc off) else .done m) m

def opBeq (core k rs1 rs2 : Nat) (off : BitVec 16) (m : Mach) : Mach := branch core k (fun c => c.g rs1 == c.g rs2) off m
def opBne (core k rs1 rs2 : Nat) (off : BitVec 16) (m : Mach) : Mach := branch core k (fun c => c.g rs1 != c.g rs2) off m
def opBlt (core k rs1 rs2 : Nat) (off : BitVec 16) (m : Mach) : Mach :=
  branch core k (fun c => (c.g rs1).slt (c.g rs2)) off m
def opBge (core k rs1 rs2 : Nat) (off : BitVec 16) (m : Mach) : Mach :=
  branch core k (fun c => !(c.g rs1).slt (c.g rs2)) off m
def opBltu (core k rs1 rs2 : Nat) (off : BitVec 16) (m : Mach) : Mach :=
  branch core k (fun c => (c.g rs1).ult (c.g rs2)) off m
def opBgeu (core k rs1 rs2 : Nat) (off : BitVec 16) (m : Mach) : Mach :=
  branch core k (fun c => !(c.g rs1).ult (c.g rs2)) off m

/-- JAL: the return address goes to g31. -/
def opJal (core k : Nat) (off : BitVec 26) (m : Mach) : Mach :=
  meper core k (fun c m => .jump (m.modCtx (cix core k) fun x => x.setG 31 (c.pc + 4)) (jumpTo c.pc off)) m

/-- JALR: the target is taken before rd is written. -/
def opJalr (core k rd rs1 : Nat) (imm : BitVec 16) (m : Mach) : Mach :=
  meper core k (fun c m =>
    .jump (m.modCtx (cix core k) fun x => x.setG rd (c.pc + 4)) ((c.g rs1 + immS imm) &&& ~~~3#32)) m

/-! ## CSRs (R118, R119, Table 4.4) -/

/-- The value that a CSR reads. The high half of a count is always the copy that the latest read of its low half latched
(DESIGN CHOICE, log entry 45: the spec does not say what a second read of the high half gives). -/
def csrValue (core k n : Nat) (c : Ctx) (m : Mach) : Word :=
  match n with
  | 0x000 => BitVec.ofNat 32 (core + k * 16)
  | 0x001 => BitVec.ofNat 32 c.prio
  | 0x002 => BitVec.ofNat 32 c.farhi.toNat
  | 0x003 => c.evpend
  | 0x004 => BitVec.ofNat 32 c.stage.length
  | 0x006 => c.cmtRes
  | 0x010 => m.clk.cycles.truncate 32
  | 0x011 => c.cycleHi
  | 0x012 => c.iret.truncate 32
  | 0x013 => c.iretHi
  | 0x020 => m.clk.tick.truncate 32
  | 0x021 => c.tickHi
  | 0x022 => m.clk.ppc.truncate 32
  | 0x023 => c.ppcHi
  | _ => 0

/-- Reading the low half of a count latches its high half. -/
def csrLatch (n : Nat) (c : Ctx) (m : Mach) (x : Ctx) : Ctx :=
  match n with
  | 0x010 => { x with cycleHi := BitVec.ofNat 32 (m.clk.cycles.toNat / 2 ^ 32) }
  | 0x012 => { x with iretHi := BitVec.ofNat 32 (c.iret.toNat / 2 ^ 32) }
  | 0x020 => { x with tickHi := BitVec.ofNat 32 (m.clk.tick.toNat / 2 ^ 32) }
  | 0x022 => { x with ppcHi := BitVec.ofNat 32 (m.clk.ppc.toNat / 2 ^ 32) }
  | _ => x

/-- What a write of a CSR does: FARHI, EVPEND, STGCLR, CMTCAN. -/
def csrPut (i n : Nat) (v : Word) (m : Mach) : Mach :=
  match n with
  | 0x002 => m.modCtx i fun x => { x with farhi := v.truncate 8 }
  | 0x003 => m.modCtx i fun x => { x with evpend := v }
  | 0x005 => if v.getLsbD 0 then m.modCtx i fun x => { x with stage := [] } else m
  | 0x007 => if v.getLsbD 0 then cancelCommit i m else m
  | _ => m

/-- A CSR instruction that writes: rd takes the old value. -/
def csrWrite (core k rd csr rs1 : Nat) (f : Word → Word → Word) (m : Mach) : Mach :=
  meper core k (fun c m =>
    match csrKind csr with
    | some true =>
      let old := csrValue core k csr c m
      .done (csrPut (cix core k) csr (f old (c.g rs1)) (m.modCtx (cix core k) fun x => x.setG rd old))
    | _ => illegal c m) m

/-- CSRR. -/
def opCsrr (core k rd csr : Nat) (m : Mach) : Mach :=
  meper core k (fun c m =>
    if (csrKind csr).isSome then
      .done (m.modCtx (cix core k) fun x => (csrLatch csr c m x).setG rd (csrValue core k csr c m))
    else illegal c m) m
def opCsrw (core k rd csr rs1 : Nat) (m : Mach) : Mach := csrWrite core k rd csr rs1 (fun _ v => v) m
def opCsrs (core k rd csr rs1 : Nat) (m : Mach) : Mach := csrWrite core k rd csr rs1 (fun o v => o ||| v) m
def opCsrc (core k rd csr rs1 : Nat) (m : Mach) : Mach := csrWrite core k rd csr rs1 (fun o v => o &&& ~~~v) m
/-- A write of CSR STGCLR. -/
def opStgclr (core k rd rs1 : Nat) (m : Mach) : Mach := csrWrite core k rd 0x005 rs1 (fun _ v => v) m
/-- A write of CSR CMTCAN (R128). -/
def opCmtcan (core k rd rs1 : Nat) (m : Mach) : Mach := csrWrite core k rd 0x007 rs1 (fun _ v => v) m

/-! ## Waits and context control (R121-R123) -/

/-- WAITT (R121). -/
def opWaitt (core k rd rs1 rs2 code sub : Nat) (m : Mach) : Mach :=
  meper core k (fun c m =>
    if 3 < code || (code < 2 && sub != 0) || (2 ≤ code && (rs2 != 0 || m.nStn ≤ sub)) then illegal c m
    else
      let tgt : BitVec 64 := match code with
        | 0 => pairTarget c rs1 rs2 64
        | 1 => pairTarget c rs1 rs2 48
        | _ => (c.g rs1).zeroExtend 64
      if baseReached code sub tgt m then .done (m.modCtx (cix core k) fun x => x.setG rd 1)
      else .wait (.timebase code sub tgt rd)) m

/-- WAITE (R122). -/
def opWaite (core k rd rs1 : Nat) (m : Mach) : Mach :=
  meper core k (fun c m =>
    let mask := c.g rs1
    let hit := c.evpend &&& mask
    if hit = 0 then .wait (.events mask rd)
    else .done (m.modCtx (cix core k) fun x => { x.setG rd hit with evpend := x.evpend &&& ~~~hit })) m

/-- SLEEP (R123). -/
def opSleep (core k rs1 : Nat) (m : Mach) : Mach :=
  meper core k (fun c m =>
    if c.g rs1 = 0 then .done m else .wait (.sleep (BitVec.ofNat 64 (m.now + (c.g rs1).toNat)))) m

/-- The READY context of the same priority that has been READY longest. -/
def equalReady (core prio : Nat) (m : Mach) : Option Nat :=
  (List.range 4).foldl (fun best j =>
    let x := m.ctx (cix core j)
    if x.state != .ready || x.prio != prio then best
    else match best with
      | none => some j
      | some b => if x.readyAt < (m.ctx (cix core b)).readyAt then some j else best) none

/-- YIELD (R123). -/
def opYield (core k : Nat) (m : Mach) : Mach :=
  meper core k (fun c m =>
    match equalReady core c.prio m with
    | some j => .done (switchTo core j m)
    | none => .done m) m

/-- PRI (R123). -/
def opPri (core k rd rs1 : Nat) (m : Mach) : Mach :=
  meper core k (fun c m =>
    .done (m.modCtx (cix core k) fun x => { x.setG rd (BitVec.ofNat 32 c.prio) with prio := min 3 (c.g rs1).toNat })) m

/-- DARM (R125). -/
def opDarm (core k rd rs1 : Nat) (m : Mach) : Mach :=
  meper core k (fun c m =>
    let n := (c.g rs1).toNat % 32
    let x := m.cmp (core * 32 + n)
    let mine := n < cmpCount core && x.armed && x.ctx == k
    let m := when mine (fun m => m.setCmp (core * 32 + n) { x with armed := false }) m
    .done (m.modCtx (cix core k) fun y => y.setG rd (boolWord !mine))) m

/-- FLT (R130). -/
def opFlt (core k rd rs1 rs2 code sub : Nat) (m : Mach) : Mach :=
  meper core k (fun c m =>
    if 4 < code then illegal c m
    else
      let src := 0x0D0 + core
      let lost := (tget {} src m.flt.srcs).held
      let g : Msg := { src := src, kind := 0x80 + sub % 128, cls := code, sid := (c.g rs1).truncate 24,
                       param := BitVec.ofNat 40 ((c.g rs2).toNat + k * 2 ^ 32) }
      .done ((deliver g m).modCtx (cix core k) fun x => x.setG rd (boolWord lost))) m

/-- UNDEFINED_INSTRUCTION (R110): a word that no instruction of this part has as its encoding. -/
def opUndefinedInstruction (core k : Nat) (w : Word) (m : Mach) : Mach :=
  if undefinedWord m.nStn w then meper core k illegal m else m

end Sys2Proof.Machine
end

