-- ==== Sys2Proof/Machine/MeperMem.lean ====
section
/-! DEFINITION. Meper, second part (chapter 4): loads, stores and atomics, arming comparators, staging and sealing
commits, and the ring instructions. -/

namespace Sys2Proof.Machine

/-! ## Which accesses park (Table 3.8, R113; the order of the checks is log entry 33) -/

/-- The internal address of an access: a Cox core's own TCMs stand at the alias too (R80). -/
def realAddr (core a : Nat) : Nat :=
  if core < 8 && 0x2F000000 ≤ a && a < 0x2F020000 then 0x20000000 + core * 0x100000 + (a - 0x2F000000) else a

/-- The core's own memory: its TCMs, or supervisor memory for the supervisor. -/
def ownMem (core : Nat) : Place → Bool
  | .itcm c => c == core
  | .dtcm c => c == core
  | .sup => core == 8
  | _ => false

/-- Where data of the core may stand besides shared memory: its DTCM, or supervisor memory. -/
def ownData (core : Nat) : Place → Bool
  | .dtcm c => c == core
  | .sup => core == 8
  | _ => false

/-- Atomics are performed there (R117); line buffers, banks and unassigned addresses have causes of their own. -/
def atomicAt (core : Nat) : Place → Bool
  | .reg _ => false
  | .itcm _ => false
  | .host => false
  | .dtcm c => c == core
  | .sup => core == 8
  | _ => true

/-- Protection forbids the access (R75, R81, R85, R86, R113). -/
def protBad (core k : Nat) (wr : Bool) (p : Place) (a n : Nat) (m : Mach) : Bool :=
  let region := regionBad core k (if wr then 2 else 1) a n m
  match p with
  | .itcm c => if core < 8 then c != core || wr else (wr && m.on (R.COX_CFG_EN c)) || region
  | .dtcm c => if core < 8 then c != core else (wr && m.on (R.COX_CFG_EN c)) || region
  | .line _ => wr || region
  | .bank _ => wr || region
  | .rom => wr || region
  | _ => region

/-- The cause with which an access of n bytes at internal address a parks, if it does. -/
def accessStop (core k : Nat) (wr atomic : Bool) (a n : Nat) (m : Mach) : Option Park :=
  let p := placeOf m a
  let isReg : Bool := match p with | .reg _ => true | _ => false
  if p == .rom && m.cox.romSealed then some .rom
  else if atomic && (p == .rom || !atomicAt core p) then some .atomic
  else if p == .nowhere || (!isReg && addrDown m a) then some .addr
  else if !isReg && a % n != 0 then some .align
  else if protBad core k wr p a n m then some .prot
  else none

/-! ## The data of an access -/

/-- What a read comes to. -/
inductive Got where
  | val (v : Nat) (m : Mach)
  | err (m : Mach)
  | held

/-- A target outside the own memories has not answered with data. -/
def noAnswer (core : Nat) (p : Place) (ans : BusAns) : Bool := !ownMem core p && ans == .error

/-- What DRAM returned to a core's access, a bulk request with CLOSED (R310, R311): the machine after the controller has counted it, and whether it is poisoned (R308). -/
def dramAns (ans : BusAns) (a : Nat) (m : Mach) : Bool × Mach :=
  let m := dramAsk false false a 8 m
  match ans with
  | .data e => (poisoned e m, eccEffect e a m)
  | .error => (true, m)

/-- Reads n bytes at an internal address that the access may reach. Registers are read as words; any other width reads
0 with a note (R11, R113). -/
def dataRead (core k a n : Nat) (ans : BusAns) (mem : Mem) (m : Mach) : Got :=
  let p := placeOf m a
  if p == .dram && dramHeld m then .held
  else if p == .host && hostHeld m then .held
  else if noAnswer core p ans then .err m
  else match p with
    | .reg key =>
      if a % 4 = 0 && n = 4 then (let x := busRead (.ctx core k) key m; .val x.1.toNat x.2) else .val 0 (badWidth key m)
    | .host =>
      let t := datuDirect mem a false m
      match t.1 with
      | some h => .val (leNat (mem.hostBytes h n)) t.2
      | none => .err t.2
    | .dram => let d := dramAns ans a m; if d.1 then .err d.2 else .val (leNat (mem.rdBytes a n)) d.2
    | .bank b => .val (leNat ((List.range n).map fun i => bankByte b (a % 0x8000 + i) mem m)) (holdBank b m)
    | .rom => .val (leNat ((List.range n).map fun i => Config.bootRom (a + i))) m
    | _ => .val (leNat (mem.rdBytes a n)) m

/-- What a write comes to. -/
inductive Put where
  | ok (m : Mach) (mem : Mem)
  | err (m : Mach)
  | held

/-- Writes n bytes at an internal address that the access may reach. -/
def dataWrite (core k a n v : Nat) (ans : BusAns) (m : Mach) (mem : Mem) : Put :=
  let p := placeOf m a
  if p == .dram && dramHeld m then .held
  else if p == .host && hostHeld m then .held
  else if noAnswer core p ans then .err m
  else match p with
    | .reg key =>
      if a % 4 = 0 && n = 4 then .ok (busWrite (.ctx core k) false key (BitVec.ofNat 32 v) m) mem else .ok (badWidth key m) mem
    | .host =>
      let t := datuDirect mem a true m
      match t.1 with
      | some h => .ok t.2 (mem.hostWrBytes h (leBytes n v))
      | none => .err t.2
    | .dram => let d := dramAns ans a m; if d.1 then .err d.2 else .ok d.2 (mem.wrBytes a (leBytes n v))
    | p => .ok (when (core == 8) (placeSpoil p) m) (mem.wrBytes a (leBytes n v))

/-- A load: `ea` gives the address, `f` what rd receives. -/
def load (core k rd n : Nat) (ea : Ctx → Nat) (f : Nat → Word) (ans : BusAns) (mem : Mem) (m : Mach) : Mach :=
  meper core k (fun c m =>
    let a := realAddr core (ea c)
    match accessStop core k false false a n m with
    | some x => .park m x (ea c)
    | none =>
      match dataRead core k a n ans mem m with
      | .val v m => .done (m.modCtx (cix core k) fun x => x.setG rd (f v))
      | .err m => .park m .buserr (ea c)
      | .held => .held) m

/-- A store of the low n bytes of g[rs2]. -/
def store (core k rs2 n : Nat) (ea : Ctx → Nat) (ans : BusAns) (m : Mach) (mem : Mem) : Mach × Mem :=
  meperM core k (fun c m =>
    let a := realAddr core (ea c)
    match accessStop core k true false a n m with
    | some x => (.park m x (ea c), mem)
    | none =>
      match dataWrite core k a n ((c.g rs2).toNat % 2 ^ (8 * n)) ans m mem with
      | .ok m mem => (.done m, mem)
      | .err m => (.park m .buserr (ea c), mem)
      | .held => (.held, mem)) m mem

/-- A value of n bits, sign-extended. -/
def signed (n v : Nat) : Word := BitVec.ofInt 32 (sint n v)

def opLw (core k rd rs1 : Nat) (imm : BitVec 16) (ans : BusAns) (mem : Mem) (m : Mach) : Mach :=
  load core k rd 4 (nearAddr · rs1 imm) (BitVec.ofNat 32) ans mem m
def opLh (core k rd rs1 : Nat) (imm : BitVec 16) (ans : BusAns) (mem : Mem) (m : Mach) : Mach :=
  load core k rd 2 (nearAddr · rs1 imm) (signed 16) ans mem m
def opLhu (core k rd rs1 : Nat) (imm : BitVec 16) (ans : BusAns) (mem : Mem) (m : Mach) : Mach :=
  load core k rd 2 (nearAddr · rs1 imm) (BitVec.ofNat 32) ans mem m
def opLb (core k rd rs1 : Nat) (imm : BitVec 16) (ans : BusAns) (mem : Mem) (m : Mach) : Mach :=
  load core k rd 1 (nearAddr · rs1 imm) (signed 8) ans mem m
def opLbu (core k rd rs1 : Nat) (imm : BitVec 16) (ans : BusAns) (mem : Mem) (m : Mach) : Mach :=
  load core k rd 1 (nearAddr · rs1 imm) (BitVec.ofNat 32) ans mem m
/-- LWF: FARHI in address bits [39:32] (R112). -/
def opLwf (core k rd rs1 : Nat) (imm : BitVec 16) (ans : BusAns) (mem : Mem) (m : Mach) : Mach :=
  load core k rd 4 (farAddr · rs1 imm) (BitVec.ofNat 32) ans mem m
def opSw (core k rs2 rs1 : Nat) (imm : BitVec 16) (ans : BusAns) (m : Mach) (mem : Mem) : Mach × Mem :=
  store core k rs2 4 (nearAddr · rs1 imm) ans m mem
def opSh (core k rs2 rs1 : Nat) (imm : BitVec 16) (ans : BusAns) (m : Mach) (mem : Mem) : Mach × Mem :=
  store core k rs2 2 (nearAddr · rs1 imm) ans m mem
def opSb (core k rs2 rs1 : Nat) (imm : BitVec 16) (ans : BusAns) (m : Mach) (mem : Mem) : Mach × Mem :=
  store core k rs2 1 (nearAddr · rs1 imm) ans m mem
/-- SWF (R112). -/
def opSwf (core k rs2 rs1 : Nat) (imm : BitVec 16) (ans : BusAns) (m : Mach) (mem : Mem) : Mach × Mem :=
  store core k rs2 4 (farAddr · rs1 imm) ans m mem

/-! ## Atomics (R116, R117) -/

/-- One read-modify-write of the word at g[rs1]; rd receives the old word. -/
def atomicOp (core k rd rs1 rs2 : Nat) (far : Bool) (f : Word → Word → Word) (ans : BusAns) (m : Mach) (mem : Mem) :
    Mach × Mem :=
  meperM core k (fun c m =>
    let ea := if far then farAddr c rs1 0 else nearAddr c rs1 0
    let a := realAddr core ea
    match accessStop core k true true a 4 m with
    | some x => (.park m x ea, mem)
    | none =>
      if regionBad core k 1 a 4 m && !(core < 8 && ownMem core (placeOf m a)) then (.park m .prot ea, mem)
      else match dataRead core k a 4 ans mem m with
        | .val v m =>
          match dataWrite core k a 4 (f (BitVec.ofNat 32 v) (c.g rs2)).toNat (.data .clean) m mem with
          | .ok m mem => (.done (m.modCtx (cix core k) fun x => x.setG rd (BitVec.ofNat 32 v)), mem)
          | .err m => (.park m .buserr ea, mem)
          | .held => (.held, mem)
        | .err m => (.park m .buserr ea, mem)
        | .held => (.held, mem)) m mem

/-- AMOADD. -/
def opAmoadd (core k rd rs1 rs2 : Nat) (far : Bool) (ans : BusAns) (m : Mach) (mem : Mem) : Mach × Mem :=
  atomicOp core k rd rs1 rs2 far (· + ·) ans m mem
/-- AMOSWP. -/
def opAmoswp (core k rd rs1 rs2 : Nat) (far : Bool) (ans : BusAns) (m : Mach) (mem : Mem) : Mach × Mem :=
  atomicOp core k rd rs1 rs2 far (fun _ v => v) ans m mem

/-! ## ARM (R91, R92, R124) -/

/-- The words of an arm block. -/
def armBlock (mem : Mem) (a : Nat) : Nat → Word := fun i => mem.rdWord (a + 4 * i)

/-- The block is valid (R124). -/
def armValid (m : Mach) (w : Nat → Word) : Bool :=
  let base := bitsOf (w 0) 1 0
  let act := bitsOf (w 0) 8 6
  let pin := bitsOf (w 0) 23 16
  let per := bitOf (w 0).toNat 5
  let pulse := bitsOf (w 6) 15 0
  bitsOf (w 0) 15 9 == 0 && bitsOf (w 0) 31 24 == 0 && w 7 == 0 && act ≤ 5
    && (base < 2 || bitsOf (w 0) 4 2 < m.nStn)
    && (base != 1 || bitsOf (w 2) 31 16 == 0)
    && (!(1 ≤ act && act ≤ 4) || (pin < 16 && m.get (R.PIN_GPCFG_MODE pin) == 2))
    && (!per || w 3 != 0)
    && (act != 4 || (pulse != 0 && bitsOf (w 6) 31 16 == 0 && !(per && base == 0 && (w 3).toNat ≤ pulse)))

/-- The comparator that a block describes. -/
def armCmp (k : Nat) (w : Nat → Word) (old : Cmp) : Cmp :=
  let base := bitsOf (w 0) 1 0
  let tgt := (w 1).toNat + (match base with | 0 => (w 2).toNat | 1 => bitsOf (w 2) 15 0 | _ => 0) * 2 ^ 32
  { armed := true, base := base, stn := bitsOf (w 0) 4 2, periodic := bitOf (w 0).toNat 5, ctx := k,
    action := bitsOf (w 0) 8 6, late := false, tgt := BitVec.ofNat 64 tgt, per := w 3, pin := bitsOf (w 0) 23 16,
    regOff := (w 4).toNat - 0x40000000, value := w 5, width := bitsOf (w 6) 15 0, pulses := old.pulses }

/-- A REGWR target that Table 3.7 or the regions forbid, or that is no register (R91). -/
def armTargetBad (core k : Nat) (a : Nat) (m : Mach) : Bool :=
  a % 4 != 0 || !(0x40000000 ≤ a && a < 0x41000000) || !mayWrite (.ctx core k) false (a - 0x40000000)
    || regionBad core k 2 a 4 m

/-- ARM (R124): the block is read whole; the lowest free comparator is armed, and fires at once when its target has
been reached (R92). -/
def opArm (core k rd rs1 : Nat) (mem : Mem) (m : Mach) : Mach :=
  meper core k (fun c m =>
    let ea := (c.g rs1).toNat
    let a := realAddr core ea
    if ea % 32 != 0 then .park m .align ea
    else if !ownData core (placeOf m a) || (core == 8 && regionBad core k 1 a 32 m) then .park m .prot ea
    else
      let w := armBlock mem a
      let ret (v : Word) (m : Mach) : Eff := .done (m.modCtx (cix core k) fun x => x.setG rd v)
      if !armValid m w then ret 0xFFFFFFFE m
      else if bitsOf (w 0) 8 6 == 5 && armTargetBad core k (w 4).toNat m then .park m .prot (w 4).toNat
      else match (List.range (cmpCount core)).find? fun n => !(m.cmp (core * 32 + n)).armed with
        | none => ret 0xFFFFFFFF m
        | some n =>
          let i := core * 32 + n
          let x := armCmp k w (m.cmp i)
          if baseReached x.base x.stn x.tgt m then
            ret (BitVec.ofNat 32 (0x100 + n)) (fireNow i (m.setCmp i { x with late := true }))
          else ret (BitVec.ofNat 32 n) (m.setCmp i x)) m

/-! ## Stage and commit (R95, R96, R126, R127) -/

/-- STG (R126): the address is judged before the room. -/
def opStg (core k rs2 rs1 : Nat) (imm : BitVec 16) (m : Mach) : Mach :=
  meper core k (fun c m =>
    let a := nearAddr c rs1 imm
    let key := a - 0x40000000
    if a % 4 != 0 || !(0x40000000 ≤ a && a < 0x41000000)
        || (blockAssigned (key / 65536) && !mayWrite (.ctx core k) true key) || regionBad core k 2 a 4 m then
      .park m .stgaddr a
    else if 32 ≤ c.stage.length then .park m .stgfull a
    else .done (m.modCtx (cix core k) fun x => { x with stage := x.stage ++ [(key, c.g rs2)] })) m

/-- The boundary that CMT names, none when the encoding is undefined (Table 4.6). -/
def cmtBoundary (c : Ctx) (m : Mach) (rs1 rs2 code sub : Nat) (late : Bool) : Option Boundary :=
  let z := rs1 == 0 && rs2 == 0
  let only (ok : Bool) (b : Boundary) : Option Boundary := if ok then some b else none
  match code with
  | 0 => only (z && sub == 0 && !late) .now
  | 1 => only (sub == 0) (.tick (pairTarget c rs1 rs2 64))
  | 2 => only (sub == 0) (.ppc ((pairTarget c rs1 rs2 48).truncate 48))
  | 3 => only (z && sub < m.nStn && !late) (.stroke sub)
  | 4 => only (z && sub < m.nStn && !late) (.line sub)
  | 5 => only (z && sub < m.nStn && !late) (.gap sub)
  | 6 => only (z && sub < 96 && !late) (.slot sub)
  | 7 => only (rs2 == 0 && sub < m.nStn) (.strokeN sub (c.g rs1))
  | _ => none

/-- CMT (R127): it waits for the context's earlier commit, then seals. -/
def opCmt (core k rd rs1 rs2 code sub : Nat) (late : Bool) (m : Mach) : Mach :=
  meper core k (fun c m =>
    match cmtBoundary c m rs1 rs2 code sub late with
    | none => illegal c m
    | some b => if c.slot.isSome then .wait (.commit b late rd) else .done (sealNow (cix core k) b late rd m)) m

/-! ## Rings (R129) -/

/-- Why PUSH or POP parks over its memory operand. -/
def ringOperand (core k : Nat) (wr : Bool) (ea : Nat) (m : Mach) : Option Park :=
  let a := realAddr core ea
  let p := placeOf m a
  if ea % 32 != 0 then some .align
  else if ownData core p then (if core == 8 && regionBad core k (if wr then 2 else 1) a 32 m then some .prot else none)
  else if p == .shared && !regionBad core k (if wr then 2 else 1) a 32 m then none
  else some .prot

/-- The ring's next slot cannot be reached now: DRAM requests or the endpoint hold it. -/
def slotHeld (r idx : Nat) (m : Mach) : Bool :=
  let a := ringSlot m r idx
  (placeOf m a == .dram && dramHeld m) || (inHost a && hostHeld m)

/-- Why PUSH or POP parks over the ring's slot (Table 4.8): it stands nowhere, or its memory does not answer. -/
def slotStop (core : Nat) (at_ : Nat) (ans : BusAns) (m : Mach) : Option Park :=
  let p := placeOf m at_
  if p == .nowhere || addrDown m at_ then some .addr
  else if noAnswer core p ans then some .buserr
  else none

/-- What DRAM returns for the slot that POP reads; other memories return nothing to judge. -/
def slotAns (at_ : Nat) (ans : BusAns) (m : Mach) : Bool × Mach :=
  if placeOf m at_ != .dram then (false, m)
  else match ans with
    | .data e => (poisoned e m, eccEffect e at_ m)
    | .error => (true, m)

/-- PUSH (R129): one step with respect to every other user of the ring. -/
def opPush (core k rd rs1 ring : Nat) (ans : BusAns) (m : Mach) (mem : Mem) : Mach × Mem :=
  meperM core k (fun c m =>
    let ea := (c.g rs1).toNat
    let a := realAddr core ea
    let r := ring % 32
    let ret (v : Word) (m : Mach) : Eff := .done (m.modCtx (cix core k) fun x => x.setG rd v)
    match ringOperand core k false ea m with
    | some x => (.park m x ea, mem)
    | none =>
      if noAnswer core (placeOf m a) ans then (.park m .buserr ea, mem)
      else if !m.on (R.RING_CFG_EN r) then (ret 2 m, mem)
      else if m.get (R.RING_CFG_PSIDE r) != 0 then (ret 3 m, mem)
      else if ringSize m r ≤ ringCount m r then (ret 1 m, mem)
      else if slotHeld r (m.get (R.RING_PIDX r)) m then (.held, mem)
      else
        let at_ := ringSlot m r (m.get (R.RING_PIDX r))
        match slotStop core at_ ans m with
        | some x => (.park m x at_, mem)
        | none =>
          let x := ringPut r 0 (mem.rdBytes a 32) m mem
          (ret (if x.1 then 0 else 2) x.2.1, x.2.2)) m mem

/-- POP (R129). -/
def opPop (core k rd rs1 ring : Nat) (ans : BusAns) (m : Mach) (mem : Mem) : Mach × Mem :=
  meperM core k (fun c m =>
    let ea := (c.g rs1).toNat
    let a := realAddr core ea
    let r := ring % 32
    let ret (v : Word) (m : Mach) : Eff := .done (m.modCtx (cix core k) fun x => x.setG rd v)
    match ringOperand core k true ea m with
    | some x => (.park m x ea, mem)
    | none =>
      if noAnswer core (placeOf m a) ans then (.park m .buserr ea, mem)
      else if !m.on (R.RING_CFG_EN r) then (ret 2 m, mem)
      else if m.get (R.RING_CFG_CSIDE r) != 0 then (ret 3 m, mem)
      else if ringCount m r = 0 then (ret 1 m, mem)
      else if slotHeld r (m.get (R.RING_CIDX r)) m then (.held, mem)
      else
        let at_ := ringSlot m r (m.get (R.RING_CIDX r))
        match slotStop core at_ ans m with
        | some x => (.park m x at_, mem)
        | none =>
          let d := slotAns at_ ans m
          if d.1 then (.park d.2 .buserr at_, mem)
          else
            let x := ringTake r 0 mem d.2
            match x.1 with
            | some bs => (ret 0 (when (core == 8) (placeSpoil (placeOf m a)) x.2), mem.wrBytes a bs)
            | none => (ret 2 x.2, mem)) m mem

end Sys2Proof.Machine
end

