-- ==== Sys2Proof/Machine/Units.lean ====
section
/-! DEFINITION. The units that the fitted part has, and the form of a meaning that reads the memories and may end a
software reset. -/

namespace Sys2Proof.Machine

/-- The part has this station: five on the PE-5480, four on the PE-5440 (R1). -/
def Mach.hasStn (m : Mach) (s : Nat) : Bool := s < m.nStn

/-- The part has this synthesiser: SYSPLL, MEMPLL and one PIXPLL for each station (R54). -/
def Mach.hasSyn (m : Mach) (k : Nat) : Bool := k < synCount m

/-- A command that reads the memories and may end a software reset. -/
def onUnitSR (ok : Bool) (f : Mem → Mach → Mach) (s : State) : Host.Outcome State Fault Refusal :=
  onUnitS ok (f s.mem) s

end Sys2Proof.Machine
end

