-- ==== Sys2Proof/Machine/ExecBeam.lean ====
section
/-! DEFINITION. The meanings of the commands of strokes and the video islands (chapter 6): each runs its operation on a unit that the part has. -/

namespace Sys2Proof.Machine

/-- STROKE_START (R57). -/
def execStrokeStart (stn : Nat) (s : State) : Host.Outcome State Fault Refusal :=
  onUnitSR (s.mach.hasStn stn) (opStrokeStart stn) s

/-- LINE_STEP (R73). -/
def execLineStep (stn : Nat) (s : State) : Host.Outcome State Fault Refusal :=
  onUnitS (s.mach.hasStn stn) (opLineStep stn) s

/-- BD_MISSING (R187). -/
def execBdMissing (stn : Nat) (s : State) : Host.Outcome State Fault Refusal :=
  onUnitSR (s.mach.hasStn stn) (opBdMissing stn) s

/-- LEVEL_FRAME (R181). -/
def execLevelFrame (stn z : Nat) (s : State) : Host.Outcome State Fault Refusal :=
  onUnit (s.mach.hasStn stn && decide (z < 32)) (opLevelFrame stn z) s

/-- SAFE_FRAME (R181). -/
def execSafeFrame (stn : Nat) (s : State) : Host.Outcome State Fault Refusal :=
  onUnit (s.mach.hasStn stn) (opSafeFrame stn) s

/-- FZ_EDGE (R185). -/
def execFzEdge (stn : Nat) (s : State) : Host.Outcome State Fault Refusal :=
  onUnit (s.mach.hasStn stn) (opFzEdge stn) s

/-- SIGNATURE_DONE (R186). -/
def execSignatureDone (stn revs : Nat) (s : State) : Host.Outcome State Fault Refusal :=
  onUnit (s.mach.hasStn stn) (opSignatureDone stn revs) s

/-- VID_CTL_WRITE (R170). -/
def execVidCtlWrite (q : Requester) (stn : Nat) (w : Word) (s : State) : Host.Outcome State Fault Refusal :=
  onUnit (okReq q && decide (stn < 5)) (opVidCtlWrite q stn w) s

/-- BMAP_SEL_WRITE (R172). -/
def execBmapSelWrite (q : Requester) (w : Word) (s : State) : Host.Outcome State Fault Refusal :=
  onUnit (okReq q) (opBmapSelWrite q w) s

end Sys2Proof.Machine
end

