-- ==== Sys2Proof/Machine/ExecClocks.lean ====
section
/-! DEFINITION. The meanings of the commands of synthesisers, PPC and clock loss (chapter 2): each runs its operation on a unit that the part has. -/

namespace Sys2Proof.Machine

/-- SYNTH_ENABLE (R59). -/
def execSynthEnable (q : Requester) (k : Nat) (v : Word) (s : State) : Host.Outcome State Fault Refusal :=
  onUnit (okReq q && decide (k < 7)) (opSynthEnable q k v) s

/-- SYNTH_DISABLE (R55). -/
def execSynthDisable (q : Requester) (k : Nat) (v : Word) (s : State) : Host.Outcome State Fault Refusal :=
  onUnit (okReq q && decide (k < 7)) (opSynthDisable q k v) s

/-- SYNTH_LOCK (R58). -/
def execSynthLock (k : Nat) (s : State) : Host.Outcome State Fault Refusal :=
  onUnit (s.mach.hasSyn k) (opSynthLock k) s

/-- SYNTH_LOCK_LOSS (R58). -/
def execSynthLockLoss (k : Nat) (s : State) : Host.Outcome State Fault Refusal :=
  onUnit (s.mach.hasSyn k) (opSynthLockLoss k) s

/-- SYNTH_RAMP_END (R58). -/
def execSynthRampEnd (k : Nat) (s : State) : Host.Outcome State Fault Refusal :=
  onUnit (s.mach.hasSyn k) (opSynthRampEnd k) s

/-- CLOCK_LOSS_DRAIN_END (R60). -/
def execClockLossDrainEnd (s : State) : Host.Outcome State Fault Refusal :=
  onUnit true opClockLossDrainEnd s

/-- CLOCK_LOSS_DRAIN_TIMEOUT (R60). -/
def execClockLossDrainTimeout (s : State) : Host.Outcome State Fault Refusal :=
  onUnit true opClockLossDrainTimeout s

/-- REFCLK_LOSS (R62). -/
def execRefclkLoss (s : State) : Host.Outcome State Fault Refusal :=
  onUnit true opRefclkLoss s

/-- REFCLK_RETURN (R62). -/
def execRefclkReturn (s : State) : Host.Outcome State Fault Refusal :=
  onUnit true opRefclkReturn s

/-- PPCRATE_WRITE (R70). -/
def execPpcrateWrite (q : Requester) (v : Word) (s : State) : Host.Outcome State Fault Refusal :=
  onUnit (okReq q) (opPpcrateWrite q v) s

/-- PPC_WATCHDOG_EXPIRE (R70). -/
def execPpcWatchdogExpire (s : State) : Host.Outcome State Fault Refusal :=
  onUnit true opPpcWatchdogExpire s

end Sys2Proof.Machine
end

