-- ==== Sys2Proof/Machine/ExecCores.lean ====
section
/-! DEFINITION. The meanings of the commands of the cores, comparators, commits, register accesses and reset (chapters 0 and 3): each runs its operation on a unit that the part has. -/

namespace Sys2Proof.Machine

/-- REGISTER_WRITE (R16). -/
def execRegisterWrite (q : Requester) (off bytes : Nat) (v : Word) (s : State) : Host.Outcome State Fault Refusal :=
  onUnitS (okReq q && decide (off < 0x1000000) && (bytes == 1 || bytes == 2 || bytes == 4 || bytes == 8))
    (opRegisterWrite q off bytes v) s

/-- LATCHED_LOW_READ (R12). -/
def execLatchedLowRead (q : Requester) (off : Nat) (s : State) : Host.Outcome State Fault Refusal :=
  onUnit (okReq q && decide (off < 0x1000000)) (opLatchedLowRead q off) s

/-- READ_CLEAR (R14). -/
def execReadClear (q : Requester) (off : Nat) (s : State) : Host.Outcome State Fault Refusal :=
  onUnit (okReq q && decide (off < 0x1000000)) (opReadClear q off) s

/-- START (R89). -/
def execStart (core k : Nat) (s : State) : Host.Outcome State Fault Refusal :=
  onUnit (okCtx core k) (opStart core k) s

/-- HALT (R106). -/
def execHalt (core k : Nat) (s : State) : Host.Outcome State Fault Refusal :=
  onUnit (okCtx core k) (opHalt core k) s

/-- RESUME (R89). -/
def execResume (core k : Nat) (s : State) : Host.Outcome State Fault Refusal :=
  onUnit (okCtx core k) (opResume core k) s

/-- DISCARD (R106). -/
def execDiscard (core k : Nat) (s : State) : Host.Outcome State Fault Refusal :=
  onUnit (okCtx core k) (opDiscard core k) s

/-- CANCEL (R102). -/
def execCancel (core : Nat) (s : State) : Host.Outcome State Fault Refusal :=
  onUnit (decide (core < 9)) (opCancel core) s

/-- DISARM (R93). -/
def execDisarm (core : Nat) (s : State) : Host.Outcome State Fault Refusal :=
  onUnit (decide (core < 9)) (opDisarm core) s

/-- COX_ENABLE (R105). -/
def execCoxEnable (core : Nat) (v : Word) (s : State) : Host.Outcome State Fault Refusal :=
  onUnit (decide (core < 8)) (opCoxEnable core v) s

/-- COX_DISABLE (R105). -/
def execCoxDisable (core : Nat) (v : Word) (s : State) : Host.Outcome State Fault Refusal :=
  onUnit (decide (core < 8)) (opCoxDisable core v) s

/-- SWEV (R94). -/
def execSwev (q : Requester) (core : Nat) (v : Word) (s : State) : Host.Outcome State Fault Refusal :=
  onUnit (okReq q && decide (core < 9)) (opSwev q core v) s

/-- SUPMPU_LOCK (R86). -/
def execSupmpuLock (v : Word) (s : State) : Host.Outcome State Fault Refusal :=
  onUnit true (opSupmpuLock v) s

/-- COMPARATOR_FIRE (R90). -/
def execComparatorFire (core n : Nat) (s : State) : Host.Outcome State Fault Refusal :=
  onUnitS (decide (core < 9) && (if core == 8 then decide (n < 16) else decide (n < 32))) (opComparatorFire core n) s

/-- PINPULSE_END (R90). -/
def execPinpulseEnd (core n : Nat) (s : State) : Host.Outcome State Fault Refusal :=
  onUnit (decide (core < 9) && (if core == 8 then decide (n < 16) else decide (n < 32))) (opPinpulseEnd core n) s

/-- COMMIT_READY (R97). -/
def execCommitReady (core k : Nat) (s : State) : Host.Outcome State Fault Refusal :=
  onUnitS (okCtx core k) (opCommitReady core k) s

/-- COMMIT_APPLY (R98). -/
def execCommitApply (core k : Nat) (s : State) : Host.Outcome State Fault Refusal :=
  onUnitS (okCtx core k) (opCommitApply core k) s

/-- RESET (R103). -/
def execReset (s : State) : Host.Outcome State Fault Refusal :=
  onUnitM true opReset s

/-- WAITT_WAKE (R121). -/
def execWaittWake (core k : Nat) (s : State) : Host.Outcome State Fault Refusal :=
  onUnit (okCtx core k) (opWaittWake core k) s

/-- WAITE_WAKE (R122). -/
def execWaiteWake (core k : Nat) (s : State) : Host.Outcome State Fault Refusal :=
  onUnit (okCtx core k) (opWaiteWake core k) s

/-- SLEEP_WAKE (R123). -/
def execSleepWake (core k : Nat) (s : State) : Host.Outcome State Fault Refusal :=
  onUnit (okCtx core k) (opSleepWake core k) s

/-- RESET_ASSERTED (R279). -/
def execResetAsserted (s : State) : Host.Outcome State Fault Refusal :=
  onUnit true opResetAsserted s

end Sys2Proof.Machine
end

