-- ==== Sys2Proof/Machine/ExecDrives.lean ====
section
/-! DEFINITION. The meanings of the commands of the motor drives (chapter 10): each runs its operation on a unit that the part has. -/

namespace Sys2Proof.Machine

/-- ENC_INDEX (R253). -/
def execEncIndex (q : IndexPulse) (s : State) : Host.Outcome State Fault Refusal :=
  onUnit (decide (q.ch < 12)) (opEncIndex q.ch q.held) s

/-- POLY_ENABLE (R287). -/
def execPolyEnable (q : Requester) (n : Nat) (w : Word) (s : State) : Host.Outcome State Fault Refusal :=
  onUnit (okReq q && decide (n < 5)) (opPolyEnable q n w) s

/-- POLY_DISABLE (R287). -/
def execPolyDisable (q : Requester) (n : Nat) (w : Word) (s : State) : Host.Outcome State Fault Refusal :=
  onUnit (okReq q && decide (n < 5)) (opPolyDisable q n w) s

/-- POLY_ALIGN_END (R287). -/
def execPolyAlignEnd (n : Nat) (s : State) : Host.Outcome State Fault Refusal :=
  onUnit (s.mach.hasStn n) (opPolyAlignEnd n) s

/-- POLY_RAMP_END (R287). -/
def execPolyRampEnd (n : Nat) (s : State) : Host.Outcome State Fault Refusal :=
  onUnit (s.mach.hasStn n) (opPolyRampEnd n) s

/-- BEMF_CROSSING (R284). -/
def execBemfCrossing (n phase : Nat) (rising : Bool) (sub : Nat) (s : State) : Host.Outcome State Fault Refusal :=
  onUnit (s.mach.hasStn n && decide (phase < 3) && decide (sub < 8)) (opBemfCrossing n phase rising sub) s

/-- HALL_EDGE (R285). -/
def execHallEdge (n code : Nat) (s : State) : Host.Outcome State Fault Refusal :=
  onUnit (s.mach.hasStn n && decide (code < 8)) (opHallEdge n code) s

/-- POLY_COMMUTATE (R284). -/
def execPolyCommutate (n : Nat) (s : State) : Host.Outcome State Fault Refusal :=
  onUnit (s.mach.hasStn n) (opPolyCommutate n) s

/-- POLY_STEP_TIMEOUT (R288). -/
def execPolyStepTimeout (n : Nat) (s : State) : Host.Outcome State Fault Refusal :=
  onUnit (s.mach.hasStn n) (opPolyStepTimeout n) s

/-- POLY_CATCH_TIMEOUT (R288). -/
def execPolyCatchTimeout (n : Nat) (s : State) : Host.Outcome State Fault Refusal :=
  onUnit (s.mach.hasStn n) (opPolyCatchTimeout n) s

/-- POLY_PWM_PERIOD (R283). -/
def execPolyPwmPeriod (n : Nat) (s : State) : Host.Outcome State Fault Refusal :=
  onUnit (s.mach.hasStn n) (opPolyPwmPeriod n) s

/-- SERVO_PWM_PERIOD (R290). -/
def execServoPwmPeriod (n : Nat) (s : State) : Host.Outcome State Fault Refusal :=
  onUnit (decide (n < 8)) (opServoPwmPeriod n) s

/-- STEPPER_PWM_PERIOD (R294). -/
def execStepperPwmPeriod (n : Nat) (s : State) : Host.Outcome State Fault Refusal :=
  onUnit (decide (n < 12)) (opStepperPwmPeriod n) s

/-- STEPPER_HOLD_TIMEOUT (R295). -/
def execStepperHoldTimeout (n : Nat) (s : State) : Host.Outcome State Fault Refusal :=
  onUnit (decide (n < 12)) (opStepperHoldTimeout n) s

/-- CHOPPER_CURRENT_CHECK (R297). -/
def execChopperCurrentCheck (s : State) : Host.Outcome State Fault Refusal :=
  onUnit true opChopperCurrentCheck s

/-- CHOPPER_RISE_CHECK (R297). -/
def execChopperRiseCheck (s : State) : Host.Outcome State Fault Refusal :=
  onUnit true opChopperRiseCheck s

end Sys2Proof.Machine
end

