-- ==== Sys2Proof/Machine/ExecFaults.lean ====
section
/-! DEFINITION. The meanings of the commands of the collector, ALIVE and the interlock (chapter 13): each runs its operation on a unit that the part has. -/

namespace Sys2Proof.Machine

/-- FAULT_MESSAGE (R363). -/
def execFaultMessage (src kind cls : Nat) (sid : Sid) (param : BitVec 40) (s : State) : Host.Outcome State Fault
  Refusal :=
  onUnit (decide (src < 1024) && decide (kind < 256) && decide (cls < 5)) (opFaultMessage src kind cls sid param) s

/-- FAULT_CLEAR (R364). -/
def execFaultClear (q : Requester) (v : Word) (s : State) : Host.Outcome State Fault Refusal :=
  onUnit (okReq q) (opFaultClear q v) s

/-- ALIVE_TOGGLE (R372). -/
def execAliveToggle (s : State) : Host.Outcome State Fault Refusal :=
  onUnit true opAliveToggle s

/-- ALIVE_WRITE (R372). -/
def execAliveWrite (q : Requester) (v : Word) (s : State) : Host.Outcome State Fault Refusal :=
  onUnit (okReq q) (opAliveWrite q v) s

/-- KICK (R431). -/
def execKick (q : Requester) (v : Word) (s : State) : Host.Outcome State Fault Refusal :=
  onUnit (okReq q) (opKick q v) s

/-- KICK_WINDOW_EXPIRE (R431). -/
def execKickWindowExpire (s : State) : Host.Outcome State Fault Refusal :=
  onUnit true opKickWindowExpire s

/-- INTERLOCK_OPEN (R371). -/
def execInterlockOpen (s : State) : Host.Outcome State Fault Refusal :=
  onUnit true opInterlockOpen s

/-- INTERLOCK_QUALIFIED (R371). -/
def execInterlockQualified (s : State) : Host.Outcome State Fault Refusal :=
  onUnit true opInterlockQualified s

end Sys2Proof.Machine
end

