-- ==== Sys2Proof/Machine/ExecImage.lean ====
section
/-! DEFINITION. The meanings of the commands of ingest, the job store, feeders and the CRC unit (chapter 5): each runs its operation on a unit that the part has. -/

namespace Sys2Proof.Machine

/-- INGEST_DESCRIPTOR (R142). -/
def execIngestDescriptor (s : State) : Host.Outcome State Fault Refusal :=
  onUnitR true opIngestDescriptor s

/-- INGEST_ALLOCATE (R142). -/
def execIngestAllocate (s : State) : Host.Outcome State Fault Refusal :=
  onUnit true opIngestAllocate s

/-- PEAT_HEADER_ARRIVED (R142). -/
def execPeatHeaderArrived (ecc : Ecc) (s : State) : Host.Outcome State Fault Refusal :=
  onUnitR true (opPeatHeaderArrived ecc) s

/-- INGEST_TRANSFER_DONE (R142). -/
def execIngestTransferDone (ecc : Ecc) (s : State) : Host.Outcome State Fault Refusal :=
  onUnitR true (opIngestTransferDone ecc) s

/-- DEFLATE_START (R147). -/
def execDeflateStart (s : State) : Host.Outcome State Fault Refusal :=
  onUnit true opDeflateStart s

/-- DEFLATE_DONE (R148). -/
def execDeflateDone (e : Nat) (out : List Byte) (s : State) : Host.Outcome State Fault Refusal :=
  onUnit (decide (e < 4)) (opDeflateDone e out) s

/-- INGEST_VERIFY_DONE (R149). -/
def execIngestVerifyDone (e : Nat) (s : State) : Host.Outcome State Fault Refusal :=
  onUnit (decide (e < 4)) (opIngestVerifyDone e) s

/-- INGEST_COMPLETION_POST (R142). -/
def execIngestCompletionPost (s : State) : Host.Outcome State Fault Refusal :=
  onUnitM true opIngestCompletionPost s

/-- PURGE (R154). -/
def execPurge (q : Requester) (sid : Sid) (s : State) : Host.Outcome State Fault Refusal :=
  onUnit (okReq q) (opPurge q sid) s

/-- PIN (R154). -/
def execPin (q : Requester) (sid : Sid) (s : State) : Host.Outcome State Fault Refusal :=
  onUnit (okReq q) (opPin q sid) s

/-- UNPIN (R154). -/
def execUnpin (q : Requester) (sid : Sid) (s : State) : Host.Outcome State Fault Refusal :=
  onUnit (okReq q) (opUnpin q sid) s

/-- QUERY (R154). -/
def execQuery (q : Requester) (sid : Sid) (s : State) : Host.Outcome State Fault Refusal :=
  onUnit (okReq q) (opQuery q sid) s

/-- SWEEP (R154). -/
def execSweep (q : Requester) (s : State) : Host.Outcome State Fault Refusal :=
  onUnit (okReq q) (opSweep q) s

/-- JSOP_UNDEFINED (R154). -/
def execJsopUndefined (q : Requester) (op : Nat) (sid : Sid) (s : State) : Host.Outcome State Fault Refusal :=
  onUnit (okReq q && (op == 0 || op == 6 || op == 7)) (opJsopUndefined q op sid) s

/-- JOB_STORE_HOLD_EXPIRE (R153). -/
def execJobStoreHoldExpire (sid : Sid) (s : State) : Host.Outcome State Fault Refusal :=
  onUnit true (opJobStoreHoldExpire sid) s

/-- FEEDER_START (R157). -/
def execFeederStart (stn : Nat) (s : State) : Host.Outcome State Fault Refusal :=
  onUnit (s.mach.hasStn stn) (opFeederStart stn) s

/-- FEEDER_BAND_START (R157). -/
def execFeederBandStart (stn : Nat) (ecc : Ecc) (s : State) : Host.Outcome State Fault Refusal :=
  onUnitM (s.mach.hasStn stn) (opFeederBandStart stn ecc) s

/-- INFLATE_RUN_START (R151). -/
def execInflateRunStart (s : State) : Host.Outcome State Fault Refusal :=
  onUnit true opInflateRunStart s

/-- INFLATE_RUN_DONE (R150). -/
def execInflateRunDone (e : Nat) (ecc : Ecc) (s : State) : Host.Outcome State Fault Refusal :=
  onUnitM (decide (e < 4)) (opInflateRunDone e ecc) s

/-- CRC_GO (R163). -/
def execCrcGo (q : Requester) (s : State) : Host.Outcome State Fault Refusal :=
  onUnit (okReq q) (opCrcGo q) s

/-- CRC_DONE (R163). -/
def execCrcDone (ecc : Ecc) (s : State) : Host.Outcome State Fault Refusal :=
  onUnitR true (opCrcDone ecc) s

end Sys2Proof.Machine
end

