-- ==== Sys2Proof/Machine/ExecMemory.lean ====
section
/-! DEFINITION. The meanings of the commands of DRAM, DMA, rings, translation and the host link (chapter 11): each runs its operation on a unit that the part has. -/

namespace Sys2Proof.Machine

/-- HSF_WRITE (R48). -/
def execHsfWrite (s : State) : Host.Outcome State Fault Refusal :=
  onUnitM true opHsfWrite s

/-- DRAM_ENABLE (R309). -/
def execDramEnable (q : Requester) (v : Word) (s : State) : Host.Outcome State Fault Refusal :=
  onUnit (okReq q) (opDramEnable q v) s

/-- DRAM_TRAINING_DONE (R313). -/
def execDramTrainingDone (ok : Bool) (s : State) : Host.Outcome State Fault Refusal :=
  onUnit true (opDramTrainingDone ok) s

/-- REFRESH_DUE (R312). -/
def execRefreshDue (video : Bool) (s : State) : Host.Outcome State Fault Refusal :=
  onUnit true (opRefreshDue video) s

/-- MR4_POLL (R312). -/
def execMr4Poll (derate : Nat) (s : State) : Host.Outcome State Fault Refusal :=
  onUnit (decide (derate < 4)) (opMr4Poll derate) s

/-- DQS_OSC_CHECK (R314). -/
def execDqsOscCheck (drift : Nat) (s : State) : Host.Outcome State Fault Refusal :=
  onUnit true (opDqsOscCheck drift) s

/-- RETRAIN_START (R314). -/
def execRetrainStart (s : State) : Host.Outcome State Fault Refusal :=
  onUnit true opRetrainStart s

/-- RETRAIN_DONE (R314). -/
def execRetrainDone (s : State) : Host.Outcome State Fault Refusal :=
  onUnit true opRetrainDone s

/-- RETRAIN_LATE (R314). -/
def execRetrainLate (s : State) : Host.Outcome State Fault Refusal :=
  onUnit true opRetrainLate s

/-- RING_ENABLE (R315). -/
def execRingEnable (q : Requester) (r : Nat) (v : Word) (s : State) : Host.Outcome State Fault Refusal :=
  onUnit (okReq q && decide (r < 32)) (opRingEnable q r v) s

/-- RING_PRODUCER_DOORBELL (R316). -/
def execRingProducerDoorbell (r : Nat) (v : Word) (s : State) : Host.Outcome State Fault Refusal :=
  onUnit (decide (r < 32)) (opRingProducerDoorbell r v) s

/-- RING_CONSUMER_INDEX (R316). -/
def execRingConsumerIndex (r : Nat) (v : Word) (s : State) : Host.Outcome State Fault Refusal :=
  onUnit (decide (r < 32)) (opRingConsumerIndex r v) s

/-- RING_IRQ_TIMER (R318). -/
def execRingIrqTimer (r : Nat) (s : State) : Host.Outcome State Fault Refusal :=
  onUnit (decide (r < 32)) (opRingIrqTimer r) s

/-- TD_FETCH (R319). -/
def execTdFetch (c : Nat) (ecc : Ecc) (s : State) : Host.Outcome State Fault Refusal :=
  onUnitR (decide (c < 24)) (fun mem m => opTdFetch c ecc m mem) s

/-- DMA_BURST (R320). -/
def execDmaBurst (c : Nat) (ecc : Ecc) (s : State) : Host.Outcome State Fault Refusal :=
  onUnitSM (decide (c < 24)) (opDmaBurst c ecc) s

/-- TD_COMPLETE (R322). -/
def execTdComplete (c : Nat) (s : State) : Host.Outcome State Fault Refusal :=
  onUnitSM (decide (c < 24)) (opTdComplete c) s

/-- DATU_WALK_DONE (R327). -/
def execDatuWalkDone (q : Nat) (failed : Bool) (s : State) : Host.Outcome State Fault Refusal :=
  onUnitR (decide (q < 27)) (opDatuWalkDone q failed) s

/-- PAGE_REQUEST_POST (R328). -/
def execPageRequestPost (s : State) : Host.Outcome State Fault Refusal :=
  onUnitM true opPageRequestPost s

/-- PRACK (R329). -/
def execPrack (q : Requester) (v : Word) (s : State) : Host.Outcome State Fault Refusal :=
  onUnit (okReq q) (opPrack q v) s

/-- INVPAGE (R330). -/
def execInvpage (q : Requester) (v : Word) (s : State) : Host.Outcome State Fault Refusal :=
  onUnit (okReq q) (opInvpage q v) s

/-- INVALL (R330). -/
def execInvall (q : Requester) (v : Word) (s : State) : Host.Outcome State Fault Refusal :=
  onUnit (okReq q) (opInvall q v) s

/-- INVALIDATION_DONE (R330). -/
def execInvalidationDone (s : State) : Host.Outcome State Fault Refusal :=
  onUnit true opInvalidationDone s

/-- FUNCTION_LEVEL_RESET (R334). -/
def execFunctionLevelReset (s : State) : Host.Outcome State Fault Refusal :=
  onUnit true opFunctionLevelReset s

/-- PCIE_PERST (R412). -/
def execPciePerst (low : Bool) (s : State) : Host.Outcome State Fault Refusal :=
  onUnit true (opPciePerst low) s

/-- PCIE_LINK_CHANGE (R331). -/
def execPcieLinkChange (up : Bool) (gen width : Nat) (s : State) : Host.Outcome State Fault Refusal :=
  onUnit ((1 ≤ gen && gen < 4) && (width == 1 || width == 2 || width == 4)) (opPcieLinkChange up gen width) s

/-- MSIX_UNMASK (R333). -/
def execMsixUnmask (v : Nat) (s : State) : Host.Outcome State Fault Refusal :=
  onUnit (decide (v < 64)) (opMsixUnmask v) s

/-- PCIE_POWER_STATE (R331). -/
def execPciePowerState (d3 : Bool) (s : State) : Host.Outcome State Fault Refusal :=
  onUnit true (opPciePowerState d3) s

/-- BAR4_ACCESS (R307). -/
def execBar4Access (write : Option Word) (lanes off : Nat) (ecc : Ecc) (s : State) : Host.Outcome State Fault Refusal
  :=
  onUnitM (decide (lanes < 16)) (opBar4Access write lanes off ecc) s

/-- BAR2_WRITE (R332). -/
def execBar2Write (off : Nat) (s : State) : Host.Outcome State Fault Refusal :=
  onUnit (decide (off < 65536)) (opBar2Write off) s

end Sys2Proof.Machine
end

