-- ==== Sys2Proof/Machine/ExecMeper.lean ====
section
/-! DEFINITION. The meanings of the commands of the Meper instructions (chapter 4): each runs its operation on a unit that the part has. -/

namespace Sys2Proof.Machine

/-- ADD (R111). -/
def execAdd (core k rd rs1 rs2 : Nat) (s : State) : Host.Outcome State Fault Refusal :=
  onUnit (okCtx core k && okG rd && okG rs1 && okG rs2) (opAdd core k rd rs1 rs2) s

/-- SUB (R111). -/
def execSub (core k rd rs1 rs2 : Nat) (s : State) : Host.Outcome State Fault Refusal :=
  onUnit (okCtx core k && okG rd && okG rs1 && okG rs2) (opSub core k rd rs1 rs2) s

/-- AND (R111). -/
def execAnd (core k rd rs1 rs2 : Nat) (s : State) : Host.Outcome State Fault Refusal :=
  onUnit (okCtx core k && okG rd && okG rs1 && okG rs2) (opAnd core k rd rs1 rs2) s

/-- OR (R111). -/
def execOr (core k rd rs1 rs2 : Nat) (s : State) : Host.Outcome State Fault Refusal :=
  onUnit (okCtx core k && okG rd && okG rs1 && okG rs2) (opOr core k rd rs1 rs2) s

/-- XOR (R111). -/
def execXor (core k rd rs1 rs2 : Nat) (s : State) : Host.Outcome State Fault Refusal :=
  onUnit (okCtx core k && okG rd && okG rs1 && okG rs2) (opXor core k rd rs1 rs2) s

/-- SLL (R111). -/
def execSll (core k rd rs1 rs2 : Nat) (s : State) : Host.Outcome State Fault Refusal :=
  onUnit (okCtx core k && okG rd && okG rs1 && okG rs2) (opSll core k rd rs1 rs2) s

/-- SLLI (R111). -/
def execSlli (core k rd rs1 u5 : Nat) (s : State) : Host.Outcome State Fault Refusal :=
  onUnit (okCtx core k && okG rd && okG rs1 && okG u5) (opSlli core k rd rs1 u5) s

/-- SRL (R111). -/
def execSrl (core k rd rs1 rs2 : Nat) (s : State) : Host.Outcome State Fault Refusal :=
  onUnit (okCtx core k && okG rd && okG rs1 && okG rs2) (opSrl core k rd rs1 rs2) s

/-- SRLI (R111). -/
def execSrli (core k rd rs1 u5 : Nat) (s : State) : Host.Outcome State Fault Refusal :=
  onUnit (okCtx core k && okG rd && okG rs1 && okG u5) (opSrli core k rd rs1 u5) s

/-- SRA (R111). -/
def execSra (core k rd rs1 rs2 : Nat) (s : State) : Host.Outcome State Fault Refusal :=
  onUnit (okCtx core k && okG rd && okG rs1 && okG rs2) (opSra core k rd rs1 rs2) s

/-- SRAI (R111). -/
def execSrai (core k rd rs1 u5 : Nat) (s : State) : Host.Outcome State Fault Refusal :=
  onUnit (okCtx core k && okG rd && okG rs1 && okG u5) (opSrai core k rd rs1 u5) s

/-- SLT (R111). -/
def execSlt (core k rd rs1 rs2 : Nat) (s : State) : Host.Outcome State Fault Refusal :=
  onUnit (okCtx core k && okG rd && okG rs1 && okG rs2) (opSlt core k rd rs1 rs2) s

/-- SLTU (R111). -/
def execSltu (core k rd rs1 rs2 : Nat) (s : State) : Host.Outcome State Fault Refusal :=
  onUnit (okCtx core k && okG rd && okG rs1 && okG rs2) (opSltu core k rd rs1 rs2) s

/-- MIN (R111). -/
def execMin (core k rd rs1 rs2 : Nat) (s : State) : Host.Outcome State Fault Refusal :=
  onUnit (okCtx core k && okG rd && okG rs1 && okG rs2) (opMin core k rd rs1 rs2) s

/-- MAX (R111). -/
def execMax (core k rd rs1 rs2 : Nat) (s : State) : Host.Outcome State Fault Refusal :=
  onUnit (okCtx core k && okG rd && okG rs1 && okG rs2) (opMax core k rd rs1 rs2) s

/-- MINU (R111). -/
def execMinu (core k rd rs1 rs2 : Nat) (s : State) : Host.Outcome State Fault Refusal :=
  onUnit (okCtx core k && okG rd && okG rs1 && okG rs2) (opMinu core k rd rs1 rs2) s

/-- MAXU (R111). -/
def execMaxu (core k rd rs1 rs2 : Nat) (s : State) : Host.Outcome State Fault Refusal :=
  onUnit (okCtx core k && okG rd && okG rs1 && okG rs2) (opMaxu core k rd rs1 rs2) s

/-- ADDS (R111). -/
def execAdds (core k rd rs1 rs2 : Nat) (s : State) : Host.Outcome State Fault Refusal :=
  onUnit (okCtx core k && okG rd && okG rs1 && okG rs2) (opAdds core k rd rs1 rs2) s

/-- SUBS (R111). -/
def execSubs (core k rd rs1 rs2 : Nat) (s : State) : Host.Outcome State Fault Refusal :=
  onUnit (okCtx core k && okG rd && okG rs1 && okG rs2) (opSubs core k rd rs1 rs2) s

/-- CLZ (R111). -/
def execClz (core k rd rs1 : Nat) (s : State) : Host.Outcome State Fault Refusal :=
  onUnit (okCtx core k && okG rd && okG rs1) (opClz core k rd rs1) s

/-- MUL (R111). -/
def execMul (core k rd rs1 rs2 : Nat) (s : State) : Host.Outcome State Fault Refusal :=
  onUnit (okCtx core k && okG rd && okG rs1 && okG rs2) (opMul core k rd rs1 rs2) s

/-- MULH (R111). -/
def execMulh (core k rd rs1 rs2 : Nat) (s : State) : Host.Outcome State Fault Refusal :=
  onUnit (okCtx core k && okG rd && okG rs1 && okG rs2) (opMulh core k rd rs1 rs2) s

/-- MULHU (R111). -/
def execMulhu (core k rd rs1 rs2 : Nat) (s : State) : Host.Outcome State Fault Refusal :=
  onUnit (okCtx core k && okG rd && okG rs1 && okG rs2) (opMulhu core k rd rs1 rs2) s

/-- SATS (R111). -/
def execSats (core k rd rs1 u5 : Nat) (s : State) : Host.Outcome State Fault Refusal :=
  onUnit (okCtx core k && okG rd && okG rs1 && okG u5) (opSats core k rd rs1 u5) s

/-- SATU (R111). -/
def execSatu (core k rd rs1 u5 : Nat) (s : State) : Host.Outcome State Fault Refusal :=
  onUnit (okCtx core k && okG rd && okG rs1 && okG u5) (opSatu core k rd rs1 u5) s

/-- ADDI (R110). -/
def execAddi (core k rd rs1 : Nat) (imm : BitVec 16) (s : State) : Host.Outcome State Fault Refusal :=
  onUnit (okCtx core k && okG rd && okG rs1) (opAddi core k rd rs1 imm) s

/-- ANDI (R110). -/
def execAndi (core k rd rs1 : Nat) (imm : BitVec 16) (s : State) : Host.Outcome State Fault Refusal :=
  onUnit (okCtx core k && okG rd && okG rs1) (opAndi core k rd rs1 imm) s

/-- ORI (R110). -/
def execOri (core k rd rs1 : Nat) (imm : BitVec 16) (s : State) : Host.Outcome State Fault Refusal :=
  onUnit (okCtx core k && okG rd && okG rs1) (opOri core k rd rs1 imm) s

/-- XORI (R110). -/
def execXori (core k rd rs1 : Nat) (imm : BitVec 16) (s : State) : Host.Outcome State Fault Refusal :=
  onUnit (okCtx core k && okG rd && okG rs1) (opXori core k rd rs1 imm) s

/-- SLTI (R110). -/
def execSlti (core k rd rs1 : Nat) (imm : BitVec 16) (s : State) : Host.Outcome State Fault Refusal :=
  onUnit (okCtx core k && okG rd && okG rs1) (opSlti core k rd rs1 imm) s

/-- SLTIU (R110). -/
def execSltiu (core k rd rs1 : Nat) (imm : BitVec 16) (s : State) : Host.Outcome State Fault Refusal :=
  onUnit (okCtx core k && okG rd && okG rs1) (opSltiu core k rd rs1 imm) s

/-- LDH (R110). -/
def execLdh (core k rd : Nat) (imm : BitVec 16) (s : State) : Host.Outcome State Fault Refusal :=
  onUnit (okCtx core k && okG rd) (opLdh core k rd imm) s

/-- LW (R112). -/
def execLw (core k rd rs1 : Nat) (imm : BitVec 16) (ans : BusAns) (s : State) : Host.Outcome State Fault Refusal :=
  onUnitR (okCtx core k && okG rd && okG rs1) (opLw core k rd rs1 imm ans) s

/-- LH (R112). -/
def execLh (core k rd rs1 : Nat) (imm : BitVec 16) (ans : BusAns) (s : State) : Host.Outcome State Fault Refusal :=
  onUnitR (okCtx core k && okG rd && okG rs1) (opLh core k rd rs1 imm ans) s

/-- LHU (R112). -/
def execLhu (core k rd rs1 : Nat) (imm : BitVec 16) (ans : BusAns) (s : State) : Host.Outcome State Fault Refusal :=
  onUnitR (okCtx core k && okG rd && okG rs1) (opLhu core k rd rs1 imm ans) s

/-- LB (R112). -/
def execLb (core k rd rs1 : Nat) (imm : BitVec 16) (ans : BusAns) (s : State) : Host.Outcome State Fault Refusal :=
  onUnitR (okCtx core k && okG rd && okG rs1) (opLb core k rd rs1 imm ans) s

/-- LBU (R112). -/
def execLbu (core k rd rs1 : Nat) (imm : BitVec 16) (ans : BusAns) (s : State) : Host.Outcome State Fault Refusal :=
  onUnitR (okCtx core k && okG rd && okG rs1) (opLbu core k rd rs1 imm ans) s

/-- LWF (R112). -/
def execLwf (core k rd rs1 : Nat) (imm : BitVec 16) (ans : BusAns) (s : State) : Host.Outcome State Fault Refusal :=
  onUnitR (okCtx core k && okG rd && okG rs1) (opLwf core k rd rs1 imm ans) s

/-- SW (R114). -/
def execSw (core k rs2 rs1 : Nat) (imm : BitVec 16) (ans : BusAns) (s : State) : Host.Outcome State Fault Refusal :=
  onUnitSM (okCtx core k && okG rs2 && okG rs1) (opSw core k rs2 rs1 imm ans) s

/-- SH (R114). -/
def execSh (core k rs2 rs1 : Nat) (imm : BitVec 16) (ans : BusAns) (s : State) : Host.Outcome State Fault Refusal :=
  onUnitSM (okCtx core k && okG rs2 && okG rs1) (opSh core k rs2 rs1 imm ans) s

/-- SB (R114). -/
def execSb (core k rs2 rs1 : Nat) (imm : BitVec 16) (ans : BusAns) (s : State) : Host.Outcome State Fault Refusal :=
  onUnitSM (okCtx core k && okG rs2 && okG rs1) (opSb core k rs2 rs1 imm ans) s

/-- SWF (R114). -/
def execSwf (core k rs2 rs1 : Nat) (imm : BitVec 16) (ans : BusAns) (s : State) : Host.Outcome State Fault Refusal :=
  onUnitSM (okCtx core k && okG rs2 && okG rs1) (opSwf core k rs2 rs1 imm ans) s

/-- AMOADD (R117). -/
def execAmoadd (core k rd rs1 rs2 : Nat) (far : Bool) (ans : BusAns) (s : State) : Host.Outcome State Fault Refusal :=
  onUnitSM (okCtx core k && okG rd && okG rs1 && okG rs2) (opAmoadd core k rd rs1 rs2 far ans) s

/-- AMOSWP (R117). -/
def execAmoswp (core k rd rs1 rs2 : Nat) (far : Bool) (ans : BusAns) (s : State) : Host.Outcome State Fault Refusal :=
  onUnitSM (okCtx core k && okG rd && okG rs1 && okG rs2) (opAmoswp core k rd rs1 rs2 far ans) s

/-- BEQ (R110). -/
def execBeq (core k rs1 rs2 : Nat) (off : BitVec 16) (s : State) : Host.Outcome State Fault Refusal :=
  onUnit (okCtx core k && okG rs1 && okG rs2) (opBeq core k rs1 rs2 off) s

/-- BNE (R110). -/
def execBne (core k rs1 rs2 : Nat) (off : BitVec 16) (s : State) : Host.Outcome State Fault Refusal :=
  onUnit (okCtx core k && okG rs1 && okG rs2) (opBne core k rs1 rs2 off) s

/-- BLT (R110). -/
def execBlt (core k rs1 rs2 : Nat) (off : BitVec 16) (s : State) : Host.Outcome State Fault Refusal :=
  onUnit (okCtx core k && okG rs1 && okG rs2) (opBlt core k rs1 rs2 off) s

/-- BGE (R110). -/
def execBge (core k rs1 rs2 : Nat) (off : BitVec 16) (s : State) : Host.Outcome State Fault Refusal :=
  onUnit (okCtx core k && okG rs1 && okG rs2) (opBge core k rs1 rs2 off) s

/-- BLTU (R110). -/
def execBltu (core k rs1 rs2 : Nat) (off : BitVec 16) (s : State) : Host.Outcome State Fault Refusal :=
  onUnit (okCtx core k && okG rs1 && okG rs2) (opBltu core k rs1 rs2 off) s

/-- BGEU (R110). -/
def execBgeu (core k rs1 rs2 : Nat) (off : BitVec 16) (s : State) : Host.Outcome State Fault Refusal :=
  onUnit (okCtx core k && okG rs1 && okG rs2) (opBgeu core k rs1 rs2 off) s

/-- JAL (R110). -/
def execJal (core k : Nat) (off : BitVec 26) (s : State) : Host.Outcome State Fault Refusal :=
  onUnit (okCtx core k) (opJal core k off) s

/-- JALR (R110). -/
def execJalr (core k rd rs1 : Nat) (imm : BitVec 16) (s : State) : Host.Outcome State Fault Refusal :=
  onUnit (okCtx core k && okG rd && okG rs1) (opJalr core k rd rs1 imm) s

/-- CSRR (R118). -/
def execCsrr (core k rd csr : Nat) (s : State) : Host.Outcome State Fault Refusal :=
  onUnit (okCtx core k && okG rd && decide (csr < 4096)) (opCsrr core k rd csr) s

/-- CSRW (R118). -/
def execCsrw (core k rd csr rs1 : Nat) (s : State) : Host.Outcome State Fault Refusal :=
  onUnit (okCtx core k && okG rd && decide (csr < 4096) && okG rs1) (opCsrw core k rd csr rs1) s

/-- CSRS (R118). -/
def execCsrs (core k rd csr rs1 : Nat) (s : State) : Host.Outcome State Fault Refusal :=
  onUnit (okCtx core k && okG rd && decide (csr < 4096) && okG rs1) (opCsrs core k rd csr rs1) s

/-- CSRC (R118). -/
def execCsrc (core k rd csr rs1 : Nat) (s : State) : Host.Outcome State Fault Refusal :=
  onUnit (okCtx core k && okG rd && decide (csr < 4096) && okG rs1) (opCsrc core k rd csr rs1) s

/-- STGCLR (R119). -/
def execStgclr (core k rd rs1 : Nat) (s : State) : Host.Outcome State Fault Refusal :=
  onUnit (okCtx core k && okG rd && okG rs1) (opStgclr core k rd rs1) s

/-- CMTCAN (R128). -/
def execCmtcan (core k rd rs1 : Nat) (s : State) : Host.Outcome State Fault Refusal :=
  onUnit (okCtx core k && okG rd && okG rs1) (opCmtcan core k rd rs1) s

/-- WAITT (R121). -/
def execWaitt (core k rd rs1 rs2 code sub : Nat) (s : State) : Host.Outcome State Fault Refusal :=
  onUnit (okCtx core k && okG rd && okG rs1 && okG rs2 && decide (code < 8) && decide (sub < 128)) (opWaitt core k rd
    rs1 rs2 code sub) s

/-- WAITE (R122). -/
def execWaite (core k rd rs1 : Nat) (s : State) : Host.Outcome State Fault Refusal :=
  onUnit (okCtx core k && okG rd && okG rs1) (opWaite core k rd rs1) s

/-- SLEEP (R123). -/
def execSleep (core k rs1 : Nat) (s : State) : Host.Outcome State Fault Refusal :=
  onUnit (okCtx core k && okG rs1) (opSleep core k rs1) s

/-- YIELD (R123). -/
def execYield (core k : Nat) (s : State) : Host.Outcome State Fault Refusal :=
  onUnit (okCtx core k) (opYield core k) s

/-- PRI (R123). -/
def execPri (core k rd rs1 : Nat) (s : State) : Host.Outcome State Fault Refusal :=
  onUnit (okCtx core k && okG rd && okG rs1) (opPri core k rd rs1) s

/-- ARM (R124). -/
def execArm (core k rd rs1 : Nat) (s : State) : Host.Outcome State Fault Refusal :=
  onUnitSR (okCtx core k && okG rd && okG rs1) (opArm core k rd rs1) s

/-- DARM (R125). -/
def execDarm (core k rd rs1 : Nat) (s : State) : Host.Outcome State Fault Refusal :=
  onUnit (okCtx core k && okG rd && okG rs1) (opDarm core k rd rs1) s

/-- STG (R126). -/
def execStg (core k rs2 rs1 : Nat) (imm : BitVec 16) (s : State) : Host.Outcome State Fault Refusal :=
  onUnit (okCtx core k && okG rs2 && okG rs1) (opStg core k rs2 rs1 imm) s

/-- CMT (R127). -/
def execCmt (core k rd rs1 rs2 code sub : Nat) (late : Bool) (s : State) : Host.Outcome State Fault Refusal :=
  onUnit (okCtx core k && okG rd && okG rs1 && okG rs2 && decide (code < 8) && decide (sub < 128)) (opCmt core k rd
    rs1 rs2 code sub late) s

/-- PUSH (R129). -/
def execPush (core k rd rs1 ring : Nat) (ans : BusAns) (s : State) : Host.Outcome State Fault Refusal :=
  onUnitM (okCtx core k && okG rd && okG rs1 && decide (ring < 32)) (opPush core k rd rs1 ring ans) s

/-- POP (R129). -/
def execPop (core k rd rs1 ring : Nat) (ans : BusAns) (s : State) : Host.Outcome State Fault Refusal :=
  onUnitM (okCtx core k && okG rd && okG rs1 && decide (ring < 32)) (opPop core k rd rs1 ring ans) s

/-- FLT (R130). -/
def execFlt (core k rd rs1 rs2 code sub : Nat) (s : State) : Host.Outcome State Fault Refusal :=
  onUnit (okCtx core k && okG rd && okG rs1 && okG rs2 && decide (code < 8) && decide (sub < 128)) (opFlt core k rd
    rs1 rs2 code sub) s

/-- UNDEFINED_INSTRUCTION (R110). -/
def execUndefinedInstruction (core k : Nat) (w : Word) (s : State) : Host.Outcome State Fault Refusal :=
  onUnit (okCtx core k) (opUndefinedInstruction core k w) s

end Sys2Proof.Machine
end

