-- ==== Sys2Proof/Machine/ExecMotion.lean ====
section
/-! DEFINITION. The meanings of the commands of encoders, SSI, sensors and profiles (chapter 9): each runs its operation on a unit that the part has. -/

namespace Sys2Proof.Machine

/-- ENC_EDGE (R247). -/
def execEncEdge (q : Nat) (a b : Bool) (held sub : Nat) (s : State) : Host.Outcome State Fault Refusal :=
  onUnit (decide (q < 12) && decide (sub < 8)) (opEncEdge q a b held sub) s

/-- ENC_STANDSTILL (R256). -/
def execEncStandstill (q : Nat) (s : State) : Host.Outcome State Fault Refusal :=
  onUnit (decide (q < 12)) (opEncStandstill q) s

/-- SPEED_WINDOW_END (R257). -/
def execSpeedWindowEnd (q : Nat) (s : State) : Host.Outcome State Fault Refusal :=
  onUnit (decide (q < 12)) (opSpeedWindowEnd q) s

/-- ENC_MODE_WRITE (R251). -/
def execEncModeWrite (q : Requester) (ch : Nat) (v : Word) (s : State) : Host.Outcome State Fault Refusal :=
  onUnit (okReq q && decide (ch < 12)) (opEncModeWrite q ch v) s

/-- SSI_FRAME_START (R258). -/
def execSsiFrameStart (p : Nat) (d : Bool) (s : State) : Host.Outcome State Fault Refusal :=
  onUnit (decide (p < 4)) (opSsiFrameStart p d) s

/-- SSI_FRAME_END (R258). -/
def execSsiFrameEnd (p data : Nat) (err par returned : Bool) (s : State) : Host.Outcome State Fault Refusal :=
  onUnit (decide (p < 4)) (opSsiFrameEnd p data err par returned) s

/-- SNS_RAW_TRANSITION (R260). -/
def execSnsRawTransition (i : Nat) (lvl : Bool) (s : State) : Host.Outcome State Fault Refusal :=
  onUnit (decide (i < 48)) (opSnsRawTransition i lvl) s

/-- CHATTER_END (R260). -/
def execChatterEnd (i : Nat) (s : State) : Host.Outcome State Fault Refusal :=
  onUnit (decide (i < 48)) (opChatterEnd i) s

/-- SNS_CTL_WRITE (R273). -/
def execSnsCtlWrite (q : Requester) (v : Word) (s : State) : Host.Outcome State Fault Refusal :=
  onUnit (okReq q) (opSnsCtlWrite q v) s

/-- SERVO_PERIOD (R261). -/
def execServoPeriod (s : State) : Host.Outcome State Fault Refusal :=
  onUnit true opServoPeriod s

/-- SEGMENT_MOVE (R262). -/
def execSegmentMove (q : Requester) (a : Nat) (v : Word) (s : State) : Host.Outcome State Fault Refusal :=
  onUnit (okReq q && decide (a < 20)) (opGo q a 0 v) s

/-- SEGMENT_MOVE_RELATIVE (R262). -/
def execSegmentMoveRelative (q : Requester) (a : Nat) (v : Word) (s : State) : Host.Outcome State Fault Refusal :=
  onUnit (okReq q && decide (a < 20)) (opGo q a 1 v) s

/-- SEGMENT_RUN (R262). -/
def execSegmentRun (q : Requester) (a : Nat) (v : Word) (s : State) : Host.Outcome State Fault Refusal :=
  onUnit (okReq q && decide (a < 20)) (opGo q a 2 v) s

/-- SEGMENT_DECELERATE (R262). -/
def execSegmentDecelerate (q : Requester) (a : Nat) (v : Word) (s : State) : Host.Outcome State Fault Refusal :=
  onUnit (okReq q && decide (a < 20)) (opGo q a 3 v) s

/-- SEGMENT_QUICK_STOP (R262). -/
def execSegmentQuickStop (q : Requester) (a : Nat) (v : Word) (s : State) : Host.Outcome State Fault Refusal :=
  onUnit (okReq q && decide (a < 20)) (opGo q a 4 v) s

/-- SEGMENT_HOME (R267). -/
def execSegmentHome (q : Requester) (a : Nat) (v : Word) (s : State) : Host.Outcome State Fault Refusal :=
  onUnit (okReq q && decide (a < 20)) (opGo q a 5 v) s

/-- SEGMENT_UNDEFINED (R262). -/
def execSegmentUndefined (q : Requester) (a mode : Nat) (v : Word) (s : State) : Host.Outcome State Fault Refusal :=
  onUnit (okReq q && decide (a < 20) && decide (mode < 8)) (opGo q a mode v) s

/-- SEGMENT_DELAYED_START (R263). -/
def execSegmentDelayedStart (a : Nat) (s : State) : Host.Outcome State Fault Refusal :=
  onUnit (decide (a < 20)) (opSegmentDelayedStart a) s

/-- PROFILE_RATE_WRITE (R264). -/
def execProfileRateWrite (q : Requester) (a which : Nat) (v : Word) (s : State) : Host.Outcome State Fault Refusal :=
  onUnit (okReq q && decide (a < 20) && decide (which < 3)) (opProfileRateWrite q a which v) s

end Sys2Proof.Machine
end

