-- ==== Sys2Proof/Machine/ExecNetwork.lean ====
section
/-! DEFINITION. The meanings of the commands of Fjarilink, SEC and the loader (chapter 14): each runs its operation on a unit that the part has. -/

namespace Sys2Proof.Machine

/-- PORT_UP (R377). -/
def execPortUp (p : Nat) (s : State) : Host.Outcome State Fault Refusal :=
  onUnit (decide (p < 2)) (opPortUp p) s

/-- HELLO_TIMER (R380). -/
def execHelloTimer (s : State) : Host.Outcome State Fault Refusal :=
  onUnit true opHelloTimer s

/-- HELLO_FRAME (R380). -/
def execHelloFrame (p : Nat) (f : Frame) (good : Bool) (s : State) : Host.Outcome State Fault Refusal :=
  onUnit (decide (p < 2) && okFrame f) (opHelloFrame p f good) s

/-- FRAME_ACK (R379). -/
def execFrameAck (p lseq : Nat) (s : State) : Host.Outcome State Fault Refusal :=
  onUnit (decide (p < 2) && decide (lseq < 65536)) (opFrameAck p lseq) s

/-- FRAME_RETRANSMIT (R379). -/
def execFrameRetransmit (p : Nat) (s : State) : Host.Outcome State Fault Refusal :=
  onUnit (decide (p < 2)) (opFrameRetransmit p) s

/-- TIME_EXCHANGE_TIMER (R382). -/
def execTimeExchangeTimer (sub : Nat) (s : State) : Host.Outcome State Fault Refusal :=
  onUnit (decide (sub < 64)) (opTimeExchangeTimer sub) s

/-- TIME_REQUEST_FRAME (R382). -/
def execTimeRequestFrame (p : Nat) (f : Frame) (good : Bool) (sub turn : Nat) (s : State) : Host.Outcome State Fault
  Refusal :=
  onUnit (decide (p < 2) && okFrame f && decide (sub < 64)) (opTimeRequestFrame p f good sub turn) s

/-- TIME_REPLY_FRAME (R383). -/
def execTimeReplyFrame (p : Nat) (f : Frame) (good : Bool) (sub : Nat) (s : State) : Host.Outcome State Fault Refusal
  :=
  onUnit (decide (p < 2) && okFrame f && decide (sub < 64)) (opTimeReplyFrame p f good sub) s

/-- TIME_HOLDOVER_TIMEOUT (R383). -/
def execTimeHoldoverTimeout (s : State) : Host.Outcome State Fault Refusal :=
  onUnit true opTimeHoldoverTimeout s

/-- GROUP_TIME_TIMEOUT (R383). -/
def execGroupTimeTimeout (s : State) : Host.Outcome State Fault Refusal :=
  onUnit true opGroupTimeTimeout s

/-- USER_FRAME (R384). -/
def execUserFrame (p : Nat) (f : Frame) (good : Bool) (s : State) : Host.Outcome State Fault Refusal :=
  onUnit (decide (p < 2) && okFrame f) (opUserFrame p f good) s

/-- USER_EVENT_DUE (R384). -/
def execUserEventDue (s : State) : Host.Outcome State Fault Refusal :=
  onUnit true opUserEventDue s

/-- CATCH_FRAME (R385). -/
def execCatchFrame (p : Nat) (f : Frame) (good : Bool) (s : State) : Host.Outcome State Fault Refusal :=
  onUnit (decide (p < 2) && okFrame f) (opCatchFrame p f good) s

/-- CANCEL_FRAME (R384). -/
def execCancelFrame (p : Nat) (f : Frame) (good : Bool) (s : State) : Host.Outcome State Fault Refusal :=
  onUnit (decide (p < 2) && okFrame f) (opCancelFrame p f good) s

/-- MISS_FRAME (R384). -/
def execMissFrame (p : Nat) (f : Frame) (good : Bool) (s : State) : Host.Outcome State Fault Refusal :=
  onUnit (decide (p < 2) && okFrame f) (opMissFrame p f good) s

/-- SPOIL_FRAME (R386). -/
def execSpoilFrame (p : Nat) (f : Frame) (good : Bool) (s : State) : Host.Outcome State Fault Refusal :=
  onUnit (decide (p < 2) && okFrame f) (opSpoilFrame p f good) s

/-- STOP_FRAME (R386). -/
def execStopFrame (p : Nat) (f : Frame) (good : Bool) (s : State) : Host.Outcome State Fault Refusal :=
  onUnit (decide (p < 2) && okFrame f) (opStopFrame p f good) s

/-- HEART_FRAME (R387). -/
def execHeartFrame (p : Nat) (f : Frame) (good : Bool) (s : State) : Host.Outcome State Fault Refusal :=
  onUnit (decide (p < 2) && okFrame f) (opHeartFrame p f good) s

/-- HEART_TIMER (R387). -/
def execHeartTimer (s : State) : Host.Outcome State Fault Refusal :=
  onUnit true opHeartTimer s

/-- MEMBER_LOST_TIMEOUT (R387). -/
def execMemberLostTimeout (node : Nat) (s : State) : Host.Outcome State Fault Refusal :=
  onUnit (decide (node < 16384)) (opMemberLostTimeout node) s

/-- GCGO (R385). -/
def execGcgo (q : Requester) (s : State) : Host.Outcome State Fault Refusal :=
  onUnit (okReq q) (opGcgo q) s

/-- CHREQ (R398). -/
def execChreq (p : Nat) (f : Frame) (good : Bool) (s : State) : Host.Outcome State Fault Refusal :=
  onUnitR (decide (p < 2) && okFrame f) (opChreq p f good) s

/-- CHDATA (R398). -/
def execChdata (p : Nat) (f : Frame) (good back : Bool) (s : State) : Host.Outcome State Fault Refusal :=
  onUnitM (decide (p < 2) && okFrame f) (opChdata p f good back) s

/-- CHNAK (R398). -/
def execChnak (p : Nat) (f : Frame) (good : Bool) (s : State) : Host.Outcome State Fault Refusal :=
  onUnit (decide (p < 2) && okFrame f) (opChnak p f good) s

/-- ATTEST (R393). -/
def execAttest (q : Requester) (s : State) : Host.Outcome State Fault Refusal :=
  onUnit (okReq q) (opAttest q) s

/-- LOAD (R393). -/
def execLoad (q : Requester) (target : Nat) (s : State) : Host.Outcome State Fault Refusal :=
  onUnit (okReq q && decide (target < 16)) (opLoad q target) s

/-- CHECKHDR (R399). -/
def execCheckhdr (q : Requester) (s : State) : Host.Outcome State Fault Refusal :=
  onUnit (okReq q) (opCheckhdr q) s

/-- ARMUPD (R400). -/
def execArmupd (q : Requester) (order : Nat) (s : State) : Host.Outcome State Fault Refusal :=
  onUnit (okReq q && decide (order < 256)) (opArmupd q order) s

/-- ENVWRITE (R405). -/
def execEnvwrite (q : Requester) (s : State) : Host.Outcome State Fault Refusal :=
  onUnit (okReq q) (opEnvwrite q) s

/-- ADVANCE (R397). -/
def execAdvance (q : Requester) (s : State) : Host.Outcome State Fault Refusal :=
  onUnit (okReq q) (opAdvance q) s

/-- KEYPROG (R394). -/
def execKeyprog (q : Requester) (key : Nat) (s : State) : Host.Outcome State Fault Refusal :=
  onUnit (okReq q && decide (key < 256)) (opKeyprog q key) s

/-- DBGCHAL (R394). -/
def execDbgchal (q : Requester) (s : State) : Host.Outcome State Fault Refusal :=
  onUnit (okReq q) (opDbgchal q) s

/-- DBGRESP (R394). -/
def execDbgresp (q : Requester) (s : State) : Host.Outcome State Fault Refusal :=
  onUnit (okReq q) (opDbgresp q) s

/-- SEC_OP_DONE (R405). -/
def execSecOpDone (ok : Bool) (s : State) : Host.Outcome State Fault Refusal :=
  onUnitSM true (opSecOpDone ok) s

/-- LOADER_CHUNK_DESCRIPTOR (R401). -/
def execLoaderChunkDescriptor (back : Bool) (s : State) : Host.Outcome State Fault Refusal :=
  onUnitM true (opLoaderChunkDescriptor back) s

/-- LOADER_SOURCE_TIMEOUT (R401). -/
def execLoaderSourceTimeout (s : State) : Host.Outcome State Fault Refusal :=
  onUnit true opLoaderSourceTimeout s

/-- BLOCK_LOCK_LOSS (R377). -/
def execBlockLockLoss (p : Nat) (s : State) : Host.Outcome State Fault Refusal :=
  onUnit (decide (p < 2)) (opBlockLockLoss p) s

end Sys2Proof.Machine
end

