-- ==== Sys2Proof/Machine/ExecPower.lean ====
section
/-! DEFINITION. The meanings of the commands of domains, DMA control, rails and shutdown (chapters 11 and 12): each runs its operation on a unit that the part has. -/

namespace Sys2Proof.Machine

/-- DMA_GO (R319). -/
def execDmaGo (q : Requester) (c : Nat) (s : State) : Host.Outcome State Fault Refusal :=
  onUnit (okReq q && decide (c < 24)) (opDmaGo q c) s

/-- DMA_ABORT (R324). -/
def execDmaAbort (q : Requester) (c : Nat) (s : State) : Host.Outcome State Fault Refusal :=
  onUnit (okReq q && decide (c < 24)) (opDmaAbort q c) s

/-- DMA_SKIP (R324). -/
def execDmaSkip (q : Requester) (c : Nat) (s : State) : Host.Outcome State Fault Refusal :=
  onUnit (okReq q && decide (c < 24)) (opDmaSkip q c) s

/-- DMA_SHLOAD (R319). -/
def execDmaShload (q : Requester) (c : Nat) (s : State) : Host.Outcome State Fault Refusal :=
  onUnit (okReq q && decide (c < 24)) (opDmaShload q c) s

/-- DMA_BUS_TIMEOUT (R324). -/
def execDmaBusTimeout (c : Nat) (s : State) : Host.Outcome State Fault Refusal :=
  onUnit (decide (c < 24)) (opDmaBusTimeout c) s

/-- DMA_WAIT_TIMEOUT (R325). -/
def execDmaWaitTimeout (c : Nat) (s : State) : Host.Outcome State Fault Refusal :=
  onUnit (decide (c < 24)) (opDmaWaitTimeout c) s

/-- DMA_POWERDOWN_TIMEOUT (R326). -/
def execDmaPowerdownTimeout (d : Nat) (s : State) : Host.Outcome State Fault Refusal :=
  onUnit (decide (d < 12)) (opDmaPowerdownTimeout d) s

/-- DOMAIN_REQUEST (R337). -/
def execDomainRequest (q : Requester) (v : Word) (s : State) : Host.Outcome State Fault Refusal :=
  onUnit (okReq q) (opDomainRequest q v) s

/-- DOMAIN_UP (R337). -/
def execDomainUp (d : Nat) (s : State) : Host.Outcome State Fault Refusal :=
  onUnitM (decide (d < 12)) (opDomainUp d) s

/-- RAIL_SEQUENCE_UP (R340). -/
def execRailSequenceUp (q : Requester) (s : State) : Host.Outcome State Fault Refusal :=
  onUnitS (okReq q) (opRailSequenceUp q) s

/-- RAIL_SEQUENCE_DOWN (R341). -/
def execRailSequenceDown (q : Requester) (s : State) : Host.Outcome State Fault Refusal :=
  onUnitS (okReq q) (opRailSequenceDown q) s

/-- RAIL_POWER_GOOD (R340). -/
def execRailPowerGood (n : Nat) (s : State) : Host.Outcome State Fault Refusal :=
  onUnitS (decide (n < 16)) (opRailPowerGood n) s

/-- RAIL_PG_TIMEOUT (R342). -/
def execRailPgTimeout (n : Nat) (s : State) : Host.Outcome State Fault Refusal :=
  onUnitS (decide (n < 16)) (opRailPgTimeout n) s

/-- RAIL_UP_DELAY_END (R340). -/
def execRailUpDelayEnd (n : Nat) (s : State) : Host.Outcome State Fault Refusal :=
  onUnitS (decide (n < 16)) (opRailUpDelayEnd n) s

/-- RAIL_DISCHARGED (R341). -/
def execRailDischarged (n : Nat) (s : State) : Host.Outcome State Fault Refusal :=
  onUnitS (decide (n < 16)) (opRailDischarged n) s

/-- RAIL_DISCHARGE_TIMEOUT (R341). -/
def execRailDischargeTimeout (n : Nat) (s : State) : Host.Outcome State Fault Refusal :=
  onUnitS (decide (n < 16)) (opRailDischargeTimeout n) s

/-- RAIL_DOWN_DELAY_END (R341). -/
def execRailDownDelayEnd (n : Nat) (s : State) : Host.Outcome State Fault Refusal :=
  onUnitS (decide (n < 16)) (opRailDownDelayEnd n) s

/-- RAIL_LOST (R342). -/
def execRailLost (n : Nat) (s : State) : Host.Outcome State Fault Refusal :=
  onUnitS (decide (n < 16)) (opRailLost n) s

/-- PMBUS_TRANSACTION_DONE (R339). -/
def execPmbusTransactionDone (n : Nat) (ok : Bool) (data : Nat) (s : State) : Host.Outcome State Fault Refusal :=
  onUnitS (decide (n < 16) && decide (data < 65536)) (opPmbusTransactionDone n ok data) s

/-- PMBUS_STATUS_POLL (R339). -/
def execPmbusStatusPoll (n : Nat) (s : State) : Host.Outcome State Fault Refusal :=
  onUnit (decide (n < 16)) (opPmbusStatusPoll n) s

/-- LATCHCLR (R343). -/
def execLatchclr (q : Requester) (v : Word) (s : State) : Host.Outcome State Fault Refusal :=
  onUnit (okReq q) (opLatchclr q v) s

/-- AC_LOSS (R344). -/
def execAcLoss (s : State) : Host.Outcome State Fault Refusal :=
  onUnitM true opAcLoss s

/-- AC_RESTART (R344). -/
def execAcRestart (s : State) : Host.Outcome State Fault Refusal :=
  onUnitM true opAcRestart s

/-- SOFTWARE_RESET (R346). -/
def execSoftwareReset (q : Requester) (v : Word) (s : State) : Host.Outcome State Fault Refusal :=
  onUnitS (okReq q) (opSoftwareReset q v) s

end Sys2Proof.Machine
end

