-- ==== Sys2Proof/Machine/ExecProcess.lean ====
section
/-! DEFINITION. The meanings of the commands of conversions, marks, high voltage, the fuser and throttling (chapters 8 and 12): each runs its operation on a unit that the part has. -/

namespace Sys2Proof.Machine

/-- HEAD_TEMP_SAMPLE (R184). -/
def execHeadTempSample (stn : Nat) (s : State) : Host.Outcome State Fault Refusal :=
  onUnit (s.mach.hasStn stn) (opHeadTempSample stn) s

/-- ADC_CONVERSION (R223). -/
def execAdcConversion (i : AdcInput) (v : Int) (s : State) : Host.Outcome State Fault Refusal :=
  onUnit (okAdc i) (opConversion i v) s

/-- HV_SUSTAINED_OVERCURRENT (R235). -/
def execHvSustainedOvercurrent (h : Nat) (s : State) : Host.Outcome State Fault Refusal :=
  onUnit (decide (h < 24)) (opHvSustainedOvercurrent h) s

/-- MARK_ARM (R227). -/
def execMarkArm (q : Requester) (v : Word) (s : State) : Host.Outcome State Fault Refusal :=
  onUnit (okReq q) (opMarkArm q v) s

/-- MARK_ABORT (R227). -/
def execMarkAbort (q : Requester) (v : Word) (s : State) : Host.Outcome State Fault Refusal :=
  onUnit (okReq q) (opMarkAbort q v) s

/-- MARK_WINDOW_CLOSE (R228). -/
def execMarkWindowClose (stn x bar : Nat) (stamps codes : List Nat) (s : State) : Host.Outcome State Fault Refusal :=
  onUnit (s.mach.hasStn stn && decide (x < 4) && decide (bar < 2)) (opMarkWindowClose stn x bar (stamps.zip codes)) s

/-- ZC_EDGE (R237). -/
def execZcEdge (s : State) : Host.Outcome State Fault Refusal :=
  onUnit true opZcEdge s

/-- ZC_LOSS (R237). -/
def execZcLoss (s : State) : Host.Outcome State Fault Refusal :=
  onUnit true opZcLoss s

/-- FUSER_GATE_FIRE (R236). -/
def execFuserGateFire (z : Nat) (s : State) : Host.Outcome State Fault Refusal :=
  onUnit (decide (z < 4)) (opFuserGateFire z) s

/-- FUSER_GATE_END (R236). -/
def execFuserGateEnd (z : Nat) (s : State) : Host.Outcome State Fault Refusal :=
  onUnit (decide (z < 4)) (opFuserGateEnd z) s

/-- THROTTLE_GRACE_END (R349). -/
def execThrottleGraceEnd (s : State) : Host.Outcome State Fault Refusal :=
  onUnit true opThrottleGraceEnd s

end Sys2Proof.Machine
end

