-- ==== Sys2Proof/Machine/ExecScull.lean ====
section
/-! DEFINITION. The meanings of the commands of the Scull engine (chapter 7): each runs its operation on a unit that the part has. -/

namespace Sys2Proof.Machine

/-- SLOT_TRIGGER (R194). -/
def execSlotTrigger (n : Nat) (s : State) : Host.Outcome State Fault Refusal :=
  onUnitS (decide (n < 96)) (opSlotTrigger n) s

/-- SLOT_INPUTS_READ (R201). -/
def execSlotInputsRead (n : Nat) (s : State) : Host.Outcome State Fault Refusal :=
  onUnit (decide (n < 96)) (opSlotInputsRead n) s

/-- SCULL_DISPATCH (R195). -/
def execScullDispatch (s : State) : Host.Outcome State Fault Refusal :=
  onUnitS true opScullDispatch s

/-- SCULL_BUDGET_EXPIRE (R197). -/
def execScullBudgetExpire (s : State) : Host.Outcome State Fault Refusal :=
  onUnitS true opScullBudgetExpire s

/-- SCULL_OUTPUT_WRITE (R202). -/
def execScullOutputWrite (s : State) : Host.Outcome State Fault Refusal :=
  onUnitS true opScullOutputWrite s

/-- RC_SYNC_EVENT (R214). -/
def execRcSyncEvent (n : Nat) (s : State) : Host.Outcome State Fault Refusal :=
  onUnit (decide (n < 96)) (opRcSyncEvent n) s

/-- SLOT_ENABLE (R203). -/
def execSlotEnable (q : Requester) (n : Nat) (v : Word) (s : State) : Host.Outcome State Fault Refusal :=
  onUnit (okReq q && decide (n < 96)) (opSlotEnable q n v) s

end Sys2Proof.Machine
end

