-- ==== Sys2Proof/Machine/ExecSheets.lean ====
section
/-! DEFINITION. The meanings of the commands of the sheet ledger, watches and snapshots (chapter 1): each runs its operation on a unit that the part has. -/

namespace Sys2Proof.Machine

/-- SLU_CREATE (R31). -/
def execSluCreate (core k : Nat) (sid : Sid) (s : State) : Host.Outcome State Fault Refusal :=
  onUnit (okCtx core k) (opSluCreate core k sid) s

/-- RESERVE (R32). -/
def execReserve (core k r : Nat) (s : State) : Host.Outcome State Fault Refusal :=
  onUnit (okCtx core k && decide (r < 256)) (opReserve core k r) s

/-- ADMIT (R32). -/
def execAdmit (core k r : Nat) (s : State) : Host.Outcome State Fault Refusal :=
  onUnit (okCtx core k && decide (r < 256)) (opAdmit core k r) s

/-- UNADMIT (R32). -/
def execUnadmit (core k r : Nat) (s : State) : Host.Outcome State Fault Refusal :=
  onUnit (okCtx core k && decide (r < 256)) (opUnadmit core k r) s

/-- WITHDRAW (R32). -/
def execWithdraw (core k r : Nat) (s : State) : Host.Outcome State Fault Refusal :=
  onUnit (okCtx core k && decide (r < 256)) (opWithdraw core k r) s

/-- UNRESERVE (R31). -/
def execUnreserve (core k r : Nat) (s : State) : Host.Outcome State Fault Refusal :=
  onUnit (okCtx core k && decide (r < 256)) (opUnreserve core k r) s

/-- FREE (R31). -/
def execFree (core k r : Nat) (s : State) : Host.Outcome State Fault Refusal :=
  onUnit (okCtx core k && decide (r < 256)) (opFree core k r) s

/-- SLU_OP_UNDEFINED (R31). -/
def execSluOpUndefined (core k op r : Nat) (s : State) : Host.Outcome State Fault Refusal :=
  onUnit (okCtx core k && (op == 0 || (7 ≤ op && op < 16)) && decide (r < 256)) (opSluOpUndefined core k op r) s

/-- SHEET_RECORD_WRITE (R21). -/
def execSheetRecordWrite (core k r w : Nat) (v : Word) (s : State) : Host.Outcome State Fault Refusal :=
  onUnit (okCtx core k && decide (r < 256) && decide (w < 16)) (opSheetRecordWrite core k r w v) s

/-- SLU_CTL_WRITE (R28). -/
def execSluCtlWrite (core k : Nat) (v : Word) (s : State) : Host.Outcome State Fault Refusal :=
  onUnit (okCtx core k) (opSluCtlWrite core k v) s

/-- SLU_RSV_WRITE (R29). -/
def execSluRsvWrite (core k : Nat) (v : Word) (s : State) : Host.Outcome State Fault Refusal :=
  onUnit (okCtx core k) (opSluRsvWrite core k v) s

/-- THROTTLE_SPEED_STEP (R30). -/
def execThrottleSpeedStep (s : State) : Host.Outcome State Fault Refusal :=
  onUnit true opThrottleSpeedStep s

/-- SHEET_ARM (R38). -/
def execSheetArm (r : Nat) (s : State) : Host.Outcome State Fault Refusal :=
  onUnit (decide (r < 256)) (opSheetArm r) s

/-- CATCH (R37). -/
def execCatch (r : Nat) (s : State) : Host.Outcome State Fault Refusal :=
  onUnit (decide (r < 256)) (opCatch r) s

/-- SHEET_TRANSFERRED (R24). -/
def execSheetTransferred (r : Nat) (s : State) : Host.Outcome State Fault Refusal :=
  onUnit (decide (r < 256)) (opSheetTransferred r) s

/-- BAND_DEADLINE (R35). -/
def execBandDeadline (r stn k : Nat) (s : State) : Host.Outcome State Fault Refusal :=
  onUnit (decide (r < 256) && s.mach.hasStn stn && decide (k < 1024)) (opBandDeadline r stn k) s

/-- WATCH_WINDOW_JUDGED (R430). -/
def execWatchWindowJudged (w r : Nat) (s : State) : Host.Outcome State Fault Refusal :=
  onUnit (decide (w < 16) && decide (r < 256)) (opWatchWindowJudged w r) s

/-- WATCH_CFG_WRITE (R430). -/
def execWatchCfgWrite (core k w : Nat) (v : Word) (s : State) : Host.Outcome State Fault Refusal :=
  onUnit (okCtx core k && decide (w < 16)) (opWatchCfgWrite core k w v) s

/-- SNAPSHOT_PERIODIC_TRIGGER (R44). -/
def execSnapshotPeriodicTrigger (s : State) : Host.Outcome State Fault Refusal :=
  onUnit true opSnapshotPeriodicTrigger s

/-- SNAPSHOT_CAPTURE_DONE (R45). -/
def execSnapshotCaptureDone (s : State) : Host.Outcome State Fault Refusal :=
  onUnitM true opSnapshotCaptureDone s

/-- SNAPSHOT_BANK_READ (R46). -/
def execSnapshotBankRead (q : Requester) (b off : Nat) (s : State) : Host.Outcome State Fault Refusal :=
  onUnitR (okReq q && decide (b < 2) && decide (off < 32768)) (opSnapshotBankRead q b off) s

/-- SNAPSHOT_HOLD_EXPIRE (R46). -/
def execSnapshotHoldExpire (b : Nat) (s : State) : Host.Outcome State Fault Refusal :=
  onUnit (decide (b < 2)) (opSnapshotHoldExpire b) s

/-- SENSOR_EDGE (R259). -/
def execSensorEdge (i : Nat) (s : State) : Host.Outcome State Fault Refusal :=
  onUnit (decide (i < 48)) (opSensorEdge i) s

end Sys2Proof.Machine
end

