-- ==== Sys2Proof/Machine/Dispatch.lean ====
section
/-! DEFINITION. One arm per command of the table, each one direct call of its meaning. -/

namespace Sys2Proof.Machine

/-- The effect of one command on everything but the queue of waiting commands. -/
def exec (i : Instr) (s : State) : Host.Outcome State Fault Refusal :=
  match i with
  | .registerWrite q off bytes v => Sys2Proof.Machine.execRegisterWrite q off bytes v s
  | .latchedLowRead q off => Sys2Proof.Machine.execLatchedLowRead q off s
  | .readClear q off => Sys2Proof.Machine.execReadClear q off s
  | .sluCreate core k sid => Sys2Proof.Machine.execSluCreate core k sid s
  | .reserve core k r => Sys2Proof.Machine.execReserve core k r s
  | .admitSheet core k r => Sys2Proof.Machine.execAdmit core k r s
  | .unadmit core k r => Sys2Proof.Machine.execUnadmit core k r s
  | .withdraw core k r => Sys2Proof.Machine.execWithdraw core k r s
  | .unreserve core k r => Sys2Proof.Machine.execUnreserve core k r s
  | .free core k r => Sys2Proof.Machine.execFree core k r s
  | .sluOpUndefined core k op r => Sys2Proof.Machine.execSluOpUndefined core k op r s
  | .sheetRecordWrite core k r w v => Sys2Proof.Machine.execSheetRecordWrite core k r w v s
  | .sluCtlWrite core k v => Sys2Proof.Machine.execSluCtlWrite core k v s
  | .sluRsvWrite core k v => Sys2Proof.Machine.execSluRsvWrite core k v s
  | .throttleSpeedStep => Sys2Proof.Machine.execThrottleSpeedStep s
  | .sheetArm r => Sys2Proof.Machine.execSheetArm r s
  | .catch r => Sys2Proof.Machine.execCatch r s
  | .sheetTransferred r => Sys2Proof.Machine.execSheetTransferred r s
  | .bandDeadline r stn k => Sys2Proof.Machine.execBandDeadline r stn k s
  | .watchWindowJudged w r => Sys2Proof.Machine.execWatchWindowJudged w r s
  | .watchCfgWrite core k w v => Sys2Proof.Machine.execWatchCfgWrite core k w v s
  | .snapshotPeriodicTrigger => Sys2Proof.Machine.execSnapshotPeriodicTrigger s
  | .snapshotCaptureDone => Sys2Proof.Machine.execSnapshotCaptureDone s
  | .snapshotBankRead q b off => Sys2Proof.Machine.execSnapshotBankRead q b off s
  | .snapshotHoldExpire b => Sys2Proof.Machine.execSnapshotHoldExpire b s
  | .hsfWrite => Sys2Proof.Machine.execHsfWrite s
  | .synthEnable q k v => Sys2Proof.Machine.execSynthEnable q k v s
  | .synthDisable q k v => Sys2Proof.Machine.execSynthDisable q k v s
  | .synthLock k => Sys2Proof.Machine.execSynthLock k s
  | .synthLockLoss k => Sys2Proof.Machine.execSynthLockLoss k s
  | .synthRampEnd k => Sys2Proof.Machine.execSynthRampEnd k s
  | .clockLossDrainEnd => Sys2Proof.Machine.execClockLossDrainEnd s
  | .clockLossDrainTimeout => Sys2Proof.Machine.execClockLossDrainTimeout s
  | .refclkLoss => Sys2Proof.Machine.execRefclkLoss s
  | .refclkReturn => Sys2Proof.Machine.execRefclkReturn s
  | .ppcrateWrite q v => Sys2Proof.Machine.execPpcrateWrite q v s
  | .ppcWatchdogExpire => Sys2Proof.Machine.execPpcWatchdogExpire s
  | .strokeStart stn => Sys2Proof.Machine.execStrokeStart stn s
  | .lineStep stn => Sys2Proof.Machine.execLineStep stn s
  | .bdMissing stn => Sys2Proof.Machine.execBdMissing stn s
  | .levelFrame stn z => Sys2Proof.Machine.execLevelFrame stn z s
  | .safeFrame stn => Sys2Proof.Machine.execSafeFrame stn s
  | .headTempSample stn => Sys2Proof.Machine.execHeadTempSample stn s
  | .fzEdge stn => Sys2Proof.Machine.execFzEdge stn s
  | .signatureDone stn revs => Sys2Proof.Machine.execSignatureDone stn revs s
  | .vidCtlWrite q stn w => Sys2Proof.Machine.execVidCtlWrite q stn w s
  | .bmapSelWrite q w => Sys2Proof.Machine.execBmapSelWrite q w s
  | .start core k => Sys2Proof.Machine.execStart core k s
  | .halt core k => Sys2Proof.Machine.execHalt core k s
  | .resume core k => Sys2Proof.Machine.execResume core k s
  | .discard core k => Sys2Proof.Machine.execDiscard core k s
  | .cancel core => Sys2Proof.Machine.execCancel core s
  | .disarm core => Sys2Proof.Machine.execDisarm core s
  | .coxEnable core v => Sys2Proof.Machine.execCoxEnable core v s
  | .coxDisable core v => Sys2Proof.Machine.execCoxDisable core v s
  | .swev q core v => Sys2Proof.Machine.execSwev q core v s
  | .supmpuLock v => Sys2Proof.Machine.execSupmpuLock v s
  | .comparatorFire core n => Sys2Proof.Machine.execComparatorFire core n s
  | .pinpulseEnd core n => Sys2Proof.Machine.execPinpulseEnd core n s
  | .commitReady core k => Sys2Proof.Machine.execCommitReady core k s
  | .commitApply core k => Sys2Proof.Machine.execCommitApply core k s
  | .reset => Sys2Proof.Machine.execReset s
  | .add core k rd rs1 rs2 => Sys2Proof.Machine.execAdd core k rd rs1 rs2 s
  | .sub core k rd rs1 rs2 => Sys2Proof.Machine.execSub core k rd rs1 rs2 s
  | .and core k rd rs1 rs2 => Sys2Proof.Machine.execAnd core k rd rs1 rs2 s
  | .or core k rd rs1 rs2 => Sys2Proof.Machine.execOr core k rd rs1 rs2 s
  | .xor core k rd rs1 rs2 => Sys2Proof.Machine.execXor core k rd rs1 rs2 s
  | .sll core k rd rs1 rs2 => Sys2Proof.Machine.execSll core k rd rs1 rs2 s
  | .slli core k rd rs1 u5 => Sys2Proof.Machine.execSlli core k rd rs1 u5 s
  | .srl core k rd rs1 rs2 => Sys2Proof.Machine.execSrl core k rd rs1 rs2 s
  | .srli core k rd rs1 u5 => Sys2Proof.Machine.execSrli core k rd rs1 u5 s
  | .sra core k rd rs1 rs2 => Sys2Proof.Machine.execSra core k rd rs1 rs2 s
  | .srai core k rd rs1 u5 => Sys2Proof.Machine.execSrai core k rd rs1 u5 s
  | .slt core k rd rs1 rs2 => Sys2Proof.Machine.execSlt core k rd rs1 rs2 s
  | .sltu core k rd rs1 rs2 => Sys2Proof.Machine.execSltu core k rd rs1 rs2 s
  | .min core k rd rs1 rs2 => Sys2Proof.Machine.execMin core k rd rs1 rs2 s
  | .max core k rd rs1 rs2 => Sys2Proof.Machine.execMax core k rd rs1 rs2 s
  | .minu core k rd rs1 rs2 => Sys2Proof.Machine.execMinu core k rd rs1 rs2 s
  | .maxu core k rd rs1 rs2 => Sys2Proof.Machine.execMaxu core k rd rs1 rs2 s
  | .adds core k rd rs1 rs2 => Sys2Proof.Machine.execAdds core k rd rs1 rs2 s
  | .subs core k rd rs1 rs2 => Sys2Proof.Machine.execSubs core k rd rs1 rs2 s
  | .clz core k rd rs1 => Sys2Proof.Machine.execClz core k rd rs1 s
  | .mul core k rd rs1 rs2 => Sys2Proof.Machine.execMul core k rd rs1 rs2 s
  | .mulh core k rd rs1 rs2 => Sys2Proof.Machine.execMulh core k rd rs1 rs2 s
  | .mulhu core k rd rs1 rs2 => Sys2Proof.Machine.execMulhu core k rd rs1 rs2 s
  | .sats core k rd rs1 u5 => Sys2Proof.Machine.execSats core k rd rs1 u5 s
  | .satu core k rd rs1 u5 => Sys2Proof.Machine.execSatu core k rd rs1 u5 s
  | .addi core k rd rs1 imm => Sys2Proof.Machine.execAddi core k rd rs1 imm s
  | .andi core k rd rs1 imm => Sys2Proof.Machine.execAndi core k rd rs1 imm s
  | .ori core k rd rs1 imm => Sys2Proof.Machine.execOri core k rd rs1 imm s
  | .xori core k rd rs1 imm => Sys2Proof.Machine.execXori core k rd rs1 imm s
  | .slti core k rd rs1 imm => Sys2Proof.Machine.execSlti core k rd rs1 imm s
  | .sltiu core k rd rs1 imm => Sys2Proof.Machine.execSltiu core k rd rs1 imm s
  | .ldh core k rd imm => Sys2Proof.Machine.execLdh core k rd imm s
  | .lw core k rd rs1 imm ans => Sys2Proof.Machine.execLw core k rd rs1 imm ans s
  | .lh core k rd rs1 imm ans => Sys2Proof.Machine.execLh core k rd rs1 imm ans s
  | .lhu core k rd rs1 imm ans => Sys2Proof.Machine.execLhu core k rd rs1 imm ans s
  | .lb core k rd rs1 imm ans => Sys2Proof.Machine.execLb core k rd rs1 imm ans s
  | .lbu core k rd rs1 imm ans => Sys2Proof.Machine.execLbu core k rd rs1 imm ans s
  | .lwf core k rd rs1 imm ans => Sys2Proof.Machine.execLwf core k rd rs1 imm ans s
  | .sw core k rs2 rs1 imm ans => Sys2Proof.Machine.execSw core k rs2 rs1 imm ans s
  | .sh core k rs2 rs1 imm ans => Sys2Proof.Machine.execSh core k rs2 rs1 imm ans s
  | .sb core k rs2 rs1 imm ans => Sys2Proof.Machine.execSb core k rs2 rs1 imm ans s
  | .swf core k rs2 rs1 imm ans => Sys2Proof.Machine.execSwf core k rs2 rs1 imm ans s
  | .amoadd core k rd rs1 rs2 far ans => Sys2Proof.Machine.execAmoadd core k rd rs1 rs2 far ans s
  | .amoswp core k rd rs1 rs2 far ans => Sys2Proof.Machine.execAmoswp core k rd rs1 rs2 far ans s
  | .beq core k rs1 rs2 off => Sys2Proof.Machine.execBeq core k rs1 rs2 off s
  | .bne core k rs1 rs2 off => Sys2Proof.Machine.execBne core k rs1 rs2 off s
  | .blt core k rs1 rs2 off => Sys2Proof.Machine.execBlt core k rs1 rs2 off s
  | .bge core k rs1 rs2 off => Sys2Proof.Machine.execBge core k rs1 rs2 off s
  | .bltu core k rs1 rs2 off => Sys2Proof.Machine.execBltu core k rs1 rs2 off s
  | .bgeu core k rs1 rs2 off => Sys2Proof.Machine.execBgeu core k rs1 rs2 off s
  | .jal core k off => Sys2Proof.Machine.execJal core k off s
  | .jalr core k rd rs1 imm => Sys2Proof.Machine.execJalr core k rd rs1 imm s
  | .csrr core k rd csr => Sys2Proof.Machine.execCsrr core k rd csr s
  | .csrw core k rd csr rs1 => Sys2Proof.Machine.execCsrw core k rd csr rs1 s
  | .csrs core k rd csr rs1 => Sys2Proof.Machine.execCsrs core k rd csr rs1 s
  | .csrc core k rd csr rs1 => Sys2Proof.Machine.execCsrc core k rd csr rs1 s
  | .stgclr core k rd rs1 => Sys2Proof.Machine.execStgclr core k rd rs1 s
  | .cmtcan core k rd rs1 => Sys2Proof.Machine.execCmtcan core k rd rs1 s
  | .waitt core k rd rs1 rs2 code sub => Sys2Proof.Machine.execWaitt core k rd rs1 rs2 code sub s
  | .waittWake core k => Sys2Proof.Machine.execWaittWake core k s
  | .waite core k rd rs1 => Sys2Proof.Machine.execWaite core k rd rs1 s
  | .waiteWake core k => Sys2Proof.Machine.execWaiteWake core k s
  | .sleep core k rs1 => Sys2Proof.Machine.execSleep core k rs1 s
  | .sleepWake core k => Sys2Proof.Machine.execSleepWake core k s
  | .yield core k => Sys2Proof.Machine.execYield core k s
  | .pri core k rd rs1 => Sys2Proof.Machine.execPri core k rd rs1 s
  | .arm core k rd rs1 => Sys2Proof.Machine.execArm core k rd rs1 s
  | .darm core k rd rs1 => Sys2Proof.Machine.execDarm core k rd rs1 s
  | .stg core k rs2 rs1 imm => Sys2Proof.Machine.execStg core k rs2 rs1 imm s
  | .cmt core k rd rs1 rs2 code sub late => Sys2Proof.Machine.execCmt core k rd rs1 rs2 code sub late s
  | .push core k rd rs1 ring ans => Sys2Proof.Machine.execPush core k rd rs1 ring ans s
  | .pop core k rd rs1 ring ans => Sys2Proof.Machine.execPop core k rd rs1 ring ans s
  | .flt core k rd rs1 rs2 code sub => Sys2Proof.Machine.execFlt core k rd rs1 rs2 code sub s
  | .undefinedInstruction core k w => Sys2Proof.Machine.execUndefinedInstruction core k w s
  | .ingestDescriptor => Sys2Proof.Machine.execIngestDescriptor s
  | .ingestAllocate => Sys2Proof.Machine.execIngestAllocate s
  | .peatHeaderArrived ecc => Sys2Proof.Machine.execPeatHeaderArrived ecc s
  | .ingestTransferDone ecc => Sys2Proof.Machine.execIngestTransferDone ecc s
  | .deflateStart => Sys2Proof.Machine.execDeflateStart s
  | .deflateDone e out => Sys2Proof.Machine.execDeflateDone e out s
  | .ingestVerifyDone e => Sys2Proof.Machine.execIngestVerifyDone e s
  | .ingestCompletionPost => Sys2Proof.Machine.execIngestCompletionPost s
  | .purge q sid => Sys2Proof.Machine.execPurge q sid s
  | .pin q sid => Sys2Proof.Machine.execPin q sid s
  | .unpin q sid => Sys2Proof.Machine.execUnpin q sid s
  | .query q sid => Sys2Proof.Machine.execQuery q sid s
  | .sweep q => Sys2Proof.Machine.execSweep q s
  | .jsopUndefined q op sid => Sys2Proof.Machine.execJsopUndefined q op sid s
  | .jobStoreHoldExpire sid => Sys2Proof.Machine.execJobStoreHoldExpire sid s
  | .feederStart stn => Sys2Proof.Machine.execFeederStart stn s
  | .feederBandStart stn ecc => Sys2Proof.Machine.execFeederBandStart stn ecc s
  | .inflateRunStart => Sys2Proof.Machine.execInflateRunStart s
  | .inflateRunDone e ecc => Sys2Proof.Machine.execInflateRunDone e ecc s
  | .crcGo q => Sys2Proof.Machine.execCrcGo q s
  | .crcDone ecc => Sys2Proof.Machine.execCrcDone ecc s
  | .slotTrigger n => Sys2Proof.Machine.execSlotTrigger n s
  | .slotInputsRead n => Sys2Proof.Machine.execSlotInputsRead n s
  | .scullDispatch => Sys2Proof.Machine.execScullDispatch s
  | .scullBudgetExpire => Sys2Proof.Machine.execScullBudgetExpire s
  | .scullOutputWrite => Sys2Proof.Machine.execScullOutputWrite s
  | .rcSyncEvent n => Sys2Proof.Machine.execRcSyncEvent n s
  | .slotEnable q n v => Sys2Proof.Machine.execSlotEnable q n v s
  | .adcConversion x v => Sys2Proof.Machine.execAdcConversion x v s
  | .hvSustainedOvercurrent h => Sys2Proof.Machine.execHvSustainedOvercurrent h s
  | .markArm q v => Sys2Proof.Machine.execMarkArm q v s
  | .markAbort q v => Sys2Proof.Machine.execMarkAbort q v s
  | .markWindowClose stn x bar stamps codes => Sys2Proof.Machine.execMarkWindowClose stn x bar stamps codes s
  | .zcEdge => Sys2Proof.Machine.execZcEdge s
  | .zcLoss => Sys2Proof.Machine.execZcLoss s
  | .fuserGateFire z => Sys2Proof.Machine.execFuserGateFire z s
  | .fuserGateEnd z => Sys2Proof.Machine.execFuserGateEnd z s
  | .encEdge q a b held sub => Sys2Proof.Machine.execEncEdge q a b held sub s
  | .encIndex q => Sys2Proof.Machine.execEncIndex q s
  | .encStandstill q => Sys2Proof.Machine.execEncStandstill q s
  | .speedWindowEnd q => Sys2Proof.Machine.execSpeedWindowEnd q s
  | .encModeWrite q ch v => Sys2Proof.Machine.execEncModeWrite q ch v s
  | .ssiFrameStart p d => Sys2Proof.Machine.execSsiFrameStart p d s
  | .ssiFrameEnd p data err par returned => Sys2Proof.Machine.execSsiFrameEnd p data err par returned s
  | .snsRawTransition n lvl => Sys2Proof.Machine.execSnsRawTransition n lvl s
  | .sensorEdge n => Sys2Proof.Machine.execSensorEdge n s
  | .chatterEnd n => Sys2Proof.Machine.execChatterEnd n s
  | .snsCtlWrite q v => Sys2Proof.Machine.execSnsCtlWrite q v s
  | .servoPeriod => Sys2Proof.Machine.execServoPeriod s
  | .segmentMove q a v => Sys2Proof.Machine.execSegmentMove q a v s
  | .segmentMoveRelative q a v => Sys2Proof.Machine.execSegmentMoveRelative q a v s
  | .segmentRun q a v => Sys2Proof.Machine.execSegmentRun q a v s
  | .segmentDecelerate q a v => Sys2Proof.Machine.execSegmentDecelerate q a v s
  | .segmentQuickStop q a v => Sys2Proof.Machine.execSegmentQuickStop q a v s
  | .segmentHome q a v => Sys2Proof.Machine.execSegmentHome q a v s
  | .segmentUndefined q a mode v => Sys2Proof.Machine.execSegmentUndefined q a mode v s
  | .segmentDelayedStart a => Sys2Proof.Machine.execSegmentDelayedStart a s
  | .profileRateWrite q a which v => Sys2Proof.Machine.execProfileRateWrite q a which v s
  | .polyEnable q n w => Sys2Proof.Machine.execPolyEnable q n w s
  | .polyDisable q n w => Sys2Proof.Machine.execPolyDisable q n w s
  | .polyAlignEnd n => Sys2Proof.Machine.execPolyAlignEnd n s
  | .polyRampEnd n => Sys2Proof.Machine.execPolyRampEnd n s
  | .bemfCrossing n phase rising sub => Sys2Proof.Machine.execBemfCrossing n phase rising sub s
  | .hallEdge n code => Sys2Proof.Machine.execHallEdge n code s
  | .polyCommutate n => Sys2Proof.Machine.execPolyCommutate n s
  | .polyStepTimeout n => Sys2Proof.Machine.execPolyStepTimeout n s
  | .polyCatchTimeout n => Sys2Proof.Machine.execPolyCatchTimeout n s
  | .polyPwmPeriod n => Sys2Proof.Machine.execPolyPwmPeriod n s
  | .servoPwmPeriod n => Sys2Proof.Machine.execServoPwmPeriod n s
  | .stepperPwmPeriod n => Sys2Proof.Machine.execStepperPwmPeriod n s
  | .stepperHoldTimeout n => Sys2Proof.Machine.execStepperHoldTimeout n s
  | .chopperCurrentCheck => Sys2Proof.Machine.execChopperCurrentCheck s
  | .chopperRiseCheck => Sys2Proof.Machine.execChopperRiseCheck s
  | .dramEnable q v => Sys2Proof.Machine.execDramEnable q v s
  | .dramTrainingDone ok => Sys2Proof.Machine.execDramTrainingDone ok s
  | .refreshDue video => Sys2Proof.Machine.execRefreshDue video s
  | .mr4Poll derate => Sys2Proof.Machine.execMr4Poll derate s
  | .dqsOscCheck drift => Sys2Proof.Machine.execDqsOscCheck drift s
  | .retrainStart => Sys2Proof.Machine.execRetrainStart s
  | .retrainDone => Sys2Proof.Machine.execRetrainDone s
  | .retrainLate => Sys2Proof.Machine.execRetrainLate s
  | .ringEnable q r v => Sys2Proof.Machine.execRingEnable q r v s
  | .ringProducerDoorbell r v => Sys2Proof.Machine.execRingProducerDoorbell r v s
  | .ringConsumerIndex r v => Sys2Proof.Machine.execRingConsumerIndex r v s
  | .ringIrqTimer r => Sys2Proof.Machine.execRingIrqTimer r s
  | .dmaGo q c => Sys2Proof.Machine.execDmaGo q c s
  | .dmaAbort q c => Sys2Proof.Machine.execDmaAbort q c s
  | .dmaSkip q c => Sys2Proof.Machine.execDmaSkip q c s
  | .dmaShload q c => Sys2Proof.Machine.execDmaShload q c s
  | .tdFetch c ecc => Sys2Proof.Machine.execTdFetch c ecc s
  | .dmaBurst c ecc => Sys2Proof.Machine.execDmaBurst c ecc s
  | .tdComplete c => Sys2Proof.Machine.execTdComplete c s
  | .dmaBusTimeout c => Sys2Proof.Machine.execDmaBusTimeout c s
  | .dmaWaitTimeout c => Sys2Proof.Machine.execDmaWaitTimeout c s
  | .dmaPowerdownTimeout d => Sys2Proof.Machine.execDmaPowerdownTimeout d s
  | .datuWalkDone q failed => Sys2Proof.Machine.execDatuWalkDone q failed s
  | .pageRequestPost => Sys2Proof.Machine.execPageRequestPost s
  | .prack q v => Sys2Proof.Machine.execPrack q v s
  | .invpage q v => Sys2Proof.Machine.execInvpage q v s
  | .invall q v => Sys2Proof.Machine.execInvall q v s
  | .invalidationDone => Sys2Proof.Machine.execInvalidationDone s
  | .functionLevelReset => Sys2Proof.Machine.execFunctionLevelReset s
  | .pciePerst low => Sys2Proof.Machine.execPciePerst low s
  | .pcieLinkChange up gen width => Sys2Proof.Machine.execPcieLinkChange up gen width s
  | .msixUnmask v => Sys2Proof.Machine.execMsixUnmask v s
  | .domainRequest q v => Sys2Proof.Machine.execDomainRequest q v s
  | .domainUp d => Sys2Proof.Machine.execDomainUp d s
  | .railSequenceUp q => Sys2Proof.Machine.execRailSequenceUp q s
  | .railSequenceDown q => Sys2Proof.Machine.execRailSequenceDown q s
  | .railPowerGood n => Sys2Proof.Machine.execRailPowerGood n s
  | .railPgTimeout n => Sys2Proof.Machine.execRailPgTimeout n s
  | .railUpDelayEnd n => Sys2Proof.Machine.execRailUpDelayEnd n s
  | .railDischarged n => Sys2Proof.Machine.execRailDischarged n s
  | .railDischargeTimeout n => Sys2Proof.Machine.execRailDischargeTimeout n s
  | .railDownDelayEnd n => Sys2Proof.Machine.execRailDownDelayEnd n s
  | .railLost n => Sys2Proof.Machine.execRailLost n s
  | .pmbusTransactionDone n ok data => Sys2Proof.Machine.execPmbusTransactionDone n ok data s
  | .pmbusStatusPoll n => Sys2Proof.Machine.execPmbusStatusPoll n s
  | .latchclr q v => Sys2Proof.Machine.execLatchclr q v s
  | .acLoss => Sys2Proof.Machine.execAcLoss s
  | .acRestart => Sys2Proof.Machine.execAcRestart s
  | .softwareReset q v => Sys2Proof.Machine.execSoftwareReset q v s
  | .throttleGraceEnd => Sys2Proof.Machine.execThrottleGraceEnd s
  | .faultMessage src kind cls sid param => Sys2Proof.Machine.execFaultMessage src kind cls sid param s
  | .faultClear q v => Sys2Proof.Machine.execFaultClear q v s
  | .aliveToggle => Sys2Proof.Machine.execAliveToggle s
  | .aliveWrite q v => Sys2Proof.Machine.execAliveWrite q v s
  | .kick q v => Sys2Proof.Machine.execKick q v s
  | .kickWindowExpire => Sys2Proof.Machine.execKickWindowExpire s
  | .interlockOpen => Sys2Proof.Machine.execInterlockOpen s
  | .interlockQualified => Sys2Proof.Machine.execInterlockQualified s
  | .portUp p => Sys2Proof.Machine.execPortUp p s
  | .helloTimer => Sys2Proof.Machine.execHelloTimer s
  | .helloFrame p f good => Sys2Proof.Machine.execHelloFrame p f good s
  | .frameAck p lseq => Sys2Proof.Machine.execFrameAck p lseq s
  | .frameRetransmit p => Sys2Proof.Machine.execFrameRetransmit p s
  | .timeExchangeTimer sub => Sys2Proof.Machine.execTimeExchangeTimer sub s
  | .timeRequestFrame p f good sub turn => Sys2Proof.Machine.execTimeRequestFrame p f good sub turn s
  | .timeReplyFrame p f good sub => Sys2Proof.Machine.execTimeReplyFrame p f good sub s
  | .timeHoldoverTimeout => Sys2Proof.Machine.execTimeHoldoverTimeout s
  | .groupTimeTimeout => Sys2Proof.Machine.execGroupTimeTimeout s
  | .userFrame p f good => Sys2Proof.Machine.execUserFrame p f good s
  | .userEventDue => Sys2Proof.Machine.execUserEventDue s
  | .catchFrame p f good => Sys2Proof.Machine.execCatchFrame p f good s
  | .cancelFrame p f good => Sys2Proof.Machine.execCancelFrame p f good s
  | .missFrame p f good => Sys2Proof.Machine.execMissFrame p f good s
  | .spoilFrame p f good => Sys2Proof.Machine.execSpoilFrame p f good s
  | .stopFrame p f good => Sys2Proof.Machine.execStopFrame p f good s
  | .heartFrame p f good => Sys2Proof.Machine.execHeartFrame p f good s
  | .heartTimer => Sys2Proof.Machine.execHeartTimer s
  | .memberLostTimeout node => Sys2Proof.Machine.execMemberLostTimeout node s
  | .gcgo q => Sys2Proof.Machine.execGcgo q s
  | .chreq p f good => Sys2Proof.Machine.execChreq p f good s
  | .chdata p f good back => Sys2Proof.Machine.execChdata p f good back s
  | .chnak p f good => Sys2Proof.Machine.execChnak p f good s
  | .attest q => Sys2Proof.Machine.execAttest q s
  | .load q target => Sys2Proof.Machine.execLoad q target s
  | .checkhdr q => Sys2Proof.Machine.execCheckhdr q s
  | .armupd q order => Sys2Proof.Machine.execArmupd q order s
  | .envwrite q => Sys2Proof.Machine.execEnvwrite q s
  | .advance q => Sys2Proof.Machine.execAdvance q s
  | .keyprog q key => Sys2Proof.Machine.execKeyprog q key s
  | .dbgchal q => Sys2Proof.Machine.execDbgchal q s
  | .dbgresp q => Sys2Proof.Machine.execDbgresp q s
  | .secOpDone ok => Sys2Proof.Machine.execSecOpDone ok s
  | .loaderChunkDescriptor back => Sys2Proof.Machine.execLoaderChunkDescriptor back s
  | .loaderSourceTimeout => Sys2Proof.Machine.execLoaderSourceTimeout s
  | .blockLockLoss p => Sys2Proof.Machine.execBlockLockLoss p s
  | .pciePowerState d3 => Sys2Proof.Machine.execPciePowerState d3 s
  | .resetAsserted => Sys2Proof.Machine.execResetAsserted s
  | .bar4Access write lanes off ecc => Sys2Proof.Machine.execBar4Access write lanes off ecc s
  | .bar2Write off => Sys2Proof.Machine.execBar2Write off s

end Sys2Proof.Machine
end

