-- ==== Sys2Proof/Safety.lean ====
section
/-! DEFINITION. What counts as a safe run, and the vocabulary of the statements. -/

namespace Sys2Proof.Machine

/-! ## Safe runs -/

/-- The memories are in their canonical form. -/
def State.memOk (s : State) : Prop := Memory.wf s.mem = true

/-- The step from a state goes on: it answers neither a fault nor a refusal. -/
def State.goesOn (s : State) : Prop := ∃ t, step s = .next t

/-! ## Vocabulary of the statements -/

/-- Context k of a core, as the state holds it. -/
def State.ctxOf (s : State) (core k : Nat) : Ctx := s.mach.ctx (cix core k)

/-- Context k of a core is running, is not being halted, and may fetch the word at its PC. -/
def State.fetching (s : State) (core k : Nat) : Prop :=
  okCtx core k = true ∧ (s.ctxOf core k).state = .running ∧ (s.ctxOf core k).halting = false ∧
    fetchStop core k (s.ctxOf core k).pc.toNat s.mach = none

/-- The state after context k of a core has completed an instruction that changes its own context by f and nothing
else: the PC goes on by a word, one more instruction counts as completed, f acts, and the core is given to the context
that the priorities name. -/
def State.ran (s : State) (core k : Nat) (f : Ctx → Ctx) : State :=
  s.onMach fun m => resched core (m.modCtx (cix core k) fun c => f c.retire)

/-- The same, with an effect g on the machine between the fetch and the end of the instruction. -/
def State.ranOn (s : State) (core k : Nat) (g : Mach → Mach) : State :=
  s.onMach fun m => resched core (g (m.modCtx (cix core k) Ctx.retire))

/-- The machine as an instruction of context k finds it: the PC already past the instruction. -/
def State.fetched (s : State) (core k : Nat) : Mach :=
  s.mach.modCtx (cix core k) Ctx.retire

/-- A requester's write of a register gets past its rights, the power domain and the part (R13, R84, R338). -/
def State.lets (s : State) (q : Requester) (staged : Bool) (key : Nat) : Prop :=
  mayWrite q staged key = true ∧ regUp key s.mach = true ∧ regExists key s.mach = true

/-- The latest fault of class 2 or above is this one: its source, kind and class (R366). -/
def State.lastFault (s : State) (src kind cls : Nat) : Prop :=
  s.mach.flt.last.src = src ∧ s.mach.flt.last.kind = kind ∧ s.mach.flt.last.cls = cls

/-- Between s and t a fault of this source, kind and class has reached the collector, as the latest of class 2 or above
(R366); said of states in which no sensor edge waits to be judged, since judging one may bring a fault of its own (R430). -/
def State.faulted (s t : State) (src kind cls : Nat) : Prop := s.mach.heldEdges = [] → t.lastFault src kind cls

/-- CODE, REC and OP of a context's own SLU_OPRES (R31). -/
def State.opres (s : State) (core k : Nat) : Nat × Nat × Nat :=
  let w := s.mach.own (cix core k) R.SLU_OPRES_CODE.key
  (R.SLU_OPRES_CODE.of w, R.SLU_OPRES_REC.of w, R.SLU_OPRES_OP.of w)

/-- Every sheet record but r is as it was. -/
def State.otherSheets (s t : State) (r : Nat) : Prop := ∀ j, j ≠ r → t.mach.sheet j = s.mach.sheet j

end Sys2Proof.Machine
end

