-- ==== Sys2Proof/Certificates/Slice0/Obligations.lean ====
section
/-! DEFINITION. The statements for the provers. -/

open Sys2Proof Sys2Proof.Machine

/-! ## The block as a whole -/

/-- A step runs the command at the front of the queue with the queue's rest in place; with no command waiting, the
next period of the reference clock passes (the model's choice, log entry 4). The opcode table gives its rows no bits,
so no table word puts a command into the queue. -/
def Obligations.StepRunsFront : Prop :=
  ∀ (s : State), (∀ c q, s.pending = c :: q → step s = exec c (s.withPending q)) ∧
    (s.pending = [] → step s = .next (settle (s.onMach idleCycle))) ∧
    ∀ nbits w, s.withFetchWord nbits w = s

/-- R14, R23, R59, R74, R103: right after reset the memories list nothing out of form, every register holds the reset
value of its row, TICK is 0, every sheet record is FREE, nothing waits in the queue, and the supervisor's context 0 is
the only one that runs. Rests on choices of the model: log entries 1, 2. -/
def Obligations.ResetState : Prop :=
  State.reset.memOk ∧ State.reset.pending = [] ∧ State.reset.mach.clk.tick = 0 ∧
    (∀ key, State.reset.mach.word key = rstWord key) ∧ (∀ r, (State.reset.mach.sheet r).state = .free) ∧
    (∀ core k, okCtx core k = true → ((State.reset.ctxOf core k).state = .running ↔ core = 8 ∧ k = 0)) ∧
    (∀ core n, (State.reset.mach.cmp (core * 32 + n)).armed = false)

/-- Every step keeps the canonical form of the three memories. Rests on choices of the model: log entry 2. -/
def Obligations.StepKeepsMemory : Prop := ∀ (s t : State), s.memOk → step s = .next t → t.memOk

/-- R1-R3: every command completes and leaves the queue of waiting commands as it is; a command whose operands name no
unit of the family changes nothing. Rests on choices of the model: log entry 7. -/
def Obligations.CommandsComplete : Prop :=
  ∀ (c : Instr) (s : State),
    (∃ t, exec c s = .next t ∧ t.pending = s.pending) ∧ (wellFormed c = false → exec c s = .next s)

/-- R109, R110: a Meper instruction whose fields its encoding admits is read back from its word with every field, and
a word that decodes is the word of what it decodes to. -/
def Obligations.MeperEncoding : Prop :=
  ∀ (stations : Nat), stations ≤ 5 →
    (∀ i w, encodeMeper i = some w → wellFormed i = true → encodable stations i = true →
      ∃ core k ans, decodeMeper stations core k ans w = some i) ∧
    (∀ core k ans w i, decodeMeper stations core k ans w = some i → encodeMeper i = some w ∧
      (okCtx core k = true → wellFormed i = true ∧ encodable stations i = true))
/-! ## Meper (chapter 4) -/

/-- R111, Table 4.3: the results of the ALU group, for every operand and shift amount. Nothing but the context's own
rd, PC and instruction count changes, besides the choice of the running context. Rests on choices of the model: log
entry 6. -/
def Obligations.AluResults : Prop :=
  ∀ (core k rd rs1 rs2 : Nat) (s : State), s.fetching core k → rd < 32 → rs1 < 32 → rs2 < 32 →
    let a := (s.ctxOf core k).g rs1
    let b := (s.ctxOf core k).g rs2
    let sh := b.toNat % 32
    exec (.add core k rd rs1 rs2) s = .next (s.ran core k (·.setG rd (a + b))) ∧
    exec (.sub core k rd rs1 rs2) s = .next (s.ran core k (·.setG rd (a - b))) ∧
    exec (.and core k rd rs1 rs2) s = .next (s.ran core k (·.setG rd (a &&& b))) ∧
    exec (.or core k rd rs1 rs2) s = .next (s.ran core k (·.setG rd (a ||| b))) ∧
    exec (.xor core k rd rs1 rs2) s = .next (s.ran core k (·.setG rd (a ^^^ b))) ∧
    exec (.sll core k rd rs1 rs2) s = .next (s.ran core k (·.setG rd (BitVec.ofNat 32 (a.toNat * 2 ^ sh)))) ∧
    exec (.slli core k rd rs1 rs2) s = .next (s.ran core k (·.setG rd (BitVec.ofNat 32 (a.toNat * 2 ^ rs2)))) ∧
    exec (.srl core k rd rs1 rs2) s = .next (s.ran core k (·.setG rd (BitVec.ofNat 32 (a.toNat / 2 ^ sh)))) ∧
    exec (.srli core k rd rs1 rs2) s = .next (s.ran core k (·.setG rd (BitVec.ofNat 32 (a.toNat / 2 ^ rs2)))) ∧
    exec (.sra core k rd rs1 rs2) s = .next (s.ran core k (·.setG rd (BitVec.ofInt 32 (a.toInt / 2 ^ sh)))) ∧
    exec (.srai core k rd rs1 rs2) s = .next (s.ran core k (·.setG rd (BitVec.ofInt 32 (a.toInt / 2 ^ rs2)))) ∧
    exec (.slt core k rd rs1 rs2) s = .next (s.ran core k (·.setG rd (if a.toInt < b.toInt then 1 else 0))) ∧
    exec (.sltu core k rd rs1 rs2) s = .next (s.ran core k (·.setG rd (if a.toNat < b.toNat then 1 else 0)))

/-- R111, Table 4.3: minimum and maximum, saturating sums, leading zeros, products and clamps. Rests on choices of the
model: log entry 6. -/
def Obligations.AluBounded : Prop :=
  ∀ (core k rd rs1 rs2 : Nat) (s : State), s.fetching core k → rd < 32 → rs1 < 32 → rs2 < 32 →
    let a := (s.ctxOf core k).g rs1
    let b := (s.ctxOf core k).g rs2
    let lim (lo hi i : Int) : Word := BitVec.ofInt 32 (max lo (min hi i))
    exec (.min core k rd rs1 rs2) s = .next (s.ran core k (·.setG rd (BitVec.ofInt 32 (min a.toInt b.toInt)))) ∧
    exec (.max core k rd rs1 rs2) s = .next (s.ran core k (·.setG rd (BitVec.ofInt 32 (max a.toInt b.toInt)))) ∧
    exec (.minu core k rd rs1 rs2) s = .next (s.ran core k (·.setG rd (BitVec.ofNat 32 (min a.toNat b.toNat)))) ∧
    exec (.maxu core k rd rs1 rs2) s = .next (s.ran core k (·.setG rd (BitVec.ofNat 32 (max a.toNat b.toNat)))) ∧
    exec (.adds core k rd rs1 rs2) s = .next (s.ran core k (·.setG rd (lim (-2 ^ 31) (2 ^ 31 - 1) (a.toInt + b.toInt)))) ∧
    exec (.subs core k rd rs1 rs2) s = .next (s.ran core k (·.setG rd (lim (-2 ^ 31) (2 ^ 31 - 1) (a.toInt - b.toInt)))) ∧
    (∃ n : Nat, n ≤ 32 ∧ a.toNat < 2 ^ (32 - n) ∧ (n < 32 → 2 ^ (31 - n) ≤ a.toNat) ∧
      exec (.clz core k rd rs1) s = .next (s.ran core k (·.setG rd (BitVec.ofNat 32 n)))) ∧
    exec (.mul core k rd rs1 rs2) s = .next (s.ran core k (·.setG rd (BitVec.ofNat 32 (a.toNat * b.toNat)))) ∧
    exec (.mulh core k rd rs1 rs2) s = .next (s.ran core k (·.setG rd (BitVec.ofInt 32 (a.toInt * b.toInt / 2 ^ 32)))) ∧
    exec (.mulhu core k rd rs1 rs2) s = .next (s.ran core k (·.setG rd (BitVec.ofNat 32 (a.toNat * b.toNat / 2 ^ 32)))) ∧
    exec (.sats core k rd rs1 rs2) s = .next (s.ran core k (·.setG rd (lim (-2 ^ rs2) (2 ^ rs2 - 1) a.toInt))) ∧
    exec (.satu core k rd rs1 rs2) s = .next (s.ran core k (·.setG rd (lim 0 (2 ^ rs2 - 1) a.toInt)))

/-- Table 4.2, R110: the immediate forms, the branches and the jumps, taken and not taken. Rests on choices of the
model: log entry 6. -/
def Obligations.ImmediatesAndBranches : Prop :=
  ∀ (core k x y : Nat) (imm : BitVec 16) (off : BitVec 26) (s : State), s.fetching core k → x < 32 → y < 32 →
    let c := s.ctxOf core k
    let a := c.g x
    let b := c.g y
    let near : Word := c.pc + BitVec.ofInt 32 (4 * imm.toInt)
    let turn (p : Prop) [Decidable p] : State := s.ran core k fun d => if p then { d with pc := near } else d
    exec (.addi core k x y imm) s = .next (s.ran core k (·.setG x (b + BitVec.ofInt 32 imm.toInt))) ∧
    exec (.andi core k x y imm) s = .next (s.ran core k (·.setG x (b &&& BitVec.ofNat 32 imm.toNat))) ∧
    exec (.ori core k x y imm) s = .next (s.ran core k (·.setG x (b ||| BitVec.ofNat 32 imm.toNat))) ∧
    exec (.xori core k x y imm) s = .next (s.ran core k (·.setG x (b ^^^ BitVec.ofNat 32 imm.toNat))) ∧
    exec (.slti core k x y imm) s = .next (s.ran core k (·.setG x (if b.toInt < imm.toInt then 1 else 0))) ∧
    exec (.sltiu core k x y imm) s =
      .next (s.ran core k (·.setG x (if b.toNat < (BitVec.ofInt 32 imm.toInt).toNat then 1 else 0))) ∧
    exec (.ldh core k x imm) s = .next (s.ran core k (·.setG x (BitVec.ofNat 32 (imm.toNat * 65536)))) ∧
    exec (.beq core k x y imm) s = .next (turn (a = b)) ∧
    exec (.bne core k x y imm) s = .next (turn (a ≠ b)) ∧
    exec (.blt core k x y imm) s = .next (turn (a.toInt < b.toInt)) ∧
    exec (.bge core k x y imm) s = .next (turn (b.toInt ≤ a.toInt)) ∧
    exec (.bltu core k x y imm) s = .next (turn (a.toNat < b.toNat)) ∧
    exec (.bgeu core k x y imm) s = .next (turn (b.toNat ≤ a.toNat)) ∧
    exec (.jal core k off) s =
      .next (s.ran core k fun d => { d.setG 31 (c.pc + 4) with pc := c.pc + BitVec.ofInt 32 (4 * off.toInt) }) ∧
    exec (.jalr core k x y imm) s =
      .next (s.ran core k fun d => { d.setG x (c.pc + 4) with pc := (b + BitVec.ofInt 32 imm.toInt) &&& 0xFFFFFFFC })

/-- R118, R119: a CSR instruction gives rd the old value; CSRW, CSRS and CSRC write a writable CSR, a write of STGCLR
empties the stage buffer and one of CMTCAN cancels the context's commit (R128). Rests on choices of the model: log
entries 6, 45. -/
def Obligations.CsrResults : Prop :=
  ∀ (core k rd rs1 csr : Nat) (s : State), s.fetching core k → rd < 32 → rs1 < 32 → csr < 4096 →
    let i := cix core k
    let c := s.ctxOf core k
    let v := c.g rs1
    let old := csrValue core k csr c s.mach
    let put (n : Nat) (o w : Word) : State := s.ranOn core k fun m => csrPut i n w (m.modCtx i (·.setG rd o))
    (csrKind csr ≠ none → exec (.csrr core k rd csr) s =
      .next (s.ran core k fun d => (csrLatch csr c s.mach d).setG rd old)) ∧
    (csrKind csr = some true →
      exec (.csrw core k rd csr rs1) s = .next (put csr old v) ∧
      exec (.csrs core k rd csr rs1) s = .next (put csr old (old ||| v)) ∧
      exec (.csrc core k rd csr rs1) s = .next (put csr old (old &&& ~~~v))) ∧
    exec (.csrw core k rd 0x002 rs1) s =
      .next (s.ran core k fun d => { d.setG rd (BitVec.ofNat 32 c.farhi.toNat) with farhi := BitVec.ofNat 8 v.toNat }) ∧
    exec (.csrw core k rd 0x003 rs1) s = .next (s.ran core k fun d => { d.setG rd c.evpend with evpend := v }) ∧
    exec (.stgclr core k rd rs1) s =
      .next (s.ran core k fun d => if v.toNat % 2 = 1 then { d.setG rd 0 with stage := [] } else d.setG rd 0) ∧
    exec (.cmtcan core k rd rs1) s =
      .next (s.ranOn core k fun m => when (v.toNat % 2 = 1) (cancelCommit i) (m.modCtx i (·.setG rd 0)))

/-- R112-R114: a load that no cause of Table 3.8 stops and whose target answers gives rd the value read, extended as
the instruction says; the machine is otherwise as the read leaves it. Rests on choices of the model: log entries 6,
33. -/
def Obligations.LoadResults : Prop :=
  ∀ (core k rd rs1 : Nat) (imm : BitVec 16) (ans : BusAns) (s : State), s.fetching core k → rd < 32 → rs1 < 32 →
    let c := s.ctxOf core k
    let near := (c.g rs1 + BitVec.ofInt 32 imm.toInt).toNat
    let far := c.farhi.toNat * 2 ^ 32 + near
    let reads (a n v : Nat) (m : Mach) : Prop :=
      accessStop core k false false (realAddr core a) n (s.fetched core k) = none ∧
      dataRead core k (realAddr core a) n ans s.mem (s.fetched core k) = .val v m
    let ends (m : Mach) (w : Word) : State := { s with mach := resched core (m.modCtx (cix core k) (·.setG rd w)) }
    ∀ (v : Nat) (m : Mach),
      (reads near 4 v m → exec (.lw core k rd rs1 imm ans) s = .next (ends m (BitVec.ofNat 32 v))) ∧
      (reads near 2 v m → exec (.lh core k rd rs1 imm ans) s =
        .next (ends m (BitVec.ofInt 32 (if v % 65536 < 32768 then v % 65536 else (v % 65536 : Int) - 65536)))) ∧
      (reads near 2 v m → exec (.lhu core k rd rs1 imm ans) s = .next (ends m (BitVec.ofNat 32 v))) ∧
      (reads near 1 v m → exec (.lb core k rd rs1 imm ans) s =
        .next (ends m (BitVec.ofInt 32 (if v % 256 < 128 then v % 256 else (v % 256 : Int) - 256)))) ∧
      (reads near 1 v m → exec (.lbu core k rd rs1 imm ans) s = .next (ends m (BitVec.ofNat 32 v))) ∧
      (reads far 4 v m → exec (.lwf core k rd rs1 imm ans) s = .next (ends m (BitVec.ofNat 32 v)))

/-- R112-R114: a store that no cause of Table 3.8 stops and whose target accepts it leaves machine and memories as the
write leaves them, with the low bytes of g[rs2]. A store that needs a restart after it (R346) is left to the caller.
Rests on choices of the model: log entries 6, 33. -/
def Obligations.StoreResults : Prop :=
  ∀ (core k rs2 rs1 : Nat) (imm : BitVec 16) (ans : BusAns) (s : State), s.fetching core k → rs2 < 32 → rs1 < 32 →
    let c := s.ctxOf core k
    let near := (c.g rs1 + BitVec.ofInt 32 imm.toInt).toNat
    let far := c.farhi.toNat * 2 ^ 32 + near
    let writes (a n : Nat) (m : Mach) (mem : Mem) : Prop :=
      accessStop core k true false (realAddr core a) n (s.fetched core k) = none ∧
      dataWrite core k (realAddr core a) n ((c.g rs2).toNat % 2 ^ (8 * n)) ans (s.fetched core k) s.mem = .ok m mem
    let ends (m : Mach) (mem : Mem) : State := settle { s with mach := resched core m, mem := mem }
    ∀ (m : Mach) (mem : Mem),
      (writes near 4 m mem → exec (.sw core k rs2 rs1 imm ans) s = .next (ends m mem)) ∧
      (writes near 2 m mem → exec (.sh core k rs2 rs1 imm ans) s = .next (ends m mem)) ∧
      (writes near 1 m mem → exec (.sb core k rs2 rs1 imm ans) s = .next (ends m mem)) ∧
      (writes far 4 m mem → exec (.swf core k rs2 rs1 imm ans) s = .next (ends m mem))

/-- R80, R112, R114, R116, R117: a Cox context loads from and stores to its own DTCM through the alias at 0x2F01_0000,
least significant byte first; an atomic there gives rd the old word and leaves the sum, or g[rs2], in its place; every
other byte of the three memories reads as before. Rests on choices of the model: log entries 6, 33. -/
def Obligations.OwnDtcmAccess : Prop :=
  ∀ (core k rd rs1 rs2 o : Nat) (imm : BitVec 16) (far : Bool) (ans : BusAns) (s : State), s.fetching core k → core < 8 →
    rd < 32 → rs1 < 32 → rs2 < 32 → o < 0x10000 → o % 4 = 0 → domUp 2 s.mach = true → s.mach.pwr.restart = false →
    s.memOk →
    let c := s.ctxOf core k
    let at_ := 0x20010000 + core * 0x100000 + o
    let old : Word := BitVec.ofNat 32 ((s.mem.rd at_).toNat + 256 * (s.mem.rd (at_ + 1)).toNat
      + 65536 * (s.mem.rd (at_ + 2)).toNat + 16777216 * (s.mem.rd (at_ + 3)).toNat)
    let holds (w : Word) (t : State) : Prop := (∀ j, j < 4 → t.mem.rd (at_ + j) = BitVec.ofNat 8 (w.toNat / 256 ^ j)) ∧
      (∀ a, a < at_ ∨ at_ + 4 ≤ a → t.mem.rd a = s.mem.rd a) ∧
      ∀ a, t.mem.hostRd a = s.mem.hostRd a ∧ t.mem.flashRd a = s.mem.flashRd a
    let does (i : Instr) (new : Word) : Prop :=
      ∃ t, exec i s = .next t ∧ t.mach = (s.ran core k (·.setG rd old)).mach ∧ holds new t
    (c.g rs1 + BitVec.ofInt 32 imm.toInt = BitVec.ofNat 32 (0x2F010000 + o) →
      exec (.lw core k rd rs1 imm ans) s = .next (s.ran core k (·.setG rd old)) ∧
      ∃ t, exec (.sw core k rs2 rs1 imm ans) s = .next t ∧ t.mach = (s.ran core k id).mach ∧ holds (c.g rs2) t) ∧
    (c.g rs1 = BitVec.ofNat 32 (0x2F010000 + o) → (far = true → c.farhi = 0) →
      does (.amoadd core k rd rs1 rs2 far ans) (old + c.g rs2) ∧ does (.amoswp core k rd rs1 rs2 far ans) (c.g rs2))

/-- R121-R123: WAITT, WAITE and SLEEP go on at once or wait; YIELD passes the core on or goes on; PRI changes the
context's priority. Rests on choices of the model: log entry 6. -/
def Obligations.WaitsAndControl : Prop :=
  ∀ (core k rd rs1 rs2 code sub : Nat) (s : State), s.fetching core k → rd < 32 → rs1 < 32 → rs2 < 32 → code < 8 → sub < 128 →
    let i := cix core k
    let c := s.ctxOf core k
    let a := c.g rs1
    let waits (w : Wait) : State :=
      s.onMach fun m => resched core (m.modCtx i fun d => { d with state := .waiting, wait := w })
    let tgt : BitVec 64 := match code with
      | 0 => BitVec.ofNat 64 ((c.g rs2).toNat * 2 ^ 32 + a.toNat)
      | 1 => BitVec.ofNat 64 ((c.g rs2).toNat % 65536 * 2 ^ 32 + a.toNat)
      | _ => BitVec.ofNat 64 a.toNat
    (waittOk s.mach.nStn rs2 code sub = true → exec (.waitt core k rd rs1 rs2 code sub) s =
      .next (if baseReached code sub tgt s.mach then s.ran core k (·.setG rd 1) else waits (.timebase code sub tgt rd))) ∧
    exec (.waite core k rd rs1) s =
      .next (if c.evpend &&& a = 0 then waits (.events a rd)
        else s.ran core k fun d => { d.setG rd (c.evpend &&& a) with evpend := c.evpend &&& ~~~a }) ∧
    exec (.sleep core k rs1) s =
      .next (if a = 0 then s.ran core k id else waits (.sleep (s.mach.clk.tick + BitVec.ofNat 64 a.toNat))) ∧
    exec (.yield core k) s =
      .next (match equalReady core c.prio (s.fetched core k) with
        | some j => s.ranOn core k (switchTo core j)
        | none => s.ran core k id) ∧
    exec (.pri core k rd rs1) s =
      .next (s.ran core k fun d => { d.setG rd (BitVec.ofNat 32 c.prio) with prio := min 3 a.toNat })

/-- R121-R123: a wait that ends gives rd its value, moves the PC past the instruction and makes the context READY, or
RUNNING when the core takes it up at once. Rests on choices of the model: log entry 9. -/
def Obligations.WakesEndWaits : Prop :=
  ∀ (core k : Nat) (s : State), okCtx core k = true →
    let c := s.ctxOf core k
    let woken (i : Instr) (rd : Nat) (v : Word) : Prop :=
      ∃ t, exec i s = .next t ∧ (t.ctxOf core k).pc = c.pc + 4 ∧ ((t.ctxOf core k).g rd = if rd = 0 then 0 else v) ∧
        (t.ctxOf core k).wait = .none ∧ ((t.ctxOf core k).state = .ready ∨ (t.ctxOf core k).state = .running) ∧
        t.mem = s.mem ∧ t.mach.regs = s.mach.regs
    (∀ base stn tgt rd, c.wait = .timebase base stn tgt rd → baseReached base stn tgt s.mach = true →
      woken (.waittWake core k) rd 0) ∧
    (∀ mask rd, c.wait = .events mask rd → c.evpend &&& mask ≠ 0 → woken (.waiteWake core k) rd (c.evpend &&& mask)) ∧
    (∀ u, c.wait = .sleep u → u.toNat ≤ s.mach.now → woken (.sleepWake core k) 0 0)

/-- R124-R127, R130: ARM of a valid block takes the lowest free comparator, DARM disarms one that the context armed,
STG appends to the stage buffer, CMT seals it, FLT delivers a message of the core. Rests on choices of the model: log
entries 6, 13. -/
def Obligations.StagingAndFaultInstructions : Prop :=
  ∀ (core k rd rs1 rs2 code sub n : Nat) (late : Bool) (imm : BitVec 16) (b : Boundary) (s : State),
    s.fetching core k → rd < 32 → rs1 < 32 → rs2 < 32 → code < 8 → sub < 128 →
    let i := cix core k
    let c := s.ctxOf core k
    let m := s.fetched core k
    let a := (c.g rs1).toNat
    let at_ := realAddr core a
    let w := armBlock s.mem at_
    let key := (c.g rs1 + BitVec.ofInt 32 imm.toInt).toNat - 0x40000000
    (a % 32 = 0 → ownData core (placeOf m at_) = true → (core = 8 → regionBad core k 1 at_ 32 m = false) →
      armValid m w = true →
      bitsOf (w 0) 8 6 ≠ 5 → n < cmpCount core → (m.cmp (core * 32 + n)).armed = false →
      (∀ j, j < n → (m.cmp (core * 32 + j)).armed = true) →
      baseReached (bitsOf (w 0) 1 0) (bitsOf (w 0) 4 2) (armCmp k w (m.cmp (core * 32 + n))).tgt m = false →
      exec (.arm core k rd rs1) s = .next (settle (s.ranOn core k fun m =>
        (m.setCmp (core * 32 + n) (armCmp k w (m.cmp (core * 32 + n)))).modCtx i (·.setG rd (BitVec.ofNat 32 n))))) ∧
    (n = a % 32 → n < cmpCount core → (m.cmp (core * 32 + n)).armed = true → (m.cmp (core * 32 + n)).ctx = k →
      exec (.darm core k rd rs1) s = .next (s.ranOn core k fun m =>
        (m.setCmp (core * 32 + n) { m.cmp (core * 32 + n) with armed := false }).modCtx i (·.setG rd 0))) ∧
    (n = a % 32 → ¬(n < cmpCount core ∧ (m.cmp (core * 32 + n)).armed = true ∧ (m.cmp (core * 32 + n)).ctx = k) →
      exec (.darm core k rd rs1) s = .next (s.ran core k (·.setG rd 1))) ∧
    (0x40000000 ≤ (c.g rs1 + BitVec.ofInt 32 imm.toInt).toNat → key < 0x1000000 → key % 4 = 0 →
      (blockAssigned (key / 65536) = true → mayWrite (.ctx core k) true key = true) →
      regionBad core k 2 (key + 0x40000000) 4 m = false → c.stage.length < 32 →
      exec (.stg core k rs2 rs1 imm) s =
        .next (s.ran core k fun d => { d with stage := c.stage ++ [(key, c.g rs2)] })) ∧
    (cmtBoundary c m rs1 rs2 code sub late = some b → c.slot = none →
      exec (.cmt core k rd rs1 rs2 code sub late) s = .next (s.ranOn core k (sealNow i b late rd))) ∧
    (cmtBoundary c m rs1 rs2 code sub late = some b → c.slot ≠ none →
      exec (.cmt core k rd rs1 rs2 code sub late) s = .next (s.onMach fun m =>
        resched core (m.modCtx i fun d => { d with state := .waiting, wait := .commit b late rd }))) ∧
    (code < 5 → exec (.flt core k rd rs1 rs2 code sub) s = .next (s.ranOn core k fun m =>
      (deliver { src := 0x0D0 + core, kind := 0x80 + sub, cls := code, sid := BitVec.ofNat 24 a,
                 param := BitVec.ofNat 40 ((c.g rs2).toNat + k * 2 ^ 32) } m).modCtx i
        (·.setG rd (if (tget {} (0x0D0 + core) s.mach.flt.srcs).held then 1 else 0))))

/-- R127, R96: sealing empties the stage buffer into the slot, with the boundary and flag of the CMT, and rd receives
the sequence number that CMTRES will hold. -/
def Obligations.SealTakesStage : Prop :=
  ∀ (i rd : Nat) (b : Boundary) (late : Bool) (m : Mach),
    let c := m.ctx i
    let d := (sealNow i b late rd m).ctx i
    d.stage = [] ∧ d.slot.map (·.entries) = some c.stage ∧ d.slot.map (·.boundary) = some b ∧
    d.slot.map (·.lateOk) = some late ∧
    (rd ≠ 0 → d.g rd = BitVec.ofNat 32 ((c.cmtSeq + 1) % 256)) ∧ (∀ r, r ≠ rd → d.g r = c.g r) ∧
    (sealNow i b late rd m).regs = m.regs

/-- R129, R134: PUSH copies the descriptor into the ring's next producer slot, POP the next consumer slot's to the
operand; on a disabled ring, a side not assigned to the cores, or a full or empty ring, nothing moves and rd says
which. A slot in shared SRAM is copied as it stands, and the index goes on by one. Rests on choices of the model: log
entries 6, 33. -/
def Obligations.RingInstructions : Prop :=
  ∀ (core k rd rs1 r : Nat) (ans : BusAns) (s : State), s.fetching core k → rd < 32 → rs1 < 32 → r < 32 →
    let c := s.ctxOf core k
    let m := s.fetched core k
    let a := (c.g rs1).toNat
    let at_ := realAddr core a
    let rets (v : Word) : State := s.ran core k (·.setG rd v)
    let fits (wr : Bool) : Prop := ringOperand core k wr a m = none ∧ noAnswer core (placeOf m at_) ans = false
    let pAt := ringSlot m r (m.get (R.RING_PIDX r))
    let cAt := ringSlot m r (m.get (R.RING_CIDX r))
    let pushes : Prop := fits false ∧ m.on (R.RING_CFG_EN r) = true ∧ m.get (R.RING_CFG_PSIDE r) = 0 ∧
      ringCount m r < ringSize m r ∧ slotHeld r (m.get (R.RING_PIDX r)) m = false ∧ slotStop core pAt ans m = none
    let pops : Prop := fits true ∧ m.on (R.RING_CFG_EN r) = true ∧ m.get (R.RING_CFG_CSIDE r) = 0 ∧ ringCount m r ≠ 0 ∧
      slotHeld r (m.get (R.RING_CIDX r)) m = false ∧ slotStop core cAt ans m = none
    (fits false → m.on (R.RING_CFG_EN r) = false → exec (.push core k rd rs1 r ans) s = .next (rets 2)) ∧
    (fits true → m.on (R.RING_CFG_EN r) = false → exec (.pop core k rd rs1 r ans) s = .next (rets 2)) ∧
    (fits false → m.on (R.RING_CFG_EN r) = true → m.get (R.RING_CFG_PSIDE r) ≠ 0 →
      exec (.push core k rd rs1 r ans) s = .next (rets 3)) ∧
    (fits true → m.on (R.RING_CFG_EN r) = true → m.get (R.RING_CFG_CSIDE r) ≠ 0 →
      exec (.pop core k rd rs1 r ans) s = .next (rets 3)) ∧
    (fits false → m.on (R.RING_CFG_EN r) = true → m.get (R.RING_CFG_PSIDE r) = 0 → ringSize m r ≤ ringCount m r →
      exec (.push core k rd rs1 r ans) s = .next (rets 1)) ∧
    (fits true → m.on (R.RING_CFG_EN r) = true → m.get (R.RING_CFG_CSIDE r) = 0 → ringCount m r = 0 →
      exec (.pop core k rd rs1 r ans) s = .next (rets 1)) ∧
    (pushes → let x := ringPut r 0 (s.mem.rdBytes at_ 32) m s.mem
      exec (.push core k rd rs1 r ans) s = .next { s with
        mach := resched core (x.2.1.modCtx (cix core k) (·.setG rd (if x.1 then 0 else 2))), mem := x.2.2 }) ∧
    (pushes → placeOf m pAt = .shared → ∃ t, exec (.push core k rd rs1 r ans) s = .next t ∧
      t.mem = s.mem.wrBytes pAt (s.mem.rdBytes at_ 32) ∧
      t.mach.get (R.RING_PIDX r) = (m.get (R.RING_PIDX r) + 1) % 2 ^ 32 ∧
      t.mach.get (R.RING_CIDX r) = m.get (R.RING_CIDX r) ∧ (t.ctxOf core k).g rd = 0) ∧
    (pops → (slotAns cAt ans m).1 = false →
      ∀ bs m', ringTake r 0 s.mem (slotAns cAt ans m).2 = (some bs, m') → exec (.pop core k rd rs1 r ans) s =
        .next { s with mach := resched core ((when (core == 8) (placeSpoil (placeOf m at_)) m').modCtx (cix core k)
                         (·.setG rd 0)), mem := s.mem.wrBytes at_ bs }) ∧
    (pops → placeOf m cAt = .shared → ∃ t, exec (.pop core k rd rs1 r ans) s = .next t ∧
      t.mem = s.mem.wrBytes at_ (s.mem.rdBytes cAt 32) ∧
      t.mach.get (R.RING_CIDX r) = (m.get (R.RING_CIDX r) + 1) % 2 ^ 32 ∧
      t.mach.get (R.RING_PIDX r) = m.get (R.RING_PIDX r) ∧ (t.ctxOf core k).g rd = 0)

/-- R110, R87, R88: a word that is no instruction of the part is executed as its park: the context is PARKED with
cause ILLEGAL at the word's own address and its PC stays there; the word 0 is always undefined. Rests on choices of
the model: log entry 6. -/
def Obligations.UndefinedWordParks : Prop :=
  (∀ stations, undefinedWord stations 0 = true) ∧
  ∀ (core k : Nat) (w : Word) (s : State), s.fetching core k → undefinedWord s.mach.nStn w = true →
    let c := s.ctxOf core k
    exec (.undefinedInstruction core k w) s =
      .next (s.onMach fun m => parkCtx core k .illegal c.pc.toNat (m.modCtx (cix core k)
        fun d => { d with issued := false, woken := none })) ∧
    ∃ t, exec (.undefinedInstruction core k w) s = .next t ∧ (t.ctxOf core k).state = .parked ∧
      (t.ctxOf core k).cause = 2 ∧ (t.ctxOf core k).faddr.toNat = c.pc.toNat ∧ (t.ctxOf core k).pc = c.pc ∧
      (t.ctxOf core k).iret = c.iret ∧ (∀ r, (t.ctxOf core k).g r = c.g r) ∧ t.mem = s.mem

/-! ## The sheet ledger (chapter 1) -/

/-- R19, R31, R32: SLU_CREATE, RESERVE, UNRESERVE, FREE and the undefined operations, with their results; every other
record stays as it was. Rests on choices of the model: log entry 14. -/
def Obligations.LedgerQueueOps : Prop :=
  ∀ (core k r op : Nat) (sid : Sid) (s : State), okCtx core k = true → r < 256 →
    let sh := s.mach.sheet r
    let now := s.mach.clk.tick
    (s.lets (.ctx core k) true R.SLU_CREATE_SID.key →
      sidLater sid (BitVec.ofNat 24 (s.mach.get R.SLU_LASTSID_SID)) = true → freeRec s.mach = some r →
      ∃ t, exec (.sluCreate core k sid) s = .next t ∧ t.opres core k = (0, r, 0) ∧ (t.mach.sheet r).state = .queued ∧
        (t.mach.sheet r).sid = sid ∧ (t.mach.sheet r).trtick = now ∧ t.mach.get R.SLU_LASTSID_SID = sid.toNat ∧
        s.otherSheets t r) ∧
    (s.lets (.ctx core k) true R.SLU_OP.key →
      (reserveCode s.mach sh = 0 → ∃ t, exec (.reserve core k r) s = .next t ∧ t.opres core k = (0, r, 1) ∧
        t.mach.sheet r = { sh with state := .ready, trtick := now } ∧ s.otherSheets t r) ∧
      (reserveCode s.mach sh ≠ 0 → ∃ t, exec (.reserve core k r) s = .next t ∧
        t.opres core k = (reserveCode s.mach sh, r, 1) ∧ t.mach.sheets = s.mach.sheets) ∧
      (sh.state = .ready → ∃ t, exec (.unreserve core k r) s = .next t ∧ t.opres core k = (0, r, 5) ∧
        t.mach.sheet r = { sh with state := .queued, trtick := now } ∧ s.otherSheets t r) ∧
      (sh.state.terminal = true → ∃ t, exec (.free core k r) s = .next t ∧ t.opres core k = (0, r, 6) ∧
        t.mach.sheet r = { sh with state := .free, trtick := now } ∧ s.otherSheets t r) ∧
      ((op = 0 ∨ (7 ≤ op ∧ op < 16)) → ∃ t, exec (.sluOpUndefined core k op r) s = .next t ∧
        t.opres core k = (1, r, op) ∧ t.mach.sheets = s.mach.sheets))

/-- R23, R31, R32, Table 1.8: ADMIT, UNADMIT and WITHDRAW act when no condition fails: the record is ADMITTED with the
early-catch rule and the watches fixed, READY again, or WITHDRAWN, from this instant; otherwise SLU_OPRES names the
first condition that fails and nothing else changes. A gate time before the arm goes to the gate axis at once (R38).
Rests on choices of the model: log entries 14, 45. -/
def Obligations.LedgerAdmission : Prop :=
  ∀ (core k r : Nat) (s : State), okCtx core k = true → r < 256 → s.lets (.ctx core k) true R.SLU_OP.key →
    let m := s.mach
    let sh := m.sheet r
    let now := m.clk.tick
    let refuses (i : Instr) (code op : Nat) : Prop := exec i s = .next (s.onMach (sluResult core k code r op)) ∧
      ∃ t, exec i s = .next t ∧ t.opres core k = (code, r, op) ∧ t.mach.sheets = m.sheets ∧ t.mem = s.mem
    let does (i : Instr) (op : Nat) (new : Sheet) : Prop := ∃ t, exec i s = .next t ∧ t.opres core k = (0, r, op) ∧
      t.mach.sheet r = new ∧ s.otherSheets t r ∧ t.mem = s.mem
    let code := admitCode m sh
    (code = 0 → exec (.admitSheet core k r) s = .next (s.onMach fun m => sluResult core k 0 r 2
      (when (sint 32 sh.gateoff.toNat < -(m.get R.SLU_ARMLEAD : Int)) (sendGate r) (markCheck (sheetTo r .admitted
        (m.setSheet r { sh.unadmitted with earlyRule := sh.early && m.on R.SLU_CTL_EARLYEN, watches := watchesOn m,
                                           judged := 0 })))))) ∧
    (code = 0 → -(m.get R.SLU_ARMLEAD : Int) ≤ sint 32 sh.gateoff.toNat → does (.admitSheet core k r) 2
      { sh.unadmitted with state := .admitted, trtick := now, watches := watchesOn m, judged := 0,
                           earlyRule := sh.early && m.on R.SLU_CTL_EARLYEN }) ∧
    (code ≠ 0 → refuses (.admitSheet core k r) code 2) ∧
    (sh.state = .admitted → pastLock sh m = false →
      exec (.unadmit core k r) s =
        .next (s.onMach fun m => sluResult core k 0 r 3 (snapTry (settleEdges (sheetTo r .ready m)))) ∧
      (m.heldEdges = [] → does (.unadmit core k r) 3 { sh.unadmitted with state := .ready, trtick := now })) ∧
    (sh.state = .admitted → pastLock sh m = true →
      refuses (.unadmit core k r) 0x10 3 ∧ refuses (.withdraw core k r) 0x10 4) ∧
    (sh.state ≠ .admitted → refuses (.unadmit core k r) 0x01 3) ∧
    ((sh.state = .queued ∨ sh.state = .ready ∨ (sh.state = .admitted ∧ pastLock sh m = false)) →
      exec (.withdraw core k r) s =
        .next (s.onMach fun m => sluResult core k 0 r 4 (snapTry (settleEdges (sheetTo r .withdrawn m)))) ∧
      (m.heldEdges = [] → does (.withdraw core k r) 4
        { (if sh.state = .admitted then sh.unadmitted else sh) with state := .withdrawn, trtick := now })) ∧
    (sh.state ≠ .queued → sh.state ≠ .ready → sh.state ≠ .admitted → refuses (.withdraw core k r) 0x01 4)

/-- R24: a transition gives a record its state and the time of the transition, and touches no other record; only a
return of an ADMITTED record to READY or WITHDRAWN forgets what its ADMIT fixed. -/
def Obligations.SheetTransition : Prop :=
  ∀ (r : Nat) (st : SheetState) (m : Mach),
    let sh := m.sheet r
    let t := sheetTo r st m
    (t.sheet r).state = st ∧ (t.sheet r).trtick = m.clk.tick ∧ (t.sheet r).sid = sh.sid ∧
    (t.sheet r).catchT = sh.catchT ∧ (t.sheet r).spoil = sh.spoil ∧ (t.sheet r).res = sh.res ∧
    (sh.state ≠ .admitted → t.sheet r = { sh with state := st, trtick := m.clk.tick }) ∧
    (∀ j, j ≠ r → t.sheet j = m.sheet j) ∧ t.clk = m.clk ∧ t.flt = m.flt

/-- R21, R28, R29: what committed writes of a record, of SLU_CTL and of SLU_RSV change. Rests on choices of the model:
log entries 14, 45. -/
def Obligations.LedgerWrites : Prop :=
  ∀ (core k r w : Nat) (v : Word) (s : State), okCtx core k = true → r < 256 → w < 16 →
    let sh := s.mach.sheet r
    let writes := exec (.sheetRecordWrite core k r w v) s
    let busy := countIn (fun st => st == .admitted || st.busy) s.mach
    let hot := countIn (fun st => st == .admitted || st.busy || st == .transferred) s.mach
    (s.lets (.ctx core k) true (recKey r w) →
      (sh.state = .queued → ∃ t res, writes = .next t ∧ t.mach.sheet r = { sh.put w v with res := res } ∧
        ((w ≠ 1 ∧ w ≠ 2 ∧ w ≠ 7) → res = sh.res) ∧ s.otherSheets t r) ∧
      (sh.state = .ready → (w = 4 ∨ w = 5) → writes = .next (s.onMach (·.setSheet r (sh.put w v)))) ∧
      (sh.state = .ready → w = 1 → ∃ t, writes = .next t ∧ t.mach.sheet r = { sh with speed := bitsOf v 12 10 } ∧
        s.otherSheets t r) ∧
      (sh.state ≠ .queued → sh.state ≠ .ready → writes = .next (s.onMach (ignored (recKey r w))))) ∧
    (s.lets (.ctx core k) true R.SLU_CTL_EN.key →
      let bad := (R.SLU_CTL_EN.of v = 1 ∧ 11 < R.SLU_CTL_GATEAX.of v) ∨
        (R.SLU_CTL_EN.of v = 0 ∧ s.mach.on R.SLU_CTL_EN = true ∧ 0 < countIn (·.engaged) s.mach)
      (bad → exec (.sluCtlWrite core k v) s = .next (s.onMach (ignored R.SLU_CTL_EN.key))) ∧
      (¬bad → exec (.sluCtlWrite core k v) s = .next (s.onMach (storeFields R.SLU_CTL_EN.key v)))) ∧
    (s.lets (.ctx core k) true R.SLU_RSV_SPEED.key → busy = 0 → hot = 0 →
      ∃ t, exec (.sluRsvWrite core k v) s = .next t ∧
        t.mach.get R.SLU_RSV_SPEED = R.SLU_RSV_SPEED.of v ∧ t.mach.get R.SLU_RSV_HVSET = R.SLU_RSV_HVSET.of v ∧
        t.mach.get R.SLU_RSV_FUSBAND = R.SLU_RSV_FUSBAND.of v ∧
        (t.mach.get R.SLU_RSV_SPDOK =
          if R.SLU_RSV_SPEED.of v = s.mach.get R.SLU_RSV_SPEED then R.SLU_RSV_SPDOK.of v else 0) ∧
        t.mach.sheets = s.mach.sheets)

/-- R24, R30, R35, R37, R38: what the ledger does by itself: the throttle's speed step, the arm, the catch, the
transfer and the deadlines of bands. Rests on choices of the model: log entries 5, 9, 14, 45. -/
def Obligations.LedgerTimeline : Prop :=
  ∀ (r stn k : Nat) (s : State), r < 256 → stn < s.mach.nStn → k < 1024 →
    let m := s.mach
    let sh := m.sheet r
    let en : Prop := m.on R.SLU_CTL_EN = true
    let legs := match tfind 0 sh.legs with
      | some l => if deepenSlave m then sh.legs else tput 0 { l with l0 := some m.clk.ppc } sh.legs
      | none => sh.legs
    let late := (lineZero m sh stn).toNat + 64 * (64 * k - sh.dlmargin)
    (m.on R.SLU_RSV_TENF = true → countIn (fun st => st == .admitted || st.busy) m = 0 →
      m.get R.SLU_RSV_TMAX < m.get R.SLU_RSV_SPEED →
      ∃ t, exec .throttleSpeedStep s = .next t ∧ t.mach.get R.SLU_RSV_SPEED = m.get R.SLU_RSV_TMAX ∧
        t.mach.get R.SLU_RSV_SPDOK = 0 ∧ t.mach.sheets = m.sheets) ∧
    (en → sh.state = .admitted → sh.armed = false → sh.catchT.toNat ≤ m.now + m.get R.SLU_ARMLEAD →
      exec (.sheetArm r) s = .next (s.onMach fun m => groupMissCheck
        (when (!sh.gateSent) (sendGate r) (m.setSheet r { sh with armed := true })))) ∧
    (en → sh.state = .admitted → sh.catchT.toNat ≤ m.now →
      exec (.catch r) s = .next (s.onMach fun m => snapTry (settleEdges (sheetAdvance r (sheetTo r .caught
        (m.setSheet r { sh with cppc := m.clk.ppc, legs := legs }))))) ∧
      (m.heldEdges = [] → ({ sh with legs := legs } : Sheet).allBegun = false →
        ∃ t, exec (.catch r) s = .next t ∧
          t.mach.sheet r = { sh with state := .caught, trtick := m.clk.tick, cppc := m.clk.ppc, legs := legs } ∧
          s.otherSheets t r)) ∧
    (en → sh.state.busy = true → sh.heldTransfer = false →
      ppcReached m.ppcNow ((sh.cppc.toNat + m.get R.SLU_TRDIST + 64 * sh.lines) % 2 ^ 48) = true →
      exec (.sheetTransferred r) s =
        .next (s.onMach fun m => snapTry (sheetAdvance r (m.setSheet r { sh with heldTransfer := true }))) ∧
      (sh.state = .imaging → sh.heldFuse = false → ∃ t, exec (.sheetTransferred r) s = .next t ∧
        t.mach.sheet r = { sh with state := .transferred, trtick := m.clk.tick, heldTransfer := true } ∧
        s.otherSheets t r)) ∧
    (en → (sh.state.busy = true ∨ sh.state = .transferred ∨ sh.state = .fused) → sh.earlyRule = true →
      bitOf sh.planes stn = true → k < sh.bands → sh.nextDl.getD stn 0 ≤ k → ppcReached m.ppcNow (late % 2 ^ 48) = true →
      exec (.bandDeadline r stn k) s = .next (s.onMach fun m =>
        when (!(k < sh.res.getD stn 0 || sh.spoil)) (spoilBand r stn k 0x070 0x01)
          (m.setSheet r { sh with nextDl := sh.nextDl.set stn (k + 1) })))

/-- R42, R44-R46, R430: watches are judged and written, periodic triggers fall due, captures end, banks are read and
held, and holds end. Rests on choices of the model: log entries 9, 15, 23, 45. -/
def Obligations.WatchesAndSnapshots : Prop :=
  ∀ (core k w r b off : Nat) (v : Word) (q : Requester) (s : State), okCtx core k = true → okReq q = true → w < 16 →
    r < 256 → b < 2 → off < 0x8000 →
    let m := s.mach
    let sh := m.sheet r
    let deb := usTicks (max 1 (m.get (R.SNS_CFG_DEB (m.get (R.SLU_WATCH_CFG_SNS w)))))
    let wait : Int := if m.on (R.SLU_WATCH_CFG_BASE w) then (deb * m.get R.CLK_PPCRATE / 2 ^ 32 : Nat) else deb
    (m.on R.SLU_CTL_EN = true → watchOpen w sh = true → baseKnown m w sh = true →
      m.getI (R.SLU_WATCH_CLOSE w) + wait < stampOffset m w sh m.clk.tick m.clk.ppc →
      exec (.watchWindowJudged w r) s = .next (s.onMach fun m => snapTry (settleEdges (watchFail w (some r) m))) ∧
      (m.heldEdges = [] → sh.state ≠ .admitted → ∃ t, exec (.watchWindowJudged w r) s = .next t ∧
        (t.mach.sheet r).state = .jammed ∧ (t.mach.sheet r).trtick = m.clk.tick ∧ t.mem = s.mem)) ∧
    (s.lets (.ctx core k) true (R.SLU_WATCH_CFG_EN w).key →
      exec (.watchCfgWrite core k w v) s = .next (s.onMach
        (if (R.SLU_WATCH_CFG_EN w).of v = 1 ∧ 47 < (R.SLU_WATCH_CFG_SNS w).of v then ignored (R.SLU_WATCH_CFG_EN w).key
         else storeFields (R.SLU_WATCH_CFG_EN w).key v))) ∧
    (m.on R.SNAP_CTL_EN = true → m.snap.perFrom.toNat / 100000 < m.now / 100000 → m.snap.writing = none →
      m.snap.frozen = false → bankHeld 0 m = false → bankHeld 1 m = false →
      ∃ t, exec .snapshotPeriodicTrigger s = .next t ∧ t.mach.snap.writing.isSome = true ∧ t.mach.snap.waitPer = 0 ∧
        t.mach.snap.waitEv = [] ∧ t.mach.sheets = m.sheets ∧ t.mem = s.mem) ∧
    (∀ c, m.snap.writing = some c → c.bank < 2 →
      ∃ t, exec .snapshotCaptureDone s = .next t ∧ t.mach.get R.SNAP_STAT_LATEST = c.bank ∧
        t.mach.word R.SNAP_EPOCH.key = c.epoch ∧ t.mach.snap.lastBank = some c.bank ∧ t.mem = writeBank c s.mem) ∧
    (∃ t, exec (.snapshotBankRead q b off) s = .next t ∧
      tget 0 (Requester.id q) t.mach.reply = bankWord b (off / 4 * 4) s.mem m ∧
      (if b = 0 then t.mach.snap.hold0 else t.mach.snap.hold1) = some (m.clk.tick + 100000) ∧ t.mach.regs = m.regs ∧
      t.mem = s.mem) ∧
    (∀ u, (if b = 0 then m.snap.hold0 else m.snap.hold1) = some u → u.toNat ≤ m.now →
      ∃ t, exec (.snapshotHoldExpire b) s = .next t ∧ (if b = 0 then t.mach.snap.hold0 else t.mach.snap.hold1) = none ∧
        t.mach.sheets = m.sheets ∧ t.mem = s.mem)

/-- R30: while TENF = 1, NADMIT + NBUSY = 0 and SPEED > TMAX, the throttle step writes TMAX into SPEED and clears
SPDOK; otherwise, and so for every sheet that is admitted, caught or imaging, it changes nothing. -/
def Obligations.ThrottleStepInGap : Prop :=
  ∀ (s : State), let m := s.mach
    let holds : Prop := m.on R.SLU_RSV_TENF = true ∧ countIn (· == .admitted) m + countIn (·.busy) m = 0 ∧
      m.get R.SLU_RSV_TMAX < m.get R.SLU_RSV_SPEED
    (holds → ∃ t, exec .throttleSpeedStep s = .next t ∧ t.mach.get R.SLU_RSV_SPEED = m.get R.SLU_RSV_TMAX ∧
      t.mach.get R.SLU_RSV_SPDOK = 0 ∧ t.mach.get R.SLU_RSV_TMAX = m.get R.SLU_RSV_TMAX ∧ t.mach.sheets = m.sheets ∧
      t.mem = s.mem) ∧
    (¬holds → exec .throttleSpeedStep s = .next s)

/-! ## Clocks and timebases (chapter 2) -/

/-- R66, R69, R120: one application of the rule advances TICK by 1 + TRIM through its accumulator and PPC by PPCRATE
for each integer step; a REFCLK period brings one, a cycle of the internal oscillator four; and a timebase reaches a
target as R120 says. Rests on choices of the model: log entries 3, 16. -/
def Obligations.TimebasesAdvanceAndReach : Prop :=
  (∀ m : Mach,
    let acc := (m.clk.tickFrac.toNat : Int) + 2 ^ 32 + trimOf m
    let inc := (acc / 2 ^ 32).toNat
    let p := m.clk.ppc.toNat * 2 ^ 32 + m.clk.ppcFrac.toNat + m.get R.CLK_PPCRATE * inc
    let n := tickRule m
    inc ≤ 2 ∧ n.clk.tick = m.clk.tick + BitVec.ofNat 64 inc ∧ (n.clk.tickFrac.toNat : Int) = acc % 2 ^ 32 ∧
    n.clk.ppc = BitVec.ofNat 48 (p / 2 ^ 32) ∧ n.clk.ppcFrac = BitVec.ofNat 32 p) ∧
  (∀ m : Mach,
    let a := tickAdvance m
    let n := if onOscillator m then tickRule (tickRule (tickRule (tickRule m))) else tickRule m
    (a.clk.tick, a.clk.tickFrac, a.clk.ppc, a.clk.ppcFrac) = (n.clk.tick, n.clk.tickFrac, n.clk.ppc, n.clk.ppcFrac) ∧
    a.clk.cycles = m.clk.cycles + (if onOscillator m then 1 else if sysRuns m then 5 else 1)) ∧
  (∀ (m : Mach) (stn : Nat) (tgt : BitVec 64),
    (baseReached 0 stn tgt m = true ↔ tgt ≤ m.clk.tick) ∧
    (baseReached 1 stn tgt m = true ↔ m.clk.ppc - tgt.truncate 48 < 2 ^ 47) ∧
    (baseReached 2 stn tgt m = true ↔ m.word (R.CLK_TB_STROKE stn).key - tgt.truncate 32 < 2 ^ 31) ∧
    (baseReached 3 stn tgt m = true ↔ m.word (R.CLK_TB_LINE stn).key - tgt.truncate 32 < 2 ^ 31))

/-- R55, R58, R59, R61: a synthesiser goes to ACQUIRE when it is enabled, to OFF when it is disabled and the write is
not refused, to LOCKED when its lock condition has held, and out of LOCKED when its lock is lost outside the ramp of a
change of F. Rests on choices of the model: log entries 9, 16, 45. -/
def Obligations.SynthesiserStates : Prop :=
  ∀ (q : Requester) (k : Nat) (v : Word) (s : State), okReq q = true → s.mach.hasSyn k = true →
    let m := s.mach
    let st := m.get (R.CLK_SYN_STAT_STATE k)
    let key := (R.CLK_SYN_CFG_EN k).key
    let held := (k = 1 ∧ domUp 9 m = true) ∨ (2 ≤ k ∧ stationBusy (k - 2) m = true)
    (s.lets q false key → k ≠ 0 → m.on (R.CLK_SYN_CFG_EN k) = false → ∃ t, exec (.synthEnable q k v) s = .next t ∧
      t.mach.get (R.CLK_SYN_STAT_STATE k) = 1 ∧ t.mach.on (R.CLK_SYN_STAT_LOCK k) = false ∧ t.mach.sheets = m.sheets) ∧
    (s.lets q false key → k ≠ 0 → m.on (R.CLK_SYN_CFG_EN k) = true → ¬held → ∃ t,
      exec (.synthDisable q k v) s = .next t ∧ t.mach.get (R.CLK_SYN_STAT_STATE k) = 0 ∧
      t.mach.on (R.CLK_SYN_STAT_LOCK k) = false ∧ t.mach.sheets = m.sheets) ∧
    (s.lets q false key → m.on (R.CLK_SYN_CFG_EN k) = true → held →
      exec (.synthDisable q k v) s = .next (s.onMach (ignored key))) ∧
    ((st = 1 ∨ st = 4 ∨ st = 5) → m.clk.refclk = true → synSettable k m = true → ∃ t, exec (.synthLock k) s = .next t ∧
      t.mach.get (R.CLK_SYN_STAT_STATE k) = 2 ∧ t.mach.on (R.CLK_SYN_STAT_LOCK k) = true ∧
      t.mach.on (R.CLK_SYN_STAT_GATED k) = false ∧ (t.mach.syn k).fUsed = m.get (R.CLK_SYN_F k)) ∧
    (st = 2 → synRamping k m = false → ∃ t, exec (.synthLockLoss k) s = .next t ∧
      t.mach.get (R.CLK_SYN_STAT_STATE k) = (if 2 ≤ k ∧ stationBusy (k - 2) m = true then 3 else 5) ∧
      t.mach.on (R.CLK_SYN_STAT_LOCK k) = false ∧
      t.mach.get (R.CLK_SYN_STAT_LOSSCNT k) = min (m.get (R.CLK_SYN_STAT_LOSSCNT k) + 1) 255) ∧
    (∀ u, (m.syn k).rampEnd = some u → u.toNat ≤ m.now →
      exec (.synthRampEnd k) s = .next (s.onMach fun m => m.setSyn k { m.syn k with rampEnd := none }))

/-- R60, R62, R70: the loss and return of REFCLK, the ends of a clock-loss drain, and the PPC rate with its watchdog.
Rests on choices of the model: log entries 9, 16, 45. -/
def Obligations.ClockLossAndPpc : Prop :=
  ∀ (q : Requester) (v : Word) (s : State), okReq q = true →
    let m := s.mach
    (m.clk.refclk = true → ∃ t, exec .refclkLoss s = .next t ∧ t.mach.clk.refclk = false ∧
      t.mach.on R.CLK_STATUS_REFOK = false ∧ t.mach.on R.CLK_STATUS_ONOSC = true ∧
      t.mach.on R.CLK_STATUS_TICKCOAST = true ∧ s.faulted t 0x017 0x04 3 ∧
      ∀ k, k < synCount m → m.get (R.CLK_SYN_STAT_STATE k) = 2 → t.mach.get (R.CLK_SYN_STAT_STATE k) = 3) ∧
    (∃ t, exec .refclkReturn s = .next t ∧ t.mach.clk.refclk = true ∧ t.mach.on R.CLK_STATUS_REFOK = true ∧
      t.mach.on R.CLK_STATUS_ONOSC = false ∧ t.mach.on R.CLK_STATUS_TICKCOAST = false ∧
      ∀ k, k < synCount m → m.get (R.CLK_SYN_STAT_STATE k) = 3 → (m.syn k).coastRef = true →
        t.mach.get (R.CLK_SYN_STAT_STATE k) = 4) ∧
    (∀ kind u rest, m.clk.drain = (kind, u) :: rest →
      (countIn (·.engaged) m = 0 → ∃ t, exec .clockLossDrainEnd s = .next t ∧ s.faulted t 0x019 kind 3 ∧
        t.mach.clk.drain = m.clk.drain.filter (·.1 != kind)) ∧
      (u.toNat + m.get R.CLK_DRAIN_DRAINTO * 100000 ≤ m.now → ∃ t, exec .clockLossDrainTimeout s = .next t ∧
        s.faulted t 0x019 kind 3 ∧ t.mach.clk.drain = m.clk.drain.filter (·.1 != kind))) ∧
    (s.lets q false R.CLK_PPCRATE.key → ∃ t, exec (.ppcrateWrite q v) s = .next t ∧
      t.mach.word R.CLK_PPCRATE.key = v ∧ t.mach.on R.CLK_STATUS_PPCOK = true ∧ t.mach.clk.ppcWrite = m.clk.tick ∧
      t.mach.sheets = m.sheets) ∧
    (m.on R.CLK_STATUS_PPCOK = true → m.clk.ppcWrite.toNat + m.get R.CLK_PPCWDOG ≤ m.now →
      ∃ t, exec .ppcWatchdogExpire s = .next t ∧ t.mach.on R.CLK_STATUS_PPCOK = false ∧ s.faulted t 0x018 0x05 3)

/-! ## Register accesses, cores and commits (chapters 0 and 3) -/

/-- R11-R14, R84: a register write of an aligned word goes to the register when rights, domain and existence allow it,
and is otherwise ignored with a note; a read returns the word, latches the high word of a 64-bit quantity and clears
the read-to-clear fields. Rests on choices of the model: log entries 10, 45. -/
def Obligations.RegisterAccess : Prop :=
  ∀ (q : Requester) (off bytes : Nat) (v : Word) (s : State), okReq q = true → off < 0x1000000 → reaches q s.mach = true →
    let m := s.mach
    let id := Requester.id q
    (bytes ∈ [1, 2, 4, 8] → (bytes ≠ 4 ∨ off % 4 ≠ 0) →
      exec (.registerWrite q off bytes v) s = .next (settle (s.onMach (badWidth off)))) ∧
    (off % 4 = 0 →
      (s.lets q false off → exec (.registerWrite q off 4 v) s =
        .next (settle (s.onMach fun m => writeReg q off v (noteWriter q off m)))) ∧
      (s.lets q false off → off = R.CLK_TRIM.key → m.pend = [] → s.mach.pwr.restart = false →
        ∃ t, exec (.registerWrite q off 4 v) s = .next t ∧ t.mach.get R.CLK_TRIM = R.CLK_TRIM.of v ∧
          t.mach.clk = m.clk ∧ t.mach.sheets = m.sheets ∧ t.mem = s.mem) ∧
      (blockAssigned (off / 65536) = true → mayWrite q false off = false →
        exec (.registerWrite q off 4 v) s = .next (settle (s.onMach (regNote 0x3B off)))) ∧
      (regUp off m = true → regExists off m = true → latchesHigh off = true →
        ∃ t, exec (.latchedLowRead q off) s = .next t ∧ tget 0 id t.mach.reply = readWord q off m ∧
          tget 0 (reqKey id (off + 4)) t.mach.latches = readWord q (off + 4) m ∧ t.mach.sheets = m.sheets ∧
          t.mach.clk = m.clk) ∧
      (regUp off m = true → regExists off m = true → latchesHigh off = false →
        (∀ w, tfind (reqKey id off) m.latches = some w →
          exec (.readClear q off) s = .next (s.onMach fun m =>
            { m with latches := tdel (reqKey id off) m.latches, reply := tput id w m.reply })) ∧
        (tfind (reqKey id off) m.latches = none →
          exec (.readClear q off) s = .next (s.onMach fun m => (readClear off m).answer q (readWord q off m)))))

/-- R14, R103, R279: a read of LOSSCNT clears it; RST_N low leaves every register at its reset value and no context
running; RST_N high starts TICK at 0 with an empty ledger, the cause in RSTCAUSE and the TCMs reading as zero. Rests
on choices of the model: log entries 1, 2, 8. -/
def Obligations.ReadToClearAndReset : Prop :=
  ∀ (q : Requester) (k : Nat) (s : State), okReq q = true → reaches q s.mach = true → k < 6 →
    let off := (R.CLK_SYN_STAT_LOSSCNT k).key
    (tfind (reqKey (Requester.id q) off) s.mach.latches = none →
      ∃ t, exec (.readClear q off) s = .next t ∧ t.mach.get (R.CLK_SYN_STAT_LOSSCNT k) = 0 ∧
        t.mach.get (R.CLK_SYN_STAT_STATE k) = s.mach.get (R.CLK_SYN_STAT_STATE k) ∧
        (R.CLK_SYN_STAT_LOSSCNT k).of (tget 0 (Requester.id q) t.mach.reply) =
          (R.CLK_SYN_STAT_LOSSCNT k).of (readWord q off s.mach)) ∧
    (∃ t, exec .resetAsserted s = .next t ∧ t.mach.regs = [] ∧ t.mach.sheets = [] ∧ t.mach.clk.tick = 0 ∧
      (∀ core j, okCtx core j = true → (t.ctxOf core j).state = .idle) ∧ t.mem = s.mem) ∧
    (∃ t, exec .reset s = .next t ∧ t.mach.clk.tick = 0 ∧ t.mach.sheets = [] ∧ t.mach.on R.SYS_RSTCAUSE_PIN = true ∧
      ∀ a, 0x20000000 ≤ a → a < 0x20800000 → t.mem.rd a = 0)

/-- R89, R102, R106: START, HALT (at once, or, with an access on its way, once that has completed), RESUME and DISCARD
act on one context, CANCEL and DISARM on all contexts and comparators of a core. Rests on choices of the model: log
entries 11, 12. -/
def Obligations.ContextControl : Prop :=
  ∀ (core k : Nat) (s : State), okCtx core k = true → s.lets supQ false (R.COX_RUN_START core).key →
    let c := s.ctxOf core k
    (s.mach.on (R.COX_CFG_EN core) = true → (c.state = .idle ∨ c.state = .parked) →
      ∃ t, exec (.start core k) s = .next t ∧ ((t.ctxOf core k).state = .ready ∨ (t.ctxOf core k).state = .running) ∧
        (t.ctxOf core k).pc = entryPc core k s.mach ∧ (t.ctxOf core k).prio = s.mach.get (R.COX_CTL_PRIO core k) ∧
        (t.ctxOf core k).stage = [] ∧ (t.ctxOf core k).slot = none ∧ (t.ctxOf core k).evpend = 0 ∧
        (∀ r, (t.ctxOf core k).g r = 0) ∧ t.mem = s.mem) ∧
    (c.issued = false → ∃ t, exec (.halt core k) s = .next t ∧ (t.ctxOf core k).state = .idle ∧ (t.ctxOf core k).stage = [] ∧
      (t.ctxOf core k).slot = none ∧ (t.ctxOf core k).pc = c.pc ∧
      (∀ n, n < cmpCount core → (t.mach.cmp (core * 32 + n)).armed = true → (t.mach.cmp (core * 32 + n)).ctx ≠ k) ∧
      t.mem = s.mem ∧ t.mach.regs = s.mach.regs) ∧
    (c.issued = true → ∃ t, exec (.halt core k) s = .next t ∧ t.ctxOf core k = { c with halting := true } ∧
      t.mem = s.mem ∧ t.mach.regs = s.mach.regs) ∧
    (c.state = .parked → ∃ t, exec (.resume core k) s = .next t ∧
      ((t.ctxOf core k).state = .ready ∨ (t.ctxOf core k).state = .running) ∧ (t.ctxOf core k).pc = c.pc ∧
      (t.ctxOf core k).regs = c.regs ∧ t.mach.regs = s.mach.regs) ∧
    (exec (.discard core k) s = .next (s.onMach (·.modCtx (cix core k) fun c => { c with stage := [] }))) ∧
    (∃ t, exec (.cancel core) s = .next t ∧ t.mach.regs = s.mach.regs ∧
      (c.slot ≠ none → (∀ b l rd, c.wait ≠ .commit b l rd) →
        (t.ctxOf core k).slot = none ∧ (t.ctxOf core k).cmtCode = 4)) ∧
    (∃ t, exec (.disarm core) s = .next t ∧ (∀ n, n < cmpCount core → (t.mach.cmp (core * 32 + n)).armed = false) ∧
      t.mach.regs = s.mach.regs ∧ t.mem = s.mem)

/-- R86, R94, R105: a core's enable, its software events, and the lock of the supervisor MPU. Rests on choices of the
model: log entry 11. -/
def Obligations.CoreEnables : Prop :=
  ∀ (q : Requester) (core k : Nat) (v : Word) (s : State), okReq q = true → core < 8 → k < 4 →
    let m := s.mach
    (s.lets supQ false (R.COX_CFG_EN core).key →
      (m.on (R.COX_CFG_EN core) = false → exec (.coxEnable core v) s =
        .next (s.onMach (storeFields (R.COX_CFG_EN core).key (withBits v 0 0 1)))) ∧
      (m.pend = [] → m.on (R.COX_CFG_EN core) = true → ∃ t, exec (.coxDisable core v) s = .next t ∧
        t.mach.on (R.COX_CFG_EN core) = false ∧ (t.ctxOf core k).state = .idle ∧ (t.ctxOf core k).stage = [] ∧
        (t.ctxOf core k).slot = none ∧ (t.ctxOf core k).evpend = 0 ∧
        (∀ n, n < 32 → (t.mach.cmp (core * 32 + n)).armed = false) ∧ t.mach.sheets = m.sheets ∧ t.mem = s.mem)) ∧
    (s.lets q false (R.COX_SWEV_EV core).key → ∃ t, exec (.swev q core v) s = .next t ∧
      (t.ctxOf core k).evpend = (s.ctxOf core k).evpend |||
        (if v.toNat / 2 ^ (4 + k) % 2 = 1 then BitVec.ofNat 32 (v.toNat % 16 * 16) else 0) ∧ t.mach.regs = m.regs) ∧
    (s.lets supQ false (R.COX_SUPMPU_EN 8).key →
      (m.on (R.COX_SUPMPU_LOCK 8) = false → ∃ t, exec (.supmpuLock v) s = .next t ∧
        t.mach.on (R.COX_SUPMPU_LOCK 8) = true ∧ t.mach.get (R.COX_SUPMPU_EN 8) = v.toNat % 2 ∧ t.mem = s.mem) ∧
      (m.on (R.COX_SUPMPU_LOCK 8) = true →
        exec (.supmpuLock v) s = .next (s.onMach (ignored (R.COX_SUPMPU_EN 8).key))))

/-- R90-R93, R97, R98, R100-R102: comparators fire, on a pin in the order of their numbers; pulses end; and commits
become ready, fail late, wait, or apply. Rests on choices of the model: log entries 5, 9, 43. -/
def Obligations.ComparatorsAndCommits : Prop :=
  ∀ (core k n : Nat) (s : State), okCtx core k = true → n < cmpCount core → s.mach.pwr.restart = false →
    let m := s.mach
    let i := core * 32 + n
    let c := m.cmp i
    let drives (x : Cmp) : Prop := 1 ≤ x.action ∧ x.action ≤ 4
    let alone : Prop := ∀ j, j < n → cmpDue core j m = true → drives c → drives (m.cmp (core * 32 + j)) →
      (m.cmp (core * 32 + j)).pin ≠ c.pin
    let ready (x : Commit) (m : Mach) : Mach :=
      m.modCtx (cix core k) fun c => { c with slot := some { x with ready := true } }
    (c.armed = true → baseReached c.base c.stn c.tgt m = true →
      (alone → exec (.comparatorFire core n) s = .next (settle (s.onMach (fireNow i)))) ∧
      (c.action = 0 → c.ctx < 4 → ∃ t, exec (.comparatorFire core n) s = .next t ∧
        (t.mach.cmp i).armed = c.periodic ∧ ((t.ctxOf core c.ctx).evpend.getLsbD 0) = true ∧ t.mach.regs = m.regs ∧
        t.mach.gp = m.gp) ∧
      (alone → (c.action = 1 ∨ c.action = 2) → c.ctx < 4 → m.get (R.PIN_GPCFG_MODE c.pin) = 2 → c.pin < 16 →
        ∃ t, exec (.comparatorFire core n) s = .next t ∧ bitOf t.mach.gp c.pin = decide (c.action = 1) ∧
          ((t.ctxOf core c.ctx).evpend.getLsbD 0) = true ∧ t.mach.regs = m.regs)) ∧
    (∀ pin u lvl, c.pulses.find? (fun p => p.2.1.toNat ≤ m.now) = some (pin, u, lvl) → m.get (R.PIN_GPCFG_MODE pin) = 2 →
      ∃ t, exec (.pinpulseEnd core n) s = .next t ∧ bitOf t.mach.gp pin = lvl ∧ t.mach.regs = m.regs ∧
        (t.mach.cmp i).pulses = tdel pin c.pulses) ∧
    (∀ x, (s.ctxOf core k).slot = some x → x.ready = false →
      (boundaryPast x.boundary m = true → x.lateOk = false → ∃ t, exec (.commitReady core k) s = .next t ∧
        (t.ctxOf core k).cmtCode = 2 ∧ (t.ctxOf core k).cmtSeq = ((s.ctxOf core k).cmtSeq + 1) % 256 ∧
        t.mach.regs = m.regs ∧ t.mach.sheets = m.sheets ∧ t.mem = s.mem) ∧
      (boundaryPast x.boundary m = true → x.lateOk = true → exec (.commitReady core k) s =
        .next (settle (s.onMach fun m => indivisible (applyCommit 1 (cix core k)) (ready x m)))) ∧
      (boundaryPast x.boundary m = false → boundaryHere x.boundary m = true →
        exec (.commitReady core k) s = .next (settle (s.onMach fun m => commitNow x (ready x m)))) ∧
      (boundaryPast x.boundary m = false → boundaryHere x.boundary m = false →
        exec (.commitReady core k) s = .next (s.onMach (ready x)))) ∧
    (∀ x, (s.ctxOf core k).slot = some x → x.ready = true → boundaryHere x.boundary m = true →
      exec (.commitApply core k) s = .next (settle (s.onMach (commitNow x))) ∧
      ((∀ stn, x.boundary ≠ .gap stn) → m.cox.ctxs = [(cix core k, s.ctxOf core k)] → x.entries = [] →
        (∀ b l rd, (s.ctxOf core k).wait ≠ .commit b l rd) → ∃ t, exec (.commitApply core k) s = .next t ∧
          (t.ctxOf core k).slot = none ∧ (t.ctxOf core k).cmtCode = 0 ∧ (t.ctxOf core k).cmtCount = 0 ∧
          (t.ctxOf core k).cmtSeq = ((s.ctxOf core k).cmtSeq + 1) % 256 ∧ t.mach.sheets = m.sheets ∧ t.mem = s.mem))

/-- R98, R99, R101, R102: a commit that writes no register of a domain that is down applies its writes in staging
order, after the ledger transitions that are due when it writes to SLU, leaves its slot and reports its code; one that
does applies nothing and reports DOMAIN. Rests on choices of the model: log entry 43. -/
def Obligations.CommitAppliesWhole : Prop :=
  ∀ (i code : Nat) (x : Commit) (m : Mach), (m.ctx i).slot = some x →
    let led : Mach := if x.entries.any (fun e => e.1 / 65536 == 0x07) then ledgerDue m else m
    (commitDown x m = false → applyCommit code i m = resolveWith i code x
      (x.entries.foldl (fun m e => busWrite (.ctx (i / 4) (i % 4)) true e.1 e.2 m)
        (led.modCtx i fun c => { c with slot := none }))) ∧
    (commitDown x m = true → (applyCommit code i m).regs = m.regs ∧ ((applyCommit code i m).ctx i).cmtCode = 3 ∧
      ((applyCommit code i m).ctx i).cmtSeq = ((m.ctx i).cmtSeq + 1) % 256 ∧
      ((applyCommit code i m).ctx i).cmtCount = x.entries.length)

/-! ## Ingest, the job store, feeders and CRC unit 3 (chapter 5) -/

/-- R142-R144: a descriptor is taken and checked, gets its store units, and its transfer, header check and
classification run to the completion codes of Table 5.4. Rests on choices of the model: log entries 9, 17, 25. -/
def Obligations.IngestSteps : Prop :=
  ∀ (ecc : Ecc) (n : Nat) (i : Ingest) (bs : List Byte) (m' : Mach) (s : State),
    let m := s.mach
    let new : Ingest := { desc := bytesWords 8 bs, stage := .room }
    let took := m'.onPeat fun p => { p with ingest := p.ingest ++ [new] }
    let ended := holdRelease (transferEnd m')
    (mayTake m = true → ringTake (m.get R.PEAT_CTL_INRING) 2 s.mem m = (some bs, m') →
      (descCode took new = 0 → classify took new = 0 → ∃ t, exec .ingestDescriptor s = .next t ∧ t.mach = took ∧
        t.mem = s.mem) ∧
      (descCode took new ≠ 0 → exec .ingestDescriptor s =
        .next (s.onMach fun _ => ingestFail m'.peat.ingest.length (descCode took new) took)) ∧
      (descCode took new = 0 → classify took new ≠ 0 → exec .ingestDescriptor s =
        .next (s.onMach fun _ => ingestFail m'.peat.ingest.length (classify took new) took))) ∧
    (m.peat.ingest.findIdx? (·.stage == .room) = some n → m.peat.ingest[n]? = some i → (inTransfer m).isNone = true →
      unitsWanted m i ≤ freeUnits m → usedIndex m < 131072 → domUp 11 m = true →
      ∃ t, exec .ingestAllocate s = .next t ∧ t.mach.peat.ingest[n]? =
          some { i with units := unitsWanted m i, stage := .transfer false, keepRaw := m.on R.PEAT_CTL_KEEPRAW } ∧
        t.mach.get (R.DMA_STAT_STATE (m.get R.PEAT_CTL_INCH)) = dRun ∧ t.mach.sheets = m.sheets ∧ t.mem = s.mem) ∧
    (inTransfer m = some n → m.peat.ingest[n]? = some i →
      (i.isPeat = true → i.stage = .transfer false → bandRead i 32 ecc s.mem m = .bytes bs m' →
        (headerCode i (bytesWords 8 bs) = 0 → exec (.peatHeaderArrived ecc) s =
          .next (s.onMach fun _ => m'.setIngest n { i with stage := .transfer true })) ∧
        (headerCode i (bytesWords 8 bs) ≠ 0 → exec (.peatHeaderArrived ecc) s =
          .next (s.onMach fun _ => ingestFail n (headerCode i (bytesWords 8 bs)) ended))) ∧
      ((i.isPeat = true → i.stage = .transfer true) → bandRead i i.len ecc s.mem m = .bytes bs m' →
        (crcRight i bs = false → exec (.ingestTransferDone ecc) s = .next (s.onMach fun _ =>
          ingestFail n (if i.isPeat then 1 else 2) (ended.incSat (R.CRC_ERR_ERRS 0)))) ∧
        (crcRight i bs = true → i.purged = false →
          (classify ended i ≠ 0 →
            exec (.ingestTransferDone ecc) s = .next (s.onMach fun _ => ingestFail n (classify ended i) ended)) ∧
          (classify ended i = 0 → i.isPeat = false → i.keepRaw = false → exec (.ingestTransferDone ecc) s =
            .next (s.onMach fun _ => ended.setIngest n { i with stage := .wait, band := some (bandFrom i bs) })) ∧
          (classify ended i = 0 → i.isPeat = false → i.keepRaw = true →
            exec (.ingestTransferDone ecc) s = .next (s.onMach fun _ => makeResident n (bandFrom i bs) ended)) ∧
          (classify ended i = 0 → i.isPeat = true → ended.on R.PEAT_CTL_VERIFY = false →
            exec (.ingestTransferDone ecc) s = .next (s.onMach fun _ => makeResident n (bandFrom i bs) ended)))))

/-- R145-R149: a raw band goes to a free deflate engine and becomes resident compressed, or raw where the engine's
output, which keeps R147's rules for blocks, does not inflate to it; a Peat band becomes resident when its
verification passes; completion records go to the completion ring in order. Rests on choices of the model: log entries
17, 45. -/
def Obligations.DeflateAndComplete : Prop :=
  ∀ (n e : Nat) (i : Ingest) (b : Band) (out : List Byte) (s : State), e < 4 →
    let m := s.mach
    (firstWaiting m = some n → (∃ r, freeEngines m = e :: r) → m.peat.ingest[n]? = some i → i.verifies = false →
      ∃ t, exec .deflateStart s = .next t ∧ t.mach.peat.ingest =
          m.peat.ingest.set n { i with stage := .engine e, depth := clampN 1 64 (m.get R.PEAT_DEFCFG_DEPTH) } ∧
        t.mach.peat.entries = m.peat.entries ∧ t.mach.regs = m.regs ∧ t.mem = s.mem) ∧
    (onEngine m e = some (n, i) → i.band = some b →
      (i.verifies = false → deflates out i.rawLen = true →
        (inflate out i.rawLen = (b.payload, true) → exec (.deflateDone e out) s =
          .next (s.onMach fun m => verifyTake (makeResident n { b with raw := false, stored := true, payload := out } m))) ∧
        ((inflate out i.rawLen).1 ≠ b.payload → exec (.deflateDone e out) s = .next (s.onMach fun m => verifyTake
          (makeResident n b (note 0x0B0 0x02 0 (assertEvent 0x0B3 (m.incSat R.PEAT_STAT2_VERIFYMM))))))) ∧
      (i.verifies = true →
        ((inflate b.payload i.rawLen).2 = true →
          exec (.ingestVerifyDone e) s = .next (s.onMach fun m => verifyTake (makeResident n b m))) ∧
        ((inflate b.payload i.rawLen).2 = false →
          exec (.ingestVerifyDone e) s = .next (s.onMach fun m => verifyTake (ingestFail n 0x0A m))))) ∧
    (m.peat.ingest[n]? = some i → i.purged = false → m.entry i.sid = none →
      (makeResident n b m).entry i.sid = some { bands := [b] } ∧ ∃ j, (makeResident n b m).peat.ingest[n]? = some j ∧
        j.stage = .post ∧ j.code = 0 ∧ j.kept = b.bytes ∧ j.units = 0) ∧
    (∀ rest m' mem', m.peat.ingest = i :: rest → i.stage = .post → domUp 11 m = true →
      ringPut (m.get R.PEAT_CTL_CPRING) 2 (completion m i) m s.mem = (true, m', mem') →
      ∃ t, exec .ingestCompletionPost s = .next t ∧ t.mach.peat.ingest = rest ∧ t.mem = mem' ∧ t.mach.regs = m'.regs)

/-- R153, R154: PURGE, PIN, UNPIN, QUERY and SWEEP act on an entry and report in the requester's own PEAT_JSRES; a
hold that ends releases an entry that nothing keeps. Rests on choices of the model: log entry 17. -/
def Obligations.JobStoreOperations : Prop :=
  ∀ (q : Requester) (sid : Sid) (op : Nat) (e : Entry) (s : State), okReq q = true →
    let m := s.mach
    let res (t : State) : Word := t.mach.own (Requester.id q) R.PEAT_JSRES_CODE.key
    let reports (t : State) (code : Nat) (pin : Bool) : Prop := R.PEAT_JSRES_CODE.of (res t) = code ∧
      R.PEAT_JSRES_PINNED.of (res t) = b2n pin ∧ R.PEAT_JSRES_UNITS.of (res t) = e.units % 2 ^ 24
    (s.lets q false R.PEAT_JSOP_SID.key →
      ((op = 0 ∨ op = 6 ∨ op = 7) → ∃ t, exec (.jsopUndefined q op sid) s = .next t ∧ res t = 3 ∧
        t.mach.peat = m.peat ∧ t.mach.regs = m.regs ∧ t.mem = s.mem) ∧
      (m.entry sid = none → ∀ i ∈ [Instr.purge q sid, .pin q sid, .unpin q sid, .query q sid],
        ∃ t, exec i s = .next t ∧ res t = 1 ∧ t.mach.peat = m.peat ∧ t.mach.regs = m.regs ∧ t.mem = s.mem) ∧
      (m.entry sid = some e →
        (∃ t, exec (.query q sid) s = .next t ∧ reports t 0 e.pinned ∧ t.mach.peat = m.peat ∧ t.mach.regs = m.regs) ∧
        (∃ t, exec (.pin q sid) s = .next t ∧ reports t 0 true ∧ t.mach.entry sid = some { e with pinned := true } ∧
          (∀ x, x ≠ sid → t.mach.entry x = m.entry x) ∧ t.mach.regs = m.regs) ∧
        ((e.ended = false ∨ referenced sid m = true) → ∃ t, exec (.unpin q sid) s = .next t ∧ reports t 0 false ∧
          t.mach.entry sid = some { e with pinned := false } ∧ t.mach.regs = m.regs) ∧
        (referenced sid m = true → ∃ t, exec (.purge q sid) s = .next t ∧ reports t 2 e.pinned ∧
          t.mach.peat = m.peat ∧ t.mach.regs = m.regs) ∧
        (referenced sid m = false → (m.peat.entries.map (·.1)).Nodup → ∃ t, exec (.purge q sid) s = .next t ∧
          reports t 0 false ∧ t.mach.entry sid = none ∧ (∀ x, x ≠ sid → t.mach.entry x = m.entry x))) ∧
      ((m.peat.entries.map (·.1)).Nodup → (∀ p ∈ m.peat.entries, p.1 < 2 ^ 24) → ∃ t, exec (.sweep q) s = .next t ∧
        R.PEAT_JSRES_CODE.of (res t) = 0 ∧ ∀ x e, m.entry x = some e → t.mach.entry x =
          if e.pinned = true ∨ e.hold.isSome = true ∨ referenced x m = true then some e else none)) ∧
    (∀ u, m.entry sid = some e → e.hold = some u → u.toNat ≤ m.now →
      ((referenced sid m = true ∨ e.pinned = true) → ∃ t, exec (.jobStoreHoldExpire sid) s = .next t ∧
        t.mach.entry sid = some { e with hold := none, ended := true } ∧ t.mach.regs = m.regs) ∧
      (referenced sid m = false → e.pinned = false → (m.peat.entries.map (·.1)).Nodup →
        ∃ t, exec (.jobStoreHoldExpire sid) s = .next t ∧ t.mach.entry sid = none ∧ t.mach.sheets = m.sheets))

/-- R150, R151, R157, R159, R163: a feeder takes up the earliest armed sheet, writes its bands into the line buffer
when their slots are free, directly or through an inflate engine, and CRC unit 3 computes over a range. Rests on
choices of the model: log entry 17. -/
def Obligations.FeedersAndCrc : Prop :=
  ∀ (stn e : Nat) (q : Requester) (s : State), stn < s.mach.nStn → e < 4 → okReq q = true →
    let m := s.mach
    let f := m.feeder stn
    (∀ r, domUp 11 m = true → feederFree m stn = true → f.eng = none → feedNext m stn = some r →
      ∃ t, exec (.feederStart stn) s = .next t ∧ t.mach.feeder stn = { sheet := some r, sid := (m.sheet r).sid } ∧
        (tget {} stn (t.mach.sheet r).legs).fed = true ∧ s.otherSheets t r ∧ t.mem = s.mem) ∧
    (∀ r b, let sh := m.sheet r
      let fin := min sh.lines (64 * (f.band + 1))
      let n := sh.width / 2
      f.sheet = some r → f.started = false → f.eng = none → sh.sid = f.sid → sh.exposes = true → f.band < sh.bands →
      domUp 11 m = true → dramHeld m = false → linesFreed m stn (tget {} stn sh.legs) + 128 ≥ fin →
      bandOf m sh stn f.band = some b →
      (b.blank = true → exec (.feederBandStart stn .clean) s = .next { s with
        mach := bandFed stn fin m,
        mem := writeLines stn n (64 * f.band) (List.replicate (fin - 64 * f.band) []) s.mem }) ∧
      (b.blank = false → b.raw = true → ∃ t, exec (.feederBandStart stn .clean) s = .next t ∧
        (t.mach.feeder stn).band = f.band + 1 ∧ (t.mach.feeder stn).filled = fin ∧
        t.mem = writeLines stn n (64 * f.band) (cutLines n (fin - 64 * f.band) b.payload) s.mem) ∧
      (b.blank = false → b.raw = false → ∃ t, exec (.feederBandStart stn .clean) s = .next t ∧
        t.mach.feeder stn = { f with started := true, filled := 64 * f.band, stream := {} } ∧ t.mem = s.mem)) ∧
    ((List.range m.nStn).filter (fun s => (m.feeder s).started && (m.feeder s).eng.isNone) = [stn] →
      ((List.range 4).find? fun e => !(m.peat.feeders.any fun f => f.2.eng == some e)) = some e →
      ∃ t, exec .inflateRunStart s = .next t ∧ t.mach.feeder stn = { f with eng := some e } ∧
        t.mach.sheets = m.sheets ∧ t.mem = s.mem) ∧
    (∀ r b lines, let sh := m.sheet r
      let n := sh.width / 2
      let fin := min sh.lines (64 * (f.band + 1))
      let all := n * (fin - 64 * f.band)
      let to_ := min fin (f.filled + 8)
      let x := inflateRun (bufferByte stn f.band n s.mem) b.payload all (n * (to_ - 64 * f.band)) f.stream
      let took : List Byte := x.1.out.reverse
      let wrote : Mem := writeLines stn n f.filled (cutLines n (took.length / n) took) s.mem
      ((List.range m.nStn).find? fun s => (m.feeder s).eng == some e) = some stn → f.sheet = some r →
      dramHeld m = false → bandOf m sh stn f.band = some b → 0 < n → 64 * f.band ≤ f.filled → f.filled < fin →
      (f.filled + 8 < fin → x.2 = true → ∃ t, exec (.inflateRunDone e .clean) s = .next t ∧
        t.mach.feeder stn = { f with filled := f.filled + 8, eng := none, stream := x.1.st } ∧ t.mem = wrote) ∧
      (fin ≤ f.filled + 8 → infWhole all x = true → ∃ t, exec (.inflateRunDone e .clean) s = .next t ∧
        t.mach.feeder stn = { f with band := f.band + 1, started := false, filled := fin, eng := none } ∧ t.mem = wrote) ∧
      (f.stream = {} → f.filled = 64 * f.band → f.filled + 8 < fin → inflate b.payload all = (lines, true) →
        ∃ t, exec (.inflateRunDone e .clean) s = .next t ∧ (t.mach.feeder stn).filled = f.filled + 8 ∧
          t.mem = writeLines stn n f.filled (cutLines n 8 lines) s.mem)) ∧
    (s.lets q false R.CRC_GCTL_GO.key → m.peat.crc = none → ∃ t, exec (.crcGo q) s = .next t ∧
      t.mach.on R.CRC_GCTL_BUSY = true ∧
      t.mach.peat.crc = some (m.get R.CRC_GADDR_LO_ADDR + m.get R.CRC_GADDR_HI_ADDR * 2 ^ 32, m.get R.CRC_GLEN_LEN) ∧
      t.mach.sheets = m.sheets ∧ t.mem = s.mem) ∧
    (∀ a n, m.peat.crc = some (a, n) → a < 0x0400000000 → ∃ t, exec (.crcDone .clean) s = .next t ∧
      t.mach.on R.CRC_GCTL_BUSY = false ∧ t.mach.peat.crc = none ∧
      t.mach.on R.CRC_GCTL_ERR = !crcRange m a n ∧
      (crcRange m a n = true → t.mach.word R.CRC_GRES_CRC.key = crc32c (s.mem.rdBytes a n)) ∧ t.mem = s.mem)

/-! ## Strokes and the video islands (chapter 6) -/

/-- R57, R68, R73, R185, R187: a BD edge, or 1.5 forecast periods without one, starts a stroke, LSDLY after the edge
or at its forecast, which counts STROKEs, LINEs and FACETs on and is stamped; LINEs goes on within the stroke, up to
its stroke advance. Rests on choices of the model: log entries 18, 45. -/
def Obligations.StrokesCount : Prop :=
  ∀ (stn : Nat) (t : Tick) (p : Ppc) (s : State), stn < s.mach.nStn →
    let m := s.mach
    let v := m.vidOf stn
    let f := facetsOf m stn
    /- nothing is staged, no commit waits, and no restart is due -/
    let calm : Prop := m.pend = [] ∧ m.cox.ctxs = [] ∧ m.pwr.restart = false
    let counted (u : State) : Prop :=
      u.mach.get (R.CLK_TB_STROKE stn) = (m.get (R.CLK_TB_STROKE stn) + 1) % 2 ^ 32 ∧ u.mem = s.mem
    (m.on (R.VID_CTL_EN stn) = true →
      exec (.strokeStart stn) s = .next (settle (s.onMach fun m =>
        let n := (sigMeasure stn m).onVid stn fun v => { v with bdAt := m.clk.tick }
        let x := startStamps stn n
        indivisible (fun m => strokeRun stn false x.1 x.2 s.mem (facetCount stn m)) n)) ∧
      (calm → ∃ u, exec (.strokeStart stn) s = .next u ∧ counted u) ∧
      (∀ t0 p0 dt dp, stampsOf m stn = some (t0, p0, dt, dp) → 3 * dt ≤ 2 * ((m.now : Int) - v.bdAt.toNat) →
        exec (.bdMissing stn) s = .next (settle (s.onMach fun m => indivisible (fun m =>
          strokeRun stn true (t0 + BitVec.ofInt 64 dt) (ppcAdd p0 dp) s.mem (polyUnlock stn (facetForecast stn m)))
            (m.onVid stn fun v => { v with bdAt := v.bdAt + BitVec.ofInt 64 dt, sigSums := [], sigCount := 0 }))) ∧
        (calm → ∃ u, exec (.bdMissing stn) s = .next u ∧ counted u)) ∧
      (∀ t0 p0 dt dp, stampsOf m stn = some (t0, p0, dt, dp) →
        let j := (BitVec.ofNat 32 (m.get (R.CLK_TB_LINE stn)) - v.line0).toNat
        j + 1 < advLines m stn → (j + 1 : Nat) * dt ≤ ((m.now : Int) - t0.toNat) * advLines m stn →
        exec (.lineStep stn) s = .next (settle (s.onMach fun m =>
          stationBoundary stn [.line] (fun b => b == .line stn) (m.incWrap (R.CLK_TB_LINE stn)))) ∧
        (calm → ∃ u, exec (.lineStep stn) s = .next u ∧
          u.mach.get (R.CLK_TB_LINE stn) = (m.get (R.CLK_TB_LINE stn) + 1) % 2 ^ 32 ∧ u.mach.sheets = m.sheets ∧
          u.mem = s.mem))) ∧
    (v.stamps = [] → let c := strokeCount stn t p m
      c.get (R.CLK_TB_STROKE stn) = (m.get (R.CLK_TB_STROKE stn) + 1) % 2 ^ 32 ∧
      c.get (R.CLK_TB_LINE stn) = (v.line0.toNat + advLines m stn) % 2 ^ 32 ∧
      c.get (R.CLK_TB_STRKTICK stn) = t.toNat % 2 ^ 32 ∧ (c.vidOf stn).stamps = [(t, p)] ∧
      (c.vidOf stn).line0.toNat = c.get (R.CLK_TB_LINE stn)) ∧
    (v.fzPend = false → (facetAtBd stn m).get (R.CLK_TB_FACET stn) = (m.get (R.CLK_TB_FACET stn) + 1) % f) ∧
    (v.fzPend = true → v.fzHave = false → (facetAtBd stn m).get (R.CLK_TB_FACET stn) = 0 ∧
      (facetAtBd stn m).on (R.VID_STAT_IDOK stn) = m.on (R.VID_STAT_IDOK stn))

/-- R173, R175-R177: the pulses a lane emits in a stroke follow one another without overlap, none starts earlier than
one dot after BD or later than SCAN.ACTIVE dots after the stroke start, and their level keeps to the drive ceiling; a
retired lane emits none (R179). Rests on choices of the model: log entries 18, 45. -/
def Obligations.PulsesKeepOrder : Prop :=
  ∀ (stn f i : Nat) (es : List Expo) (mem : Mem) (m : Mach),
    let ps := lanePulses m mem stn f i es
    (∀ p ∈ ps, p.lane = i ∧ 0 < p.width ∧ p.width ≤ 64 ∧ p.level ≤ laneCeil m stn i ∧
      64 ≤ p.start + (m.get (R.CLK_SYN_LSDLY (2 + stn)) : Int) ∧ p.start ≤ 64 * (m.get (R.VID_SCAN_ACTIVE stn) : Int)) ∧
    ps.Pairwise (fun a b : Pulse => a.start + a.width ≤ b.start) ∧ (retired m stn i = true → ps = [])

/-- R170, R172, R181, R182, R185, R186: level frames and safe frames, facet-zero edges, the signature, the enable of
an island, and the station that a requester selects of the Beam Map. Rests on choices of the model: log entries 18,
45. -/
def Obligations.IslandCommands : Prop :=
  ∀ (q : Requester) (stn z : Nat) (w : Word) (revs : Nat) (s : State), okReq q = true → stn < s.mach.nStn →
    z < 32 →
    let m := s.mach
    let v := m.vidOf stn
    let f := facetsOf m stn
    let levels := (List.range 16).map (laneLevel m stn (m.get (R.CLK_TB_FACET stn)) z)
    (lenOn stn m = true → z < zonesOf m stn →
      ((∀ e, zoneEnd m stn z = some e → dotsLast m stn (e - zoneStart m stn z) 200 = true) →
        ∃ t, exec (.levelFrame stn z) s = .next t ∧ t.mach.sent = m.sent ++ [.level stn (linkFrame 0b101 z levels)] ∧
          (t.mach.vidOf stn).levels = levels ∧ t.mach.regs = m.regs ∧ t.mem = s.mem) ∧
      (∀ e, zoneEnd m stn z = some e → dotsLast m stn (e - zoneStart m stn z) 200 = false →
        ∃ t, exec (.levelFrame stn z) s = .next t ∧ t.mach.sent = m.sent ∧
          t.mach.get (R.VID_DLSTAT_DLSKIP stn) = min 255 (m.get (R.VID_DLSTAT_DLSKIP stn) + 1) ∧
          (t.mach.vidOf stn).levels = v.levels)) ∧
    (lenOn stn m = false → v.safeAt.toNat + 1000 ≤ m.now → ∃ t, exec (.safeFrame stn) s = .next t ∧
      t.mach.sent = m.sent ++ [.level stn (linkFrame 0b110 0 [])] ∧ (t.mach.vidOf stn).levels = List.replicate 16 0 ∧
      (t.mach.vidOf stn).safeAt = m.clk.tick ∧ t.mach.regs = m.regs) ∧
    (m.on (R.VID_CTL_EN stn) = true → m.on (R.VID_CTL_FZEN stn) = true → ∃ t, exec (.fzEdge stn) s = .next t ∧
      (t.mach.vidOf stn).fzPend = true ∧ t.mach.regs = m.regs ∧ t.mach.sheets = m.sheets) ∧
    (m.on (R.VID_CTL_EN stn) = true → m.on (R.VID_PLOCK_LOCK stn) = true → revs = m.get (R.VID_IDCFG_SIGREV stn) →
      v.sigSums.length = f → sigLength stn m ≤ v.sigCount →
      let ppms := (sigPpms v.sigSums m).1
      let best := leastTwo ((List.range f).map (sigSum m stn ppms))
      let facet := R.CLK_TB_FACET stn
      ∃ t, exec (.signatureDone stn revs) s = .next t ∧
        (m.on (R.VID_CTL_FZEN stn) = false → v.sigDone = false →
          (∀ n, best.2.2 = some n → best.2.1 + m.get (R.VID_IDCFG_SIGMARGIN stn) ≤ n) →
          t.mach.on (R.VID_STAT_IDOK stn) = true ∧ t.mach.get facet = (m.get facet + best.1) % f) ∧
        (m.on (R.VID_CTL_FZEN stn) = true → t.mach.get facet = m.get facet ∧
          ∀ i, i < f → t.mach.getI (R.VID_MEAS_PPM stn i) = clampI (-32768) 32767 (ppms.getD i 0))) ∧
    (s.lets q false (R.VID_CTL_EN stn).key → m.on (R.VID_CTL_EN stn) = false → (R.VID_CTL_EN stn).of w = 1 →
      let n := (R.VID_CTL_FACETS stn).of w
      let room := if (R.VID_CTL_BANKS stn).of w = 1 then 128 else 256
      (4 ≤ n → n ≤ 12 → n * ((R.VID_CTL_NZM1 stn).of w + 1) ≤ room → m.pend = [] →
        ∃ t, exec (.vidCtlWrite q stn w) s = .next t ∧ t.mach.on (R.VID_CTL_EN stn) = true ∧
          t.mach.get (R.VID_CTL_FACETS stn) = n ∧ t.mach.on (R.VID_STAT_IDOK stn) = false ∧
          (t.mach.vidOf stn).fzHave = false ∧ (t.mach.vidOf stn).stamps = [] ∧ t.mach.sheets = m.sheets) ∧
      ((n < 4 ∨ 12 < n ∨ room < n * ((R.VID_CTL_NZM1 stn).of w + 1)) →
        exec (.vidCtlWrite q stn w) s = .next (s.onMach (ignored (R.VID_CTL_EN stn).key)))) ∧
    (s.lets q false R.BMAP_SEL_STN.key → ∃ t, exec (.bmapSelWrite q w) s = .next t ∧
      t.mach.own (Requester.id q) R.BMAP_SEL_STN.key = w &&& 7#32 ∧
      bmapStation q t.mach = (if w.toNat % 8 < m.nStn then some (w.toNat % 8) else none) ∧ t.mach.regs = m.regs ∧
      t.mem = s.mem)

/-! ## The Scull engine (chapter 7) -/

/-- R194, R198, R203, R212, R214: a trigger counts its time and index on and makes an idle slot read its inputs, or is
missed; a sync event puts the index back to 0; a slot is enabled only when it is programmed soundly. Rests on choices
of the model: log entries 35, 45. -/
def Obligations.SlotTriggers : Prop :=
  ∀ (q : Requester) (n : Nat) (v : Word) (s : State), okReq q = true → n < 96 →
    let m := s.mach
    let len := m.get (R.SCL_SLOT_RCA_LEN n)
    let idx := m.get (R.SCL_SLOT_RCSTAT_IDX n)
    let served : Mach := { m with scl := { m.scl with trigDue := m.scl.trigDue.erase n } }
    let synced := opRcSyncEvent n served
    let at_ := if groupRunning n synced then
      { synced with scl := { synced.scl with bounds := synced.scl.bounds ++ [n] } } else sampleBoundary n synced
    let slot := at_.sclSlot n
    let idle := triggerCounts n at_
    let busy : Bool := (match slot.last with | some t => decide (at_.now < t.toNat + 1000) | none => false) || slot.reading
      || idle.on (R.SCL_SLOT_STAT_PEND n) || idle.on (R.SCL_SLOT_STAT_RUNNING n)
    (m.scl.trigDue.contains n = true → m.on (R.SCL_SLOT_CTL_EN n) = true → m.on R.SCL_CTL_EN = true →
      (slotShed n idle = true → exec (.slotTrigger n) s = .next (settle (s.onMach fun _ => idle))) ∧
      (slotShed n idle = false → busy = false → exec (.slotTrigger n) s = .next (settle (s.onMach fun _ => idle.onSlot n fun x =>
        { x with reading := true, idx := at_.get (R.SCL_SLOT_RCSTAT_IDX n), held := 0 < slot.hold }))) ∧
      (slotShed n idle = false → busy = true → exec (.slotTrigger n) s = .next (settle (s.onMach fun _ => slotMiss n idle)))) ∧
    ((triggerCounts n m).get (R.SCL_SLOT_TRTICK_TICK n) = m.now % 2 ^ 32 ∧
      (0 < len → len ≤ 2 ^ 14 → (triggerCounts n m).get (R.SCL_SLOT_RCSTAT_IDX n) = (idx + 1) % len) ∧
      (len = 0 → (triggerCounts n m).get (R.SCL_SLOT_RCSTAT_IDX n) = idx)) ∧
    ((m.sclSlot n).reading = true → m.scl.bounds.contains n = true → exec (.slotInputsRead n) s = .next s) ∧
    ((m.sclSlot n).reading = true → m.scl.bounds.contains n = false → m.get (R.SCL_SLOT_BUD_NIN n) = 0 →
      slotShed n m = false →
      ∃ t, exec (.slotInputsRead n) s = .next t ∧ t.mach.on (R.SCL_SLOT_STAT_PEND n) = true ∧
        (t.mach.sclSlot n).reading = false ∧ t.mach.sheets = m.sheets ∧ t.mem = s.mem) ∧
    ((m.sclSlot n).reading = true → m.scl.bounds.contains n = false → exec (.slotInputsRead n) s = .next (s.onMach fun m =>
      let r := (List.range (m.get (R.SCL_SLOT_BUD_NIN n))).foldl (inputRead n) (m.onSlot n fun x => { x with reading := false }, true)
      if r.2 = false then slotMiss n r.1 else if slotShed n r.1 then r.1 else r.1.set (R.SCL_SLOT_STAT_PEND n) 1)) ∧
    (m.scl.syncDue.contains n = true → 0 < len → idx ≠ 0 →
      let off := if len < 2 * idx then len - idx else idx
      ∃ t, exec (.rcSyncEvent n) s = .next t ∧ t.mach.get (R.SCL_SLOT_RCSTAT_IDX n) = 0 ∧
        t.mach.sheets = m.sheets ∧ t.mem = s.mem ∧
        (off ≤ m.get (R.SCL_SLOT_RCB_SYNCTOL n) → t.mach.scl.syncDue = m.scl.syncDue.erase n ∧ t.mach.flt = m.flt) ∧
        (m.get (R.SCL_SLOT_RCB_SYNCTOL n) < off → (t.mach.sclSlot n).hold = len)) ∧
    (s.lets q false (R.SCL_SLOT_CTL_EN n).key → m.on (R.SCL_SLOT_CTL_EN n) = false →
      (slotSound n m = true → m.pend = [] → ∃ t, exec (.slotEnable q n v) s = .next t ∧
        t.mach.on (R.SCL_SLOT_CTL_EN n) = true ∧ t.mach.get (R.SCL_SLOT_CTL_PSTART n) = (R.SCL_SLOT_CTL_PSTART n).of v ∧
        t.mach.sheets = m.sheets ∧ t.mem = s.mem) ∧
      (slotSound n m = false → exec (.slotEnable q n v) s = .next (s.onMach (note (slotSrc n) 0x06 n))))

/-- R195-R197, R202, R213: the idle engine takes the pending slot that goes first, learning frozen or not as judged
then, and runs its microprogram; a run that reaches END writes its outputs in binding order and frees the engine; one
whose word is undefined stops with a scull-illegal fault, one that outlasts its budget with a scull-budget fault.
Rests on choices of the model: log entries 35, 45. -/
def Obligations.ScullRuns : Prop :=
  ∀ (n : Nat) (r : SclRun) (s : State), s.mach.pwr.restart = false →
    let m := s.mach
    let begun := { (((((m.set (R.SCL_SLOT_STAT_PEND n) 0).set (R.SCL_SLOT_STAT_RUNNING n) 1).set
        (R.SCL_SLOT_STAT_HOV n) 0).set (R.SCL_SLOT_STAT_FROZEN n) (b2n (learningFrozen n m))).set
        (R.SCL_SLOT_STAT_ECLAMP n) 0).set R.SCL_STAT_SLOT n |>.set R.SCL_STAT_BUSY 1 with
      scl := { m.scl with writers := m.scl.writers.filter fun p => p.2 != n } }
    let out := SclCpu.run (m.get (R.SCL_SLOT_BUD_BUDGET n)) (m.get (R.SCL_SLOT_CTL_PSTART n)) 16
      { m := begun, n := n, hov := m.on (R.SCL_SLOT_STAT_HOV n), frozen := learningFrozen n m }
    let quiet : Prop := m.scl.bounds = [] ∧ m.scl.waiting = [] ∧ m.heldEdges = []
    (m.scl.run = none → m.on R.SCL_CTL_EN = true → pendingFirst m = some n →
      (out.1 ≠ .illegal → ∃ t, exec .scullDispatch s = .next t ∧
        t.mach.scl.run = some { slot := n, ended := out.1 == .ended, cycles := out.2.1 } ∧
        t.mach.on (R.SCL_SLOT_STAT_RUNNING n) = true ∧ t.mach.on (R.SCL_SLOT_STAT_PEND n) = false ∧
        t.mach.on R.SCL_STAT_BUSY = true ∧ t.mach.get R.SCL_STAT_SLOT = n ∧ t.mach.sheets = m.sheets ∧ t.mem = s.mem) ∧
      (out.1 = .illegal → quiet → 2 ≤ m.get (R.SCL_SLOT_CTL_BUDCLS n) → ∃ t, exec .scullDispatch s = .next t ∧
        t.mach.scl.run = none ∧ s.faulted t (slotSrc n) 0x03 (min 3 (m.get (R.SCL_SLOT_CTL_BUDCLS n))))) ∧
    (m.scl.run = none → m.on R.SCL_CTL_EN = true → pendingFirst m = none → exec .scullDispatch s = .next s) ∧
    (m.scl.run = some r → r.ended = true → quiet →
      (exec .scullOutputWrite s = .next (settle (s.onMach fun m =>
        markTrig (slotHits m.regs 0x04 fun w => bitsOf w 2 0 == 5 && bitsOf w 12 6 == r.slot)
          (runEnd r (each (List.range (m.get (R.SCL_SLOT_BUD_NOUT r.slot))) (outputDo r.slot) m))))) ∧
      (m.get (R.SCL_SLOT_BUD_NOUT r.slot) = 0 → ∃ t, exec .scullOutputWrite s = .next t ∧ t.mach.scl.run = none ∧
        t.mach.on R.SCL_STAT_BUSY = false ∧ t.mach.on (R.SCL_SLOT_STAT_RUNNING r.slot) = false ∧
        t.mach.sheets = m.sheets ∧ t.mem = s.mem)) ∧
    (m.scl.run = some r → r.ended = false →
      exec .scullBudgetExpire s = .next (settle (s.onMach fun m => assertEvent 0x0E1 (runStopped r 0x02 m))) ∧
      (quiet → 2 ≤ m.get (R.SCL_SLOT_CTL_BUDCLS r.slot) → ∃ t, exec .scullBudgetExpire s = .next t ∧
        t.mach.scl.run = none ∧ s.faulted t (slotSrc r.slot) 0x02 (min 3 (m.get (R.SCL_SLOT_CTL_BUDCLS r.slot)))))

/-- R196, R206: whatever a microprogram does, its four accumulators keep to 40 bits, and a run that ends has taken no
more engine cycles than its budget. Rests on choices of the model: log entry 35. -/
def Obligations.MicroprogramBounds : Prop :=
  let kept (c : SclCpu) : Prop := ∀ a ∈ c.acc, -(2 ^ 39) ≤ a ∧ a < 2 ^ 39
  (∀ (c : SclCpu) (i : Micro), kept c → kept (c.exec i) ∧ (c.exec i).acc.length = c.acc.length) ∧
  ∀ (fuel pc used : Nat) (c : SclCpu),
    let r := SclCpu.run fuel pc used c
    (kept c → kept r.2.2) ∧ r.2.2.n = c.n ∧
      (r.1 = .ended → r.2.1 ≤ r.2.2.m.get (R.SCL_SLOT_BUD_BUDGET c.n))

/-! ## Conversions, high voltage, the fuser and marks (chapters 8 and 12) -/

/-- R184, R223, R225, R235-R237, R349: what conversions, head samples, zero crossings and gate pulses leave, and when
a sustained over-current, the loss of the mains phase and the end of a grace period act; no write enables the fuser
while a guard stands at its ceiling (R238). Rests on choices of the model: log entries 9, 19, 45. -/
def Obligations.AnalogAndFuser : Prop :=
  ∀ (stn k n h z : Nat) (v : Int) (code : Nat) (s : State), stn < s.mach.nStn → n < 54 → h < 24 → z < 4 → code < 4096 →
    let m := s.mach
    let t0 := headReading m stn
    let hard := min (m.getI (R.VID_HTLIM_HTHARD stn)) (headCeilOf m stn)
    (56 ≤ k → k < 64 → ∃ t, exec (.adcConversion (.ain k) v) s = .next t ∧
      t.mach.get (R.ADC_AIN_VAL k) = (clampI 0 4095 v).toNat ∧ t.mach.sheets = m.sheets ∧ t.mach.flt = m.flt ∧
      t.mem = s.mem) ∧
    (∃ t, exec (.adcConversion (.shunt n) v) s = .next t ∧ (tget (2048, 2048) n t.mach.shunt).1 = (clampI 0 4095 v).toNat ∧
      (tget (2048, 2048) n t.mach.shunt).2 = (tget (2048, 2048) n m.shunt).1 ∧ t.mach.regs = m.regs) ∧
    ((m.adcIn k).near = 3 → (code < 16 ∨ 0xFF0 ≤ code) → (inputBroken k code m).on (R.ADC_AIN_BROKEN k) = true) ∧
    ((m.adcIn k).inside = 63 → 16 ≤ code → code < 0xFF0 → (inputBroken k code m).on (R.ADC_AIN_BROKEN k) = false) ∧
    (domUp (4 + stn) m = true → m.on R.THM_CTL_EN = false → t0 < m.getI (R.VID_HTLIM_HTSOFT stn) - 31 → t0 < hard - 31 →
      ∃ t, exec (.headTempSample stn) s = .next t ∧ t.mach.getI (R.VID_HT_TEMP stn) = t0 ∧
        t.mach.on (R.VID_STAT_HTSOFT stn) = false ∧ t.mach.on (R.VID_STAT_HTHARD stn) = false ∧
        (t.mach.vidOf stn).headCeil = false ∧ t.mach.sheets = m.sheets ∧ t.mach.flt = m.flt ∧ t.mem = s.mem) ∧
    (headCeilOf m stn ≤ t0 → (m.vidOf stn).headCeil = false → ∃ t, exec (.headTempSample stn) s = .next t ∧
      s.faulted t (vidSrc stn 1) 0x0A 4 ∧ (t.mach.vidOf stn).headCeil = true ∧ t.mem = s.mem) ∧
    (∀ u, (m.hvCh h).above = some u → m.on (R.HV_CFG_FBI h) = true → m.on (R.HV_STAT_OC h) = false →
      u.toNat + 100000 ≤ m.now → ∃ t, exec (.hvSustainedOvercurrent h) s = .next t ∧ s.faulted t (hvSrc h) 0x01 3 ∧
        t.mach.on (R.HV_STAT_OC h) = true ∧ t.mach.get (R.HV_STAT_APPLIED h) = 0 ∧ t.mem = s.mem) ∧
    (m.on R.FUS_CTL_MODE = false →
      (m.fus.zcAt = none → ∃ t, exec .zcEdge s = .next t ∧ t.mach.fus.zcAt = some m.clk.tick ∧ t.mach.fus.zcGood = 0 ∧
        t.mach.regs = m.regs ∧ t.mach.sheets = m.sheets) ∧
      (∀ u, m.fus.zcAt = some u → m.now < u.toNat + 700000 → exec .zcEdge s = .next s) ∧
      (∀ u, m.fus.zcAt = some u → u.toNat + 700000 ≤ m.now → m.now ≤ u.toNat + 1250000 → ∃ t, exec .zcEdge s = .next t ∧
        t.mach.fus.zcAt = some m.clk.tick ∧ t.mach.fus.zcGood = m.fus.zcGood + 1 ∧
        t.mach.get R.FUS_STAT_HALFP = (m.now - u.toNat) / 100 ∧ t.mach.sheets = m.sheets ∧ t.mem = s.mem) ∧
      (∀ u, m.fus.zcAt = some u → u.toNat + 1250000 ≤ m.now → ∃ t, exec .zcLoss s = .next t ∧ s.faulted t 0x1E0 0x01 2 ∧
        t.mach.on R.FUS_STAT_ZCOK = false ∧ t.mach.fus.fireAt = [])) ∧
    (32768 ≤ m.fus.acc.getD z 0 + m.get (R.FUS_APPL_APPLIED z) → m.fus.acc.length = 4 → let c := zoneCross z m
      c.on (R.FUS_APPL_FIRE z) = true ∧
      c.fus.acc.getD z 0 + 32768 = m.fus.acc.getD z 0 + m.get (R.FUS_APPL_APPLIED z) ∧
      tfind z c.fus.fireAt = some (BitVec.ofNat 64 (m.now + 100 * m.get R.FUS_CTL_ZCDLY))) ∧
    (∀ u, tfind z m.fus.fireAt = some u → m.on R.FUS_CTL_EN = true → u.toNat ≤ m.now →
      ∃ t, exec (.fuserGateFire z) s = .next t ∧ bitOf t.mach.fus.gates z = true ∧
        tfind z t.mach.fus.endAt = some (u + BitVec.ofNat 64 (100 * m.get R.FUS_CTL_GATEW)) ∧ t.mach.regs = m.regs) ∧
    (∀ u, tfind z m.fus.endAt = some u → u.toNat ≤ m.now → ∃ t, exec (.fuserGateEnd z) s = .next t ∧
      bitOf t.mach.fus.gates z = false ∧ t.mach.regs = m.regs ∧ t.mach.fus.acc = m.fus.acc) ∧
    (∀ w, ceilingHit m = true → (fusCtlWrite w m).on R.FUS_CTL_EN = false) ∧
    (∀ u, m.thm.grace = some u → u.toNat ≤ m.now → ∃ t, exec .throttleGraceEnd s = .next t ∧
      t.mach.on R.SLU_RSV_TENF = true ∧ t.mach.on R.THM_STAT_GRACERUN = false ∧ t.mach.thm.grace = none ∧ t.mem = s.mem)

/-- R226-R229: a mark frame is armed for a position far enough ahead, or refused; an abandoned frame ends; a window
that closes is judged, and the last one gives the frame's results. Rests on choices of the model: log entries 19, 45.
-/
def Obligations.MarkFrames : Prop :=
  ∀ (q : Requester) (stn x bar : Nat) (stamps codes : List Nat) (v : Word) (s : State), okReq q = true →
    stn < s.mach.nStn → x < 4 → bar < 2 →
    let m := s.mach
    let key := R.ADC_MKCTL_MKEN.key
    let pos : Ppc := BitVec.ofNat 48 (m.get R.ADC_MKPOS_LO_POS + m.get R.ADC_MKPOS_HI_POS * 2 ^ 32)
    let ready : Prop := m.on R.ADC_CTL_EN = true ∧ m.on R.ADC_MKCTL_MKEN = true ∧ markBusy m = false ∧
      4096 ≤ ppcDiff pos.toNat m.ppcNow
    let i := (stn * 4 + x) * 2 + bar
    let edges := barEdges stn (if m.on R.ADC_CTL_EN then stamps.zip codes else []) m
    let bars := tput i (judgeBar m stn bar edges.1 edges.2.1) m.mark.bars
    let stored (w : Word) : Mach := storeFields key w m
    let abandoned (w : Word) : Mach := when ((m.on R.ADC_MKCTL_MKEN && !(stored w).on R.ADC_MKCTL_MKEN) ||
      R.ADC_MKCTL_ABORT.of w = 1) markAbandon (stored w)
    (s.lets q false key →
      exec (.markArm q v) s = .next (s.onMach fun _ => markArm (abandoned (withBits v 1 1 1))) ∧
      (R.ADC_MKCTL_ARM.of v = 0 →
        exec (.markAbort q v) s = .next (s.onMach fun _ => markAbandon (stored (withBits v 2 2 1))))) ∧
    (ready → recsIn (fun st => st == .admitted || st.busy) m = [] → (markArm m).on R.ADC_MKSTAT_ARMED = true ∧
      (markArm m).on R.ADC_MKSTAT_REFUSED = false ∧ (markArm m).mark = { pos := pos, legs := [], bars := [] }) ∧
    (¬ready → markArm m = m.set R.ADC_MKSTAT_REFUSED 1) ∧
    (markBusy m = true → (markAbandon m).on R.ADC_MKSTAT_ABAND = true ∧ markBusy (markAbandon m) = false ∧
      (markAbandon m).mark.legs = []) ∧
    (markBusy m = true → markIncl m stn = true → barAt m stn x bar = none →
      ppcReached m.ppcNow (m.mark.pos + BitVec.ofNat 48 (windowCentre m stn bar + 64 * m.get R.ADC_MKCTL_WIN)).toNat = true →
      (∀ y, y < 5 → ∀ j, j < 8 → markIncl m y = true → y * 8 + j ≠ i → (tfind (y * 8 + j) m.mark.bars).isSome = true) →
      ∃ t, exec (.markWindowClose stn x bar stamps codes) s = .next t ∧ t.mach.mark.bars = bars ∧ markBusy t.mach = false ∧
        t.mach.get R.ADC_MKSTAT_SEQ = (m.get R.ADC_MKSTAT_SEQ + 1) % 256) ∧
    (markBusy m = true → markIncl m stn = true → barAt m stn x bar = none →
      ppcReached m.ppcNow (m.mark.pos + BitVec.ofNat 48 (windowCentre m stn bar + 64 * m.get R.ADC_MKCTL_WIN)).toNat = true →
      (∃ y j, y < 5 ∧ j < 8 ∧ markIncl m y = true ∧ y * 8 + j ≠ i ∧ tfind (y * 8 + j) m.mark.bars = none) →
      ∃ t, exec (.markWindowClose stn x bar stamps codes) s = .next t ∧ t.mach.mark.bars = bars ∧ t.mach.regs = m.regs ∧
        t.mach.sheets = m.sheets) ∧
    (m.on R.ADC_CTL_EN = false → tfind i bars = some none)

/-! ## Feedback, inputs and profiles (chapter 9) -/

/-- R247-R251, R253, R256-R260, R273: what an edge, a standstill, a speed window and an index leave of a quadrature
channel, an SSI frame of its port, and transitions, quiet and filtered edges of an input. Rests on choices of the
model: log entries 3, 9, 44, 45. -/
def Obligations.FeedbackChannels : Prop :=
  ∀ (q : Requester) (ch p i held sub data : Nat) (a b lvl : Bool) (v : Word) (s : State), okReq q = true → ch < 12 →
    p < 4 → i < 48 → sub < 8 →
    let m := s.mach
    let e := m.encOf ch
    let x := m.ssiOf p
    let me := max 1 (min 1000 (m.get (R.FBK_CFG_MINEDGE ch)))
    let en : Prop := m.on (R.FBK_CFG_EN ch) = true
    let valid : Prop := me ≤ held ∧ ∀ t, e.lastAcc = some t → t + 8 * me ≤ 8 * m.now + sub
    let up : Bool := (if e.a != a then a != b else a == b) != m.on (R.FBK_CFG_INV ch)
    let edge := exec (.encEdge ch a b held sub) s
    let index := exec (.encIndex ⟨ch, held⟩) s
    let marked : Prop := me ≤ held ∧ ∀ t, e.lastZ = some t → t + 8 * me ≤ 8 * m.now
    let rise := x.start.toNat + ssiClocks (m.word (R.FBK_SSI_CFG_EN p).key) p
    let chw := 100000 * max 1 (m.get (R.SNS_CFG_CHW i))
    let resting : Prop := ∀ ax, ax < 20 → (m.axis ax).homing = .none ∧ m.on (R.MOT_CFG_LIMEN ax) = false ∧
      m.on (R.MOT_STAT_LIMTRIP ax) = false
    (en → valid → (e.a != a) ≠ (e.b != b) → m.on (R.FBK_CFG_SLEN ch) = false → m.on (R.FBK_CFG_MODE ch) = false →
      homingOn ch m = false → ∃ t, edge = .next t ∧
        t.mach.word (R.FBK_CNT ch).key = m.word (R.FBK_CNT ch).key + (if up then 1 else -1) ∧
        t.mach.word (R.FBK_RPOS ch).key = t.mach.word (R.FBK_CNT ch).key ∧ t.mach.on (R.FBK_STAT_DIR ch) = !up ∧
        t.mach.on (R.FBK_STAT_STILL ch) = false ∧ (t.mach.encOf ch).a = a ∧ (t.mach.encOf ch).b = b ∧
        t.mach.sheets = m.sheets ∧ t.mach.flt = m.flt ∧ t.mem = s.mem) ∧
    (en → (e.a ≠ a ∨ e.b ≠ b) → (¬valid ∨ (e.a ≠ a ∧ e.b ≠ b)) → m.get (R.FBK_SPDCFG_GLTHR ch) = 0 →
      ∃ t, edge = .next t ∧ t.mach.get (R.FBK_STAT_GLITCH ch) = min 255 (m.get (R.FBK_STAT_GLITCH ch) + 1) ∧
        t.mach.word (R.FBK_CNT ch).key = m.word (R.FBK_CNT ch).key ∧ t.mach.flt = m.flt) ∧
    (en → m.on (R.FBK_STAT_METH ch) = false → m.on (R.FBK_STAT_STILL ch) = false →
      e.valid + 8 * (100000 * m.get (R.FBK_SPDCFG_STILL ch)) < 8 * m.now → ∃ t, exec (.encStandstill ch) s = .next t ∧
        t.mach.get (R.FBK_SPD ch) = 0 ∧ t.mach.on (R.FBK_STAT_STILL ch) = true ∧ (t.mach.encOf ch).idxFirst = true ∧
        (t.mach.encOf ch).dirKnown = false ∧
        t.mach.word (R.FBK_CNT ch).key = m.word (R.FBK_CNT ch).key ∧ t.mach.sheets = m.sheets ∧ t.mem = s.mem) ∧
    (let win := max 1 (m.get (R.FBK_SPDCFG_CWIN ch))
      let d := sint 32 (m.word (R.FBK_CNT ch).key - e.winCnt).toNat
      en → e.winAt.toNat + win * 1000 ≤ m.now → m.on (R.FBK_STAT_METH ch) = true →
      ∃ t, exec (.speedWindowEnd ch) s = .next t ∧
        t.mach.get (R.FBK_SPD ch) = uint 32 ((d * 1600000).tdiv win) ∧ (t.mach.encOf ch).winAt = m.clk.tick ∧
        (t.mach.encOf ch).winCnt = m.word (R.FBK_CNT ch).key ∧ t.mach.sheets = m.sheets ∧ t.mem = s.mem) ∧
    (en → e.winAt.toNat + max 1 (m.get (R.FBK_SPDCFG_CWIN ch)) * 1000 ≤ m.now → m.on (R.FBK_STAT_METH ch) = false →
      ∃ t, exec (.speedWindowEnd ch) s = .next t ∧ (t.mach.encOf ch).winAt = m.clk.tick ∧
        (t.mach.encOf ch).winCnt = m.word (R.FBK_CNT ch).key ∧
        t.mach.on (R.FBK_STAT_METH ch) = decide (max (m.get (R.FBK_SPDTHR_VUP ch)) (m.get (R.FBK_SPDTHR_VDN ch) + 1) * 4096 <
          (periodSpeed m ch).natAbs) ∧ t.mach.sheets = m.sheets ∧ t.mem = s.mem) ∧
    (s.lets q false (R.FBK_CFG_EN ch).key → ∃ t, exec (.encModeWrite q ch v) s = .next t ∧
      (t.mach.encOf ch).hyst = 0 ∧
      (t.mach.on (R.FBK_CFG_MODE ch) = false → t.mach.word (R.FBK_RPOS ch).key = t.mach.word (R.FBK_CNT ch).key)) ∧
    (m.on (R.FBK_CFG_ZEN ch) = false → index = .next s) ∧
    (en → m.on (R.FBK_CFG_ZEN ch) = true → ¬ marked → m.get (R.FBK_SPDCFG_GLTHR ch) = 0 → ∃ t, index = .next t ∧
      t.mach.get (R.FBK_STAT_GLITCH ch) = min 255 (m.get (R.FBK_STAT_GLITCH ch) + 1) ∧
      t.mach.word (R.FBK_ICAP ch).key = m.word (R.FBK_ICAP ch).key) ∧
    (en → m.on (R.FBK_CFG_ZEN ch) = true → marked → e.idxFirst = true → m.on (R.FBK_CFG_IZERO ch) = false → resting →
      ∃ t, index = .next t ∧ t.mach.getI (R.FBK_ICAP ch) = m.getI (R.FBK_CNT ch) ∧
        t.mach.word (R.FBK_IDIFF ch).key = m.word (R.FBK_CNT ch).key - m.word (R.FBK_ICAP ch).key ∧
        (t.mach.encOf ch).idxFirst = false ∧ t.mach.get (R.FBK_STAT_IMISS ch) = m.get (R.FBK_STAT_IMISS ch) ∧
        t.mach.flt = m.flt) ∧
    (m.on (R.FBK_SSI_CFG_EN p) = true → x.frame = none → x.ready.toNat ≤ m.now →
      multipleIn (max 1 (m.get R.MOT_CTL_SPER)) 0 x.start.toNat m.now = true →
      ∃ t, exec (.ssiFrameStart p a) s = .next t ∧ (t.mach.ssiOf p).frame = some (!a) ∧
        (t.mach.ssiOf p).start = m.clk.tick ∧ t.mach.regs = m.regs) ∧
    (x.frame = some false → rise ≤ m.now → m.now ≤ rise + 100 * m.get (R.FBK_SSI_MONO p) → m.on (R.FBK_SSI_CFG_ERRBIT p) = false → m.on (R.FBK_SSI_CFG_PAR p) = false →
      m.on (R.FBK_SSI_CFG_GRAY p) = false → ∃ t, exec (.ssiFrameEnd p data a b true) s = .next t ∧
        t.mach.get (R.FBK_SSI_POS p) = data % 2 ^ (m.get (R.FBK_SSI_CFG_NBITS p) + 1) ∧
        t.mach.on (R.FBK_SSI_STAT_VALID p) = true ∧ (t.mach.ssiOf p).frame = none ∧ t.mach.flt = m.flt) ∧
    (x.frame = some true → rise + 100 * m.get (R.FBK_SSI_MONO p) ≤ m.now → x.bad ≠ 2 →
      ∃ t, exec (.ssiFrameEnd p data a b lvl) s = .next t ∧ t.mach.on (R.FBK_SSI_STAT_VALID p) = false ∧
        t.mach.get (R.FBK_SSI_STAT_ERRS p) = min 255 (m.get (R.FBK_SSI_STAT_ERRS p) + 1) ∧
        t.mach.get (R.FBK_SSI_POS p) = m.get (R.FBK_SSI_POS p) ∧ (t.mach.ssiOf p).frame = none ∧ t.mach.sheets = m.sheets) ∧
    (m.on R.SNS_CTL_EN = true → m.on (R.SNS_STAT_RAW i) ≠ lvl → filteredEdge i m = none →
      ((m.snsOf i).trans.length < max 1 (m.get (R.SNS_CFG_CHN i)) → ∃ t, exec (.snsRawTransition i lvl) s = .next t ∧
        t.mach.on (R.SNS_STAT_RAW i) = lvl ∧ (t.mach.snsOf i).tick = m.clk.tick ∧ (t.mach.snsOf i).ppc = m.clk.ppc ∧
        t.mach.on (R.SNS_STAT_LVL i) = m.on (R.SNS_STAT_LVL i) ∧ t.mach.flt = m.flt ∧ t.mem = s.mem) ∧
      ((m.snsOf i).trans.length = max 1 (m.get (R.SNS_CFG_CHN i)) → (∀ u ∈ (m.snsOf i).trans, m.now < u + chw) →
        m.on (R.SNS_STAT_CHAT i) = false → resting → ∃ t, exec (.snsRawTransition i lvl) s = .next t ∧
        t.mach.on (R.SNS_STAT_RAW i) = lvl ∧ t.mach.on (R.SNS_STAT_CHAT i) = true ∧ t.mach.sheets = m.sheets)) ∧
    (m.on (R.SNS_STAT_CHAT i) = true → (m.snsOf i).raw.toNat + chw ≤ m.now → ∃ t, exec (.chatterEnd i) s = .next t ∧
      t.mach.on (R.SNS_STAT_CHAT i) = false ∧ t.mach.on (R.SNS_STAT_LVL i) = m.on (R.SNS_STAT_LVL i) ∧
      t.mach.sheets = m.sheets ∧ t.mem = s.mem) ∧
    (∀ ed m', filteredEdge i m = some (ed, m') → ed.lvl = snsInput i m ∧ m'.on (R.SNS_STAT_LVL i) = ed.lvl ∧
      exec (.sensorEdge i) s = .next (s.onMach fun _ => axesEdge ed (if m'.on R.SLU_CTL_EN then watchesEdge ed m' else m')) ∧
      (m.on R.SLU_CTL_EN = false → resting → ∃ t, exec (.sensorEdge i) s = .next t ∧
        t.mach.on (R.SNS_STAT_LVL i) = snsInput i m ∧ t.mach.sheets = m.sheets ∧ t.mach.flt = m.flt ∧ t.mem = s.mem)) ∧
    (s.lets q false R.SNS_CTL_EN.key → m.pend = [] → m.on R.SNS_CTL_EN = false → R.SNS_CTL_EN.of v = 1 →
      ∃ t, exec (.snsCtlWrite q v) s = .next t ∧ t.mach.on R.SNS_CTL_EN = true ∧
        (t.mach.snsOf i).tick = m.clk.tick ∧ (t.mach.snsOf i).ppc = m.clk.ppc ∧ (t.mach.snsOf i).trans = [] ∧
        (t.mach.snsOf i).raw = (m.snsOf i).raw ∧ t.mach.sheets = m.sheets)

/-- R261-R266: a GO starts its segment at once or makes it wait for a start time, an undefined MODE and a GO during a
quick-stop start none, rates act on the segment in progress, and no period of a profile overshoots its goal. Rests on
choices of the model: log entries 9, 20, 44, 45. -/
def Obligations.ProfileSegments : Prop :=
  ∀ (q : Requester) (a mode : Nat) (v : Word) (tgt : Int) (s : State), okReq q = true → a < 20 →
    let m := s.mach
    let x := m.axis a
    let phase (k : Nat) : Nat := if k < 3 then 1 else k
    let target := m.getI (R.MOT_TARGET a) * 65536
    let want (k : Nat) : Int := if k = 1 then x.pos + target else target
    let go : List (Nat × Instr) := [(0, .segmentMove q a v), (1, .segmentMoveRelative q a v), (2, .segmentRun q a v),
      (3, .segmentDecelerate q a v), (4, .segmentQuickStop q a v), (5, .segmentHome q a v)]
    let stored (k : Nat) : Mach :=
      storeFields (R.MOT_CMD_MODE a).key (withBits (withBits v 2 0 k) 4 4 1) m
    (s.lets q false (R.MOT_CMD_MODE a).key → m.pend = [] →
      (m.get (R.MOT_STAT_PHASE a) ≠ 4 → ∀ g ∈ go,
        (bitOf v.toNat 3 = false → ∃ t, exec g.2 s = .next t ∧ (t.mach.axis a).mode = g.1 ∧
          (t.mach.axis a).tgt = want g.1 ∧ (t.mach.axis a).vmax = m.get (R.MOT_VMAX a) ∧
          (t.mach.axis a).acc = m.get (R.MOT_ACC a) ∧
          (t.mach.axis a).dec = (if g.1 = 4 then max (m.get (R.MOT_QDEC a)) (m.get (R.MOT_DEC a)) else m.get (R.MOT_DEC a)) ∧
          (g.1 = 2 → (t.mach.axis a).sgn = (m.getI (R.MOT_TARGET a)).sign) ∧
          t.mach.get (R.MOT_STAT_PHASE a) = phase g.1 ∧ t.mach.on (R.MOT_STAT_PEND a) = false ∧ t.mem = s.mem) ∧
        (bitOf v.toNat 3 = true → ∃ t, exec g.2 s = .next t ∧ (t.mach.axis a).pend = some (g.1, want g.1) ∧
          t.mach.on (R.MOT_STAT_PEND a) = true ∧ (t.mach.axis a).mode = x.mode ∧
          t.mach.get (R.MOT_STAT_PHASE a) = m.get (R.MOT_STAT_PHASE a))) ∧
      (m.get (R.MOT_STAT_PHASE a) = 4 → ∀ g ∈ go, exec g.2 s = .next (s.onMach fun _ => note (axisSrc a) 0x05 0 (stored g.1)))) ∧
    (s.lets q false (R.MOT_CMD_MODE a).key → (mode = 6 ∨ mode = 7) →
      exec (.segmentUndefined q a mode v) s = .next (s.onMach fun _ => note (axisSrc a) 0x05 0 (stored mode))) ∧
    (∀ u, x.pend = some (mode, tgt) → mode < 6 → startTime a m = some u → u.toNat ≤ m.now →
      m.get (R.MOT_STAT_PHASE a) ≠ 4 → ∃ t, exec (.segmentDelayedStart a) s = .next t ∧ (t.mach.axis a).mode = mode ∧
        (t.mach.axis a).tgt = tgt ∧ (t.mach.axis a).last = u ∧ (t.mach.axis a).pend = none ∧
        t.mach.get (R.MOT_STAT_PHASE a) = phase mode ∧ t.mach.on (R.MOT_STAT_PEND a) = false ∧ t.mem = s.mem) ∧
    (let key := [(R.MOT_VMAX a).key, (R.MOT_ACC a).key].getD mode 0;
      mode < 2 → s.lets q false key → x.mode = 2 → m.get (R.MOT_STAT_PHASE a) = 2 →
      ∃ t, exec (.profileRateWrite q a mode v) s = .next t ∧ (mode = 0 → (t.mach.axis a).vmax = v.toNat) ∧
        (mode = 1 → (t.mach.axis a).acc = v.toNat) ∧ (t.mach.axis a).pos = x.pos ∧ (t.mach.axis a).dec = x.dec) ∧
    (m.on R.MOT_CTL_EN = true → multipleIn (max 1 (m.get R.MOT_CTL_SPER)) 0 m.mot.period.toNat m.now = true →
      m.mot.stopDue = false →
      exec .servoPeriod s = .next (s.onMach fun m => each ((List.range 20).filter fun a => m.on (R.MOT_CFG_EN a)) axisPeriod
        { m with mot := { m.mot with stopDue := false, period := m.clk.tick } })) ∧
    (∀ (goal p w : Int) (acc dec dt : Nat) (up : Bool), let r := runStep goal acc dec dt up p w
      min w goal ≤ r.2.1 ∧ r.2.1 ≤ max w goal)

/-! ## Motor drives and braking (chapter 10) -/

/-- R278, R281, R283-R288: a polygon drive is enabled into ALIGN (or, with Hall sensors, RUN) and disabled into OFF,
goes through ALIGN and RAMP, commutates on crossings and Hall edges, and leaves RUN for a lost rotor or a peak
current; dead time keeps the two switches of a leg apart however its drive changes. Rests on choices of the model: log
entries 9, 34, 45. -/
def Obligations.PolygonDrives : Prop :=
  ∀ (q : Requester) (n phase sub code d per dt : Nat) (rising start : Bool) (modes : List LegMode) (w : Word) (s : State),
    okReq q = true → n < s.mach.nStn → phase < 3 → sub < 8 → code < 8 →
    let m := s.mach
    let p := m.polyOf n
    let st := m.get (R.POLY_STAT_STATE n)
    let t60 := m.get (R.POLY_T60 n)
    let state (t : State) : Nat := t.mach.get (R.POLY_STAT_STATE n)
    let i := shuntMa (shuntOf m n).2 (m.get (R.POLY_ILIM_ISC n)) - shuntMa (shuntOf m n).1 (m.get (R.POLY_ILIM_ISC n))
    let hall : Bool := (R.POLY_CFG_SENSE n).of w = 1
    let crosses : Prop := m.on (R.POLY_CFG_SENSE n) = false ∧ floating m n = (phase, rising)
    let crossing := exec (.bemfCrossing n phase rising sub) s
    let apart (g : GateSet) : Prop := ∀ l ∈ g.legs, ∀ h ∈ l.hi, ∀ k ∈ l.lo, h.2 + dt ≤ k.1 ∨ k.2 + dt ≤ h.1
    (s.lets q false (R.POLY_CFG_EN n).key → m.pend = [] →
      (m.on (R.POLY_CFG_EN n) = false → driveHeld n m = false → ∃ t, exec (.polyEnable q n w) s = .next t ∧
        t.mach.on (R.POLY_CFG_EN n) = true ∧ state t = (if hall then 3 else 1) ∧
        t.mach.get (R.POLY_STAT_STEP n) = (if hall then (hallStep p.hall).getD 0 else 0) ∧
        (t.mach.polyOf n).since = m.clk.tick ∧ t.mach.sheets = m.sheets ∧ t.mem = s.mem) ∧
      (m.on (R.POLY_CFG_EN n) = true → stationBusy n m = false → driveHeld n m = false →
        m.on (R.POLY_STAT_SWB n) = false → st ≠ 0 → ∃ t, exec (.polyDisable q n w) s = .next t ∧ t.mach.on (R.POLY_CFG_EN n) = false ∧ state t = 0 ∧
          t.mach.get (R.POLY_MEAS_DUTY n) = 0 ∧ t.mem = s.mem) ∧
      (m.on (R.POLY_CFG_EN n) = true → stationBusy n m = true →
        exec (.polyDisable q n w) s = .next (s.onMach (ignored (R.POLY_CFG_EN n).key)))) ∧
    (st = 1 → p.since.toNat + 100000 * m.get (R.POLY_STARTA_ALIGNT n) ≤ m.now → ∃ t, exec (.polyAlignEnd n) s = .next t ∧
      state t = 2 ∧ (t.mach.polyOf n).since = m.clk.tick ∧ (t.mach.polyOf n).steps = 0 ∧ t.mach.sheets = m.sheets) ∧
    (st = 2 → p.since.toNat + 100000 * m.get (R.POLY_STARTB_RAMPT n) ≤ m.now → ∃ t, exec (.polyRampEnd n) s = .next t ∧
      state t = 6 ∧ s.faulted t (polySrc n) 0x01 2 ∧ t.mach.get (R.POLY_MEAS_DUTY n) = 0 ∧ t.mem = s.mem) ∧
    ((st = 2 ∨ st = 3) → crosses → crossingStamp m n (m.now * 8 + sub) = none → crossing = .next s) ∧
    (∀ x, st = 3 → crosses → crossingStamp m n (m.now * 8 + sub) = some x → p.last = none → ∃ t, crossing = .next t ∧
      (t.mach.polyOf n).last = some x ∧ (t.mach.polyOf n).comDue = some (x + t60 * (128 - advanceOf m n) / 256) ∧
      t.mach.regs = m.regs ∧ t.mem = s.mem) ∧
    (∀ x l, st = 2 → crosses → crossingStamp m n (m.now * 8 + sub) = some x → p.last = some l → t60 ≠ 0 →
      t60 ≤ 2 * (x - l) → x - l ≤ 2 * t60 → ∃ t, crossing = .next t ∧ (t.mach.polyOf n).last = some x ∧
        t.mach.get (R.POLY_T60 n) = min (x - l) 0xFFFFFF ∧
        state t = (if max 1 (m.get (R.POLY_STARTB_ZCN n)) ≤ p.good + 1 then 3 else 2) ∧ t.mach.flt = m.flt ∧ t.mem = s.mem) ∧
    (∀ k, st = 3 → m.on (R.POLY_CFG_SENSE n) = true → hallStep code = some k → p.last = none →
      ∃ t, exec (.hallEdge n code) s = .next t ∧ t.mach.get (R.POLY_STAT_STEP n) = k ∧
        (t.mach.polyOf n).last = some (m.now * 8) ∧ (t.mach.polyOf n).hall = code ∧ state t = 3 ∧ t.mach.sheets = m.sheets ∧ t.mem = s.mem) ∧
    (∀ d, st = 3 → p.comDue = some d → d ≤ m.now * 8 → ∃ t, exec (.polyCommutate n) s = .next t ∧
      t.mach.get (R.POLY_STAT_STEP n) = nextStep m n (m.get (R.POLY_STAT_STEP n)) ∧ (t.mach.polyOf n).comDue = none ∧
      (t.mach.polyOf n).comAt = m.now * 8 ∧ state t = 3 ∧ t.mach.flt = m.flt ∧ t.mem = s.mem) ∧
    (∀ l, st = 3 → m.on (R.POLY_CFG_SENSE n) = false → p.last = some l → p.refAt + 2 * t60 ≤ m.now * 8 →
      p.bad + 1 < m.get (R.POLY_CATCH_LOSTN n) → ∃ t, exec (.polyStepTimeout n) s = .next t ∧
        (t.mach.polyOf n).bad = p.bad + 1 ∧ (t.mach.polyOf n).last = some l ∧ t.mach.regs = m.regs ∧ t.mach.flt = m.flt) ∧
    (st = 4 → p.since.toNat + 100000 * m.get (R.POLY_CATCH_CATCHT n) ≤ m.now →
      ∃ t, exec (.polyCatchTimeout n) s = .next t ∧ state t = 5 ∧ t.mach.on (R.POLY_STAT_SWB n) = true ∧
        t.mach.on R.SRV_BRKSTAT_SWB = true ∧ t.mem = s.mem) ∧
    (m.on (R.POLY_CFG_EN n) = true → (st = 1 ∨ st = 2 ∨ st = 3) →
      (i ≤ (guard16 m (0x116 + 16 * n) : Int) → ∃ t, exec (.polyPwmPeriod n) s = .next t ∧
        t.mach.getI (R.POLY_MEAS_I n) = clampI (-32768) 32767 i ∧ (t.mach.polyOf n).peak = 0 ∧ state t = st ∧
        t.mach.flt = m.flt ∧ t.mach.sheets = m.sheets) ∧
      ((guard16 m (0x116 + 16 * n) : Int) < i → 1 ≤ p.peak → ∃ t, exec (.polyPwmPeriod n) s = .next t ∧ state t = 6 ∧
        s.faulted t (polySrc n) 0x05 3 ∧ t.mem = s.mem)) ∧
    (apart (m.gatesOf d) → apart ((driveGates d per dt start modes m).gatesOf d)) ∧
    (∀ leg, leg < 3 → apart (m.gatesOf d) → legLevels m d leg ≠ (true, true))

/-- R290, R291, R294, R295, R297, R298: a servo axis and a stepper axis measure and regulate each PWM period and stop
on two periods above the peak limit; a stepper at rest goes over to its holding current; the brake chopper's checks.
Rests on choices of the model: log entries 9, 34, 45. -/
def Obligations.AxisDrivesAndChopper : Prop :=
  ∀ (n : Nat) (s : State),
    let m := s.mach
    let pk := 3 * guard16 m (0x162 + 4 * n)
    let (u, v, w) := srvPhases m n
    let (iq, id_, _) := srvPark m n (srvAngle m n)
    let within (x lim : Nat) : Prop := x ≤ lim
    let isc := m.get (R.STP_CFG_ISC n)
    let ia := shuntMa (shuntOf m (29 + 2 * n)).1 isc
    let ib := shuntMa (shuntOf m (30 + 2 * n)).1 isc
    let spk := guard16 m (0x182 + 4 * n)
    let c := (m.stpOf n).chopA
    let bi := shuntMa (shuntOf m 53).1 (m.get R.SRV_BRKCHK_BISC)
    (n < 8 → m.on (R.SRV_CFG_EN n) = true → driveHeld (32 + n) m = false → m.on (R.SRV_STAT_OC n) = false →
      m.on (R.SRV_STAT_SWB n) = false →
      (within u.natAbs pk → within v.natAbs pk → within w.natAbs pk → ∃ t, exec (.servoPwmPeriod n) s = .next t ∧
        t.mach.getI (R.SRV_MEAS_IQ n) = clampI (-32768) 32767 iq ∧
        t.mach.getI (R.SRV_MEAS_ID n) = clampI (-32768) 32767 id_ ∧ (t.mach.srvOf n).peak = 0 ∧
        (∀ d ∈ (t.mach.srvOf n).duty, 0 ≤ d ∧ d ≤ 65536) ∧ t.mach.on (R.SRV_STAT_OC n) = false ∧ t.mem = s.mem) ∧
      ((pk < u.natAbs ∨ pk < v.natAbs ∨ pk < w.natAbs) → 1 ≤ (m.srvOf n).peak →
        ∃ t, exec (.servoPwmPeriod n) s = .next t ∧ s.faulted t (srvSrc n) 0x01 3 ∧ t.mach.on (R.SRV_STAT_OC n) = true ∧
          (t.mach.srvOf n).duty = [0, 0, 0] ∧ t.mem = s.mem)) ∧
    (n < 12 → m.on (R.STP_CFG_EN n) = true → driveHeld (64 + n) m = false → m.on (R.STP_STAT_OC n) = false →
      m.on (R.STP_STAT_SWB n) = false →
      (within ia.natAbs spk → within ib.natAbs spk → ∃ t, exec (.stepperPwmPeriod n) s = .next t ∧
        t.mach.getI (R.STP_MEAS_IA n) = clampI (-32768) 32767 ia ∧
        t.mach.getI (R.STP_MEAS_IB n) = clampI (-32768) 32767 ib ∧ (t.mach.stpOf n).peak = 0 ∧
        t.mem = s.mem ∧
        (m.on (R.STP_STAT_STRONG n) = false →
          (t.mach.stpOf n).outA.natAbs ≤ 65536 ∧ (t.mach.stpOf n).outB.natAbs ≤ 65536) ∧
        (m.on (R.STP_STAT_STRONG n) = true → m.now < c.since.toNat + (if c.on then m.get (R.STP_STRG_BLANKS n)
          else 10 * m.get (R.STP_STRG_TOFF n)) → (t.mach.stpOf n).chopA = c)) ∧
      ((spk < ia.natAbs ∨ spk < ib.natAbs) → 1 ≤ (m.stpOf n).peak → ∃ t, exec (.stepperPwmPeriod n) s = .next t ∧
        s.faulted t (stpSrc n) 0x01 3 ∧ t.mach.on (R.STP_STAT_OC n) = true ∧ t.mach.stpOf n = { clampAt := (m.stpOf n).clampAt, holdAt := (m.stpOf n).holdAt } ∧ t.mem = s.mem)) ∧
    (n < 12 → m.on (R.STP_CFG_EN n) = true → m.get (R.MOT_STAT_PHASE (8 + n)) = 0 → m.on (R.STP_STAT_HOLDING n) = false →
      (m.axis (8 + n)).restAt.toNat + 100000 * m.get (R.STP_HOLD_HOLDT n) ≤ m.now →
      ∃ t, exec (.stepperHoldTimeout n) s = .next t ∧ t.mach.on (R.STP_STAT_HOLDING n) = true ∧
        (t.mach.stpOf n).holdAt = m.clk.tick ∧ t.mach.sheets = m.sheets ∧ t.mach.flt = m.flt ∧ t.mem = s.mem) ∧
    (m.on R.SRV_BRKSTAT_ON = true → m.drv.brkCur = true → m.drv.brkAt.toNat + 2000 ≤ m.now →
      ((m.get R.SRV_BRKCHK_IMIN * 50 : Int) < bi → ∃ t, exec .chopperCurrentCheck s = .next t ∧ t.mach.drv.brkCur = false ∧
        t.mach.regs = m.regs ∧ t.mach.flt = m.flt) ∧
      (bi ≤ (m.get R.SRV_BRKCHK_IMIN * 50 : Int) → ∃ t, exec .chopperCurrentCheck s = .next t ∧
        s.faulted t 0x1B8 0x03 3 ∧ t.mach.on R.SRV_BRKSTAT_FAIL = true ∧ t.mem = s.mem)) ∧
    (m.on R.SRV_BRKSTAT_ON = true → m.drv.brkRise = true →
      m.drv.brkAt.toNat + 1000 * max 1 (m.get R.SRV_BRKCHK_TRISE) ≤ m.now →
      (m.get R.SRV_BRKSTAT_VBUS ≤ m.drv.brkV + 50 → exec .chopperRiseCheck s = .next s) ∧
      (m.drv.brkV + 50 < m.get R.SRV_BRKSTAT_VBUS → ∃ t, exec .chopperRiseCheck s = .next t ∧
        s.faulted t 0x1B8 0x03 3 ∧ t.mach.on R.SRV_BRKSTAT_FAIL = true ∧ t.mem = s.mem))

/-! ## DRAM, rings, translation, DMA and the host link (chapter 11) -/

/-- R307-R314, R331-R334: the DRAM controller is enabled at a rate that MEMPLL runs at, trains, refreshes, polls and
retrains, and chooses the next request of a channel; the endpoint's link, resets, power states and vectors; and the
host's window on DRAM. Rests on choices of the model: log entries 9, 42, 46. -/
def Obligations.DramAndEndpoint : Prop :=
  ∀ (q : Requester) (video : Bool) (v w : Word) (derate drift gen width vec off lanes : Nat) (s : State), okReq q = true → derate < 4 →
    vec < 64 → lanes < 16 → off < 65536 →
    let m := s.mach
    let key := R.DRC_CFG_EN.key
    let rate := rateOf (R.DRC_CFG_RATE.of v)
    let fits : Prop := m.on (R.CLK_SYN_STAT_LOCK 1) = true ∧ rate ≠ 0 ∧ R.DRC_CFG_DENS.of v ≠ 3 ∧ rateFits m rate = true
    let en : Prop := m.on R.DRC_CFG_EN = true
    let a := m.get R.PCIE_B4BASE_BASE * 2 ^ 28 + off / 4 * 4
    let pba := (R.DMA_MSIXP_PBA (vec / 32)).key
    let bit : Word := BitVec.ofNat 32 (2 ^ (vec % 32))
    (s.lets q false key → m.on R.DRC_CFG_EN = false →
      (fits → m.pend = [] → ∃ t, exec (.dramEnable q v) s = .next t ∧ t.mach.on R.DRC_CFG_EN = true ∧
        t.mach.get R.DRC_CFG_RATE = R.DRC_CFG_RATE.of v ∧ t.mach.on R.DRC_STAT_TRAINED = false ∧ t.mem = s.mem) ∧
      (¬fits → exec (.dramEnable q v) s = .next (s.onMach (ignored key)))) ∧
    (en → m.on R.DRC_STAT_TRAINED = false → m.on (R.CLK_SYN_STAT_LOCK 1) = true → domUp 9 m = true →
      (∃ t, exec (.dramTrainingDone true) s = .next t ∧ t.mach.on R.DRC_STAT_TRAINED = true ∧
        t.mach.on R.DRC_STAT_SELFREF = false ∧ dramHeld t.mach = false ∧ t.mach.flt = m.flt ∧ t.mem = s.mem) ∧
      (∃ t, exec (.dramTrainingDone false) s = .next t ∧ t.mach.on R.DRC_CFG_EN = false ∧ s.faulted t 0x0A0 0x03 3)) ∧
    (en → m.on R.DRC_STAT_SELFREF = false → m.dram.refAt + refreshEvery m ≤ m.now * 40 →
      (imagingClass m = false ∨ (videoQueued m || video) = false → ∃ t, exec (.refreshDue video) s = .next t ∧
        t.mach.get R.DRC_REFSTAT_OWED = 0 ∧ t.mach.dram.ch0.rows = [] ∧ t.mach.dram.ch1.rows = [] ∧
        t.mach.sheets = m.sheets) ∧
      (imagingClass m = true → (videoQueued m || video) = true → m.get R.DRC_REFSTAT_OWED < 8 →
        ∃ t, exec (.refreshDue video) s = .next t ∧ t.mach.get R.DRC_REFSTAT_OWED = m.get R.DRC_REFSTAT_OWED + 1 ∧
        t.mach.get R.DRC_REFSTAT_FORCED = m.get R.DRC_REFSTAT_FORCED ∧ t.mach.dram.refAt = m.dram.refAt + refreshEvery m) ∧
      (imagingClass m = true → (videoQueued m || video) = true → 8 ≤ m.get R.DRC_REFSTAT_OWED →
        ∃ t, exec (.refreshDue video) s = .next t ∧ t.mach.get R.DRC_REFSTAT_OWED = m.get R.DRC_REFSTAT_OWED ∧
        t.mach.dram.ch0.rows = [] ∧ t.mach.dram.ch1.rows = [])) ∧
    (∀ (x : DramChan) (i : Nat) (r : DramReq), x.queue[i]? = some r →
      let overdue (r : DramReq) : Bool := r.video &&
        decide (m.get R.DRC_SCHED_VCAP ≤ Config.dramCycles (m.get R.DRC_CFG_RATE) (m.now - r.at_.toNat))
      (i = nextRequest m x → (x.queue.any overdue = true → overdue r = true) ∧
        (x.queue.any overdue = false → x.hits < m.get R.DRC_SCHED_RHMAX → x.queue.any x.hit = true → x.hit r = true) ∧
        (x.queue.any overdue = false → m.get R.DRC_SCHED_RHMAX ≤ x.hits → i = 0)) ∧
      (x.serve i).queue.length + 1 = x.queue.length ∧ (r.opn = true → tfind r.bank (x.serve i).rows = some r.row) ∧
      (r.opn = false → (x.rows.map (·.1)).Nodup → tfind r.bank (x.serve i).rows = none)) ∧
    (en → m.dram.mr4At.toNat + 1600000 ≤ m.now → ∃ t, exec (.mr4Poll derate) s = .next t ∧
      t.mach.get R.DRC_REF_DERATE = derate ∧ t.mach.get R.DRC_REF_INT = m.get R.DRC_REF_INT ∧ t.mem = s.mem) ∧
    (en → m.on R.DRC_STAT_TRAINED = true → m.get R.DRC_TRN_RTPER ≠ 0 →
      m.dram.oscAt.toNat + 100000 * m.get R.DRC_TRN_RTPER ≤ m.now → ∃ t, exec (.dqsOscCheck drift) s = .next t ∧
        t.mach.on R.DRC_STAT_RTDUE = (m.on R.DRC_STAT_RTDUE || decide (m.get R.DRC_TRN_RTDRIFT < drift)) ∧
        t.mach.dram.oscAt = m.clk.tick ∧ t.mach.sheets = m.sheets) ∧
    (m.on R.DRC_STAT_RTDUE = true → m.dram.retrain = false →
      (((m.vidOf 0).gap = true ∨ (m.vidOf 0).stamps = []) → feedersAhead m = true →
        ∃ t, exec .retrainStart s = .next t ∧ dramHeld t.mach = true ∧ t.mach.regs = m.regs ∧ t.mem = s.mem) ∧
      (m.dram.lateSent = false → m.dram.dueAt.toNat + 100000 * m.get R.DRC_TRN_RTWAIT ≤ m.now →
        exec .retrainLate s = .next (s.onMach fun m =>
          note 0x0A0 0x04 0 { m with dram := { m.dram with lateSent := true } }))) ∧
    (m.dram.retrain = true → ∃ t, exec .retrainDone s = .next t ∧ t.mach.on R.DRC_STAT_RTDUE = false ∧
      t.mach.dram.retrain = false ∧ t.mach.sheets = m.sheets ∧ t.mem = s.mem) ∧
    (hostReach m = true → m.hif.reqs = [] → ∃ t, exec .functionLevelReset s = .next t ∧
      t.mach.get R.PCIE_LINK_FLR = min 255 (m.get R.PCIE_LINK_FLR + 1) ∧ t.mach.hif.tlb = [] ∧
      (∀ k, k < 64 → t.mach.word (R.DMA_MSIXT_MASK k).key = rstWord (R.DMA_MSIXT_MASK k).key) ∧
      (∀ r, r < 32 → m.get (R.RING_CFG_PSIDE r) = 1 ∨ m.get (R.RING_CFG_CSIDE r) = 1 → t.mach.on (R.RING_CFG_EN r) = false) ∧
      t.mach.sheets = m.sheets ∧ t.mem = s.mem) ∧
    (∃ t, exec (.pciePerst false) s = .next t ∧ t.mach.hif.perst = false ∧ t.mach.regs = m.regs ∧ t.mem = s.mem) ∧
    (m.hif.perst = false → m.hif.reqs = [] → ∃ t, exec (.pciePerst true) s = .next t ∧ t.mach.hif.perst = true ∧
      t.mach.on R.PCIE_LINK_UP = false ∧ hostReach t.mach = false ∧ t.mem = s.mem) ∧
    (domUp 10 m = true → m.on R.PCIE_CFG_LINKEN = true → m.hif.perst = false → 1 ≤ gen → gen ≤ m.get R.PCIE_CFG_MAXGEN →
      (width = 1 ∨ width = 2 ∨ width = 4) → ∃ t, exec (.pcieLinkChange true gen width) s = .next t ∧
        t.mach.on R.PCIE_LINK_UP = true ∧ t.mach.get R.PCIE_LINK_GEN = gen ∧ t.mach.get R.PCIE_LINK_WIDTH = width ∧
        t.mach.hif.bar4 = some (m.hif.bar4.getD (m.on R.PCIE_CFG_B4EN)) ∧ t.mem = s.mem) ∧
    (hostReach m = true → (m.word pba &&& bit = 0 → ∃ t, exec (.msixUnmask vec) s = .next t ∧
        t.mach.on (R.DMA_MSIXT_MASK vec) = false ∧ t.mach.sent = m.sent ∧ t.mem = s.mem) ∧
      (m.word pba &&& bit ≠ 0 → ∃ t, exec (.msixUnmask vec) s = .next t ∧ t.mach.on (R.DMA_MSIXT_MASK vec) = false ∧
        t.mach.sent = m.sent ++ [.msix vec] ∧ t.mach.word pba = m.word pba &&& ~~~bit)) ∧
    (domUp 10 m = true → m.hif.perst = false → ∀ d3, ∃ t, exec (.pciePowerState d3) s = .next t ∧
      t.mach.on R.PCIE_LINK_D3 = d3 ∧ t.mach.on R.PCIE_LINK_UP = m.on R.PCIE_LINK_UP ∧ t.mach.sheets = m.sheets) ∧
    (hostReach m = true → m.hif.bar4 = some true → dramHeld m = false → domUp 9 m = true → 0x0400000000 ≤ a →
      a < 0x0400000000 + dramMib m * 2 ^ 20 →
      (∃ t, exec (.bar4Access none lanes off .clean) s = .next t ∧ tget 0 36 t.mach.reply = s.mem.rdWord a ∧
        t.mach.regs = m.regs ∧ t.mem = s.mem) ∧
      (s.memOk → ∃ t, exec (.bar4Access (some w) lanes off .clean) s = .next t ∧
        t.mach = dramAsk false false a 4 m ∧ t.mach.regs = m.regs ∧ (∀ i, i < 4 → t.mem.rd (a + i) =
          if bitOf lanes i then BitVec.ofNat 8 (w.toNat / 2 ^ (8 * i)) else s.mem.rd (a + i)) ∧
        (∀ x, (x < a ∨ a + 4 ≤ x) → t.mem.rd x = s.mem.rd x))) ∧
    (hostReach m = true → exec (.bar2Write off) s = .next (s.onMach (note 0x060 0x3C (0x00307F0000 + off))))

/-- R48, R315, R316, R318, R327-R330: rings are enabled, advanced and signalled; a table walk fills the IOTLB, a page
request is posted, answered and walked again, pages are invalidated; and a status frame goes out through the DATU.
Rests on choices of the model: log entries 24, 26, 36. -/
def Obligations.RingsAndTranslation : Prop :=
  ∀ (q : Requester) (r n : Nat) (v : Word) (s : State), okReq q = true → r < 32 → (q = .host → hostReach s.mach = true) →
    let m := s.mach
    let key := (R.RING_CFG_EN r).key
    let moved (f : FRef) : Prop := (v.toNat + 2 ^ 32 - m.get f) % 2 ^ 32 < 2 ^ 31 ∧
      ringCount (m.set f v.toNat) r ≤ ringSize m r
    let page := R.DATU_INVPAGE_PAGE.of v
    (s.lets q false key → m.on (R.RING_CFG_EN r) = false →
      (ringOk m r (withBits v 0 0 1) = true → m.pend = [] → ∃ t, exec (.ringEnable q r v) s = .next t ∧
        t.mach.on (R.RING_CFG_EN r) = true ∧ t.mach.get (R.RING_PIDX r) = 0 ∧ t.mach.get (R.RING_CIDX r) = 0 ∧
        t.mach.on (R.RING_STAT_XLATE r) = false ∧ t.mem = s.mem) ∧
      (ringOk m r (withBits v 0 0 1) = false → exec (.ringEnable q r v) s = .next (s.onMach (ignored key)))) ∧
    (hostReach m = true → s.lets .host false (R.RING_PIDX r).key →
      (m.get (R.RING_CFG_PSIDE r) = 1 → moved (R.RING_PIDX r) → ∃ t, exec (.ringProducerDoorbell r v) s = .next t ∧
        t.mach.get (R.RING_PIDX r) = v.toNat ∧ t.mach.get (R.RING_CIDX r) = m.get (R.RING_CIDX r) ∧ t.mem = s.mem) ∧
      ((m.get (R.RING_CFG_PSIDE r) ≠ 1 ∨ ¬moved (R.RING_PIDX r)) →
        exec (.ringProducerDoorbell r v) s = .next (s.onMach (badIndex r (R.RING_PIDX r).key)))) ∧
    (hostReach m = true → s.lets .host false (R.RING_CIDX r).key → m.get (R.RING_CFG_CSIDE r) = 1 →
      moved (R.RING_CIDX r) → ∃ t, exec (.ringConsumerIndex r v) s = .next t ∧
        t.mach.get (R.RING_CIDX r) = v.toNat ∧ t.mach.get (R.RING_PIDX r) = m.get (R.RING_PIDX r) ∧ t.mem = s.mem) ∧
    (∀ x, tfind r m.hif.rings = some x → m.get (R.RING_MOD_ITIME r) ≠ 0 → m.on (R.RING_CFG_IRQEN r) = true →
      x.since.toNat + 100 * m.get (R.RING_MOD_ITIME r) ≤ m.now →
      exec (.ringIrqTimer r) s = .next (s.onMach (ringSignal r))) ∧
    (∀ k w : Nat, ∀ wk : Walk, n < 27 → m.hif.walks.find? (·.req == n) = some wk → w = wk.addr - hostWindow → k = w / 4096 →
      xlatAbort m w = false → wk.inval = false →
      (∀ x, tableWalk m s.mem w = some x → x.allows wk.wr = true → ∃ t, exec (.datuWalkDone n false) s = .next t ∧
        tlbFind t.mach k = some x ∧ t.mach.hif.walks = m.hif.walks.filter (·.req != n) ∧ t.mem = s.mem) ∧
      (tableWalk m s.mem w = none → n = 24 → ∃ t, exec (.datuWalkDone n false) s = .next t ∧
        t.mach.hif.reqs = m.hif.reqs ++ [{ req := n, addr := wk.addr, wr := wk.wr, perm := false }] ∧ t.mem = s.mem)) ∧
    (∀ p m' mem', m.hif.reqs.findIdx? (·.tag.isNone) = some n → m.hif.reqs[n]? = some p →
      ringPut (m.get R.DATU_CFG_PRRING) 2 (pageRecord m p m.hif.tag) m s.mem = (true, m', mem') →
      ∃ t, exec .pageRequestPost s = .next t ∧ t.mach.hif.reqs = m'.hif.reqs.set n { p with tag := some m.hif.tag } ∧
        t.mach.hif.tag = (m.hif.tag + 1) % 65536 ∧ t.mach.regs = m'.regs ∧ t.mem = mem') ∧
    (∀ p, s.lets q false R.DATU_PRACK_TAG.key → (p.req < 24 → waitOver p.req m = false) → m.hif.reqs.find? (·.tag == some (R.DATU_PRACK_TAG.of v)) = some p →
      R.DATU_PRACK_FAIL.of v = 0 → m.hif.walks.any (·.req == p.req) = false → ∃ t, exec (.prack q v) s = .next t ∧
        t.mach.hif.walks = m.hif.walks ++ [{ req := p.req, addr := p.addr, wr := p.wr }] ∧
        t.mach.hif.reqs = m.hif.reqs.filter (·.tag != some (R.DATU_PRACK_TAG.of v)) ∧ t.mach.regs = m.regs) ∧
    (s.lets q false R.DATU_INVPAGE_PAGE.key → (m.hif.tlb.map (·.1)).Nodup → ∃ t, exec (.invpage q v) s = .next t ∧
      tlbFind t.mach page = none ∧ t.mach.on R.DATU_INVSTAT_BUSY = true ∧
      (∀ p, p % 128 ≠ page % 128 → tlbFind t.mach p = tlbFind m p) ∧ t.mem = s.mem) ∧
    (s.lets q false R.DATU_INVALL_ALL.key → R.DATU_INVALL_ALL.of v = 1 → ∃ t, exec (.invall q v) s = .next t ∧
      t.mach.hif.tlb = [] ∧ t.mach.on R.DATU_INVSTAT_BUSY = true ∧ t.mem = s.mem) ∧
    (∃ t, exec .invalidationDone s = .next t ∧ t.mach.on R.DATU_INVSTAT_BUSY = false ∧ t.mach.hif = m.hif ∧ t.mem = s.mem) ∧
    (∀ seq body fs h, m.snap.frames = (seq, body) :: fs → hostHeld m = false → m.hif.walks.any (·.req == 24) = false →
      m.hif.reqs.any (·.req == 24) = false → datuLook m (hsfAddr m seq.toNat) true = .hit h →
      ∃ t, exec .hsfWrite s = .next t ∧ t.mach.snap.frames = fs ∧
        t.mem = s.mem.hostWrBytes h (wordBytes (frameSealed seq body)) ∧ t.mach.sheets = m.sheets)

/-- R319-R325: GO, ABORT, SKIP and SHLOAD of a channel; a fetched TD; bursts, which move bytes as they stand within
shared SRAM; completion; and the timeouts that park a channel. Rests on choices of the model: log entries 9, 27, 29,
36, 46. -/
def Obligations.DmaChannels : Prop :=
  ∀ (q : Requester) (c : Nat) (s : State), okReq q = true → c < 24 → (q = .host → hostReach s.mach = true) →
    s.mach.pwr.restart = false → s.mach.get R.PWR_DOMSTAT_PEND = 0 →
    let m := s.mach
    let h := m.chan c
    let state (t : State) : Nat := t.mach.get (R.DMA_STAT_STATE c)
    let free : Prop := m.hif.walks.any (·.req == c) = false ∧ m.hif.reqs.any (·.req == c) = false
    let n := burstLen m c
    let inShared (a : Nat) : Prop := 0x30500000 ≤ a ∧ a + n ≤ 0x307F0000
    let moving : Mach := when (m.on (R.DMA_CFG_CLS c)) (fun m => m.onHif fun h => { h with lastVid := c })
      (m.set (R.DMA_STAT_STATE c) dRun)
    (s.lets q false (R.DMA_CTL_GO c).key →
      (chanOwned m c = false → state s = dIdle → m.on (R.DMA_CFG_EN c) = true → m.on (R.DMA_STAT_SHVALID c) = false →
        ∃ t, exec (.dmaGo q c) s = .next t ∧ state t = dRun ∧ t.mach.get (R.DMA_HOPS c) = 0 ∧ t.mach.chan c =
          { fetch := some (m.get (R.DMA_NEXT_LO_NEXT c) + m.get (R.DMA_NEXT_HI_NEXT c) * 2 ^ 32) } ∧ t.mem = s.mem) ∧
      ((chanOwned m c = true ∨ state s ≠ dIdle ∨ m.on (R.DMA_CFG_EN c) = false) →
        exec (.dmaGo q c) s = .next (s.onMach (ignored (R.DMA_CTL_GO c).key))) ∧
      (chanOwned m c = false → ∃ t, exec (.dmaAbort q c) s = .next t ∧ state t = dIdle ∧
        t.mach.on (R.DMA_STAT_SHVALID c) = false ∧ t.mach.get (R.DMA_STAT_RESULT c) = 2 ∧ t.mach.chan c = {} ∧
        t.mem = s.mem) ∧
      (chanOwned m c = false → state s ≠ dIdle → m.on (R.DMA_STAT_SHVALID c) = false → h.fetch = none →
        ∃ t, exec (.dmaSkip q c) s = .next t ∧ state t = dIdle ∧ t.mach.get (R.DMA_STAT_RESULT c) = 3 ∧
          t.mach.chan c = {} ∧ t.mem = s.mem) ∧
      (chanOwned m c = false → m.on (R.DMA_STAT_SHVALID c) = false → tdValid m c (shdW m c) = true →
        ∃ t, exec (.dmaShload q c) s = .next t ∧ t.mach.on (R.DMA_STAT_SHVALID c) = true ∧ state t = state s ∧
          (t.mach.chan c).shAddr = 0x40000000 + (R.DMA_SHD_TD c 0).key ∧ t.mem = s.mem)) ∧
    (∀ a, h.fetch = some a → m.on (R.DMA_STAT_SHVALID c) = false → m.on (R.DMA_CFG_EN c) = true → free → a % 64 = 0 →
      h.act = true → dmaStop m false a 64 = none → placeOf m a ≠ .dram →
      exec (.tdFetch c .clean) s = .next (s.onMach fun m => let r := dmaRead c s.mem 64 64 a m
        shadowLoaded c a (each (List.range 16) (fun i m =>
          m.setWord (R.DMA_SHD_TD c i).key (BitVec.ofNat 32 (leNat ((r.1.drop (4 * i)).take 4)))) r.2))) ∧
    (chanReady m c = true → burstGranted m c = false → ∃ t, exec (.dmaBurst c .clean) s = .next t ∧ state t = dReady ∧
      t.mach.hif = m.hif ∧ t.mem = s.mem) ∧
    (chanReady m c = true → burstGranted m c = true → tdOp m c = 0 → bitsOf (actW m c 8) 3 2 = 0 →
      inShared (nextSrc m c) → inShared (nextDst m c) → ∃ t, exec (.dmaBurst c .clean) s = .next t ∧
        t.mem = s.mem.wrBytes (nextDst m c) (s.mem.rdBytes (nextSrc m c) n) ∧ t.mach = burstAdvance c n moving) ∧
    (h.act = true → h.done = true → (state s = dRun ∨ state s = dReady) → free → bitOf (actW m c 8).toNat 4 = false →
      bitOf (actW m c 8).toNat 5 = false → m.on (R.DMA_STAT_SHVALID c) = false → h.fetch = none →
      ∃ t, exec (.tdComplete c) s = .next t ∧ state t = dIdle ∧ t.mach.get (R.DMA_STAT_RESULT c) = b2n h.mism ∧
        t.mach.chan c = {} ∧ (h.mism = true → t.mach.word (R.DMA_MMOFF c).key =
          BitVec.ofNat 32 (h.line * bitsOf (actW m c 6) 16 0 + h.off)) ∧ t.mem = s.mem) ∧
    (state s = dRun → dramHeld m = false → chanOwned m c = false → ∃ t, exec (.dmaBusTimeout c) s = .next t ∧
      state t = dParked ∧ t.mach.get (R.DMA_STAT_TYPE c) = fTimeout ∧ curOf t.mach c = curOf m c ∧ t.mem = s.mem) ∧
    (∀ u, h.waitAt = some u → state s = dWait → m.get (R.DMA_WTO c) ≠ 0 →
      u.toNat + 100000 * m.get (R.DMA_WTO c) ≤ m.now → chanOwned m c = false → ∃ t, exec (.dmaWaitTimeout c) s = .next t ∧
        state t = dParked ∧ t.mach.get (R.DMA_STAT_TYPE c) = fXlate ∧ curOf t.mach c = curOf m c ∧ t.mem = s.mem)

/-! ## Domains, rails and shutdown (chapter 12) -/

/-- R339-R342: the rail sequencer goes up and down slot by slot, waits for power-good, discharge and delays, marks the
slots that fail, and talks to the PMBus regulators. Rests on choices of the model: log entries 9, 37. -/
def Obligations.RailSequencer : Prop :=
  ∀ (q : Requester) (n data : Nat) (s : State), okReq q = true → n < 16 → data < 65536 →
    s.mach.pwr.restart = false → s.mach.pwr.after = 0 →
    let m := s.mach
    let st (t : State) : Nat := t.mach.get R.PWR_SEQSTAT_STATE
    let good (t : State) : Bool := bitOf (t.mach.get R.PWR_SEQSTAT_PG) n
    let present (x : Nat) : Prop := st s = x ∧ railSlot m = n
    let due (units : Nat) : Prop := m.pwr.railAt.toNat + 10000 * units ≤ m.now
    /- the sequence stands at slot k in state x, k's rail on or off, with the slots ks still to come; it waits for the
    power-good unless an input shows that already -/
    let at_ (x : Nat) (on : Bool) (k : Nat) (ks : List Nat) (t : State) : Prop :=
      st t = x ∧ railSlot t.mach = k ∧ t.mach.on (R.PWR_RAILSTAT_ENOUT k) = on ∧ t.mach.pwr.slots = ks ∧
        t.mach.pwr.inDelay = (pgSrc k m == 0 && m.on (R.PWR_RAILSTAT_PG k) == on) ∧ t.mach.pwr.railAt = m.clk.tick ∧ t.mem = s.mem
    let ended (t : State) : Prop := st t = (if m.get R.PWR_FAIL_LATCH = 0 then seqOff else seqLatched) ∧
      railSlot t.mach = 31 ∧ t.mem = s.mem
    let failed (t : State) : Prop := t.mach.on (R.PWR_RAILSTAT_FAILED n) = true ∧
      bitOf (t.mach.get R.PWR_FAIL_LATCH) n = true ∧ (st t = seqDown ∨ st t = seqLatched)
    let delaying (t : State) : Prop := t.mach.pwr.inDelay = true ∧ t.mach.pwr.railAt = m.clk.tick ∧ st t = st s
    let goesDown (i : Instr) : Prop :=
      (m.pwr.slots = [] → ∃ t, exec i s = .next t ∧ ended t) ∧
      (∀ k ks, m.pwr.slots = k :: ks → k < 16 → k ≠ n → m.on (R.PWR_RAILSTAT_FAILED k) = false →
        ∃ t, exec i s = .next t ∧ at_ seqDown false k ks t)
    (s.lets q false R.PWR_SEQCTL_UP.key →
      (m.get R.PWR_FAIL_LATCH ≠ 0 →
        exec (.railSequenceUp q) s = .next (s.onMach (ignored R.PWR_SEQCTL_UP.key))) ∧
      (m.get R.PWR_FAIL_LATCH = 0 → st s = seqOff →
        (railOrder m = [] → ∃ t, exec (.railSequenceUp q) s = .next t ∧ st t = seqOn) ∧
        (∀ k ks, railOrder m = k :: ks → ∃ t, exec (.railSequenceUp q) s = .next t ∧ at_ seqUp true k ks t ∧
          t.mach.get R.PWR_FAIL_DTO = 0)) ∧
      (∀ k ks, st s = seqOn → (railOrder m).reverse = k :: ks → m.on (R.PWR_RAILSTAT_FAILED k) = false →
        ∃ t, exec (.railSequenceDown q) s = .next t ∧ at_ seqDown false k ks t)) ∧
    (pgSrc n m = 0 →
      (∃ t, exec (.railPowerGood n) s = .next t ∧ good t = true ∧ st t = st s ∧
        t.mach.pwr.inDelay = (m.pwr.inDelay || waiting seqUp n m) ∧ t.mem = s.mem) ∧
      (∃ t, exec (.railDischarged n) s = .next t ∧ good t = false ∧ st t = st s ∧
        t.mach.pwr.inDelay = (m.pwr.inDelay || waiting seqDown n m) ∧ t.mem = s.mem)) ∧
    (present seqUp → m.pwr.inDelay = false → due (m.get (R.PWR_RAILTIM_PGTO n)) →
      (pgSrc n m = 2 → ∃ t, exec (.railPgTimeout n) s = .next t ∧ good t = true ∧ delaying t) ∧
      (pgSrc n m ≠ 2 → ∃ t, exec (.railPgTimeout n) s = .next t ∧ failed t ∧ s.faulted t 0x021 0x03 3)) ∧
    (present seqUp → m.pwr.inDelay = true → due (m.get (R.PWR_RAILTIM_UPDLY n)) →
      (m.pwr.slots = [] → ∃ t, exec (.railUpDelayEnd n) s = .next t ∧ st t = seqOn ∧ railSlot t.mach = 31) ∧
      (∀ k ks, m.pwr.slots = k :: ks → k < 16 →
        ∃ t, exec (.railUpDelayEnd n) s = .next t ∧ at_ seqUp true k ks t)) ∧
    (present seqDown → m.pwr.inDelay = false → due (m.get (R.PWR_RAILDIS_DISTO n)) →
      (pgSrc n m = 2 → ∃ t, exec (.railDischargeTimeout n) s = .next t ∧ good t = false ∧ delaying t) ∧
      (pgSrc n m ≠ 2 → goesDown (.railDischargeTimeout n) ∧ (m.pwr.slots = [] →
        ∃ t, exec (.railDischargeTimeout n) s = .next t ∧ t.mach.on (R.PWR_RAILSTAT_DISTO n) = true ∧
          bitOf (t.mach.get R.PWR_FAIL_DTO) n = true))) ∧
    (present seqDown → m.pwr.inDelay = true → due (m.get (R.PWR_RAILDIS_DNDLY n)) → goesDown (.railDownDelayEnd n)) ∧
    (st s = seqOn → m.on (R.PWR_RAILCFG_EN n) = true → m.on (R.PWR_RAILSTAT_ENOUT n) = true →
      m.on (R.PWR_RAILSTAT_FAILED n) = false → pgSrc n m ≠ 2 →
      (m.on (R.PWR_RAILCFG_CRIT n) = true → ∃ t, exec (.railLost n) s = .next t ∧ good t = false ∧ failed t) ∧
      (m.on (R.PWR_RAILCFG_CRIT n) = false → ∃ t, exec (.railLost n) s = .next t ∧ good t = false ∧ st t = seqOn ∧
        t.mach.on (R.PWR_RAILSTAT_FAILED n) = true ∧ t.mach.on (R.PWR_RAILSTAT_ENOUT n) = false)) ∧
    (∀ cmd d tries, tfind n m.pwr.pmb = some (cmd, d, tries) →
      (cmd ≠ 0x79 → ∃ t, exec (.pmbusTransactionDone n true data) s = .next t ∧ t.mach.pwr.pmb = tdel n m.pwr.pmb ∧
        t.mach.regs = m.regs ∧ t.mach.sent = m.sent) ∧
      (cmd = 0x79 → bitOf data 11 = false → waiting seqUp n m = true →
        ∃ t, exec (.pmbusTransactionDone n true data) s = .next t ∧ good t = true ∧ delaying t) ∧
      (tries < 2 → ∃ t, exec (.pmbusTransactionDone n false data) s = .next t ∧
        tfind n t.mach.pwr.pmb = some (cmd, d, tries + 1) ∧ t.mach.regs = m.regs ∧
        t.mach.sent = m.sent ++ [pmbMsg m n 0x00 (m.get (R.PWR_RAILCFG_PAGE n)), pmbMsg m n cmd d]) ∧
      (2 ≤ tries → present seqUp → ∃ t, exec (.pmbusTransactionDone n false data) s = .next t ∧ failed t)) ∧
    (m.on (R.PWR_RAILCFG_EN n) = true → m.on (R.PWR_RAILCFG_KIND n) = true → pgSrc n m = 1 → thas n m.pwr.pmb = false →
      tfind n m.pwr.polled = none → ∃ t, exec (.pmbusStatusPoll n) s = .next t ∧
        tfind n t.mach.pwr.pmb = some (0x79, 0, 0) ∧ t.mach.regs = m.regs ∧
        t.mach.sent = m.sent ++ [pmbMsg m n 0x00 (m.get (R.PWR_RAILCFG_PAGE n)), pmbMsg m n 0x79 0])

/-- R326, R336, R337, R343-R346: domains are requested, refused, held and brought up; a held power-down ends at its
limit; LATCHCLR; the loss of AC_OK with its last words, the restart after it, and the software reset. Rests on choices
of the model: log entries 2, 8, 9, 37. -/
def Obligations.DomainsAndShutdown : Prop :=
  ∀ (q : Requester) (d : Nat) (v : Word) (s : State), okReq q = true → d < 12 → s.mach.pwr.restart = false →
    let m := s.mach
    let key := R.PWR_DOMREQ_ON.key
    let asked := R.PWR_DOMREQ_ON.of v
    let only : Prop := ∀ j, j < 12 → (bitOf (m.get R.PWR_DOMREQ_ON) j ≠ bitOf asked j ↔ j = d)
    let lw := m.get R.PWR_LWADDR_ADDR * 4096
    let cold (cause : FRef) (t : State) : Prop := t.mach.on cause = true ∧ t.mach.on R.SYS_RSTCAUSE_PIN = false ∧
      t.mach.clk.tick = 0 ∧ t.mach.sheets = [] ∧ t.mach.pwr.shutdown = false
    (s.lets q false key → only → m.pend = [] →
      (bitOf asked d = true → (d = 8 → m.part ≠ .pe5440) → (d = 11 → m.on R.DRC_STAT_TRAINED = true) → domUp d m = false →
        ∃ t, exec (.domainRequest q v) s = .next t ∧ t.mach.get R.PWR_DOMREQ_ON = asked ∧
          bitOf t.mach.pwr.coming d = true ∧ domUp d t.mach = false ∧ t.mem = s.mem) ∧
      (bitOf asked d = false → domRefused d m = true →
        exec (.domainRequest q v) s = .next (s.onMach (note 0x020 0x01 (0x40000000 + key)))) ∧
      (bitOf asked d = false → domRefused d m = false → domUp d m = true →
        (domUsed m d = false → ∃ t, exec (.domainRequest q v) s = .next t ∧ domUp d t.mach = false ∧
          t.mach.get R.PWR_DOMREQ_ON = asked ∧ t.mem = s.mem) ∧
        (domUsed m d = true → ∃ t, exec (.domainRequest q v) s = .next t ∧ domUp d t.mach = true ∧
          bitOf (t.mach.get R.PWR_DOMSTAT_PEND) d = true ∧ tfind d t.mach.pwr.heldAt = some m.clk.tick ∧
          t.mem = s.mem))) ∧
    (bitOf m.pwr.coming d = true → ∃ t, exec (.domainUp d) s = .next t ∧ domUp d t.mach = true ∧
      bitOf t.mach.pwr.coming d = false ∧ (∀ j, j < 12 → j ≠ d → domUp j t.mach = domUp j m) ∧ (d ≠ 2 → t.mem = s.mem) ∧
      (d = 2 → ∀ a, 0x20000000 ≤ a → a < 0x20800000 → t.mem.rd a = Config.ramFill a)) ∧
    (∀ x c, 2 ≤ d → tfind d m.pwr.heldAt = some x → m.get R.PWR_DOMSTAT_PEND = 2 ^ d → chansOn m d = [c] →
      chanOwned m c = false → m.pend = [] →
      x.toNat + 100 * m.get R.DMA_GCFG_PDTO ≤ m.now →
      ∃ t, exec (.dmaPowerdownTimeout d) s = .next t ∧ t.mach.get (R.DMA_STAT_STATE c) = dParked ∧
        t.mach.get (R.DMA_STAT_TYPE c) = fDomain ∧ domUp d t.mach = false ∧ t.mem = s.mem) ∧
    (s.lets q false R.PWR_LATCHCLR_KEY.key → 32 ≤ Requester.id q → Requester.id q < 36 →
      (R.PWR_LATCHCLR_KEY.of v = 0xC3 ∧ m.get R.PWR_SEQSTAT_STATE = seqLatched →
        ∃ t, exec (.latchclr q v) s = .next t ∧ t.mach.get R.PWR_SEQSTAT_STATE = seqOff ∧
          t.mach.get R.PWR_FAIL_LATCH = 0 ∧ (∀ n, n < 16 → t.mach.on (R.PWR_RAILSTAT_FAILED n) = false) ∧
          t.mach.sheets = m.sheets ∧ t.mem = s.mem) ∧
      (¬(R.PWR_LATCHCLR_KEY.of v = 0xC3 ∧ m.get R.PWR_SEQSTAT_STATE = seqLatched) →
        exec (.latchclr q v) s = .next (s.onMach (ignored R.PWR_LATCHCLR_KEY.key)))) ∧
    (m.pwr.shutdown = false → m.pend = [] → ∃ t, exec .acLoss s = .next t ∧ t.mach.pwr.acOk = false ∧ t.mach.pwr.shutdown = true ∧
      t.mach.fus.gates = 0 ∧ hvenOn t.mach = false ∧ (∀ j, lenOn j t.mach = false) ∧
      (∀ n, n < m.nStn → m.get (R.POLY_STAT_STATE n) ≠ 6 → t.mach.on (R.POLY_STAT_SWB n) = true) ∧
      t.mem.ram = s.mem.ram ∧ t.mem.host = s.mem.host ∧
      (∀ a, a < lw ∨ lw + 4096 ≤ a → t.mem.flashRd a = s.mem.flashRd a)) ∧
    (∀ x, m.pwr.offAt = some x →
      x.toNat + 100000 * clampN 100 60000 (m.get R.PWR_ACCFG_OFFT) ≤ m.now →
      ∃ t, exec .acRestart s = .next t ∧ cold R.SYS_RSTCAUSE_ACRESTART t ∧ t.mach.pwr.acOk = true) ∧
    (s.lets q false R.SYS_SWRST_KEY.key →
      (R.SYS_SWRST_KEY.of v = 0x96 → m.pwr.shutdown = false → m.get R.PWR_SEQSTAT_STATE = seqOff →
        ∃ t, exec (.softwareReset q v) s = .next t ∧ cold R.SYS_RSTCAUSE_SWRST t ∧
          t.mach.pwr.acOk = m.pwr.acOk) ∧
      (R.SYS_SWRST_KEY.of v ≠ 0x96 → exec (.softwareReset q v) s = .next s))

/-! ## Faults, ALIVE and the interlock (chapter 13) -/

/-- R235, R360-R365, R370-R372, R431: a message is captured, or counted as lost while its source's record is held;
class 4 trips the outputs and loses the engaged sheets; records are cleared; ALIVE toggles; the kick window expires;
ILK_N opens and is qualified. Rests on choices of the model: log entries 9, 38. -/
def Obligations.FaultCollector : Prop :=
  ∀ (q : Requester) (src kind cls : Nat) (sid : Sid) (param : BitVec 40) (v : Word) (s : State), okReq q = true →
    src < 1024 → kind < 256 → cls < 5 →
    let m := s.mach
    let msg : Instr := .faultMessage src kind cls sid param
    let old := tget {} src m.flt.srcs
    let rec_ (t : State) : FltRec := tget {} src t.mach.flt.srcs
    /- no message of the lock or the watches follows this one (R233, R430) -/
    let alone : Prop := m.heldEdges = [] ∧ (cls = 4 → ∀ n, n < 5 → m.on (R.VID_PLOCK_LOCK n) = false)
    let auto : Prop := cls = 0 ∧ m.on R.FLT_CTL_AUTONOTE = true
    let dark (t : State) : Prop := hvenOn t.mach = false ∧ ∀ j, lenOn j t.mach = false
    let code (t : State) : Nat := R.FLT_CLRRES_CODE.of (t.mach.own (Requester.id q) R.FLT_CLRRES_CODE.key)
    let cs := R.FLT_CLR_SRC.of v
    let held := tget {} cs m.flt.srcs
    let released : Mach := { m with flt := { m.flt with srcs := tput cs { held with held := false } m.flt.srcs } }
    let hit : Bool := (recsIn (·.engaged) m).any fun r => (m.sheet r).state != .admitted || pastLock (m.sheet r) m
    (old.held = false → ∃ t, exec msg s = .next t ∧ (rec_ t).held = decide (¬auto) ∧ (rec_ t).src = src ∧
      (rec_ t).kind = kind ∧ (rec_ t).cls = cls ∧ (rec_ t).sid = sid ∧ (rec_ t).param = param ∧
      (rec_ t).tick = m.clk.tick ∧ t.mem = s.mem ∧ (alone → t.mach.get R.FLT_LOSTCNT_LOST = m.get R.FLT_LOSTCNT_LOST ∧
        ∀ j, j ≠ src → tget {} j t.mach.flt.srcs = tget {} j m.flt.srcs)) ∧
    (old.held = true → ∃ t, exec msg s = .next t ∧ rec_ t = old ∧ (alone →
      t.mach.get R.FLT_LOSTCNT_LOST = min (2 ^ 32 - 1) (m.get R.FLT_LOSTCNT_LOST + 1))) ∧
    (2 ≤ cls → ∃ t, exec msg s = .next t ∧ s.faulted t src kind cls) ∧
    (cls = 4 → old.held = false → ∃ t, exec msg s = .next t ∧ dark t ∧ t.mach.fus.gates = 0 ∧
      t.mach.on R.HV_CTL_EN = false ∧ t.mach.on R.FUS_CTL_EN = false ∧
      (∀ n, n < m.nStn → m.get (R.POLY_STAT_STATE n) ≠ 6 → t.mach.on (R.POLY_STAT_SWB n) = true) ∧
      (∀ r, (m.sheet r).state.engaged = true → (m.sheet r).state ≠ .admitted → (t.mach.sheet r).state = .lost)) ∧
    (s.lets q false R.FLT_CLR_SRC.key → R.FLT_CLR_CREC.of v = 0 →
      (held.held = false → ∃ t, exec (.faultClear q v) s = .next t ∧ code t = 2 ∧ t.mach.flt = m.flt ∧ t.mem = s.mem) ∧
      (held.held = true → stands held released = false → ∃ t, exec (.faultClear q v) s = .next t ∧ code t = 0 ∧
        (tget {} cs t.mach.flt.srcs).held = false ∧ t.mach.sheets = m.sheets ∧ t.mach.regs = m.regs ∧ t.mem = s.mem) ∧
      (held.held = true → stands held released = true → ∃ t, exec (.faultClear q v) s = .next t ∧ code t = 1)) ∧
    (m.on R.FLT_ALIVE_EN = true → aliveHeld m = false → multipleIn (aliveHalf m) 0 m.flt.aliveFrom.toNat m.now = true →
      ∃ t, exec .aliveToggle s = .next t ∧ t.mach.on R.FLT_ALIVE_LEVEL = !(m.on R.FLT_ALIVE_LEVEL) ∧
        t.mach.flt.aliveFrom = m.clk.tick ∧ t.mach.sheets = m.sheets ∧ t.mem = s.mem) ∧
    (s.lets q false R.FLT_ALIVE_EN.key → m.pend = [] → ∃ t, exec (.aliveWrite q v) s = .next t ∧
      t.mach.get R.FLT_ALIVE_EN = R.FLT_ALIVE_EN.of v ∧ t.mach.get R.FLT_ALIVE_HALF =
        (if m.on R.FLT_ALIVE_EN then m.get R.FLT_ALIVE_HALF else R.FLT_ALIVE_HALF.of v) ∧
      t.mach.get R.FLT_ALIVE_LEVEL = m.get R.FLT_ALIVE_LEVEL ∧ t.mach.sheets = m.sheets ∧ t.mem = s.mem ∧
      (R.FLT_ALIVE_EN.of v = 1 → t.mach.flt.aliveFrom = m.clk.tick)) ∧
    (s.lets q false R.FLT_KICK.key → ∃ t, exec (.kick q v) s = .next t ∧
      t.mach.get R.FLT_KICK_KWIN = R.FLT_KICK_KWIN.of v ∧ t.mach.sheets = m.sheets ∧ t.mem = s.mem ∧
      (R.FLT_KICK_KWIN.of v = 0 → t.mach.flt.kickFrom = none) ∧
      (R.FLT_KICK_KWIN.of v ≠ 0 → R.FLT_KICK.of v = 1 → t.mach.flt.kickFrom = some m.clk.tick)) ∧
    (∀ x, m.flt.kickFrom = some x → x.toNat + 100000 * m.get R.FLT_KICK_KWIN < m.now →
      ∃ t, exec .kickWindowExpire s = .next t ∧ s.faulted t 0x040 0x01 3 ∧ t.mach.flt.kickFrom = none ∧ t.mem = s.mem) ∧
    (∃ t, exec .interlockOpen s = .next t ∧ t.mach.on R.ENV_STAT_ILK = false ∧ dark t ∧
      s.faulted t 0x051 0x02 (if hit then 3 else 2) ∧ t.mem = s.mem) ∧
    (∃ t, exec .interlockQualified s = .next t ∧ t.mach.on R.ENV_STAT_ILK = true ∧ t.mach.flt = m.flt ∧
      t.mach.sheets = m.sheets ∧ t.mem = s.mem)

/-- R361, R362: with AUTONOTE = 1 a class 0 message that finds its source record free is written into it and the
record stays free; a message that finds its source record held is counted in LOSTCNT and leaves the record as it is,
and one of class 2, 3 or 4 is still captured in the class record of its class if that is free; so a record of its
class is open. The premise on the class records rules out states that no run reaches: a held class record holds a
fault of its class. -/
def Obligations.NotesAndLostMessages : Prop :=
  ∀ (src kind cls : Nat) (sid : Sid) (param : BitVec 40) (s : State), src < 1024 → kind < 256 → cls < 5 →
    (∀ c, (tget {} c s.mach.flt.clss).held = true → (tget {} c s.mach.flt.clss).cls = c) →
    let m := s.mach
    let old := tget {} src m.flt.srcs
    /- no message of the lock or the watches follows this one (R233, R430), which would be counted too -/
    let alone : Prop := m.heldEdges = [] ∧ (cls = 4 → ∀ n, n < 5 → m.on (R.VID_PLOCK_LOCK n) = false)
    let clsOf (m : Mach) : FltRec := tget {} cls m.flt.clss
    let shows (r : FltRec) : Prop := r.src = src ∧ r.kind = kind ∧ r.cls = cls ∧ r.sid = sid ∧ r.param = param ∧
      r.tick = m.clk.tick
    ∃ t, exec (.faultMessage src kind cls sid param) s = .next t ∧
      (m.on R.FLT_CTL_AUTONOTE = true → cls = 0 → old.held = false →
        shows (tget {} src t.mach.flt.srcs) ∧ (tget {} src t.mach.flt.srcs).held = false) ∧
      (old.held = true → tget {} src t.mach.flt.srcs = old ∧
        (m.get R.FLT_LOSTCNT_LOST < 2 ^ 32 - 1 →
          m.get R.FLT_LOSTCNT_LOST + 1 ≤ t.mach.get R.FLT_LOSTCNT_LOST ∧
          (alone → t.mach.get R.FLT_LOSTCNT_LOST = m.get R.FLT_LOSTCNT_LOST + 1)) ∧
        (2 ≤ cls → (clsOf m).held = false → (clsOf t.mach).held = true ∧ shows (clsOf t.mach)) ∧
        ((clsOf m).held = true → clsOf t.mach = clsOf m)) ∧
      (2 ≤ cls → classOpen cls t.mach = true)

/-! ## Fjarilink, identity and the loader (chapter 14) -/

/-- R377-R381: ports come up and go down, HELLOs are sent and teach routes, frames are acknowledged, sent again, and
given up after the fifth failure. Rests on choices of the model: log entries 9, 30, 39. -/
def Obligations.PortsAndFrames : Prop :=
  ∀ (p lseq : Nat) (f : Frame) (s : State), p < 2 → lseq < 65536 → okFrame f = true →
    let m := s.mach
    let en : Prop := m.on R.FJL_CTL_EN = true
    let waits (m : Mach) (p : Nat) : List Unacked := if p = 0 then m.fjl.unacked0 else m.fjl.unacked1
    let way (r : Route) : Option Hop := if p = 0 then r.up else r.down
    let downNow (t : State) : Prop := portUp p t.mach = false ∧ waits t.mach p = [] ∧
      portUp (1 - p) t.mach = portUp (1 - p) m ∧ t.mem = s.mem
    (en → portUp p m = false → (∃ r ∈ m.fjl.routes, ∃ h, way r.2 = some h ∧ h.hops = 0) → ∃ t, exec (.portUp p) s = .next t ∧
      portUp p t.mach = true ∧ portUp (1 - p) t.mach = portUp (1 - p) m ∧ t.mem = s.mem) ∧
    (en → m.fjl.helloAt.toNat + 100000 ≤ m.now → ∃ t rest, exec .helloTimer s = .next t ∧ t.mach.fjl.helloAt = m.clk.tick ∧
      t.mach.sent = m.sent ++ [.frame 0 (helloFrame m), .frame 1 (helloFrame m)] ++ rest ∧ t.mem = s.mem) ∧
    (en → exec (.helloFrame p f false) s = .next (s.onMach (badCrc p))) ∧
    (en → f.src ≠ ownAddr m → ∃ t, exec (.helloFrame p f true) s = .next t ∧ way (tget {} f.src t.mach.fjl.routes) =
        some { hops := 255 - f.hops, at_ := m.clk.tick } ∧
      (tget {} f.src t.mach.fjl.routes).master = (f.body.getD 3 0 != 0) ∧ t.mem = s.mem) ∧
    (en → f.src = ownAddr m → dupSeen m = false → f.body.getD 1 0 ≠ Config.unitId.truncate 32 →
      ∃ t, exec (.helloFrame p f true) s = .next t ∧ s.faulted t (0x200 + p) 0x0A 2 ∧
        t.mach.fjl.dupAt = some m.clk.tick) ∧
    (∃ t, exec (.frameAck p lseq) s = .next t ∧ waits t.mach p = (waits m p).filter (·.frame.lseq != lseq) ∧
      waits t.mach (1 - p) = waits m (1 - p) ∧ t.mach.regs = m.regs ∧ t.mem = s.mem) ∧
    (∀ u, (waits m p).find? (fun u => u.at_.toNat + 2000 ≤ m.now) = some u →
      (u.tries < 5 → ∃ t, exec (.frameRetransmit p) s = .next t ∧ t.mach.sent = m.sent ++ [.frame p u.frame] ∧
        t.mach.get R.FJL_LSTAT_RETX = min 255 (m.get R.FJL_LSTAT_RETX + 1) ∧
        (waits t.mach p).length = (waits m p).length ∧ t.mem = s.mem) ∧
      (5 ≤ u.tries → ∃ t, exec (.frameRetransmit p) s = .next t ∧ downNow t)) ∧
    (en → portUp p m = true → ∃ t, exec (.blockLockLoss p) s = .next t ∧ downNow t)

/-- R382-R387: the time exchange and its holdover; USER events; and what a press group's frames, HEARTs, timeouts and
GCGO do. Rests on choices of the model: log entries 9, 30, 31, 39. -/
def Obligations.TimeAndGroups : Prop :=
  ∀ (q : Requester) (p sub turn node : Nat) (f : Frame) (s : State), okReq q = true → p < 2 → sub < 64 → node < 16384 →
    okFrame f = true →
    let m := s.mach
    let tp := m.get R.FJL_PSTAT_TPORT
    let ts (t : State) : Nat := t.mach.get R.FJL_PSTAT_TSTATE
    /- the frame is taken by this node -/
    let taken : Prop := m.on R.FJL_CTL_EN = true ∧ portUp p m = true ∧ frameMine f m = true ∧
      (m.on R.FJL_CTL_RING = true → f.src ≠ ownAddr m)
    let t2 := stampWords (stampNow sub m)
    let due := localOf (pairAt f.body 3) m
    let catchAt := localOf (pairAt f.body 1) m
    let sid := (f.body.getD 0 0).toNat % 2 ^ 24
    let e := tableSlot sid m
    let src : FltRec := tget {} 0x203 m.flt.srcs
    let told (i : Instr) (kind : Nat) : Prop := ∃ t, exec i s = .next t ∧
      (tget {} 0x203 t.mach.flt.srcs).kind = kind ∧ (tget {} 0x203 t.mach.flt.srcs).cls = 1 ∧
      (tget {} 0x203 t.mach.flt.srcs).sid = frameSid f ∧ (tget {} 0x203 t.mach.flt.srcs).held = true ∧ t.mem = s.mem
    let lead : Prop := m.get (R.FJL_GCATCH_T 0) + m.get (R.FJL_GCATCH_T 1) * 2 ^ 32 <
      m.now + clampN 100000 100000000 (m.get R.FJL_GLEAD)
    let code (t : State) : Nat := R.FJL_GCRES_CODE.of (t.mach.own (Requester.id q) R.FJL_GCRES_CODE.key)
    (m.on R.FJL_CTL_EN = true → 0 < tp → tp < 3 → portUp (tp - 1) m = true → m.fjl.reqAt.toNat + syncPeriod m ≤ m.now →
      ∃ t g, exec (.timeExchangeTimer sub) s = .next t ∧ t.mach.fjl.t1 = some (stampNow sub m) ∧
        t.mach.fjl.reqAt = m.clk.tick ∧ t.mach.sent = m.sent ++ [.frame (tp - 1) g] ∧ g.body = t2 ∧ g.cls = 1 ∧ g.dst = 0 ∧
        t.mach.regs = m.regs) ∧
    (taken → f.cls < 2 → f.dst = 0 → ∃ t g, exec (.timeRequestFrame p f true sub turn) s = .next t ∧
      t.mach.sent = m.sent ++ [.frame p g] ∧
      g.body = f.body.take 3 ++ t2 ++ stampWords (stampNow sub m + turn) ∧ t.mach.regs = m.regs) ∧
    (taken → f.cls < 2 → f.dst = 0 → m.fjl.t1 = some (stampAt f.body 0) → tp = p + 1 →
      ∃ t, exec (.timeReplyFrame p f true sub) s = .next t ∧ t.mach.fjl.t1 = none ∧ t.mach.fjl.exAt = m.clk.tick ∧
        (ts s = tTrack → ts t = tTrack) ∧ (ts s = tHoldover → ts t = tTrack ∨ ts t = tAcquire) ∧ t.mem = s.mem) ∧
    (ts s = tTrack → m.fjl.exAt.toNat + 8 * syncPeriod m ≤ m.now → ∃ t, exec .timeHoldoverTimeout s = .next t ∧
      ts t = tHoldover ∧ t.mach.fjl.holdAt = m.clk.tick ∧ t.mach.fjl.t1 = none ∧ t.mem = s.mem) ∧
    (ts s = tHoldover → groupRole m = 2 → m.fjl.gtSent = false →
      m.fjl.holdAt.toNat + 100000 * m.get R.FJL_TWIN_GHOLD ≤ m.now → ∃ t, exec .groupTimeTimeout s = .next t ∧
        s.faulted t 0x202 0x03 2 ∧ t.mach.fjl.gtSent = true) ∧
    (taken → m.now ≤ due → ∃ t, exec (.userFrame p f true) s = .next t ∧ t.mach.fjl.users = m.fjl.users ++
      [{ due := pairAt f.body 3, code := (f.body.getD 0 0).toNat % 65536, value := BitVec.ofNat 64 (pairAt f.body 1) }] ∧
      t.mach.regs = m.regs ∧ t.mem = s.mem) ∧
    (∀ u, userFirst m = some u → localOf u.due m ≤ m.now → ∃ t, exec .userEventDue s = .next t ∧
      t.mach.fjl.users = m.fjl.users.erase u ∧ t.mach.get R.FJL_EVCODE_CODE = u.code % 65536 ∧
      t.mach.get (R.FJL_EVDATA_VAL 0) = u.value.toNat % 2 ^ 32 ∧ t.mach.get (R.FJL_EVDATA_VAL 1) = u.value.toNat / 2 ^ 32 ∧
      t.mem = s.mem) ∧
    (taken → groupRole m = 2 → m.now ≤ catchAt → ∃ t, exec (.catchFrame p f true) s = .next t ∧
      t.mach.on (R.FJL_CTAB_VALID e) = true ∧ t.mach.get (R.FJL_CTAB_SID e) = sid ∧ tableT e t.mach = catchAt ∧
      (∀ j, j < 64 → j ≠ e → tableT j t.mach = tableT j m ∧ t.mach.get (R.FJL_CTAB_SID j) = m.get (R.FJL_CTAB_SID j)) ∧
      t.mach.sheets = m.sheets ∧ t.mem = s.mem) ∧
    (taken → src.held = false →
      (groupRole m ≠ 0 → told (.cancelFrame p f true) 0x05 ∧ told (.spoilFrame p f true) 0x07 ∧
        ∃ t, exec (.stopFrame p f true) s = .next t ∧ s.faulted t 0x203 0x08 3) ∧
      (groupRole m = 1 → told (.missFrame p f true) 0x06)) ∧
    (taken → f.src ∈ counterparts m → ∃ t, exec (.heartFrame p f true) s = .next t ∧
      tget 0 f.src t.mach.fjl.hearts = m.clk.tick ∧ t.mach.regs = m.regs ∧ t.mach.flt = m.flt ∧ t.mem = s.mem) ∧
    (groupRole m = 1 → m.fjl.heartAt.toNat + 100000 ≤ m.now → ∃ t, exec .heartTimer s = .next t ∧
      t.mach.fjl.heartAt = m.clk.tick ∧ t.mach.regs = m.regs ∧ t.mach.flt = m.flt ∧ t.mem = s.mem) ∧
    (node ∈ counterparts m → tget false node m.fjl.lost = false →
      (tget m.fjl.enAt node m.fjl.hearts).toNat + 1000000 ≤ m.now → ∃ t, exec (.memberLostTimeout node) s = .next t ∧
        s.faulted t 0x203 0x09 2 ∧ tget false node t.mach.fjl.lost = true) ∧
    (s.lets q false R.FJL_GCGO_GO.key →
      (lead → ∃ t, exec (.gcgo q) s = .next t ∧ code t = 1 ∧ t.mach.fjl = m.fjl) ∧
      (¬lead → groupRole m ≠ 1 → ∃ t, exec (.gcgo q) s = .next t ∧ code t = 2 ∧ t.mach.fjl = m.fjl) ∧
      (¬lead → groupRole m = 1 → ∃ t, exec (.gcgo q) s = .next t ∧ code t = 0 ∧
        t.mach.fjl.sched.head? = some (BitVec.ofNat 24 (m.get R.FJL_GCATCH_SID)) ∧ t.mach.regs = m.regs))

/-- R393-R405: SEC operations start, are refused or find SEC busy, and end with their code; chunks are served and
taken; the loader changes its source and answers the host's descriptors. Rests on choices of the model: log entries 3,
28, 32, 40. -/
def Obligations.SecurityAndLoader : Prop :=
  ∀ (q : Requester) (arg p : Nat) (f : Frame) (s : State), okReq q = true → arg < 16 → p < 2 → okFrame f = true →
    s.mach.pwr.restart = false →
    let m := s.mach
    let res (t : State) (n : Nat) : Nat × Nat :=
      let w := t.mach.own n R.SEC_OPRES_CODE.key
      (R.SEC_OPRES_CODE.of w, R.SEC_OPRES_DONE.of w)
    let starts (i : Instr) (op : SecOp) (a : Nat) : Prop :=
      (m.sec.run = none → secRefuses op a m = false → ∃ t, exec i s = .next t ∧
        t.mach.sec.run = some { op := op, arg := a, q := Requester.id q } ∧ res t (Requester.id q) = (0, 0) ∧
        t.mach.regs = m.regs ∧ t.mem = s.mem) ∧
      (m.sec.run = none → secRefuses op a m = true → ∃ t, exec i s = .next t ∧ t.mach.sec = m.sec ∧
        res t (Requester.id q) = (secRefused, 1) ∧ t.mach.regs = m.regs ∧ t.mem = s.mem) ∧
      (m.sec.run ≠ none → ∃ t, exec i s = .next t ∧ t.mach.sec = m.sec ∧ res t (Requester.id q) = (secBusy, 1) ∧
        t.mach.regs = m.regs ∧ t.mem = s.mem)
    let taken : Prop := m.on R.FJL_CTL_EN = true ∧ portUp p m = true ∧ f.cls = 3 ∧ f.dst = 0 ∧
      (m.on R.FJL_CTL_RING = true → f.src ≠ ownAddr m)
    let id_ := pairAt f.body 0
    let k := (f.body.getD 2 0).toNat
    let bs := (f.body.drop 3).flatMap fun w => leBytes 4 w.toNat
    let answer (d : List Byte) (bad : Nat) : List Byte :=
      leBytes 4 (leAt d 8 4) ++ leBytes 4 bad ++ leBytes 8 (leAt d 16 8) ++ leBytes 8 m.now ++ List.replicate 8 0
    (s.lets q false R.SEC_OP.key →
      starts (.attest q) .attest 0 ∧ starts (.load q arg) .load arg ∧ starts (.checkhdr q) .checkhdr 0 ∧
      starts (.armupd q arg) .armupd arg ∧ starts (.envwrite q) .envwrite 0 ∧ starts (.advance q) .advance 0 ∧
      starts (.keyprog q arg) .keyprog arg ∧ starts (.dbgchal q) .dbgchal 0 ∧ starts (.dbgresp q) .dbgresp 0) ∧
    (∀ r ok, m.sec.run = some r → r.op ≠ .armupd →
      let x := secDo r ok { m with sec := { m.sec with run := none } } s.mem
      ∃ t, exec (.secOpDone ok) s = .next t ∧ t.mach.sec = x.2.1.sec ∧ t.mach.sec.run = none ∧ res t r.q = (x.1, 1) ∧
        t.mem = x.2.2) ∧
    (∀ r ok, m.sec.run = some r → r.op = .advance → ∃ t, exec (.secOpDone ok) s = .next t ∧
      t.mach.sec.rollback = max m.sec.rollback (min 64 m.sec.running)) ∧
    (taken → ∃ t a g, exec (.chreq p f true) s = .next t ∧ t.mach.sent = m.sent ++ [.frame p a, .frame p g] ∧
      g.typ = (if holdsChunk id_ k m s.mem then 2 else 3) ∧ g.body.take 3 = chunkName id_ k ∧ t.mach.sec = m.sec ∧
      t.mem = s.mem) ∧
    (taken → m.sec.loader = none → ∃ t a, exec (.chnak p f true) s = .next t ∧ t.mach.sent = m.sent ++ [.frame p a] ∧
      t.mach.sec = m.sec ∧ t.mem = s.mem) ∧
    (taken → m.sec.loader = none → ∃ t, exec (.chdata p f true true) s = .next t ∧ t.mach.sec = m.sec ∧ t.mem = s.mem) ∧
    (∀ l c, taken → m.sec.loader = some l → l.chunk0 = some c → l.source = p + 1 → l.id? = some id_ → k ≠ 0 →
      k < chunkCount c → chunkLen c k ≤ bs.length →
      (∃ j, j ≠ 0 ∧ j < chunkCount c ∧ j ≠ k ∧ l.got.contains j = false) →
      ∃ t, exec (.chdata p f true true) s = .next t ∧
        t.mach.sec.loader = some { l with got := k :: l.got.filter (· != k), since := m.clk.tick } ∧
        t.mem = s.mem.flashWrBytes (slotAt + 4096 * k) (bs.take (chunkLen c k))) ∧
    (∀ l d m1, m.sec.loader = some l → l.source = 3 → ringCount m 1 < ringSize m 1 →
      ringTake 0 0 s.mem m = (some d, m1) →
      (leAt d 12 4 = 0 → ∀ back, exec (.loaderChunkDescriptor back) s = .next { s with
        mach := (ringPut 1 0 (answer d 1) m1 s.mem).2.1, mem := (ringPut 1 0 (answer d 1) m1 s.mem).2.2 }) ∧
      (∀ b m2 m3 mem3 back, leAt d 0 8 % 64 = 0 → 0 < leAt d 12 4 → leAt d 12 4 ≤ 4096 →
        hostFetch s.mem (leAt d 0 8) (leAt d 12 4) m1 = (some b, m2) →
        loaderChunk 3 (leAt d 16 8) (leAt d 8 4) b back m2 s.mem = (true, m3, mem3) →
        let y := (ringPut 1 0 (answer d 0) m3 mem3).2
        exec (.loaderChunkDescriptor back) s = .next { s with
          mach := (loaderOn y.1 y.2).1, mem := (loaderOn y.1 y.2).2 })) ∧
    (∀ l, m.sec.loader = some l → l.since.toNat + 1000000000 ≤ m.now → ∃ t, exec .loaderSourceTimeout s = .next t ∧
      t.mach.sec.loader = some { l with cur := (l.cur + 1) % max 1 l.order.length, since := m.clk.tick } ∧
      t.mach.regs = m.regs ∧ t.mem = s.mem)
end

