-- ==== Sys2Proof/Laws/State.lean ====
section
/-! SUPPORT. One lemma per field per update of the state, each true by unfolding the update, so that no later proof
unfolds a record update. -/

namespace Sys2Proof.Machine

/-! ## The state -/

@[simp] theorem State.onMach_mach (s : State) (f : Mach → Mach) : (s.onMach f).mach = f s.mach := rfl
@[simp] theorem State.onMach_mem (s : State) (f : Mach → Mach) : (s.onMach f).mem = s.mem := rfl
@[simp] theorem State.onMach_pending (s : State) (f : Mach → Mach) : (s.onMach f).pending = s.pending := rfl
@[simp] theorem State.withPending_mach (s : State) (q : List Instr) : (s.withPending q).mach = s.mach := rfl
@[simp] theorem State.withPending_mem (s : State) (q : List Instr) : (s.withPending q).mem = s.mem := rfl
@[simp] theorem State.withPending_pending (s : State) (q : List Instr) : (s.withPending q).pending = q := rfl

/-! ## The machine -/

@[simp] theorem Mach.setWord_part (m : Mach) (key : Nat) (w : Word) : (m.setWord key w).part = m.part := rfl
@[simp] theorem Mach.setWord_regs (m : Mach) (key : Nat) (w : Word) : (m.setWord key w).regs =
    tput key w m.regs := rfl
@[simp] theorem Mach.setWord_pend (m : Mach) (key : Nat) (w : Word) : (m.setWord key w).pend = m.pend := rfl
@[simp] theorem Mach.setWord_latches (m : Mach) (key : Nat) (w : Word) : (m.setWord key w).latches = m.latches := rfl
@[simp] theorem Mach.setWord_perReq (m : Mach) (key : Nat) (w : Word) : (m.setWord key w).perReq = m.perReq := rfl
@[simp] theorem Mach.setWord_reply (m : Mach) (key : Nat) (w : Word) : (m.setWord key w).reply = m.reply := rfl
@[simp] theorem Mach.setWord_fresh (m : Mach) (key : Nat) (w : Word) : (m.setWord key w).fresh = m.fresh := rfl
@[simp] theorem Mach.setWord_clk (m : Mach) (key : Nat) (w : Word) : (m.setWord key w).clk = m.clk := rfl
@[simp] theorem Mach.setWord_sheets (m : Mach) (key : Nat) (w : Word) : (m.setWord key w).sheets = m.sheets := rfl
@[simp] theorem Mach.setWord_flt (m : Mach) (key : Nat) (w : Word) : (m.setWord key w).flt = m.flt := rfl
@[simp] theorem Mach.setWord_snap (m : Mach) (key : Nat) (w : Word) : (m.setWord key w).snap = m.snap := rfl
@[simp] theorem Mach.setWord_cox (m : Mach) (key : Nat) (w : Word) : (m.setWord key w).cox = m.cox := rfl
@[simp] theorem Mach.setWord_scl (m : Mach) (key : Nat) (w : Word) : (m.setWord key w).scl = m.scl := rfl
@[simp] theorem Mach.setWord_fjl (m : Mach) (key : Nat) (w : Word) : (m.setWord key w).fjl = m.fjl := rfl
@[simp] theorem Mach.setWord_sec (m : Mach) (key : Nat) (w : Word) : (m.setWord key w).sec = m.sec := rfl
@[simp] theorem Mach.setWord_drv (m : Mach) (key : Nat) (w : Word) : (m.setWord key w).drv = m.drv := rfl
@[simp] theorem Mach.setWord_mot (m : Mach) (key : Nat) (w : Word) : (m.setWord key w).mot = m.mot := rfl
@[simp] theorem Mach.setWord_pwr (m : Mach) (key : Nat) (w : Word) : (m.setWord key w).pwr = m.pwr := rfl
@[simp] theorem Mach.setWord_vid (m : Mach) (key : Nat) (w : Word) : (m.setWord key w).vid = m.vid := rfl
@[simp] theorem Mach.setWord_fus (m : Mach) (key : Nat) (w : Word) : (m.setWord key w).fus = m.fus := rfl
@[simp] theorem Mach.setWord_adc (m : Mach) (key : Nat) (w : Word) : (m.setWord key w).adc = m.adc := rfl
@[simp] theorem Mach.setWord_hv (m : Mach) (key : Nat) (w : Word) : (m.setWord key w).hv = m.hv := rfl
@[simp] theorem Mach.setWord_thm (m : Mach) (key : Nat) (w : Word) : (m.setWord key w).thm = m.thm := rfl
@[simp] theorem Mach.setWord_shunt (m : Mach) (key : Nat) (w : Word) : (m.setWord key w).shunt = m.shunt := rfl
@[simp] theorem Mach.setWord_enc (m : Mach) (key : Nat) (w : Word) : (m.setWord key w).enc = m.enc := rfl
@[simp] theorem Mach.setWord_ssi (m : Mach) (key : Nat) (w : Word) : (m.setWord key w).ssi = m.ssi := rfl
@[simp] theorem Mach.setWord_sns (m : Mach) (key : Nat) (w : Word) : (m.setWord key w).sns = m.sns := rfl
@[simp] theorem Mach.setWord_heldEdges (m : Mach) (key : Nat) (w : Word) : (m.setWord key w).heldEdges = m.heldEdges := rfl
@[simp] theorem Mach.setWord_axes (m : Mach) (key : Nat) (w : Word) : (m.setWord key w).axes = m.axes := rfl
@[simp] theorem Mach.setWord_peat (m : Mach) (key : Nat) (w : Word) : (m.setWord key w).peat = m.peat := rfl
@[simp] theorem Mach.setWord_mark (m : Mach) (key : Nat) (w : Word) : (m.setWord key w).mark = m.mark := rfl
@[simp] theorem Mach.setWord_dram (m : Mach) (key : Nat) (w : Word) : (m.setWord key w).dram = m.dram := rfl
@[simp] theorem Mach.setWord_hif (m : Mach) (key : Nat) (w : Word) : (m.setWord key w).hif = m.hif := rfl
@[simp] theorem Mach.setWord_gp (m : Mach) (key : Nat) (w : Word) : (m.setWord key w).gp = m.gp := rfl
@[simp] theorem Mach.setWord_sent (m : Mach) (key : Nat) (w : Word) : (m.setWord key w).sent = m.sent := rfl

@[simp] theorem Mach.set_part (m : Mach) (f : FRef) (v : Nat) : (m.set f v).part = m.part := rfl
@[simp] theorem Mach.set_regs (m : Mach) (f : FRef) (v : Nat) : (m.set f v).regs =
    tput f.key (withBits (m.word f.key) f.hi f.lo v) m.regs := rfl
@[simp] theorem Mach.set_pend (m : Mach) (f : FRef) (v : Nat) : (m.set f v).pend = m.pend := rfl
@[simp] theorem Mach.set_latches (m : Mach) (f : FRef) (v : Nat) : (m.set f v).latches = m.latches := rfl
@[simp] theorem Mach.set_perReq (m : Mach) (f : FRef) (v : Nat) : (m.set f v).perReq = m.perReq := rfl
@[simp] theorem Mach.set_reply (m : Mach) (f : FRef) (v : Nat) : (m.set f v).reply = m.reply := rfl
@[simp] theorem Mach.set_fresh (m : Mach) (f : FRef) (v : Nat) : (m.set f v).fresh = m.fresh := rfl
@[simp] theorem Mach.set_clk (m : Mach) (f : FRef) (v : Nat) : (m.set f v).clk = m.clk := rfl
@[simp] theorem Mach.set_sheets (m : Mach) (f : FRef) (v : Nat) : (m.set f v).sheets = m.sheets := rfl
@[simp] theorem Mach.set_flt (m : Mach) (f : FRef) (v : Nat) : (m.set f v).flt = m.flt := rfl
@[simp] theorem Mach.set_snap (m : Mach) (f : FRef) (v : Nat) : (m.set f v).snap = m.snap := rfl
@[simp] theorem Mach.set_cox (m : Mach) (f : FRef) (v : Nat) : (m.set f v).cox = m.cox := rfl
@[simp] theorem Mach.set_scl (m : Mach) (f : FRef) (v : Nat) : (m.set f v).scl = m.scl := rfl
@[simp] theorem Mach.set_fjl (m : Mach) (f : FRef) (v : Nat) : (m.set f v).fjl = m.fjl := rfl
@[simp] theorem Mach.set_sec (m : Mach) (f : FRef) (v : Nat) : (m.set f v).sec = m.sec := rfl
@[simp] theorem Mach.set_drv (m : Mach) (f : FRef) (v : Nat) : (m.set f v).drv = m.drv := rfl
@[simp] theorem Mach.set_mot (m : Mach) (f : FRef) (v : Nat) : (m.set f v).mot = m.mot := rfl
@[simp] theorem Mach.set_pwr (m : Mach) (f : FRef) (v : Nat) : (m.set f v).pwr = m.pwr := rfl
@[simp] theorem Mach.set_vid (m : Mach) (f : FRef) (v : Nat) : (m.set f v).vid = m.vid := rfl
@[simp] theorem Mach.set_fus (m : Mach) (f : FRef) (v : Nat) : (m.set f v).fus = m.fus := rfl
@[simp] theorem Mach.set_adc (m : Mach) (f : FRef) (v : Nat) : (m.set f v).adc = m.adc := rfl
@[simp] theorem Mach.set_hv (m : Mach) (f : FRef) (v : Nat) : (m.set f v).hv = m.hv := rfl
@[simp] theorem Mach.set_thm (m : Mach) (f : FRef) (v : Nat) : (m.set f v).thm = m.thm := rfl
@[simp] theorem Mach.set_shunt (m : Mach) (f : FRef) (v : Nat) : (m.set f v).shunt = m.shunt := rfl
@[simp] theorem Mach.set_enc (m : Mach) (f : FRef) (v : Nat) : (m.set f v).enc = m.enc := rfl
@[simp] theorem Mach.set_ssi (m : Mach) (f : FRef) (v : Nat) : (m.set f v).ssi = m.ssi := rfl
@[simp] theorem Mach.set_sns (m : Mach) (f : FRef) (v : Nat) : (m.set f v).sns = m.sns := rfl
@[simp] theorem Mach.set_heldEdges (m : Mach) (f : FRef) (v : Nat) : (m.set f v).heldEdges = m.heldEdges := rfl
@[simp] theorem Mach.set_axes (m : Mach) (f : FRef) (v : Nat) : (m.set f v).axes = m.axes := rfl
@[simp] theorem Mach.set_peat (m : Mach) (f : FRef) (v : Nat) : (m.set f v).peat = m.peat := rfl
@[simp] theorem Mach.set_mark (m : Mach) (f : FRef) (v : Nat) : (m.set f v).mark = m.mark := rfl
@[simp] theorem Mach.set_dram (m : Mach) (f : FRef) (v : Nat) : (m.set f v).dram = m.dram := rfl
@[simp] theorem Mach.set_hif (m : Mach) (f : FRef) (v : Nat) : (m.set f v).hif = m.hif := rfl
@[simp] theorem Mach.set_gp (m : Mach) (f : FRef) (v : Nat) : (m.set f v).gp = m.gp := rfl
@[simp] theorem Mach.set_sent (m : Mach) (f : FRef) (v : Nat) : (m.set f v).sent = m.sent := rfl

@[simp] theorem Mach.setI_part (m : Mach) (f : FRef) (v : Int) : (m.setI f v).part = m.part := rfl
@[simp] theorem Mach.setI_pend (m : Mach) (f : FRef) (v : Int) : (m.setI f v).pend = m.pend := rfl
@[simp] theorem Mach.setI_latches (m : Mach) (f : FRef) (v : Int) : (m.setI f v).latches = m.latches := rfl
@[simp] theorem Mach.setI_perReq (m : Mach) (f : FRef) (v : Int) : (m.setI f v).perReq = m.perReq := rfl
@[simp] theorem Mach.setI_reply (m : Mach) (f : FRef) (v : Int) : (m.setI f v).reply = m.reply := rfl
@[simp] theorem Mach.setI_fresh (m : Mach) (f : FRef) (v : Int) : (m.setI f v).fresh = m.fresh := rfl
@[simp] theorem Mach.setI_clk (m : Mach) (f : FRef) (v : Int) : (m.setI f v).clk = m.clk := rfl
@[simp] theorem Mach.setI_sheets (m : Mach) (f : FRef) (v : Int) : (m.setI f v).sheets = m.sheets := rfl
@[simp] theorem Mach.setI_flt (m : Mach) (f : FRef) (v : Int) : (m.setI f v).flt = m.flt := rfl
@[simp] theorem Mach.setI_snap (m : Mach) (f : FRef) (v : Int) : (m.setI f v).snap = m.snap := rfl
@[simp] theorem Mach.setI_cox (m : Mach) (f : FRef) (v : Int) : (m.setI f v).cox = m.cox := rfl
@[simp] theorem Mach.setI_scl (m : Mach) (f : FRef) (v : Int) : (m.setI f v).scl = m.scl := rfl
@[simp] theorem Mach.setI_fjl (m : Mach) (f : FRef) (v : Int) : (m.setI f v).fjl = m.fjl := rfl
@[simp] theorem Mach.setI_sec (m : Mach) (f : FRef) (v : Int) : (m.setI f v).sec = m.sec := rfl
@[simp] theorem Mach.setI_drv (m : Mach) (f : FRef) (v : Int) : (m.setI f v).drv = m.drv := rfl
@[simp] theorem Mach.setI_mot (m : Mach) (f : FRef) (v : Int) : (m.setI f v).mot = m.mot := rfl
@[simp] theorem Mach.setI_pwr (m : Mach) (f : FRef) (v : Int) : (m.setI f v).pwr = m.pwr := rfl
@[simp] theorem Mach.setI_vid (m : Mach) (f : FRef) (v : Int) : (m.setI f v).vid = m.vid := rfl
@[simp] theorem Mach.setI_fus (m : Mach) (f : FRef) (v : Int) : (m.setI f v).fus = m.fus := rfl
@[simp] theorem Mach.setI_adc (m : Mach) (f : FRef) (v : Int) : (m.setI f v).adc = m.adc := rfl
@[simp] theorem Mach.setI_hv (m : Mach) (f : FRef) (v : Int) : (m.setI f v).hv = m.hv := rfl
@[simp] theorem Mach.setI_thm (m : Mach) (f : FRef) (v : Int) : (m.setI f v).thm = m.thm := rfl
@[simp] theorem Mach.setI_shunt (m : Mach) (f : FRef) (v : Int) : (m.setI f v).shunt = m.shunt := rfl
@[simp] theorem Mach.setI_enc (m : Mach) (f : FRef) (v : Int) : (m.setI f v).enc = m.enc := rfl
@[simp] theorem Mach.setI_ssi (m : Mach) (f : FRef) (v : Int) : (m.setI f v).ssi = m.ssi := rfl
@[simp] theorem Mach.setI_sns (m : Mach) (f : FRef) (v : Int) : (m.setI f v).sns = m.sns := rfl
@[simp] theorem Mach.setI_heldEdges (m : Mach) (f : FRef) (v : Int) : (m.setI f v).heldEdges = m.heldEdges := rfl
@[simp] theorem Mach.setI_axes (m : Mach) (f : FRef) (v : Int) : (m.setI f v).axes = m.axes := rfl
@[simp] theorem Mach.setI_peat (m : Mach) (f : FRef) (v : Int) : (m.setI f v).peat = m.peat := rfl
@[simp] theorem Mach.setI_mark (m : Mach) (f : FRef) (v : Int) : (m.setI f v).mark = m.mark := rfl
@[simp] theorem Mach.setI_dram (m : Mach) (f : FRef) (v : Int) : (m.setI f v).dram = m.dram := rfl
@[simp] theorem Mach.setI_hif (m : Mach) (f : FRef) (v : Int) : (m.setI f v).hif = m.hif := rfl
@[simp] theorem Mach.setI_gp (m : Mach) (f : FRef) (v : Int) : (m.setI f v).gp = m.gp := rfl
@[simp] theorem Mach.setI_sent (m : Mach) (f : FRef) (v : Int) : (m.setI f v).sent = m.sent := rfl

@[simp] theorem Mach.incSat_part (m : Mach) (f : FRef) (n : Nat) : (m.incSat f n).part = m.part := rfl
@[simp] theorem Mach.incSat_pend (m : Mach) (f : FRef) (n : Nat) : (m.incSat f n).pend = m.pend := rfl
@[simp] theorem Mach.incSat_latches (m : Mach) (f : FRef) (n : Nat) : (m.incSat f n).latches = m.latches := rfl
@[simp] theorem Mach.incSat_perReq (m : Mach) (f : FRef) (n : Nat) : (m.incSat f n).perReq = m.perReq := rfl
@[simp] theorem Mach.incSat_reply (m : Mach) (f : FRef) (n : Nat) : (m.incSat f n).reply = m.reply := rfl
@[simp] theorem Mach.incSat_fresh (m : Mach) (f : FRef) (n : Nat) : (m.incSat f n).fresh = m.fresh := rfl
@[simp] theorem Mach.incSat_clk (m : Mach) (f : FRef) (n : Nat) : (m.incSat f n).clk = m.clk := rfl
@[simp] theorem Mach.incSat_sheets (m : Mach) (f : FRef) (n : Nat) : (m.incSat f n).sheets = m.sheets := rfl
@[simp] theorem Mach.incSat_flt (m : Mach) (f : FRef) (n : Nat) : (m.incSat f n).flt = m.flt := rfl
@[simp] theorem Mach.incSat_snap (m : Mach) (f : FRef) (n : Nat) : (m.incSat f n).snap = m.snap := rfl
@[simp] theorem Mach.incSat_cox (m : Mach) (f : FRef) (n : Nat) : (m.incSat f n).cox = m.cox := rfl
@[simp] theorem Mach.incSat_scl (m : Mach) (f : FRef) (n : Nat) : (m.incSat f n).scl = m.scl := rfl
@[simp] theorem Mach.incSat_fjl (m : Mach) (f : FRef) (n : Nat) : (m.incSat f n).fjl = m.fjl := rfl
@[simp] theorem Mach.incSat_sec (m : Mach) (f : FRef) (n : Nat) : (m.incSat f n).sec = m.sec := rfl
@[simp] theorem Mach.incSat_drv (m : Mach) (f : FRef) (n : Nat) : (m.incSat f n).drv = m.drv := rfl
@[simp] theorem Mach.incSat_mot (m : Mach) (f : FRef) (n : Nat) : (m.incSat f n).mot = m.mot := rfl
@[simp] theorem Mach.incSat_pwr (m : Mach) (f : FRef) (n : Nat) : (m.incSat f n).pwr = m.pwr := rfl
@[simp] theorem Mach.incSat_vid (m : Mach) (f : FRef) (n : Nat) : (m.incSat f n).vid = m.vid := rfl
@[simp] theorem Mach.incSat_fus (m : Mach) (f : FRef) (n : Nat) : (m.incSat f n).fus = m.fus := rfl
@[simp] theorem Mach.incSat_adc (m : Mach) (f : FRef) (n : Nat) : (m.incSat f n).adc = m.adc := rfl
@[simp] theorem Mach.incSat_hv (m : Mach) (f : FRef) (n : Nat) : (m.incSat f n).hv = m.hv := rfl
@[simp] theorem Mach.incSat_thm (m : Mach) (f : FRef) (n : Nat) : (m.incSat f n).thm = m.thm := rfl
@[simp] theorem Mach.incSat_shunt (m : Mach) (f : FRef) (n : Nat) : (m.incSat f n).shunt = m.shunt := rfl
@[simp] theorem Mach.incSat_enc (m : Mach) (f : FRef) (n : Nat) : (m.incSat f n).enc = m.enc := rfl
@[simp] theorem Mach.incSat_ssi (m : Mach) (f : FRef) (n : Nat) : (m.incSat f n).ssi = m.ssi := rfl
@[simp] theorem Mach.incSat_sns (m : Mach) (f : FRef) (n : Nat) : (m.incSat f n).sns = m.sns := rfl
@[simp] theorem Mach.incSat_heldEdges (m : Mach) (f : FRef) (n : Nat) : (m.incSat f n).heldEdges = m.heldEdges := rfl
@[simp] theorem Mach.incSat_axes (m : Mach) (f : FRef) (n : Nat) : (m.incSat f n).axes = m.axes := rfl
@[simp] theorem Mach.incSat_peat (m : Mach) (f : FRef) (n : Nat) : (m.incSat f n).peat = m.peat := rfl
@[simp] theorem Mach.incSat_mark (m : Mach) (f : FRef) (n : Nat) : (m.incSat f n).mark = m.mark := rfl
@[simp] theorem Mach.incSat_dram (m : Mach) (f : FRef) (n : Nat) : (m.incSat f n).dram = m.dram := rfl
@[simp] theorem Mach.incSat_hif (m : Mach) (f : FRef) (n : Nat) : (m.incSat f n).hif = m.hif := rfl
@[simp] theorem Mach.incSat_gp (m : Mach) (f : FRef) (n : Nat) : (m.incSat f n).gp = m.gp := rfl
@[simp] theorem Mach.incSat_sent (m : Mach) (f : FRef) (n : Nat) : (m.incSat f n).sent = m.sent := rfl

@[simp] theorem Mach.incWrap_part (m : Mach) (f : FRef) (n : Nat) : (m.incWrap f n).part = m.part := rfl
@[simp] theorem Mach.incWrap_pend (m : Mach) (f : FRef) (n : Nat) : (m.incWrap f n).pend = m.pend := rfl
@[simp] theorem Mach.incWrap_latches (m : Mach) (f : FRef) (n : Nat) : (m.incWrap f n).latches = m.latches := rfl
@[simp] theorem Mach.incWrap_perReq (m : Mach) (f : FRef) (n : Nat) : (m.incWrap f n).perReq = m.perReq := rfl
@[simp] theorem Mach.incWrap_reply (m : Mach) (f : FRef) (n : Nat) : (m.incWrap f n).reply = m.reply := rfl
@[simp] theorem Mach.incWrap_fresh (m : Mach) (f : FRef) (n : Nat) : (m.incWrap f n).fresh = m.fresh := rfl
@[simp] theorem Mach.incWrap_clk (m : Mach) (f : FRef) (n : Nat) : (m.incWrap f n).clk = m.clk := rfl
@[simp] theorem Mach.incWrap_sheets (m : Mach) (f : FRef) (n : Nat) : (m.incWrap f n).sheets = m.sheets := rfl
@[simp] theorem Mach.incWrap_flt (m : Mach) (f : FRef) (n : Nat) : (m.incWrap f n).flt = m.flt := rfl
@[simp] theorem Mach.incWrap_snap (m : Mach) (f : FRef) (n : Nat) : (m.incWrap f n).snap = m.snap := rfl
@[simp] theorem Mach.incWrap_cox (m : Mach) (f : FRef) (n : Nat) : (m.incWrap f n).cox = m.cox := rfl
@[simp] theorem Mach.incWrap_scl (m : Mach) (f : FRef) (n : Nat) : (m.incWrap f n).scl = m.scl := rfl
@[simp] theorem Mach.incWrap_fjl (m : Mach) (f : FRef) (n : Nat) : (m.incWrap f n).fjl = m.fjl := rfl
@[simp] theorem Mach.incWrap_sec (m : Mach) (f : FRef) (n : Nat) : (m.incWrap f n).sec = m.sec := rfl
@[simp] theorem Mach.incWrap_drv (m : Mach) (f : FRef) (n : Nat) : (m.incWrap f n).drv = m.drv := rfl
@[simp] theorem Mach.incWrap_mot (m : Mach) (f : FRef) (n : Nat) : (m.incWrap f n).mot = m.mot := rfl
@[simp] theorem Mach.incWrap_pwr (m : Mach) (f : FRef) (n : Nat) : (m.incWrap f n).pwr = m.pwr := rfl
@[simp] theorem Mach.incWrap_vid (m : Mach) (f : FRef) (n : Nat) : (m.incWrap f n).vid = m.vid := rfl
@[simp] theorem Mach.incWrap_fus (m : Mach) (f : FRef) (n : Nat) : (m.incWrap f n).fus = m.fus := rfl
@[simp] theorem Mach.incWrap_adc (m : Mach) (f : FRef) (n : Nat) : (m.incWrap f n).adc = m.adc := rfl
@[simp] theorem Mach.incWrap_hv (m : Mach) (f : FRef) (n : Nat) : (m.incWrap f n).hv = m.hv := rfl
@[simp] theorem Mach.incWrap_thm (m : Mach) (f : FRef) (n : Nat) : (m.incWrap f n).thm = m.thm := rfl
@[simp] theorem Mach.incWrap_shunt (m : Mach) (f : FRef) (n : Nat) : (m.incWrap f n).shunt = m.shunt := rfl
@[simp] theorem Mach.incWrap_enc (m : Mach) (f : FRef) (n : Nat) : (m.incWrap f n).enc = m.enc := rfl
@[simp] theorem Mach.incWrap_ssi (m : Mach) (f : FRef) (n : Nat) : (m.incWrap f n).ssi = m.ssi := rfl
@[simp] theorem Mach.incWrap_sns (m : Mach) (f : FRef) (n : Nat) : (m.incWrap f n).sns = m.sns := rfl
@[simp] theorem Mach.incWrap_heldEdges (m : Mach) (f : FRef) (n : Nat) : (m.incWrap f n).heldEdges = m.heldEdges := rfl
@[simp] theorem Mach.incWrap_axes (m : Mach) (f : FRef) (n : Nat) : (m.incWrap f n).axes = m.axes := rfl
@[simp] theorem Mach.incWrap_peat (m : Mach) (f : FRef) (n : Nat) : (m.incWrap f n).peat = m.peat := rfl
@[simp] theorem Mach.incWrap_mark (m : Mach) (f : FRef) (n : Nat) : (m.incWrap f n).mark = m.mark := rfl
@[simp] theorem Mach.incWrap_dram (m : Mach) (f : FRef) (n : Nat) : (m.incWrap f n).dram = m.dram := rfl
@[simp] theorem Mach.incWrap_hif (m : Mach) (f : FRef) (n : Nat) : (m.incWrap f n).hif = m.hif := rfl
@[simp] theorem Mach.incWrap_gp (m : Mach) (f : FRef) (n : Nat) : (m.incWrap f n).gp = m.gp := rfl
@[simp] theorem Mach.incWrap_sent (m : Mach) (f : FRef) (n : Nat) : (m.incWrap f n).sent = m.sent := rfl

@[simp] theorem Mach.setOwn_part (m : Mach) (q off : Nat) (w : Word) : (m.setOwn q off w).part = m.part := rfl
@[simp] theorem Mach.setOwn_regs (m : Mach) (q off : Nat) (w : Word) : (m.setOwn q off w).regs = m.regs := rfl
@[simp] theorem Mach.setOwn_pend (m : Mach) (q off : Nat) (w : Word) : (m.setOwn q off w).pend = m.pend := rfl
@[simp] theorem Mach.setOwn_latches (m : Mach) (q off : Nat) (w : Word) : (m.setOwn q off w).latches = m.latches := rfl
@[simp] theorem Mach.setOwn_perReq (m : Mach) (q off : Nat) (w : Word) : (m.setOwn q off w).perReq =
    tput (reqKey q off) w m.perReq := rfl
@[simp] theorem Mach.setOwn_reply (m : Mach) (q off : Nat) (w : Word) : (m.setOwn q off w).reply = m.reply := rfl
@[simp] theorem Mach.setOwn_fresh (m : Mach) (q off : Nat) (w : Word) : (m.setOwn q off w).fresh = m.fresh := rfl
@[simp] theorem Mach.setOwn_clk (m : Mach) (q off : Nat) (w : Word) : (m.setOwn q off w).clk = m.clk := rfl
@[simp] theorem Mach.setOwn_sheets (m : Mach) (q off : Nat) (w : Word) : (m.setOwn q off w).sheets = m.sheets := rfl
@[simp] theorem Mach.setOwn_flt (m : Mach) (q off : Nat) (w : Word) : (m.setOwn q off w).flt = m.flt := rfl
@[simp] theorem Mach.setOwn_snap (m : Mach) (q off : Nat) (w : Word) : (m.setOwn q off w).snap = m.snap := rfl
@[simp] theorem Mach.setOwn_cox (m : Mach) (q off : Nat) (w : Word) : (m.setOwn q off w).cox = m.cox := rfl
@[simp] theorem Mach.setOwn_scl (m : Mach) (q off : Nat) (w : Word) : (m.setOwn q off w).scl = m.scl := rfl
@[simp] theorem Mach.setOwn_fjl (m : Mach) (q off : Nat) (w : Word) : (m.setOwn q off w).fjl = m.fjl := rfl
@[simp] theorem Mach.setOwn_sec (m : Mach) (q off : Nat) (w : Word) : (m.setOwn q off w).sec = m.sec := rfl
@[simp] theorem Mach.setOwn_drv (m : Mach) (q off : Nat) (w : Word) : (m.setOwn q off w).drv = m.drv := rfl
@[simp] theorem Mach.setOwn_mot (m : Mach) (q off : Nat) (w : Word) : (m.setOwn q off w).mot = m.mot := rfl
@[simp] theorem Mach.setOwn_pwr (m : Mach) (q off : Nat) (w : Word) : (m.setOwn q off w).pwr = m.pwr := rfl
@[simp] theorem Mach.setOwn_vid (m : Mach) (q off : Nat) (w : Word) : (m.setOwn q off w).vid = m.vid := rfl
@[simp] theorem Mach.setOwn_fus (m : Mach) (q off : Nat) (w : Word) : (m.setOwn q off w).fus = m.fus := rfl
@[simp] theorem Mach.setOwn_adc (m : Mach) (q off : Nat) (w : Word) : (m.setOwn q off w).adc = m.adc := rfl
@[simp] theorem Mach.setOwn_hv (m : Mach) (q off : Nat) (w : Word) : (m.setOwn q off w).hv = m.hv := rfl
@[simp] theorem Mach.setOwn_thm (m : Mach) (q off : Nat) (w : Word) : (m.setOwn q off w).thm = m.thm := rfl
@[simp] theorem Mach.setOwn_shunt (m : Mach) (q off : Nat) (w : Word) : (m.setOwn q off w).shunt = m.shunt := rfl
@[simp] theorem Mach.setOwn_enc (m : Mach) (q off : Nat) (w : Word) : (m.setOwn q off w).enc = m.enc := rfl
@[simp] theorem Mach.setOwn_ssi (m : Mach) (q off : Nat) (w : Word) : (m.setOwn q off w).ssi = m.ssi := rfl
@[simp] theorem Mach.setOwn_sns (m : Mach) (q off : Nat) (w : Word) : (m.setOwn q off w).sns = m.sns := rfl
@[simp] theorem Mach.setOwn_heldEdges (m : Mach) (q off : Nat) (w : Word) : (m.setOwn q off w).heldEdges = m.heldEdges := rfl
@[simp] theorem Mach.setOwn_axes (m : Mach) (q off : Nat) (w : Word) : (m.setOwn q off w).axes = m.axes := rfl
@[simp] theorem Mach.setOwn_peat (m : Mach) (q off : Nat) (w : Word) : (m.setOwn q off w).peat = m.peat := rfl
@[simp] theorem Mach.setOwn_mark (m : Mach) (q off : Nat) (w : Word) : (m.setOwn q off w).mark = m.mark := rfl
@[simp] theorem Mach.setOwn_dram (m : Mach) (q off : Nat) (w : Word) : (m.setOwn q off w).dram = m.dram := rfl
@[simp] theorem Mach.setOwn_hif (m : Mach) (q off : Nat) (w : Word) : (m.setOwn q off w).hif = m.hif := rfl
@[simp] theorem Mach.setOwn_gp (m : Mach) (q off : Nat) (w : Word) : (m.setOwn q off w).gp = m.gp := rfl
@[simp] theorem Mach.setOwn_sent (m : Mach) (q off : Nat) (w : Word) : (m.setOwn q off w).sent = m.sent := rfl

@[simp] theorem Mach.answer_part (m : Mach) (q : Requester) (w : Word) : (m.answer q w).part = m.part := rfl
@[simp] theorem Mach.answer_regs (m : Mach) (q : Requester) (w : Word) : (m.answer q w).regs = m.regs := rfl
@[simp] theorem Mach.answer_pend (m : Mach) (q : Requester) (w : Word) : (m.answer q w).pend = m.pend := rfl
@[simp] theorem Mach.answer_latches (m : Mach) (q : Requester) (w : Word) : (m.answer q w).latches = m.latches := rfl
@[simp] theorem Mach.answer_perReq (m : Mach) (q : Requester) (w : Word) : (m.answer q w).perReq = m.perReq := rfl
@[simp] theorem Mach.answer_reply (m : Mach) (q : Requester) (w : Word) : (m.answer q w).reply =
    tput (Requester.id q) w m.reply := rfl
@[simp] theorem Mach.answer_fresh (m : Mach) (q : Requester) (w : Word) : (m.answer q w).fresh = m.fresh := rfl
@[simp] theorem Mach.answer_clk (m : Mach) (q : Requester) (w : Word) : (m.answer q w).clk = m.clk := rfl
@[simp] theorem Mach.answer_sheets (m : Mach) (q : Requester) (w : Word) : (m.answer q w).sheets = m.sheets := rfl
@[simp] theorem Mach.answer_flt (m : Mach) (q : Requester) (w : Word) : (m.answer q w).flt = m.flt := rfl
@[simp] theorem Mach.answer_snap (m : Mach) (q : Requester) (w : Word) : (m.answer q w).snap = m.snap := rfl
@[simp] theorem Mach.answer_cox (m : Mach) (q : Requester) (w : Word) : (m.answer q w).cox = m.cox := rfl
@[simp] theorem Mach.answer_scl (m : Mach) (q : Requester) (w : Word) : (m.answer q w).scl = m.scl := rfl
@[simp] theorem Mach.answer_fjl (m : Mach) (q : Requester) (w : Word) : (m.answer q w).fjl = m.fjl := rfl
@[simp] theorem Mach.answer_sec (m : Mach) (q : Requester) (w : Word) : (m.answer q w).sec = m.sec := rfl
@[simp] theorem Mach.answer_drv (m : Mach) (q : Requester) (w : Word) : (m.answer q w).drv = m.drv := rfl
@[simp] theorem Mach.answer_mot (m : Mach) (q : Requester) (w : Word) : (m.answer q w).mot = m.mot := rfl
@[simp] theorem Mach.answer_pwr (m : Mach) (q : Requester) (w : Word) : (m.answer q w).pwr = m.pwr := rfl
@[simp] theorem Mach.answer_vid (m : Mach) (q : Requester) (w : Word) : (m.answer q w).vid = m.vid := rfl
@[simp] theorem Mach.answer_fus (m : Mach) (q : Requester) (w : Word) : (m.answer q w).fus = m.fus := rfl
@[simp] theorem Mach.answer_adc (m : Mach) (q : Requester) (w : Word) : (m.answer q w).adc = m.adc := rfl
@[simp] theorem Mach.answer_hv (m : Mach) (q : Requester) (w : Word) : (m.answer q w).hv = m.hv := rfl
@[simp] theorem Mach.answer_thm (m : Mach) (q : Requester) (w : Word) : (m.answer q w).thm = m.thm := rfl
@[simp] theorem Mach.answer_shunt (m : Mach) (q : Requester) (w : Word) : (m.answer q w).shunt = m.shunt := rfl
@[simp] theorem Mach.answer_enc (m : Mach) (q : Requester) (w : Word) : (m.answer q w).enc = m.enc := rfl
@[simp] theorem Mach.answer_ssi (m : Mach) (q : Requester) (w : Word) : (m.answer q w).ssi = m.ssi := rfl
@[simp] theorem Mach.answer_sns (m : Mach) (q : Requester) (w : Word) : (m.answer q w).sns = m.sns := rfl
@[simp] theorem Mach.answer_heldEdges (m : Mach) (q : Requester) (w : Word) : (m.answer q w).heldEdges = m.heldEdges := rfl
@[simp] theorem Mach.answer_axes (m : Mach) (q : Requester) (w : Word) : (m.answer q w).axes = m.axes := rfl
@[simp] theorem Mach.answer_peat (m : Mach) (q : Requester) (w : Word) : (m.answer q w).peat = m.peat := rfl
@[simp] theorem Mach.answer_mark (m : Mach) (q : Requester) (w : Word) : (m.answer q w).mark = m.mark := rfl
@[simp] theorem Mach.answer_dram (m : Mach) (q : Requester) (w : Word) : (m.answer q w).dram = m.dram := rfl
@[simp] theorem Mach.answer_hif (m : Mach) (q : Requester) (w : Word) : (m.answer q w).hif = m.hif := rfl
@[simp] theorem Mach.answer_gp (m : Mach) (q : Requester) (w : Word) : (m.answer q w).gp = m.gp := rfl
@[simp] theorem Mach.answer_sent (m : Mach) (q : Requester) (w : Word) : (m.answer q w).sent = m.sent := rfl

@[simp] theorem Mach.send_part (m : Mach) (x : Sent) : (m.send x).part = m.part := rfl
@[simp] theorem Mach.send_regs (m : Mach) (x : Sent) : (m.send x).regs = m.regs := rfl
@[simp] theorem Mach.send_pend (m : Mach) (x : Sent) : (m.send x).pend = m.pend := rfl
@[simp] theorem Mach.send_latches (m : Mach) (x : Sent) : (m.send x).latches = m.latches := rfl
@[simp] theorem Mach.send_perReq (m : Mach) (x : Sent) : (m.send x).perReq = m.perReq := rfl
@[simp] theorem Mach.send_reply (m : Mach) (x : Sent) : (m.send x).reply = m.reply := rfl
@[simp] theorem Mach.send_fresh (m : Mach) (x : Sent) : (m.send x).fresh = m.fresh := rfl
@[simp] theorem Mach.send_clk (m : Mach) (x : Sent) : (m.send x).clk = m.clk := rfl
@[simp] theorem Mach.send_sheets (m : Mach) (x : Sent) : (m.send x).sheets = m.sheets := rfl
@[simp] theorem Mach.send_flt (m : Mach) (x : Sent) : (m.send x).flt = m.flt := rfl
@[simp] theorem Mach.send_snap (m : Mach) (x : Sent) : (m.send x).snap = m.snap := rfl
@[simp] theorem Mach.send_cox (m : Mach) (x : Sent) : (m.send x).cox = m.cox := rfl
@[simp] theorem Mach.send_scl (m : Mach) (x : Sent) : (m.send x).scl = m.scl := rfl
@[simp] theorem Mach.send_fjl (m : Mach) (x : Sent) : (m.send x).fjl = m.fjl := rfl
@[simp] theorem Mach.send_sec (m : Mach) (x : Sent) : (m.send x).sec = m.sec := rfl
@[simp] theorem Mach.send_drv (m : Mach) (x : Sent) : (m.send x).drv = m.drv := rfl
@[simp] theorem Mach.send_mot (m : Mach) (x : Sent) : (m.send x).mot = m.mot := rfl
@[simp] theorem Mach.send_pwr (m : Mach) (x : Sent) : (m.send x).pwr = m.pwr := rfl
@[simp] theorem Mach.send_vid (m : Mach) (x : Sent) : (m.send x).vid = m.vid := rfl
@[simp] theorem Mach.send_fus (m : Mach) (x : Sent) : (m.send x).fus = m.fus := rfl
@[simp] theorem Mach.send_adc (m : Mach) (x : Sent) : (m.send x).adc = m.adc := rfl
@[simp] theorem Mach.send_hv (m : Mach) (x : Sent) : (m.send x).hv = m.hv := rfl
@[simp] theorem Mach.send_thm (m : Mach) (x : Sent) : (m.send x).thm = m.thm := rfl
@[simp] theorem Mach.send_shunt (m : Mach) (x : Sent) : (m.send x).shunt = m.shunt := rfl
@[simp] theorem Mach.send_enc (m : Mach) (x : Sent) : (m.send x).enc = m.enc := rfl
@[simp] theorem Mach.send_ssi (m : Mach) (x : Sent) : (m.send x).ssi = m.ssi := rfl
@[simp] theorem Mach.send_sns (m : Mach) (x : Sent) : (m.send x).sns = m.sns := rfl
@[simp] theorem Mach.send_heldEdges (m : Mach) (x : Sent) : (m.send x).heldEdges = m.heldEdges := rfl
@[simp] theorem Mach.send_axes (m : Mach) (x : Sent) : (m.send x).axes = m.axes := rfl
@[simp] theorem Mach.send_peat (m : Mach) (x : Sent) : (m.send x).peat = m.peat := rfl
@[simp] theorem Mach.send_mark (m : Mach) (x : Sent) : (m.send x).mark = m.mark := rfl
@[simp] theorem Mach.send_dram (m : Mach) (x : Sent) : (m.send x).dram = m.dram := rfl
@[simp] theorem Mach.send_hif (m : Mach) (x : Sent) : (m.send x).hif = m.hif := rfl
@[simp] theorem Mach.send_gp (m : Mach) (x : Sent) : (m.send x).gp = m.gp := rfl
@[simp] theorem Mach.send_sent (m : Mach) (x : Sent) : (m.send x).sent =
    m.sent ++ [x] := rfl

@[simp] theorem Mach.setCtx_part (m : Mach) (i : Nat) (c : Ctx) : (m.setCtx i c).part = m.part := rfl
@[simp] theorem Mach.setCtx_regs (m : Mach) (i : Nat) (c : Ctx) : (m.setCtx i c).regs = m.regs := rfl
@[simp] theorem Mach.setCtx_pend (m : Mach) (i : Nat) (c : Ctx) : (m.setCtx i c).pend = m.pend := rfl
@[simp] theorem Mach.setCtx_latches (m : Mach) (i : Nat) (c : Ctx) : (m.setCtx i c).latches = m.latches := rfl
@[simp] theorem Mach.setCtx_perReq (m : Mach) (i : Nat) (c : Ctx) : (m.setCtx i c).perReq = m.perReq := rfl
@[simp] theorem Mach.setCtx_reply (m : Mach) (i : Nat) (c : Ctx) : (m.setCtx i c).reply = m.reply := rfl
@[simp] theorem Mach.setCtx_fresh (m : Mach) (i : Nat) (c : Ctx) : (m.setCtx i c).fresh = m.fresh := rfl
@[simp] theorem Mach.setCtx_clk (m : Mach) (i : Nat) (c : Ctx) : (m.setCtx i c).clk = m.clk := rfl
@[simp] theorem Mach.setCtx_sheets (m : Mach) (i : Nat) (c : Ctx) : (m.setCtx i c).sheets = m.sheets := rfl
@[simp] theorem Mach.setCtx_flt (m : Mach) (i : Nat) (c : Ctx) : (m.setCtx i c).flt = m.flt := rfl
@[simp] theorem Mach.setCtx_snap (m : Mach) (i : Nat) (c : Ctx) : (m.setCtx i c).snap = m.snap := rfl
@[simp] theorem Mach.setCtx_cox (m : Mach) (i : Nat) (c : Ctx) : (m.setCtx i c).cox =
    { m.cox with ctxs := tput i c m.cox.ctxs } := rfl
@[simp] theorem Mach.setCtx_scl (m : Mach) (i : Nat) (c : Ctx) : (m.setCtx i c).scl = m.scl := rfl
@[simp] theorem Mach.setCtx_fjl (m : Mach) (i : Nat) (c : Ctx) : (m.setCtx i c).fjl = m.fjl := rfl
@[simp] theorem Mach.setCtx_sec (m : Mach) (i : Nat) (c : Ctx) : (m.setCtx i c).sec = m.sec := rfl
@[simp] theorem Mach.setCtx_drv (m : Mach) (i : Nat) (c : Ctx) : (m.setCtx i c).drv = m.drv := rfl
@[simp] theorem Mach.setCtx_mot (m : Mach) (i : Nat) (c : Ctx) : (m.setCtx i c).mot = m.mot := rfl
@[simp] theorem Mach.setCtx_pwr (m : Mach) (i : Nat) (c : Ctx) : (m.setCtx i c).pwr = m.pwr := rfl
@[simp] theorem Mach.setCtx_vid (m : Mach) (i : Nat) (c : Ctx) : (m.setCtx i c).vid = m.vid := rfl
@[simp] theorem Mach.setCtx_fus (m : Mach) (i : Nat) (c : Ctx) : (m.setCtx i c).fus = m.fus := rfl
@[simp] theorem Mach.setCtx_adc (m : Mach) (i : Nat) (c : Ctx) : (m.setCtx i c).adc = m.adc := rfl
@[simp] theorem Mach.setCtx_hv (m : Mach) (i : Nat) (c : Ctx) : (m.setCtx i c).hv = m.hv := rfl
@[simp] theorem Mach.setCtx_thm (m : Mach) (i : Nat) (c : Ctx) : (m.setCtx i c).thm = m.thm := rfl
@[simp] theorem Mach.setCtx_shunt (m : Mach) (i : Nat) (c : Ctx) : (m.setCtx i c).shunt = m.shunt := rfl
@[simp] theorem Mach.setCtx_enc (m : Mach) (i : Nat) (c : Ctx) : (m.setCtx i c).enc = m.enc := rfl
@[simp] theorem Mach.setCtx_ssi (m : Mach) (i : Nat) (c : Ctx) : (m.setCtx i c).ssi = m.ssi := rfl
@[simp] theorem Mach.setCtx_sns (m : Mach) (i : Nat) (c : Ctx) : (m.setCtx i c).sns = m.sns := rfl
@[simp] theorem Mach.setCtx_heldEdges (m : Mach) (i : Nat) (c : Ctx) : (m.setCtx i c).heldEdges = m.heldEdges := rfl
@[simp] theorem Mach.setCtx_axes (m : Mach) (i : Nat) (c : Ctx) : (m.setCtx i c).axes = m.axes := rfl
@[simp] theorem Mach.setCtx_peat (m : Mach) (i : Nat) (c : Ctx) : (m.setCtx i c).peat = m.peat := rfl
@[simp] theorem Mach.setCtx_mark (m : Mach) (i : Nat) (c : Ctx) : (m.setCtx i c).mark = m.mark := rfl
@[simp] theorem Mach.setCtx_dram (m : Mach) (i : Nat) (c : Ctx) : (m.setCtx i c).dram = m.dram := rfl
@[simp] theorem Mach.setCtx_hif (m : Mach) (i : Nat) (c : Ctx) : (m.setCtx i c).hif = m.hif := rfl
@[simp] theorem Mach.setCtx_gp (m : Mach) (i : Nat) (c : Ctx) : (m.setCtx i c).gp = m.gp := rfl
@[simp] theorem Mach.setCtx_sent (m : Mach) (i : Nat) (c : Ctx) : (m.setCtx i c).sent = m.sent := rfl

@[simp] theorem Mach.modCtx_part (m : Mach) (i : Nat) (f : Ctx → Ctx) : (m.modCtx i f).part = m.part := rfl
@[simp] theorem Mach.modCtx_regs (m : Mach) (i : Nat) (f : Ctx → Ctx) : (m.modCtx i f).regs = m.regs := rfl
@[simp] theorem Mach.modCtx_pend (m : Mach) (i : Nat) (f : Ctx → Ctx) : (m.modCtx i f).pend = m.pend := rfl
@[simp] theorem Mach.modCtx_latches (m : Mach) (i : Nat) (f : Ctx → Ctx) : (m.modCtx i f).latches = m.latches := rfl
@[simp] theorem Mach.modCtx_perReq (m : Mach) (i : Nat) (f : Ctx → Ctx) : (m.modCtx i f).perReq = m.perReq := rfl
@[simp] theorem Mach.modCtx_reply (m : Mach) (i : Nat) (f : Ctx → Ctx) : (m.modCtx i f).reply = m.reply := rfl
@[simp] theorem Mach.modCtx_fresh (m : Mach) (i : Nat) (f : Ctx → Ctx) : (m.modCtx i f).fresh = m.fresh := rfl
@[simp] theorem Mach.modCtx_clk (m : Mach) (i : Nat) (f : Ctx → Ctx) : (m.modCtx i f).clk = m.clk := rfl
@[simp] theorem Mach.modCtx_sheets (m : Mach) (i : Nat) (f : Ctx → Ctx) : (m.modCtx i f).sheets = m.sheets := rfl
@[simp] theorem Mach.modCtx_flt (m : Mach) (i : Nat) (f : Ctx → Ctx) : (m.modCtx i f).flt = m.flt := rfl
@[simp] theorem Mach.modCtx_snap (m : Mach) (i : Nat) (f : Ctx → Ctx) : (m.modCtx i f).snap = m.snap := rfl
@[simp] theorem Mach.modCtx_cox (m : Mach) (i : Nat) (f : Ctx → Ctx) : (m.modCtx i f).cox =
    { m.cox with ctxs := tput i (f (m.ctx i)) m.cox.ctxs } := rfl
@[simp] theorem Mach.modCtx_scl (m : Mach) (i : Nat) (f : Ctx → Ctx) : (m.modCtx i f).scl = m.scl := rfl
@[simp] theorem Mach.modCtx_fjl (m : Mach) (i : Nat) (f : Ctx → Ctx) : (m.modCtx i f).fjl = m.fjl := rfl
@[simp] theorem Mach.modCtx_sec (m : Mach) (i : Nat) (f : Ctx → Ctx) : (m.modCtx i f).sec = m.sec := rfl
@[simp] theorem Mach.modCtx_drv (m : Mach) (i : Nat) (f : Ctx → Ctx) : (m.modCtx i f).drv = m.drv := rfl
@[simp] theorem Mach.modCtx_mot (m : Mach) (i : Nat) (f : Ctx → Ctx) : (m.modCtx i f).mot = m.mot := rfl
@[simp] theorem Mach.modCtx_pwr (m : Mach) (i : Nat) (f : Ctx → Ctx) : (m.modCtx i f).pwr = m.pwr := rfl
@[simp] theorem Mach.modCtx_vid (m : Mach) (i : Nat) (f : Ctx → Ctx) : (m.modCtx i f).vid = m.vid := rfl
@[simp] theorem Mach.modCtx_fus (m : Mach) (i : Nat) (f : Ctx → Ctx) : (m.modCtx i f).fus = m.fus := rfl
@[simp] theorem Mach.modCtx_adc (m : Mach) (i : Nat) (f : Ctx → Ctx) : (m.modCtx i f).adc = m.adc := rfl
@[simp] theorem Mach.modCtx_hv (m : Mach) (i : Nat) (f : Ctx → Ctx) : (m.modCtx i f).hv = m.hv := rfl
@[simp] theorem Mach.modCtx_thm (m : Mach) (i : Nat) (f : Ctx → Ctx) : (m.modCtx i f).thm = m.thm := rfl
@[simp] theorem Mach.modCtx_shunt (m : Mach) (i : Nat) (f : Ctx → Ctx) : (m.modCtx i f).shunt = m.shunt := rfl
@[simp] theorem Mach.modCtx_enc (m : Mach) (i : Nat) (f : Ctx → Ctx) : (m.modCtx i f).enc = m.enc := rfl
@[simp] theorem Mach.modCtx_ssi (m : Mach) (i : Nat) (f : Ctx → Ctx) : (m.modCtx i f).ssi = m.ssi := rfl
@[simp] theorem Mach.modCtx_sns (m : Mach) (i : Nat) (f : Ctx → Ctx) : (m.modCtx i f).sns = m.sns := rfl
@[simp] theorem Mach.modCtx_heldEdges (m : Mach) (i : Nat) (f : Ctx → Ctx) : (m.modCtx i f).heldEdges = m.heldEdges := rfl
@[simp] theorem Mach.modCtx_axes (m : Mach) (i : Nat) (f : Ctx → Ctx) : (m.modCtx i f).axes = m.axes := rfl
@[simp] theorem Mach.modCtx_peat (m : Mach) (i : Nat) (f : Ctx → Ctx) : (m.modCtx i f).peat = m.peat := rfl
@[simp] theorem Mach.modCtx_mark (m : Mach) (i : Nat) (f : Ctx → Ctx) : (m.modCtx i f).mark = m.mark := rfl
@[simp] theorem Mach.modCtx_dram (m : Mach) (i : Nat) (f : Ctx → Ctx) : (m.modCtx i f).dram = m.dram := rfl
@[simp] theorem Mach.modCtx_hif (m : Mach) (i : Nat) (f : Ctx → Ctx) : (m.modCtx i f).hif = m.hif := rfl
@[simp] theorem Mach.modCtx_gp (m : Mach) (i : Nat) (f : Ctx → Ctx) : (m.modCtx i f).gp = m.gp := rfl
@[simp] theorem Mach.modCtx_sent (m : Mach) (i : Nat) (f : Ctx → Ctx) : (m.modCtx i f).sent = m.sent := rfl

@[simp] theorem Mach.setCmp_part (m : Mach) (i : Nat) (c : Cmp) : (m.setCmp i c).part = m.part := rfl
@[simp] theorem Mach.setCmp_regs (m : Mach) (i : Nat) (c : Cmp) : (m.setCmp i c).regs = m.regs := rfl
@[simp] theorem Mach.setCmp_pend (m : Mach) (i : Nat) (c : Cmp) : (m.setCmp i c).pend = m.pend := rfl
@[simp] theorem Mach.setCmp_latches (m : Mach) (i : Nat) (c : Cmp) : (m.setCmp i c).latches = m.latches := rfl
@[simp] theorem Mach.setCmp_perReq (m : Mach) (i : Nat) (c : Cmp) : (m.setCmp i c).perReq = m.perReq := rfl
@[simp] theorem Mach.setCmp_reply (m : Mach) (i : Nat) (c : Cmp) : (m.setCmp i c).reply = m.reply := rfl
@[simp] theorem Mach.setCmp_fresh (m : Mach) (i : Nat) (c : Cmp) : (m.setCmp i c).fresh = m.fresh := rfl
@[simp] theorem Mach.setCmp_clk (m : Mach) (i : Nat) (c : Cmp) : (m.setCmp i c).clk = m.clk := rfl
@[simp] theorem Mach.setCmp_sheets (m : Mach) (i : Nat) (c : Cmp) : (m.setCmp i c).sheets = m.sheets := rfl
@[simp] theorem Mach.setCmp_flt (m : Mach) (i : Nat) (c : Cmp) : (m.setCmp i c).flt = m.flt := rfl
@[simp] theorem Mach.setCmp_snap (m : Mach) (i : Nat) (c : Cmp) : (m.setCmp i c).snap = m.snap := rfl
@[simp] theorem Mach.setCmp_cox (m : Mach) (i : Nat) (c : Cmp) : (m.setCmp i c).cox =
    { m.cox with cmps := tput i c m.cox.cmps } := rfl
@[simp] theorem Mach.setCmp_scl (m : Mach) (i : Nat) (c : Cmp) : (m.setCmp i c).scl = m.scl := rfl
@[simp] theorem Mach.setCmp_fjl (m : Mach) (i : Nat) (c : Cmp) : (m.setCmp i c).fjl = m.fjl := rfl
@[simp] theorem Mach.setCmp_sec (m : Mach) (i : Nat) (c : Cmp) : (m.setCmp i c).sec = m.sec := rfl
@[simp] theorem Mach.setCmp_drv (m : Mach) (i : Nat) (c : Cmp) : (m.setCmp i c).drv = m.drv := rfl
@[simp] theorem Mach.setCmp_mot (m : Mach) (i : Nat) (c : Cmp) : (m.setCmp i c).mot = m.mot := rfl
@[simp] theorem Mach.setCmp_pwr (m : Mach) (i : Nat) (c : Cmp) : (m.setCmp i c).pwr = m.pwr := rfl
@[simp] theorem Mach.setCmp_vid (m : Mach) (i : Nat) (c : Cmp) : (m.setCmp i c).vid = m.vid := rfl
@[simp] theorem Mach.setCmp_fus (m : Mach) (i : Nat) (c : Cmp) : (m.setCmp i c).fus = m.fus := rfl
@[simp] theorem Mach.setCmp_adc (m : Mach) (i : Nat) (c : Cmp) : (m.setCmp i c).adc = m.adc := rfl
@[simp] theorem Mach.setCmp_hv (m : Mach) (i : Nat) (c : Cmp) : (m.setCmp i c).hv = m.hv := rfl
@[simp] theorem Mach.setCmp_thm (m : Mach) (i : Nat) (c : Cmp) : (m.setCmp i c).thm = m.thm := rfl
@[simp] theorem Mach.setCmp_shunt (m : Mach) (i : Nat) (c : Cmp) : (m.setCmp i c).shunt = m.shunt := rfl
@[simp] theorem Mach.setCmp_enc (m : Mach) (i : Nat) (c : Cmp) : (m.setCmp i c).enc = m.enc := rfl
@[simp] theorem Mach.setCmp_ssi (m : Mach) (i : Nat) (c : Cmp) : (m.setCmp i c).ssi = m.ssi := rfl
@[simp] theorem Mach.setCmp_sns (m : Mach) (i : Nat) (c : Cmp) : (m.setCmp i c).sns = m.sns := rfl
@[simp] theorem Mach.setCmp_heldEdges (m : Mach) (i : Nat) (c : Cmp) : (m.setCmp i c).heldEdges = m.heldEdges := rfl
@[simp] theorem Mach.setCmp_axes (m : Mach) (i : Nat) (c : Cmp) : (m.setCmp i c).axes = m.axes := rfl
@[simp] theorem Mach.setCmp_peat (m : Mach) (i : Nat) (c : Cmp) : (m.setCmp i c).peat = m.peat := rfl
@[simp] theorem Mach.setCmp_mark (m : Mach) (i : Nat) (c : Cmp) : (m.setCmp i c).mark = m.mark := rfl
@[simp] theorem Mach.setCmp_dram (m : Mach) (i : Nat) (c : Cmp) : (m.setCmp i c).dram = m.dram := rfl
@[simp] theorem Mach.setCmp_hif (m : Mach) (i : Nat) (c : Cmp) : (m.setCmp i c).hif = m.hif := rfl
@[simp] theorem Mach.setCmp_gp (m : Mach) (i : Nat) (c : Cmp) : (m.setCmp i c).gp = m.gp := rfl
@[simp] theorem Mach.setCmp_sent (m : Mach) (i : Nat) (c : Cmp) : (m.setCmp i c).sent = m.sent := rfl

@[simp] theorem Mach.setSheet_part (m : Mach) (r : Nat) (sh : Sheet) : (m.setSheet r sh).part = m.part := rfl
@[simp] theorem Mach.setSheet_regs (m : Mach) (r : Nat) (sh : Sheet) : (m.setSheet r sh).regs = m.regs := rfl
@[simp] theorem Mach.setSheet_pend (m : Mach) (r : Nat) (sh : Sheet) : (m.setSheet r sh).pend = m.pend := rfl
@[simp] theorem Mach.setSheet_latches (m : Mach) (r : Nat) (sh : Sheet) : (m.setSheet r sh).latches = m.latches := rfl
@[simp] theorem Mach.setSheet_perReq (m : Mach) (r : Nat) (sh : Sheet) : (m.setSheet r sh).perReq = m.perReq := rfl
@[simp] theorem Mach.setSheet_reply (m : Mach) (r : Nat) (sh : Sheet) : (m.setSheet r sh).reply = m.reply := rfl
@[simp] theorem Mach.setSheet_fresh (m : Mach) (r : Nat) (sh : Sheet) : (m.setSheet r sh).fresh = m.fresh := rfl
@[simp] theorem Mach.setSheet_clk (m : Mach) (r : Nat) (sh : Sheet) : (m.setSheet r sh).clk = m.clk := rfl
@[simp] theorem Mach.setSheet_sheets (m : Mach) (r : Nat) (sh : Sheet) : (m.setSheet r sh).sheets =
    tput r sh m.sheets := rfl
@[simp] theorem Mach.setSheet_flt (m : Mach) (r : Nat) (sh : Sheet) : (m.setSheet r sh).flt = m.flt := rfl
@[simp] theorem Mach.setSheet_snap (m : Mach) (r : Nat) (sh : Sheet) : (m.setSheet r sh).snap = m.snap := rfl
@[simp] theorem Mach.setSheet_cox (m : Mach) (r : Nat) (sh : Sheet) : (m.setSheet r sh).cox = m.cox := rfl
@[simp] theorem Mach.setSheet_scl (m : Mach) (r : Nat) (sh : Sheet) : (m.setSheet r sh).scl = m.scl := rfl
@[simp] theorem Mach.setSheet_fjl (m : Mach) (r : Nat) (sh : Sheet) : (m.setSheet r sh).fjl = m.fjl := rfl
@[simp] theorem Mach.setSheet_sec (m : Mach) (r : Nat) (sh : Sheet) : (m.setSheet r sh).sec = m.sec := rfl
@[simp] theorem Mach.setSheet_drv (m : Mach) (r : Nat) (sh : Sheet) : (m.setSheet r sh).drv = m.drv := rfl
@[simp] theorem Mach.setSheet_mot (m : Mach) (r : Nat) (sh : Sheet) : (m.setSheet r sh).mot = m.mot := rfl
@[simp] theorem Mach.setSheet_pwr (m : Mach) (r : Nat) (sh : Sheet) : (m.setSheet r sh).pwr = m.pwr := rfl
@[simp] theorem Mach.setSheet_vid (m : Mach) (r : Nat) (sh : Sheet) : (m.setSheet r sh).vid = m.vid := rfl
@[simp] theorem Mach.setSheet_fus (m : Mach) (r : Nat) (sh : Sheet) : (m.setSheet r sh).fus = m.fus := rfl
@[simp] theorem Mach.setSheet_adc (m : Mach) (r : Nat) (sh : Sheet) : (m.setSheet r sh).adc = m.adc := rfl
@[simp] theorem Mach.setSheet_hv (m : Mach) (r : Nat) (sh : Sheet) : (m.setSheet r sh).hv = m.hv := rfl
@[simp] theorem Mach.setSheet_thm (m : Mach) (r : Nat) (sh : Sheet) : (m.setSheet r sh).thm = m.thm := rfl
@[simp] theorem Mach.setSheet_shunt (m : Mach) (r : Nat) (sh : Sheet) : (m.setSheet r sh).shunt = m.shunt := rfl
@[simp] theorem Mach.setSheet_enc (m : Mach) (r : Nat) (sh : Sheet) : (m.setSheet r sh).enc = m.enc := rfl
@[simp] theorem Mach.setSheet_ssi (m : Mach) (r : Nat) (sh : Sheet) : (m.setSheet r sh).ssi = m.ssi := rfl
@[simp] theorem Mach.setSheet_sns (m : Mach) (r : Nat) (sh : Sheet) : (m.setSheet r sh).sns = m.sns := rfl
@[simp] theorem Mach.setSheet_heldEdges (m : Mach) (r : Nat) (sh : Sheet) : (m.setSheet r sh).heldEdges = m.heldEdges := rfl
@[simp] theorem Mach.setSheet_axes (m : Mach) (r : Nat) (sh : Sheet) : (m.setSheet r sh).axes = m.axes := rfl
@[simp] theorem Mach.setSheet_peat (m : Mach) (r : Nat) (sh : Sheet) : (m.setSheet r sh).peat = m.peat := rfl
@[simp] theorem Mach.setSheet_mark (m : Mach) (r : Nat) (sh : Sheet) : (m.setSheet r sh).mark = m.mark := rfl
@[simp] theorem Mach.setSheet_dram (m : Mach) (r : Nat) (sh : Sheet) : (m.setSheet r sh).dram = m.dram := rfl
@[simp] theorem Mach.setSheet_hif (m : Mach) (r : Nat) (sh : Sheet) : (m.setSheet r sh).hif = m.hif := rfl
@[simp] theorem Mach.setSheet_gp (m : Mach) (r : Nat) (sh : Sheet) : (m.setSheet r sh).gp = m.gp := rfl
@[simp] theorem Mach.setSheet_sent (m : Mach) (r : Nat) (sh : Sheet) : (m.setSheet r sh).sent = m.sent := rfl

@[simp] theorem Mach.setSyn_part (m : Mach) (k : Nat) (y : Syn) : (m.setSyn k y).part = m.part := rfl
@[simp] theorem Mach.setSyn_regs (m : Mach) (k : Nat) (y : Syn) : (m.setSyn k y).regs = m.regs := rfl
@[simp] theorem Mach.setSyn_pend (m : Mach) (k : Nat) (y : Syn) : (m.setSyn k y).pend = m.pend := rfl
@[simp] theorem Mach.setSyn_latches (m : Mach) (k : Nat) (y : Syn) : (m.setSyn k y).latches = m.latches := rfl
@[simp] theorem Mach.setSyn_perReq (m : Mach) (k : Nat) (y : Syn) : (m.setSyn k y).perReq = m.perReq := rfl
@[simp] theorem Mach.setSyn_reply (m : Mach) (k : Nat) (y : Syn) : (m.setSyn k y).reply = m.reply := rfl
@[simp] theorem Mach.setSyn_fresh (m : Mach) (k : Nat) (y : Syn) : (m.setSyn k y).fresh = m.fresh := rfl
@[simp] theorem Mach.setSyn_clk (m : Mach) (k : Nat) (y : Syn) : (m.setSyn k y).clk =
    { m.clk with syn := tput k y m.clk.syn } := rfl
@[simp] theorem Mach.setSyn_sheets (m : Mach) (k : Nat) (y : Syn) : (m.setSyn k y).sheets = m.sheets := rfl
@[simp] theorem Mach.setSyn_flt (m : Mach) (k : Nat) (y : Syn) : (m.setSyn k y).flt = m.flt := rfl
@[simp] theorem Mach.setSyn_snap (m : Mach) (k : Nat) (y : Syn) : (m.setSyn k y).snap = m.snap := rfl
@[simp] theorem Mach.setSyn_cox (m : Mach) (k : Nat) (y : Syn) : (m.setSyn k y).cox = m.cox := rfl
@[simp] theorem Mach.setSyn_scl (m : Mach) (k : Nat) (y : Syn) : (m.setSyn k y).scl = m.scl := rfl
@[simp] theorem Mach.setSyn_fjl (m : Mach) (k : Nat) (y : Syn) : (m.setSyn k y).fjl = m.fjl := rfl
@[simp] theorem Mach.setSyn_sec (m : Mach) (k : Nat) (y : Syn) : (m.setSyn k y).sec = m.sec := rfl
@[simp] theorem Mach.setSyn_drv (m : Mach) (k : Nat) (y : Syn) : (m.setSyn k y).drv = m.drv := rfl
@[simp] theorem Mach.setSyn_mot (m : Mach) (k : Nat) (y : Syn) : (m.setSyn k y).mot = m.mot := rfl
@[simp] theorem Mach.setSyn_pwr (m : Mach) (k : Nat) (y : Syn) : (m.setSyn k y).pwr = m.pwr := rfl
@[simp] theorem Mach.setSyn_vid (m : Mach) (k : Nat) (y : Syn) : (m.setSyn k y).vid = m.vid := rfl
@[simp] theorem Mach.setSyn_fus (m : Mach) (k : Nat) (y : Syn) : (m.setSyn k y).fus = m.fus := rfl
@[simp] theorem Mach.setSyn_adc (m : Mach) (k : Nat) (y : Syn) : (m.setSyn k y).adc = m.adc := rfl
@[simp] theorem Mach.setSyn_hv (m : Mach) (k : Nat) (y : Syn) : (m.setSyn k y).hv = m.hv := rfl
@[simp] theorem Mach.setSyn_thm (m : Mach) (k : Nat) (y : Syn) : (m.setSyn k y).thm = m.thm := rfl
@[simp] theorem Mach.setSyn_shunt (m : Mach) (k : Nat) (y : Syn) : (m.setSyn k y).shunt = m.shunt := rfl
@[simp] theorem Mach.setSyn_enc (m : Mach) (k : Nat) (y : Syn) : (m.setSyn k y).enc = m.enc := rfl
@[simp] theorem Mach.setSyn_ssi (m : Mach) (k : Nat) (y : Syn) : (m.setSyn k y).ssi = m.ssi := rfl
@[simp] theorem Mach.setSyn_sns (m : Mach) (k : Nat) (y : Syn) : (m.setSyn k y).sns = m.sns := rfl
@[simp] theorem Mach.setSyn_heldEdges (m : Mach) (k : Nat) (y : Syn) : (m.setSyn k y).heldEdges = m.heldEdges := rfl
@[simp] theorem Mach.setSyn_axes (m : Mach) (k : Nat) (y : Syn) : (m.setSyn k y).axes = m.axes := rfl
@[simp] theorem Mach.setSyn_peat (m : Mach) (k : Nat) (y : Syn) : (m.setSyn k y).peat = m.peat := rfl
@[simp] theorem Mach.setSyn_mark (m : Mach) (k : Nat) (y : Syn) : (m.setSyn k y).mark = m.mark := rfl
@[simp] theorem Mach.setSyn_dram (m : Mach) (k : Nat) (y : Syn) : (m.setSyn k y).dram = m.dram := rfl
@[simp] theorem Mach.setSyn_hif (m : Mach) (k : Nat) (y : Syn) : (m.setSyn k y).hif = m.hif := rfl
@[simp] theorem Mach.setSyn_gp (m : Mach) (k : Nat) (y : Syn) : (m.setSyn k y).gp = m.gp := rfl
@[simp] theorem Mach.setSyn_sent (m : Mach) (k : Nat) (y : Syn) : (m.setSyn k y).sent = m.sent := rfl

@[simp] theorem Mach.setVid_part (m : Mach) (n : Nat) (v : Vid) : (m.setVid n v).part = m.part := rfl
@[simp] theorem Mach.setVid_regs (m : Mach) (n : Nat) (v : Vid) : (m.setVid n v).regs = m.regs := rfl
@[simp] theorem Mach.setVid_pend (m : Mach) (n : Nat) (v : Vid) : (m.setVid n v).pend = m.pend := rfl
@[simp] theorem Mach.setVid_latches (m : Mach) (n : Nat) (v : Vid) : (m.setVid n v).latches = m.latches := rfl
@[simp] theorem Mach.setVid_perReq (m : Mach) (n : Nat) (v : Vid) : (m.setVid n v).perReq = m.perReq := rfl
@[simp] theorem Mach.setVid_reply (m : Mach) (n : Nat) (v : Vid) : (m.setVid n v).reply = m.reply := rfl
@[simp] theorem Mach.setVid_fresh (m : Mach) (n : Nat) (v : Vid) : (m.setVid n v).fresh = m.fresh := rfl
@[simp] theorem Mach.setVid_clk (m : Mach) (n : Nat) (v : Vid) : (m.setVid n v).clk = m.clk := rfl
@[simp] theorem Mach.setVid_sheets (m : Mach) (n : Nat) (v : Vid) : (m.setVid n v).sheets = m.sheets := rfl
@[simp] theorem Mach.setVid_flt (m : Mach) (n : Nat) (v : Vid) : (m.setVid n v).flt = m.flt := rfl
@[simp] theorem Mach.setVid_snap (m : Mach) (n : Nat) (v : Vid) : (m.setVid n v).snap = m.snap := rfl
@[simp] theorem Mach.setVid_cox (m : Mach) (n : Nat) (v : Vid) : (m.setVid n v).cox = m.cox := rfl
@[simp] theorem Mach.setVid_scl (m : Mach) (n : Nat) (v : Vid) : (m.setVid n v).scl = m.scl := rfl
@[simp] theorem Mach.setVid_fjl (m : Mach) (n : Nat) (v : Vid) : (m.setVid n v).fjl = m.fjl := rfl
@[simp] theorem Mach.setVid_sec (m : Mach) (n : Nat) (v : Vid) : (m.setVid n v).sec = m.sec := rfl
@[simp] theorem Mach.setVid_drv (m : Mach) (n : Nat) (v : Vid) : (m.setVid n v).drv = m.drv := rfl
@[simp] theorem Mach.setVid_mot (m : Mach) (n : Nat) (v : Vid) : (m.setVid n v).mot = m.mot := rfl
@[simp] theorem Mach.setVid_pwr (m : Mach) (n : Nat) (v : Vid) : (m.setVid n v).pwr = m.pwr := rfl
@[simp] theorem Mach.setVid_vid (m : Mach) (n : Nat) (v : Vid) : (m.setVid n v).vid =
    tput n v m.vid := rfl
@[simp] theorem Mach.setVid_fus (m : Mach) (n : Nat) (v : Vid) : (m.setVid n v).fus = m.fus := rfl
@[simp] theorem Mach.setVid_adc (m : Mach) (n : Nat) (v : Vid) : (m.setVid n v).adc = m.adc := rfl
@[simp] theorem Mach.setVid_hv (m : Mach) (n : Nat) (v : Vid) : (m.setVid n v).hv = m.hv := rfl
@[simp] theorem Mach.setVid_thm (m : Mach) (n : Nat) (v : Vid) : (m.setVid n v).thm = m.thm := rfl
@[simp] theorem Mach.setVid_shunt (m : Mach) (n : Nat) (v : Vid) : (m.setVid n v).shunt = m.shunt := rfl
@[simp] theorem Mach.setVid_enc (m : Mach) (n : Nat) (v : Vid) : (m.setVid n v).enc = m.enc := rfl
@[simp] theorem Mach.setVid_ssi (m : Mach) (n : Nat) (v : Vid) : (m.setVid n v).ssi = m.ssi := rfl
@[simp] theorem Mach.setVid_sns (m : Mach) (n : Nat) (v : Vid) : (m.setVid n v).sns = m.sns := rfl
@[simp] theorem Mach.setVid_heldEdges (m : Mach) (n : Nat) (v : Vid) : (m.setVid n v).heldEdges = m.heldEdges := rfl
@[simp] theorem Mach.setVid_axes (m : Mach) (n : Nat) (v : Vid) : (m.setVid n v).axes = m.axes := rfl
@[simp] theorem Mach.setVid_peat (m : Mach) (n : Nat) (v : Vid) : (m.setVid n v).peat = m.peat := rfl
@[simp] theorem Mach.setVid_mark (m : Mach) (n : Nat) (v : Vid) : (m.setVid n v).mark = m.mark := rfl
@[simp] theorem Mach.setVid_dram (m : Mach) (n : Nat) (v : Vid) : (m.setVid n v).dram = m.dram := rfl
@[simp] theorem Mach.setVid_hif (m : Mach) (n : Nat) (v : Vid) : (m.setVid n v).hif = m.hif := rfl
@[simp] theorem Mach.setVid_gp (m : Mach) (n : Nat) (v : Vid) : (m.setVid n v).gp = m.gp := rfl
@[simp] theorem Mach.setVid_sent (m : Mach) (n : Nat) (v : Vid) : (m.setVid n v).sent = m.sent := rfl

@[simp] theorem Mach.onVid_part (m : Mach) (n : Nat) (f : Vid → Vid) : (m.onVid n f).part = m.part := rfl
@[simp] theorem Mach.onVid_regs (m : Mach) (n : Nat) (f : Vid → Vid) : (m.onVid n f).regs = m.regs := rfl
@[simp] theorem Mach.onVid_pend (m : Mach) (n : Nat) (f : Vid → Vid) : (m.onVid n f).pend = m.pend := rfl
@[simp] theorem Mach.onVid_latches (m : Mach) (n : Nat) (f : Vid → Vid) : (m.onVid n f).latches = m.latches := rfl
@[simp] theorem Mach.onVid_perReq (m : Mach) (n : Nat) (f : Vid → Vid) : (m.onVid n f).perReq = m.perReq := rfl
@[simp] theorem Mach.onVid_reply (m : Mach) (n : Nat) (f : Vid → Vid) : (m.onVid n f).reply = m.reply := rfl
@[simp] theorem Mach.onVid_fresh (m : Mach) (n : Nat) (f : Vid → Vid) : (m.onVid n f).fresh = m.fresh := rfl
@[simp] theorem Mach.onVid_clk (m : Mach) (n : Nat) (f : Vid → Vid) : (m.onVid n f).clk = m.clk := rfl
@[simp] theorem Mach.onVid_sheets (m : Mach) (n : Nat) (f : Vid → Vid) : (m.onVid n f).sheets = m.sheets := rfl
@[simp] theorem Mach.onVid_flt (m : Mach) (n : Nat) (f : Vid → Vid) : (m.onVid n f).flt = m.flt := rfl
@[simp] theorem Mach.onVid_snap (m : Mach) (n : Nat) (f : Vid → Vid) : (m.onVid n f).snap = m.snap := rfl
@[simp] theorem Mach.onVid_cox (m : Mach) (n : Nat) (f : Vid → Vid) : (m.onVid n f).cox = m.cox := rfl
@[simp] theorem Mach.onVid_scl (m : Mach) (n : Nat) (f : Vid → Vid) : (m.onVid n f).scl = m.scl := rfl
@[simp] theorem Mach.onVid_fjl (m : Mach) (n : Nat) (f : Vid → Vid) : (m.onVid n f).fjl = m.fjl := rfl
@[simp] theorem Mach.onVid_sec (m : Mach) (n : Nat) (f : Vid → Vid) : (m.onVid n f).sec = m.sec := rfl
@[simp] theorem Mach.onVid_drv (m : Mach) (n : Nat) (f : Vid → Vid) : (m.onVid n f).drv = m.drv := rfl
@[simp] theorem Mach.onVid_mot (m : Mach) (n : Nat) (f : Vid → Vid) : (m.onVid n f).mot = m.mot := rfl
@[simp] theorem Mach.onVid_pwr (m : Mach) (n : Nat) (f : Vid → Vid) : (m.onVid n f).pwr = m.pwr := rfl
@[simp] theorem Mach.onVid_vid (m : Mach) (n : Nat) (f : Vid → Vid) : (m.onVid n f).vid =
    tput n (f (m.vidOf n)) m.vid := rfl
@[simp] theorem Mach.onVid_fus (m : Mach) (n : Nat) (f : Vid → Vid) : (m.onVid n f).fus = m.fus := rfl
@[simp] theorem Mach.onVid_adc (m : Mach) (n : Nat) (f : Vid → Vid) : (m.onVid n f).adc = m.adc := rfl
@[simp] theorem Mach.onVid_hv (m : Mach) (n : Nat) (f : Vid → Vid) : (m.onVid n f).hv = m.hv := rfl
@[simp] theorem Mach.onVid_thm (m : Mach) (n : Nat) (f : Vid → Vid) : (m.onVid n f).thm = m.thm := rfl
@[simp] theorem Mach.onVid_shunt (m : Mach) (n : Nat) (f : Vid → Vid) : (m.onVid n f).shunt = m.shunt := rfl
@[simp] theorem Mach.onVid_enc (m : Mach) (n : Nat) (f : Vid → Vid) : (m.onVid n f).enc = m.enc := rfl
@[simp] theorem Mach.onVid_ssi (m : Mach) (n : Nat) (f : Vid → Vid) : (m.onVid n f).ssi = m.ssi := rfl
@[simp] theorem Mach.onVid_sns (m : Mach) (n : Nat) (f : Vid → Vid) : (m.onVid n f).sns = m.sns := rfl
@[simp] theorem Mach.onVid_heldEdges (m : Mach) (n : Nat) (f : Vid → Vid) : (m.onVid n f).heldEdges = m.heldEdges := rfl
@[simp] theorem Mach.onVid_axes (m : Mach) (n : Nat) (f : Vid → Vid) : (m.onVid n f).axes = m.axes := rfl
@[simp] theorem Mach.onVid_peat (m : Mach) (n : Nat) (f : Vid → Vid) : (m.onVid n f).peat = m.peat := rfl
@[simp] theorem Mach.onVid_mark (m : Mach) (n : Nat) (f : Vid → Vid) : (m.onVid n f).mark = m.mark := rfl
@[simp] theorem Mach.onVid_dram (m : Mach) (n : Nat) (f : Vid → Vid) : (m.onVid n f).dram = m.dram := rfl
@[simp] theorem Mach.onVid_hif (m : Mach) (n : Nat) (f : Vid → Vid) : (m.onVid n f).hif = m.hif := rfl
@[simp] theorem Mach.onVid_gp (m : Mach) (n : Nat) (f : Vid → Vid) : (m.onVid n f).gp = m.gp := rfl
@[simp] theorem Mach.onVid_sent (m : Mach) (n : Nat) (f : Vid → Vid) : (m.onVid n f).sent = m.sent := rfl

@[simp] theorem Mach.setAdcIn_part (m : Mach) (k : Nat) (x : AdcIn) : (m.setAdcIn k x).part = m.part := rfl
@[simp] theorem Mach.setAdcIn_regs (m : Mach) (k : Nat) (x : AdcIn) : (m.setAdcIn k x).regs = m.regs := rfl
@[simp] theorem Mach.setAdcIn_pend (m : Mach) (k : Nat) (x : AdcIn) : (m.setAdcIn k x).pend = m.pend := rfl
@[simp] theorem Mach.setAdcIn_latches (m : Mach) (k : Nat) (x : AdcIn) : (m.setAdcIn k x).latches = m.latches := rfl
@[simp] theorem Mach.setAdcIn_perReq (m : Mach) (k : Nat) (x : AdcIn) : (m.setAdcIn k x).perReq = m.perReq := rfl
@[simp] theorem Mach.setAdcIn_reply (m : Mach) (k : Nat) (x : AdcIn) : (m.setAdcIn k x).reply = m.reply := rfl
@[simp] theorem Mach.setAdcIn_fresh (m : Mach) (k : Nat) (x : AdcIn) : (m.setAdcIn k x).fresh = m.fresh := rfl
@[simp] theorem Mach.setAdcIn_clk (m : Mach) (k : Nat) (x : AdcIn) : (m.setAdcIn k x).clk = m.clk := rfl
@[simp] theorem Mach.setAdcIn_sheets (m : Mach) (k : Nat) (x : AdcIn) : (m.setAdcIn k x).sheets = m.sheets := rfl
@[simp] theorem Mach.setAdcIn_flt (m : Mach) (k : Nat) (x : AdcIn) : (m.setAdcIn k x).flt = m.flt := rfl
@[simp] theorem Mach.setAdcIn_snap (m : Mach) (k : Nat) (x : AdcIn) : (m.setAdcIn k x).snap = m.snap := rfl
@[simp] theorem Mach.setAdcIn_cox (m : Mach) (k : Nat) (x : AdcIn) : (m.setAdcIn k x).cox = m.cox := rfl
@[simp] theorem Mach.setAdcIn_scl (m : Mach) (k : Nat) (x : AdcIn) : (m.setAdcIn k x).scl = m.scl := rfl
@[simp] theorem Mach.setAdcIn_fjl (m : Mach) (k : Nat) (x : AdcIn) : (m.setAdcIn k x).fjl = m.fjl := rfl
@[simp] theorem Mach.setAdcIn_sec (m : Mach) (k : Nat) (x : AdcIn) : (m.setAdcIn k x).sec = m.sec := rfl
@[simp] theorem Mach.setAdcIn_drv (m : Mach) (k : Nat) (x : AdcIn) : (m.setAdcIn k x).drv = m.drv := rfl
@[simp] theorem Mach.setAdcIn_mot (m : Mach) (k : Nat) (x : AdcIn) : (m.setAdcIn k x).mot = m.mot := rfl
@[simp] theorem Mach.setAdcIn_pwr (m : Mach) (k : Nat) (x : AdcIn) : (m.setAdcIn k x).pwr = m.pwr := rfl
@[simp] theorem Mach.setAdcIn_vid (m : Mach) (k : Nat) (x : AdcIn) : (m.setAdcIn k x).vid = m.vid := rfl
@[simp] theorem Mach.setAdcIn_fus (m : Mach) (k : Nat) (x : AdcIn) : (m.setAdcIn k x).fus = m.fus := rfl
@[simp] theorem Mach.setAdcIn_adc (m : Mach) (k : Nat) (x : AdcIn) : (m.setAdcIn k x).adc =
    tput k x m.adc := rfl
@[simp] theorem Mach.setAdcIn_hv (m : Mach) (k : Nat) (x : AdcIn) : (m.setAdcIn k x).hv = m.hv := rfl
@[simp] theorem Mach.setAdcIn_thm (m : Mach) (k : Nat) (x : AdcIn) : (m.setAdcIn k x).thm = m.thm := rfl
@[simp] theorem Mach.setAdcIn_shunt (m : Mach) (k : Nat) (x : AdcIn) : (m.setAdcIn k x).shunt = m.shunt := rfl
@[simp] theorem Mach.setAdcIn_enc (m : Mach) (k : Nat) (x : AdcIn) : (m.setAdcIn k x).enc = m.enc := rfl
@[simp] theorem Mach.setAdcIn_ssi (m : Mach) (k : Nat) (x : AdcIn) : (m.setAdcIn k x).ssi = m.ssi := rfl
@[simp] theorem Mach.setAdcIn_sns (m : Mach) (k : Nat) (x : AdcIn) : (m.setAdcIn k x).sns = m.sns := rfl
@[simp] theorem Mach.setAdcIn_heldEdges (m : Mach) (k : Nat) (x : AdcIn) : (m.setAdcIn k x).heldEdges = m.heldEdges := rfl
@[simp] theorem Mach.setAdcIn_axes (m : Mach) (k : Nat) (x : AdcIn) : (m.setAdcIn k x).axes = m.axes := rfl
@[simp] theorem Mach.setAdcIn_peat (m : Mach) (k : Nat) (x : AdcIn) : (m.setAdcIn k x).peat = m.peat := rfl
@[simp] theorem Mach.setAdcIn_mark (m : Mach) (k : Nat) (x : AdcIn) : (m.setAdcIn k x).mark = m.mark := rfl
@[simp] theorem Mach.setAdcIn_dram (m : Mach) (k : Nat) (x : AdcIn) : (m.setAdcIn k x).dram = m.dram := rfl
@[simp] theorem Mach.setAdcIn_hif (m : Mach) (k : Nat) (x : AdcIn) : (m.setAdcIn k x).hif = m.hif := rfl
@[simp] theorem Mach.setAdcIn_gp (m : Mach) (k : Nat) (x : AdcIn) : (m.setAdcIn k x).gp = m.gp := rfl
@[simp] theorem Mach.setAdcIn_sent (m : Mach) (k : Nat) (x : AdcIn) : (m.setAdcIn k x).sent = m.sent := rfl

@[simp] theorem Mach.setHvCh_part (m : Mach) (h : Nat) (x : HvCh) : (m.setHvCh h x).part = m.part := rfl
@[simp] theorem Mach.setHvCh_regs (m : Mach) (h : Nat) (x : HvCh) : (m.setHvCh h x).regs = m.regs := rfl
@[simp] theorem Mach.setHvCh_pend (m : Mach) (h : Nat) (x : HvCh) : (m.setHvCh h x).pend = m.pend := rfl
@[simp] theorem Mach.setHvCh_latches (m : Mach) (h : Nat) (x : HvCh) : (m.setHvCh h x).latches = m.latches := rfl
@[simp] theorem Mach.setHvCh_perReq (m : Mach) (h : Nat) (x : HvCh) : (m.setHvCh h x).perReq = m.perReq := rfl
@[simp] theorem Mach.setHvCh_reply (m : Mach) (h : Nat) (x : HvCh) : (m.setHvCh h x).reply = m.reply := rfl
@[simp] theorem Mach.setHvCh_fresh (m : Mach) (h : Nat) (x : HvCh) : (m.setHvCh h x).fresh = m.fresh := rfl
@[simp] theorem Mach.setHvCh_clk (m : Mach) (h : Nat) (x : HvCh) : (m.setHvCh h x).clk = m.clk := rfl
@[simp] theorem Mach.setHvCh_sheets (m : Mach) (h : Nat) (x : HvCh) : (m.setHvCh h x).sheets = m.sheets := rfl
@[simp] theorem Mach.setHvCh_flt (m : Mach) (h : Nat) (x : HvCh) : (m.setHvCh h x).flt = m.flt := rfl
@[simp] theorem Mach.setHvCh_snap (m : Mach) (h : Nat) (x : HvCh) : (m.setHvCh h x).snap = m.snap := rfl
@[simp] theorem Mach.setHvCh_cox (m : Mach) (h : Nat) (x : HvCh) : (m.setHvCh h x).cox = m.cox := rfl
@[simp] theorem Mach.setHvCh_scl (m : Mach) (h : Nat) (x : HvCh) : (m.setHvCh h x).scl = m.scl := rfl
@[simp] theorem Mach.setHvCh_fjl (m : Mach) (h : Nat) (x : HvCh) : (m.setHvCh h x).fjl = m.fjl := rfl
@[simp] theorem Mach.setHvCh_sec (m : Mach) (h : Nat) (x : HvCh) : (m.setHvCh h x).sec = m.sec := rfl
@[simp] theorem Mach.setHvCh_drv (m : Mach) (h : Nat) (x : HvCh) : (m.setHvCh h x).drv = m.drv := rfl
@[simp] theorem Mach.setHvCh_mot (m : Mach) (h : Nat) (x : HvCh) : (m.setHvCh h x).mot = m.mot := rfl
@[simp] theorem Mach.setHvCh_pwr (m : Mach) (h : Nat) (x : HvCh) : (m.setHvCh h x).pwr = m.pwr := rfl
@[simp] theorem Mach.setHvCh_vid (m : Mach) (h : Nat) (x : HvCh) : (m.setHvCh h x).vid = m.vid := rfl
@[simp] theorem Mach.setHvCh_fus (m : Mach) (h : Nat) (x : HvCh) : (m.setHvCh h x).fus = m.fus := rfl
@[simp] theorem Mach.setHvCh_adc (m : Mach) (h : Nat) (x : HvCh) : (m.setHvCh h x).adc = m.adc := rfl
@[simp] theorem Mach.setHvCh_hv (m : Mach) (h : Nat) (x : HvCh) : (m.setHvCh h x).hv =
    tput h x m.hv := rfl
@[simp] theorem Mach.setHvCh_thm (m : Mach) (h : Nat) (x : HvCh) : (m.setHvCh h x).thm = m.thm := rfl
@[simp] theorem Mach.setHvCh_shunt (m : Mach) (h : Nat) (x : HvCh) : (m.setHvCh h x).shunt = m.shunt := rfl
@[simp] theorem Mach.setHvCh_enc (m : Mach) (h : Nat) (x : HvCh) : (m.setHvCh h x).enc = m.enc := rfl
@[simp] theorem Mach.setHvCh_ssi (m : Mach) (h : Nat) (x : HvCh) : (m.setHvCh h x).ssi = m.ssi := rfl
@[simp] theorem Mach.setHvCh_sns (m : Mach) (h : Nat) (x : HvCh) : (m.setHvCh h x).sns = m.sns := rfl
@[simp] theorem Mach.setHvCh_heldEdges (m : Mach) (h : Nat) (x : HvCh) : (m.setHvCh h x).heldEdges = m.heldEdges := rfl
@[simp] theorem Mach.setHvCh_axes (m : Mach) (h : Nat) (x : HvCh) : (m.setHvCh h x).axes = m.axes := rfl
@[simp] theorem Mach.setHvCh_peat (m : Mach) (h : Nat) (x : HvCh) : (m.setHvCh h x).peat = m.peat := rfl
@[simp] theorem Mach.setHvCh_mark (m : Mach) (h : Nat) (x : HvCh) : (m.setHvCh h x).mark = m.mark := rfl
@[simp] theorem Mach.setHvCh_dram (m : Mach) (h : Nat) (x : HvCh) : (m.setHvCh h x).dram = m.dram := rfl
@[simp] theorem Mach.setHvCh_hif (m : Mach) (h : Nat) (x : HvCh) : (m.setHvCh h x).hif = m.hif := rfl
@[simp] theorem Mach.setHvCh_gp (m : Mach) (h : Nat) (x : HvCh) : (m.setHvCh h x).gp = m.gp := rfl
@[simp] theorem Mach.setHvCh_sent (m : Mach) (h : Nat) (x : HvCh) : (m.setHvCh h x).sent = m.sent := rfl

@[simp] theorem Mach.setEnc_part (m : Mach) (q : Nat) (e : Enc) : (m.setEnc q e).part = m.part := rfl
@[simp] theorem Mach.setEnc_regs (m : Mach) (q : Nat) (e : Enc) : (m.setEnc q e).regs = m.regs := rfl
@[simp] theorem Mach.setEnc_pend (m : Mach) (q : Nat) (e : Enc) : (m.setEnc q e).pend = m.pend := rfl
@[simp] theorem Mach.setEnc_latches (m : Mach) (q : Nat) (e : Enc) : (m.setEnc q e).latches = m.latches := rfl
@[simp] theorem Mach.setEnc_perReq (m : Mach) (q : Nat) (e : Enc) : (m.setEnc q e).perReq = m.perReq := rfl
@[simp] theorem Mach.setEnc_reply (m : Mach) (q : Nat) (e : Enc) : (m.setEnc q e).reply = m.reply := rfl
@[simp] theorem Mach.setEnc_fresh (m : Mach) (q : Nat) (e : Enc) : (m.setEnc q e).fresh = m.fresh := rfl
@[simp] theorem Mach.setEnc_clk (m : Mach) (q : Nat) (e : Enc) : (m.setEnc q e).clk = m.clk := rfl
@[simp] theorem Mach.setEnc_sheets (m : Mach) (q : Nat) (e : Enc) : (m.setEnc q e).sheets = m.sheets := rfl
@[simp] theorem Mach.setEnc_flt (m : Mach) (q : Nat) (e : Enc) : (m.setEnc q e).flt = m.flt := rfl
@[simp] theorem Mach.setEnc_snap (m : Mach) (q : Nat) (e : Enc) : (m.setEnc q e).snap = m.snap := rfl
@[simp] theorem Mach.setEnc_cox (m : Mach) (q : Nat) (e : Enc) : (m.setEnc q e).cox = m.cox := rfl
@[simp] theorem Mach.setEnc_scl (m : Mach) (q : Nat) (e : Enc) : (m.setEnc q e).scl = m.scl := rfl
@[simp] theorem Mach.setEnc_fjl (m : Mach) (q : Nat) (e : Enc) : (m.setEnc q e).fjl = m.fjl := rfl
@[simp] theorem Mach.setEnc_sec (m : Mach) (q : Nat) (e : Enc) : (m.setEnc q e).sec = m.sec := rfl
@[simp] theorem Mach.setEnc_drv (m : Mach) (q : Nat) (e : Enc) : (m.setEnc q e).drv = m.drv := rfl
@[simp] theorem Mach.setEnc_mot (m : Mach) (q : Nat) (e : Enc) : (m.setEnc q e).mot = m.mot := rfl
@[simp] theorem Mach.setEnc_pwr (m : Mach) (q : Nat) (e : Enc) : (m.setEnc q e).pwr = m.pwr := rfl
@[simp] theorem Mach.setEnc_vid (m : Mach) (q : Nat) (e : Enc) : (m.setEnc q e).vid = m.vid := rfl
@[simp] theorem Mach.setEnc_fus (m : Mach) (q : Nat) (e : Enc) : (m.setEnc q e).fus = m.fus := rfl
@[simp] theorem Mach.setEnc_adc (m : Mach) (q : Nat) (e : Enc) : (m.setEnc q e).adc = m.adc := rfl
@[simp] theorem Mach.setEnc_hv (m : Mach) (q : Nat) (e : Enc) : (m.setEnc q e).hv = m.hv := rfl
@[simp] theorem Mach.setEnc_thm (m : Mach) (q : Nat) (e : Enc) : (m.setEnc q e).thm = m.thm := rfl
@[simp] theorem Mach.setEnc_shunt (m : Mach) (q : Nat) (e : Enc) : (m.setEnc q e).shunt = m.shunt := rfl
@[simp] theorem Mach.setEnc_enc (m : Mach) (q : Nat) (e : Enc) : (m.setEnc q e).enc =
    tput q e m.enc := rfl
@[simp] theorem Mach.setEnc_ssi (m : Mach) (q : Nat) (e : Enc) : (m.setEnc q e).ssi = m.ssi := rfl
@[simp] theorem Mach.setEnc_sns (m : Mach) (q : Nat) (e : Enc) : (m.setEnc q e).sns = m.sns := rfl
@[simp] theorem Mach.setEnc_heldEdges (m : Mach) (q : Nat) (e : Enc) : (m.setEnc q e).heldEdges = m.heldEdges := rfl
@[simp] theorem Mach.setEnc_axes (m : Mach) (q : Nat) (e : Enc) : (m.setEnc q e).axes = m.axes := rfl
@[simp] theorem Mach.setEnc_peat (m : Mach) (q : Nat) (e : Enc) : (m.setEnc q e).peat = m.peat := rfl
@[simp] theorem Mach.setEnc_mark (m : Mach) (q : Nat) (e : Enc) : (m.setEnc q e).mark = m.mark := rfl
@[simp] theorem Mach.setEnc_dram (m : Mach) (q : Nat) (e : Enc) : (m.setEnc q e).dram = m.dram := rfl
@[simp] theorem Mach.setEnc_hif (m : Mach) (q : Nat) (e : Enc) : (m.setEnc q e).hif = m.hif := rfl
@[simp] theorem Mach.setEnc_gp (m : Mach) (q : Nat) (e : Enc) : (m.setEnc q e).gp = m.gp := rfl
@[simp] theorem Mach.setEnc_sent (m : Mach) (q : Nat) (e : Enc) : (m.setEnc q e).sent = m.sent := rfl

@[simp] theorem Mach.onEnc_part (m : Mach) (q : Nat) (f : Enc → Enc) : (m.onEnc q f).part = m.part := rfl
@[simp] theorem Mach.onEnc_regs (m : Mach) (q : Nat) (f : Enc → Enc) : (m.onEnc q f).regs = m.regs := rfl
@[simp] theorem Mach.onEnc_pend (m : Mach) (q : Nat) (f : Enc → Enc) : (m.onEnc q f).pend = m.pend := rfl
@[simp] theorem Mach.onEnc_latches (m : Mach) (q : Nat) (f : Enc → Enc) : (m.onEnc q f).latches = m.latches := rfl
@[simp] theorem Mach.onEnc_perReq (m : Mach) (q : Nat) (f : Enc → Enc) : (m.onEnc q f).perReq = m.perReq := rfl
@[simp] theorem Mach.onEnc_reply (m : Mach) (q : Nat) (f : Enc → Enc) : (m.onEnc q f).reply = m.reply := rfl
@[simp] theorem Mach.onEnc_fresh (m : Mach) (q : Nat) (f : Enc → Enc) : (m.onEnc q f).fresh = m.fresh := rfl
@[simp] theorem Mach.onEnc_clk (m : Mach) (q : Nat) (f : Enc → Enc) : (m.onEnc q f).clk = m.clk := rfl
@[simp] theorem Mach.onEnc_sheets (m : Mach) (q : Nat) (f : Enc → Enc) : (m.onEnc q f).sheets = m.sheets := rfl
@[simp] theorem Mach.onEnc_flt (m : Mach) (q : Nat) (f : Enc → Enc) : (m.onEnc q f).flt = m.flt := rfl
@[simp] theorem Mach.onEnc_snap (m : Mach) (q : Nat) (f : Enc → Enc) : (m.onEnc q f).snap = m.snap := rfl
@[simp] theorem Mach.onEnc_cox (m : Mach) (q : Nat) (f : Enc → Enc) : (m.onEnc q f).cox = m.cox := rfl
@[simp] theorem Mach.onEnc_scl (m : Mach) (q : Nat) (f : Enc → Enc) : (m.onEnc q f).scl = m.scl := rfl
@[simp] theorem Mach.onEnc_fjl (m : Mach) (q : Nat) (f : Enc → Enc) : (m.onEnc q f).fjl = m.fjl := rfl
@[simp] theorem Mach.onEnc_sec (m : Mach) (q : Nat) (f : Enc → Enc) : (m.onEnc q f).sec = m.sec := rfl
@[simp] theorem Mach.onEnc_drv (m : Mach) (q : Nat) (f : Enc → Enc) : (m.onEnc q f).drv = m.drv := rfl
@[simp] theorem Mach.onEnc_mot (m : Mach) (q : Nat) (f : Enc → Enc) : (m.onEnc q f).mot = m.mot := rfl
@[simp] theorem Mach.onEnc_pwr (m : Mach) (q : Nat) (f : Enc → Enc) : (m.onEnc q f).pwr = m.pwr := rfl
@[simp] theorem Mach.onEnc_vid (m : Mach) (q : Nat) (f : Enc → Enc) : (m.onEnc q f).vid = m.vid := rfl
@[simp] theorem Mach.onEnc_fus (m : Mach) (q : Nat) (f : Enc → Enc) : (m.onEnc q f).fus = m.fus := rfl
@[simp] theorem Mach.onEnc_adc (m : Mach) (q : Nat) (f : Enc → Enc) : (m.onEnc q f).adc = m.adc := rfl
@[simp] theorem Mach.onEnc_hv (m : Mach) (q : Nat) (f : Enc → Enc) : (m.onEnc q f).hv = m.hv := rfl
@[simp] theorem Mach.onEnc_thm (m : Mach) (q : Nat) (f : Enc → Enc) : (m.onEnc q f).thm = m.thm := rfl
@[simp] theorem Mach.onEnc_shunt (m : Mach) (q : Nat) (f : Enc → Enc) : (m.onEnc q f).shunt = m.shunt := rfl
@[simp] theorem Mach.onEnc_enc (m : Mach) (q : Nat) (f : Enc → Enc) : (m.onEnc q f).enc =
    tput q (f (m.encOf q)) m.enc := rfl
@[simp] theorem Mach.onEnc_ssi (m : Mach) (q : Nat) (f : Enc → Enc) : (m.onEnc q f).ssi = m.ssi := rfl
@[simp] theorem Mach.onEnc_sns (m : Mach) (q : Nat) (f : Enc → Enc) : (m.onEnc q f).sns = m.sns := rfl
@[simp] theorem Mach.onEnc_heldEdges (m : Mach) (q : Nat) (f : Enc → Enc) : (m.onEnc q f).heldEdges = m.heldEdges := rfl
@[simp] theorem Mach.onEnc_axes (m : Mach) (q : Nat) (f : Enc → Enc) : (m.onEnc q f).axes = m.axes := rfl
@[simp] theorem Mach.onEnc_peat (m : Mach) (q : Nat) (f : Enc → Enc) : (m.onEnc q f).peat = m.peat := rfl
@[simp] theorem Mach.onEnc_mark (m : Mach) (q : Nat) (f : Enc → Enc) : (m.onEnc q f).mark = m.mark := rfl
@[simp] theorem Mach.onEnc_dram (m : Mach) (q : Nat) (f : Enc → Enc) : (m.onEnc q f).dram = m.dram := rfl
@[simp] theorem Mach.onEnc_hif (m : Mach) (q : Nat) (f : Enc → Enc) : (m.onEnc q f).hif = m.hif := rfl
@[simp] theorem Mach.onEnc_gp (m : Mach) (q : Nat) (f : Enc → Enc) : (m.onEnc q f).gp = m.gp := rfl
@[simp] theorem Mach.onEnc_sent (m : Mach) (q : Nat) (f : Enc → Enc) : (m.onEnc q f).sent = m.sent := rfl

@[simp] theorem Mach.setSsi_part (m : Mach) (p : Nat) (x : Ssi) : (m.setSsi p x).part = m.part := rfl
@[simp] theorem Mach.setSsi_regs (m : Mach) (p : Nat) (x : Ssi) : (m.setSsi p x).regs = m.regs := rfl
@[simp] theorem Mach.setSsi_pend (m : Mach) (p : Nat) (x : Ssi) : (m.setSsi p x).pend = m.pend := rfl
@[simp] theorem Mach.setSsi_latches (m : Mach) (p : Nat) (x : Ssi) : (m.setSsi p x).latches = m.latches := rfl
@[simp] theorem Mach.setSsi_perReq (m : Mach) (p : Nat) (x : Ssi) : (m.setSsi p x).perReq = m.perReq := rfl
@[simp] theorem Mach.setSsi_reply (m : Mach) (p : Nat) (x : Ssi) : (m.setSsi p x).reply = m.reply := rfl
@[simp] theorem Mach.setSsi_fresh (m : Mach) (p : Nat) (x : Ssi) : (m.setSsi p x).fresh = m.fresh := rfl
@[simp] theorem Mach.setSsi_clk (m : Mach) (p : Nat) (x : Ssi) : (m.setSsi p x).clk = m.clk := rfl
@[simp] theorem Mach.setSsi_sheets (m : Mach) (p : Nat) (x : Ssi) : (m.setSsi p x).sheets = m.sheets := rfl
@[simp] theorem Mach.setSsi_flt (m : Mach) (p : Nat) (x : Ssi) : (m.setSsi p x).flt = m.flt := rfl
@[simp] theorem Mach.setSsi_snap (m : Mach) (p : Nat) (x : Ssi) : (m.setSsi p x).snap = m.snap := rfl
@[simp] theorem Mach.setSsi_cox (m : Mach) (p : Nat) (x : Ssi) : (m.setSsi p x).cox = m.cox := rfl
@[simp] theorem Mach.setSsi_scl (m : Mach) (p : Nat) (x : Ssi) : (m.setSsi p x).scl = m.scl := rfl
@[simp] theorem Mach.setSsi_fjl (m : Mach) (p : Nat) (x : Ssi) : (m.setSsi p x).fjl = m.fjl := rfl
@[simp] theorem Mach.setSsi_sec (m : Mach) (p : Nat) (x : Ssi) : (m.setSsi p x).sec = m.sec := rfl
@[simp] theorem Mach.setSsi_drv (m : Mach) (p : Nat) (x : Ssi) : (m.setSsi p x).drv = m.drv := rfl
@[simp] theorem Mach.setSsi_mot (m : Mach) (p : Nat) (x : Ssi) : (m.setSsi p x).mot = m.mot := rfl
@[simp] theorem Mach.setSsi_pwr (m : Mach) (p : Nat) (x : Ssi) : (m.setSsi p x).pwr = m.pwr := rfl
@[simp] theorem Mach.setSsi_vid (m : Mach) (p : Nat) (x : Ssi) : (m.setSsi p x).vid = m.vid := rfl
@[simp] theorem Mach.setSsi_fus (m : Mach) (p : Nat) (x : Ssi) : (m.setSsi p x).fus = m.fus := rfl
@[simp] theorem Mach.setSsi_adc (m : Mach) (p : Nat) (x : Ssi) : (m.setSsi p x).adc = m.adc := rfl
@[simp] theorem Mach.setSsi_hv (m : Mach) (p : Nat) (x : Ssi) : (m.setSsi p x).hv = m.hv := rfl
@[simp] theorem Mach.setSsi_thm (m : Mach) (p : Nat) (x : Ssi) : (m.setSsi p x).thm = m.thm := rfl
@[simp] theorem Mach.setSsi_shunt (m : Mach) (p : Nat) (x : Ssi) : (m.setSsi p x).shunt = m.shunt := rfl
@[simp] theorem Mach.setSsi_enc (m : Mach) (p : Nat) (x : Ssi) : (m.setSsi p x).enc = m.enc := rfl
@[simp] theorem Mach.setSsi_ssi (m : Mach) (p : Nat) (x : Ssi) : (m.setSsi p x).ssi =
    tput p x m.ssi := rfl
@[simp] theorem Mach.setSsi_sns (m : Mach) (p : Nat) (x : Ssi) : (m.setSsi p x).sns = m.sns := rfl
@[simp] theorem Mach.setSsi_heldEdges (m : Mach) (p : Nat) (x : Ssi) : (m.setSsi p x).heldEdges = m.heldEdges := rfl
@[simp] theorem Mach.setSsi_axes (m : Mach) (p : Nat) (x : Ssi) : (m.setSsi p x).axes = m.axes := rfl
@[simp] theorem Mach.setSsi_peat (m : Mach) (p : Nat) (x : Ssi) : (m.setSsi p x).peat = m.peat := rfl
@[simp] theorem Mach.setSsi_mark (m : Mach) (p : Nat) (x : Ssi) : (m.setSsi p x).mark = m.mark := rfl
@[simp] theorem Mach.setSsi_dram (m : Mach) (p : Nat) (x : Ssi) : (m.setSsi p x).dram = m.dram := rfl
@[simp] theorem Mach.setSsi_hif (m : Mach) (p : Nat) (x : Ssi) : (m.setSsi p x).hif = m.hif := rfl
@[simp] theorem Mach.setSsi_gp (m : Mach) (p : Nat) (x : Ssi) : (m.setSsi p x).gp = m.gp := rfl
@[simp] theorem Mach.setSsi_sent (m : Mach) (p : Nat) (x : Ssi) : (m.setSsi p x).sent = m.sent := rfl

@[simp] theorem Mach.setSns_part (m : Mach) (i : Nat) (x : SnsIn) : (m.setSns i x).part = m.part := rfl
@[simp] theorem Mach.setSns_regs (m : Mach) (i : Nat) (x : SnsIn) : (m.setSns i x).regs = m.regs := rfl
@[simp] theorem Mach.setSns_pend (m : Mach) (i : Nat) (x : SnsIn) : (m.setSns i x).pend = m.pend := rfl
@[simp] theorem Mach.setSns_latches (m : Mach) (i : Nat) (x : SnsIn) : (m.setSns i x).latches = m.latches := rfl
@[simp] theorem Mach.setSns_perReq (m : Mach) (i : Nat) (x : SnsIn) : (m.setSns i x).perReq = m.perReq := rfl
@[simp] theorem Mach.setSns_reply (m : Mach) (i : Nat) (x : SnsIn) : (m.setSns i x).reply = m.reply := rfl
@[simp] theorem Mach.setSns_fresh (m : Mach) (i : Nat) (x : SnsIn) : (m.setSns i x).fresh = m.fresh := rfl
@[simp] theorem Mach.setSns_clk (m : Mach) (i : Nat) (x : SnsIn) : (m.setSns i x).clk = m.clk := rfl
@[simp] theorem Mach.setSns_sheets (m : Mach) (i : Nat) (x : SnsIn) : (m.setSns i x).sheets = m.sheets := rfl
@[simp] theorem Mach.setSns_flt (m : Mach) (i : Nat) (x : SnsIn) : (m.setSns i x).flt = m.flt := rfl
@[simp] theorem Mach.setSns_snap (m : Mach) (i : Nat) (x : SnsIn) : (m.setSns i x).snap = m.snap := rfl
@[simp] theorem Mach.setSns_cox (m : Mach) (i : Nat) (x : SnsIn) : (m.setSns i x).cox = m.cox := rfl
@[simp] theorem Mach.setSns_scl (m : Mach) (i : Nat) (x : SnsIn) : (m.setSns i x).scl = m.scl := rfl
@[simp] theorem Mach.setSns_fjl (m : Mach) (i : Nat) (x : SnsIn) : (m.setSns i x).fjl = m.fjl := rfl
@[simp] theorem Mach.setSns_sec (m : Mach) (i : Nat) (x : SnsIn) : (m.setSns i x).sec = m.sec := rfl
@[simp] theorem Mach.setSns_drv (m : Mach) (i : Nat) (x : SnsIn) : (m.setSns i x).drv = m.drv := rfl
@[simp] theorem Mach.setSns_mot (m : Mach) (i : Nat) (x : SnsIn) : (m.setSns i x).mot = m.mot := rfl
@[simp] theorem Mach.setSns_pwr (m : Mach) (i : Nat) (x : SnsIn) : (m.setSns i x).pwr = m.pwr := rfl
@[simp] theorem Mach.setSns_vid (m : Mach) (i : Nat) (x : SnsIn) : (m.setSns i x).vid = m.vid := rfl
@[simp] theorem Mach.setSns_fus (m : Mach) (i : Nat) (x : SnsIn) : (m.setSns i x).fus = m.fus := rfl
@[simp] theorem Mach.setSns_adc (m : Mach) (i : Nat) (x : SnsIn) : (m.setSns i x).adc = m.adc := rfl
@[simp] theorem Mach.setSns_hv (m : Mach) (i : Nat) (x : SnsIn) : (m.setSns i x).hv = m.hv := rfl
@[simp] theorem Mach.setSns_thm (m : Mach) (i : Nat) (x : SnsIn) : (m.setSns i x).thm = m.thm := rfl
@[simp] theorem Mach.setSns_shunt (m : Mach) (i : Nat) (x : SnsIn) : (m.setSns i x).shunt = m.shunt := rfl
@[simp] theorem Mach.setSns_enc (m : Mach) (i : Nat) (x : SnsIn) : (m.setSns i x).enc = m.enc := rfl
@[simp] theorem Mach.setSns_ssi (m : Mach) (i : Nat) (x : SnsIn) : (m.setSns i x).ssi = m.ssi := rfl
@[simp] theorem Mach.setSns_sns (m : Mach) (i : Nat) (x : SnsIn) : (m.setSns i x).sns =
    tput i x m.sns := rfl
@[simp] theorem Mach.setSns_heldEdges (m : Mach) (i : Nat) (x : SnsIn) : (m.setSns i x).heldEdges = m.heldEdges := rfl
@[simp] theorem Mach.setSns_axes (m : Mach) (i : Nat) (x : SnsIn) : (m.setSns i x).axes = m.axes := rfl
@[simp] theorem Mach.setSns_peat (m : Mach) (i : Nat) (x : SnsIn) : (m.setSns i x).peat = m.peat := rfl
@[simp] theorem Mach.setSns_mark (m : Mach) (i : Nat) (x : SnsIn) : (m.setSns i x).mark = m.mark := rfl
@[simp] theorem Mach.setSns_dram (m : Mach) (i : Nat) (x : SnsIn) : (m.setSns i x).dram = m.dram := rfl
@[simp] theorem Mach.setSns_hif (m : Mach) (i : Nat) (x : SnsIn) : (m.setSns i x).hif = m.hif := rfl
@[simp] theorem Mach.setSns_gp (m : Mach) (i : Nat) (x : SnsIn) : (m.setSns i x).gp = m.gp := rfl
@[simp] theorem Mach.setSns_sent (m : Mach) (i : Nat) (x : SnsIn) : (m.setSns i x).sent = m.sent := rfl

@[simp] theorem Mach.setAxis_part (m : Mach) (a : Nat) (x : Axis) : (m.setAxis a x).part = m.part := rfl
@[simp] theorem Mach.setAxis_regs (m : Mach) (a : Nat) (x : Axis) : (m.setAxis a x).regs = m.regs := rfl
@[simp] theorem Mach.setAxis_pend (m : Mach) (a : Nat) (x : Axis) : (m.setAxis a x).pend = m.pend := rfl
@[simp] theorem Mach.setAxis_latches (m : Mach) (a : Nat) (x : Axis) : (m.setAxis a x).latches = m.latches := rfl
@[simp] theorem Mach.setAxis_perReq (m : Mach) (a : Nat) (x : Axis) : (m.setAxis a x).perReq = m.perReq := rfl
@[simp] theorem Mach.setAxis_reply (m : Mach) (a : Nat) (x : Axis) : (m.setAxis a x).reply = m.reply := rfl
@[simp] theorem Mach.setAxis_fresh (m : Mach) (a : Nat) (x : Axis) : (m.setAxis a x).fresh = m.fresh := rfl
@[simp] theorem Mach.setAxis_clk (m : Mach) (a : Nat) (x : Axis) : (m.setAxis a x).clk = m.clk := rfl
@[simp] theorem Mach.setAxis_sheets (m : Mach) (a : Nat) (x : Axis) : (m.setAxis a x).sheets = m.sheets := rfl
@[simp] theorem Mach.setAxis_flt (m : Mach) (a : Nat) (x : Axis) : (m.setAxis a x).flt = m.flt := rfl
@[simp] theorem Mach.setAxis_snap (m : Mach) (a : Nat) (x : Axis) : (m.setAxis a x).snap = m.snap := rfl
@[simp] theorem Mach.setAxis_cox (m : Mach) (a : Nat) (x : Axis) : (m.setAxis a x).cox = m.cox := rfl
@[simp] theorem Mach.setAxis_scl (m : Mach) (a : Nat) (x : Axis) : (m.setAxis a x).scl = m.scl := rfl
@[simp] theorem Mach.setAxis_fjl (m : Mach) (a : Nat) (x : Axis) : (m.setAxis a x).fjl = m.fjl := rfl
@[simp] theorem Mach.setAxis_sec (m : Mach) (a : Nat) (x : Axis) : (m.setAxis a x).sec = m.sec := rfl
@[simp] theorem Mach.setAxis_drv (m : Mach) (a : Nat) (x : Axis) : (m.setAxis a x).drv = m.drv := rfl
@[simp] theorem Mach.setAxis_mot (m : Mach) (a : Nat) (x : Axis) : (m.setAxis a x).mot = m.mot := rfl
@[simp] theorem Mach.setAxis_pwr (m : Mach) (a : Nat) (x : Axis) : (m.setAxis a x).pwr = m.pwr := rfl
@[simp] theorem Mach.setAxis_vid (m : Mach) (a : Nat) (x : Axis) : (m.setAxis a x).vid = m.vid := rfl
@[simp] theorem Mach.setAxis_fus (m : Mach) (a : Nat) (x : Axis) : (m.setAxis a x).fus = m.fus := rfl
@[simp] theorem Mach.setAxis_adc (m : Mach) (a : Nat) (x : Axis) : (m.setAxis a x).adc = m.adc := rfl
@[simp] theorem Mach.setAxis_hv (m : Mach) (a : Nat) (x : Axis) : (m.setAxis a x).hv = m.hv := rfl
@[simp] theorem Mach.setAxis_thm (m : Mach) (a : Nat) (x : Axis) : (m.setAxis a x).thm = m.thm := rfl
@[simp] theorem Mach.setAxis_shunt (m : Mach) (a : Nat) (x : Axis) : (m.setAxis a x).shunt = m.shunt := rfl
@[simp] theorem Mach.setAxis_enc (m : Mach) (a : Nat) (x : Axis) : (m.setAxis a x).enc = m.enc := rfl
@[simp] theorem Mach.setAxis_ssi (m : Mach) (a : Nat) (x : Axis) : (m.setAxis a x).ssi = m.ssi := rfl
@[simp] theorem Mach.setAxis_sns (m : Mach) (a : Nat) (x : Axis) : (m.setAxis a x).sns = m.sns := rfl
@[simp] theorem Mach.setAxis_heldEdges (m : Mach) (a : Nat) (x : Axis) : (m.setAxis a x).heldEdges = m.heldEdges := rfl
@[simp] theorem Mach.setAxis_axes (m : Mach) (a : Nat) (x : Axis) : (m.setAxis a x).axes =
    tput a x m.axes := rfl
@[simp] theorem Mach.setAxis_peat (m : Mach) (a : Nat) (x : Axis) : (m.setAxis a x).peat = m.peat := rfl
@[simp] theorem Mach.setAxis_mark (m : Mach) (a : Nat) (x : Axis) : (m.setAxis a x).mark = m.mark := rfl
@[simp] theorem Mach.setAxis_dram (m : Mach) (a : Nat) (x : Axis) : (m.setAxis a x).dram = m.dram := rfl
@[simp] theorem Mach.setAxis_hif (m : Mach) (a : Nat) (x : Axis) : (m.setAxis a x).hif = m.hif := rfl
@[simp] theorem Mach.setAxis_gp (m : Mach) (a : Nat) (x : Axis) : (m.setAxis a x).gp = m.gp := rfl
@[simp] theorem Mach.setAxis_sent (m : Mach) (a : Nat) (x : Axis) : (m.setAxis a x).sent = m.sent := rfl

@[simp] theorem Mach.setPoly_part (m : Mach) (n : Nat) (p : PolyDrv) : (m.setPoly n p).part = m.part := rfl
@[simp] theorem Mach.setPoly_regs (m : Mach) (n : Nat) (p : PolyDrv) : (m.setPoly n p).regs = m.regs := rfl
@[simp] theorem Mach.setPoly_pend (m : Mach) (n : Nat) (p : PolyDrv) : (m.setPoly n p).pend = m.pend := rfl
@[simp] theorem Mach.setPoly_latches (m : Mach) (n : Nat) (p : PolyDrv) : (m.setPoly n p).latches = m.latches := rfl
@[simp] theorem Mach.setPoly_perReq (m : Mach) (n : Nat) (p : PolyDrv) : (m.setPoly n p).perReq = m.perReq := rfl
@[simp] theorem Mach.setPoly_reply (m : Mach) (n : Nat) (p : PolyDrv) : (m.setPoly n p).reply = m.reply := rfl
@[simp] theorem Mach.setPoly_fresh (m : Mach) (n : Nat) (p : PolyDrv) : (m.setPoly n p).fresh = m.fresh := rfl
@[simp] theorem Mach.setPoly_clk (m : Mach) (n : Nat) (p : PolyDrv) : (m.setPoly n p).clk = m.clk := rfl
@[simp] theorem Mach.setPoly_sheets (m : Mach) (n : Nat) (p : PolyDrv) : (m.setPoly n p).sheets = m.sheets := rfl
@[simp] theorem Mach.setPoly_flt (m : Mach) (n : Nat) (p : PolyDrv) : (m.setPoly n p).flt = m.flt := rfl
@[simp] theorem Mach.setPoly_snap (m : Mach) (n : Nat) (p : PolyDrv) : (m.setPoly n p).snap = m.snap := rfl
@[simp] theorem Mach.setPoly_cox (m : Mach) (n : Nat) (p : PolyDrv) : (m.setPoly n p).cox = m.cox := rfl
@[simp] theorem Mach.setPoly_scl (m : Mach) (n : Nat) (p : PolyDrv) : (m.setPoly n p).scl = m.scl := rfl
@[simp] theorem Mach.setPoly_fjl (m : Mach) (n : Nat) (p : PolyDrv) : (m.setPoly n p).fjl = m.fjl := rfl
@[simp] theorem Mach.setPoly_sec (m : Mach) (n : Nat) (p : PolyDrv) : (m.setPoly n p).sec = m.sec := rfl
@[simp] theorem Mach.setPoly_drv (m : Mach) (n : Nat) (p : PolyDrv) : (m.setPoly n p).drv =
    { m.drv with poly := tput n p m.drv.poly } := rfl
@[simp] theorem Mach.setPoly_mot (m : Mach) (n : Nat) (p : PolyDrv) : (m.setPoly n p).mot = m.mot := rfl
@[simp] theorem Mach.setPoly_pwr (m : Mach) (n : Nat) (p : PolyDrv) : (m.setPoly n p).pwr = m.pwr := rfl
@[simp] theorem Mach.setPoly_vid (m : Mach) (n : Nat) (p : PolyDrv) : (m.setPoly n p).vid = m.vid := rfl
@[simp] theorem Mach.setPoly_fus (m : Mach) (n : Nat) (p : PolyDrv) : (m.setPoly n p).fus = m.fus := rfl
@[simp] theorem Mach.setPoly_adc (m : Mach) (n : Nat) (p : PolyDrv) : (m.setPoly n p).adc = m.adc := rfl
@[simp] theorem Mach.setPoly_hv (m : Mach) (n : Nat) (p : PolyDrv) : (m.setPoly n p).hv = m.hv := rfl
@[simp] theorem Mach.setPoly_thm (m : Mach) (n : Nat) (p : PolyDrv) : (m.setPoly n p).thm = m.thm := rfl
@[simp] theorem Mach.setPoly_shunt (m : Mach) (n : Nat) (p : PolyDrv) : (m.setPoly n p).shunt = m.shunt := rfl
@[simp] theorem Mach.setPoly_enc (m : Mach) (n : Nat) (p : PolyDrv) : (m.setPoly n p).enc = m.enc := rfl
@[simp] theorem Mach.setPoly_ssi (m : Mach) (n : Nat) (p : PolyDrv) : (m.setPoly n p).ssi = m.ssi := rfl
@[simp] theorem Mach.setPoly_sns (m : Mach) (n : Nat) (p : PolyDrv) : (m.setPoly n p).sns = m.sns := rfl
@[simp] theorem Mach.setPoly_heldEdges (m : Mach) (n : Nat) (p : PolyDrv) : (m.setPoly n p).heldEdges = m.heldEdges := rfl
@[simp] theorem Mach.setPoly_axes (m : Mach) (n : Nat) (p : PolyDrv) : (m.setPoly n p).axes = m.axes := rfl
@[simp] theorem Mach.setPoly_peat (m : Mach) (n : Nat) (p : PolyDrv) : (m.setPoly n p).peat = m.peat := rfl
@[simp] theorem Mach.setPoly_mark (m : Mach) (n : Nat) (p : PolyDrv) : (m.setPoly n p).mark = m.mark := rfl
@[simp] theorem Mach.setPoly_dram (m : Mach) (n : Nat) (p : PolyDrv) : (m.setPoly n p).dram = m.dram := rfl
@[simp] theorem Mach.setPoly_hif (m : Mach) (n : Nat) (p : PolyDrv) : (m.setPoly n p).hif = m.hif := rfl
@[simp] theorem Mach.setPoly_gp (m : Mach) (n : Nat) (p : PolyDrv) : (m.setPoly n p).gp = m.gp := rfl
@[simp] theorem Mach.setPoly_sent (m : Mach) (n : Nat) (p : PolyDrv) : (m.setPoly n p).sent = m.sent := rfl

@[simp] theorem Mach.setSrv_part (m : Mach) (n : Nat) (p : SrvDrv) : (m.setSrv n p).part = m.part := rfl
@[simp] theorem Mach.setSrv_regs (m : Mach) (n : Nat) (p : SrvDrv) : (m.setSrv n p).regs = m.regs := rfl
@[simp] theorem Mach.setSrv_pend (m : Mach) (n : Nat) (p : SrvDrv) : (m.setSrv n p).pend = m.pend := rfl
@[simp] theorem Mach.setSrv_latches (m : Mach) (n : Nat) (p : SrvDrv) : (m.setSrv n p).latches = m.latches := rfl
@[simp] theorem Mach.setSrv_perReq (m : Mach) (n : Nat) (p : SrvDrv) : (m.setSrv n p).perReq = m.perReq := rfl
@[simp] theorem Mach.setSrv_reply (m : Mach) (n : Nat) (p : SrvDrv) : (m.setSrv n p).reply = m.reply := rfl
@[simp] theorem Mach.setSrv_fresh (m : Mach) (n : Nat) (p : SrvDrv) : (m.setSrv n p).fresh = m.fresh := rfl
@[simp] theorem Mach.setSrv_clk (m : Mach) (n : Nat) (p : SrvDrv) : (m.setSrv n p).clk = m.clk := rfl
@[simp] theorem Mach.setSrv_sheets (m : Mach) (n : Nat) (p : SrvDrv) : (m.setSrv n p).sheets = m.sheets := rfl
@[simp] theorem Mach.setSrv_flt (m : Mach) (n : Nat) (p : SrvDrv) : (m.setSrv n p).flt = m.flt := rfl
@[simp] theorem Mach.setSrv_snap (m : Mach) (n : Nat) (p : SrvDrv) : (m.setSrv n p).snap = m.snap := rfl
@[simp] theorem Mach.setSrv_cox (m : Mach) (n : Nat) (p : SrvDrv) : (m.setSrv n p).cox = m.cox := rfl
@[simp] theorem Mach.setSrv_scl (m : Mach) (n : Nat) (p : SrvDrv) : (m.setSrv n p).scl = m.scl := rfl
@[simp] theorem Mach.setSrv_fjl (m : Mach) (n : Nat) (p : SrvDrv) : (m.setSrv n p).fjl = m.fjl := rfl
@[simp] theorem Mach.setSrv_sec (m : Mach) (n : Nat) (p : SrvDrv) : (m.setSrv n p).sec = m.sec := rfl
@[simp] theorem Mach.setSrv_drv (m : Mach) (n : Nat) (p : SrvDrv) : (m.setSrv n p).drv =
    { m.drv with srv := tput n p m.drv.srv } := rfl
@[simp] theorem Mach.setSrv_mot (m : Mach) (n : Nat) (p : SrvDrv) : (m.setSrv n p).mot = m.mot := rfl
@[simp] theorem Mach.setSrv_pwr (m : Mach) (n : Nat) (p : SrvDrv) : (m.setSrv n p).pwr = m.pwr := rfl
@[simp] theorem Mach.setSrv_vid (m : Mach) (n : Nat) (p : SrvDrv) : (m.setSrv n p).vid = m.vid := rfl
@[simp] theorem Mach.setSrv_fus (m : Mach) (n : Nat) (p : SrvDrv) : (m.setSrv n p).fus = m.fus := rfl
@[simp] theorem Mach.setSrv_adc (m : Mach) (n : Nat) (p : SrvDrv) : (m.setSrv n p).adc = m.adc := rfl
@[simp] theorem Mach.setSrv_hv (m : Mach) (n : Nat) (p : SrvDrv) : (m.setSrv n p).hv = m.hv := rfl
@[simp] theorem Mach.setSrv_thm (m : Mach) (n : Nat) (p : SrvDrv) : (m.setSrv n p).thm = m.thm := rfl
@[simp] theorem Mach.setSrv_shunt (m : Mach) (n : Nat) (p : SrvDrv) : (m.setSrv n p).shunt = m.shunt := rfl
@[simp] theorem Mach.setSrv_enc (m : Mach) (n : Nat) (p : SrvDrv) : (m.setSrv n p).enc = m.enc := rfl
@[simp] theorem Mach.setSrv_ssi (m : Mach) (n : Nat) (p : SrvDrv) : (m.setSrv n p).ssi = m.ssi := rfl
@[simp] theorem Mach.setSrv_sns (m : Mach) (n : Nat) (p : SrvDrv) : (m.setSrv n p).sns = m.sns := rfl
@[simp] theorem Mach.setSrv_heldEdges (m : Mach) (n : Nat) (p : SrvDrv) : (m.setSrv n p).heldEdges = m.heldEdges := rfl
@[simp] theorem Mach.setSrv_axes (m : Mach) (n : Nat) (p : SrvDrv) : (m.setSrv n p).axes = m.axes := rfl
@[simp] theorem Mach.setSrv_peat (m : Mach) (n : Nat) (p : SrvDrv) : (m.setSrv n p).peat = m.peat := rfl
@[simp] theorem Mach.setSrv_mark (m : Mach) (n : Nat) (p : SrvDrv) : (m.setSrv n p).mark = m.mark := rfl
@[simp] theorem Mach.setSrv_dram (m : Mach) (n : Nat) (p : SrvDrv) : (m.setSrv n p).dram = m.dram := rfl
@[simp] theorem Mach.setSrv_hif (m : Mach) (n : Nat) (p : SrvDrv) : (m.setSrv n p).hif = m.hif := rfl
@[simp] theorem Mach.setSrv_gp (m : Mach) (n : Nat) (p : SrvDrv) : (m.setSrv n p).gp = m.gp := rfl
@[simp] theorem Mach.setSrv_sent (m : Mach) (n : Nat) (p : SrvDrv) : (m.setSrv n p).sent = m.sent := rfl

@[simp] theorem Mach.setStp_part (m : Mach) (n : Nat) (p : StpDrv) : (m.setStp n p).part = m.part := rfl
@[simp] theorem Mach.setStp_regs (m : Mach) (n : Nat) (p : StpDrv) : (m.setStp n p).regs = m.regs := rfl
@[simp] theorem Mach.setStp_pend (m : Mach) (n : Nat) (p : StpDrv) : (m.setStp n p).pend = m.pend := rfl
@[simp] theorem Mach.setStp_latches (m : Mach) (n : Nat) (p : StpDrv) : (m.setStp n p).latches = m.latches := rfl
@[simp] theorem Mach.setStp_perReq (m : Mach) (n : Nat) (p : StpDrv) : (m.setStp n p).perReq = m.perReq := rfl
@[simp] theorem Mach.setStp_reply (m : Mach) (n : Nat) (p : StpDrv) : (m.setStp n p).reply = m.reply := rfl
@[simp] theorem Mach.setStp_fresh (m : Mach) (n : Nat) (p : StpDrv) : (m.setStp n p).fresh = m.fresh := rfl
@[simp] theorem Mach.setStp_clk (m : Mach) (n : Nat) (p : StpDrv) : (m.setStp n p).clk = m.clk := rfl
@[simp] theorem Mach.setStp_sheets (m : Mach) (n : Nat) (p : StpDrv) : (m.setStp n p).sheets = m.sheets := rfl
@[simp] theorem Mach.setStp_flt (m : Mach) (n : Nat) (p : StpDrv) : (m.setStp n p).flt = m.flt := rfl
@[simp] theorem Mach.setStp_snap (m : Mach) (n : Nat) (p : StpDrv) : (m.setStp n p).snap = m.snap := rfl
@[simp] theorem Mach.setStp_cox (m : Mach) (n : Nat) (p : StpDrv) : (m.setStp n p).cox = m.cox := rfl
@[simp] theorem Mach.setStp_scl (m : Mach) (n : Nat) (p : StpDrv) : (m.setStp n p).scl = m.scl := rfl
@[simp] theorem Mach.setStp_fjl (m : Mach) (n : Nat) (p : StpDrv) : (m.setStp n p).fjl = m.fjl := rfl
@[simp] theorem Mach.setStp_sec (m : Mach) (n : Nat) (p : StpDrv) : (m.setStp n p).sec = m.sec := rfl
@[simp] theorem Mach.setStp_drv (m : Mach) (n : Nat) (p : StpDrv) : (m.setStp n p).drv =
    { m.drv with stp := tput n p m.drv.stp } := rfl
@[simp] theorem Mach.setStp_mot (m : Mach) (n : Nat) (p : StpDrv) : (m.setStp n p).mot = m.mot := rfl
@[simp] theorem Mach.setStp_pwr (m : Mach) (n : Nat) (p : StpDrv) : (m.setStp n p).pwr = m.pwr := rfl
@[simp] theorem Mach.setStp_vid (m : Mach) (n : Nat) (p : StpDrv) : (m.setStp n p).vid = m.vid := rfl
@[simp] theorem Mach.setStp_fus (m : Mach) (n : Nat) (p : StpDrv) : (m.setStp n p).fus = m.fus := rfl
@[simp] theorem Mach.setStp_adc (m : Mach) (n : Nat) (p : StpDrv) : (m.setStp n p).adc = m.adc := rfl
@[simp] theorem Mach.setStp_hv (m : Mach) (n : Nat) (p : StpDrv) : (m.setStp n p).hv = m.hv := rfl
@[simp] theorem Mach.setStp_thm (m : Mach) (n : Nat) (p : StpDrv) : (m.setStp n p).thm = m.thm := rfl
@[simp] theorem Mach.setStp_shunt (m : Mach) (n : Nat) (p : StpDrv) : (m.setStp n p).shunt = m.shunt := rfl
@[simp] theorem Mach.setStp_enc (m : Mach) (n : Nat) (p : StpDrv) : (m.setStp n p).enc = m.enc := rfl
@[simp] theorem Mach.setStp_ssi (m : Mach) (n : Nat) (p : StpDrv) : (m.setStp n p).ssi = m.ssi := rfl
@[simp] theorem Mach.setStp_sns (m : Mach) (n : Nat) (p : StpDrv) : (m.setStp n p).sns = m.sns := rfl
@[simp] theorem Mach.setStp_heldEdges (m : Mach) (n : Nat) (p : StpDrv) : (m.setStp n p).heldEdges = m.heldEdges := rfl
@[simp] theorem Mach.setStp_axes (m : Mach) (n : Nat) (p : StpDrv) : (m.setStp n p).axes = m.axes := rfl
@[simp] theorem Mach.setStp_peat (m : Mach) (n : Nat) (p : StpDrv) : (m.setStp n p).peat = m.peat := rfl
@[simp] theorem Mach.setStp_mark (m : Mach) (n : Nat) (p : StpDrv) : (m.setStp n p).mark = m.mark := rfl
@[simp] theorem Mach.setStp_dram (m : Mach) (n : Nat) (p : StpDrv) : (m.setStp n p).dram = m.dram := rfl
@[simp] theorem Mach.setStp_hif (m : Mach) (n : Nat) (p : StpDrv) : (m.setStp n p).hif = m.hif := rfl
@[simp] theorem Mach.setStp_gp (m : Mach) (n : Nat) (p : StpDrv) : (m.setStp n p).gp = m.gp := rfl
@[simp] theorem Mach.setStp_sent (m : Mach) (n : Nat) (p : StpDrv) : (m.setStp n p).sent = m.sent := rfl

@[simp] theorem Mach.setGates_part (m : Mach) (d : Nat) (g : GateSet) : (m.setGates d g).part = m.part := rfl
@[simp] theorem Mach.setGates_regs (m : Mach) (d : Nat) (g : GateSet) : (m.setGates d g).regs = m.regs := rfl
@[simp] theorem Mach.setGates_pend (m : Mach) (d : Nat) (g : GateSet) : (m.setGates d g).pend = m.pend := rfl
@[simp] theorem Mach.setGates_latches (m : Mach) (d : Nat) (g : GateSet) : (m.setGates d g).latches = m.latches := rfl
@[simp] theorem Mach.setGates_perReq (m : Mach) (d : Nat) (g : GateSet) : (m.setGates d g).perReq = m.perReq := rfl
@[simp] theorem Mach.setGates_reply (m : Mach) (d : Nat) (g : GateSet) : (m.setGates d g).reply = m.reply := rfl
@[simp] theorem Mach.setGates_fresh (m : Mach) (d : Nat) (g : GateSet) : (m.setGates d g).fresh = m.fresh := rfl
@[simp] theorem Mach.setGates_clk (m : Mach) (d : Nat) (g : GateSet) : (m.setGates d g).clk = m.clk := rfl
@[simp] theorem Mach.setGates_sheets (m : Mach) (d : Nat) (g : GateSet) : (m.setGates d g).sheets = m.sheets := rfl
@[simp] theorem Mach.setGates_flt (m : Mach) (d : Nat) (g : GateSet) : (m.setGates d g).flt = m.flt := rfl
@[simp] theorem Mach.setGates_snap (m : Mach) (d : Nat) (g : GateSet) : (m.setGates d g).snap = m.snap := rfl
@[simp] theorem Mach.setGates_cox (m : Mach) (d : Nat) (g : GateSet) : (m.setGates d g).cox = m.cox := rfl
@[simp] theorem Mach.setGates_scl (m : Mach) (d : Nat) (g : GateSet) : (m.setGates d g).scl = m.scl := rfl
@[simp] theorem Mach.setGates_fjl (m : Mach) (d : Nat) (g : GateSet) : (m.setGates d g).fjl = m.fjl := rfl
@[simp] theorem Mach.setGates_sec (m : Mach) (d : Nat) (g : GateSet) : (m.setGates d g).sec = m.sec := rfl
@[simp] theorem Mach.setGates_drv (m : Mach) (d : Nat) (g : GateSet) : (m.setGates d g).drv =
    { m.drv with gates := tput d g m.drv.gates } := rfl
@[simp] theorem Mach.setGates_mot (m : Mach) (d : Nat) (g : GateSet) : (m.setGates d g).mot = m.mot := rfl
@[simp] theorem Mach.setGates_pwr (m : Mach) (d : Nat) (g : GateSet) : (m.setGates d g).pwr = m.pwr := rfl
@[simp] theorem Mach.setGates_vid (m : Mach) (d : Nat) (g : GateSet) : (m.setGates d g).vid = m.vid := rfl
@[simp] theorem Mach.setGates_fus (m : Mach) (d : Nat) (g : GateSet) : (m.setGates d g).fus = m.fus := rfl
@[simp] theorem Mach.setGates_adc (m : Mach) (d : Nat) (g : GateSet) : (m.setGates d g).adc = m.adc := rfl
@[simp] theorem Mach.setGates_hv (m : Mach) (d : Nat) (g : GateSet) : (m.setGates d g).hv = m.hv := rfl
@[simp] theorem Mach.setGates_thm (m : Mach) (d : Nat) (g : GateSet) : (m.setGates d g).thm = m.thm := rfl
@[simp] theorem Mach.setGates_shunt (m : Mach) (d : Nat) (g : GateSet) : (m.setGates d g).shunt = m.shunt := rfl
@[simp] theorem Mach.setGates_enc (m : Mach) (d : Nat) (g : GateSet) : (m.setGates d g).enc = m.enc := rfl
@[simp] theorem Mach.setGates_ssi (m : Mach) (d : Nat) (g : GateSet) : (m.setGates d g).ssi = m.ssi := rfl
@[simp] theorem Mach.setGates_sns (m : Mach) (d : Nat) (g : GateSet) : (m.setGates d g).sns = m.sns := rfl
@[simp] theorem Mach.setGates_heldEdges (m : Mach) (d : Nat) (g : GateSet) : (m.setGates d g).heldEdges = m.heldEdges := rfl
@[simp] theorem Mach.setGates_axes (m : Mach) (d : Nat) (g : GateSet) : (m.setGates d g).axes = m.axes := rfl
@[simp] theorem Mach.setGates_peat (m : Mach) (d : Nat) (g : GateSet) : (m.setGates d g).peat = m.peat := rfl
@[simp] theorem Mach.setGates_mark (m : Mach) (d : Nat) (g : GateSet) : (m.setGates d g).mark = m.mark := rfl
@[simp] theorem Mach.setGates_dram (m : Mach) (d : Nat) (g : GateSet) : (m.setGates d g).dram = m.dram := rfl
@[simp] theorem Mach.setGates_hif (m : Mach) (d : Nat) (g : GateSet) : (m.setGates d g).hif = m.hif := rfl
@[simp] theorem Mach.setGates_gp (m : Mach) (d : Nat) (g : GateSet) : (m.setGates d g).gp = m.gp := rfl
@[simp] theorem Mach.setGates_sent (m : Mach) (d : Nat) (g : GateSet) : (m.setGates d g).sent = m.sent := rfl

@[simp] theorem Mach.onPeat_part (m : Mach) (f : Peat → Peat) : (m.onPeat f).part = m.part := rfl
@[simp] theorem Mach.onPeat_regs (m : Mach) (f : Peat → Peat) : (m.onPeat f).regs = m.regs := rfl
@[simp] theorem Mach.onPeat_pend (m : Mach) (f : Peat → Peat) : (m.onPeat f).pend = m.pend := rfl
@[simp] theorem Mach.onPeat_latches (m : Mach) (f : Peat → Peat) : (m.onPeat f).latches = m.latches := rfl
@[simp] theorem Mach.onPeat_perReq (m : Mach) (f : Peat → Peat) : (m.onPeat f).perReq = m.perReq := rfl
@[simp] theorem Mach.onPeat_reply (m : Mach) (f : Peat → Peat) : (m.onPeat f).reply = m.reply := rfl
@[simp] theorem Mach.onPeat_fresh (m : Mach) (f : Peat → Peat) : (m.onPeat f).fresh = m.fresh := rfl
@[simp] theorem Mach.onPeat_clk (m : Mach) (f : Peat → Peat) : (m.onPeat f).clk = m.clk := rfl
@[simp] theorem Mach.onPeat_sheets (m : Mach) (f : Peat → Peat) : (m.onPeat f).sheets = m.sheets := rfl
@[simp] theorem Mach.onPeat_flt (m : Mach) (f : Peat → Peat) : (m.onPeat f).flt = m.flt := rfl
@[simp] theorem Mach.onPeat_snap (m : Mach) (f : Peat → Peat) : (m.onPeat f).snap = m.snap := rfl
@[simp] theorem Mach.onPeat_cox (m : Mach) (f : Peat → Peat) : (m.onPeat f).cox = m.cox := rfl
@[simp] theorem Mach.onPeat_scl (m : Mach) (f : Peat → Peat) : (m.onPeat f).scl = m.scl := rfl
@[simp] theorem Mach.onPeat_fjl (m : Mach) (f : Peat → Peat) : (m.onPeat f).fjl = m.fjl := rfl
@[simp] theorem Mach.onPeat_sec (m : Mach) (f : Peat → Peat) : (m.onPeat f).sec = m.sec := rfl
@[simp] theorem Mach.onPeat_drv (m : Mach) (f : Peat → Peat) : (m.onPeat f).drv = m.drv := rfl
@[simp] theorem Mach.onPeat_mot (m : Mach) (f : Peat → Peat) : (m.onPeat f).mot = m.mot := rfl
@[simp] theorem Mach.onPeat_pwr (m : Mach) (f : Peat → Peat) : (m.onPeat f).pwr = m.pwr := rfl
@[simp] theorem Mach.onPeat_vid (m : Mach) (f : Peat → Peat) : (m.onPeat f).vid = m.vid := rfl
@[simp] theorem Mach.onPeat_fus (m : Mach) (f : Peat → Peat) : (m.onPeat f).fus = m.fus := rfl
@[simp] theorem Mach.onPeat_adc (m : Mach) (f : Peat → Peat) : (m.onPeat f).adc = m.adc := rfl
@[simp] theorem Mach.onPeat_hv (m : Mach) (f : Peat → Peat) : (m.onPeat f).hv = m.hv := rfl
@[simp] theorem Mach.onPeat_thm (m : Mach) (f : Peat → Peat) : (m.onPeat f).thm = m.thm := rfl
@[simp] theorem Mach.onPeat_shunt (m : Mach) (f : Peat → Peat) : (m.onPeat f).shunt = m.shunt := rfl
@[simp] theorem Mach.onPeat_enc (m : Mach) (f : Peat → Peat) : (m.onPeat f).enc = m.enc := rfl
@[simp] theorem Mach.onPeat_ssi (m : Mach) (f : Peat → Peat) : (m.onPeat f).ssi = m.ssi := rfl
@[simp] theorem Mach.onPeat_sns (m : Mach) (f : Peat → Peat) : (m.onPeat f).sns = m.sns := rfl
@[simp] theorem Mach.onPeat_heldEdges (m : Mach) (f : Peat → Peat) : (m.onPeat f).heldEdges = m.heldEdges := rfl
@[simp] theorem Mach.onPeat_axes (m : Mach) (f : Peat → Peat) : (m.onPeat f).axes = m.axes := rfl
@[simp] theorem Mach.onPeat_peat (m : Mach) (f : Peat → Peat) : (m.onPeat f).peat =
    f m.peat := rfl
@[simp] theorem Mach.onPeat_mark (m : Mach) (f : Peat → Peat) : (m.onPeat f).mark = m.mark := rfl
@[simp] theorem Mach.onPeat_dram (m : Mach) (f : Peat → Peat) : (m.onPeat f).dram = m.dram := rfl
@[simp] theorem Mach.onPeat_hif (m : Mach) (f : Peat → Peat) : (m.onPeat f).hif = m.hif := rfl
@[simp] theorem Mach.onPeat_gp (m : Mach) (f : Peat → Peat) : (m.onPeat f).gp = m.gp := rfl
@[simp] theorem Mach.onPeat_sent (m : Mach) (f : Peat → Peat) : (m.onPeat f).sent = m.sent := rfl

@[simp] theorem Mach.setFeeder_part (m : Mach) (n : Nat) (f : Feeder) : (m.setFeeder n f).part = m.part := rfl
@[simp] theorem Mach.setFeeder_regs (m : Mach) (n : Nat) (f : Feeder) : (m.setFeeder n f).regs = m.regs := rfl
@[simp] theorem Mach.setFeeder_pend (m : Mach) (n : Nat) (f : Feeder) : (m.setFeeder n f).pend = m.pend := rfl
@[simp] theorem Mach.setFeeder_latches (m : Mach) (n : Nat) (f : Feeder) : (m.setFeeder n f).latches = m.latches := rfl
@[simp] theorem Mach.setFeeder_perReq (m : Mach) (n : Nat) (f : Feeder) : (m.setFeeder n f).perReq = m.perReq := rfl
@[simp] theorem Mach.setFeeder_reply (m : Mach) (n : Nat) (f : Feeder) : (m.setFeeder n f).reply = m.reply := rfl
@[simp] theorem Mach.setFeeder_fresh (m : Mach) (n : Nat) (f : Feeder) : (m.setFeeder n f).fresh = m.fresh := rfl
@[simp] theorem Mach.setFeeder_clk (m : Mach) (n : Nat) (f : Feeder) : (m.setFeeder n f).clk = m.clk := rfl
@[simp] theorem Mach.setFeeder_sheets (m : Mach) (n : Nat) (f : Feeder) : (m.setFeeder n f).sheets = m.sheets := rfl
@[simp] theorem Mach.setFeeder_flt (m : Mach) (n : Nat) (f : Feeder) : (m.setFeeder n f).flt = m.flt := rfl
@[simp] theorem Mach.setFeeder_snap (m : Mach) (n : Nat) (f : Feeder) : (m.setFeeder n f).snap = m.snap := rfl
@[simp] theorem Mach.setFeeder_cox (m : Mach) (n : Nat) (f : Feeder) : (m.setFeeder n f).cox = m.cox := rfl
@[simp] theorem Mach.setFeeder_scl (m : Mach) (n : Nat) (f : Feeder) : (m.setFeeder n f).scl = m.scl := rfl
@[simp] theorem Mach.setFeeder_fjl (m : Mach) (n : Nat) (f : Feeder) : (m.setFeeder n f).fjl = m.fjl := rfl
@[simp] theorem Mach.setFeeder_sec (m : Mach) (n : Nat) (f : Feeder) : (m.setFeeder n f).sec = m.sec := rfl
@[simp] theorem Mach.setFeeder_drv (m : Mach) (n : Nat) (f : Feeder) : (m.setFeeder n f).drv = m.drv := rfl
@[simp] theorem Mach.setFeeder_mot (m : Mach) (n : Nat) (f : Feeder) : (m.setFeeder n f).mot = m.mot := rfl
@[simp] theorem Mach.setFeeder_pwr (m : Mach) (n : Nat) (f : Feeder) : (m.setFeeder n f).pwr = m.pwr := rfl
@[simp] theorem Mach.setFeeder_vid (m : Mach) (n : Nat) (f : Feeder) : (m.setFeeder n f).vid = m.vid := rfl
@[simp] theorem Mach.setFeeder_fus (m : Mach) (n : Nat) (f : Feeder) : (m.setFeeder n f).fus = m.fus := rfl
@[simp] theorem Mach.setFeeder_adc (m : Mach) (n : Nat) (f : Feeder) : (m.setFeeder n f).adc = m.adc := rfl
@[simp] theorem Mach.setFeeder_hv (m : Mach) (n : Nat) (f : Feeder) : (m.setFeeder n f).hv = m.hv := rfl
@[simp] theorem Mach.setFeeder_thm (m : Mach) (n : Nat) (f : Feeder) : (m.setFeeder n f).thm = m.thm := rfl
@[simp] theorem Mach.setFeeder_shunt (m : Mach) (n : Nat) (f : Feeder) : (m.setFeeder n f).shunt = m.shunt := rfl
@[simp] theorem Mach.setFeeder_enc (m : Mach) (n : Nat) (f : Feeder) : (m.setFeeder n f).enc = m.enc := rfl
@[simp] theorem Mach.setFeeder_ssi (m : Mach) (n : Nat) (f : Feeder) : (m.setFeeder n f).ssi = m.ssi := rfl
@[simp] theorem Mach.setFeeder_sns (m : Mach) (n : Nat) (f : Feeder) : (m.setFeeder n f).sns = m.sns := rfl
@[simp] theorem Mach.setFeeder_heldEdges (m : Mach) (n : Nat) (f : Feeder) : (m.setFeeder n f).heldEdges = m.heldEdges := rfl
@[simp] theorem Mach.setFeeder_axes (m : Mach) (n : Nat) (f : Feeder) : (m.setFeeder n f).axes = m.axes := rfl
@[simp] theorem Mach.setFeeder_peat (m : Mach) (n : Nat) (f : Feeder) : (m.setFeeder n f).peat =
    { m.peat with feeders := tput n f m.peat.feeders } := rfl
@[simp] theorem Mach.setFeeder_mark (m : Mach) (n : Nat) (f : Feeder) : (m.setFeeder n f).mark = m.mark := rfl
@[simp] theorem Mach.setFeeder_dram (m : Mach) (n : Nat) (f : Feeder) : (m.setFeeder n f).dram = m.dram := rfl
@[simp] theorem Mach.setFeeder_hif (m : Mach) (n : Nat) (f : Feeder) : (m.setFeeder n f).hif = m.hif := rfl
@[simp] theorem Mach.setFeeder_gp (m : Mach) (n : Nat) (f : Feeder) : (m.setFeeder n f).gp = m.gp := rfl
@[simp] theorem Mach.setFeeder_sent (m : Mach) (n : Nat) (f : Feeder) : (m.setFeeder n f).sent = m.sent := rfl

@[simp] theorem Mach.onFjl_part (m : Mach) (f : Fjl → Fjl) : (m.onFjl f).part = m.part := rfl
@[simp] theorem Mach.onFjl_regs (m : Mach) (f : Fjl → Fjl) : (m.onFjl f).regs = m.regs := rfl
@[simp] theorem Mach.onFjl_pend (m : Mach) (f : Fjl → Fjl) : (m.onFjl f).pend = m.pend := rfl
@[simp] theorem Mach.onFjl_latches (m : Mach) (f : Fjl → Fjl) : (m.onFjl f).latches = m.latches := rfl
@[simp] theorem Mach.onFjl_perReq (m : Mach) (f : Fjl → Fjl) : (m.onFjl f).perReq = m.perReq := rfl
@[simp] theorem Mach.onFjl_reply (m : Mach) (f : Fjl → Fjl) : (m.onFjl f).reply = m.reply := rfl
@[simp] theorem Mach.onFjl_fresh (m : Mach) (f : Fjl → Fjl) : (m.onFjl f).fresh = m.fresh := rfl
@[simp] theorem Mach.onFjl_clk (m : Mach) (f : Fjl → Fjl) : (m.onFjl f).clk = m.clk := rfl
@[simp] theorem Mach.onFjl_sheets (m : Mach) (f : Fjl → Fjl) : (m.onFjl f).sheets = m.sheets := rfl
@[simp] theorem Mach.onFjl_flt (m : Mach) (f : Fjl → Fjl) : (m.onFjl f).flt = m.flt := rfl
@[simp] theorem Mach.onFjl_snap (m : Mach) (f : Fjl → Fjl) : (m.onFjl f).snap = m.snap := rfl
@[simp] theorem Mach.onFjl_cox (m : Mach) (f : Fjl → Fjl) : (m.onFjl f).cox = m.cox := rfl
@[simp] theorem Mach.onFjl_scl (m : Mach) (f : Fjl → Fjl) : (m.onFjl f).scl = m.scl := rfl
@[simp] theorem Mach.onFjl_fjl (m : Mach) (f : Fjl → Fjl) : (m.onFjl f).fjl =
    f m.fjl := rfl
@[simp] theorem Mach.onFjl_sec (m : Mach) (f : Fjl → Fjl) : (m.onFjl f).sec = m.sec := rfl
@[simp] theorem Mach.onFjl_drv (m : Mach) (f : Fjl → Fjl) : (m.onFjl f).drv = m.drv := rfl
@[simp] theorem Mach.onFjl_mot (m : Mach) (f : Fjl → Fjl) : (m.onFjl f).mot = m.mot := rfl
@[simp] theorem Mach.onFjl_pwr (m : Mach) (f : Fjl → Fjl) : (m.onFjl f).pwr = m.pwr := rfl
@[simp] theorem Mach.onFjl_vid (m : Mach) (f : Fjl → Fjl) : (m.onFjl f).vid = m.vid := rfl
@[simp] theorem Mach.onFjl_fus (m : Mach) (f : Fjl → Fjl) : (m.onFjl f).fus = m.fus := rfl
@[simp] theorem Mach.onFjl_adc (m : Mach) (f : Fjl → Fjl) : (m.onFjl f).adc = m.adc := rfl
@[simp] theorem Mach.onFjl_hv (m : Mach) (f : Fjl → Fjl) : (m.onFjl f).hv = m.hv := rfl
@[simp] theorem Mach.onFjl_thm (m : Mach) (f : Fjl → Fjl) : (m.onFjl f).thm = m.thm := rfl
@[simp] theorem Mach.onFjl_shunt (m : Mach) (f : Fjl → Fjl) : (m.onFjl f).shunt = m.shunt := rfl
@[simp] theorem Mach.onFjl_enc (m : Mach) (f : Fjl → Fjl) : (m.onFjl f).enc = m.enc := rfl
@[simp] theorem Mach.onFjl_ssi (m : Mach) (f : Fjl → Fjl) : (m.onFjl f).ssi = m.ssi := rfl
@[simp] theorem Mach.onFjl_sns (m : Mach) (f : Fjl → Fjl) : (m.onFjl f).sns = m.sns := rfl
@[simp] theorem Mach.onFjl_heldEdges (m : Mach) (f : Fjl → Fjl) : (m.onFjl f).heldEdges = m.heldEdges := rfl
@[simp] theorem Mach.onFjl_axes (m : Mach) (f : Fjl → Fjl) : (m.onFjl f).axes = m.axes := rfl
@[simp] theorem Mach.onFjl_peat (m : Mach) (f : Fjl → Fjl) : (m.onFjl f).peat = m.peat := rfl
@[simp] theorem Mach.onFjl_mark (m : Mach) (f : Fjl → Fjl) : (m.onFjl f).mark = m.mark := rfl
@[simp] theorem Mach.onFjl_dram (m : Mach) (f : Fjl → Fjl) : (m.onFjl f).dram = m.dram := rfl
@[simp] theorem Mach.onFjl_hif (m : Mach) (f : Fjl → Fjl) : (m.onFjl f).hif = m.hif := rfl
@[simp] theorem Mach.onFjl_gp (m : Mach) (f : Fjl → Fjl) : (m.onFjl f).gp = m.gp := rfl
@[simp] theorem Mach.onFjl_sent (m : Mach) (f : Fjl → Fjl) : (m.onFjl f).sent = m.sent := rfl

@[simp] theorem Mach.onSec_part (m : Mach) (f : Sec → Sec) : (m.onSec f).part = m.part := rfl
@[simp] theorem Mach.onSec_regs (m : Mach) (f : Sec → Sec) : (m.onSec f).regs = m.regs := rfl
@[simp] theorem Mach.onSec_pend (m : Mach) (f : Sec → Sec) : (m.onSec f).pend = m.pend := rfl
@[simp] theorem Mach.onSec_latches (m : Mach) (f : Sec → Sec) : (m.onSec f).latches = m.latches := rfl
@[simp] theorem Mach.onSec_perReq (m : Mach) (f : Sec → Sec) : (m.onSec f).perReq = m.perReq := rfl
@[simp] theorem Mach.onSec_reply (m : Mach) (f : Sec → Sec) : (m.onSec f).reply = m.reply := rfl
@[simp] theorem Mach.onSec_fresh (m : Mach) (f : Sec → Sec) : (m.onSec f).fresh = m.fresh := rfl
@[simp] theorem Mach.onSec_clk (m : Mach) (f : Sec → Sec) : (m.onSec f).clk = m.clk := rfl
@[simp] theorem Mach.onSec_sheets (m : Mach) (f : Sec → Sec) : (m.onSec f).sheets = m.sheets := rfl
@[simp] theorem Mach.onSec_flt (m : Mach) (f : Sec → Sec) : (m.onSec f).flt = m.flt := rfl
@[simp] theorem Mach.onSec_snap (m : Mach) (f : Sec → Sec) : (m.onSec f).snap = m.snap := rfl
@[simp] theorem Mach.onSec_cox (m : Mach) (f : Sec → Sec) : (m.onSec f).cox = m.cox := rfl
@[simp] theorem Mach.onSec_scl (m : Mach) (f : Sec → Sec) : (m.onSec f).scl = m.scl := rfl
@[simp] theorem Mach.onSec_fjl (m : Mach) (f : Sec → Sec) : (m.onSec f).fjl = m.fjl := rfl
@[simp] theorem Mach.onSec_sec (m : Mach) (f : Sec → Sec) : (m.onSec f).sec =
    f m.sec := rfl
@[simp] theorem Mach.onSec_drv (m : Mach) (f : Sec → Sec) : (m.onSec f).drv = m.drv := rfl
@[simp] theorem Mach.onSec_mot (m : Mach) (f : Sec → Sec) : (m.onSec f).mot = m.mot := rfl
@[simp] theorem Mach.onSec_pwr (m : Mach) (f : Sec → Sec) : (m.onSec f).pwr = m.pwr := rfl
@[simp] theorem Mach.onSec_vid (m : Mach) (f : Sec → Sec) : (m.onSec f).vid = m.vid := rfl
@[simp] theorem Mach.onSec_fus (m : Mach) (f : Sec → Sec) : (m.onSec f).fus = m.fus := rfl
@[simp] theorem Mach.onSec_adc (m : Mach) (f : Sec → Sec) : (m.onSec f).adc = m.adc := rfl
@[simp] theorem Mach.onSec_hv (m : Mach) (f : Sec → Sec) : (m.onSec f).hv = m.hv := rfl
@[simp] theorem Mach.onSec_thm (m : Mach) (f : Sec → Sec) : (m.onSec f).thm = m.thm := rfl
@[simp] theorem Mach.onSec_shunt (m : Mach) (f : Sec → Sec) : (m.onSec f).shunt = m.shunt := rfl
@[simp] theorem Mach.onSec_enc (m : Mach) (f : Sec → Sec) : (m.onSec f).enc = m.enc := rfl
@[simp] theorem Mach.onSec_ssi (m : Mach) (f : Sec → Sec) : (m.onSec f).ssi = m.ssi := rfl
@[simp] theorem Mach.onSec_sns (m : Mach) (f : Sec → Sec) : (m.onSec f).sns = m.sns := rfl
@[simp] theorem Mach.onSec_heldEdges (m : Mach) (f : Sec → Sec) : (m.onSec f).heldEdges = m.heldEdges := rfl
@[simp] theorem Mach.onSec_axes (m : Mach) (f : Sec → Sec) : (m.onSec f).axes = m.axes := rfl
@[simp] theorem Mach.onSec_peat (m : Mach) (f : Sec → Sec) : (m.onSec f).peat = m.peat := rfl
@[simp] theorem Mach.onSec_mark (m : Mach) (f : Sec → Sec) : (m.onSec f).mark = m.mark := rfl
@[simp] theorem Mach.onSec_dram (m : Mach) (f : Sec → Sec) : (m.onSec f).dram = m.dram := rfl
@[simp] theorem Mach.onSec_hif (m : Mach) (f : Sec → Sec) : (m.onSec f).hif = m.hif := rfl
@[simp] theorem Mach.onSec_gp (m : Mach) (f : Sec → Sec) : (m.onSec f).gp = m.gp := rfl
@[simp] theorem Mach.onSec_sent (m : Mach) (f : Sec → Sec) : (m.onSec f).sent = m.sent := rfl

@[simp] theorem Mach.onPwr_part (m : Mach) (f : Power → Power) : (m.onPwr f).part = m.part := rfl
@[simp] theorem Mach.onPwr_regs (m : Mach) (f : Power → Power) : (m.onPwr f).regs = m.regs := rfl
@[simp] theorem Mach.onPwr_pend (m : Mach) (f : Power → Power) : (m.onPwr f).pend = m.pend := rfl
@[simp] theorem Mach.onPwr_latches (m : Mach) (f : Power → Power) : (m.onPwr f).latches = m.latches := rfl
@[simp] theorem Mach.onPwr_perReq (m : Mach) (f : Power → Power) : (m.onPwr f).perReq = m.perReq := rfl
@[simp] theorem Mach.onPwr_reply (m : Mach) (f : Power → Power) : (m.onPwr f).reply = m.reply := rfl
@[simp] theorem Mach.onPwr_fresh (m : Mach) (f : Power → Power) : (m.onPwr f).fresh = m.fresh := rfl
@[simp] theorem Mach.onPwr_clk (m : Mach) (f : Power → Power) : (m.onPwr f).clk = m.clk := rfl
@[simp] theorem Mach.onPwr_sheets (m : Mach) (f : Power → Power) : (m.onPwr f).sheets = m.sheets := rfl
@[simp] theorem Mach.onPwr_flt (m : Mach) (f : Power → Power) : (m.onPwr f).flt = m.flt := rfl
@[simp] theorem Mach.onPwr_snap (m : Mach) (f : Power → Power) : (m.onPwr f).snap = m.snap := rfl
@[simp] theorem Mach.onPwr_cox (m : Mach) (f : Power → Power) : (m.onPwr f).cox = m.cox := rfl
@[simp] theorem Mach.onPwr_scl (m : Mach) (f : Power → Power) : (m.onPwr f).scl = m.scl := rfl
@[simp] theorem Mach.onPwr_fjl (m : Mach) (f : Power → Power) : (m.onPwr f).fjl = m.fjl := rfl
@[simp] theorem Mach.onPwr_sec (m : Mach) (f : Power → Power) : (m.onPwr f).sec = m.sec := rfl
@[simp] theorem Mach.onPwr_drv (m : Mach) (f : Power → Power) : (m.onPwr f).drv = m.drv := rfl
@[simp] theorem Mach.onPwr_mot (m : Mach) (f : Power → Power) : (m.onPwr f).mot = m.mot := rfl
@[simp] theorem Mach.onPwr_pwr (m : Mach) (f : Power → Power) : (m.onPwr f).pwr =
    f m.pwr := rfl
@[simp] theorem Mach.onPwr_vid (m : Mach) (f : Power → Power) : (m.onPwr f).vid = m.vid := rfl
@[simp] theorem Mach.onPwr_fus (m : Mach) (f : Power → Power) : (m.onPwr f).fus = m.fus := rfl
@[simp] theorem Mach.onPwr_adc (m : Mach) (f : Power → Power) : (m.onPwr f).adc = m.adc := rfl
@[simp] theorem Mach.onPwr_hv (m : Mach) (f : Power → Power) : (m.onPwr f).hv = m.hv := rfl
@[simp] theorem Mach.onPwr_thm (m : Mach) (f : Power → Power) : (m.onPwr f).thm = m.thm := rfl
@[simp] theorem Mach.onPwr_shunt (m : Mach) (f : Power → Power) : (m.onPwr f).shunt = m.shunt := rfl
@[simp] theorem Mach.onPwr_enc (m : Mach) (f : Power → Power) : (m.onPwr f).enc = m.enc := rfl
@[simp] theorem Mach.onPwr_ssi (m : Mach) (f : Power → Power) : (m.onPwr f).ssi = m.ssi := rfl
@[simp] theorem Mach.onPwr_sns (m : Mach) (f : Power → Power) : (m.onPwr f).sns = m.sns := rfl
@[simp] theorem Mach.onPwr_heldEdges (m : Mach) (f : Power → Power) : (m.onPwr f).heldEdges = m.heldEdges := rfl
@[simp] theorem Mach.onPwr_axes (m : Mach) (f : Power → Power) : (m.onPwr f).axes = m.axes := rfl
@[simp] theorem Mach.onPwr_peat (m : Mach) (f : Power → Power) : (m.onPwr f).peat = m.peat := rfl
@[simp] theorem Mach.onPwr_mark (m : Mach) (f : Power → Power) : (m.onPwr f).mark = m.mark := rfl
@[simp] theorem Mach.onPwr_dram (m : Mach) (f : Power → Power) : (m.onPwr f).dram = m.dram := rfl
@[simp] theorem Mach.onPwr_hif (m : Mach) (f : Power → Power) : (m.onPwr f).hif = m.hif := rfl
@[simp] theorem Mach.onPwr_gp (m : Mach) (f : Power → Power) : (m.onPwr f).gp = m.gp := rfl
@[simp] theorem Mach.onPwr_sent (m : Mach) (f : Power → Power) : (m.onPwr f).sent = m.sent := rfl

@[simp] theorem Mach.onHif_part (m : Mach) (f : HostIf → HostIf) : (m.onHif f).part = m.part := rfl
@[simp] theorem Mach.onHif_regs (m : Mach) (f : HostIf → HostIf) : (m.onHif f).regs = m.regs := rfl
@[simp] theorem Mach.onHif_pend (m : Mach) (f : HostIf → HostIf) : (m.onHif f).pend = m.pend := rfl
@[simp] theorem Mach.onHif_latches (m : Mach) (f : HostIf → HostIf) : (m.onHif f).latches = m.latches := rfl
@[simp] theorem Mach.onHif_perReq (m : Mach) (f : HostIf → HostIf) : (m.onHif f).perReq = m.perReq := rfl
@[simp] theorem Mach.onHif_reply (m : Mach) (f : HostIf → HostIf) : (m.onHif f).reply = m.reply := rfl
@[simp] theorem Mach.onHif_fresh (m : Mach) (f : HostIf → HostIf) : (m.onHif f).fresh = m.fresh := rfl
@[simp] theorem Mach.onHif_clk (m : Mach) (f : HostIf → HostIf) : (m.onHif f).clk = m.clk := rfl
@[simp] theorem Mach.onHif_sheets (m : Mach) (f : HostIf → HostIf) : (m.onHif f).sheets = m.sheets := rfl
@[simp] theorem Mach.onHif_flt (m : Mach) (f : HostIf → HostIf) : (m.onHif f).flt = m.flt := rfl
@[simp] theorem Mach.onHif_snap (m : Mach) (f : HostIf → HostIf) : (m.onHif f).snap = m.snap := rfl
@[simp] theorem Mach.onHif_cox (m : Mach) (f : HostIf → HostIf) : (m.onHif f).cox = m.cox := rfl
@[simp] theorem Mach.onHif_scl (m : Mach) (f : HostIf → HostIf) : (m.onHif f).scl = m.scl := rfl
@[simp] theorem Mach.onHif_fjl (m : Mach) (f : HostIf → HostIf) : (m.onHif f).fjl = m.fjl := rfl
@[simp] theorem Mach.onHif_sec (m : Mach) (f : HostIf → HostIf) : (m.onHif f).sec = m.sec := rfl
@[simp] theorem Mach.onHif_drv (m : Mach) (f : HostIf → HostIf) : (m.onHif f).drv = m.drv := rfl
@[simp] theorem Mach.onHif_mot (m : Mach) (f : HostIf → HostIf) : (m.onHif f).mot = m.mot := rfl
@[simp] theorem Mach.onHif_pwr (m : Mach) (f : HostIf → HostIf) : (m.onHif f).pwr = m.pwr := rfl
@[simp] theorem Mach.onHif_vid (m : Mach) (f : HostIf → HostIf) : (m.onHif f).vid = m.vid := rfl
@[simp] theorem Mach.onHif_fus (m : Mach) (f : HostIf → HostIf) : (m.onHif f).fus = m.fus := rfl
@[simp] theorem Mach.onHif_adc (m : Mach) (f : HostIf → HostIf) : (m.onHif f).adc = m.adc := rfl
@[simp] theorem Mach.onHif_hv (m : Mach) (f : HostIf → HostIf) : (m.onHif f).hv = m.hv := rfl
@[simp] theorem Mach.onHif_thm (m : Mach) (f : HostIf → HostIf) : (m.onHif f).thm = m.thm := rfl
@[simp] theorem Mach.onHif_shunt (m : Mach) (f : HostIf → HostIf) : (m.onHif f).shunt = m.shunt := rfl
@[simp] theorem Mach.onHif_enc (m : Mach) (f : HostIf → HostIf) : (m.onHif f).enc = m.enc := rfl
@[simp] theorem Mach.onHif_ssi (m : Mach) (f : HostIf → HostIf) : (m.onHif f).ssi = m.ssi := rfl
@[simp] theorem Mach.onHif_sns (m : Mach) (f : HostIf → HostIf) : (m.onHif f).sns = m.sns := rfl
@[simp] theorem Mach.onHif_heldEdges (m : Mach) (f : HostIf → HostIf) : (m.onHif f).heldEdges = m.heldEdges := rfl
@[simp] theorem Mach.onHif_axes (m : Mach) (f : HostIf → HostIf) : (m.onHif f).axes = m.axes := rfl
@[simp] theorem Mach.onHif_peat (m : Mach) (f : HostIf → HostIf) : (m.onHif f).peat = m.peat := rfl
@[simp] theorem Mach.onHif_mark (m : Mach) (f : HostIf → HostIf) : (m.onHif f).mark = m.mark := rfl
@[simp] theorem Mach.onHif_dram (m : Mach) (f : HostIf → HostIf) : (m.onHif f).dram = m.dram := rfl
@[simp] theorem Mach.onHif_hif (m : Mach) (f : HostIf → HostIf) : (m.onHif f).hif =
    f m.hif := rfl
@[simp] theorem Mach.onHif_gp (m : Mach) (f : HostIf → HostIf) : (m.onHif f).gp = m.gp := rfl
@[simp] theorem Mach.onHif_sent (m : Mach) (f : HostIf → HostIf) : (m.onHif f).sent = m.sent := rfl

@[simp] theorem Mach.onChan_part (m : Mach) (c : Nat) (f : Chan → Chan) : (m.onChan c f).part = m.part := rfl
@[simp] theorem Mach.onChan_regs (m : Mach) (c : Nat) (f : Chan → Chan) : (m.onChan c f).regs = m.regs := rfl
@[simp] theorem Mach.onChan_pend (m : Mach) (c : Nat) (f : Chan → Chan) : (m.onChan c f).pend = m.pend := rfl
@[simp] theorem Mach.onChan_latches (m : Mach) (c : Nat) (f : Chan → Chan) : (m.onChan c f).latches = m.latches := rfl
@[simp] theorem Mach.onChan_perReq (m : Mach) (c : Nat) (f : Chan → Chan) : (m.onChan c f).perReq = m.perReq := rfl
@[simp] theorem Mach.onChan_reply (m : Mach) (c : Nat) (f : Chan → Chan) : (m.onChan c f).reply = m.reply := rfl
@[simp] theorem Mach.onChan_fresh (m : Mach) (c : Nat) (f : Chan → Chan) : (m.onChan c f).fresh = m.fresh := rfl
@[simp] theorem Mach.onChan_clk (m : Mach) (c : Nat) (f : Chan → Chan) : (m.onChan c f).clk = m.clk := rfl
@[simp] theorem Mach.onChan_sheets (m : Mach) (c : Nat) (f : Chan → Chan) : (m.onChan c f).sheets = m.sheets := rfl
@[simp] theorem Mach.onChan_flt (m : Mach) (c : Nat) (f : Chan → Chan) : (m.onChan c f).flt = m.flt := rfl
@[simp] theorem Mach.onChan_snap (m : Mach) (c : Nat) (f : Chan → Chan) : (m.onChan c f).snap = m.snap := rfl
@[simp] theorem Mach.onChan_cox (m : Mach) (c : Nat) (f : Chan → Chan) : (m.onChan c f).cox = m.cox := rfl
@[simp] theorem Mach.onChan_scl (m : Mach) (c : Nat) (f : Chan → Chan) : (m.onChan c f).scl = m.scl := rfl
@[simp] theorem Mach.onChan_fjl (m : Mach) (c : Nat) (f : Chan → Chan) : (m.onChan c f).fjl = m.fjl := rfl
@[simp] theorem Mach.onChan_sec (m : Mach) (c : Nat) (f : Chan → Chan) : (m.onChan c f).sec = m.sec := rfl
@[simp] theorem Mach.onChan_drv (m : Mach) (c : Nat) (f : Chan → Chan) : (m.onChan c f).drv = m.drv := rfl
@[simp] theorem Mach.onChan_mot (m : Mach) (c : Nat) (f : Chan → Chan) : (m.onChan c f).mot = m.mot := rfl
@[simp] theorem Mach.onChan_pwr (m : Mach) (c : Nat) (f : Chan → Chan) : (m.onChan c f).pwr = m.pwr := rfl
@[simp] theorem Mach.onChan_vid (m : Mach) (c : Nat) (f : Chan → Chan) : (m.onChan c f).vid = m.vid := rfl
@[simp] theorem Mach.onChan_fus (m : Mach) (c : Nat) (f : Chan → Chan) : (m.onChan c f).fus = m.fus := rfl
@[simp] theorem Mach.onChan_adc (m : Mach) (c : Nat) (f : Chan → Chan) : (m.onChan c f).adc = m.adc := rfl
@[simp] theorem Mach.onChan_hv (m : Mach) (c : Nat) (f : Chan → Chan) : (m.onChan c f).hv = m.hv := rfl
@[simp] theorem Mach.onChan_thm (m : Mach) (c : Nat) (f : Chan → Chan) : (m.onChan c f).thm = m.thm := rfl
@[simp] theorem Mach.onChan_shunt (m : Mach) (c : Nat) (f : Chan → Chan) : (m.onChan c f).shunt = m.shunt := rfl
@[simp] theorem Mach.onChan_enc (m : Mach) (c : Nat) (f : Chan → Chan) : (m.onChan c f).enc = m.enc := rfl
@[simp] theorem Mach.onChan_ssi (m : Mach) (c : Nat) (f : Chan → Chan) : (m.onChan c f).ssi = m.ssi := rfl
@[simp] theorem Mach.onChan_sns (m : Mach) (c : Nat) (f : Chan → Chan) : (m.onChan c f).sns = m.sns := rfl
@[simp] theorem Mach.onChan_heldEdges (m : Mach) (c : Nat) (f : Chan → Chan) : (m.onChan c f).heldEdges = m.heldEdges := rfl
@[simp] theorem Mach.onChan_axes (m : Mach) (c : Nat) (f : Chan → Chan) : (m.onChan c f).axes = m.axes := rfl
@[simp] theorem Mach.onChan_peat (m : Mach) (c : Nat) (f : Chan → Chan) : (m.onChan c f).peat = m.peat := rfl
@[simp] theorem Mach.onChan_mark (m : Mach) (c : Nat) (f : Chan → Chan) : (m.onChan c f).mark = m.mark := rfl
@[simp] theorem Mach.onChan_dram (m : Mach) (c : Nat) (f : Chan → Chan) : (m.onChan c f).dram = m.dram := rfl
@[simp] theorem Mach.onChan_hif (m : Mach) (c : Nat) (f : Chan → Chan) : (m.onChan c f).hif =
    { m.hif with chans := tput c (f (tget {} c m.hif.chans)) m.hif.chans } := rfl
@[simp] theorem Mach.onChan_gp (m : Mach) (c : Nat) (f : Chan → Chan) : (m.onChan c f).gp = m.gp := rfl
@[simp] theorem Mach.onChan_sent (m : Mach) (c : Nat) (f : Chan → Chan) : (m.onChan c f).sent = m.sent := rfl

@[simp] theorem Mach.onSlot_part (m : Mach) (n : Nat) (f : SclSlot → SclSlot) : (m.onSlot n f).part = m.part := rfl
@[simp] theorem Mach.onSlot_regs (m : Mach) (n : Nat) (f : SclSlot → SclSlot) : (m.onSlot n f).regs = m.regs := rfl
@[simp] theorem Mach.onSlot_pend (m : Mach) (n : Nat) (f : SclSlot → SclSlot) : (m.onSlot n f).pend = m.pend := rfl
@[simp] theorem Mach.onSlot_latches (m : Mach) (n : Nat) (f : SclSlot → SclSlot) : (m.onSlot n f).latches = m.latches := rfl
@[simp] theorem Mach.onSlot_perReq (m : Mach) (n : Nat) (f : SclSlot → SclSlot) : (m.onSlot n f).perReq = m.perReq := rfl
@[simp] theorem Mach.onSlot_reply (m : Mach) (n : Nat) (f : SclSlot → SclSlot) : (m.onSlot n f).reply = m.reply := rfl
@[simp] theorem Mach.onSlot_fresh (m : Mach) (n : Nat) (f : SclSlot → SclSlot) : (m.onSlot n f).fresh = m.fresh := rfl
@[simp] theorem Mach.onSlot_clk (m : Mach) (n : Nat) (f : SclSlot → SclSlot) : (m.onSlot n f).clk = m.clk := rfl
@[simp] theorem Mach.onSlot_sheets (m : Mach) (n : Nat) (f : SclSlot → SclSlot) : (m.onSlot n f).sheets = m.sheets := rfl
@[simp] theorem Mach.onSlot_flt (m : Mach) (n : Nat) (f : SclSlot → SclSlot) : (m.onSlot n f).flt = m.flt := rfl
@[simp] theorem Mach.onSlot_snap (m : Mach) (n : Nat) (f : SclSlot → SclSlot) : (m.onSlot n f).snap = m.snap := rfl
@[simp] theorem Mach.onSlot_cox (m : Mach) (n : Nat) (f : SclSlot → SclSlot) : (m.onSlot n f).cox = m.cox := rfl
@[simp] theorem Mach.onSlot_fjl (m : Mach) (n : Nat) (f : SclSlot → SclSlot) : (m.onSlot n f).fjl = m.fjl := rfl
@[simp] theorem Mach.onSlot_sec (m : Mach) (n : Nat) (f : SclSlot → SclSlot) : (m.onSlot n f).sec = m.sec := rfl
@[simp] theorem Mach.onSlot_drv (m : Mach) (n : Nat) (f : SclSlot → SclSlot) : (m.onSlot n f).drv = m.drv := rfl
@[simp] theorem Mach.onSlot_mot (m : Mach) (n : Nat) (f : SclSlot → SclSlot) : (m.onSlot n f).mot = m.mot := rfl
@[simp] theorem Mach.onSlot_pwr (m : Mach) (n : Nat) (f : SclSlot → SclSlot) : (m.onSlot n f).pwr = m.pwr := rfl
@[simp] theorem Mach.onSlot_vid (m : Mach) (n : Nat) (f : SclSlot → SclSlot) : (m.onSlot n f).vid = m.vid := rfl
@[simp] theorem Mach.onSlot_fus (m : Mach) (n : Nat) (f : SclSlot → SclSlot) : (m.onSlot n f).fus = m.fus := rfl
@[simp] theorem Mach.onSlot_adc (m : Mach) (n : Nat) (f : SclSlot → SclSlot) : (m.onSlot n f).adc = m.adc := rfl
@[simp] theorem Mach.onSlot_hv (m : Mach) (n : Nat) (f : SclSlot → SclSlot) : (m.onSlot n f).hv = m.hv := rfl
@[simp] theorem Mach.onSlot_thm (m : Mach) (n : Nat) (f : SclSlot → SclSlot) : (m.onSlot n f).thm = m.thm := rfl
@[simp] theorem Mach.onSlot_shunt (m : Mach) (n : Nat) (f : SclSlot → SclSlot) : (m.onSlot n f).shunt = m.shunt := rfl
@[simp] theorem Mach.onSlot_enc (m : Mach) (n : Nat) (f : SclSlot → SclSlot) : (m.onSlot n f).enc = m.enc := rfl
@[simp] theorem Mach.onSlot_ssi (m : Mach) (n : Nat) (f : SclSlot → SclSlot) : (m.onSlot n f).ssi = m.ssi := rfl
@[simp] theorem Mach.onSlot_sns (m : Mach) (n : Nat) (f : SclSlot → SclSlot) : (m.onSlot n f).sns = m.sns := rfl
@[simp] theorem Mach.onSlot_heldEdges (m : Mach) (n : Nat) (f : SclSlot → SclSlot) : (m.onSlot n f).heldEdges = m.heldEdges := rfl
@[simp] theorem Mach.onSlot_axes (m : Mach) (n : Nat) (f : SclSlot → SclSlot) : (m.onSlot n f).axes = m.axes := rfl
@[simp] theorem Mach.onSlot_peat (m : Mach) (n : Nat) (f : SclSlot → SclSlot) : (m.onSlot n f).peat = m.peat := rfl
@[simp] theorem Mach.onSlot_mark (m : Mach) (n : Nat) (f : SclSlot → SclSlot) : (m.onSlot n f).mark = m.mark := rfl
@[simp] theorem Mach.onSlot_dram (m : Mach) (n : Nat) (f : SclSlot → SclSlot) : (m.onSlot n f).dram = m.dram := rfl
@[simp] theorem Mach.onSlot_hif (m : Mach) (n : Nat) (f : SclSlot → SclSlot) : (m.onSlot n f).hif = m.hif := rfl
@[simp] theorem Mach.onSlot_gp (m : Mach) (n : Nat) (f : SclSlot → SclSlot) : (m.onSlot n f).gp = m.gp := rfl
@[simp] theorem Mach.onSlot_sent (m : Mach) (n : Nat) (f : SclSlot → SclSlot) : (m.onSlot n f).sent = m.sent := rfl

end Sys2Proof.Machine
end

