-- ==== Sys2Proof/Laws/Tables.lean ====
section
/-! SUPPORT. Reads of a table after a write or a removal. -/

namespace Sys2Proof.Machine

variable {α : Type}

@[simp] theorem tget_nil (d : α) (k : Nat) : tget d k [] = d := rfl
@[simp] theorem tfind_nil (k : Nat) : tfind k ([] : Tab α) = none := rfl

/-- A read at the index of a write gives what was written, whatever the table was. -/
@[simp] theorem tget_tput_same (d v : α) (k : Nat) (t : Tab α) : tget d k (tput k v t) = v := by
  induction t with
  | nil => simp [tput, tget]
  | cons p t ih =>
    obtain ⟨i, a⟩ := p
    simp only [tput]
    split
    · simp [tget]
    · split
      · simp [tget]
      · simp only [tget]
        split
        · omega
        · exact ih

/-- A write leaves every other index alone. -/
theorem tget_tput_ne (d v : α) {j k : Nat} (h : j ≠ k) (t : Tab α) : tget d j (tput k v t) = tget d j t := by
  induction t with
  | nil => simp [tput, tget]; omega
  | cons p t ih =>
    obtain ⟨i, a⟩ := p
    simp only [tput]
    split
    · simp only [tget]; split
      · omega
      · rfl
    · split
      · subst_vars; simp only [tget]; split
        · omega
        · rfl
      · simp only [tget, ih]

/-- Both at once: what a read after a write gives. -/
theorem tget_tput (d v : α) (j k : Nat) (t : Tab α) : tget d j (tput k v t) = if j = k then v else tget d j t := by
  split
  · subst_vars; exact tget_tput_same ..
  · exact tget_tput_ne _ _ (by assumption) _

@[simp] theorem tfind_tput_same (v : α) (k : Nat) (t : Tab α) : tfind k (tput k v t) = some v := by
  induction t with
  | nil => simp [tput, tfind]
  | cons p t ih =>
    obtain ⟨i, a⟩ := p
    simp only [tput]
    split
    · simp [tfind]
    · split
      · simp [tfind]
      · simp only [tfind]
        split
        · omega
        · exact ih

theorem tfind_tput_ne (v : α) {j k : Nat} (h : j ≠ k) (t : Tab α) : tfind j (tput k v t) = tfind j t := by
  induction t with
  | nil => simp [tput, tfind]; omega
  | cons p t ih =>
    obtain ⟨i, a⟩ := p
    simp only [tput]
    split
    · simp only [tfind]; split
      · omega
      · rfl
    · split
      · subst_vars; simp only [tfind]; split
        · omega
        · rfl
      · simp only [tfind, ih]

theorem tfind_tput (v : α) (j k : Nat) (t : Tab α) : tfind j (tput k v t) = if j = k then some v else tfind j t := by
  split
  · subst_vars; exact tfind_tput_same ..
  · exact tfind_tput_ne _ (by assumption) _

/-- A removal leaves every other index alone. -/
theorem tget_tdel_ne (d : α) {j k : Nat} (h : j ≠ k) (t : Tab α) : tget d j (tdel k t) = tget d j t := by
  induction t with
  | nil => rfl
  | cons p t ih =>
    obtain ⟨i, a⟩ := p
    simp only [tdel]
    split
    · subst_vars; simp only [tget]; split
      · omega
      · rfl
    · simp only [tget, ih]

/-- The table's read and its search agree. -/
theorem tget_eq_tfind (d : α) (k : Nat) (t : Tab α) : tget d k t = (tfind k t).getD d := by
  induction t with
  | nil => rfl
  | cons p t ih =>
    obtain ⟨i, a⟩ := p
    simp only [tget, tfind]
    split <;> simp_all

/-- An index the table does not list reads as the default. -/
theorem tget_of_not_mem (d : α) {k : Nat} {t : Tab α} (h : k ∉ t.map (·.1)) : tget d k t = d := by
  induction t with
  | nil => rfl
  | cons p t ih =>
    simp only [List.map_cons, List.mem_cons, not_or] at h
    simp only [tget]
    split
    · exact absurd (by assumption : p.1 = k).symm h.1
    · exact ih h.2

/-- With no index listed twice, a removed index reads as the default. -/
theorem tget_tdel_same (d : α) (k : Nat) {t : Tab α} (h : (t.map (·.1)).Nodup) : tget d k (tdel k t) = d := by
  induction t with
  | nil => rfl
  | cons p t ih =>
    obtain ⟨i, a⟩ := p
    simp only [List.map_cons, List.nodup_cons] at h
    simp only [tdel]
    split
    · subst_vars; exact tget_of_not_mem _ h.1
    · simp only [tget]
      split
      · omega
      · exact ih h.2

/-- A filter that keeps an index does not change what it reads as. -/
theorem tget_filter_of_keep (d : α) (p : Nat × α → Bool) {k : Nat} (h : ∀ a, p (k, a) = true) (t : Tab α) :
    tget d k (t.filter p) = tget d k t := by
  induction t with
  | nil => rfl
  | cons x t ih =>
    obtain ⟨i, a⟩ := x
    simp only [List.filter_cons]
    split
    · simp only [tget, ih]
    · simp only [tget]
      split
      · subst_vars; simp_all
      · exact ih

/-- A filter that drops an index leaves its default. -/
theorem tget_filter_of_drop (d : α) (p : Nat × α → Bool) {k : Nat} (h : ∀ a, p (k, a) = false) (t : Tab α) :
    tget d k (t.filter p) = d := by
  induction t with
  | nil => rfl
  | cons x t ih =>
    obtain ⟨i, a⟩ := x
    simp only [List.filter_cons]
    split
    · simp only [tget]
      split
      · subst_vars; simp_all
      · exact ih
    · exact ih

end Sys2Proof.Machine
end

