-- ==== Sys2Proof/Laws/Fields.lean ====
section
/-! SUPPORT. Reads of register fields after a write of a field. -/

namespace Sys2Proof.Machine

/-! ## Words -/

@[simp] theorem Mach.word_setWord_same (m : Mach) (key : Nat) (w : Word) : (m.setWord key w).word key = w := by
  simp [Mach.word]

theorem Mach.word_setWord_ne (m : Mach) {key k : Nat} (h : k ≠ key) (w : Word) : (m.setWord key w).word k = m.word k := by
  simp [Mach.word, tfind_tput_ne _ h]

/-- A field of another register keeps its value. -/
theorem Mach.get_setWord_ne (m : Mach) {f : FRef} {key : Nat} (h : f.key ≠ key) (w : Word) :
    (m.setWord key w).get f = m.get f := by
  simp [Mach.get, Mach.word_setWord_ne _ h]

/-- A write of a field leaves the words of the other registers. -/
theorem Mach.word_set_ne (m : Mach) {f : FRef} {k : Nat} (h : k ≠ f.key) (v : Nat) : (m.set f v).word k = m.word k :=
  Mach.word_setWord_ne _ h _

/-- A write of a field leaves the fields of the other registers. -/
theorem Mach.get_set_ne (m : Mach) {f g : FRef} (h : g.key ≠ f.key) (v : Nat) : (m.set f v).get g = m.get g :=
  Mach.get_setWord_ne _ h _

theorem Mach.on_set_ne (m : Mach) {f g : FRef} (h : g.key ≠ f.key) (v : Nat) : (m.set f v).on g = m.on g := by
  simp [Mach.on, Mach.get_set_ne _ h]

/-! ## Bit fields -/

/-- The number of a word with a field replaced: the parts above, in and below the field. -/
theorem toNat_withBits (w : Word) {hi lo : Nat} (v : Nat) (h : hi < 32) (hl : lo ≤ hi) :
    (withBits w hi lo v).toNat =
      w.toNat / 2 ^ (hi + 1) * 2 ^ (hi + 1) + v % 2 ^ (hi + 1 - lo) * 2 ^ lo + w.toNat % 2 ^ lo := by
  have hp : 2 ^ (hi + 1 - lo) * 2 ^ lo = 2 ^ (hi + 1) := by rw [← Nat.pow_add]; congr 1; omega
  have h32 : 2 ^ (hi + 1) * 2 ^ (31 - hi) = 2 ^ 32 := by rw [← Nat.pow_add]; congr 1; omega
  have hv : v % 2 ^ (hi + 1 - lo) + 1 ≤ 2 ^ (hi + 1 - lo) := Nat.mod_lt _ (Nat.two_pow_pos _)
  have hw : w.toNat % 2 ^ lo < 2 ^ lo := Nat.mod_lt _ (Nat.two_pow_pos _)
  have hq : w.toNat / 2 ^ (hi + 1) + 1 ≤ 2 ^ (31 - hi) := by
    refine (Nat.div_lt_iff_lt_mul (Nat.two_pow_pos _)).2 ?_
    rw [Nat.mul_comm, h32]; exact w.isLt
  have e1 := Nat.mul_le_mul_right (2 ^ lo) hv
  have e2 := Nat.mul_le_mul_right (2 ^ (hi + 1)) hq
  rw [hp] at e1
  rw [Nat.mul_comm (2 ^ (31 - hi)), h32] at e2
  simp only [withBits, BitVec.toNat_ofNat]
  refine Nat.mod_eq_of_lt ?_
  rw [Nat.add_mul] at e1 e2
  omega

/-- A field reads as what was written to it, taken modulo its width. -/
theorem bitsOf_withBits_same (w : Word) {hi lo : Nat} (v : Nat) (h : hi < 32) (hl : lo ≤ hi) :
    bitsOf (withBits w hi lo v) hi lo = v % 2 ^ (hi + 1 - lo) := by
  have hp : 2 ^ (hi + 1) = 2 ^ lo * 2 ^ (hi + 1 - lo) := by rw [← Nat.pow_add]; congr 1; omega
  have hw : w.toNat % 2 ^ lo < 2 ^ lo := Nat.mod_lt _ (Nat.two_pow_pos _)
  rw [bitsOf, toNat_withBits w v h hl]
  have e : w.toNat / 2 ^ (hi + 1) * 2 ^ (hi + 1) + v % 2 ^ (hi + 1 - lo) * 2 ^ lo + w.toNat % 2 ^ lo
      = w.toNat % 2 ^ lo + 2 ^ lo * (v % 2 ^ (hi + 1 - lo) + 2 ^ (hi + 1 - lo) * (w.toNat / 2 ^ (hi + 1))) := by
    rw [hp]; ring
  rw [e, Nat.add_mul_div_left _ _ (Nat.two_pow_pos _), Nat.div_eq_of_lt hw, Nat.zero_add, Nat.add_mul_mod_self_left,
    Nat.mod_mod]

/-- A field below a written one keeps its value. -/
theorem bitsOf_withBits_below (w : Word) {hi lo h' l' : Nat} (v : Nat) (h : hi < 32) (hl : lo ≤ hi) (hd : h' < lo)
    (hl' : l' ≤ h') : bitsOf (withBits w hi lo v) h' l' = bitsOf w h' l' := by
  have hp : 2 ^ (hi + 1) = 2 ^ lo * 2 ^ (hi + 1 - lo) := by rw [← Nat.pow_add]; congr 1; omega
  have h1 : 2 ^ lo = 2 ^ (h' + 1) * 2 ^ (lo - (h' + 1)) := by rw [← Nat.pow_add]; congr 1; omega
  have low (n : Nat) : n / 2 ^ l' % 2 ^ (h' + 1 - l') = n % 2 ^ (h' + 1) / 2 ^ l' := by
    have : 2 ^ (h' + 1) = 2 ^ l' * 2 ^ (h' + 1 - l') := by rw [← Nat.pow_add]; congr 1; omega
    rw [this, Nat.mod_mul_right_div_self]
  rw [bitsOf, bitsOf, low, low, toNat_withBits w v h hl]
  congr 1
  have e : w.toNat / 2 ^ (hi + 1) * 2 ^ (hi + 1) + v % 2 ^ (hi + 1 - lo) * 2 ^ lo + w.toNat % 2 ^ lo
      = w.toNat % 2 ^ lo + 2 ^ (h' + 1) * (2 ^ (lo - (h' + 1)) *
          (v % 2 ^ (hi + 1 - lo) + 2 ^ (hi + 1 - lo) * (w.toNat / 2 ^ (hi + 1)))) := by
    rw [hp, h1]; ring
  rw [e, Nat.add_mul_mod_self_left, h1, Nat.mod_mul_right_mod]

/-- A field above a written one keeps its value. -/
theorem bitsOf_withBits_above (w : Word) {hi lo h' l' : Nat} (v : Nat) (h : hi < 32) (hl : lo ≤ hi) (hd : hi < l') :
    bitsOf (withBits w hi lo v) h' l' = bitsOf w h' l' := by
  have hp : 2 ^ (hi + 1 - lo) * 2 ^ lo = 2 ^ (hi + 1) := by rw [← Nat.pow_add]; congr 1; omega
  have hl2 : 2 ^ l' = 2 ^ (hi + 1) * 2 ^ (l' - (hi + 1)) := by rw [← Nat.pow_add]; congr 1; omega
  have hv : v % 2 ^ (hi + 1 - lo) + 1 ≤ 2 ^ (hi + 1 - lo) := Nat.mod_lt _ (Nat.two_pow_pos _)
  have hw : w.toNat % 2 ^ lo < 2 ^ lo := Nat.mod_lt _ (Nat.two_pow_pos _)
  have e1 := Nat.mul_le_mul_right (2 ^ lo) hv
  rw [hp, Nat.add_mul] at e1
  rw [bitsOf, bitsOf, toNat_withBits w v h hl, hl2, ← Nat.div_div_eq_div_mul, ← Nat.div_div_eq_div_mul]
  congr 2
  have e : w.toNat / 2 ^ (hi + 1) * 2 ^ (hi + 1) + v % 2 ^ (hi + 1 - lo) * 2 ^ lo + w.toNat % 2 ^ lo
      = v % 2 ^ (hi + 1 - lo) * 2 ^ lo + w.toNat % 2 ^ lo + 2 ^ (hi + 1) * (w.toNat / 2 ^ (hi + 1)) := by ring
  rw [e, Nat.add_mul_div_left _ _ (Nat.two_pow_pos _), Nat.div_eq_of_lt (by omega), Nat.zero_add]

/-! ## Fields -/

/-- A field reads as what was set, taken modulo its width. -/
theorem Mach.get_set_same (m : Mach) (f : FRef) (v : Nat) (h : f.hi < 32) (hl : f.lo ≤ f.hi) :
    (m.set f v).get f = v % 2 ^ (f.hi + 1 - f.lo) := by
  simp only [Mach.set, Mach.get, Mach.word_setWord_same]
  exact bitsOf_withBits_same _ _ h hl

/-- A field of the same register that does not overlap keeps its value. -/
theorem Mach.get_set_apart (m : Mach) {f g : FRef} (v : Nat) (h : f.hi < 32) (hl : f.lo ≤ f.hi) (gl : g.lo ≤ g.hi)
    (hd : g.hi < f.lo ∨ f.hi < g.lo) : (m.set f v).get g = m.get g := by
  by_cases hk : g.key = f.key
  · simp only [Mach.set, Mach.get, hk, Mach.word_setWord_same]
    rcases hd with hd | hd
    · exact bitsOf_withBits_below _ _ h hl hd gl
    · exact bitsOf_withBits_above _ _ h hl hd
  · exact Mach.get_set_ne _ hk _

/-- A bit set to 1 is on, one set to 0 is off. -/
theorem Mach.on_set_bit (m : Mach) (key b v : Nat) (h : b < 32) : (m.set ⟨key, b, b⟩ v).on ⟨key, b, b⟩ = decide (v % 2 = 1) := by
  have e : b + 1 - b = 1 := by omega
  rw [Mach.on, Mach.get_set_same m ⟨key, b, b⟩ v h (Nat.le_refl _)]
  simp only [e, Nat.pow_one]
  rcases Nat.mod_two_eq_zero_or_one v with h0 | h0 <;> simp [h0]

/-- Every field is below its width's bound. -/
theorem Mach.get_lt (m : Mach) (f : FRef) : m.get f < 2 ^ (f.hi + 1 - f.lo) := Nat.mod_lt _ (Nat.two_pow_pos _)

end Sys2Proof.Machine
end

