-- ==== Sys2Proof/Laws/Frames.lean ====
section
/-! SUPPORT. What event lines, ledger transitions and fault messages leave alone: one relation, closed under all that
they are built from. -/

namespace Sys2Proof.Machine

/-- The machine after differs from the one before at most in the ledger, the collector, snapshots, the cores, Scull's
triggers, Fjarilink's queues, drives, motion, the fuser, the job store and what has been sent, and in registers outside K; the record of the latest fault stands. -/
structure Calm (K : Nat → Prop) (m m' : Mach) : Prop where
  part : m'.part = m.part
  pend : m'.pend = m.pend
  latches : m'.latches = m.latches
  perReq : m'.perReq = m.perReq
  reply : m'.reply = m.reply
  fresh : m'.fresh = m.fresh
  clk : m'.clk = m.clk
  sec : m'.sec = m.sec
  pwr : m'.pwr = m.pwr
  vid : m'.vid = m.vid
  adc : m'.adc = m.adc
  hv : m'.hv = m.hv
  thm : m'.thm = m.thm
  shunt : m'.shunt = m.shunt
  enc : m'.enc = m.enc
  ssi : m'.ssi = m.ssi
  sns : m'.sns = m.sns
  heldEdges : m'.heldEdges = m.heldEdges
  axes : m'.axes = m.axes
  mark : m'.mark = m.mark
  dram : m'.dram = m.dram
  hif : m'.hif = m.hif
  gp : m'.gp = m.gp
  last : m'.flt.last = m.flt.last
  word : ∀ key, K key → m'.word key = m.word key

variable {K : Nat → Prop}

theorem Calm.refl (m : Mach) : Calm K m m := by constructor <;> simp

theorem Calm.trans {a b c : Mach} (h : Calm K a b) (g : Calm K b c) : Calm K a c where
  part := g.part.trans h.part
  pend := g.pend.trans h.pend
  latches := g.latches.trans h.latches
  perReq := g.perReq.trans h.perReq
  reply := g.reply.trans h.reply
  fresh := g.fresh.trans h.fresh
  clk := g.clk.trans h.clk
  sec := g.sec.trans h.sec
  pwr := g.pwr.trans h.pwr
  vid := g.vid.trans h.vid
  adc := g.adc.trans h.adc
  hv := g.hv.trans h.hv
  thm := g.thm.trans h.thm
  shunt := g.shunt.trans h.shunt
  enc := g.enc.trans h.enc
  ssi := g.ssi.trans h.ssi
  sns := g.sns.trans h.sns
  heldEdges := g.heldEdges.trans h.heldEdges
  axes := g.axes.trans h.axes
  mark := g.mark.trans h.mark
  dram := g.dram.trans h.dram
  hif := g.hif.trans h.hif
  gp := g.gp.trans h.gp
  last := g.last.trans h.last
  word key hk := (g.word key hk).trans (h.word key hk)

/-- A field of a register in K keeps its value. -/
theorem Calm.get {m m' : Mach} (h : Calm K m m') {f : FRef} (hf : K f.key) : m'.get f = m.get f := by
  simp [Mach.get, h.word _ hf]

theorem Calm.on {m m' : Mach} (h : Calm K m m') {f : FRef} (hf : K f.key) : m'.on f = m.on f := by
  simp [Mach.on, h.get hf]

/-- TICK stands still. -/
theorem Calm.now {m m' : Mach} (h : Calm K m m') : m'.now = m.now := by simp [Mach.now, h.clk]

theorem calm_foldl {α : Type} (f : Mach → α → Mach) (hf : ∀ m a, Calm K m (f m a)) (l : List α) :
    ∀ m, Calm K m (l.foldl f m) := by
  induction l with
  | nil => exact fun m => Calm.refl m
  | cons a l ih => exact fun m => (hf m a).trans (ih _)

theorem calm_each {α : Type} (f : α → Mach → Mach) (hf : ∀ a m, Calm K m (f a m)) (l : List α) (m : Mach) :
    Calm K m (each l f m) := calm_foldl (fun m a => f a m) (fun m a => hf a m) l m

theorem calm_when {c : Bool} {f : Mach → Mach} (hf : ∀ m, Calm K m (f m)) (m : Mach) : Calm K m (when c f m) := by
  simp only [when]; split
  · exact hf m
  · exact Calm.refl m

theorem calm_setWord {key : Nat} (hk : ¬K key) (w : Word) (m : Mach) : Calm K m (m.setWord key w) := by
  constructor <;> first | rfl | skip
  intro k h
  exact Mach.word_setWord_ne _ (fun e => hk (by rw [← e]; exact h)) _

theorem calm_set {f : FRef} (hk : ¬K f.key) (v : Nat) (m : Mach) : Calm K m (m.set f v) := calm_setWord hk _ m

/-! ## Events -/

theorem calm_evSet (i : Nat) (b : Word) (m : Mach) : Calm K m (m.evSet i b) := by constructor <;> intros <;> rfl

theorem calm_evSetCore (b c : Nat) (m : Mach) : Calm K m (evSetCore b c m) :=
  calm_foldl _ (fun _ _ => calm_evSet _ _ _) _ _

theorem calm_markTrig (ns : List Nat) (m : Mach) : Calm K m (markTrig ns m) := by constructor <;> intros <;> rfl

/-- An event line changes only pending bits of contexts and the triggers of Scull slots. -/
theorem assertEvent_eq (code : Nat) (m : Mach) : ∃ cox scl, assertEvent code m = { m with cox := cox, scl := scl } := by
  have one (b c : Nat) (m : Mach) : ∃ cox, evSetCore b c m = { m with cox := cox } := by
    simp only [evSetCore, List.range, List.range.loop, List.foldl, Mach.evSet, Mach.setCtx]
    exact ⟨_, rfl⟩
  have all (l : List (Nat × Nat)) : ∀ m : Mach, ∃ cox,
      l.foldl (fun m cj => evSetCore (8 + cj.2) cj.1 m) m = { m with cox := cox } := by
    induction l with
    | nil => exact fun m => ⟨m.cox, rfl⟩
    | cons p l ih =>
      intro m
      obtain ⟨c, hc⟩ := one (8 + p.2) p.1 m
      obtain ⟨c', hc'⟩ := ih { m with cox := c }
      exact ⟨c', by simpa [hc] using hc'⟩
  simp only [assertEvent]
  split
  · exact ⟨m.cox, m.scl, rfl⟩
  · obtain ⟨c, hc⟩ := all (evselHits m.regs code) m
    exact ⟨c, _, by rw [hc]; rfl⟩

theorem calm_assertEvent (code : Nat) (m : Mach) : Calm K m (assertEvent code m) := by
  obtain ⟨c, s, h⟩ := assertEvent_eq code m
  rw [h]; constructor <;> intros <;> rfl

@[simp] theorem assertEvent_regs (code : Nat) (m : Mach) : (assertEvent code m).regs = m.regs := by
  obtain ⟨c, s, h⟩ := assertEvent_eq code m; rw [h]
@[simp] theorem assertEvent_sheets (code : Nat) (m : Mach) : (assertEvent code m).sheets = m.sheets := by
  obtain ⟨c, s, h⟩ := assertEvent_eq code m; rw [h]
@[simp] theorem assertEvent_flt (code : Nat) (m : Mach) : (assertEvent code m).flt = m.flt := by
  obtain ⟨c, s, h⟩ := assertEvent_eq code m; rw [h]
@[simp] theorem assertEvent_fjl (code : Nat) (m : Mach) : (assertEvent code m).fjl = m.fjl := by
  obtain ⟨c, s, h⟩ := assertEvent_eq code m; rw [h]
@[simp] theorem assertEvent_sent (code : Nat) (m : Mach) : (assertEvent code m).sent = m.sent := by
  obtain ⟨c, s, h⟩ := assertEvent_eq code m; rw [h]
@[simp] theorem assertEvent_clk (code : Nat) (m : Mach) : (assertEvent code m).clk = m.clk := (calm_assertEvent (K := fun _ => True) code m).clk
@[simp] theorem assertEvent_pwr (code : Nat) (m : Mach) : (assertEvent code m).pwr = m.pwr := (calm_assertEvent (K := fun _ => True) code m).pwr
@[simp] theorem assertEvent_hif (code : Nat) (m : Mach) : (assertEvent code m).hif = m.hif := (calm_assertEvent (K := fun _ => True) code m).hif
@[simp] theorem assertEvent_peat (code : Nat) (m : Mach) : (assertEvent code m).peat = m.peat := by
  obtain ⟨c, s, h⟩ := assertEvent_eq code m; rw [h]
@[simp] theorem assertEvent_sec (code : Nat) (m : Mach) : (assertEvent code m).sec = m.sec := (calm_assertEvent (K := fun _ => True) code m).sec

/-! ## Messages out, snapshots, frames -/

/-- Registers that a note or a fault of class 1 to 3 may change: LOSTCNT, the MSI-X pending bits, SNAP_STAT, HSFSEQ. -/
def quietKey (key : Nat) : Prop := key ≠ 0x040008 ∧ key ≠ 0x09F000 ∧ key ≠ 0x09F004 ∧ key ≠ 0x060004 ∧ key ≠ 0x060018

theorem calm_send (x : Sent) (m : Mach) : Calm K m (m.send x) := by constructor <;> intros <;> rfl

theorem calm_msix (hK : ∀ k, K k → quietKey k) (v : Nat) (m : Mach) : Calm K m (m.msix v) := by
  simp only [Mach.msix]
  split
  · refine calm_setWord (fun h => ?_) _ m
    have h := hK _ h
    have : v % 64 / 32 = 0 ∨ v % 64 / 32 = 1 := by omega
    rcases this with e | e <;> simp [e, R.DMA_MSIXP_PBA, quietKey] at h
  · exact calm_send _ m

theorem calm_captureBegin (hK : ∀ k, K k → quietKey k) (b : Nat) (m : Mach) : Calm K m (captureBegin b m) := by
  have h : Calm K m (when m.snap.deferred (·.incSat R.SNAP_STAT_DEFER) m) :=
    calm_when (fun m => calm_set (fun h => by simpa [quietKey, R.SNAP_STAT_DEFER] using hK _ h) _ m) m
  refine h.trans ?_
  constructor <;> intros <;> rfl

theorem calm_snapTry (hK : ∀ k, K k → quietKey k) (m : Mach) : Calm K m (snapTry m) := by
  simp only [snapTry]
  split
  · split
    · exact calm_captureBegin hK _ m
    · constructor <;> intros <;> rfl
  · exact Calm.refl m

theorem calm_snapEvent (hK : ∀ k, K k → quietKey k) (k : SnapKind) (r : Nat) (m : Mach) : Calm K m (snapEvent k r m) := by
  simp only [snapEvent]
  split
  · split
    · constructor <;> intros <;> rfl
    · split
      · exact (calm_set (fun h => by simpa [quietKey, R.SNAP_STAT_HSFDROP] using hK _ h) _ _).trans
          (calm_set (fun h => by simpa [quietKey, R.SNAP_HSFSEQ] using hK _ h) _ _)
      · exact Calm.refl m
  · exact Calm.refl m

theorem calm_frameTx (p : Nat) (f : Frame) (m : Mach) : Calm K m (frameTx p f m) := by
  rw [frameTx]
  by_cases hp : p = 0 <;> simp only [hp, ↓reduceIte]
  all_goals
    split
    · constructor <;> intros <;> rfl
    · exact Calm.refl m

theorem calm_frameSend (f : Frame) (m : Mach) : Calm K m (frameSend f m) := by
  simp only [frameSend]
  split
  · exact (calm_frameTx ..).trans (calm_frameTx ..)
  · split
    · exact calm_frameTx ..
    · exact (calm_frameTx ..).trans (calm_frameTx ..)

/-! ## The ledger -/

theorem calm_setSheet (r : Nat) (sh : Sheet) (m : Mach) : Calm K m (m.setSheet r sh) := by constructor <;> intros <;> rfl

theorem calm_queueEvents (n : Nat) (m : Mach) : Calm K m (queueEvents n m) :=
  (calm_when (calm_assertEvent _) m).trans (calm_when (calm_assertEvent _) _)

theorem calm_countTerminal (st : SheetState) (m : Mach) : Calm K m (countTerminal st m) := by
  constructor <;> intros <;> rfl

/-- A transition to any state but DELIVERED is calm (a delivery also acts on the job store). -/
theorem calm_sheetTo (hK : ∀ k, K k → quietKey k) (r : Nat) (st : SheetState) (h : st ≠ .delivered) (m : Mach) :
    Calm K m (sheetTo r st m) := by
  have hd : (st == SheetState.delivered) = false := by simpa using h
  have hj (sh : Sheet) (x : Mach) : when (st == .delivered) (jsDelivered sh) x = x := by simp [when, hd]
  simp only [sheetTo, hj]
  refine Calm.trans ?_ (calm_queueEvents _ _)
  refine Calm.trans ?_ (calm_when (fun m => ((calm_assertEvent _ m).trans (calm_countTerminal _ _)).trans
    (calm_snapEvent hK _ _ _)) _)
  refine Calm.trans ?_ (calm_when (fun m => (calm_assertEvent _ m).trans (calm_snapEvent hK _ _ _)) _)
  refine Calm.trans ?_ (calm_when (fun m => calm_frameSend _ m) _)
  exact calm_setSheet r _ m

theorem calm_runOut (r : Nat) (s : Option Nat) (m : Mach) : Calm K m (runOut r s m) := calm_setSheet _ _ m

theorem calm_msgOnRecord (hK : ∀ k, K k → quietKey k) (g : Msg) (r : Nat) (m : Mach) : Calm K m (msgOnRecord g r m) := by
  have go (st : SheetState) (h : st ≠ .delivered) (m : Mach) : Calm K m (sheetTo r st m) := calm_sheetTo hK r st h m
  simp only [msgOnRecord]
  split
  · exact Calm.refl m
  · split
    · exact Calm.refl m
    · split
      · exact Calm.refl m
      · split
        · exact (go .ready (by decide) m).trans (calm_setSheet ..)
        · exact (calm_setSheet ..).trans (calm_runOut ..)
    · split
      · exact go .ready (by decide) m
      · exact Calm.refl m
    · split
      · exact go .ready (by decide) m
      · exact (calm_setSheet ..).trans (go .jammed (by decide) _)
    · split
      · exact go .ready (by decide) m
      · exact (calm_setSheet ..).trans (go .lost (by decide) _)

/-! ## The collector -/

theorem calm_captured (hK : ∀ k, K k → quietKey k) (g : Msg) (m : Mach) : Calm K m (captured g m) := by
  simp only [captured]
  refine Calm.trans ?_ (calm_when (fun m => calm_msix hK _ m) _)
  refine Calm.trans ?_ (calm_when (calm_assertEvent _) _)
  refine Calm.trans ?_ (calm_when (calm_assertEvent _) _)
  exact calm_assertEvent _ m

theorem calm_collect (hK : ∀ k, K k → quietKey k) (g : Msg) (m : Mach) : Calm K m (collect g m) := by
  have src (x : Mach) (s : Tab FltRec) : Calm K x { x with flt := { x.flt with srcs := s } } := by
    constructor <;> intros <;> rfl
  have both (x : Mach) (s : Tab FltRec) (r : List Nat) :
      Calm K x { x with flt := { x.flt with srcs := s, recent := r } } := by constructor <;> intros <;> rfl
  have cls (x : Mach) (s : Tab FltRec) : Calm K x { x with flt := { x.flt with clss := s } } := by
    constructor <;> intros <;> rfl
  simp only [collect]
  split
  · split
    · exact src m _
    · exact Calm.trans (both m _ _) (calm_captured hK _ _)
  · have h : Calm K m (assertEvent 0x043 (m.incSat R.FLT_LOSTCNT_LOST)) :=
      (calm_set (fun h => by simpa [quietKey, R.FLT_LOSTCNT_LOST] using hK _ h) _ m).trans (calm_assertEvent _ _)
    split
    · exact Calm.trans (h.trans (cls _ _)) (calm_captured hK _ _)
    · exact h

theorem calm_groupEffects (g : Msg) (o : Bool) (m : Mach) : Calm K m (groupEffects g o m) := by
  simp only [groupEffects]
  split
  · exact Calm.refl m
  · split
    · exact calm_frameSend ..
    · split
      · exact calm_frameSend ..
      · exact Calm.refl m

/-- Registers that a class 4 trip changes as well: the drives' states, the brake summary, HV_CTL and FUS_CTL. -/
def tripKey (key : Nat) : Prop := ¬(key / 65536 ∈ [0x1A, 0x1B, 0x1C]) ∧ key ≠ 0x1D0000 ∧ key ≠ 0x1E0000

theorem calm_classEffects (hK : ∀ k, K k → quietKey k) (g : Msg) (hc : g.cls ≠ 4) (m : Mach) :
    Calm K m (classEffects g m) := by
  simp only [classEffects]
  have h := calm_each (msgOnRecord g) (fun r m => calm_msgOnRecord hK g r m) (recsIn (·.engaged) m) m
  split
  · refine h.trans ?_
    constructor <;> intros <;> rfl
  · contradiction
  · exact h

/-- The machine with a message of class 2 or above as its latest fault. -/
def withLast (g : Msg) (m : Mach) : Mach :=
  when (2 ≤ g.cls) (fun m => { m with flt := { m.flt with last := g.toRec m false } }) m

theorem withLast_last (g : Msg) (m : Mach) (h : 2 ≤ g.cls) : (withLast g m).flt.last = g.toRec m false := by
  simp [withLast, when, h]

theorem withLast_of_note (g : Msg) (m : Mach) (h : g.cls < 2) : withLast g m = m := by
  simp [withLast, when]; omega

@[simp] theorem withLast_part (g : Msg) (m : Mach) : (withLast g m).part = m.part := by simp only [withLast, when]; split <;> rfl
@[simp] theorem withLast_regs (g : Msg) (m : Mach) : (withLast g m).regs = m.regs := by simp only [withLast, when]; split <;> rfl
@[simp] theorem withLast_pend (g : Msg) (m : Mach) : (withLast g m).pend = m.pend := by simp only [withLast, when]; split <;> rfl
@[simp] theorem withLast_latches (g : Msg) (m : Mach) : (withLast g m).latches = m.latches := by simp only [withLast, when]; split <;> rfl
@[simp] theorem withLast_perReq (g : Msg) (m : Mach) : (withLast g m).perReq = m.perReq := by simp only [withLast, when]; split <;> rfl
@[simp] theorem withLast_reply (g : Msg) (m : Mach) : (withLast g m).reply = m.reply := by simp only [withLast, when]; split <;> rfl
@[simp] theorem withLast_fresh (g : Msg) (m : Mach) : (withLast g m).fresh = m.fresh := by simp only [withLast, when]; split <;> rfl
@[simp] theorem withLast_clk (g : Msg) (m : Mach) : (withLast g m).clk = m.clk := by simp only [withLast, when]; split <;> rfl
@[simp] theorem withLast_sheets (g : Msg) (m : Mach) : (withLast g m).sheets = m.sheets := by simp only [withLast, when]; split <;> rfl
@[simp] theorem withLast_snap (g : Msg) (m : Mach) : (withLast g m).snap = m.snap := by simp only [withLast, when]; split <;> rfl
@[simp] theorem withLast_cox (g : Msg) (m : Mach) : (withLast g m).cox = m.cox := by simp only [withLast, when]; split <;> rfl
@[simp] theorem withLast_scl (g : Msg) (m : Mach) : (withLast g m).scl = m.scl := by simp only [withLast, when]; split <;> rfl
@[simp] theorem withLast_fjl (g : Msg) (m : Mach) : (withLast g m).fjl = m.fjl := by simp only [withLast, when]; split <;> rfl
@[simp] theorem withLast_sec (g : Msg) (m : Mach) : (withLast g m).sec = m.sec := by simp only [withLast, when]; split <;> rfl
@[simp] theorem withLast_drv (g : Msg) (m : Mach) : (withLast g m).drv = m.drv := by simp only [withLast, when]; split <;> rfl
@[simp] theorem withLast_mot (g : Msg) (m : Mach) : (withLast g m).mot = m.mot := by simp only [withLast, when]; split <;> rfl
@[simp] theorem withLast_pwr (g : Msg) (m : Mach) : (withLast g m).pwr = m.pwr := by simp only [withLast, when]; split <;> rfl
@[simp] theorem withLast_vid (g : Msg) (m : Mach) : (withLast g m).vid = m.vid := by simp only [withLast, when]; split <;> rfl
@[simp] theorem withLast_fus (g : Msg) (m : Mach) : (withLast g m).fus = m.fus := by simp only [withLast, when]; split <;> rfl
@[simp] theorem withLast_adc (g : Msg) (m : Mach) : (withLast g m).adc = m.adc := by simp only [withLast, when]; split <;> rfl
@[simp] theorem withLast_hv (g : Msg) (m : Mach) : (withLast g m).hv = m.hv := by simp only [withLast, when]; split <;> rfl
@[simp] theorem withLast_thm (g : Msg) (m : Mach) : (withLast g m).thm = m.thm := by simp only [withLast, when]; split <;> rfl
@[simp] theorem withLast_shunt (g : Msg) (m : Mach) : (withLast g m).shunt = m.shunt := by simp only [withLast, when]; split <;> rfl
@[simp] theorem withLast_enc (g : Msg) (m : Mach) : (withLast g m).enc = m.enc := by simp only [withLast, when]; split <;> rfl
@[simp] theorem withLast_ssi (g : Msg) (m : Mach) : (withLast g m).ssi = m.ssi := by simp only [withLast, when]; split <;> rfl
@[simp] theorem withLast_sns (g : Msg) (m : Mach) : (withLast g m).sns = m.sns := by simp only [withLast, when]; split <;> rfl
@[simp] theorem withLast_heldEdges (g : Msg) (m : Mach) : (withLast g m).heldEdges = m.heldEdges := by simp only [withLast, when]; split <;> rfl
@[simp] theorem withLast_axes (g : Msg) (m : Mach) : (withLast g m).axes = m.axes := by simp only [withLast, when]; split <;> rfl
@[simp] theorem withLast_peat (g : Msg) (m : Mach) : (withLast g m).peat = m.peat := by simp only [withLast, when]; split <;> rfl
@[simp] theorem withLast_mark (g : Msg) (m : Mach) : (withLast g m).mark = m.mark := by simp only [withLast, when]; split <;> rfl
@[simp] theorem withLast_dram (g : Msg) (m : Mach) : (withLast g m).dram = m.dram := by simp only [withLast, when]; split <;> rfl
@[simp] theorem withLast_hif (g : Msg) (m : Mach) : (withLast g m).hif = m.hif := by simp only [withLast, when]; split <;> rfl
@[simp] theorem withLast_gp (g : Msg) (m : Mach) : (withLast g m).gp = m.gp := by simp only [withLast, when]; split <;> rfl
@[simp] theorem withLast_sent (g : Msg) (m : Mach) : (withLast g m).sent = m.sent := by simp only [withLast, when]; split <;> rfl

/-- The collector and the class effects of a message of class 0 to 3 change nothing that Calm keeps, but for the record
of the latest fault. -/
theorem calm_deliverNow (hK : ∀ k, K k → quietKey k) (g : Msg) (hc : g.cls ≠ 4) (m : Mach) :
    Calm K (withLast g m) (deliverNow g m) := by
  simp only [deliverNow]
  refine Calm.trans ?_ (calm_groupEffects ..)
  refine Calm.trans ?_ (calm_classEffects hK g hc _)
  exact calm_collect hK g _

/-- With no edge held there is nothing to settle. -/
@[simp] theorem settleEdges_of_none (h : m.heldEdges = []) : settleEdges m = m := by simp [settleEdges, h]

/-- The same of the whole message: a note settles no edge, and another message none when none is held. -/
theorem calm_deliver (hK : ∀ k, K k → quietKey k) (g : Msg) (hc : g.cls ≠ 4) (m : Mach)
    (he : g.cls = 0 ∨ m.heldEdges = []) : Calm K (withLast g m) (deliver g m) := by
  have h := calm_deliverNow hK g hc m
  refine h.trans ?_
  have h4 : (g.cls == 4) = false := by simpa using hc
  simp only [deliver]
  refine Calm.trans ?_ (calm_snapTry hK _)
  simp only [when, h4, Bool.false_eq_true, if_false]
  split
  · rename_i hp
    have he : (deliverNow g m).heldEdges = [] := by
      rw [h.heldEdges, withLast_heldEdges]; exact he.resolve_left (by simpa [Nat.pos_iff_ne_zero] using hp)
    rw [settleEdges_of_none he]; exact Calm.refl _
  · exact Calm.refl _

/-- What every note leaves alone. -/
theorem calm_note (src kind param : Nat) (m : Mach) : Calm quietKey m (note src kind param m) := by
  have h := calm_deliver (fun _ h => h) { src := src, kind := kind, cls := 0, param := BitVec.ofNat 40 param }
    (by simp) m (.inl rfl)
  rwa [withLast_of_note _ _ (Nat.zero_lt_succ _)] at h

/-- What every fault of class 0 to 3 leaves alone. -/
theorem calm_raise (src kind cls : Nat) (m : Mach) (sid : Sid) (param : Nat) (h : cls ≠ 4)
    (he : cls = 0 ∨ m.heldEdges = []) : Calm quietKey (withLast { src := src, kind := kind, cls := cls, sid := sid, param := BitVec.ofNat 40 param } m)
      (raise src kind cls m sid param) := calm_deliver (fun _ h => h) _ h m he

/-- A note touches no sheet record. -/
@[simp] theorem note_sheets (src kind param : Nat) (m : Mach) : (note src kind param m).sheets = m.sheets := by
  have hm (r : Nat) (g : Msg) (m : Mach) (h : g.cls = 0) : msgOnRecord g r m = m := by
    simp only [msgOnRecord, h]; split <;> rfl
  have he (l : List Nat) (g : Msg) (h : g.cls = 0) : ∀ m, each l (msgOnRecord g) m = m := by
    induction l with
    | nil => exact fun _ => rfl
    | cons a l ih => exact fun m => by simpa [each, hm a g m h] using ih m
  have hs (m : Mach) : (snapTry m).sheets = m.sheets := by
    simp only [snapTry]; split
    · split
      · simp only [captureBegin, when]; split <;> rfl
      · rfl
    · rfl
  have hc (g : Msg) (m : Mach) : (captured g m).sheets = m.sheets := by
    simp only [captured, when, Mach.msix]
    repeat' split
    all_goals simp
  have hk (g : Msg) (m : Mach) : (collect g m).sheets = m.sheets := by
    simp only [collect]
    repeat' split
    all_goals simp [hc]
  simp only [note, raise, deliver, deliverNow, hs, groupEffects, classEffects, he, when]
  repeat' split
  all_goals first | contradiction | simp_all

end Sys2Proof.Machine
end

