-- ==== Sys2Proof/Laws/Memory.lean ====
section
/-! SUPPORT. The memories: what reads after writes give, and that every operation on them keeps the canonical form. -/

namespace Sys2Proof.Machine

variable {d : Nat → Byte}

/-! ## Cells -/

/-- The canonical form, said of the list as a whole: addresses rise, and no cell holds its default. -/
theorem cellsWf_iff (l : List Host.Cell) :
    cellsWf d l = true ↔ l.Pairwise (fun a b => a.1 < b.1) ∧ ∀ c ∈ l, c.2 ≠ d c.1 := by
  induction l with
  | nil => simp [cellsWf]
  | cons x t ih =>
    obtain ⟨a, b⟩ := x
    cases t with
    | nil => simp [cellsWf]
    | cons y t =>
      obtain ⟨a', b'⟩ := y
      simp only [cellsWf, Bool.and_eq_true, decide_eq_true_eq, bne_iff_ne, ih, List.pairwise_cons, List.mem_cons,
        forall_eq_or_imp]
      constructor
      · rintro ⟨⟨h1, h2⟩, ⟨h3, h4⟩, h5, h6⟩
        exact ⟨⟨⟨h1, fun c hc => Nat.lt_trans h1 (h3 c hc)⟩, h3, h4⟩, h2, h5, h6⟩
      · rintro ⟨⟨⟨h1, _⟩, h3, h4⟩, h2, h5, h6⟩
        exact ⟨⟨h1, h2⟩, ⟨h3, h4⟩, h5, h6⟩

/-- The cells of a table after a write: the written one, and older ones at other addresses. -/
theorem mem_tput {α : Type} {k : Nat} {v : α} {t : Tab α} {c : Nat × α} (h : c ∈ tput k v t) : c = (k, v) ∨ c ∈ t := by
  induction t with
  | nil => simpa [tput] using h
  | cons p t ih =>
    obtain ⟨i, a⟩ := p
    simp only [tput] at h
    split at h
    · simpa using h
    · split at h
      · rcases List.mem_cons.1 h with h | h <;> simp [h]
      · rcases List.mem_cons.1 h with h | h
        · simp [h]
        · rcases ih h with h | h <;> simp [h]

theorem mem_tdel {α : Type} {k : Nat} {t : Tab α} {c : Nat × α} (h : c ∈ tdel k t) : c ∈ t := by
  induction t with
  | nil => simp [tdel] at h
  | cons p t ih =>
    obtain ⟨i, a⟩ := p
    simp only [tdel] at h
    split at h
    · exact List.mem_cons_of_mem _ h
    · rcases List.mem_cons.1 h with h | h
      · simp [h]
      · exact List.mem_cons_of_mem _ (ih h)

/-- Writes and removals keep a table's indices rising. -/
theorem rising_tput {α : Type} {k : Nat} {v : α} {t : Tab α} (h : t.Pairwise (fun a b => a.1 < b.1)) :
    (tput k v t).Pairwise (fun a b => a.1 < b.1) := by
  induction t with
  | nil => simp [tput]
  | cons p t ih =>
    obtain ⟨i, a⟩ := p
    obtain ⟨h1, h2⟩ := List.pairwise_cons.1 h
    simp only [tput]
    split
    · rename_i hk
      refine List.pairwise_cons.2 ⟨fun c hc => ?_, h⟩
      rcases List.mem_cons.1 hc with hc | hc
      · simpa [hc] using hk
      · exact Nat.lt_trans hk (h1 c hc)
    · split
      · subst_vars; exact List.pairwise_cons.2 ⟨h1, h2⟩
      · refine List.pairwise_cons.2 ⟨fun c hc => ?_, ih h2⟩
        rcases mem_tput hc with hc | hc
        · simp only [hc]; omega
        · exact h1 c hc

theorem rising_tdel {α : Type} {k : Nat} {t : Tab α} (h : t.Pairwise (fun a b => a.1 < b.1)) :
    (tdel k t).Pairwise (fun a b => a.1 < b.1) := by
  induction t with
  | nil => simp [tdel]
  | cons p t ih =>
    obtain ⟨h1, h2⟩ := List.pairwise_cons.1 h
    simp only [tdel]
    split
    · exact h2
    · exact List.pairwise_cons.2 ⟨fun c hc => h1 c (mem_tdel hc), ih h2⟩

/-- Rising indices list none twice. -/
theorem nodup_of_rising {α : Type} {t : Tab α} (h : t.Pairwise (fun a b => a.1 < b.1)) : (t.map (·.1)).Nodup := by
  refine (List.pairwise_map.2 ?_)
  exact h.imp fun h => Nat.ne_of_lt h

/-- A write keeps the canonical form. -/
theorem cellsWf_cellPut (a : Nat) (b : Byte) {l : List Host.Cell} (h : cellsWf d l = true) :
    cellsWf d (cellPut d a b l) = true := by
  rw [cellsWf_iff] at h ⊢
  simp only [cellPut]
  split
  · exact ⟨rising_tdel h.1, fun c hc => h.2 c (mem_tdel hc)⟩
  · refine ⟨rising_tput h.1, fun c hc => ?_⟩
    rcases mem_tput hc with hc | hc
    · subst hc; assumption
    · exact h.2 c hc

/-- So does the clearing of a range. -/
theorem cellsWf_cellsClear (lo hi : Nat) {l : List Host.Cell} (h : cellsWf d l = true) :
    cellsWf d (cellsClear lo hi l) = true := by
  rw [cellsWf_iff] at h ⊢
  exact ⟨h.1.filter _, fun c hc => h.2 c (List.mem_filter.1 hc).1⟩

/-- In a canonical list a read after a write gives the byte written, and every other address reads as before. -/
theorem cellGet_cellPut (a x : Nat) (b : Byte) {l : List Host.Cell} (h : cellsWf d l = true) :
    cellGet d x (cellPut d a b l) = if x = a then b else cellGet d x l := by
  have hn := nodup_of_rising ((cellsWf_iff l).1 h).1
  simp only [cellGet, cellPut]
  split
  · split
    · subst_vars; exact tget_tdel_same _ _ hn
    · exact tget_tdel_ne _ (by assumption) _
  · exact tget_tput _ _ _ _ _

/-- Whatever the list was, an address that is not written reads as before. -/
theorem cellGet_cellPut_ne {a x : Nat} (hx : x ≠ a) (b : Byte) (l : List Host.Cell) :
    cellGet d x (cellPut d a b l) = cellGet d x l := by
  simp only [cellGet, cellPut]
  split
  · exact tget_tdel_ne _ hx _
  · exact tget_tput_ne _ _ hx _

/-- A cleared address reads as its default, the others as before. -/
theorem cellGet_cellsClear (lo hi x : Nat) (l : List Host.Cell) :
    cellGet d x (cellsClear lo hi l) = if lo ≤ x ∧ x < hi then d x else cellGet d x l := by
  simp only [cellGet, cellsClear]
  split
  · exact tget_filter_of_drop _ _ (fun _ => by simp; omega) _
  · exact tget_filter_of_keep _ _ (fun _ => by simp; omega) _

/-! ## The three memories -/

theorem wf_iff (m : Mem) : Memory.wf m = true ↔
    cellsWf Config.ramFill m.ram = true ∧ cellsWf Config.hostFill m.host = true ∧ cellsWf Config.flashFill m.flash = true := by
  simp [Memory.wf, and_assoc]

@[simp] theorem wf_wr (m : Mem) (a : Nat) (b : Byte) (h : Memory.wf m = true) : Memory.wf (m.wr a b) = true := by
  rw [wf_iff] at *; exact ⟨cellsWf_cellPut _ _ h.1, h.2⟩

@[simp] theorem wf_hostWr (m : Mem) (a : Nat) (b : Byte) (h : Memory.wf m = true) : Memory.wf (m.hostWr a b) = true := by
  rw [wf_iff] at *; exact ⟨h.1, cellsWf_cellPut _ _ h.2.1, h.2.2⟩

@[simp] theorem wf_flashWr (m : Mem) (a : Nat) (b : Byte) (h : Memory.wf m = true) : Memory.wf (m.flashWr a b) = true := by
  rw [wf_iff] at *; exact ⟨h.1, h.2.1, cellsWf_cellPut _ _ h.2.2⟩

@[simp] theorem wf_wrBytes (bs : List Byte) : ∀ (m : Mem) (a : Nat), Memory.wf m = true → Memory.wf (m.wrBytes a bs) = true := by
  induction bs with
  | nil => exact fun _ _ h => h
  | cons b bs ih => exact fun m a h => ih _ _ (wf_wr m a b h)

@[simp] theorem wf_hostWrBytes (bs : List Byte) :
    ∀ (m : Mem) (a : Nat), Memory.wf m = true → Memory.wf (m.hostWrBytes a bs) = true := by
  induction bs with
  | nil => exact fun _ _ h => h
  | cons b bs ih => exact fun m a h => ih _ _ (wf_hostWr m a b h)

@[simp] theorem wf_flashWrBytes (bs : List Byte) :
    ∀ (m : Mem) (a : Nat), Memory.wf m = true → Memory.wf (m.flashWrBytes a bs) = true := by
  induction bs with
  | nil => exact fun _ _ h => h
  | cons b bs ih => exact fun m a h => ih _ _ (wf_flashWr m a b h)

@[simp] theorem wf_wrWord (m : Mem) (a : Nat) (w : Word) (h : Memory.wf m = true) : Memory.wf (m.wrWord a w) = true :=
  wf_wrBytes _ _ _ h

/-- Clearing a range of the internal map, or of the flash, keeps the form. -/
theorem wf_clearRam (m : Mem) (lo hi : Nat) (h : Memory.wf m = true) :
    Memory.wf { m with ram := cellsClear lo hi m.ram } = true := by
  rw [wf_iff] at *; exact ⟨cellsWf_cellsClear _ _ h.1, h.2⟩

theorem wf_clearFlash (m : Mem) (lo hi : Nat) (h : Memory.wf m = true) :
    Memory.wf { m with flash := cellsClear lo hi m.flash } = true := by
  rw [wf_iff] at *; exact ⟨h.1, h.2.1, cellsWf_cellsClear _ _ h.2.2⟩

/-- A byte written reads back; every other byte of the internal map reads as before. -/
theorem rd_wr (m : Mem) (a x : Nat) (b : Byte) (h : Memory.wf m = true) : (m.wr a b).rd x = if x = a then b else m.rd x :=
  cellGet_cellPut _ _ _ ((wf_iff m).1 h).1

theorem rd_wr_ne (m : Mem) {a x : Nat} (h : x ≠ a) (b : Byte) : (m.wr a b).rd x = m.rd x := cellGet_cellPut_ne h _ _

/-- Bytes outside a written run read as before. -/
theorem rd_wrBytes_out (bs : List Byte) :
    ∀ (m : Mem) (a x : Nat), x < a ∨ a + bs.length ≤ x → (m.wrBytes a bs).rd x = m.rd x := by
  induction bs with
  | nil => exact fun _ _ _ _ => rfl
  | cons b bs ih =>
    intro m a x hx
    simp only [List.length_cons] at hx
    rw [Mem.wrBytes, ih _ _ _ (by omega), rd_wr_ne _ (by omega)]

/-- Bytes of a written run read as written. -/
theorem rd_wrBytes_in (bs : List Byte) : ∀ (m : Mem) (a i : Nat), Memory.wf m = true → (h : i < bs.length) →
    (m.wrBytes a bs).rd (a + i) = bs[i] := by
  induction bs with
  | nil => exact fun _ _ _ _ h => absurd h (Nat.not_lt_zero _)
  | cons b bs ih =>
    intro m a i hw h
    cases i with
    | zero => simp only [Mem.wrBytes, Nat.add_zero, List.getElem_cons_zero]
              rw [rd_wrBytes_out _ _ _ _ (by omega), rd_wr _ _ _ _ hw, if_pos rfl]
    | succ i =>
      have := ih (m.wr a b) (a + 1) i (wf_wr _ _ _ hw) (by simpa using h)
      simpa [Mem.wrBytes, Nat.add_assoc, Nat.add_comm 1 i] using this

/-- Writes of one memory leave the other two alone. -/
@[simp] theorem wrBytes_host (bs : List Byte) : ∀ (m : Mem) (a : Nat), (m.wrBytes a bs).host = m.host := by
  induction bs with
  | nil => exact fun _ _ => rfl
  | cons b bs ih => exact fun m a => ih _ _

@[simp] theorem wrBytes_flash (bs : List Byte) : ∀ (m : Mem) (a : Nat), (m.wrBytes a bs).flash = m.flash := by
  induction bs with
  | nil => exact fun _ _ => rfl
  | cons b bs ih => exact fun m a => ih _ _

@[simp] theorem hostWrBytes_ram (bs : List Byte) : ∀ (m : Mem) (a : Nat), (m.hostWrBytes a bs).ram = m.ram := by
  induction bs with
  | nil => exact fun _ _ => rfl
  | cons b bs ih => exact fun m a => ih _ _

@[simp] theorem flashWrBytes_ram (bs : List Byte) : ∀ (m : Mem) (a : Nat), (m.flashWrBytes a bs).ram = m.ram := by
  induction bs with
  | nil => exact fun _ _ => rfl
  | cons b bs ih => exact fun m a => ih _ _

end Sys2Proof.Machine
end

