-- ==== Sys2Proof/Laws/Commands.lean ====
section
/-! SUPPORT. What the forms that every meaning takes can answer; a guarded register write that its rights let through; and
an instruction of a context that is fetching. -/

namespace Sys2Proof.Machine

variable {ok : Bool} {s t : State}

/-! ## The forms of a meaning -/

/-- Every command completes: on a unit of the part it acts, on another it changes nothing. -/
theorem onUnit_next {f : Mach → Mach} : onUnit ok f s = .next t ↔ t = if ok then s.onMach f else s := by
  simp [onUnit, eq_comm]

theorem onUnitM_next {f : Mach → Mem → Mach × Mem} : onUnitM ok f s = .next t ↔
    t = if ok then { s with mach := (f s.mach s.mem).1, mem := (f s.mach s.mem).2 } else s := by simp [onUnitM, eq_comm]

theorem onUnitR_next {f : Mem → Mach → Mach} : onUnitR ok f s = .next t ↔ t = if ok then s.onMach (f s.mem) else s :=
  onUnit_next

theorem onUnitS_next {f : Mach → Mach} : onUnitS ok f s = .next t ↔ t = if ok then settle (s.onMach f) else s := by
  simp [onUnitS, eq_comm]

theorem onUnitSM_next {f : Mach → Mem → Mach × Mem} : onUnitSM ok f s = .next t ↔
    t = if ok then settle { s with mach := (f s.mach s.mem).1, mem := (f s.mach s.mem).2 } else s := by
  simp [onUnitSM, eq_comm]

theorem onUnitSR_next {f : Mem → Mach → Mach} : onUnitSR ok f s = .next t ↔
    t = if ok then settle (s.onMach (f s.mem)) else s := onUnitS_next

/-- Without a restart due, what follows a command changes nothing. -/
theorem settle_of_no_restart (h : s.mach.pwr.restart = false) : settle s = s := by simp [settle, h]

/-- A restart leaves the queue alone. -/
@[simp] theorem settle_pending (s : State) : (settle s).pending = s.pending := by simp only [settle]; split <;> rfl

/-- A command that touches no memory leaves all three as they are. -/
theorem onUnit_mem {f : Mach → Mach} (h : onUnit ok f s = .next t) : t.mem = s.mem := by
  obtain rfl := onUnit_next.1 h; split <;> rfl

/-! ## Register writes -/

/-- A write that rights, domain and part let through is the register's own write. -/
theorem guarded_of_lets {q : Requester} {staged : Bool} {key : Nat} (f : Mach → Mach) (h : s.lets q staged key) :
    guarded q staged key f s.mach = f s.mach := by simp [guarded, h.1, h.2.1, h.2.2]

/-! ## Instructions -/

variable {core k : Nat} {m m' : Mach} {f : Ctx → Mach → Eff}

/-- The context at the PC of which an instruction starts: RUNNING, not being halted, its fetch allowed. -/
def Starts (core k : Nat) (m : Mach) : Prop :=
  (m.ctx (cix core k)).state = .running ∧ (m.ctx (cix core k)).halting = false ∧
    fetchStop core k (m.ctx (cix core k)).pc.toNat m = none

theorem State.fetching.starts (h : s.fetching core k) : Starts core k s.mach := h.2

/-- An instruction that starts, whose effect is done: the core is then given to the context that the priorities
name. -/
theorem meper_done (h : Starts core k m) (hf : f (m.ctx (cix core k)) (m.modCtx (cix core k) Ctx.retire) = .done m') :
    meper core k f m = resched core m' := by
  obtain ⟨h1, h2, h3⟩ := h
  simp [meper, Ctx.runs, h1, h2, h3, hf]

theorem meper_jump {pc : Word} (h : Starts core k m)
    (hf : f (m.ctx (cix core k)) (m.modCtx (cix core k) Ctx.retire) = .jump m' pc) :
    meper core k f m = resched core (m'.modCtx (cix core k) fun x => { x with pc := pc }) := by
  obtain ⟨h1, h2, h3⟩ := h
  simp [meper, Ctx.runs, h1, h3, hf]

theorem meper_wait {w : Wait} (h : Starts core k m)
    (hf : f (m.ctx (cix core k)) (m.modCtx (cix core k) Ctx.retire) = .wait w) :
    meper core k f m = resched core (m.modCtx (cix core k) fun x => { x with state := .waiting, wait := w }) := by
  obtain ⟨h1, h2, h3⟩ := h
  simp [meper, Ctx.runs, h1, h3, hf]

/-- A fetch that is not allowed parks the context at the address fetched. -/
theorem meper_fetch_stop {cause : Park} (hr : (m.ctx (cix core k)).runs = true)
    (hs : fetchStop core k (m.ctx (cix core k)).pc.toNat m = some cause) :
    meper core k f m = parkCtx core k cause (m.ctx (cix core k)).pc.toNat m := by
  simp [meper, hr, hs]

/-- A context that has nothing to go on with executes nothing. -/
theorem meper_not_running (h : (m.ctx (cix core k)).runs = false) : meper core k f m = m := by
  simp [meper, h]

/-- The context after one change of it. -/
@[simp] theorem ctx_modCtx_same (m : Mach) (i : Nat) (f : Ctx → Ctx) : (m.modCtx i f).ctx i = f (m.ctx i) := by
  simp [Mach.ctx]

theorem ctx_modCtx_ne (m : Mach) {i j : Nat} (h : j ≠ i) (f : Ctx → Ctx) : (m.modCtx i f).ctx j = m.ctx j := by
  simp [Mach.ctx, tget_tput_ne _ _ h]

end Sys2Proof.Machine
end

