-- ==== Sys2Proof/Laws/Outputs.lean ====
section
/-! SUPPORT. What a request to the DRAM controller and a change of a drive's gates leave alone, field by field. -/

namespace Sys2Proof.Machine

variable (m : Mach)

/-! ## A request to the DRAM controller changes its queues alone. -/

@[simp] theorem dramAsk_part (v h : Bool) (a n : Nat) : (dramAsk v h a n m).part = m.part := rfl
@[simp] theorem dramAsk_regs (v h : Bool) (a n : Nat) : (dramAsk v h a n m).regs = m.regs := rfl
@[simp] theorem dramAsk_pend (v h : Bool) (a n : Nat) : (dramAsk v h a n m).pend = m.pend := rfl
@[simp] theorem dramAsk_latches (v h : Bool) (a n : Nat) : (dramAsk v h a n m).latches = m.latches := rfl
@[simp] theorem dramAsk_perReq (v h : Bool) (a n : Nat) : (dramAsk v h a n m).perReq = m.perReq := rfl
@[simp] theorem dramAsk_reply (v h : Bool) (a n : Nat) : (dramAsk v h a n m).reply = m.reply := rfl
@[simp] theorem dramAsk_fresh (v h : Bool) (a n : Nat) : (dramAsk v h a n m).fresh = m.fresh := rfl
@[simp] theorem dramAsk_clk (v h : Bool) (a n : Nat) : (dramAsk v h a n m).clk = m.clk := rfl
@[simp] theorem dramAsk_sheets (v h : Bool) (a n : Nat) : (dramAsk v h a n m).sheets = m.sheets := rfl
@[simp] theorem dramAsk_flt (v h : Bool) (a n : Nat) : (dramAsk v h a n m).flt = m.flt := rfl
@[simp] theorem dramAsk_snap (v h : Bool) (a n : Nat) : (dramAsk v h a n m).snap = m.snap := rfl
@[simp] theorem dramAsk_cox (v h : Bool) (a n : Nat) : (dramAsk v h a n m).cox = m.cox := rfl
@[simp] theorem dramAsk_scl (v h : Bool) (a n : Nat) : (dramAsk v h a n m).scl = m.scl := rfl
@[simp] theorem dramAsk_fjl (v h : Bool) (a n : Nat) : (dramAsk v h a n m).fjl = m.fjl := rfl
@[simp] theorem dramAsk_sec (v h : Bool) (a n : Nat) : (dramAsk v h a n m).sec = m.sec := rfl
@[simp] theorem dramAsk_drv (v h : Bool) (a n : Nat) : (dramAsk v h a n m).drv = m.drv := rfl
@[simp] theorem dramAsk_mot (v h : Bool) (a n : Nat) : (dramAsk v h a n m).mot = m.mot := rfl
@[simp] theorem dramAsk_pwr (v h : Bool) (a n : Nat) : (dramAsk v h a n m).pwr = m.pwr := rfl
@[simp] theorem dramAsk_vid (v h : Bool) (a n : Nat) : (dramAsk v h a n m).vid = m.vid := rfl
@[simp] theorem dramAsk_fus (v h : Bool) (a n : Nat) : (dramAsk v h a n m).fus = m.fus := rfl
@[simp] theorem dramAsk_adc (v h : Bool) (a n : Nat) : (dramAsk v h a n m).adc = m.adc := rfl
@[simp] theorem dramAsk_hv (v h : Bool) (a n : Nat) : (dramAsk v h a n m).hv = m.hv := rfl
@[simp] theorem dramAsk_thm (v h : Bool) (a n : Nat) : (dramAsk v h a n m).thm = m.thm := rfl
@[simp] theorem dramAsk_shunt (v h : Bool) (a n : Nat) : (dramAsk v h a n m).shunt = m.shunt := rfl
@[simp] theorem dramAsk_enc (v h : Bool) (a n : Nat) : (dramAsk v h a n m).enc = m.enc := rfl
@[simp] theorem dramAsk_ssi (v h : Bool) (a n : Nat) : (dramAsk v h a n m).ssi = m.ssi := rfl
@[simp] theorem dramAsk_sns (v h : Bool) (a n : Nat) : (dramAsk v h a n m).sns = m.sns := rfl
@[simp] theorem dramAsk_heldEdges (v h : Bool) (a n : Nat) : (dramAsk v h a n m).heldEdges = m.heldEdges := rfl
@[simp] theorem dramAsk_axes (v h : Bool) (a n : Nat) : (dramAsk v h a n m).axes = m.axes := rfl
@[simp] theorem dramAsk_peat (v h : Bool) (a n : Nat) : (dramAsk v h a n m).peat = m.peat := rfl
@[simp] theorem dramAsk_mark (v h : Bool) (a n : Nat) : (dramAsk v h a n m).mark = m.mark := rfl
@[simp] theorem dramAsk_hif (v h : Bool) (a n : Nat) : (dramAsk v h a n m).hif = m.hif := rfl
@[simp] theorem dramAsk_gp (v h : Bool) (a n : Nat) : (dramAsk v h a n m).gp = m.gp := rfl
@[simp] theorem dramAsk_sent (v h : Bool) (a n : Nat) : (dramAsk v h a n m).sent = m.sent := rfl

/-- Both channels take their own part of the request at the end of their queues; open rows and refresh stay. -/
theorem dramAsk_dram (v h : Bool) (a n : Nat) : (dramAsk v h a n m).dram = { m.dram with
    ch0 := { m.dram.ch0 with queue := m.dram.ch0.queue ++ dramNew m v h a n 0 }
    ch1 := { m.dram.ch1 with queue := m.dram.ch1.queue ++ dramNew m v h a n 1 } } := rfl

/-! ## A change of a drive's gates changes the gates of that drive alone. -/

@[simp] theorem driveGates_part (d per dt : Nat) (b : Bool) (l : List LegMode) :
    (driveGates d per dt b l m).part = m.part := rfl
@[simp] theorem driveGates_regs (d per dt : Nat) (b : Bool) (l : List LegMode) :
    (driveGates d per dt b l m).regs = m.regs := rfl
@[simp] theorem driveGates_pend (d per dt : Nat) (b : Bool) (l : List LegMode) :
    (driveGates d per dt b l m).pend = m.pend := rfl
@[simp] theorem driveGates_latches (d per dt : Nat) (b : Bool) (l : List LegMode) :
    (driveGates d per dt b l m).latches = m.latches := rfl
@[simp] theorem driveGates_perReq (d per dt : Nat) (b : Bool) (l : List LegMode) :
    (driveGates d per dt b l m).perReq = m.perReq := rfl
@[simp] theorem driveGates_reply (d per dt : Nat) (b : Bool) (l : List LegMode) :
    (driveGates d per dt b l m).reply = m.reply := rfl
@[simp] theorem driveGates_fresh (d per dt : Nat) (b : Bool) (l : List LegMode) :
    (driveGates d per dt b l m).fresh = m.fresh := rfl
@[simp] theorem driveGates_clk (d per dt : Nat) (b : Bool) (l : List LegMode) :
    (driveGates d per dt b l m).clk = m.clk := rfl
@[simp] theorem driveGates_sheets (d per dt : Nat) (b : Bool) (l : List LegMode) :
    (driveGates d per dt b l m).sheets = m.sheets := rfl
@[simp] theorem driveGates_flt (d per dt : Nat) (b : Bool) (l : List LegMode) :
    (driveGates d per dt b l m).flt = m.flt := rfl
@[simp] theorem driveGates_snap (d per dt : Nat) (b : Bool) (l : List LegMode) :
    (driveGates d per dt b l m).snap = m.snap := rfl
@[simp] theorem driveGates_cox (d per dt : Nat) (b : Bool) (l : List LegMode) :
    (driveGates d per dt b l m).cox = m.cox := rfl
@[simp] theorem driveGates_scl (d per dt : Nat) (b : Bool) (l : List LegMode) :
    (driveGates d per dt b l m).scl = m.scl := rfl
@[simp] theorem driveGates_fjl (d per dt : Nat) (b : Bool) (l : List LegMode) :
    (driveGates d per dt b l m).fjl = m.fjl := rfl
@[simp] theorem driveGates_sec (d per dt : Nat) (b : Bool) (l : List LegMode) :
    (driveGates d per dt b l m).sec = m.sec := rfl
@[simp] theorem driveGates_mot (d per dt : Nat) (b : Bool) (l : List LegMode) :
    (driveGates d per dt b l m).mot = m.mot := rfl
@[simp] theorem driveGates_pwr (d per dt : Nat) (b : Bool) (l : List LegMode) :
    (driveGates d per dt b l m).pwr = m.pwr := rfl
@[simp] theorem driveGates_vid (d per dt : Nat) (b : Bool) (l : List LegMode) :
    (driveGates d per dt b l m).vid = m.vid := rfl
@[simp] theorem driveGates_fus (d per dt : Nat) (b : Bool) (l : List LegMode) :
    (driveGates d per dt b l m).fus = m.fus := rfl
@[simp] theorem driveGates_adc (d per dt : Nat) (b : Bool) (l : List LegMode) :
    (driveGates d per dt b l m).adc = m.adc := rfl
@[simp] theorem driveGates_hv (d per dt : Nat) (b : Bool) (l : List LegMode) :
    (driveGates d per dt b l m).hv = m.hv := rfl
@[simp] theorem driveGates_thm (d per dt : Nat) (b : Bool) (l : List LegMode) :
    (driveGates d per dt b l m).thm = m.thm := rfl
@[simp] theorem driveGates_shunt (d per dt : Nat) (b : Bool) (l : List LegMode) :
    (driveGates d per dt b l m).shunt = m.shunt := rfl
@[simp] theorem driveGates_enc (d per dt : Nat) (b : Bool) (l : List LegMode) :
    (driveGates d per dt b l m).enc = m.enc := rfl
@[simp] theorem driveGates_ssi (d per dt : Nat) (b : Bool) (l : List LegMode) :
    (driveGates d per dt b l m).ssi = m.ssi := rfl
@[simp] theorem driveGates_sns (d per dt : Nat) (b : Bool) (l : List LegMode) :
    (driveGates d per dt b l m).sns = m.sns := rfl
@[simp] theorem driveGates_heldEdges (d per dt : Nat) (b : Bool) (l : List LegMode) :
    (driveGates d per dt b l m).heldEdges = m.heldEdges := rfl
@[simp] theorem driveGates_axes (d per dt : Nat) (b : Bool) (l : List LegMode) :
    (driveGates d per dt b l m).axes = m.axes := rfl
@[simp] theorem driveGates_peat (d per dt : Nat) (b : Bool) (l : List LegMode) :
    (driveGates d per dt b l m).peat = m.peat := rfl
@[simp] theorem driveGates_mark (d per dt : Nat) (b : Bool) (l : List LegMode) :
    (driveGates d per dt b l m).mark = m.mark := rfl
@[simp] theorem driveGates_dram (d per dt : Nat) (b : Bool) (l : List LegMode) :
    (driveGates d per dt b l m).dram = m.dram := rfl
@[simp] theorem driveGates_hif (d per dt : Nat) (b : Bool) (l : List LegMode) :
    (driveGates d per dt b l m).hif = m.hif := rfl
@[simp] theorem driveGates_gp (d per dt : Nat) (b : Bool) (l : List LegMode) :
    (driveGates d per dt b l m).gp = m.gp := rfl
@[simp] theorem driveGates_sent (d per dt : Nat) (b : Bool) (l : List LegMode) :
    (driveGates d per dt b l m).sent = m.sent := rfl

@[simp] theorem driveGates_poly (d per dt : Nat) (b : Bool) (l : List LegMode) :
    (driveGates d per dt b l m).drv.poly = m.drv.poly := rfl
@[simp] theorem driveGates_srv (d per dt : Nat) (b : Bool) (l : List LegMode) :
    (driveGates d per dt b l m).drv.srv = m.drv.srv := rfl
@[simp] theorem driveGates_stp (d per dt : Nat) (b : Bool) (l : List LegMode) :
    (driveGates d per dt b l m).drv.stp = m.drv.stp := rfl

end Sys2Proof.Machine
end

