-- ==== Sys2Proof/Tests/Slice0.lean ====
section
/-! SUPPORT. Tests: ill-formed commands, instruction words of the spec, single steps, and a witness for the hypotheses
of every statement that has some. -/

namespace Sys2Proof.Tests

set_option Elab.async false

open Sys2Proof Sys2Proof.Machine

/-! ## Small states -/

/-- The state after reset with a change to the machine. -/
def at_ (f : Mach → Mach) : State := State.reset.onMach f

/-- Register fields at these values. -/
def regs (l : List (FRef × Nat)) (m : Mach) : Mach := l.foldl (fun m p => m.set p.1 p.2) m

/-- The state after reset with these register fields at these values. -/
def reg (l : List (FRef × Nat)) : State := at_ (regs l)

/-- Context 0 of the supervisor as a requester. -/
def sup : Requester := .ctx 8 0

/-- All domains of power up. -/
def powered : FRef × Nat := (R.PWR_DOMSTAT_UP, 0xFFF)

/-- TICK at a value. -/
def tickAt (n : Nat) (m : Mach) : Mach := { m with clk := { m.clk with tick := BitVec.ofNat 64 n } }

/-- The supervisor's context 0, running with g1 and g2 at these values. -/
def withG (a b : Nat) (m : Mach) : Mach :=
  m.modCtx 32 fun c => (c.setG 1 (BitVec.ofNat 32 a)).setG 2 (BitVec.ofNat 32 b)

/-- What a command leaves, as a check on the machine and one on the memories. -/
def after (c : Instr) (s : State) (p : State → Bool) : Bool :=
  match exec c s with
  | .next t => p t
  | _ => false

/-! ## Ill-formed commands change nothing -/

theorem test_wf_context : wellFormed (.reserve 9 0 0) = false ∧ wellFormed (.reserve 0 4 0) = false := by decide
theorem test_wf_record : wellFormed (.reserve 0 0 256) = false := by decide
theorem test_wf_register : wellFormed (.add 0 0 32 0 0) = false ∧ wellFormed (.slli 0 0 1 1 32) = false := by decide
theorem test_wf_requester : wellFormed (.swev (.dma 24) 0 0) = false := by decide
theorem test_wf_offset : wellFormed (.registerWrite .host 0x1000000 4 0) = false ∧
    wellFormed (.registerWrite .host 0 3 0) = false := by decide
theorem test_wf_adc : wellFormed (.adcConversion (.ain 64) 0) = false ∧ wellFormed (.adcConversion (.die 9) 0) = false ∧
    wellFormed (.adcConversion (.shunt 54) 0) = false := by decide
theorem test_wf_frame : wellFormed (.userFrame 0 ⟨4, false, false, 0, 0, 0, 0, 0, []⟩ true) = false ∧
    wellFormed (.userFrame 2 ⟨0, false, false, 0, 0, 0, 0, 0, []⟩ true) = false := by decide
theorem test_wf_station : wellFormed (.strokeStart 5) = false ∧ wellFormed (.bandDeadline 0 0 1024) = false := by decide
theorem test_wf_core : wellFormed (.coxEnable 8 0) = false ∧ wellFormed (.comparatorFire 8 16) = false ∧
    wellFormed (.comparatorFire 0 32) = false := by decide
theorem test_wf_operation : wellFormed (.sluOpUndefined 0 0 3 0) = false ∧ wellFormed (.jsopUndefined .host 5 0) = false := by
  decide
theorem test_wf_link : wellFormed (.pcieLinkChange true 4 1) = false ∧ wellFormed (.pcieLinkChange true 1 3) = false := by
  decide
/-- No such context: nothing changes. -/
theorem test_ill_formed_changes_nothing : exec (.reserve 9 0 0) State.reset = .next State.reset := rfl

/-! ## Instruction words (R109, Tables 4.1 to 4.4; the words of the programs that the spec prints) -/

theorem test_word_ldh : decodeMeper 5 0 0 .error 0x40070049 = some (.ldh 0 0 1 0x4007) := by decide
theorem test_word_stg : decodeMeper 5 0 0 .error 0x006008B8 = some (.stg 0 0 2 1 0x60) := by decide
theorem test_word_cmt : decodeMeper 5 0 0 .error 0x000001F9 = some (.cmt 0 0 7 0 0 0 0 false) := by decide
theorem test_word_waite : decodeMeper 5 0 0 .error 0x00003231 = some (.waite 0 0 8 6) := by decide
theorem test_word_mulhu : decodeMeper 5 0 0 .error 0x026C5B81 = some (.mulhu 0 0 14 11 12) := by decide
theorem test_word_srli : decodeMeper 5 0 0 .error 0x80D06BC1 = some (.srli 0 0 15 13 16) := by decide
theorem test_word_nop : decodeMeper 5 0 0 .error 0x00000002 = some (.addi 0 0 0 0 0) := by decide
theorem test_word_zero_undefined : undefinedWord 5 0 = true := by decide
theorem test_words_encode : encodeMeper (.mulhu 0 0 14 11 12) = some 0x026C5B81 ∧
    encodeMeper (.ldh 0 0 1 0x4007) = some 0x40070049 := by decide

/-! ## Single steps -/

/-- The signed saturating sum (Table 4.3). -/
theorem test_adds_saturates : after (.adds 8 0 3 1 2) (at_ (withG 0x7FFFFFFF 1))
    (fun t => (t.ctxOf 8 0).g 3 == 0x7FFFFFFF && (t.ctxOf 8 0).pc == 4) = true := by
  decide +kernel
/-- g0 reads as 0 and discards writes (R108). -/
theorem test_g0_discards : after (.add 8 0 0 1 2) (at_ (withG 5 6)) (fun t => (t.ctxOf 8 0).g 0 == 0) = true := by
  decide +kernel
/-- The wake value and the clearing of EVPEND (R122). -/
theorem test_waite_takes_events : after (.waite 8 0 3 1) (at_ fun m => (withG 6 0 m).evSet 32 0xC)
    (fun t => (t.ctxOf 8 0).g 3 == 4 && (t.ctxOf 8 0).evpend == 8) = true := by decide +kernel
/-- A SID not later than LASTSID is refused with SIDORDER (Table 1.8). -/
theorem test_create_order : after (.sluCreate 8 0 5) (reg [(R.SLU_LASTSID_SID, 5)])
    (fun t => t.opres 8 0 == (0x11, 0, 0)) = true := by decide +kernel
/-- The Meper and Scull words that chapter 7's hand-over example prints. -/
theorem test_micro_words : microOf 0x44012100 = some (.mac 2 1 0x42) ∧ microOf 0xB4000001 = some (.pre 2 1) := by
  decide +kernel
/-- The phase advance of chapter 10's example: 24 + 8 x 0.4291, truncated. -/
theorem test_advance : advanceOf (regs [(R.POLY_ADVSTEP_STEP 2, 4000), (R.POLY_SPEED 2, 283465),
    (⟨(R.POLY_ADV_ADV0 2 1).key, 15, 0⟩, 0x2018)] {}) 2 = 27 := by decide +kernel
/-- The check value that chapter 5 gives for the CRC. -/
theorem test_crc32c : crc32c [0x31, 0x32, 0x33, 0x34, 0x35, 0x36, 0x37, 0x38, 0x39] = 0xE3069283 := by decide +kernel
/-- A fixed-code block with the one literal 'a' (RFC 1951). -/
theorem test_inflate : inflate [0x4B, 0x04, 0x00] 1 = ([0x61], true) := by decide +kernel
/-- The digest of "abc" in FIPS 180-4. -/
theorem test_sha256 : (sha256 [0x61, 0x62, 0x63]).take 4 = [0xBA, 0x78, 0x16, 0xBF] := by decide +kernel
/-- Class 4 turns HV and fuser enables off and loses a caught sheet (R365). -/
theorem test_class_four : after (.faultMessage 0x051 2 4 0 0)
    (at_ fun m => (regs [(R.HV_CTL_EN, 1), (R.FUS_CTL_EN, 1)] m).setSheet 3 { state := .caught })
    (fun t => (t.mach.sheet 3).state == .lost && !t.mach.on R.HV_CTL_EN && !t.mach.on R.FUS_CTL_EN) = true := by
  decide +kernel
/-- A committed write of LINES and WIDTH in a QUEUED record (R21). -/
theorem test_record_write : after (.sheetRecordWrite 8 0 255 2 0x00020040) (at_ fun m => m.setSheet 255 { state := .queued })
    (fun t => (t.mach.sheet 255).lines == 64 && (t.mach.sheet 255).width == 2 && t.mach.flt.srcs == []) = true := by
  decide +kernel
/-- A read of a record's word 0x34, whose reset value is 0x1FFF (Table 1.1). -/
theorem test_record_read : after (.readClear sup (recKey 255 13)) State.reset
    (fun t => tget 0 (Requester.id sup) t.mach.reply == 0x1FFF && t.mach.flt.srcs == []) = true := by decide +kernel

/-! ## Witnesses for the hypotheses of the statements -/

/-- Context 0 of Cox core 0, running, with g1 and g2 at these values. -/
def coxRun (a b : Nat) (m : Mach) : Mach :=
  (regs [powered] m).modCtx 0 fun c =>
    { (c.setG 1 (BitVec.ofNat 32 a)).setG 2 (BitVec.ofNat 32 b) with state := .running, pc := 0x2F000000 }

/-- A write gets past its rights, its domain and the part. -/
def letsB (s : State) (q : Requester) (staged : Bool) (key : Nat) : Bool :=
  mayWrite q staged key && regUp key s.mach && regExists key s.mach

theorem lets_of (s : State) (q : Requester) (staged : Bool) (key : Nat) (h : letsB s q staged key = true) :
    s.lets q staged key := by
  simpa [letsB, State.lets, and_assoc] using h

theorem witness_StepRunsFront : (State.reset.withPending [.reset]).pending = .reset :: [] ∧ State.reset.pending = [] :=
  ⟨rfl, rfl⟩
theorem witness_ResetState : okCtx 8 0 = true ∧ okCtx 0 3 = true := by decide
theorem witness_StepKeepsMemory : State.reset.memOk ∧ ∃ t, step (State.reset.withPending [.zcEdge]) = .next t :=
  ⟨rfl, _, rfl⟩
theorem witness_CommandsComplete : wellFormed (.strokeStart 5) = false ∧ wellFormed (.strokeStart 4) = true ∧
    State.reset.mach.part = .pe5480 ∧ ∃ t, exec .zcEdge State.reset = .next t := ⟨rfl, rfl, rfl, _, rfl⟩
theorem witness_MeperEncoding : encodeMeper (.add 0 0 31 31 31) = some 0x001FFFC1 ∧ wellFormed (.add 0 0 31 31 31) = true ∧
    encodable 5 (.add 0 0 31 31 31) = true ∧ decodeMeper 5 8 3 .error 0x001FFFC1 = some (.add 8 3 31 31 31) := by decide
theorem witness_AluResults : State.reset.fetching 8 0 ∧ (at_ (coxRun 0 0)).fetching 0 0 := by
  unfold State.fetching; decide +kernel
theorem witness_AluBounded : State.reset.fetching 8 0 ∧ (at_ (coxRun 0 0)).fetching 0 0 := witness_AluResults
theorem witness_ImmediatesAndBranches : State.reset.fetching 8 0 ∧ (at_ (coxRun 0 0)).fetching 0 0 := witness_AluResults
theorem witness_CsrResults : State.reset.fetching 8 0 ∧ csrKind 0x010 ≠ none ∧ csrKind 0x003 = some true :=
  ⟨witness_AluResults.1, by decide +kernel, by decide +kernel⟩
/-- The supervisor loads from and stores to its own memory. -/
theorem witness_LoadResults : (at_ (withG 0x1003FFFC 0)).fetching 8 0 ∧
    accessStop 8 0 false false (realAddr 8 0x1003FFFC) 4 ((at_ (withG 0x1003FFFC 0)).fetched 8 0) = none ∧
    (match dataRead 8 0 (realAddr 8 0x1003FFFC) 4 .error {} ((at_ (withG 0x1003FFFC 0)).fetched 8 0) with
      | .val v _ => v = 0 | _ => False) := ⟨by unfold State.fetching; decide +kernel, by decide +kernel, rfl⟩
theorem witness_StoreResults : (at_ (withG 0x1003FFFC 0)).fetching 8 0 ∧
    accessStop 8 0 true false (realAddr 8 0x1003FFFC) 4 ((at_ (withG 0x1003FFFC 0)).fetched 8 0) = none ∧
    (match dataWrite 8 0 (realAddr 8 0x1003FFFC) 4 7 .error ((at_ (withG 0x1003FFFC 0)).fetched 8 0) {} with
      | .ok _ mem => mem.rd 0x1003FFFC == 7 | _ => false) = true :=
  ⟨by unfold State.fetching; decide +kernel, by decide +kernel, by decide +kernel⟩
theorem witness_OwnDtcmAccess : let s := at_ (coxRun 0x2F01FFFC 9)
    s.fetching 0 0 ∧ domUp 2 s.mach = true ∧ s.mach.pwr.restart = false ∧ s.memOk ∧
      (s.ctxOf 0 0).g 1 + BitVec.ofInt 32 (0 : BitVec 16).toInt = BitVec.ofNat 32 (0x2F010000 + 0xFFFC) ∧
      (s.ctxOf 0 0).g 1 = BitVec.ofNat 32 (0x2F010000 + 0xFFFC) ∧ (s.ctxOf 0 0).farhi = 0 := by
  unfold State.fetching State.memOk; decide +kernel
theorem witness_WaitsAndControl : State.reset.fetching 8 0 ∧ waittOk State.reset.mach.nStn 2 0 0 = true ∧
    waittOk State.reset.mach.nStn 0 3 4 = true := ⟨witness_AluResults.1, by decide +kernel, by decide +kernel⟩
theorem witness_WakesEndWaits :
    let waits (w : Wait) : State := at_ (·.modCtx 32 fun c => { c with state := .waiting, wait := w, evpend := 1 })
    ((waits (.timebase 0 0 0 1)).ctxOf 8 0).wait = .timebase 0 0 0 1 ∧
      baseReached 0 0 0 (waits (.timebase 0 0 0 1)).mach = true ∧
      ((waits (.events 1 1)).ctxOf 8 0).wait = .events 1 1 ∧ ((waits (.events 1 1)).ctxOf 8 0).evpend &&& 1 ≠ 0 ∧
      ((waits (.sleep 0)).ctxOf 8 0).wait = .sleep 0 := by decide +kernel
theorem witness_StagingAndFaultInstructions :
    let s := { at_ (withG 0x10000020 0) with mem := Mem.wrWord {} 0x10000024 1 }
    let m := s.fetched 8 0
    let w := armBlock s.mem (realAddr 8 0x10000020)
    let d := at_ fun m => (withG 15 0 m).setCmp (8 * 32 + 15) { armed := true }
    let full := at_ fun m => (withG 0x40FFFFFC 0 m).modCtx 32 fun c =>
      { c with stage := List.replicate 31 (0, 0), slot := some { boundary := .now, lateOk := false, entries := [], seq := 0, sealedAt := 0 } }
    s.fetching 8 0 ∧ ownData 8 (placeOf m (realAddr 8 0x10000020)) = true ∧
      regionBad 8 0 1 (realAddr 8 0x10000020) 32 m = false ∧ armValid m w = true ∧ bitsOf (w 0) 8 6 ≠ 5 ∧ 0 < cmpCount 8 ∧
      (m.cmp (8 * 32 + 0)).armed = false ∧
      baseReached (bitsOf (w 0) 1 0) (bitsOf (w 0) 4 2) (armCmp 0 w (m.cmp (8 * 32 + 0))).tgt m = false ∧
      d.fetching 8 0 ∧ 15 < cmpCount 8 ∧ ((d.fetched 8 0).cmp (8 * 32 + 15)).armed = true ∧
      ((d.fetched 8 0).cmp (8 * 32 + 15)).ctx = 0 ∧ ¬16 < cmpCount 8 ∧
      full.fetching 8 0 ∧ blockAssigned (0xFFFFFC / 65536) = false ∧ mayWrite (.ctx 8 0) true R.SLU_OP.key = true ∧
      regionBad 8 0 2 (0xFFFFFC + 0x40000000) 4 (full.fetched 8 0) = false ∧ (full.ctxOf 8 0).stage.length < 32 ∧
      cmtBoundary (full.ctxOf 8 0) (full.fetched 8 0) 0 0 0 0 false = some .now ∧ (full.ctxOf 8 0).slot ≠ none ∧
      (d.ctxOf 8 0).slot = none := by
  unfold State.fetching; decide +kernel
/-- A ring of 16 slots in shared SRAM, with its fields set further. -/
def ring (l : List (FRef × Nat)) : State :=
  at_ fun m => withG 0x10000000 0 (regs ([powered, (R.RING_CFG_LOG2N 31, 4), (R.RING_BASE_LO_BASE 31, 0x30500000)] ++ l) m)
theorem witness_RingInstructions :
    let m (l : List (FRef × Nat)) : Mach := (ring l).fetched 8 0
    let en := (R.RING_CFG_EN 31, 1)
    (ring []).fetching 8 0 ∧ ringOperand 8 0 false 0x10000000 (m []) = none ∧ ringOperand 8 0 true 0x10000000 (m []) = none ∧
      noAnswer 8 (placeOf (m []) (realAddr 8 0x10000000)) .error = false ∧ (m []).on (R.RING_CFG_EN 31) = false ∧
      (m [en]).on (R.RING_CFG_EN 31) = true ∧ (m [en, (R.RING_CFG_PSIDE 31, 1)]).get (R.RING_CFG_PSIDE 31) ≠ 0 ∧
      (m [en, (R.RING_CFG_CSIDE 31, 1)]).get (R.RING_CFG_CSIDE 31) ≠ 0 ∧ (m [en]).get (R.RING_CFG_PSIDE 31) = 0 ∧
      (m [en]).get (R.RING_CFG_CSIDE 31) = 0 ∧
      ringSize (m [en, (R.RING_PIDX 31, 16)]) 31 ≤ ringCount (m [en, (R.RING_PIDX 31, 16)]) 31 ∧
      ringCount (m [en]) 31 = 0 ∧ ringCount (m [en, (R.RING_PIDX 31, 15)]) 31 < ringSize (m [en, (R.RING_PIDX 31, 15)]) 31 ∧
      slotHeld 31 ((m [en]).get (R.RING_PIDX 31)) (m [en]) = false ∧
      (ringPut 31 0 (Mem.rdBytes {} 0x10000000 32) (m [en]) {}).1 = true ∧
      slotHeld 31 ((m [en]).get (R.RING_CIDX 31)) (m [en]) = false ∧
      ringSlot (m [en]) 31 ((m [en]).get (R.RING_PIDX 31)) = 0x30500000 ∧ placeOf (m [en]) 0x30500000 = .shared ∧
      slotStop 8 0x30500000 (.data .clean) (m [en]) = none ∧ (slotAns 0x30500000 (.data .clean) (m [en])).1 = false ∧
      ringCount (m [en, (R.RING_PIDX 31, 1)]) 31 ≠ 0 ∧
      (ringTake 31 0 {} (m [en, (R.RING_PIDX 31, 1)])).1.isSome = true := by
  unfold State.fetching; decide +kernel
theorem witness_UndefinedWordParks : State.reset.fetching 8 0 ∧ undefinedWord State.reset.mach.nStn 0x3F = true :=
  ⟨witness_AluResults.1, by decide +kernel⟩

/-- Records of the ledger, with register fields set. -/
def ledger (l : List (FRef × Nat)) (rs : Tab Sheet) (t : Nat := 0) : State :=
  at_ fun m => tickAt t { regs (powered :: l) m with sheets := rs }

/-- A sheet of one band on station 0 that catches at 1 s. -/
def sheetA : Sheet :=
  { sid := 1, state := .ready, planes := 1, lines := 64, width := 2, res := [1, 0, 0, 0, 0], catchT := 100000000 }

/-- Enough of the registers for sheetA to be reserved and admitted. -/
def openGates : List (FRef × Nat) :=
  [(R.ENV_GUARD 6, 0xFFFF), (R.SLU_SPD_LINETK 0, 2646), (R.SLU_CTL_EN, 1), (R.SLU_RSV_SPDOK, 1), (R.SLU_RSV_FUSOK, 1),
   (R.SLU_RSV_HVOK, 1), (R.CLK_SYN_STAT_LOCK 2, 1), (R.VID_PLOCK_LOCK 0, 1), (R.SLU_WATCH_CFG_EN 0, 1),
   (R.SLU_WATCH_CFG_FUSE 0, 1), (R.SLU_WATCH_CFG_TERM 0, 1)]

theorem witness_LedgerQueueOps :
    let s (x : Sheet) := ledger openGates [(255, x)]
    letsB State.reset sup true R.SLU_CREATE_SID.key = true ∧ letsB State.reset sup true R.SLU_OP.key = true ∧
      sidLater 0x7FFFFE (BitVec.ofNat 24 (State.reset.mach.get R.SLU_LASTSID_SID)) = true ∧
      freeRec State.reset.mach = some 0 ∧ reserveCode (s { sheetA with state := .queued }).mach { sheetA with state := .queued } = 0 ∧
      reserveCode (s sheetA).mach sheetA ≠ 0 ∧ ((s sheetA).mach.sheet 255).state = .ready ∧
      ((s { state := .withdrawn }).mach.sheet 255).state.terminal = true := by decide +kernel
theorem witness_LedgerAdmission :
    let s (x : Sheet) := ledger openGates [(255, x)]
    letsB (s sheetA) sup true R.SLU_OP.key = true ∧ admitCode (s sheetA).mach sheetA = 0 ∧
      admitCode (s {}).mach {} ≠ 0 ∧ pastLock { sheetA with state := .admitted } (s sheetA).mach = false ∧
      pastLock { sheetA with state := .admitted, catchT := 0 } (s sheetA).mach = true ∧ (s sheetA).mach.heldEdges = [] ∧
      -((s sheetA).mach.get R.SLU_ARMLEAD : Int) ≤ sint 32 sheetA.gateoff.toNat ∧
      admitCode (s { sheetA with gateoff := 0xFFF00000 }).mach { sheetA with gateoff := 0xFFF00000 } = 0 ∧
      sint 32 (0xFFF00000 : Word).toNat < -((s sheetA).mach.get R.SLU_ARMLEAD : Int) ∧
      ((s sheetA).mach.sheet 255).state = .ready ∧ ((s { state := .queued }).mach.sheet 255).state = .queued ∧
      ((s { sheetA with state := .admitted }).mach.sheet 255).state = .admitted ∧
      ((s { state := .caught }).mach.sheet 255).state = .caught := by decide +kernel
theorem witness_LedgerWrites :
    let s (x : Sheet) := ledger openGates [(255, x)]
    let ctl : Word := BitVec.ofNat 32 (12 * 2 ^ R.SLU_CTL_GATEAX.lo)
    letsB (s sheetA) sup true (recKey 255 1) = true ∧ letsB (s sheetA) sup true R.SLU_CTL_EN.key = true ∧
      letsB (s sheetA) sup true R.SLU_RSV_SPEED.key = true ∧ ((s { state := .queued }).mach.sheet 255).state = .queued ∧
      ((s { state := .admitted }).mach.sheet 255).state ≠ .queued ∧
      (R.SLU_CTL_EN.of (ctl ||| 1) = 1 ∧ 11 < R.SLU_CTL_GATEAX.of (ctl ||| 1)) ∧
      (R.SLU_CTL_EN.of 0 = 0 ∧ (s sheetA).mach.on R.SLU_CTL_EN = true ∧
        0 < countIn (·.engaged) (s { state := .admitted }).mach) ∧
      R.SLU_CTL_EN.of 1 = 1 ∧ R.SLU_CTL_GATEAX.of 1 = 0 ∧ countIn (fun st => st == .admitted || st.busy) (s sheetA).mach = 0 ∧
      countIn (fun st => st == .admitted || st.busy || st == .transferred) (s sheetA).mach = 0 := by decide +kernel
theorem witness_LedgerTimeline :
    let s (x : Sheet) := ledger [(R.SLU_CTL_EN, 1), (R.SLU_RSV_TENF, 1), (R.SLU_RSV_SPEED, 3), (R.SLU_RSV_TMAX, 2)] [(255, x)]
    let adm : Sheet := { sheetA with state := .admitted, catchT := 0, earlyRule := true }
    let img : Sheet := { adm with state := .imaging, lines := 0, nextDl := [0, 0, 0, 0, 0] }
    let one : Sheet := { img with lines := 64 }
    0 < (s adm).mach.nStn ∧ (s adm).mach.on R.SLU_RSV_TENF = true ∧
      countIn (fun st => st == .admitted || st.busy) (s sheetA).mach = 0 ∧
      (s adm).mach.get R.SLU_RSV_TMAX < (s adm).mach.get R.SLU_RSV_SPEED ∧ (s adm).mach.on R.SLU_CTL_EN = true ∧
      ((s adm).mach.sheet 255).armed = false ∧ adm.catchT.toNat ≤ (s adm).mach.now + (s adm).mach.get R.SLU_ARMLEAD ∧
      (s adm).mach.heldEdges = [] ∧ adm.allBegun = false ∧ img.state.busy = true ∧ img.heldTransfer = false ∧
      ppcReached (s img).mach.ppcNow ((img.cppc.toNat + (s img).mach.get R.SLU_TRDIST + 64 * img.lines) % 2 ^ 48) = true ∧
      img.state = .imaging ∧ img.heldFuse = false ∧ one.earlyRule = true ∧ bitOf one.planes 0 = true ∧ 0 < one.bands ∧
      one.nextDl.getD 0 0 ≤ 0 ∧
      ppcReached (s one).mach.ppcNow (((lineZero (s one).mach one 0).toNat + 64 * (64 * 0 - one.dlmargin)) % 2 ^ 48) = true := by
  decide +kernel
/-- A capture being written to bank 1. -/
def capt : Capture := { bank := 1, epoch := 1, words := [], frames := [] }
theorem witness_WatchesAndSnapshots :
    let m := (ledger [(R.SLU_CTL_EN, 1), (R.SNAP_CTL_EN, 1)] [(255, { sheetA with state := .caught, watches := 1, catchT := 0 })]
      1000000).mach
    let sh := m.sheet 255
    let p := (ledger [(R.SLU_CTL_EN, 1), (R.SLU_WATCH_CFG_BASE 0, 1), (R.CLK_PPCRATE, 1)]
      [(255, { sheetA with state := .caught, watches := 1 })]).mach
    let p : Mach := { p with clk := { p.clk with ppc := 0x1000000 } }
    p.on (R.SLU_WATCH_CFG_BASE 0) = true ∧ watchOpen 0 (p.sheet 255) = true ∧ baseKnown p 0 (p.sheet 255) = true ∧
      p.getI (R.SLU_WATCH_CLOSE 0) + (usTicks (max 1 (p.get (R.SNS_CFG_DEB (p.get (R.SLU_WATCH_CFG_SNS 0))))) *
        p.get R.CLK_PPCRATE / 2 ^ 32 : Nat) < stampOffset p 0 (p.sheet 255) p.clk.tick p.clk.ppc ∧
      m.heldEdges = [] ∧ sh.state ≠ .admitted ∧ m.snap.frozen = false ∧
      m.on R.SLU_CTL_EN = true ∧ watchOpen 0 sh = true ∧ baseKnown m 0 sh = true ∧ m.on (R.SLU_WATCH_CFG_BASE 0) = false ∧
      m.getI (R.SLU_WATCH_CLOSE 0) + usTicks (max 1 (m.get (R.SNS_CFG_DEB (m.get (R.SLU_WATCH_CFG_SNS 0))))) <
        stampOffset m 0 sh m.clk.tick m.clk.ppc ∧
      letsB State.reset sup true (R.SLU_WATCH_CFG_EN 15).key = true ∧ m.on R.SNAP_CTL_EN = true ∧
      m.snap.perFrom.toNat / 100000 < m.now / 100000 ∧ m.snap.writing = none ∧ bankHeld 0 m = false ∧ bankHeld 1 m = false ∧
      (at_ fun m => { m with snap := { m.snap with writing := some capt } }).mach.snap.writing = some capt ∧ capt.bank < 2 ∧
      (at_ fun m => { m with snap := { m.snap with hold1 := some 0 } }).mach.snap.hold1 = some 0 := by decide +kernel
theorem witness_ThrottleStepInGap :
    let m := (ledger [(R.SLU_RSV_TENF, 1), (R.SLU_RSV_SPEED, 3), (R.SLU_RSV_TMAX, 2)] []).mach
    (m.on R.SLU_RSV_TENF = true ∧ countIn (· == .admitted) m + countIn (·.busy) m = 0 ∧
      m.get R.SLU_RSV_TMAX < m.get R.SLU_RSV_SPEED) ∧ State.reset.mach.on R.SLU_RSV_TENF = false := by decide +kernel

/-! Clocks. -/

theorem witness_SynthesiserStates :
    let m := (reg [(R.CLK_SYN_CFG_EN 6, 1), (R.CLK_SYN_STAT_STATE 6, 2)]).mach
    let acq := (at_ fun m => { regs [(R.CLK_SYN_CFG_NINT 6, 40), (R.CLK_SYN_CFG_PDIV 6, 7), (R.CLK_SYN_STAT_STATE 6, 1)] m with
      clk := { m.clk with refclk := true, syn := [(6, { rampEnd := some 0 })] } }).mach
    let busy := (at_ fun m => { regs [(R.CLK_SYN_CFG_EN 2, 1)] m with sheets := [(0, { state := .imaging, planes := 1 })] }).mach
    m.hasSyn 6 = true ∧ letsB State.reset sup false (R.CLK_SYN_CFG_EN 6).key = true ∧
      State.reset.mach.on (R.CLK_SYN_CFG_EN 6) = false ∧ m.on (R.CLK_SYN_CFG_EN 6) = true ∧ stationBusy 4 m = false ∧
      stationBusy (2 - 2) busy = true ∧ busy.on (R.CLK_SYN_CFG_EN 2) = true ∧ acq.get (R.CLK_SYN_STAT_STATE 6) = 1 ∧
      acq.clk.refclk = true ∧ synSettable 6 acq = true ∧ synRamping 6 m = false ∧ m.get (R.CLK_SYN_STAT_STATE 6) = 2 ∧
      (acq.syn 6).rampEnd = some 0 := by decide +kernel
theorem witness_ClockLossAndPpc :
    let m := (at_ fun m => { regs [(R.CLK_SYN_STAT_STATE 2, 2), (R.CLK_SYN_STAT_STATE 3, 3), (R.CLK_STATUS_PPCOK, 1)] m with
      clk := { m.clk with refclk := true, drain := [(1, 0)], tick := 0xFFFFFFFFFF, syn := [(3, { coastRef := true })] } }).mach
    m.clk.refclk = true ∧ 3 < synCount m ∧ m.get (R.CLK_SYN_STAT_STATE 2) = 2 ∧ m.get (R.CLK_SYN_STAT_STATE 3) = 3 ∧
      (m.syn 3).coastRef = true ∧ m.clk.drain = [(1, 0)] ∧ countIn (·.engaged) m = 0 ∧
      0 + m.get R.CLK_DRAIN_DRAINTO * 100000 ≤ m.now ∧ letsB State.reset sup false R.CLK_PPCRATE.key = true ∧
      m.on R.CLK_STATUS_PPCOK = true ∧ m.clk.ppcWrite.toNat + m.get R.CLK_PPCWDOG ≤ m.now := by decide +kernel
theorem witness_TimebasesAdvanceAndReach : baseReached 0 4 0 State.reset.mach = true ∧
    baseReached 1 4 0x800000000000 State.reset.mach = false := by decide +kernel

/-! Register accesses, cores and commits. -/

theorem witness_RegisterAccess :
    let m := (reg [powered]).mach
    reaches sup m = true ∧ letsB State.reset sup false R.CLK_PPCRATE.key = true ∧
      letsB State.reset sup false R.CLK_TRIM.key = true ∧ R.CLK_TRIM.key % 4 = 0 ∧ m.pend = [] ∧ m.pwr.restart = false ∧
      blockAssigned (R.SEC_OP.key / 65536) = true ∧ mayWrite (.ctx 0 0) false R.SLU_OP.key = false ∧
      blockAssigned (R.SLU_OP.key / 65536) = true ∧
      regUp 0x010010 m = true ∧ regExists 0x010010 m = true ∧ latchesHigh 0x010010 = true ∧
      regUp 0x010014 m = true ∧ regExists 0x010014 m = true ∧ latchesHigh 0x010014 = false ∧
      tfind (reqKey (Requester.id sup) 0x010014) m.latches = none ∧
      tfind (reqKey (Requester.id sup) 0x010014)
        (opLatchedLowRead sup 0x010010 m).latches = some 0 := by decide +kernel
theorem witness_ReadToClearAndReset : reaches sup State.reset.mach = true ∧
    tfind (reqKey (Requester.id sup) (R.CLK_SYN_STAT_LOSSCNT 5).key) State.reset.mach.latches = none := by decide +kernel
/-- A core with context 3 in a state, its slot full. -/
def coreIn (st : CtxState) : State := at_ fun m =>
  (regs [powered, (R.COX_CFG_EN 7, 1)] m).modCtx 31 fun c => { c with
    state := st, slot := some { boundary := .tick 1, lateOk := false, entries := [], seq := 0, sealedAt := 0 } }
theorem witness_ContextControl :
    letsB (coreIn .idle) supQ false (R.COX_RUN_START 7).key = true ∧ (coreIn .idle).mach.on (R.COX_CFG_EN 7) = true ∧
      ((coreIn .idle).ctxOf 7 3).state = .idle ∧ ((coreIn .parked).ctxOf 7 3).state = .parked ∧
      ((coreIn .ready).ctxOf 7 3).slot ≠ none ∧ ((coreIn .ready).ctxOf 7 3).wait = .none ∧
      ((coreIn .running).ctxOf 7 3).issued = false ∧
      ((at_ fun m => m.modCtx 35 fun c => { c with state := .running, issued := true }).ctxOf 8 3).issued = true := by
  decide +kernel
theorem witness_CoreEnables :
    letsB (reg [powered]) supQ false (R.COX_CFG_EN 7).key = true ∧ (reg [powered]).mach.on (R.COX_CFG_EN 7) = false ∧
      (coreIn .idle).mach.on (R.COX_CFG_EN 7) = true ∧ (coreIn .idle).mach.pend = [] ∧
      letsB (reg [powered]) sup false (R.COX_SWEV_EV 7).key = true ∧
      letsB State.reset supQ false (R.COX_SUPMPU_EN 8).key = true ∧ State.reset.mach.on (R.COX_SUPMPU_LOCK 8) = false ∧
      (reg [(R.COX_SUPMPU_LOCK 8, 1)]).mach.on (R.COX_SUPMPU_LOCK 8) = true := by decide +kernel
theorem witness_ComparatorsAndCommits :
    let armed := at_ fun m => (regs [(R.PIN_GPCFG_MODE 15, 2)] m).setCmp (8 * 32 + 15)
      { armed := true, pulses := [(15, (0, false))] }
    let sealed (b : Boundary) (late ready : Bool) : State := at_ fun m => (tickAt 1 m).modCtx 35 fun c => { c with
      slot := some { boundary := b, lateOk := late, entries := [], seq := 0, sealedAt := 0, ready := ready } }
    let empty := { sealed (.tick 1) false true with mach := { (sealed (.tick 1) false true).mach with
      cox := { ctxs := [(35, (sealed (.tick 1) false true).ctxOf 8 3)] } } }
    let pin (a : Nat) := at_ fun m => (regs [(R.PIN_GPCFG_MODE 15, 2)] m).setCmp (8 * 32 + 15) { armed := true, action := a, pin := 15 }
    (∀ j, j < 15 → ((pin 2).mach.cmp (8 * 32 + j)).armed = false) ∧ ((pin 1).mach.cmp (8 * 32 + 15)).action = 1 ∧
      ((pin 2).mach.cmp (8 * 32 + 15)).action = 2 ∧ cmpDue 8 14 (pin 1).mach = false ∧
      (pin 1).mach.get (R.PIN_GPCFG_MODE ((pin 1).mach.cmp (8 * 32 + 15)).pin) = 2 ∧
      ((pin 1).mach.cmp (8 * 32 + 15)).pin < 16 ∧ (armed.mach.cmp (8 * 32 + 15)).action = 0 ∧
      boundaryHere (.tick 1) empty.mach = true ∧ empty.mach.cox.ctxs = [(cix 8 3, empty.ctxOf 8 3)] ∧
      (empty.ctxOf 8 3).wait = .none ∧
      15 < cmpCount 8 ∧ armed.mach.pwr.restart = false ∧ (armed.mach.cmp (8 * 32 + 15)).armed = true ∧
      baseReached 0 0 0 armed.mach = true ∧ (armed.mach.cmp (8 * 32 + 15)).ctx < 4 ∧
      (armed.mach.cmp (8 * 32 + 15)).pulses.find? (fun p => p.2.1.toNat ≤ armed.mach.now) = some (15, 0, false) ∧
      armed.mach.get (R.PIN_GPCFG_MODE 15) = 2 ∧
      ((sealed (.tick 0) false false).ctxOf 8 3).slot =
        some { boundary := .tick 0, lateOk := false, entries := [], seq := 0, sealedAt := 0 } ∧
      boundaryPast (.tick 0) (sealed (.tick 0) false false).mach = true ∧
      boundaryPast (.tick 1) (sealed (.tick 1) false false).mach = false ∧
      boundaryHere (.tick 1) (sealed (.tick 1) false false).mach = true ∧
      boundaryPast (.tick 2) (sealed (.tick 2) false false).mach = false ∧
      boundaryHere (.tick 2) (sealed (.tick 2) false false).mach = false ∧
      ((sealed (.tick 0) true true).ctxOf 8 3).slot =
        some { boundary := .tick 0, lateOk := true, entries := [], seq := 0, sealedAt := 0, ready := true } := by decide +kernel
theorem witness_CommitAppliesWhole :
    let k (e : List (Nat × Word)) : Commit := { boundary := .now, lateOk := false, entries := e, seq := 0, sealedAt := 0 }
    let full := (at_ fun m => m.modCtx 35 fun c => { c with slot := some (k []) }).mach
    (full.ctx 35).slot = some (k []) ∧ commitDown (k []) full = false ∧
      commitDown (k [((R.VID_CTL_EN 0).key, 1)]) (at_ fun m => regs [(R.PWR_DOMSTAT_UP, 0)] m).mach = true := by decide +kernel

/-! Ingest, the job store, feeders and CRC unit 3. -/

/-- Registers with which DRAM, the job store and ingest work. -/
def storeRegs : List (FRef × Nat) :=
  [powered, (R.DRC_CFG_EN, 1), (R.DRC_STAT_TRAINED, 1), (R.DRC_STAT_SELFREF, 0), (R.PEAT_CTL_EN, 1), (R.PEAT_JSSIZE_MIB, 64),
   (R.PEAT_JSBASE_HI_BASE, 4), (R.PEAT_CTL_INRING, 2), (R.PEAT_CTL_CPRING, 3), (R.RING_CFG_EN 2, 1), (R.RING_CFG_CSIDE 2, 2),
   (R.RING_CFG_LOG2N 2, 4), (R.RING_BASE_LO_BASE 2, 0x30500000), (R.RING_PIDX 2, 1), (R.RING_CFG_EN 3, 1),
   (R.RING_CFG_PSIDE 3, 2), (R.RING_CFG_LOG2N 3, 4), (R.RING_BASE_LO_BASE 3, 0x30501000)]

/-- The descriptor of a raw band of one line and two dots in DRAM, for sheet sid. -/
def rawDesc (sid : Nat) : List Word := [0x01000000, 4, 1, BitVec.ofNat 32 (0x20000000 + sid), 0x00040400, 0, 7, 0]
/-- The descriptor of a blank Peat band of the same size. -/
def peatDesc : List Word := [0x01000000, 4, 36, 0x28000000, 0x00040400, 0, 7, 0]
/-- Its header. -/
def peatHeader : List Byte := wordBytes [0x02015042, 0, 0x00010000, 2, 0, 1, 0, 0]

/-- Descriptors in ingest, with registers set further. -/
def ingesting (l : List (FRef × Nat)) (is : List Ingest) (es : Tab Entry := []) : Mach :=
  (at_ fun m => { regs (storeRegs ++ l) m with peat := { m.peat with ingest := is, entries := es } }).mach

/-- Codes of the descriptor that the ring at 0x3050_0000 holds. -/
def taken (d : List Word) : Option (Nat × Nat) :=
  let m := ingesting [] []
  match ringTake (m.get R.PEAT_CTL_INRING) 2 (Mem.wrBytes {} 0x30500000 (wordBytes d)) m with
  | (some bs, m') =>
    let new : Ingest := { desc := bytesWords 8 bs, stage := .room }
    let took := m'.onPeat fun p => { p with ingest := p.ingest ++ [new] }
    some (descCode took new, classify took new)
  | _ => none

/-- What a read of n bytes of a descriptor's band gives. -/
def bandBytes (i : Ingest) (n : Nat) (mem : Mem) (m : Mach) : Option (List Byte) :=
  match bandRead i n .clean mem m with
  | .bytes bs _ => some bs
  | .hold _ => none

theorem witness_IngestSteps :
    let room : Ingest := { desc := rawDesc 0, stage := .room }
    let raw : Ingest := { desc := rawDesc 0, stage := .transfer false }
    let old : Ingest := { desc := rawDesc 0xFFFFFF, stage := .transfer false }
    let keep : Ingest := { desc := rawDesc 0, stage := .transfer false, keepRaw := true }
    let bad : Ingest := { desc := (rawDesc 0).set 3 0x30000000, stage := .transfer false }
    let peat0 : Ingest := { desc := peatDesc, stage := .transfer false }
    let peat1 : Ingest := { desc := peatDesc, stage := .transfer true }
    let mem := Mem.wrBytes {} 0x0401000000 (peatHeader ++ leBytes 4 (crc32c peatHeader).toNat)
    mayTake (ingesting [] []) = true ∧ taken (rawDesc 0) = some (0, 0) ∧ taken (List.replicate 8 0) = some (4, 0) ∧
      taken (rawDesc 0xFFFFFF) = some (0, 5) ∧
      (ingesting [] [room]).peat.ingest.findIdx? (·.stage == .room) = some 0 ∧ (inTransfer (ingesting [] [room])).isNone = true ∧
      unitsWanted (ingesting [] [room]) room ≤ freeUnits (ingesting [] [room]) ∧ usedIndex (ingesting [] [room]) < 131072 ∧
      domUp 11 (ingesting [] [room]) = true ∧ inTransfer (ingesting [] [raw]) = some 0 ∧ peat0.isPeat = true ∧
      bandBytes peat0 32 mem (ingesting [] [peat0]) = some peatHeader ∧ headerCode peat0 (bytesWords 8 peatHeader) = 0 ∧
      bandBytes peat0 32 {} (ingesting [] [peat0]) = some (List.replicate 32 0) ∧
      headerCode peat0 (bytesWords 8 (List.replicate 32 0)) ≠ 0 ∧ raw.isPeat = false ∧
      bandBytes raw raw.len {} (ingesting [] [raw]) = some [0] ∧ crcRight raw [0] = true ∧ crcRight bad [0] = false ∧
      (match bandRead old old.len .clean {} (ingesting [] [old]) with
        | .bytes _ m' => classify (holdRelease (transferEnd m')) old | .hold _ => 0) = 5 ∧
      (match bandRead raw raw.len .clean {} (ingesting [] [raw]) with
        | .bytes _ m' => classify (holdRelease (transferEnd m')) raw | .hold _ => 1) = 0 ∧
      (match bandRead keep keep.len .clean {} (ingesting [] [keep]) with
        | .bytes _ m' => classify (holdRelease (transferEnd m')) keep | .hold _ => 1) = 0 ∧
      (match bandRead peat1 peat1.len .clean mem (ingesting [(R.PEAT_CTL_VERIFY, 0)] [peat1]) with
        | .bytes bs m' => (crcRight peat1 bs, classify (holdRelease (transferEnd m')) peat1,
            (holdRelease (transferEnd m')).on R.PEAT_CTL_VERIFY) | .hold _ => (false, 1, true)) = (true, 0, false) := by
  decide +kernel

/-- A raw band of one line of two dots; the fixed-code block of RFC 1951 that spells it. -/
def bandA : Band :=
  { stn := 0, band := 0, nlines := 1, width := 2, raw := true, blank := false, stored := true, tag := 0, payload := [0x61] }

theorem witness_DeflateAndComplete :
    let wait : Ingest := { desc := rawDesc 0, stage := .wait, band := some bandA }
    let on : Ingest := { wait with stage := .engine 1 }
    let ver : Ingest := { on with band := some { bandA with raw := false, payload := [0x4B, 0x04, 0x00] } }
    let wrong : Ingest := { on with band := some { bandA with raw := false } }
    let post : Ingest := { desc := rawDesc 0, stage := .post }
    firstWaiting (ingesting [] [wait]) = some 0 ∧ freeEngines (ingesting [] [wait]) = 0 :: [1] ∧ wait.verifies = false ∧
      onEngine (ingesting [] [on]) 1 = some (0, on) ∧ on.verifies = false ∧ deflates [0x4B, 0x04, 0x00] on.rawLen = true ∧
      inflate [0x4B, 0x04, 0x00] on.rawLen = (bandA.payload, true) ∧ deflates [0x4B, 0x02, 0x00] on.rawLen = true ∧
      (inflate [0x4B, 0x02, 0x00] on.rawLen).1 ≠ bandA.payload ∧
      onEngine (ingesting [] [ver]) 1 = some (0, ver) ∧ ver.verifies = true ∧
      (inflate [0x4B, 0x04, 0x00] ver.rawLen).2 = true ∧ wrong.verifies = true ∧ (inflate [0x61] wrong.rawLen).2 = false ∧
      (ingesting [] [on]).peat.ingest[0]? = some on ∧ (ingesting [] [on]).entry on.sid = none ∧
      (ringPut ((ingesting [] [post]).get R.PEAT_CTL_CPRING) 2 (completion (ingesting [] [post]) post) (ingesting [] [post]) {}).1
        = true ∧ domUp 11 (ingesting [] [post]) = true := by decide +kernel

theorem witness_JobStoreOperations :
    let e : Entry := { bands := [bandA], hold := some 0 }
    let m := ingesting [] [] [(5, e)]
    let refd : Mach := { m with sheets := [(0, { sid := 5, state := .queued })] }
    letsB (reg storeRegs) sup false R.PEAT_JSOP_SID.key = true ∧ m.entry 6 = none ∧ m.entry 5 = some e ∧ e.ended = false ∧
      referenced 5 refd = true ∧ refd.entry 5 = some e ∧ referenced 5 m = false ∧ (m.peat.entries.map (·.1)).Nodup ∧
      (∀ p ∈ m.peat.entries, p.1 < 2 ^ 24) ∧ (0 : Tick).toNat ≤ m.now ∧ e.pinned = false := by decide +kernel

/-- A station 0 whose feeder has taken up a sheet with one band. -/
def feeding (f : Feeder) (sh : Sheet) (b : Band) : Mach :=
  (at_ fun m => { regs storeRegs m with
    sheets := [(0, sh)], peat := { m.peat with entries := [(1, { bands := [b] })], feeders := [(0, f)] } }).mach

theorem witness_FeedersAndCrc :
    let sh : Sheet := { sheetA with state := .admitted, armed := true }
    let b : Band := { bandA with nlines := 64, payload := List.replicate 64 0x55 }
    let z : Band := { b with raw := false, payload := [0x01, 0x40, 0x00, 0xBF, 0xFF] ++ List.replicate 64 0x55 }
    let f : Feeder := { sheet := some 0, sid := 1 }
    let m0 := feeding {} sh b
    let m := feeding f sh b
    let st := feeding { f with started := true } sh z
    let run := feeding { f with started := true, eng := some 3 } sh z
    let tail := feeding { f with started := true, eng := some 3, filled := 56,
                                 stream := { pos := 40 + 8 * 56, len := 56, last := true, blk := .stored 8 } } sh z
    let part (m : Mach) (n : Nat) : Inflate × Bool := inflateRun (bufferByte 0 0 1 {}) z.payload 64 n (m.feeder 0).stream
    let crc := (at_ fun m => { m with peat := { m.peat with crc := some (0x30000000, 4) } }).mach
    domUp 11 m0 = true ∧ feederFree m0 0 = true ∧ (m0.feeder 0).eng = none ∧ feedNext m0 0 = some 0 ∧
      (m.feeder 0).sheet = some 0 ∧ (m.sheet 0).sid = (m.feeder 0).sid ∧ (m.sheet 0).exposes = true ∧
      (m.feeder 0).band < (m.sheet 0).bands ∧ dramHeld m = false ∧
      linesFreed m 0 (tget {} 0 (m.sheet 0).legs) + 128 ≥ (min (m.sheet 0).lines (64 * (0 + 1)) : Nat) ∧
      bandOf m (m.sheet 0) 0 0 = some b ∧ bandOf (feeding f sh { b with blank := true }) sh 0 0 = some { b with blank := true } ∧
      bandOf st sh 0 0 = some z ∧
      (List.range st.nStn).filter (fun s => (st.feeder s).started && (st.feeder s).eng.isNone) = [0] ∧
      ((List.range 4).find? fun e => !(st.peat.feeders.any fun f => f.2.eng == some e)) = some 0 ∧
      ((List.range run.nStn).find? fun s => (run.feeder s).eng == some 3) = some 0 ∧ dramHeld run = false ∧
      (run.feeder 0).sheet = some 0 ∧ bandOf run sh 0 0 = some z ∧ 0 < sh.width / 2 ∧ 64 * 0 ≤ (tail.feeder 0).filled ∧
      (tail.feeder 0).filled < min sh.lines (64 * (0 + 1)) ∧ (run.feeder 0).stream = {} ∧ (run.feeder 0).filled = 64 * 0 ∧
      (part run 8).2 = true ∧ min sh.lines (64 * (0 + 1)) ≤ (tail.feeder 0).filled + 8 ∧ infWhole 64 (part tail 64) = true ∧
      bandOf tail sh 0 0 = some z ∧ (run.feeder 0).filled + 8 < min sh.lines (64 * (0 + 1)) ∧
      inflate z.payload (sh.width / 2 * (min sh.lines (64 * (0 + 1)) - 0)) = (List.replicate 64 0x55, true) ∧
      letsB State.reset sup false R.CRC_GCTL_GO.key = true ∧ m.peat.crc = none ∧ crc.peat.crc = some (0x30000000, 4) ∧
      crcRange crc 0x30000000 4 = true := by decide +kernel

/-! Strokes and the video islands. -/

/-- Station 4, enabled, with its latest two strokes 1,000 TICKs apart and a facet-zero edge that waits or not. -/
def island (pend : Bool) (stamps : List (Tick × Ppc)) (l : List (FRef × Nat) := []) : State :=
  at_ fun m => tickAt 10000 { regs ([powered, (R.VID_CTL_EN 4, 1), (R.ENV_STAT_ILK, 1), (R.VID_CTL_FACETS 4, 8)] ++ l) m with
    vid := [(4, { stamps := stamps, fzPend := pend })], cox := { m.cox with ctxs := [] } }

theorem witness_StrokesCount :
    let m := (island false [(9000, 0), (8000, 0)]).mach
    4 < m.nStn ∧ m.on (R.VID_CTL_EN 4) = true ∧ stampsOf m 4 = some (9000, 0, 1000, 0) ∧
      stampsOf (island false [(8500, 0), (7500, 0)]).mach 4 = some (8500, 0, 1000, 0) ∧
      3 * 1000 ≤ 2 * ((m.now : Int) - (m.vidOf 4).bdAt.toNat) ∧
      (BitVec.ofNat 32 (m.get (R.CLK_TB_LINE 4)) - (m.vidOf 4).line0).toNat + 1 < advLines m 4 ∧
      ((0 + 1 : Nat) * 1000 : Int) ≤ ((m.now : Int) - 9000) * advLines m 4 ∧ m.pend = [] ∧ m.cox.ctxs = [] ∧
      m.pwr.restart = false ∧ ((island false []).mach.vidOf 4).stamps = [] ∧ (m.vidOf 4).fzPend = false ∧
      ((island true []).mach.vidOf 4).fzPend = true ∧ ((island true []).mach.vidOf 4).fzHave = false := by decide +kernel

/-- A lane of station 0 that exposes the first dot of a sheet. -/
theorem witness_PulsesKeepOrder :
    let m := (at_ fun m => { regs [powered, (R.VID_PSHAPE_WIDTH 0 1, 40), (R.CLK_SYN_LSDLY 2, 64), (R.VID_SCAN_ACTIVE 0, 2)] m with
      peat := { m.peat with feeders := [(0, { sheet := some 0, filled := 64 })] } }).mach
    let x : Expo := { rec? := some 0, sid := 0, leg := {}, lines := 64, width := 2 }
    lanePulses m (Mem.wr {} 0x30000000 0x01) 0 0 0 [x] = [{ lane := 0, start := 0, width := 40, level := 0 }] ∧
      retired (regs [(R.VID_RETIRE_LANES 0, 1)] m) 0 0 = true := by decide +kernel
/-- The blend of chapter 6's example: lines 33 and 32 at equal weights. -/
theorem test_blend : blend 4 (8, 40) (16, 24) = (12, 32) := by decide

theorem witness_IslandCommands :
    let m := (island false []).mach
    let short := (island false [] [(R.VID_CTL_NZM1 4, 1), (R.VID_ZSTART_DOT 4 1, 4), (R.CLK_SYN_CFG_NINT 6, 40)]).mach
    let off := (at_ (tickAt 1000)).mach
    let lock := (island false [] [(R.VID_CTL_FZEN 4, 1), (R.VID_PLOCK_LOCK 4, 1)]).mach
    let sig : Mach := { lock with vid := [(4, { sigSums := [1, 1, 1, 1, 1, 1, 1, 2], sigCount := 2048 })] }
    let en (f : Nat) : Word := BitVec.ofNat 32 (1 + f * 2 ^ (R.VID_CTL_FACETS 4).lo)
    lenOn 4 m = true ∧ 0 < zonesOf m 4 ∧ zoneEnd m 4 0 = none ∧ lenOn 4 short = true ∧ zoneEnd short 4 0 = some 4 ∧
      dotsLast short 4 (4 - zoneStart short 4 0) 200 = false ∧ lenOn 4 off = false ∧
      (off.vidOf 4).safeAt.toNat + 1000 ≤ off.now ∧ lock.on (R.VID_CTL_FZEN 4) = true ∧ lock.on (R.VID_PLOCK_LOCK 4) = true ∧
      facetsOf lock 4 = 8 ∧ (sig.vidOf 4).sigSums.length = facetsOf sig 4 ∧ sigLength 4 sig ≤ (sig.vidOf 4).sigCount ∧
      sig.on (R.VID_CTL_EN 4) = true ∧ sig.on (R.VID_PLOCK_LOCK 4) = true ∧ State.reset.mach.pend = [] ∧ (island false [] [(R.VID_CTL_FZEN 4, 0)]).mach.on (R.VID_CTL_FZEN 4) = false ∧ (lock.vidOf 4).sigDone = false ∧
      letsB (reg [powered]) sup false (R.VID_CTL_EN 4).key = true ∧ State.reset.mach.on (R.VID_CTL_EN 4) = false ∧
      (R.VID_CTL_EN 4).of (en 4) = 1 ∧ (R.VID_CTL_FACETS 4).of (en 4) = 4 ∧ (R.VID_CTL_FACETS 4).of (en 12) = 12 ∧
      (R.VID_CTL_NZM1 4).of (en 4) = 0 ∧ (R.VID_CTL_FACETS 4).of (en 3) = 3 ∧ (R.VID_CTL_FACETS 4).of (en 13) = 13 ∧
      letsB State.reset sup false R.BMAP_SEL_STN.key = true := by decide +kernel

/-! The Scull engine. -/

/-- Slot 95 with its registers set, and the engine's unseen state. -/
def slotIn (l : List (FRef × Nat)) (f : Scl → Scl) : Mach :=
  (at_ fun m => let m := tickAt 2000 (regs ([powered, (R.SCL_CTL_EN, 1), (R.SCL_SLOT_CTL_EN 95, 1), (R.SCL_SLOT_BUD_BUDGET 95, 17),
    (R.SCL_SLOT_PER 95, 1)] ++ l) m); { m with scl := f m.scl }).mach

theorem witness_SlotTriggers :
    let due := slotIn [] fun x => { x with trigDue := [95] }
    let again := slotIn [(R.SCL_SLOT_STAT_PEND 95, 1)] fun x => { x with trigDue := [95] }
    let rd := slotIn [] fun x => { x with slots := [(95, { reading := true })] }
    let sync := slotIn [(R.SCL_SLOT_RCA_LEN 95, 8), (R.SCL_SLOT_RCSTAT_IDX 95, 7), (R.SCL_SLOT_RCB_SYNCTOL 95, 1)]
      fun x => { x with syncDue := [95] }
    let shed := slotIn [(R.SCL_STAT_FALLBK, 1), (R.SCL_CTL_SHEDEN, 1), (R.SCL_SLOT_CTL_SHED 95, 1)] fun x =>
      { x with trigDue := [95] }
    let far := slotIn [(R.SCL_SLOT_RCA_LEN 95, 8), (R.SCL_SLOT_RCSTAT_IDX 95, 4), (R.SCL_SLOT_RCB_SYNCTOL 95, 3)]
      fun x => { x with syncDue := [95] }
    slotShed 95 (triggerCounts 95 (sampleBoundary 95 shed)) = true ∧ rd.scl.bounds.contains 95 = false ∧
      (slotIn [] fun x => { x with slots := [(95, { reading := true })], bounds := [95] }).scl.bounds.contains 95 = true ∧
      far.get (R.SCL_SLOT_RCB_SYNCTOL 95) < 8 - 4 ∧ far.scl.syncDue.contains 95 = true ∧
      due.scl.trigDue.contains 95 = true ∧ due.on (R.SCL_SLOT_CTL_EN 95) = true ∧ due.on R.SCL_CTL_EN = true ∧
      slotShed 95 (triggerCounts 95 due) = false ∧ groupRunning 95 (opRcSyncEvent 95 due) = false ∧
      ((sampleBoundary 95 due).sclSlot 95).last = none ∧ ((sampleBoundary 95 due).sclSlot 95).reading = false ∧
      (triggerCounts 95 due).on (R.SCL_SLOT_STAT_PEND 95) = false ∧ (triggerCounts 95 due).on (R.SCL_SLOT_STAT_RUNNING 95) = false ∧
      (triggerCounts 95 (sampleBoundary 95 again)).on (R.SCL_SLOT_STAT_PEND 95) = true ∧
      0 < sync.get (R.SCL_SLOT_RCA_LEN 95) ∧ due.get (R.SCL_SLOT_RCA_LEN 95) = 0 ∧ (rd.sclSlot 95).reading = true ∧
      rd.get (R.SCL_SLOT_BUD_NIN 95) = 0 ∧ slotShed 95 rd = false ∧ sync.scl.syncDue.contains 95 = true ∧
      sync.get (R.SCL_SLOT_RCSTAT_IDX 95) ≠ 0 ∧ 8 - 7 ≤ sync.get (R.SCL_SLOT_RCB_SYNCTOL 95) ∧
      letsB (reg [powered]) sup false (R.SCL_SLOT_CTL_EN 95).key = true ∧ State.reset.mach.on (R.SCL_SLOT_CTL_EN 95) = false ∧
      slotSound 95 (slotIn [(R.SCL_SLOT_CTL_EN 95, 0)] id) = true ∧ slotSound 95 (reg [(R.SCL_SLOT_TRIG_SRC 95, 6)]).mach = false := by decide +kernel

theorem witness_ScullRuns :
    let pend := slotIn [(R.SCL_SLOT_STAT_PEND 95, 1), (R.SCL_UCODE 0, 0x08000000)] id
    let run (e : Bool) := slotIn [(R.SCL_SLOT_STAT_RUNNING 95, 1)] fun x => { x with run := some { slot := 95, ended := e, cycles := 17 } }
    let illegal := slotIn [(R.SCL_SLOT_STAT_PEND 95, 1), (R.SCL_UCODE 0, 0xFFFFFFFF), (R.SCL_SLOT_CTL_BUDCLS 95, 2)] id
    let ends (m : Mach) : RunEnd := (SclCpu.run (m.get (R.SCL_SLOT_BUD_BUDGET 95)) (m.get (R.SCL_SLOT_CTL_PSTART 95)) 16
      { m := m, n := 95, hov := false, frozen := false }).1
    ends pend = .ended ∧ ends illegal = .illegal ∧ pendingFirst illegal = some 95 ∧ illegal.heldEdges = [] ∧
      2 ≤ illegal.get (R.SCL_SLOT_CTL_BUDCLS 95) ∧ pendingFirst (slotIn [] id) = none ∧
      pend.pwr.restart = false ∧ pend.scl.run = none ∧ pend.on R.SCL_CTL_EN = true ∧ pendingFirst pend = some 95 ∧
      ucode pend (pend.get (R.SCL_SLOT_CTL_PSTART 95)) = some 0x08000000 ∧ microOf 0x08000000 = some .end_ ∧
      17 ≤ pend.get (R.SCL_SLOT_BUD_BUDGET 95) ∧ (run true).scl.run = some { slot := 95, ended := true, cycles := 17 } ∧
      (run true).get (R.SCL_SLOT_BUD_NOUT 95) = 0 ∧ (run true).scl.bounds = [] ∧ (run true).scl.waiting = [] ∧
      (run false).scl.run = some { slot := 95, ended := false, cycles := 17 } := by decide +kernel

theorem witness_MicroprogramBounds :
    let c : SclCpu := { m := slotIn [(R.SCL_UCODE 0, 0x08000000)] id, n := 95, hov := false, frozen := false }
    (∀ a ∈ c.acc, -(2 ^ 39) ≤ a ∧ a < (2 : Int) ^ 39) ∧ (SclCpu.run 4 0 16 c).1 = .ended := by decide +kernel

/-! Conversions, high voltage, the fuser and marks. -/

theorem witness_AnalogAndFuser :
    let r (l : List (FRef × Nat)) (f : Fuser → Fuser) : Mach := (at_ fun m =>
      let m := tickAt 2000000 (regs ([powered, (R.VID_HTLIM_HTSOFT 4, 1600), (R.VID_HTLIM_HTHARD 4, 1600),
        (R.ENV_GUARD 26, 0x0640)] ++ l) m)
      { m with fus := f m.fus, hv := [(23, { above := some 0 })], thm := { m.thm with grace := some 0 } }).mach
    let hot := r [(R.ADC_AIN_BROKEN 36, 1)] id
    let z := r [(R.FUS_CTL_EN, 1), (R.FUS_APPL_APPLIED 3, 32768)] fun f => { f with zcAt := some 0, fireAt := [(3, 0)], endAt := [(3, 0)] }
    let near := (at_ fun m => m.setAdcIn 63 { near := 3, inside := 63 }).mach
    let hit := (at_ fun m => { m with fus := { m.fus with ceil := [0, 0, 4, 0] } }).mach
    let half := r [] fun f => { f with zcAt := some 1000000 }
    ceilingHit hit = true ∧ half.fus.zcAt = some 1000000 ∧ 1000000 + 700000 ≤ half.now ∧ half.now ≤ 1000000 + 1250000 ∧
      half.on R.FUS_CTL_MODE = false ∧ (z.vidOf 4).headCeil = false ∧
    4 < z.nStn ∧ domUp (4 + 4) z = true ∧ (near.adcIn 63).near = 3 ∧ (near.adcIn 63).inside = 63 ∧ z.on R.THM_CTL_EN = false ∧
      headReading z 4 < z.getI (R.VID_HTLIM_HTSOFT 4) - 31 ∧
      headReading z 4 < min (z.getI (R.VID_HTLIM_HTHARD 4)) (headCeilOf z 4) - 31 ∧ headCeilOf hot 4 ≤ headReading hot 4 ∧
      (hot.vidOf 4).headCeil = false ∧ (z.hvCh 23).above = some 0 ∧ (r [(R.HV_CFG_FBI 23, 1)] id).on (R.HV_CFG_FBI 23) = true ∧
      z.on (R.HV_STAT_OC 23) = false ∧ 0 + 100000 ≤ z.now ∧ z.on R.FUS_CTL_MODE = false ∧ near.fus.zcAt = none ∧
      z.fus.zcAt = some 0 ∧ 0 + 1250000 ≤ z.now ∧
      (at_ fun m => { m with fus := { m.fus with zcAt := some 0 } }).mach.now < (0 : Tick).toNat + 700000 ∧
      32768 ≤ z.fus.acc.getD 3 0 + z.get (R.FUS_APPL_APPLIED 3) ∧ z.fus.acc.length = 4 ∧ tfind 3 z.fus.fireAt = some 0 ∧
      z.on R.FUS_CTL_EN = true ∧ tfind 3 z.fus.endAt = some 0 ∧ z.thm.grace = some 0 := by decide +kernel

/-- A mark frame at station 0 with these windows closed. -/
def marking (bars : Tab (Option Int)) : Mach := (at_ fun m =>
  { regs [powered, (R.ADC_CTL_EN, 1), (R.ADC_MKCTL_MKEN, 1), (R.ADC_MKSTAT_ACTIVE, 1), (R.ADC_MKSTN_INCL 0, 1)] m with
    mark := { bars := bars }, clk := { m.clk with ppc := 0x1000000 } }).mach

theorem witness_MarkFrames :
    let ready := (reg [(R.ADC_CTL_EN, 1), (R.ADC_MKCTL_MKEN, 1), (R.ADC_MKPOS_LO_POS, 4096)]).mach
    let all := marking ((List.range 7).map fun i => (i + 1, none))
    let one := marking []
    letsB State.reset sup false R.ADC_MKCTL_MKEN.key = true ∧ R.ADC_MKCTL_ARM.of 0 = 0 ∧
      (ready.on R.ADC_CTL_EN = true ∧ ready.on R.ADC_MKCTL_MKEN = true ∧ markBusy ready = false ∧
        4096 ≤ ppcDiff (ready.get R.ADC_MKPOS_LO_POS + ready.get R.ADC_MKPOS_HI_POS * 2 ^ 32) ready.ppcNow) ∧
      recsIn (fun st => st == .admitted || st.busy) ready = [] ∧ State.reset.mach.on R.ADC_CTL_EN = false ∧
      markBusy all = true ∧ markIncl all 0 = true ∧ barAt all 0 0 0 = none ∧
      ppcReached all.ppcNow (all.mark.pos + BitVec.ofNat 48 (windowCentre all 0 0 + 64 * all.get R.ADC_MKCTL_WIN)).toNat = true ∧
      (∀ y, y < 5 → ∀ j, j < 8 → markIncl all y = true → y * 8 + j ≠ 0 → (tfind (y * 8 + j) all.mark.bars).isSome = true) ∧
      markBusy one = true ∧ markIncl one 0 = true ∧ barAt one 0 0 0 = none ∧
      ppcReached one.ppcNow (one.mark.pos + BitVec.ofNat 48 (windowCentre one 0 0 + 64 * one.get R.ADC_MKCTL_WIN)).toNat = true ∧
      tfind (0 * 8 + 7) one.mark.bars = none := by decide +kernel

/-! Feedback, inputs and profiles. -/

/-- Registers set, TICK at 1 s, and feedback channel 11. -/
def fbk (l : List (FRef × Nat)) (e : Enc := {}) : Mach := (at_ fun m =>
  { tickAt 100000000 (regs ([(R.FBK_CFG_EN 11, 1)] ++ l) m) with enc := [(11, e)] }).mach

theorem witness_FeedbackChannels :
    let m := fbk [(R.FBK_CFG_MODE 11, 0)]
    let still := fbk [(R.FBK_STAT_METH 11, 0), (R.FBK_STAT_STILL 11, 0), (R.FBK_SPDCFG_STILL 11, 1)] { valid := 0 }
    let zen := fbk [(R.FBK_CFG_ZEN 11, 1)]
    let ssi := (at_ fun m => { tickAt 100000 (regs [(R.FBK_SSI_CFG_EN 3, 1)] m) with ssi := [(3, {})] }).mach
    let rise := ssiClocks (rstWord (R.FBK_SSI_CFG_EN 3).key) 3
    let run := (at_ fun m => { tickAt rise m with ssi := [(3, { frame := some false })] }).mach
    let bad := (at_ fun m => { tickAt 100000 m with ssi := [(3, { frame := some true, bad := 1 })] }).mach
    let me := max 1 (min 1000 (m.get (R.FBK_CFG_MINEDGE 11)))
    zen.on (R.FBK_CFG_ZEN 11) = true ∧ m.on (R.FBK_CFG_ZEN 11) = false ∧ (zen.encOf 11).lastZ = none ∧
      (zen.encOf 11).idxFirst = true ∧ m.on (R.FBK_STAT_METH 11) = false ∧
      (run.ssiOf 3).start.toNat + ssiClocks (run.word (R.FBK_SSI_CFG_EN 3).key) 3 = run.now ∧
      (bad.ssiOf 3).frame = some true ∧ (bad.ssiOf 3).bad ≠ 2 ∧ ssiClocks (bad.word (R.FBK_SSI_CFG_EN 3).key) 3 +
        100 * bad.get (R.FBK_SSI_MONO 3) ≤ bad.now ∧
    m.on (R.FBK_CFG_EN 11) = true ∧ me ≤ 1000 ∧ (m.encOf 11).lastAcc = none ∧ (m.encOf 11).a = false ∧ (m.encOf 11).b = false ∧
      m.on (R.FBK_CFG_SLEN 11) = false ∧ m.on (R.FBK_CFG_MODE 11) = false ∧ homingOn 11 m = false ∧ ¬me ≤ 0 ∧
      (fbk [(R.FBK_SPDCFG_GLTHR 11, 0)]).get (R.FBK_SPDCFG_GLTHR 11) = 0 ∧ still.on (R.FBK_STAT_METH 11) = false ∧
      still.on (R.FBK_STAT_STILL 11) = false ∧ (still.encOf 11).valid = 0 ∧
      0 + 8 * (100000 * still.get (R.FBK_SPDCFG_STILL 11)) < 8 * still.now ∧
      (m.encOf 11).winAt.toNat + max 1 (m.get (R.FBK_SPDCFG_CWIN 11)) * 1000 ≤ m.now ∧
      (fbk [(R.FBK_STAT_METH 11, 1)]).on (R.FBK_STAT_METH 11) = true ∧
      letsB State.reset sup false (R.FBK_CFG_EN 11).key = true ∧ (m.encOf 11).idxFirst = true ∧
      (fbk [(R.FBK_CFG_IZERO 11, 0)]).on (R.FBK_CFG_IZERO 11) = false ∧
      (∀ ax, ax < 20 → (m.axis ax).homing = .none ∧ m.on (R.MOT_CFG_LIMEN ax) = false ∧ m.on (R.MOT_STAT_LIMTRIP ax) = false) ∧
      ssi.on (R.FBK_SSI_CFG_EN 3) = true ∧ (ssi.ssiOf 3).frame = none ∧ (ssi.ssiOf 3).ready.toNat ≤ ssi.now ∧
      multipleIn (max 1 (ssi.get R.MOT_CTL_SPER)) 0 (ssi.ssiOf 3).start.toNat ssi.now = true ∧
      (run.ssiOf 3).frame = some false ∧ run.on (R.FBK_SSI_CFG_ERRBIT 3) = false ∧ run.on (R.FBK_SSI_CFG_PAR 3) = false ∧
      run.on (R.FBK_SSI_CFG_GRAY 3) = false := by decide +kernel

/-- Input 47 asserted and chattering; `fresh`, with these raw transitions so far. -/
def sensing (trans : List Nat) (l : List (FRef × Nat) := []) : Mach :=
  { fbk ([(R.SNS_CTL_EN, 1), (R.SNS_CFG_DEB 47, 1), (R.SNS_STAT_RAW 47, 1), (R.SNS_STAT_CHAT 47, 1)] ++ l) with
    sns := [(47, { tick := 100000000, trans := trans })] }

theorem witness_FeedbackChannels_inputs :
    let due : Mach := { sensing [] with sns := [] }
    let quiet := sensing [99999999] [(R.SNS_STAT_CHAT 47, 0), (R.SNS_CFG_CHN 47, 1)]
    filteredEdge 47 (sensing []) = none ∧ (sensing []).on R.SNS_CTL_EN = true ∧ (sensing []).on (R.SNS_STAT_RAW 47) ≠ false ∧
      ((sensing []).snsOf 47).trans.length < max 1 ((sensing []).get (R.SNS_CFG_CHN 47)) ∧
      filteredEdge 47 quiet = none ∧ quiet.on (R.SNS_STAT_CHAT 47) = false ∧
      (quiet.snsOf 47).trans.length = max 1 (quiet.get (R.SNS_CFG_CHN 47)) ∧
      (∀ u ∈ (quiet.snsOf 47).trans, quiet.now < u + 100000 * max 1 (quiet.get (R.SNS_CFG_CHW 47))) ∧
      (∀ ax, ax < 20 → (quiet.axis ax).homing = .none ∧ quiet.on (R.MOT_CFG_LIMEN ax) = false ∧
        quiet.on (R.MOT_STAT_LIMTRIP ax) = false) ∧ due.on (R.SNS_STAT_CHAT 47) = true ∧
      (due.snsOf 47).raw.toNat + 100000 * max 1 (due.get (R.SNS_CFG_CHW 47)) ≤ due.now ∧
      (filteredEdge 47 due).isSome = true ∧ due.on R.SLU_CTL_EN = false ∧
      letsB State.reset sup false R.SNS_CTL_EN.key = true ∧ State.reset.mach.pend = [] ∧
      State.reset.mach.on R.SNS_CTL_EN = false ∧ R.SNS_CTL_EN.of 1 = 1 := by decide +kernel

theorem witness_ProfileSegments :
    let m := State.reset.mach
    let quick := (reg [(R.MOT_STAT_PHASE 19, 4)]).mach
    let due := (at_ fun m => { regs [(R.MOT_CTL_EN, 1)] (tickAt 100000 m) with
      axes := [(19, { mode := 2, pend := some (5, 7) })] }).mach
    let run := (at_ fun m => { regs [(R.MOT_STAT_PHASE 19, 2)] m with axes := [(19, { mode := 2 })] }).mach
    letsB State.reset sup false (R.MOT_CMD_MODE 19).key = true ∧ m.pend = [] ∧ m.get (R.MOT_STAT_PHASE 19) ≠ 4 ∧
      bitOf (0 : Word).toNat 3 = false ∧ bitOf (8 : Word).toNat 3 = true ∧ quick.get (R.MOT_STAT_PHASE 19) = 4 ∧
      (due.axis 19).pend = some (5, 7) ∧ startTime 19 due = some 0 ∧ due.get (R.MOT_STAT_PHASE 19) ≠ 4 ∧
      letsB State.reset sup false (R.MOT_VMAX 19).key = true ∧ letsB State.reset sup false (R.MOT_ACC 19).key = true ∧
      (run.axis 19).mode = 2 ∧ run.get (R.MOT_STAT_PHASE 19) = 2 ∧ due.on R.MOT_CTL_EN = true ∧
      multipleIn (max 1 (due.get R.MOT_CTL_SPER)) 0 due.mot.period.toNat due.now = true ∧ due.mot.stopDue = false := by
  decide +kernel

/-! Motor drives and braking. -/

/-- Polygon drive 4 in a state, with registers set. -/
def poly (st : Nat) (l : List (FRef × Nat)) (p : PolyDrv := {}) : Mach := (at_ fun m =>
  { tickAt 1000000000 (regs ([(R.POLY_STAT_STATE 4, st)] ++ l) m) with drv := { m.drv with poly := [(4, p)] } }).mach

theorem witness_PolygonDrives :
    let off := poly 0 []
    let on := poly 1 [(R.POLY_CFG_EN 4, 1)]
    let busy : Mach := { on with sheets := [(0, { state := .imaging, planes := 16 })] }
    let run := poly 3 [(R.POLY_CFG_EN 4, 1), (R.POLY_CFG_SENSE 4, 0), (R.POLY_CATCH_LOSTN 4, 2)] { last := some 0, comDue := some 0 }
    let turns (m : Mach) : Mach := (regs [(R.POLY_WIN_BLANK 4, 0)] m).setGates 4
      { at_ := 7999999900, per := 10000, legs := [{ hi := [(0, 5000)] }] }
    let fresh := turns (poly 3 [(R.POLY_CFG_SENSE 4, 0)])
    let early := poly 3 [(R.POLY_CFG_SENSE 4, 0), (R.POLY_T60 4, 1000)] { comAt := 8000000000 }
    let ramp := turns (poly 2 [(R.POLY_CFG_SENSE 4, 0), (R.POLY_T60 4, 1000)] { last := some 7999999000 })
    let cur (m : Mach) (pk : Nat) : Mach := { m with shunt := [(4, (0, 2048))], drv := { m.drv with poly := [(4, { peak := pk })] } }
    let hi := cur on 1
    let i (m : Mach) : Int := shuntMa (shuntOf m 4).2 (m.get (R.POLY_ILIM_ISC 4)) - shuntMa (shuntOf m 4).1 (m.get (R.POLY_ILIM_ISC 4))
    letsB State.reset sup false (R.POLY_CFG_EN 4).key = true ∧ off.pend = [] ∧ off.on (R.POLY_CFG_EN 4) = false ∧
      driveHeld 4 off = false ∧ on.on (R.POLY_CFG_EN 4) = true ∧ stationBusy 4 on = false ∧ driveHeld 4 on = false ∧
      stationBusy 4 busy = true ∧ on.get (R.POLY_STAT_STATE 4) = 1 ∧
      (on.polyOf 4).since.toNat + 100000 * on.get (R.POLY_STARTA_ALIGNT 4) ≤ on.now ∧ (poly 2 []).get (R.POLY_STAT_STATE 4) = 2 ∧
      ((poly 2 []).polyOf 4).since.toNat + 100000 * (poly 2 []).get (R.POLY_STARTB_RAMPT 4) ≤ (poly 2 []).now ∧
      fresh.get (R.POLY_STAT_STATE 4) = 3 ∧ fresh.on (R.POLY_CFG_SENSE 4) = false ∧ (floating fresh 4).1 < 3 ∧
      crossingStamp fresh 4 (fresh.now * 8 + 7) = some (fresh.now * 8 + 7) ∧ crossingStamp early 4 (early.now * 8) = none ∧
      early.get (R.POLY_STAT_STATE 4) = 3 ∧ crossingStamp ramp 4 (ramp.now * 8) = some (ramp.now * 8) ∧
      ramp.get (R.POLY_STAT_STATE 4) = 2 ∧ (ramp.polyOf 4).last = some 7999999000 ∧ ramp.get (R.POLY_T60 4) = 1000 ∧
      (ramp.now * 8 = 7999999000 + 1000) ∧ on.on (R.POLY_STAT_SWB 4) = false ∧ (fresh.polyOf 4).last = none ∧
      (poly 3 [(R.POLY_CFG_SENSE 4, 1)]).on (R.POLY_CFG_SENSE 4) = true ∧ hallStep 3 = some 5 ∧
      (run.polyOf 4).comDue = some 0 ∧ (run.polyOf 4).last = some 0 ∧ (run.polyOf 4).refAt + 2 * run.get (R.POLY_T60 4) ≤ run.now * 8 ∧
      (run.polyOf 4).bad + 1 < run.get (R.POLY_CATCH_LOSTN 4) ∧ (poly 4 []).get (R.POLY_STAT_STATE 4) = 4 ∧
      ((poly 4 []).polyOf 4).since.toNat + 100000 * (poly 4 []).get (R.POLY_CATCH_CATCHT 4) ≤ (poly 4 []).now ∧
      i on ≤ (guard16 on (0x116 + 16 * 4) : Int) ∧ (guard16 hi (0x116 + 16 * 4) : Int) < i hi ∧ 1 ≤ (hi.polyOf 4).peak := by
  decide +kernel

theorem witness_AxisDrivesAndChopper :
    let on : Mach := (reg [(R.SRV_CFG_EN 7, 1), (R.STP_CFG_EN 11, 1), (R.SRV_CFG_ISC 7, 256), (R.STP_CFG_ISC 11, 256)]).mach
    let hi : Mach := { on with shunt := [(5 + 3 * 7, (4095, 2048)), (29 + 2 * 11, (4095, 2048))],
                               drv := { on.drv with srv := [(7, { peak := 1 })], stp := [(11, { peak := 1 })] } }
    let rest : Mach := tickAt 10000000000 on
    let brk (v : Nat) (l : List (FRef × Nat)) : Mach := (at_ fun m =>
      { tickAt 100000000 (regs ([(R.SRV_BRKSTAT_ON, 1), (R.SRV_BRKSTAT_VBUS, 2400), (R.SRV_BRKCHK_BISC, 256)] ++ l) m) with
        drv := { m.drv with brkCur := true, brkRise := true, brkV := v } }).mach
    let cur : Mach := { brk 2400 [] with shunt := [(53, (4095, 2048))] }
    let strong : Mach := { (regs [(R.STP_STAT_STRONG 11, 1), (R.STP_STRG_TOFF 11, 1)] on) with drv := { on.drv with stp := [(11, {})] } }
    strong.on (R.STP_STAT_STRONG 11) = true ∧ strong.now < (strong.stpOf 11).chopA.since.toNat + 10 * strong.get (R.STP_STRG_TOFF 11) ∧
      (strong.stpOf 11).chopA.on = false ∧ strong.on (R.STP_CFG_EN 11) = true ∧ on.on (R.STP_STAT_STRONG 11) = false ∧
    on.on (R.SRV_CFG_EN 7) = true ∧ driveHeld (32 + 7) on = false ∧ on.on (R.SRV_STAT_OC 7) = false ∧
      on.on (R.SRV_STAT_SWB 7) = false ∧ (srvPhases on 7).1.natAbs ≤ 3 * guard16 on (0x162 + 4 * 7) ∧
      (srvPhases on 7).2.1.natAbs ≤ 3 * guard16 on (0x162 + 4 * 7) ∧ (srvPhases on 7).2.2.natAbs ≤ 3 * guard16 on (0x162 + 4 * 7) ∧
      3 * guard16 hi (0x162 + 4 * 7) < (srvPhases hi 7).1.natAbs ∧ 1 ≤ (hi.srvOf 7).peak ∧ on.on (R.STP_CFG_EN 11) = true ∧
      driveHeld (64 + 11) on = false ∧ on.on (R.STP_STAT_OC 11) = false ∧ on.on (R.STP_STAT_SWB 11) = false ∧
      (shuntMa (shuntOf on (29 + 2 * 11)).1 256).natAbs ≤ guard16 on (0x182 + 4 * 11) ∧
      guard16 hi (0x182 + 4 * 11) < (shuntMa (shuntOf hi (29 + 2 * 11)).1 256).natAbs ∧ 1 ≤ (hi.stpOf 11).peak ∧
      rest.get (R.MOT_STAT_PHASE (8 + 11)) = 0 ∧ rest.on (R.STP_STAT_HOLDING 11) = false ∧
      (rest.axis (8 + 11)).restAt.toNat + 100000 * rest.get (R.STP_HOLD_HOLDT 11) ≤ rest.now ∧
      cur.on R.SRV_BRKSTAT_ON = true ∧ cur.drv.brkCur = true ∧ cur.drv.brkAt.toNat + 2000 ≤ cur.now ∧
      (cur.get R.SRV_BRKCHK_IMIN * 50 : Int) < shuntMa (shuntOf cur 53).1 (cur.get R.SRV_BRKCHK_BISC) ∧
      shuntMa (shuntOf (brk 2400 []) 53).1 ((brk 2400 []).get R.SRV_BRKCHK_BISC) ≤ ((brk 2400 []).get R.SRV_BRKCHK_IMIN * 50 : Int) ∧
      cur.drv.brkRise = true ∧ cur.drv.brkAt.toNat + 1000 * max 1 (cur.get R.SRV_BRKCHK_TRISE) ≤ cur.now ∧
      cur.get R.SRV_BRKSTAT_VBUS ≤ cur.drv.brkV + 50 ∧ (brk 0 []).drv.brkV + 50 < (brk 0 []).get R.SRV_BRKSTAT_VBUS := by
  decide +kernel

/-! DRAM, rings, translation, DMA and the host link. -/

/-- Everything powered, the DRAM trained, and registers set further; TICK at 100 s. -/
def live (l : List (FRef × Nat)) (f : Mach → Mach := id) : Mach := (at_ fun m =>
  f (tickAt 10000000000 (regs ([powered, (R.DRC_CFG_EN, 1), (R.DRC_STAT_TRAINED, 1), (R.DRC_STAT_SELFREF, 0),
    (R.CLK_SYN_STAT_LOCK 1, 1), (R.CLK_SYN_CFG_NINT 1, 16), (R.CLK_SYN_CFG_PDIV 1, 0)] ++ l) m))).mach

theorem witness_DramAndEndpoint :
    let m := live [(R.DRC_TRN_RTPER, 1), (R.DRC_STAT_RTDUE, 1), (R.PCIE_CFG_LINKEN, 1), (R.PCIE_CFG_MAXGEN, 3), (R.PCIE_B4BASE_BASE, 0x40)]
      fun m => { m with sheets := [(0, { state := .caught })], hif := { m.hif with bar4 := some true } }
    let off := live [(R.DRC_CFG_EN, 0)]
    let tr := live [(R.DRC_STAT_TRAINED, 0)]
    let pba := live [(⟨(R.DMA_MSIXP_PBA 1).key, 31, 31⟩, 1)]
    let owed := live [(R.DRC_REFSTAT_OWED, 8)] fun m => { m with sheets := [(0, { state := .caught })] }
    let req (v : Bool) (t : Tick) : DramReq := { video := v, opn := true, bank := 1, row := 2, at_ := t }
    let chn (q : List DramReq) (h : Nat) : DramChan := { queue := q, rows := [(1, 2)], hits := h }
    imagingClass owed = true ∧ 8 ≤ owed.get R.DRC_REFSTAT_OWED ∧ owed.dram.refAt + refreshEvery owed ≤ owed.now * 40 ∧
      owed.on R.DRC_STAT_SELFREF = false ∧ imagingClass off = false ∧
      (chn [req false 0] 0).queue[0]? = some (req false 0) ∧ (chn [req false 0] 0).queue.any (chn [req false 0] 0).hit = true ∧
      nextRequest off (chn [req false 0] 0) = 0 ∧ ((chn [] 0).rows.map (·.1)).Nodup ∧
    letsB (reg [powered]) sup false R.DRC_CFG_EN.key = true ∧ off.on R.DRC_CFG_EN = false ∧
      (off.on (R.CLK_SYN_STAT_LOCK 1) = true ∧ rateOf (R.DRC_CFG_RATE.of 1) ≠ 0 ∧ R.DRC_CFG_DENS.of 1 ≠ 3 ∧
        rateFits off (rateOf (R.DRC_CFG_RATE.of 1)) = true) ∧ State.reset.mach.on (R.CLK_SYN_STAT_LOCK 1) = false ∧ off.pend = [] ∧
      tr.on R.DRC_CFG_EN = true ∧ tr.on R.DRC_STAT_TRAINED = false ∧ tr.on (R.CLK_SYN_STAT_LOCK 1) = true ∧ domUp 9 tr = true ∧
      m.on R.DRC_CFG_EN = true ∧ imagingClass m = true ∧ m.get R.DRC_REFSTAT_OWED < 8 ∧ m.dram.mr4At.toNat + 1600000 ≤ m.now ∧
      m.on R.DRC_STAT_TRAINED = true ∧ m.get R.DRC_TRN_RTPER ≠ 0 ∧
      m.dram.oscAt.toNat + 100000 * m.get R.DRC_TRN_RTPER ≤ m.now ∧ m.on R.DRC_STAT_RTDUE = true ∧ m.dram.retrain = false ∧
      (m.vidOf 0).stamps = [] ∧ feedersAhead m = true ∧ m.dram.lateSent = false ∧
      m.dram.dueAt.toNat + 100000 * m.get R.DRC_TRN_RTWAIT ≤ m.now ∧
      (live [] fun m => { m with dram := { m.dram with retrain := true } }).dram.retrain = true ∧ hostReach m = true ∧
      m.hif.reqs = [] ∧ m.hif.perst = false ∧ domUp 10 m = true ∧ m.on R.PCIE_CFG_LINKEN = true ∧ 3 ≤ m.get R.PCIE_CFG_MAXGEN ∧
      m.word (R.DMA_MSIXP_PBA (63 / 32)).key &&& BitVec.ofNat 32 (2 ^ (63 % 32)) = 0 ∧
      pba.word (R.DMA_MSIXP_PBA (63 / 32)).key &&& BitVec.ofNat 32 (2 ^ (63 % 32)) ≠ 0 ∧ hostReach pba = true ∧
      m.hif.bar4 = some true ∧ dramHeld m = false ∧ domUp 9 m = true ∧
      0x0400000000 ≤ m.get R.PCIE_B4BASE_BASE * 2 ^ 28 + 65535 / 4 * 4 ∧
      m.get R.PCIE_B4BASE_BASE * 2 ^ 28 + 65535 / 4 * 4 < 0x0400000000 + dramMib m * 2 ^ 20 ∧ (State.memOk State.reset) := by
  unfold State.memOk; decide +kernel

/-- Ring 31 of 16 slots, with registers set further. -/
def hostRing (l : List (FRef × Nat)) (f : HostIf → HostIf := id) : Mach :=
  live ([(R.RING_CFG_LOG2N 31, 4), (R.RING_CFG_EN 31, 1), (R.RING_CFG_PSIDE 31, 1), (R.RING_CFG_CSIDE 31, 1),
    (R.RING_BASE_LO_BASE 31, 0x30500000), (R.DATU_CFG_EN, 1), (R.DATU_CFG_PRRING, 31)] ++ l) fun m => { m with hif := f m.hif }

theorem witness_RingsAndTranslation :
    let off := hostRing [(R.RING_CFG_EN 31, 0)]
    let m := hostRing []
    let full := hostRing [(R.RING_PIDX 31, 16)]
    let irq := hostRing [(R.RING_MOD_ITIME 31, 1), (R.RING_CFG_IRQEN 31, 1)] fun h => { h with rings := [(31, {})] }
    let wk (q : Nat) : Walk := { req := q, addr := hostWindow, wr := false }
    let walk (q : Nat) := hostRing [] fun h => { h with walks := [wk q] }
    let ask := hostRing [(R.RING_CFG_PSIDE 31, 2)] fun h => { h with reqs := [{ req := 24, addr := hostWindow, wr := false, perm := false }] }
    let ack := hostRing [] fun h => { h with reqs := [{ req := 24, addr := hostWindow, wr := false, perm := false, tag := some 0 }] }
    let tab : Mem := (Mem.hostWrBytes {} 0 (leBytes 8 0x1001)).hostWrBytes 0x1000 (leBytes 8 0x2007)
    let hit := hostRing [] fun h => { h with tlb := [(0, [{ page := 0, frame := 2, r := true, w := true }])] }
    let fr : Mach := { hit with snap := { hit.snap with frames := [(0, [])] } }
    hostReach m = true ∧ letsB (reg [powered]) sup false (R.RING_CFG_EN 31).key = true ∧ off.on (R.RING_CFG_EN 31) = false ∧
      ringOk off 31 (withBits (BitVec.ofNat 32 (4 * 2 ^ (R.RING_CFG_LOG2N 31).lo)) 0 0 1) = true ∧ off.pend = [] ∧
      ringOk off 31 (withBits 0 0 0 1) = false ∧ letsB (reg [powered]) .host false (R.RING_PIDX 31).key = true ∧
      m.get (R.RING_CFG_PSIDE 31) = 1 ∧ ((1 : Word).toNat + 2 ^ 32 - m.get (R.RING_PIDX 31)) % 2 ^ 32 < 2 ^ 31 ∧
      ringCount (m.set (R.RING_PIDX 31) 1) 31 ≤ ringSize m 31 ∧ ask.get (R.RING_CFG_PSIDE 31) ≠ 1 ∧
      ¬ringCount (m.set (R.RING_PIDX 31) 17) 31 ≤ ringSize m 31 ∧
      letsB (reg [powered]) .host false (R.RING_CIDX 31).key = true ∧ full.get (R.RING_CFG_CSIDE 31) = 1 ∧
      ringCount (full.set (R.RING_CIDX 31) 16) 31 ≤ ringSize full 31 ∧ tfind 31 irq.hif.rings = some {} ∧
      irq.get (R.RING_MOD_ITIME 31) ≠ 0 ∧ irq.on (R.RING_CFG_IRQEN 31) = true ∧
      0 + 100 * irq.get (R.RING_MOD_ITIME 31) ≤ irq.now ∧ (walk 26).hif.walks.find? (·.req == 26) = some (wk 26) ∧
      xlatAbort (walk 26) 0 = false ∧ (wk 26).inval = false ∧ (tableWalk (walk 26) tab 0).any (·.allows false) = true ∧
      (walk 24).hif.walks.find? (·.req == 24) = some (wk 24) ∧ tableWalk (walk 24) {} 0 = none ∧
      ask.hif.reqs.findIdx? (·.tag.isNone) = some 0 ∧ (ask.hif.reqs[0]?).isSome = true ∧
      (ringPut (ask.get R.DATU_CFG_PRRING) 2 (pageRecord ask { req := 24, addr := hostWindow, wr := false, perm := false } 0)
        ask {}).1 = true ∧ letsB State.reset sup false R.DATU_PRACK_TAG.key = true ∧
      (ack.hif.reqs.find? (·.tag == some (R.DATU_PRACK_TAG.of 0))).isSome = true ∧ R.DATU_PRACK_FAIL.of 0 = 0 ∧
      ack.hif.walks.any (·.req == 24) = false ∧ letsB State.reset sup false R.DATU_INVPAGE_PAGE.key = true ∧
      (hit.hif.tlb.map (·.1)).Nodup ∧ letsB State.reset sup false R.DATU_INVALL_ALL.key = true ∧ R.DATU_INVALL_ALL.of 1 = 1 ∧
      fr.snap.frames = (0, []) :: [] ∧ hostHeld fr = false ∧ fr.hif.walks.any (·.req == 24) = false ∧
      fr.hif.reqs.any (·.req == 24) = false ∧ datuLook fr (hsfAddr fr 0) true = .hit 0x2000 := by decide +kernel

/-- DMA channel 23 in a state, copying 64 bytes within shared SRAM. -/
def chan (st : Nat) (c : Chan) (l : List (FRef × Nat) := []) : Mach :=
  live ([(R.DMA_CFG_EN 23, 1), (R.DMA_STAT_STATE 23, st), (R.PEAT_CTL_EN, 0),
    (⟨(R.DMA_SHD_TD 23 0).key, 31, 0⟩, 0x30500000), (⟨(R.DMA_SHD_TD 23 2).key, 31, 0⟩, 0x30600000),
    (⟨(R.DMA_SHD_TD 23 6).key, 31, 0⟩, 64), (⟨(R.DMA_SHD_TD 23 7).key, 31, 0⟩, 1),
    (⟨(R.DMA_ACT_TD 23 0).key, 31, 0⟩, 0x30500000), (⟨(R.DMA_ACT_TD 23 2).key, 31, 0⟩, 0x30600000),
    (⟨(R.DMA_ACT_TD 23 6).key, 31, 0⟩, 64), (⟨(R.DMA_ACT_TD 23 7).key, 31, 0⟩, 1)] ++ l)
    fun m => { m with hif := { m.hif with chans := [(23, c)] } }

theorem witness_DmaChannels :
    let idle := chan dIdle {}
    let run := chan dRun { act := true }
    let busy : Mach := (regs [(R.DMA_CFG_CLS 0, 1), (R.DMA_CFG_EN 0, 1), (R.DMA_STAT_STATE 0, dRun)] run).onHif fun h =>
      { h with chans := (0, { act := true }) :: h.chans }
    let fetch := chan dRun { act := true, fetch := some 0x30500000 }
    let done := chan dRun { act := true, done := true, mism := true }
    let wait := chan dWait { act := true, waitAt := some 0 } [(R.DMA_WTO 23, 1)]
    letsB State.reset sup false (R.DMA_CTL_GO 23).key = true ∧ idle.pwr.restart = false ∧ idle.get R.PWR_DOMSTAT_PEND = 0 ∧
      chanOwned idle 23 = false ∧ idle.get (R.DMA_STAT_STATE 23) = dIdle ∧ idle.on (R.DMA_CFG_EN 23) = true ∧
      idle.on (R.DMA_STAT_SHVALID 23) = false ∧ run.get (R.DMA_STAT_STATE 23) ≠ dIdle ∧ (run.chan 23).fetch = none ∧
      tdValid idle 23 (shdW idle 23) = true ∧ (fetch.chan 23).fetch = some 0x30500000 ∧ fetch.hif.walks = [] ∧
      fetch.hif.reqs = [] ∧ (fetch.chan 23).act = true ∧ dmaStop fetch false 0x30500000 64 = none ∧
      placeOf fetch 0x30500000 ≠ .dram ∧ chanReady busy 23 = true ∧ burstGranted busy 23 = false ∧ chanReady run 23 = true ∧
      burstGranted run 23 = true ∧ tdOp run 23 = 0 ∧ bitsOf (actW run 23 8) 3 2 = 0 ∧ 0x30500000 ≤ nextSrc run 23 ∧
      nextSrc run 23 + burstLen run 23 ≤ 0x307F0000 ∧ 0x30500000 ≤ nextDst run 23 ∧
      nextDst run 23 + burstLen run 23 ≤ 0x307F0000 ∧ (done.chan 23).done = true ∧ bitOf (actW done 23 8).toNat 4 = false ∧
      bitOf (actW done 23 8).toNat 5 = false ∧ dramHeld run = false ∧ (wait.chan 23).waitAt = some 0 ∧
      wait.get (R.DMA_STAT_STATE 23) = dWait ∧ wait.get (R.DMA_WTO 23) ≠ 0 ∧ 0 + 100000 * wait.get (R.DMA_WTO 23) ≤ wait.now := by
  decide +kernel

/-! Domains, rails and shutdown. -/

/-- The rail sequencer in a state at slot 0, with slots still to come. -/
def rails (st : Nat) (delay : Bool) (next : List Nat) (l : List (FRef × Nat)) : Mach := (at_ fun m =>
  { tickAt 10000000000 (regs ([(R.PWR_SEQSTAT_STATE, st), (R.PWR_SEQSTAT_SLOT, 0), (R.PWR_RAILCFG_EN 0, 1)] ++ l) m) with
    pwr := { m.pwr with slots := next, inDelay := delay } }).mach

theorem witness_RailSequencer :
    let off := rails seqOff false [] []
    let on := rails seqOn false [] [(R.PWR_RAILSTAT_ENOUT 0, 1)]
    let up := rails seqUp false [15] []
    let down := rails seqDown false [15] []
    let pmb (cmd tries : Nat) (m : Mach) : Mach := { m with pwr := { m.pwr with pmb := [(0, (cmd, 0, tries))] } }
    let poll := rails seqOn false [] [(R.PWR_RAILCFG_KIND 0, 1), (R.PWR_RAILCFG_PGSRC 0, 1)]
    letsB State.reset sup false R.PWR_SEQCTL_UP.key = true ∧ (rails seqLatched false [] [(R.PWR_FAIL_LATCH, 1)]).get R.PWR_FAIL_LATCH ≠ 0 ∧
      off.get R.PWR_FAIL_LATCH = 0 ∧ off.get R.PWR_SEQSTAT_STATE = seqOff ∧ railOrder (reg []).mach = [] ∧
      railOrder off = 0 :: [] ∧ on.get R.PWR_SEQSTAT_STATE = seqOn ∧ (railOrder on).reverse = 0 :: [] ∧
      on.on (R.PWR_RAILSTAT_FAILED 0) = false ∧ pgSrc 0 off = 0 ∧ up.get R.PWR_SEQSTAT_STATE = seqUp ∧ railSlot up = 0 ∧
      up.pwr.inDelay = false ∧ up.pwr.railAt.toNat + 10000 * up.get (R.PWR_RAILTIM_PGTO 0) ≤ up.now ∧
      pgSrc 0 (rails seqUp false [] [(R.PWR_RAILCFG_PGSRC 0, 3)]) = 2 ∧ (rails seqUp true [] []).pwr.inDelay = true ∧
      up.pwr.railAt.toNat + 10000 * up.get (R.PWR_RAILTIM_UPDLY 0) ≤ up.now ∧ up.pwr.slots = 15 :: [] ∧
      down.get R.PWR_SEQSTAT_STATE = seqDown ∧ down.pwr.railAt.toNat + 10000 * down.get (R.PWR_RAILDIS_DISTO 0) ≤ down.now ∧
      down.pwr.railAt.toNat + 10000 * down.get (R.PWR_RAILDIS_DNDLY 0) ≤ down.now ∧ down.on (R.PWR_RAILSTAT_FAILED 15) = false ∧
      on.on (R.PWR_RAILCFG_EN 0) = true ∧ on.on (R.PWR_RAILSTAT_ENOUT 0) = true ∧ pgSrc 0 on ≠ 2 ∧
      (rails seqOn false [] [(R.PWR_RAILCFG_CRIT 0, 1)]).on (R.PWR_RAILCFG_CRIT 0) = true ∧
      (rails seqOn false [] [(R.PWR_RAILCFG_CRIT 0, 0)]).on (R.PWR_RAILCFG_CRIT 0) = false ∧
      tfind 0 (pmb 0x79 2 up).pwr.pmb = some (0x79, 0, 2) ∧ bitOf 0 11 = false ∧ waiting seqUp 0 (pmb 0x79 2 up) = true ∧
      on.pwr.restart = false ∧ on.pwr.after = 0 ∧ tfind 0 (pmb 1 1 up).pwr.pmb = some (1, 0, 1) ∧ poll.on (R.PWR_RAILCFG_EN 0) = true ∧
      poll.on (R.PWR_RAILCFG_KIND 0) = true ∧ pgSrc 0 poll = 1 ∧ thas 0 poll.pwr.pmb = false ∧ tfind 0 poll.pwr.polled = none := by
  decide +kernel

theorem witness_DomainsAndShutdown :
    let down := (reg [(R.PWR_DOMREQ_ON, 0x003), (R.PWR_DOMSTAT_UP, 0x003), (R.DRC_STAT_TRAINED, 1)]).mach
    let up := (reg [(R.PWR_DOMREQ_ON, 0x80B), (R.PWR_DOMSTAT_UP, 0x80B), (R.SCL_CTL_EN, 1)]).mach
    let used := chan dRun { act := true } [(R.PWR_DOMREQ_ON, 0xFFF), (⟨(R.DMA_ACT_TD 23 0).key, 31, 0⟩, 0x20010000)]
    let held := chan dRun { act := true } [(R.PWR_DOMSTAT_PEND, 2 ^ 2), (⟨(R.DMA_ACT_TD 23 0).key, 31, 0⟩, 0x20010000)]
    let held : Mach := { held with pwr := { held.pwr with heldAt := [(2, 0)] } }
    let latched := rails seqLatched false [] [(R.PWR_FAIL_LATCH, 1)]
    let rest : Mach := { latched with pwr := { latched.pwr with offAt := some 0 } }
    letsB State.reset sup false R.PWR_DOMREQ_ON.key = true ∧ down.get R.PWR_DOMREQ_ON = 3 ∧ bitOf 0x803 11 = true ∧
      (∀ j, j < 12 → (bitOf 0x003 j ≠ bitOf 0x803 j ↔ j = 11)) ∧ down.on R.DRC_STAT_TRAINED = true ∧ domUp 11 down = false ∧
      bitOf 0x803 3 = false ∧ domRefused 3 up = true ∧ domUp 11 up = true ∧ domRefused 11 up = false ∧ domUsed up 11 = false ∧
      domRefused 2 used = false ∧ domUp 2 used = true ∧ domUsed used 2 = true ∧
      bitOf (at_ fun m => { m with pwr := { m.pwr with coming := 2 ^ 11 } }).mach.pwr.coming 11 = true ∧
      tfind 2 held.pwr.heldAt = some 0 ∧ held.get R.PWR_DOMSTAT_PEND = 2 ^ 2 ∧ chansOn held 2 = [23] ∧ chanOwned held 23 = false ∧
      0 + 100 * held.get R.DMA_GCFG_PDTO ≤ held.now ∧ letsB State.reset sup false R.PWR_LATCHCLR_KEY.key = true ∧
      32 ≤ Requester.id sup ∧ Requester.id sup < 36 ∧ R.PWR_LATCHCLR_KEY.of 0xC3 = 0xC3 ∧
      latched.get R.PWR_SEQSTAT_STATE = seqLatched ∧ latched.pwr.shutdown = false ∧ rest.pwr.offAt = some 0 ∧
      0 + 100000 * clampN 100 60000 (rest.get R.PWR_ACCFG_OFFT) ≤ rest.now ∧
      letsB State.reset sup false R.SYS_SWRST_KEY.key = true ∧ R.SYS_SWRST_KEY.of 0x96 = 0x96 ∧
      State.reset.mach.get R.PWR_SEQSTAT_STATE = seqOff ∧ State.reset.mach.pwr.shutdown = false ∧
      State.reset.mach.pwr.restart = false ∧ down.pend = [] ∧ up.pend = [] ∧ held.pend = [] ∧ latched.pend = [] := by
  decide +kernel

/-! Faults, ALIVE, the interlock, Fjarilink, identity and the loader. -/

/-- A collector that holds one source record, and its class record. -/
def heldRec (src kind cls : Nat) (l : List (FRef × Nat) := []) : Mach := live l fun m =>
  let r : FltRec := { held := true, src := src, kind := kind, cls := cls }
  { m with flt := { m.flt with srcs := [(src, r)], clss := [(cls, r)] } }

theorem witness_FaultCollector :
    let m := heldRec 0x300 0x10 2
    let clk := heldRec 0x017 0x04 2
    let freed (m : Mach) (src : Nat) : Mach :=
      { m with flt := { m.flt with srcs := tput src { tget {} src m.flt.srcs with held := false } m.flt.srcs } }
    let alive := live [(R.FLT_ALIVE_EN, 1)]
    let kick := live [(R.FLT_KICK_KWIN, 1)] fun m => { m with flt := { m.flt with kickFrom := some 0 } }
    let busy := live [] fun m => { m with sheets := [(2, { state := .imaging })] }
    (tget {} 0x300 State.reset.mach.flt.srcs).held = false ∧ (tget {} 0x300 m.flt.srcs).held = true ∧
      letsB State.reset sup false R.FLT_CLR_SRC.key = true ∧
      R.FLT_CLR_CREC.of 0x300 = 0 ∧ R.FLT_CLR_SRC.of 0x300 = 0x300 ∧ stands (tget {} 0x300 m.flt.srcs) (freed m 0x300) = false ∧
      R.FLT_CLR_SRC.of 0x017 = 0x017 ∧ (tget {} 0x017 clk.flt.srcs).held = true ∧
      stands (tget {} 0x017 clk.flt.srcs) (freed clk 0x017) = true ∧
      alive.on R.FLT_ALIVE_EN = true ∧ aliveHeld alive = false ∧
      multipleIn (aliveHalf alive) 0 alive.flt.aliveFrom.toNat alive.now = true ∧
      letsB State.reset sup false R.FLT_ALIVE_EN.key = true ∧ State.reset.mach.pend = [] ∧
      letsB State.reset sup false R.FLT_KICK.key = true ∧ R.FLT_ALIVE_EN.of (withBits 0 R.FLT_ALIVE_EN.lo R.FLT_ALIVE_EN.hi 1) = 1 ∧
      R.FLT_KICK_KWIN.of 0 = 0 ∧ kick.flt.kickFrom = some 0 ∧ 0 + 100000 * kick.get R.FLT_KICK_KWIN < kick.now ∧ m.heldEdges = [] ∧
      (∀ n, n < 5 → m.on (R.VID_PLOCK_LOCK n) = false) ∧
      (recsIn (·.engaged) busy).any (fun r => (busy.sheet r).state != .admitted || pastLock (busy.sheet r) busy) = true ∧
      (busy.sheet 2).state.engaged = true ∧ (busy.sheet 2).state ≠ .admitted := by decide +kernel

theorem witness_NotesAndLostMessages :
    let m := live [(R.FLT_CTL_AUTONOTE, 1)]
    let h : Mach := { m with flt := { m.flt with srcs := [(0x300, { held := true, src := 0x300 })] } }
    let c : Mach := { h with flt := { h.flt with clss := [(2, { held := true, cls := 2 })] } }
    (∀ j, (tget {} j c.flt.clss).held = true → (tget {} j c.flt.clss).cls = j) ∧ m.on R.FLT_CTL_AUTONOTE = true ∧
      (tget {} 0x300 m.flt.srcs).held = false ∧ (tget {} 0x300 h.flt.srcs).held = true ∧
      h.get R.FLT_LOSTCNT_LOST < 2 ^ 32 - 1 ∧ h.heldEdges = [] ∧
      (∀ n, n < 5 → h.on (R.VID_PLOCK_LOCK n) = false) ∧ (tget {} 2 h.flt.clss).held = false ∧ (tget {} 2 c.flt.clss).held = true := by
  refine ⟨fun j h => ?_, by decide +kernel⟩
  by_cases e : j = 2
  · subst e; rfl
  · rw [tget_of_not_mem] at h
    · cases h
    · simpa using e

/-- A frame from node 5, of class 2. -/
def frame5 (cls dst : Nat) (body : List Word) : Frame :=
  { cls := cls, grp := false, bc := false, typ := 1, hops := 255, dst := dst, src := 5, lseq := 7, body := body }

/-- Node 1 of a line whose two ports are up. -/
def linked (l : List (FRef × Nat)) (f : Fjl → Fjl := id) : Mach :=
  live ([(R.FJL_CTL_EN, 1), (R.FJL_NODE_ADDR, 1), (R.FJL_PSTAT_UUP, 1), (R.FJL_PSTAT_DUP, 1)] ++ l)
    fun m => { m with fjl := f m.fjl }

/-- A word and the next differ. -/
theorem word_succ_ne (x : Word) : x + 1 ≠ x := by bv_omega

theorem witness_PortsAndFrames :
    let down := linked [(R.FJL_PSTAT_UUP, 0)] fun j => { j with routes := [(5, { up := some { hops := 0, at_ := 0 } })] }
    let up := linked []
    let u (n : Nat) : Unacked := { frame := frame5 2 5 [], tries := n, at_ := 0 }
    let waits (n : Nat) := linked [] fun j => { j with unacked0 := [u n] }
    let own : Frame := { frame5 0 0 [1, Config.unitId.truncate 32 + 1] with src := 1 }
    (okFrame own = true ∧ own.body.getD 1 0 ≠ Config.unitId.truncate 32) ∧
      okFrame (frame5 2 0 []) = true ∧ down.on R.FJL_CTL_EN = true ∧ portUp 0 down = false ∧
      ((5, { up := some { hops := 0, at_ := 0 } }) ∈ down.fjl.routes) ∧ up.fjl.helloAt.toNat + 100000 ≤ up.now ∧
      (frame5 0 0 []).src ≠ ownAddr up ∧ own.src = ownAddr up ∧ dupSeen up = false ∧
      (waits 1).fjl.unacked0.find? (fun u => u.at_.toNat + 2000 ≤ (waits 1).now) = some (u 1) ∧ (u 1).tries < 5 ∧
      (waits 5).fjl.unacked0.find? (fun u => u.at_.toNat + 2000 ≤ (waits 5).now) = some (u 5) ∧ 5 ≤ (u 5).tries ∧
      portUp 0 up = true :=
  ⟨⟨rfl, word_succ_ne _⟩, by decide +kernel⟩

theorem witness_TimeAndGroups :
    let m := linked [(R.FJL_PSTAT_TPORT, 1)]
    let track := linked [(R.FJL_PSTAT_TPORT, 1), (R.FJL_PSTAT_TSTATE, tTrack)] fun j => { j with t1 := some 9 }
    let hold := linked [(R.FJL_PSTAT_TSTATE, tHoldover), (R.FJL_GRP_ROLE, 2)]
    let evt := linked [] fun j => { j with users := [{ due := 8, code := 3, value := 4 }] }
    let slave := linked [(R.FJL_GRP_ROLE, 2), (R.FJL_GMEM_ADDR 0, 5)]
    let master := linked [(R.FJL_GRP_ROLE, 1), (R.FJL_GMEM_ADDR 0, 5)]
    let far := linked [(R.FJL_GRP_ROLE, 1), (R.FJL_GCATCH_T 1, 0x1000)]
    let farSlave := linked [(R.FJL_GRP_ROLE, 2), (R.FJL_GCATCH_T 1, 0x1000)]
    let f := frame5 2 0 [1, 0, 0x1000, 0, 0x1000]
    (okFrame f = true ∧ m.on R.FJL_CTL_EN = true ∧ portUp 0 m = true ∧ frameMine f m = true ∧ f.src ≠ ownAddr m) ∧
      0 < m.get R.FJL_PSTAT_TPORT ∧ m.get R.FJL_PSTAT_TPORT < 3 ∧ portUp (m.get R.FJL_PSTAT_TPORT - 1) m = true ∧
      m.fjl.reqAt.toNat + syncPeriod m ≤ m.now ∧ (frame5 1 0 [9]).dst = 0 ∧ okFrame (frame5 1 0 [9]) = true ∧
      frameMine (frame5 1 0 [9]) track = true ∧ track.fjl.t1 = some (stampAt (frame5 1 0 [9]).body 0) ∧
      track.get R.FJL_PSTAT_TPORT = 0 + 1 ∧ track.get R.FJL_PSTAT_TSTATE = tTrack ∧
      track.fjl.exAt.toNat + 8 * syncPeriod track ≤ track.now ∧ hold.get R.FJL_PSTAT_TSTATE = tHoldover ∧
      groupRole hold = 2 ∧ hold.fjl.gtSent = false ∧ hold.fjl.holdAt.toNat + 100000 * hold.get R.FJL_TWIN_GHOLD ≤ hold.now ∧
      m.now ≤ localOf (pairAt f.body 3) m ∧ userFirst evt = some { due := 8, code := 3, value := 4 } ∧ localOf 8 evt ≤ evt.now ∧
      groupRole slave = 2 ∧ slave.now ≤ localOf (pairAt f.body 1) slave ∧ (tget {} 0x203 slave.flt.srcs).held = false ∧
      groupRole master = 1 ∧ 5 ∈ counterparts master ∧ 5 ∈ counterparts slave ∧ master.fjl.heartAt.toNat + 100000 ≤ master.now ∧
      tget false 5 master.fjl.lost = false ∧ (tget master.fjl.enAt 5 master.fjl.hearts).toNat + 1000000 ≤ master.now ∧
      letsB (reg [powered]) sup false R.FJL_GCGO_GO.key = true ∧
      (master.get (R.FJL_GCATCH_T 0) + master.get (R.FJL_GCATCH_T 1) * 2 ^ 32 <
        master.now + clampN 100000 100000000 (master.get R.FJL_GLEAD)) ∧
      ¬(far.get (R.FJL_GCATCH_T 0) + far.get (R.FJL_GCATCH_T 1) * 2 ^ 32 <
        far.now + clampN 100000 100000000 (far.get R.FJL_GLEAD)) ∧
      ¬(farSlave.get (R.FJL_GCATCH_T 0) + farSlave.get (R.FJL_GCATCH_T 1) * 2 ^ 32 <
        farSlave.now + clampN 100000 100000000 (farSlave.get R.FJL_GLEAD)) ∧ groupRole far = 1 ∧ groupRole farSlave ≠ 1 := by
  decide +kernel

/-- The resident loader asks a source, holds chunk 0 of an image of 12,288 bytes, and wants no other. -/
def loading (src : Nat) : Mach :=
  live [(R.FJL_CTL_EN, 1), (R.FJL_NODE_ADDR, 1), (R.FJL_PSTAT_UUP, 1), (R.RING_CFG_EN 0, 1), (R.RING_CFG_EN 1, 1),
    (R.RING_CFG_CSIDE 0, 0), (R.RING_CFG_PSIDE 1, 0), (R.RING_PIDX 0, 1), (R.RING_CFG_LOG2N 0, 4), (R.RING_CFG_LOG2N 1, 4),
    (R.RING_BASE_LO_BASE 0, 0x30500000), (R.RING_BASE_LO_BASE 1, 0x30501000), (R.DATU_CFG_EN, 1)]
    fun m =>
      let c : List Byte := List.replicate 0x20 0 ++ leBytes 4 8200
      let l : Loader := { want := some [], order := [src], chunk0 := some c }
      let h : HostIf := { m.hif with tlb := [(0, [{ page := 0, frame := 2, r := true, w := true }])] }
      { m with sec := { m.sec with loader := some l }, hif := h }

theorem witness_SecurityAndLoader :
    let m := live [(R.FJL_CTL_EN, 1), (R.FJL_NODE_ADDR, 1), (R.FJL_PSTAT_UUP, 1)]
    let busy (op : SecOp) : Mach := live [] fun m => { m with sec := { m.sec with run := some { op := op, arg := 0, q := 32 } } }
    let up := loading 1
    let host := loading 3
    let f := frame5 3 0 [0, 0, 2, 1, 2]
    let d0 : List Byte := List.replicate 32 0
    let d : List Byte := leBytes 8 0 ++ leBytes 4 2 ++ leBytes 4 8 ++ List.replicate 16 0
    let mem (d : List Byte) : Mem := Mem.wrBytes {} 0x30500000 d
    let l := (host.sec.loader).getD {}
    let m1 := (ringTake 0 0 (mem d) host).2
    let b := (hostFetch (mem d) 0 8 m1)
    (∃ j, j ≠ 0 ∧ j < chunkCount (((up.sec.loader).getD {}).chunk0.getD []) ∧ j ≠ 2 ∧
        ((up.sec.loader).getD {}).got.contains j = false) ∧
      State.reset.mach.pwr.restart = false ∧ letsB State.reset sup false R.SEC_OP.key = true ∧ m.sec.run = none ∧
      secRefuses .attest 0 m = false ∧ secRefuses .load 0 m = false ∧ secRefuses .keyprog 0 m = false ∧
      secRefuses .armupd 0 m = true ∧ secRefuses .load 15 m = true ∧ secRefuses .keyprog 3 m = true ∧
      secRefuses .armupd 0 { m with sec := { m.sec with checked := true } } = false ∧
      (busy .advance).sec.run = some { op := .advance, arg := 0, q := 32 } ∧ (busy .advance).sec.run ≠ none ∧
      m.on R.FJL_CTL_EN = true ∧ portUp 0 m = true ∧ f.cls = 3 ∧ f.dst = 0 ∧ f.src ≠ ownAddr m ∧ m.sec.loader = none ∧
      okFrame f = true ∧ (up.sec.loader).isSome = true ∧ ((up.sec.loader).getD {}).source = 0 + 1 ∧
      ((up.sec.loader).getD {}).id? = some (pairAt f.body 0) ∧ 2 < chunkCount (((up.sec.loader).getD {}).chunk0.getD []) ∧
      chunkLen (((up.sec.loader).getD {}).chunk0.getD []) 2 ≤ ((f.body.drop 3).flatMap fun w => leBytes 4 w.toNat).length ∧
      host.sec.loader = some l ∧ l.source = 3 ∧ ringCount host 1 < ringSize host 1 ∧
      (ringTake 0 0 (mem d0) host).1 = some d0 ∧ leAt d0 12 4 = 0 ∧ (ringTake 0 0 (mem d) host).1 = some d ∧
      leAt d 0 8 % 64 = 0 ∧ 0 < leAt d 12 4 ∧ leAt d 12 4 ≤ 4096 ∧ b.1.isSome = true ∧ leAt d 12 4 = 8 ∧
      (loaderChunk 3 (leAt d 16 8) (leAt d 8 4) (b.1.getD []) true b.2 (mem d)).1 = true ∧
      l.since.toNat + 1000000000 ≤ host.now :=
  ⟨⟨1, by decide +kernel⟩, by decide +kernel⟩

theorem witness_SealTakesStage : (1 : Nat) ≠ 0 ∧ (2 : Nat) ≠ 1 := by decide
theorem witness_SheetTransition : (State.reset.mach.sheet 0).state ≠ .admitted ∧ (1 : Nat) ≠ 0 := by decide +kernel

end Sys2Proof.Tests
end

section
/-! PROOFS. The throttle's speed step (R30): when it acts, what it then writes, and that it leaves the machine alone
outside a sheet gap. -/

namespace Sys2Proof.Machine

/-! ## Counting sheet records -/

/-- No record is in a state of p exactly when no listed record's state satisfies p. -/
theorem countIn_eq_zero_iff (p : SheetState → Bool) (m : Mach) :
    countIn p m = 0 ↔ ∀ c ∈ m.sheets, p c.2.state = false := by
  simp [countIn, recsIn]

/-- Two counts are both 0 exactly when the count of their union is (NADMIT + NBUSY = 0 in one count). -/
theorem countIn_or_eq_zero_iff (p q : SheetState → Bool) (m : Mach) :
    countIn (fun st => p st || q st) m = 0 ↔ countIn p m + countIn q m = 0 := by
  simp only [Nat.add_eq_zero_iff, countIn_eq_zero_iff, Bool.or_eq_false_iff]
  exact ⟨fun h => ⟨fun c hc => (h c hc).1, fun c hc => (h c hc).2⟩, fun h c hc => ⟨h.1 c hc, h.2 c hc⟩⟩

/-! ## Abandoning a mark frame -/

/-- Abandoning a mark frame changes no sheet record. -/
@[simp] theorem markAbandon_sheets (m : Mach) : (markAbandon m).sheets = m.sheets := by
  simp only [markAbandon]
  split
  · simp
  · rfl

/-- Abandoning a mark frame writes ADC_MKSTAT and what its note may change, and no field of another register. -/
theorem markAbandon_get (m : Mach) {f : FRef} (hq : quietKey f.key) (hk : f.key ≠ R.ADC_MKSTAT_ARMED.key) :
    (markAbandon m).get f = m.get f := by
  simp only [markAbandon]
  split
  · rw [(calm_note ..).get hq, (calm_assertEvent (K := quietKey) ..).get hq, Mach.get_set_ne (f := R.ADC_MKSTAT_ABAND) _ hk,
      Mach.get_set_ne (f := R.ADC_MKSTAT_ACTIVE) _ hk, Mach.get_set_ne _ hk]
    rfl
  · rfl

/-! ## The throttle step -/

/-- The condition of R30: the throttle is enforced, NADMIT + NBUSY = 0 and SPEED > TMAX. -/
abbrev ThrottleDue (m : Mach) : Prop :=
  m.on R.SLU_RSV_TENF = true ∧ countIn (· == .admitted) m + countIn (·.busy) m = 0 ∧
    m.get R.SLU_RSV_TMAX < m.get R.SLU_RSV_SPEED

/-- The machine with SPEED := TMAX and SPDOK cleared. -/
def throttled (m : Mach) : Mach := (m.set R.SLU_RSV_SPEED (m.get R.SLU_RSV_TMAX)).set R.SLU_RSV_SPDOK 0

theorem exec_throttleSpeedStep (s : State) :
    exec .throttleSpeedStep s = .next (s.onMach opThrottleSpeedStep) := rfl

/-- The model's one count of ADMITTED or busy records is R30's sum of two counts. -/
theorem opThrottleSpeedStep_eq (m : Mach) :
    opThrottleSpeedStep m = if ThrottleDue m then markAbandon (throttled m) else m := by
  refine if_congr ?_ rfl rfl
  simp only [Bool.and_eq_true, decide_eq_true_eq, and_assoc, countIn_or_eq_zero_iff]

@[simp] theorem throttled_sheets (m : Mach) : (throttled m).sheets = m.sheets := rfl

theorem throttled_speed (m : Mach) : (throttled m).get R.SLU_RSV_SPEED = m.get R.SLU_RSV_TMAX := by
  have hfit : m.get R.SLU_RSV_TMAX < 2 ^ 3 := m.get_lt R.SLU_RSV_TMAX
  rw [throttled, Mach.get_set_apart _ _ (by decide) (by decide) (by decide) (by decide),
    Mach.get_set_same _ _ _ (by decide) (by decide)]
  exact Nat.mod_eq_of_lt hfit

theorem throttled_spdok (m : Mach) : (throttled m).get R.SLU_RSV_SPDOK = 0 :=
  Mach.get_set_same _ _ _ (by decide) (by decide)

theorem throttled_tmax (m : Mach) : (throttled m).get R.SLU_RSV_TMAX = m.get R.SLU_RSV_TMAX := by
  rw [throttled, Mach.get_set_apart _ _ (by decide) (by decide) (by decide) (by decide),
    Mach.get_set_apart _ _ (by decide) (by decide) (by decide) (by decide)]

/-- A field of SLU_RSV after the throttle step: abandoning the mark frame does not touch that register. -/
theorem markAbandon_throttled_get (m : Mach) (f : FRef) (hf : f.key = R.SLU_RSV_SPEED.key) :
    (markAbandon (throttled m)).get f = (throttled m).get f :=
  markAbandon_get _ (by rw [hf]; simp [quietKey, R.SLU_RSV_SPEED]) (by rw [hf]; decide)

/-- Settles O25: the guard of the step is R30's condition, and the fields of SLU_RSV are then read off the writes,
which an abandoned mark frame leaves as they are. -/
theorem throttleStepInGap : Obligations.ThrottleStepInGap := by
  intro s
  refine ⟨fun (due : ThrottleDue s.mach) => ⟨_, exec_throttleSpeedStep s, ?_⟩, fun (idle : ¬ThrottleDue s.mach) => ?_⟩
  · have step : (s.onMach opThrottleSpeedStep).mach = markAbandon (throttled s.mach) :=
      (opThrottleSpeedStep_eq s.mach).trans (if_pos due)
    rw [step]
    exact ⟨(markAbandon_throttled_get _ R.SLU_RSV_SPEED rfl).trans (throttled_speed _),
      (markAbandon_throttled_get _ R.SLU_RSV_SPDOK rfl).trans (throttled_spdok _),
      (markAbandon_throttled_get _ R.SLU_RSV_TMAX rfl).trans (throttled_tmax _), by simp, rfl⟩
  · rw [exec_throttleSpeedStep, State.onMach, opThrottleSpeedStep_eq, if_neg idle]

end Sys2Proof.Machine
end

section
/-! PROOFS. The collector's records and LOSTCNT (R360-R363): what one message does to them, that none of its effects
touches them, and that a record, once held, stands through every message that follows. -/

namespace Sys2Proof.Machine

/-! ## What a message's effects spare -/

/-- The register blocks of the collector (LOSTCNT) and of the islands (the lock bits, which decide whether a class 4
trip sends messages of its own). -/
def watchedKey (key : Nat) : Prop := key / 65536 = 0x04 ∨ 0x10 ≤ key / 65536 ∧ key / 65536 ≤ 0x14

/-- The machine after has the collector, the held edges and the watched registers of the one before. -/
structure Spares (m m' : Mach) : Prop where
  part : m'.part = m.part
  heldEdges : m'.heldEdges = m.heldEdges
  flt : m'.flt = m.flt
  word : ∀ key, watchedKey key → m'.word key = m.word key

theorem Spares.refl (m : Mach) : Spares m m := ⟨rfl, rfl, rfl, fun _ _ => rfl⟩

theorem Spares.trans {a b c : Mach} (h : Spares a b) (g : Spares b c) : Spares a c where
  part := g.part.trans h.part
  heldEdges := g.heldEdges.trans h.heldEdges
  flt := g.flt.trans h.flt
  word key hk := (g.word key hk).trans (h.word key hk)

/-- A field of a watched register keeps its value. -/
theorem Spares.get {m m' : Mach} (h : Spares m m') {f : FRef} (hf : watchedKey f.key) : m'.get f = m.get f := by
  simp [Mach.get, h.word _ hf]

theorem Spares.lostcnt {m m' : Mach} (h : Spares m m') : m'.get R.FLT_LOSTCNT_LOST = m.get R.FLT_LOSTCNT_LOST :=
  h.get (.inl rfl)

theorem Spares.locked {m m' : Mach} (h : Spares m m') {n : Nat} (hn : n < 5) :
    m'.on (R.VID_PLOCK_LOCK n) = m.on (R.VID_PLOCK_LOCK n) := by
  have hk : watchedKey (R.VID_PLOCK_LOCK n).key := by simp only [watchedKey, R.VID_PLOCK_LOCK]; omega
  simp [Mach.on, h.get hk]

theorem spares_each {α : Type} (f : α → Mach → Mach) (hf : ∀ a m, Spares m (f a m)) (l : List α) :
    ∀ m, Spares m (each l f m) := by
  induction l with
  | nil => exact Spares.refl
  | cons a l ih => exact fun m => (hf a m).trans (ih _)

theorem spares_when {c : Bool} {f : Mach → Mach} (hf : ∀ m, Spares m (f m)) (m : Mach) : Spares m (when c f m) := by
  simp only [when]
  split
  · exact hf m
  · exact Spares.refl m

theorem spares_setWord {key : Nat} (hk : ¬watchedKey key) (w : Word) (m : Mach) : Spares m (m.setWord key w) :=
  ⟨rfl, rfl, rfl, fun _ h => Mach.word_setWord_ne _ (fun e => hk (by rwa [← e])) _⟩

theorem spares_set {f : FRef} (hk : ¬watchedKey f.key) (v : Nat) (m : Mach) : Spares m (m.set f v) :=
  spares_setWord hk _ m

/-! ## Events, messages out, snapshots -/

theorem spares_assertEvent (code : Nat) (m : Mach) : Spares m (assertEvent code m) := by
  obtain ⟨cox, scl, h⟩ := assertEvent_eq code m
  rw [h]
  exact ⟨rfl, rfl, rfl, fun _ _ => rfl⟩

theorem spares_msix (v : Nat) (m : Mach) : Spares m (m.msix v) := by
  simp only [Mach.msix]
  split
  · exact spares_setWord (by simp only [watchedKey, R.DMA_MSIXP_PBA]; omega) _ m
  · exact ⟨rfl, rfl, rfl, fun _ _ => rfl⟩

theorem spares_captureBegin (b : Nat) (m : Mach) : Spares m (captureBegin b m) := by
  have deferred : Spares m (when m.snap.deferred (·.incSat R.SNAP_STAT_DEFER) m) :=
    spares_when (fun m => spares_set (by simp [watchedKey, R.SNAP_STAT_DEFER]) _ m) m
  exact deferred.trans ⟨rfl, rfl, rfl, fun _ _ => rfl⟩

theorem spares_snapTry (m : Mach) : Spares m (snapTry m) := by
  simp only [snapTry]
  split
  · split
    · exact spares_captureBegin _ m
    · exact ⟨rfl, rfl, rfl, fun _ _ => rfl⟩
  · exact Spares.refl m

theorem spares_snapEvent (k : SnapKind) (r : Nat) (m : Mach) : Spares m (snapEvent k r m) := by
  simp only [snapEvent]
  split
  · split
    · exact ⟨rfl, rfl, rfl, fun _ _ => rfl⟩
    · split
      · exact (spares_set (f := R.SNAP_STAT_HSFDROP) (by simp [watchedKey, R.SNAP_STAT_HSFDROP]) _ m).trans
          (spares_set (f := R.SNAP_HSFSEQ) (by simp [watchedKey, R.SNAP_HSFSEQ]) _ _)
      · exact Spares.refl m
  · exact Spares.refl m

theorem spares_frameTx (port : Nat) (f : Frame) (m : Mach) : Spares m (frameTx port f m) := by
  by_cases hp : port = 0 <;> simp only [frameTx, hp, ↓reduceIte]
  all_goals
    split
    · exact ⟨rfl, rfl, rfl, fun _ _ => rfl⟩
    · exact Spares.refl m

theorem spares_frameSend (f : Frame) (m : Mach) : Spares m (frameSend f m) := by
  simp only [frameSend]
  split
  · exact (spares_frameTx ..).trans (spares_frameTx ..)
  · split
    · exact spares_frameTx ..
    · exact (spares_frameTx ..).trans (spares_frameTx ..)

/-! ## The ledger and the job store -/

theorem spares_setSheet (r : Nat) (sh : Sheet) (m : Mach) : Spares m (m.setSheet r sh) :=
  ⟨rfl, rfl, rfl, fun _ _ => rfl⟩

theorem spares_jsCount (m : Mach) : Spares m (jsCount m) :=
  (spares_set (f := R.PEAT_JSFREE_UNITS) (by simp [watchedKey, R.PEAT_JSFREE_UNITS]) _ m).trans
    (spares_when (spares_assertEvent _) _)

theorem spares_setEntry (sid : Sid) (e : Entry) (m : Mach) : Spares m (m.setEntry sid e) :=
  ⟨rfl, rfl, rfl, fun _ _ => rfl⟩

theorem spares_jsRelease (sid : Sid) (m : Mach) : Spares m (jsRelease sid m) :=
  Spares.trans (b := { m with peat := { m.peat with entries := tdel sid.toNat m.peat.entries } })
    ⟨rfl, rfl, rfl, fun _ _ => rfl⟩ (spares_jsCount _)

theorem spares_jsHold (sid : Sid) (m : Mach) : Spares m (jsHold sid m) := by
  simp only [jsHold]
  split
  · exact Spares.refl m
  · split
    · split
      · exact spares_setEntry ..
      · exact spares_jsRelease ..
    · exact spares_setEntry ..

theorem spares_jsDelivered (sh : Sheet) (m : Mach) : Spares m (jsDelivered sh m) :=
  (spares_jsHold ..).trans (spares_when (spares_jsHold _) _)

theorem spares_queueEvents (n : Nat) (m : Mach) : Spares m (queueEvents n m) :=
  (spares_when (spares_assertEvent _) m).trans (spares_when (spares_assertEvent _) _)

theorem spares_countTerminal (st : SheetState) (m : Mach) : Spares m (countTerminal st m) :=
  ⟨rfl, rfl, rfl, fun _ _ => rfl⟩

theorem spares_sheetTo (r : Nat) (st : SheetState) (m : Mach) : Spares m (sheetTo r st m) := by
  simp only [sheetTo]
  refine Spares.trans ?_ (spares_queueEvents _ _)
  refine Spares.trans ?_ (spares_when (fun m => ((spares_assertEvent _ m).trans (spares_countTerminal _ _)).trans
    (spares_snapEvent _ _ _)) _)
  refine Spares.trans ?_ (spares_when (spares_jsDelivered _) _)
  refine Spares.trans ?_ (spares_when (fun m => (spares_assertEvent _ m).trans (spares_snapEvent _ _ _)) _)
  exact (spares_setSheet r _ m).trans (spares_when (fun m => spares_frameSend _ m) _)

theorem spares_sheetStep (r : Nat) (m : Mach) : Spares m (sheetStep r m) := by
  have go {c : Bool} (st : SheetState) : Spares m (if c then sheetTo r st m else m) := by
    split
    · exact spares_sheetTo r st m
    · exact Spares.refl m
  simp only [sheetStep]
  split
  iterate 4 exact go _
  exact Spares.refl m

theorem spares_sheetAdvance (r : Nat) (m : Mach) : Spares m (sheetAdvance r m) := by
  have step := spares_sheetStep r
  simp only [sheetAdvance]
  split
  · exact (((step _).trans (step _)).trans (step _)).trans (step _)
  · exact Spares.refl m

theorem spares_runOut (r : Nat) (stn : Option Nat) (m : Mach) : Spares m (runOut r stn m) := spares_setSheet ..

theorem spares_msgOnRecord (g : Msg) (r : Nat) (m : Mach) : Spares m (msgOnRecord g r m) := by
  have go := spares_sheetTo r
  have blamed (st : SheetState) (sh : Sheet) : Spares m (sheetTo r st (m.setSheet r sh)) :=
    (spares_setSheet ..).trans (go st _)
  simp only [msgOnRecord]
  split
  · exact Spares.refl m
  · split
    · exact Spares.refl m
    · split
      · exact Spares.refl m
      · split
        · exact (go .ready m).trans (spares_setSheet ..)
        · exact (spares_setSheet ..).trans (spares_runOut ..)
    · split
      · exact go .ready m
      · exact Spares.refl m
    · split
      · exact go .ready m
      · exact blamed ..
    · split
      · exact go .ready m
      · exact blamed ..

/-! ## The outputs of a trip -/

theorem spares_drv (x : Drives) (m : Mach) : Spares m { m with drv := x } := ⟨rfl, rfl, rfl, fun _ _ => rfl⟩

theorem spares_polyOff (d : Nat) (m : Mach) :
    Spares m (((m.set (R.POLY_STAT_SWB d) 1).set (R.POLY_STAT_STATE d) 5).set (R.POLY_MEAS_DUTY d) 0) := by
  have stat : ¬watchedKey (0x1A0144 + 0x80 * d) := by simp only [watchedKey]; omega
  have meas : ¬watchedKey (0x1A014C + 0x80 * d) := by simp only [watchedKey]; omega
  exact ((spares_set (f := R.POLY_STAT_SWB d) stat _ m).trans (spares_set (f := R.POLY_STAT_STATE d) stat _ _)).trans
    (spares_set (f := R.POLY_MEAS_DUTY d) meas _ _)

theorem spares_brakeDrive (src kind d : Nat) (m : Mach) : Spares m (brakeDrive src kind d m) := by
  have held : Spares m (holdDrive src kind d (m.set R.SRV_BRKSTAT_SWB 1)) :=
    (spares_set (by simp [watchedKey, R.SRV_BRKSTAT_SWB]) _ m).trans (spares_drv _ _)
  simp only [brakeDrive]
  refine held.trans ?_
  split
  · exact ((spares_polyOff d _).trans (spares_drv _ _)).trans (spares_drv _ _)
  · split
    · exact (spares_set (by simp only [watchedKey, R.SRV_STAT_SWB]; omega) _ _).trans (spares_drv _ _)
    · exact spares_set (by simp only [watchedKey, R.STP_STAT_SWB]; omega) _ _

theorem spares_tripOutputs (src kind : Nat) (m : Mach) : Spares m (tripOutputs src kind m) := by
  have off : Spares m ((m.set R.HV_CTL_EN 0).set R.FUS_CTL_EN 0) :=
    (spares_set (by simp [watchedKey, R.HV_CTL_EN]) _ m).trans (spares_set (by simp [watchedKey, R.FUS_CTL_EN]) _ _)
  have gates (m : Mach) : Spares m (gatesOff m) := ⟨rfl, rfl, rfl, fun _ _ => rfl⟩
  exact (off.trans (gates _)).trans (spares_each _ (spares_brakeDrive src kind) _ _)

/-! ## The effects of one message -/

theorem spares_captured (g : Msg) (m : Mach) : Spares m (captured g m) := by
  simp only [captured]
  refine Spares.trans ?_ (spares_when (fun m => spares_msix _ m) _)
  refine Spares.trans ?_ (spares_when (spares_assertEvent _) _)
  exact (spares_assertEvent _ m).trans (spares_when (spares_assertEvent _) _)

theorem spares_classEffects (g : Msg) (m : Mach) : Spares m (classEffects g m) := by
  have ledger := spares_each (msgOnRecord g) (spares_msgOnRecord g) (recsIn (·.engaged) m) m
  simp only [classEffects]
  split
  · exact ledger.trans ⟨rfl, rfl, rfl, fun _ _ => rfl⟩
  · exact ledger.trans (spares_tripOutputs ..)
  · exact ledger

theorem spares_groupEffects (g : Msg) (wasOpen : Bool) (m : Mach) : Spares m (groupEffects g wasOpen m) := by
  simp only [groupEffects]
  split
  · exact Spares.refl m
  · split
    · exact spares_frameSend ..
    · split
      · exact spares_frameSend ..
      · exact Spares.refl m

/-! ## What the collector does with one message (R360-R362) -/

/-- The record of a source. -/
def srcRec (src : Nat) (m : Mach) : FltRec := tget {} src m.flt.srcs

/-- The record of a class. -/
def clsRec (cls : Nat) (m : Mach) : FltRec := tget {} cls m.flt.clss

/-- R361: a class 0 message under AUTONOTE leaves its record free. -/
def Msg.noted (g : Msg) (m : Mach) : Bool := g.cls == 0 && m.on R.FLT_CTL_AUTONOTE

/-- R362: the message finds its source's record held. -/
def Msg.lost (g : Msg) (m : Mach) : Bool := (srcRec g.src m).held

/-- R362: the message, if it is lost, is captured in the record of its class. -/
def Msg.fitsClass (g : Msg) (m : Mach) : Bool := 2 ≤ g.cls && !(clsRec g.cls m).held

/-- R362: one more lost message, with its event. -/
def countLost (m : Mach) : Mach := assertEvent 0x043 (m.incSat R.FLT_LOSTCNT_LOST)

/-- A source's record is written; `recent` are then the sources captured last. -/
def putSrc (src : Nat) (x : FltRec) (recent : List Nat) (m : Mach) : Mach :=
  { m with flt := { m.flt with srcs := tput src x m.flt.srcs, recent := recent } }

/-- A class's record is written. -/
def putCls (cls : Nat) (x : FltRec) (m : Mach) : Mach := { m with flt := { m.flt with clss := tput cls x m.flt.clss } }

/-- The four ways of a message: lost, in its class's record or nowhere; noted; captured in its source's record. -/
theorem collect_eq (g : Msg) (m : Mach) : collect g m =
    if g.lost m then
      if g.fitsClass (countLost m) then captured g (putCls g.cls (g.toRec (countLost m) true) (countLost m))
      else countLost m
    else if g.noted m then putSrc g.src (g.toRec m false) m.flt.recent m
    else captured g (putSrc g.src (g.toRec m true) ((g.src :: m.flt.recent.filter (· != g.src)).take 16) m) := by
  have swap : collect g m = if !g.lost m then _ else _ := rfl
  rw [swap]
  cases g.lost m <;> rfl

/-! ### Reads after each write -/

theorem srcRec_putSrc (j src : Nat) (x : FltRec) (recent : List Nat) (m : Mach) :
    srcRec j (putSrc src x recent m) = if j = src then x else srcRec j m := tget_tput ..

theorem clsRec_putCls (c cls : Nat) (x : FltRec) (m : Mach) :
    clsRec c (putCls cls x m) = if c = cls then x else clsRec c m := tget_tput ..

@[simp] theorem clsRec_putSrc (c src : Nat) (x : FltRec) (recent : List Nat) (m : Mach) :
    clsRec c (putSrc src x recent m) = clsRec c m := rfl

@[simp] theorem srcRec_putCls (j cls : Nat) (x : FltRec) (m : Mach) : srcRec j (putCls cls x m) = srcRec j m := rfl

@[simp] theorem lostcnt_putSrc (src : Nat) (x : FltRec) (recent : List Nat) (m : Mach) :
    (putSrc src x recent m).get R.FLT_LOSTCNT_LOST = m.get R.FLT_LOSTCNT_LOST := rfl

@[simp] theorem lostcnt_putCls (cls : Nat) (x : FltRec) (m : Mach) :
    (putCls cls x m).get R.FLT_LOSTCNT_LOST = m.get R.FLT_LOSTCNT_LOST := rfl

theorem Spares.srcRec_eq {m m' : Mach} (h : Spares m m') (j : Nat) : srcRec j m' = srcRec j m := by
  rw [srcRec, h.flt]; rfl

theorem Spares.clsRec_eq {m m' : Mach} (h : Spares m m') (c : Nat) : clsRec c m' = clsRec c m := by
  rw [clsRec, h.flt]; rfl

@[simp] theorem srcRec_captured (j : Nat) (g : Msg) (m : Mach) : srcRec j (captured g m) = srcRec j m :=
  (spares_captured g m).srcRec_eq j

@[simp] theorem clsRec_captured (c : Nat) (g : Msg) (m : Mach) : clsRec c (captured g m) = clsRec c m :=
  (spares_captured g m).clsRec_eq c

@[simp] theorem lostcnt_captured (g : Msg) (m : Mach) :
    (captured g m).get R.FLT_LOSTCNT_LOST = m.get R.FLT_LOSTCNT_LOST := (spares_captured g m).lostcnt

@[simp] theorem srcRec_countLost (j : Nat) (m : Mach) : srcRec j (countLost m) = srcRec j m :=
  (spares_assertEvent 0x043 (m.incSat R.FLT_LOSTCNT_LOST)).srcRec_eq j

@[simp] theorem clsRec_countLost (c : Nat) (m : Mach) : clsRec c (countLost m) = clsRec c m :=
  (spares_assertEvent 0x043 (m.incSat R.FLT_LOSTCNT_LOST)).clsRec_eq c

@[simp] theorem toRec_countLost (g : Msg) (m : Mach) (held : Bool) : g.toRec (countLost m) held = g.toRec m held := by
  simp [countLost, Mach.incSat, Msg.toRec]

/-- LOSTCNT saturates at its greatest value. -/
@[simp] theorem lostcnt_countLost (m : Mach) :
    (countLost m).get R.FLT_LOSTCNT_LOST = min (m.get R.FLT_LOSTCNT_LOST + 1) (2 ^ 32 - 1) := by
  rw [countLost, (spares_assertEvent _ _).lostcnt, Mach.incSat, Mach.get_set_same _ _ _ (by decide) (by decide)]
  exact Nat.mod_eq_of_lt (Nat.lt_of_le_of_lt (Nat.min_le_right ..) (by decide))

/-! ### The records and the count after one message -/

/-- A source's record changes only for a message of that source, and only if it was free. -/
theorem srcRec_collect (g : Msg) (m : Mach) (j : Nat) : srcRec j (collect g m) =
    if g.lost m = false ∧ j = g.src then g.toRec m (!g.noted m) else srcRec j m := by
  rw [collect_eq]
  cases g.lost m
  · cases g.noted m <;> simp [srcRec_putSrc]
  · cases g.fitsClass (countLost m) <;> simp

/-- A class's record changes only for a lost message of that class, and only if it was free. -/
theorem clsRec_collect (g : Msg) (m : Mach) (c : Nat) : clsRec c (collect g m) =
    if (g.lost m = true ∧ g.fitsClass m = true) ∧ c = g.cls then g.toRec m true else clsRec c m := by
  have fits : g.fitsClass (countLost m) = g.fitsClass m := by simp [Msg.fitsClass]
  rw [collect_eq, fits]
  cases g.lost m
  · cases g.noted m <;> simp
  · cases g.fitsClass m <;> simp [clsRec_putCls]

theorem lostcnt_collect (g : Msg) (m : Mach) : (collect g m).get R.FLT_LOSTCNT_LOST =
    if g.lost m then min (m.get R.FLT_LOSTCNT_LOST + 1) (2 ^ 32 - 1) else m.get R.FLT_LOSTCNT_LOST := by
  rw [collect_eq]
  cases g.lost m
  · cases g.noted m <;> simp
  · cases g.fitsClass (countLost m) <;> simp

@[simp] theorem srcRec_withLast (j : Nat) (g : Msg) (m : Mach) : srcRec j (withLast g m) = srcRec j m := by
  simp only [withLast, when]; split <;> rfl

@[simp] theorem clsRec_withLast (c : Nat) (g : Msg) (m : Mach) : clsRec c (withLast g m) = clsRec c m := by
  simp only [withLast, when]; split <;> rfl

@[simp] theorem get_withLast (g : Msg) (m : Mach) (f : FRef) : (withLast g m).get f = m.get f := by
  simp [Mach.get, Mach.word]

@[simp] theorem toRec_withLast (g : Msg) (m : Mach) (held : Bool) : g.toRec (withLast g m) held = g.toRec m held := by
  simp [Msg.toRec]

@[simp] theorem lost_withLast (g : Msg) (m : Mach) : g.lost (withLast g m) = g.lost m := by simp [Msg.lost]

@[simp] theorem noted_withLast (g : Msg) (m : Mach) : g.noted (withLast g m) = g.noted m := by simp [Msg.noted, Mach.on]

@[simp] theorem fitsClass_withLast (g : Msg) (m : Mach) : g.fitsClass (withLast g m) = g.fitsClass m := by
  simp [Msg.fitsClass]

/-- After the collector, the effects of a message leave its records alone. -/
theorem deliverNow_spares (g : Msg) (m : Mach) : Spares (collect g (withLast g m)) (deliverNow g m) :=
  (spares_classEffects g _).trans (spares_groupEffects g _ _)

theorem srcRec_deliverNow (g : Msg) (m : Mach) (j : Nat) : srcRec j (deliverNow g m) =
    if g.lost m = false ∧ j = g.src then g.toRec m (!g.noted m) else srcRec j m := by
  rw [(deliverNow_spares g m).srcRec_eq, srcRec_collect]
  simp

theorem clsRec_deliverNow (g : Msg) (m : Mach) (c : Nat) : clsRec c (deliverNow g m) =
    if (g.lost m = true ∧ g.fitsClass m = true) ∧ c = g.cls then g.toRec m true else clsRec c m := by
  rw [(deliverNow_spares g m).clsRec_eq, clsRec_collect]
  simp

theorem lostcnt_deliverNow (g : Msg) (m : Mach) : (deliverNow g m).get R.FLT_LOSTCNT_LOST =
    if g.lost m then min (m.get R.FLT_LOSTCNT_LOST + 1) (2 ^ 32 - 1) else m.get R.FLT_LOSTCNT_LOST := by
  rw [(deliverNow_spares g m).lostcnt, lostcnt_collect]
  simp

/-! ## What every message keeps -/

/-- Every record that was held stands as it was, and LOSTCNT has not fallen. -/
structure Keeps (m m' : Mach) : Prop where
  src : ∀ j, (srcRec j m).held = true → srcRec j m' = srcRec j m
  cls : ∀ c, (clsRec c m).held = true → clsRec c m' = clsRec c m
  lostcnt : m.get R.FLT_LOSTCNT_LOST ≤ m'.get R.FLT_LOSTCNT_LOST

theorem Keeps.of_eq {m m' : Mach} (hf : m'.flt = m.flt)
    (hl : m'.get R.FLT_LOSTCNT_LOST = m.get R.FLT_LOSTCNT_LOST) : Keeps m m' :=
  ⟨fun _ _ => by simp only [srcRec, hf], fun _ _ => by simp only [clsRec, hf], hl.ge⟩

theorem Spares.keeps {m m' : Mach} (h : Spares m m') : Keeps m m' := .of_eq h.flt h.lostcnt

theorem Keeps.refl (m : Mach) : Keeps m m := .of_eq rfl rfl

theorem Keeps.trans {a b c : Mach} (h : Keeps a b) (g : Keeps b c) : Keeps a c where
  src j hj := (g.src j (by rwa [h.src j hj])).trans (h.src j hj)
  cls j hj := (g.cls j (by rwa [h.cls j hj])).trans (h.cls j hj)
  lostcnt := h.lostcnt.trans g.lostcnt

theorem keeps_foldl {α : Type} (f : Mach → α → Mach) (hf : ∀ m a, Keeps m (f m a)) (l : List α) :
    ∀ m, Keeps m (l.foldl f m) := by
  induction l with
  | nil => exact Keeps.refl
  | cons a l ih => exact fun m => (hf m a).trans (ih _)

theorem keeps_when {c : Bool} {f : Mach → Mach} (hf : ∀ m, Keeps m (f m)) (m : Mach) : Keeps m (when c f m) := by
  simp only [when]
  split
  · exact hf m
  · exact Keeps.refl m

theorem keeps_set {f : FRef} (hk : f.key ≠ R.FLT_LOSTCNT_LOST.key) (v : Nat) (m : Mach) : Keeps m (m.set f v) :=
  .of_eq rfl (Mach.get_set_ne _ hk.symm _)

/-- A message writes only records that were free. -/
theorem keeps_deliverNow (g : Msg) (m : Mach) : Keeps m (deliverNow g m) where
  src j hj := by
    refine (srcRec_deliverNow g m j).trans (if_neg ?_)
    rintro ⟨free, rfl⟩
    exact Bool.false_ne_true (free.symm.trans hj)
  cls c hc := by
    refine (clsRec_deliverNow g m c).trans (if_neg ?_)
    rintro ⟨⟨-, fits⟩, rfl⟩
    simp [Msg.fitsClass, hc] at fits
  lostcnt := by
    have bound : m.get R.FLT_LOSTCNT_LOST < 2 ^ 32 := m.get_lt R.FLT_LOSTCNT_LOST
    rw [lostcnt_deliverNow]
    split <;> omega

/-! ## The messages that may follow (R42, R233, R430) -/

theorem keeps_watchStat (w : Nat) (sid : Sid) (failed : Bool) (m : Mach) : Keeps m (watchStat w sid failed m) := by
  have apart : 0x07010C + 0x10 * w ≠ R.FLT_LOSTCNT_LOST.key := by simp only [R.FLT_LOSTCNT_LOST]; omega
  exact (keeps_set (f := R.SLU_WATCH_STAT_SID w) apart _ m).trans (keeps_set (f := R.SLU_WATCH_STAT_FAILED w) apart _ _)

theorem keeps_watchOk (w r : Nat) (m : Mach) : Keeps m (watchOk w r m) :=
  (keeps_watchStat ..).trans (spares_setSheet ..).keeps

theorem keeps_watchFail (w : Nat) (r : Option Nat) (m : Mach) : Keeps m (watchFail w r m) := by
  cases r with
  | none => exact (keeps_watchStat ..).trans (keeps_deliverNow ..)
  | some r =>
    have judged (sh : Sheet) : Keeps m (watchStat w (m.sheet r).sid true (m.setSheet r sh)) :=
      (spares_setSheet ..).keeps.trans (keeps_watchStat ..)
    simp only [watchFail]
    refine Keeps.trans ?_ (keeps_deliverNow ..)
    split
    · exact (judged _).trans (spares_sheetTo ..).keeps
    · exact (judged _).trans ((spares_setSheet ..).trans (spares_sheetTo ..)).keeps

theorem keeps_actOn (p : Nat × SnsEdge) (v : Verdict) (m : Mach) : Keeps m (actOn p v m) := by
  cases v with
  | sat r => exact keeps_watchOk ..
  | stray r => exact keeps_watchFail ..
  | held => exact .of_eq rfl rfl
  | unseen => exact Keeps.refl m

theorem keeps_settlePass (m : Mach) : Keeps m (settlePass m) := by
  have cleared : Keeps m { m with heldEdges := [] } := .of_eq rfl rfl
  have judged (m' : Mach) : Keeps m' (each m.heldEdges (fun p m => actOn p (judgeEdge p.1 p.2 m) m) m') :=
    keeps_foldl _ (fun m p => keeps_actOn p _ m) _ _
  exact (cleared.trans (judged _)).trans (spares_each _ spares_sheetAdvance _ _).keeps

theorem keeps_settleEdges (m : Mach) : Keeps m (settleEdges m) := keeps_foldl _ (fun m _ => keeps_settlePass m) _ m

theorem keeps_setIdok (s : Nat) (b : Bool) (m : Mach) : Keeps m (setIdok s b m) := by
  have apart : (R.VID_STAT_IDOK s).key ≠ R.FLT_LOSTCNT_LOST.key := by
    simp only [R.VID_STAT_IDOK, R.FLT_LOSTCNT_LOST]; omega
  simp only [setIdok]
  split
  · exact Keeps.refl m
  · exact (keeps_set apart _ m).trans (spares_assertEvent ..).keeps

theorem keeps_lockDrop (s : Nat) (m : Mach) : Keeps m (lockDrop s m) := by
  have apart : (R.VID_PLOCK_LOCK s).key ≠ R.FLT_LOSTCNT_LOST.key := by
    simp only [R.VID_PLOCK_LOCK, R.FLT_LOSTCNT_LOST]; omega
  have unlocked : Keeps m (assertEvent (vidEvent s 5) (m.set (R.VID_PLOCK_LOCK s) 0)) :=
    (keeps_set apart 0 m).trans (spares_assertEvent ..).keeps
  have island (f : Vid → Vid) (m : Mach) : Keeps m (m.onVid s f) := .of_eq rfl rfl
  exact (unlocked.trans (island _ _)).trans (keeps_setIdok ..)

theorem keeps_locksDrop (m : Mach) : Keeps m (locksDrop m) :=
  keeps_foldl _ (fun m s => (keeps_lockDrop s m).trans (keeps_deliverNow ..)) _ m

/-- The messages that follow one message keep what it left. -/
theorem deliver_keeps (g : Msg) (m : Mach) : Keeps (deliverNow g m) (deliver g m) :=
  ((keeps_when keeps_locksDrop _).trans (keeps_when keeps_settleEdges _)).trans (spares_snapTry _).keeps

/-! ## A message that no other follows -/

/-- The registers that hold the lock bits. -/
def lockKey (key : Nat) : Prop := ∃ n, n < 5 ∧ key = (R.VID_PLOCK_LOCK n).key

/-- No lock falls and no held edge is judged after the message. -/
structure Msg.Alone (g : Msg) (m : Mach) : Prop where
  edges : g.cls = 0 ∨ m.heldEdges = []
  locks : g.cls = 4 → ∀ n, n < 5 → m.on (R.VID_PLOCK_LOCK n) = false

theorem stations_le_five (p : Part) : p.stations ≤ 5 := by cases p <;> decide

theorem locksDrop_of_unlocked {m : Mach} (h : ∀ n, n < 5 → m.on (R.VID_PLOCK_LOCK n) = false) : locksDrop m = m := by
  have none_locked : (List.range m.nStn).filter (fun s => m.on (R.VID_PLOCK_LOCK s)) = [] := by
    refine List.filter_eq_nil_iff.2 fun s hs => ?_
    have hs5 : s < 5 := Nat.lt_of_lt_of_le (List.mem_range.1 hs) (stations_le_five _)
    simp [h s hs5]
  rw [locksDrop, none_locked]
  rfl

/-- Counting a lost message or writing a record moves no lock and no held edge. -/
theorem deliverNow_alone {g : Msg} {m : Mach} (h : g.Alone m) : g.Alone (deliverNow g m) := by
  have quiet : ∀ key, lockKey key → quietKey key := by
    rintro key ⟨n, hn, rfl⟩
    simp only [quietKey, R.VID_PLOCK_LOCK]
    omega
  have collected := calm_collect quiet g (withLast g m)
  have after := deliverNow_spares g m
  have edges : (deliverNow g m).heldEdges = m.heldEdges := by
    rw [after.heldEdges, collected.heldEdges, withLast_heldEdges]
  refine ⟨by rw [edges]; exact h.edges, fun trip n hn => ?_⟩
  calc (deliverNow g m).on (R.VID_PLOCK_LOCK n)
    _ = (collect g (withLast g m)).on (R.VID_PLOCK_LOCK n) := after.locked hn
    _ = (withLast g m).on (R.VID_PLOCK_LOCK n) := collected.on ⟨n, hn, rfl⟩
    _ = m.on (R.VID_PLOCK_LOCK n) := by simp only [Mach.on, get_withLast]
    _ = false := h.locks trip n hn

theorem deliver_spares {g : Msg} {m : Mach} (h : g.Alone m) : Spares (deliverNow g m) (deliver g m) := by
  obtain ⟨edges, locks⟩ := deliverNow_alone h
  have noLock : when (g.cls == 4) locksDrop (deliverNow g m) = deliverNow g m := by
    simp only [when]
    split
    · next trip => exact locksDrop_of_unlocked (locks (by simpa using trip))
    · rfl
  have noEdge : when (0 < g.cls) settleEdges (deliverNow g m) = deliverNow g m := by
    simp only [when]
    split
    · next pos => exact settleEdges_of_none (edges.resolve_left (by simpa [Nat.pos_iff_ne_zero] using pos))
    · rfl
  rw [deliver, noLock, noEdge]
  exact spares_snapTry _

/-! ## Open classes -/

/-- An index reads as the default or as a value the table lists. -/
theorem tget_mem_of_ne {α : Type} {d : α} {k : Nat} {t : Tab α} (h : tget d k t ≠ d) : tget d k t ∈ t.map (·.2) := by
  induction t with
  | nil => exact absurd rfl h
  | cons p t ih =>
    simp only [tget] at h ⊢
    split at h
    · next e => simp [e]
    · next e => simpa [e] using .inr (by simpa using ih h)

/-- A held record is one that its table lists. -/
theorem tget_mem_of_held {k : Nat} {t : Tab FltRec} (h : (tget {} k t).held = true) : tget {} k t ∈ t.map (·.2) :=
  tget_mem_of_ne fun e => Bool.false_ne_true ((congrArg FltRec.held e).symm.trans h)

/-- A held record opens its class. -/
theorem classOpen_of_listed {m : Mach} {x : FltRec} (listed : x ∈ m.flt.srcs.map (·.2) ++ m.flt.clss.map (·.2))
    (h : x.held = true) : classOpen x.cls m = true :=
  List.any_eq_true.2 ⟨x, List.mem_filter.2 ⟨listed, h⟩, beq_self_eq_true _⟩

theorem classOpen_of_srcRec {m : Mach} {j : Nat} (h : (srcRec j m).held = true) : classOpen (srcRec j m).cls m = true :=
  classOpen_of_listed (List.mem_append_left _ (tget_mem_of_held h)) h

theorem classOpen_of_clsRec {m : Mach} {c : Nat} (h : (clsRec c m).held = true) : classOpen (clsRec c m).cls m = true :=
  classOpen_of_listed (List.mem_append_right _ (tget_mem_of_held h)) h

/-! ## The statement -/

theorem exec_faultMessage {src kind cls : Nat} (sid : Sid) (param : BitVec 40) (s : State) (hs : src < 1024)
    (hk : kind < 256) (hc : cls < 5) : exec (.faultMessage src kind cls sid param) s =
      .next (s.onMach (deliver { src := src, kind := kind, cls := cls, sid := sid, param := param })) := by
  have ok : (decide (src < 1024) && decide (kind < 256) && decide (cls < 5)) = true := by simp [hs, hk, hc]
  exact onUnit_next.2 (if_pos ok).symm

/-- A record that a message left shows the message. -/
theorem shows_of_eq_toRec {x : FltRec} {g : Msg} {m : Mach} {held : Bool} (h : x = g.toRec m held) :
    x.src = g.src ∧ x.kind = g.kind ∧ x.cls = g.cls ∧ x.sid = g.sid ∧ x.param = g.param ∧ x.tick = m.clk.tick := by
  subst h
  exact ⟨rfl, rfl, rfl, rfl, rfl, rfl⟩

/-- R361: a note leaves its record written and free. -/
theorem srcRec_deliver_of_noted {g : Msg} {m : Mach} (hn : g.noted m = true) (free : g.lost m = false) :
    srcRec g.src (deliver g m) = g.toRec m false := by
  have zero : g.cls = 0 := by simp [Msg.noted] at hn; exact hn.1
  have alone : g.Alone m := ⟨.inl zero, fun four => by omega⟩
  rw [(deliver_spares alone).srcRec_eq, srcRec_deliverNow, if_pos ⟨free, rfl⟩, hn]
  rfl

/-- R362: a source record that is held stands. -/
theorem srcRec_deliver_of_lost {g : Msg} {m : Mach} (lost : g.lost m = true) :
    srcRec g.src (deliver g m) = srcRec g.src m :=
  ((keeps_deliverNow g m).trans (deliver_keeps g m)).src _ lost

/-- R362: the class record takes a lost message of class 2 or above, and keeps it. -/
theorem clsRec_deliver_of_lost {g : Msg} {m : Mach} (lost : g.lost m = true) (fits : g.fitsClass m = true) :
    clsRec g.cls (deliver g m) = g.toRec m true := by
  have now : clsRec g.cls (deliverNow g m) = g.toRec m true :=
    (clsRec_deliverNow g m _).trans (if_pos ⟨⟨lost, fits⟩, rfl⟩)
  rw [(deliver_keeps g m).cls _ (by rw [now]; rfl), now]

theorem clsRec_deliver_of_held {g : Msg} {m : Mach} {c : Nat} (held : (clsRec c m).held = true) :
    clsRec c (deliver g m) = clsRec c m :=
  ((keeps_deliverNow g m).trans (deliver_keeps g m)).cls _ held

theorem lostcnt_deliverNow_of_lost {g : Msg} {m : Mach} (lost : g.lost m = true)
    (below : m.get R.FLT_LOSTCNT_LOST < 2 ^ 32 - 1) :
    (deliverNow g m).get R.FLT_LOSTCNT_LOST = m.get R.FLT_LOSTCNT_LOST + 1 := by
  rw [lostcnt_deliverNow, if_pos lost]
  omega

/-- R360: after a message of class 2 or above a record of its class is open. -/
theorem classOpen_deliver {g : Msg} {m : Mach} (h2 : 2 ≤ g.cls)
    (ofClass : (clsRec g.cls m).held = true → (clsRec g.cls m).cls = g.cls) : classOpen g.cls (deliver g m) = true := by
  cases lost : g.lost m with
  | false =>
    have unnoted : g.noted m = false := by simp [Msg.noted]; omega
    have now : srcRec g.src (deliverNow g m) = g.toRec m true := by
      rw [srcRec_deliverNow, if_pos ⟨lost, rfl⟩, unnoted]; rfl
    have after : srcRec g.src (deliver g m) = g.toRec m true :=
      ((deliver_keeps g m).src _ (by rw [now]; rfl)).trans now
    simpa [after, Msg.toRec] using classOpen_of_srcRec (m := deliver g m) (j := g.src) (by rw [after]; rfl)
  | true =>
    cases held : (clsRec g.cls m).held with
    | false =>
      have after := clsRec_deliver_of_lost lost (by simp [Msg.fitsClass, h2, held])
      simpa [after, Msg.toRec] using classOpen_of_clsRec (m := deliver g m) (c := g.cls) (by rw [after]; rfl)
    | true =>
      have after := clsRec_deliver_of_held (g := g) held
      simpa [after, ofClass held] using classOpen_of_clsRec (m := deliver g m) (c := g.cls) (by rw [after]; exact held)

/-- Settles O57: the message itself writes only free records and counts itself once; the messages that may follow it
keep what it left. -/
theorem notesAndLostMessages : Obligations.NotesAndLostMessages := by
  intro src kind cls sid param s hsrc hkind hcls ofClass
  let g : Msg := { src := src, kind := kind, cls := cls, sid := sid, param := param }
  refine ⟨_, exec_faultMessage sid param s hsrc hkind hcls, fun auto zero free => ?_,
    fun (lost : g.lost s.mach = true) => ⟨srcRec_deliver_of_lost lost, fun below => ⟨?_, ?_⟩, fun h2 free => ?_,
      clsRec_deliver_of_held⟩,
    fun h2 => classOpen_deliver (g := g) h2 (ofClass cls)⟩
  · have noted : g.noted s.mach = true := by simp [Msg.noted, g, zero, auto]
    have written := srcRec_deliver_of_noted noted free
    exact ⟨shows_of_eq_toRec written, congrArg FltRec.held written⟩
  · rw [← lostcnt_deliverNow_of_lost lost below]
    exact (deliver_keeps g s.mach).lostcnt
  · rintro ⟨edges, locks⟩
    exact (deliver_spares ⟨.inr edges, locks⟩).lostcnt.trans (lostcnt_deliverNow_of_lost lost below)
  · have fits : g.fitsClass s.mach = true := by
      rw [Msg.fitsClass, show (clsRec g.cls s.mach).held = false from free]
      simpa using h2
    have written := clsRec_deliver_of_lost lost fits
    exact ⟨congrArg FltRec.held written, shows_of_eq_toRec written⟩

end Sys2Proof.Machine
end

section
/-! PROOFS. Every command completes (O4) and keeps the canonical form of the memories (O3): the form that the meaning of
each command has, and what the operations that write memory do. -/

namespace Sys2Proof.Machine

/-! ## Operations that keep the canonical form -/

/-- The operation leaves memories in canonical form when it finds them so. -/
def KeepsWf (f : Mach → Mem → Mach × Mem) : Prop := ∀ m mem, Memory.wf mem = true → Memory.wf (f m mem).2 = true

/-! ### Snapshot banks and ring slots -/

theorem wf_writeBank (c : Capture) (mem : Mem) (h : Memory.wf mem = true) : Memory.wf (writeBank c mem) = true := by
  have all (l : List (Nat × Word)) : ∀ mem : Mem, Memory.wf mem = true →
      Memory.wf (l.foldl (fun mm p => mm.wrWord (bankBase c.bank + p.1) p.2) mem) = true := by
    induction l with
    | nil => exact fun _ h => h
    | cons p l ih => exact fun mem h => ih _ (wf_wrWord _ _ _ h)
  exact all _ _ (wf_clearRam _ _ _ h)

theorem keepsWf_snapshotCaptureDone : KeepsWf opSnapshotCaptureDone := by
  intro m mem h
  simp only [opSnapshotCaptureDone]
  split
  · exact h
  · exact wf_writeBank _ _ h

theorem wf_slotWrite (r idx : Nat) (bs : List Byte) (m : Mach) {mem : Mem} (h : Memory.wf mem = true) :
    Memory.wf (slotWrite r idx bs m mem).2.2 = true := by
  simp only [slotWrite]
  split
  · split <;> simp [h]
  · exact wf_wrBytes _ _ _ h

theorem wf_ringPut (r side : Nat) (bs : List Byte) (m : Mach) {mem : Mem} (h : Memory.wf mem = true) :
    Memory.wf (ringPut r side bs m mem).2.2 = true := by
  simp only [ringPut]
  split
  · have put := wf_slotWrite r (m.get (R.RING_PIDX r)) bs m h
    split <;> simp_all
  · exact h

theorem keepsWf_ingestCompletionPost : KeepsWf opIngestCompletionPost := by
  intro m mem h
  simp only [opIngestCompletionPost]
  split
  · split
    · rename_i i rest _ _
      have put := wf_ringPut (m.get R.PEAT_CTL_CPRING) 2 (completion m i) m h
      split <;> simp_all
    · exact h
  · exact h

theorem keepsWf_pageRequestPost : KeepsWf opPageRequestPost := by
  intro m mem h
  simp only [opPageRequestPost]
  split
  · exact h
  · split
    · exact h
    · rename_i p _
      have put := wf_ringPut (m.get R.DATU_CFG_PRRING) 2 (pageRecord m p m.hif.tag) m h
      split <;> simp_all

theorem keepsWf_hsfWrite : KeepsWf opHsfWrite := by
  intro m mem h
  simp only [opHsfWrite]
  split
  · exact h
  · split
    · exact h
    · split <;> simp [h]

/-! ### The host window, domains and the line buffers -/

theorem keepsWf_bar4Access (write : Option Word) (lanes off : Nat) (ecc : Ecc) :
    KeepsWf (opBar4Access write lanes off ecc) := by
  intro m mem h
  have all (v : Word) (a : Nat) (l : List Nat) : ∀ mem : Mem, Memory.wf mem = true → Memory.wf (l.foldl (fun mm i =>
      if bitOf lanes i then mm.wr (a + i) (BitVec.ofNat 8 (v.toNat / 2 ^ (8 * i))) else mm) mem) = true := by
    induction l with
    | nil => exact fun _ h => h
    | cons i l ih =>
      intro mem h
      refine ih _ ?_
      dsimp only
      split
      · exact wf_wr _ _ _ h
      · exact h
  simp only [opBar4Access]
  split
  · exact h
  · split
    · exact h
    · split
      · exact all _ _ _ _ h
      · exact h

theorem keepsWf_domainUp (d : Nat) : KeepsWf (opDomainUp d) := by
  intro m mem h
  simp only [opDomainUp]
  split
  · dsimp only
    split
    · exact wf_clearRam _ _ _ h
    · exact h
  · exact h

theorem wf_writeLines (s n : Nat) (ls : List (List Byte)) :
    ∀ (j : Nat) (mem : Mem), Memory.wf mem = true → Memory.wf (writeLines s n j ls mem) = true := by
  induction ls with
  | nil => exact fun _ _ h => h
  | cons l ls ih => exact fun j mem h => ih _ _ (wf_wrBytes _ _ _ h)

theorem wf_bandCorrupt (s r k fin : Nat) (m : Mach) {mem : Mem} (h : Memory.wf mem = true) :
    Memory.wf (bandCorrupt s r k fin m mem).2 = true := wf_writeLines _ _ _ _ _ h

theorem keepsWf_feederBandStart (s : Nat) (ecc : Ecc) : KeepsWf (opFeederBandStart s ecc) := by
  intro m mem h
  simp only [opFeederBandStart]
  split
  · exact h
  · split
    · exact h
    · split
      · exact h
      · split
        · exact wf_writeLines _ _ _ _ _ h
        · split
          · split
            · exact wf_bandCorrupt _ _ _ _ _ h
            · exact wf_writeLines _ _ _ _ _ h
          · exact h

theorem keepsWf_inflateRunDone (e : Nat) (ecc : Ecc) : KeepsWf (opInflateRunDone e ecc) := by
  intro m mem h
  simp only [opInflateRunDone]
  split
  · exact h
  · split
    · exact h
    · split
      · exact h
      · split
        · exact h
        · split
          · exact wf_bandCorrupt _ _ _ _ _ h
          · have lines := fun s n j ls => wf_writeLines s n ls j mem h
            split
            · exact wf_bandCorrupt _ _ _ _ _ (lines ..)
            · split <;> exact lines ..

/-! ### Boot, restart and last words -/

theorem wf_imageStart (at_ : Nat) (m : Mach) {mem : Mem} (h : Memory.wf mem = true) :
    Memory.wf (imageStart at_ m mem).2 = true := by
  simp only [imageStart]
  exact wf_wrBytes _ _ _ h

theorem wf_loaderStart (m : Mach) {mem : Mem} (h : Memory.wf mem = true) : Memory.wf (loaderStart m mem).2 = true :=
  wf_clearFlash _ _ _ h

theorem wf_bootRun (m : Mach) {mem : Mem} (h : Memory.wf mem = true) : Memory.wf (bootRun m mem).2 = true := by
  unfold bootRun
  extract_lets mem m1 m2 m3 r x src _ m4 l y
  have cleared : Memory.wf mem = true := wf_clearRam _ _ _ (wf_clearRam _ _ _ h)
  split
  · dsimp only
    exact wf_imageStart slotAt m3 cleared
  · split
    · exact wf_loaderStart y.1 (wf_imageStart 0 (m4.set R.SEC_STAT_LDR 1) cleared)
    · exact cleared

theorem wf_coldStart (cause : FRef) (m : Mach) {mem : Mem} (h : Memory.wf mem = true) :
    Memory.wf (coldStart cause m mem).2 = true := by
  unfold coldStart
  extract_lets full m1 m2
  have cleared : Memory.wf (bankClear mem) = true := wf_clearRam _ _ _ h
  exact wf_bootRun m2 cleared

/-- A restart that a command has made due keeps the form. -/
theorem wf_settle {s : State} (h : Memory.wf s.mem = true) : Memory.wf (settle s).mem = true := by
  unfold settle
  split
  · extract_lets x
    dsimp only
    exact wf_coldStart R.SYS_RSTCAUSE_SWRST s.mach h
  · exact h

theorem wf_lastWordsWrite (lost : List Sid) (m : Mach) {mem : Mem} (h : Memory.wf mem = true) :
    Memory.wf (lastWordsWrite lost m mem).2 = true := by
  unfold lastWordsWrite
  extract_lets at_
  split <;> dsimp only
  · exact wf_flashWrBytes _ _ _ h
  · exact h

theorem keepsWf_acLoss : KeepsWf opAcLoss := by
  intro m mem h
  unfold opAcLoss
  extract_lets m lost m' x
  split
  · exact h
  · dsimp only
    exact wf_lastWordsWrite _ _ h

theorem keepsWf_acRestart : KeepsWf opAcRestart := by
  intro m mem h
  unfold opAcRestart
  split
  · split
    · exact wf_coldStart R.SYS_RSTCAUSE_ACRESTART (m.onPwr fun p => { p with acOk := true }) h
    · exact h
  · exact h

/-! ### SEC and the loader -/

theorem wf_sectionPut (t : Nat) (bs : List Byte) (m : Mach) {mem : Mem} (h : Memory.wf mem = true) :
    Memory.wf (sectionPut t bs m mem).2 = true := by
  simp only [sectionPut]
  split
  · exact wf_wrBytes _ _ _ h
  · split
    · exact wf_wrBytes _ _ _ h
    · split <;> exact h

theorem wf_doLoad (t : Nat) (m : Mach) {mem : Mem} (h : Memory.wf mem = true) : Memory.wf (doLoad t m mem).2.2 = true := by
  simp only [doLoad]
  split
  · exact h
  · split
    · exact h
    · split
      · exact h
      · exact wf_sectionPut _ _ _ h

theorem wf_sectorWrite (a : Nat) (bs : List Byte) {mem : Mem} (h : Memory.wf mem = true) :
    Memory.wf (sectorWrite a bs mem) = true := wf_flashWrBytes _ _ _ (wf_clearFlash _ _ _ h)

theorem wf_doArmupd (arg : Nat) (ok : Bool) (m : Mach) {mem : Mem} (h : Memory.wf mem = true) :
    Memory.wf (doArmupd arg ok m mem).2.2 = true := by
  simp only [doArmupd]
  split
  · exact h
  · split
    · exact h
    · exact wf_sectorWrite _ _ h

theorem wf_doEnvwrite (ok : Bool) (m : Mach) {mem : Mem} (h : Memory.wf mem = true) :
    Memory.wf (doEnvwrite ok m mem).2.2 = true := by
  unfold doEnvwrite
  extract_lets b a0 a1 c
  split
  · exact h
  · split
    · exact h
    · dsimp only
      exact wf_sectorWrite _ _ h

theorem wf_secDo (r : SecRun) (ok : Bool) (m : Mach) {mem : Mem} (h : Memory.wf mem = true) :
    Memory.wf (secDo r ok m mem).2.2 = true := by
  simp only [secDo]
  split
  case h_2 => exact wf_doLoad _ _ h
  case h_4 => exact wf_doArmupd _ _ _ h
  case h_5 => exact wf_doEnvwrite _ _ h
  all_goals exact h

theorem keepsWf_secOpDone (ok : Bool) : KeepsWf (opSecOpDone ok) := by
  intro m mem h
  simp only [opSecOpDone]
  split
  · exact h
  · exact wf_secDo _ _ _ h

theorem wf_loaderFinish (l : Loader) (c0 : List Byte) (m : Mach) {mem : Mem} (h : Memory.wf mem = true) :
    Memory.wf (loaderFinish l c0 m mem).2 = true := by
  unfold loaderFinish
  extract_lets mem r l
  have written : Memory.wf mem = true := wf_flashWrBytes _ _ _ h
  split
  · exact wf_coldStart R.SYS_RSTCAUSE_SWRST m (wf_clearFlash _ _ _ written)
  · exact wf_clearFlash _ _ _ written

theorem wf_loaderChunk (src id k : Nat) (bs : List Byte) (back : Bool) (m : Mach) {mem : Mem} (h : Memory.wf mem = true) :
    Memory.wf (loaderChunk src id k bs back m mem).2.2 = true := by
  unfold loaderChunk
  split
  · exact h
  · extract_lets idOk hdr l mem
    split
    · exact h
    · split
      · exact h
      · by_cases first : k = 0
        · simpa [mem, first] using h
        · simpa [mem, first] using wf_flashWrBytes _ _ _ h

theorem wf_loaderOn (m : Mach) {mem : Mem} (h : Memory.wf mem = true) : Memory.wf (loaderOn m mem).2 = true := by
  unfold loaderOn
  split
  · split
    · split
      · exact wf_loaderFinish _ _ _ h
      · exact h
    · exact h
  · exact h

theorem keepsWf_chdata (p : Nat) (f : Frame) (good back : Bool) : KeepsWf (opChdata p f good back) := by
  intro m mem h
  unfold opChdata
  extract_lets m1 k bs n x
  have chunk : Memory.wf x.2.2 = true := wf_loaderChunk _ _ _ _ _ _ h
  split
  · split
    · exact wf_loaderOn _ chunk
    · exact chunk
  · exact h

theorem keepsWf_loaderChunkDescriptor (back : Bool) : KeepsWf (opLoaderChunkDescriptor back) := by
  intro m mem h
  unfold opLoaderChunkDescriptor
  extract_lets asks
  split
  · exact h
  · split
    · exact h
    · extract_lets k n id tick x ans y
      have judged : Memory.wf x.2.2 = true := by
        simp only [x]
        split
        · exact h
        · split
          · exact h
          · exact wf_loaderChunk _ _ _ _ _ _ h
      have answered : Memory.wf y.2 = true := wf_ringPut 1 0 ans x.2.1 judged
      split
      · exact wf_loaderOn _ answered
      · exact answered

/-! ### DMA -/

theorem wf_dmaWrite (c : Nat) (bs : List Byte) :
    ∀ (a : Nat) (m : Mach) (mem : Mem), Memory.wf mem = true → Memory.wf (dmaWrite c bs a m mem).2 = true := by
  induction bs with
  | nil => exact fun _ _ _ h => h
  | cons b bs ih =>
    intro a m mem h
    simp only [dmaWrite]
    split
    · split <;> exact ih _ _ _ h
    · split
      · exact ih _ _ _ (wf_hostWr _ _ _ h)
      · exact ih _ _ _ h
    · exact ih _ _ _ (wf_wr _ _ _ h)

theorem wf_burstDo (c : Nat) (ecc : Ecc) (m : Mach) {mem : Mem} (h : Memory.wf mem = true) :
    Memory.wf (burstDo c ecc m mem).2 = true := by
  unfold burstDo
  extract_lets n fromDram dstDram ea m1 dst m2 r t w
  split
  · exact h
  · split
    · exact h
    · split
      · split <;> exact h
      · exact wf_dmaWrite _ _ _ _ _ h

theorem keepsWf_dmaBurst (c : Nat) (ecc : Ecc) : KeepsWf (opDmaBurst c ecc) := by
  intro m mem h
  simp only [opDmaBurst]
  split
  · exact h
  · split
    · exact h
    · exact wf_burstDo _ _ _ h

theorem wf_completeDo (c : Nat) (m : Mach) {mem : Mem} (h : Memory.wf mem = true) :
    Memory.wf (completeDo c m mem).2 = true := by
  unfold completeDo
  extract_lets hc w res fw off m rec_ x m m m
  simp only [x]
  split
  · exact wf_dmaWrite _ _ _ _ _ h
  · exact h

theorem keepsWf_tdComplete (c : Nat) : KeepsWf (opTdComplete c) := by
  intro m mem h
  simp only [opTdComplete]
  split
  · exact h
  · split
    · exact h
    · split
      · exact h
      · exact wf_completeDo _ _ h

/-! ### Instructions of a context -/

/-- The memories of an effect are in canonical form. -/
def EffWf (x : Eff × Mem) : Prop := Memory.wf x.2 = true

/-- An instruction writes the memories as its effect does, or not at all. -/
theorem wf_meperM {core k : Nat} {f : Ctx → Mach → Eff × Mem} {mem : Mem} (m : Mach) (h : Memory.wf mem = true)
    (hf : ∀ c m, EffWf (f c m)) : Memory.wf (meperM core k f m mem).2 = true := by
  simp only [meperM]
  split
  · exact hf ..
  · exact h

theorem wf_dataWrite {core k a n v : Nat} {ans : BusAns} {m m' : Mach} {mem mem' : Mem} (h : Memory.wf mem = true)
    (put : dataWrite core k a n v ans m mem = .ok m' mem') : Memory.wf mem' = true := by
  have all : ∀ p, p = dataWrite core k a n v ans m mem → p = .ok m' mem' → Memory.wf mem' = true := by
    intro p hp
    simp only [dataWrite] at hp
    split at hp
    · rw [hp]; rintro ⟨⟩
    · split at hp
      · rw [hp]; rintro ⟨⟩
      · split at hp
        · rw [hp]; rintro ⟨⟩
        · split at hp
          · split at hp <;> (rw [hp]; rintro ⟨⟩; exact h)
          · split at hp
            · rw [hp]; rintro ⟨⟩; exact wf_hostWrBytes _ _ _ h
            · rw [hp]; rintro ⟨⟩
          · split at hp
            · rw [hp]; rintro ⟨⟩
            · rw [hp]; rintro ⟨⟩; exact wf_wrBytes _ _ _ h
          · rw [hp]; rintro ⟨⟩; exact wf_wrBytes _ _ _ h
  exact all _ rfl put

theorem keepsWf_store (core k rs2 n : Nat) (ea : Ctx → Nat) (ans : BusAns) : KeepsWf (store core k rs2 n ea ans) := by
  refine fun m mem h => wf_meperM m h fun c m => ?_
  dsimp only
  split
  · exact h
  · split
    · rename_i put; exact wf_dataWrite h put
    · exact h
    · exact h

theorem keepsWf_atomicOp (core k rd rs1 rs2 : Nat) (far : Bool) (f : Word → Word → Word) (ans : BusAns) :
    KeepsWf (atomicOp core k rd rs1 rs2 far f ans) := by
  refine fun m mem h => wf_meperM m h fun c m => ?_
  dsimp only
  generalize (if far = true then farAddr c rs1 0 else nearAddr c rs1 0) = ea
  split
  · exact h
  · split
    · exact h
    · split
      · split
        · rename_i put; exact wf_dataWrite h put
        · exact h
        · exact h
      · exact h
      · exact h

theorem keepsWf_amoadd (core k rd rs1 rs2 : Nat) (far : Bool) (ans : BusAns) :
    KeepsWf (opAmoadd core k rd rs1 rs2 far ans) := keepsWf_atomicOp core k rd rs1 rs2 far (· + ·) ans

theorem keepsWf_amoswp (core k rd rs1 rs2 : Nat) (far : Bool) (ans : BusAns) :
    KeepsWf (opAmoswp core k rd rs1 rs2 far ans) := keepsWf_atomicOp core k rd rs1 rs2 far (fun _ v => v) ans

theorem keepsWf_push (core k rd rs1 ring : Nat) (ans : BusAns) : KeepsWf (opPush core k rd rs1 ring ans) := by
  intro m mem h
  refine wf_meperM m h fun c m => ?_
  extract_lets +onlyGivenNames ea a r ret
  clear_value ea a r ret
  split
  · exact h
  · split
    · exact h
    · split
      · exact h
      · split
        · exact h
        · split
          · exact h
          · split
            · exact h
            · extract_lets +onlyGivenNames at_
              clear_value at_
              split
              · exact h
              · extract_lets +onlyGivenNames x
                exact wf_ringPut _ _ _ _ h

theorem keepsWf_pop (core k rd rs1 ring : Nat) (ans : BusAns) : KeepsWf (opPop core k rd rs1 ring ans) := by
  intro m mem h
  refine wf_meperM m h fun c m => ?_
  extract_lets +onlyGivenNames ea a r ret
  clear_value ea a r ret
  split
  · exact h
  · split
    · exact h
    · split
      · exact h
      · split
        · exact h
        · split
          · exact h
          · split
            · exact h
            · extract_lets +onlyGivenNames at_
              clear_value at_
              split
              · exact h
              · extract_lets +onlyGivenNames d
                clear_value d
                split
                · exact h
                · extract_lets +onlyGivenNames x
                  clear_value x
                  split
                  · exact wf_wrBytes _ _ _ h
                  · exact h

/-! ## The form of every meaning -/

/-- What a meaning answers from s: it acts on a unit that exists only when the operands name one (wf), it writes the
memories only in their canonical form, and a restart may follow. -/
inductive Completes (wf : Bool) (s : State) : Host.Outcome State Fault Refusal → Prop
  | unit {ok : Bool} {f : Mach → Mach} (h : ok = true → wf = true) : Completes wf s (onUnit ok f s)
  | unitS {ok : Bool} {f : Mach → Mach} (h : ok = true → wf = true) : Completes wf s (onUnitS ok f s)
  | unitM {ok : Bool} {f : Mach → Mem → Mach × Mem} (keeps : KeepsWf f) (h : ok = true → wf = true) :
      Completes wf s (onUnitM ok f s)
  | unitSM {ok : Bool} {f : Mach → Mem → Mach × Mem} (keeps : KeepsWf f) (h : ok = true → wf = true) :
      Completes wf s (onUnitSM ok f s)

theorem stn_ok {m : Mach} {n : Nat} (h : m.hasStn n = true) : decide (n < 5) = true := by
  have five : m.nStn ≤ 5 := by unfold Mach.nStn; cases m.part <;> decide
  simp only [Mach.hasStn, decide_eq_true_eq] at h ⊢
  omega

theorem syn_ok {m : Mach} {n : Nat} (h : m.hasSyn n = true) : decide (n < 7) = true := by
  have five : m.nStn ≤ 5 := by unfold Mach.nStn; cases m.part <;> decide
  have below : n < 2 + m.nStn := of_decide_eq_true h
  exact decide_eq_true (by omega)

theorem and_mono {a a' b : Bool} (h : a = true → a' = true) : (a && b) = true → (a' && b) = true := by
  cases a <;> cases b <;> simp_all

theorem and_mono_right {a b b' : Bool} (h : b = true → b' = true) : (a && b) = true → (a && b') = true := by
  cases a <;> cases b <;> simp_all

/-- The meaning of every command has one of the forms. -/
theorem exec_completes (i : Instr) (s : State) : Completes (wellFormed i) s (exec i s) := by
  cases i with
  | reset => exact .unitM (fun _ _ => wf_coldStart _ _) id
  | snapshotCaptureDone => exact .unitM keepsWf_snapshotCaptureDone id
  | ingestCompletionPost => exact .unitM keepsWf_ingestCompletionPost id
  | feederBandStart => exact .unitM (keepsWf_feederBandStart _ _) stn_ok
  | inflateRunDone => exact .unitM (keepsWf_inflateRunDone _ _) id
  | hsfWrite => exact .unitM keepsWf_hsfWrite id
  | dmaBurst => exact .unitSM (keepsWf_dmaBurst _ _) id
  | tdComplete => exact .unitSM (keepsWf_tdComplete _) id
  | pageRequestPost => exact .unitM keepsWf_pageRequestPost id
  | bar4Access => exact .unitM (keepsWf_bar4Access _ _ _ _) id
  | sw | sh | sb | swf => exact .unitSM (keepsWf_store _ _ _ _ _ _) id
  | amoadd => exact .unitSM (keepsWf_amoadd _ _ _ _ _ _ _) id
  | amoswp => exact .unitSM (keepsWf_amoswp _ _ _ _ _ _ _) id
  | push => exact .unitM (keepsWf_push _ _ _ _ _ _) id
  | pop => exact .unitM (keepsWf_pop _ _ _ _ _ _) id
  | chdata => exact .unitM (keepsWf_chdata _ _ _ _) id
  | secOpDone => exact .unitSM (keepsWf_secOpDone _) id
  | loaderChunkDescriptor => exact .unitM (keepsWf_loaderChunkDescriptor _) id
  | domainUp => exact .unitM (keepsWf_domainUp _) id
  | acLoss => exact .unitM keepsWf_acLoss id
  | acRestart => exact .unitM keepsWf_acRestart id
  | registerWrite | comparatorFire | commitReady | commitApply | arm | railSequenceUp | railSequenceDown | railPowerGood
  | railPgTimeout | railUpDelayEnd | railDischarged | railDischargeTimeout | railDownDelayEnd | railLost
  | pmbusTransactionDone | softwareReset | slotTrigger | scullDispatch | scullBudgetExpire | scullOutputWrite =>
    exact .unitS id
  | strokeStart | lineStep | bdMissing => exact .unitS stn_ok
  | safeFrame | fzEdge | signatureDone | polyAlignEnd | polyRampEnd | polyCommutate | polyStepTimeout | polyCatchTimeout
  | polyPwmPeriod | feederStart | headTempSample => exact .unit stn_ok
  | synthLock | synthLockLoss | synthRampEnd => exact .unit syn_ok
  | levelFrame | hallEdge => exact .unit (and_mono stn_ok)
  | markWindowClose | bemfCrossing => exact .unit (and_mono (and_mono stn_ok))
  | bandDeadline => exact .unit (and_mono (and_mono_right stn_ok))
  | _ => exact .unit id

/-! ## The two obligations -/

variable {wf : Bool} {s t : State} {o : Host.Outcome State Fault Refusal}

/-- A meaning of one of the forms answers a next state, with the queue as it was. -/
theorem Completes.next (h : Completes wf s o) : ∃ t, o = .next t ∧ t.pending = s.pending := by
  cases h with
  | unit => exact ⟨_, rfl, by split <;> rfl⟩
  | unitM => exact ⟨_, rfl, by split <;> rfl⟩
  | unitS => exact ⟨_, rfl, by split <;> simp [State.onMach]⟩
  | unitSM => exact ⟨_, rfl, by split <;> simp⟩

/-- With an operand that names no unit of the family nothing changes. -/
theorem Completes.idle (h : Completes wf s o) (bad : wf = false) : o = .next s := by
  subst bad
  cases h with
  | @unit ok f h | @unitS ok f h | @unitM ok f _ h | @unitSM ok f _ h =>
    cases ok with
    | true => exact absurd (h rfl) Bool.false_ne_true
    | false => rfl

theorem Completes.memOk (h : Completes wf s o) (ok : s.memOk) (next : o = .next t) : t.memOk := by
  cases h with
  | unit => rw [State.memOk, onUnit_mem next]; exact ok
  | unitS =>
    rw [onUnitS_next.1 next]
    split
    · exact wf_settle ok
    · exact ok
  | unitM keeps =>
    rw [onUnitM_next.1 next]
    split
    · exact keeps _ _ ok
    · exact ok
  | unitSM keeps =>
    rw [onUnitSM_next.1 next]
    split
    · exact wf_settle (keeps _ _ ok)
    · exact ok

/-- Settles O3: a step with no command waiting writes no memory outside a restart, and every command has one of the
forms whose writes keep the canonical form. -/
theorem stepKeepsMemory : Obligations.StepKeepsMemory := by
  intro s t ok next
  unfold step at next
  split at next
  · obtain rfl := Host.Outcome.next.inj next
    exact wf_settle ok
  · next c q _ => exact (exec_completes c (s.withPending q)).memOk ok next

/-- Settles O4: a meaning acts on a unit that exists only when its operands are well formed. -/
theorem commandsComplete : Obligations.CommandsComplete :=
  fun c s => ⟨(exec_completes c s).next, (exec_completes c s).idle⟩

end Sys2Proof.Machine
end

section
/-! PROOFS. The words of Meper instructions (O5): the fields of a packed word, the word of given fields, and the two
directions of decoding and encoding. -/

namespace Sys2Proof.Machine

/-! ## The fields of a packed word -/

section
variable {op rd rs1 rs2 func kind csr code flag sub : Nat} {imm : BitVec 16} {off : BitVec 26}

/-- Each field of a word of format A is what was packed there. -/
theorem fields_packA (ho : op < 64) (hd : rd < 32) (h1 : rs1 < 32) (h2 : rs2 < 32) (hf : func < 2048) :
    fieldAt (packA op rd rs1 rs2 func) 0 6 = op ∧ fieldAt (packA op rd rs1 rs2 func) 6 5 = rd ∧
      fieldAt (packA op rd rs1 rs2 func) 11 5 = rs1 ∧ fieldAt (packA op rd rs1 rs2 func) 16 5 = rs2 ∧
      fieldAt (packA op rd rs1 rs2 func) 21 11 = func := by
  simp only [fieldAt, packA, BitVec.toNat_ofNat]
  omega

theorem fields_packI (ho : op < 64) (hd : rd < 32) (h1 : rs1 < 32) :
    fieldAt (packI op rd rs1 imm) 0 6 = op ∧ fieldAt (packI op rd rs1 imm) 6 5 = rd ∧
      fieldAt (packI op rd rs1 imm) 11 5 = rs1 ∧ immField (packI op rd rs1 imm) = imm := by
  have hi := imm.isLt
  simp only [fieldAt, packI, immField, BitVec.toNat_ofNat]
  refine ⟨by omega, by omega, by omega, BitVec.eq_of_toNat_eq ?_⟩
  rw [BitVec.toNat_ofNat]
  omega

theorem fields_packJ (ho : op < 64) :
    fieldAt (packJ op off) 0 6 = op ∧ BitVec.ofNat 26 ((packJ op off).toNat / 64) = off := by
  have hi := off.isLt
  simp only [fieldAt, packJ, BitVec.toNat_ofNat]
  refine ⟨by omega, BitVec.eq_of_toNat_eq ?_⟩
  rw [BitVec.toNat_ofNat]
  omega

theorem fields_packC (ho : op < 64) (hd : rd < 32) (h1 : rs1 < 32) (hk : kind < 4) (hc : csr < 4096) :
    fieldAt (packC op rd rs1 kind csr) 0 6 = op ∧ fieldAt (packC op rd rs1 kind csr) 6 5 = rd ∧
      fieldAt (packC op rd rs1 kind csr) 11 5 = rs1 ∧ fieldAt (packC op rd rs1 kind csr) 16 2 = kind ∧
      fieldAt (packC op rd rs1 kind csr) 18 2 = 0 ∧ fieldAt (packC op rd rs1 kind csr) 20 12 = csr := by
  simp only [fieldAt, packC, BitVec.toNat_ofNat]
  omega

theorem fields_packT (ho : op < 64) (hd : rd < 32) (h1 : rs1 < 32) (h2 : rs2 < 32) (hc : code < 8) (hf : flag < 2)
    (hs : sub < 128) :
    fieldAt (packT op rd rs1 rs2 code flag sub) 0 6 = op ∧ fieldAt (packT op rd rs1 rs2 code flag sub) 6 5 = rd ∧
      fieldAt (packT op rd rs1 rs2 code flag sub) 11 5 = rs1 ∧
      fieldAt (packT op rd rs1 rs2 code flag sub) 16 5 = rs2 ∧
      fieldAt (packT op rd rs1 rs2 code flag sub) 21 3 = code ∧
      fieldAt (packT op rd rs1 rs2 code flag sub) 24 1 = flag ∧
      fieldAt (packT op rd rs1 rs2 code flag sub) 25 7 = sub := by
  simp only [fieldAt, packT, BitVec.toNat_ofNat]
  omega

end

/-! ## The word of given fields -/

variable {w : Word} {op : Nat}

theorem fieldAt_lt (w : Word) (lo n : Nat) : fieldAt w lo n < 2 ^ n := Nat.mod_lt _ (Nat.two_pow_pos n)

theorem okG_fieldAt (w : Word) (lo : Nat) : okG (fieldAt w lo 5) = true := decide_eq_true (fieldAt_lt w lo 5)

theorem packA_fields (ho : fieldAt w 0 6 = op) :
    packA op (fieldAt w 6 5) (fieldAt w 11 5) (fieldAt w 16 5) (fieldAt w 21 11) = w := by
  have hw := w.isLt
  subst ho
  refine BitVec.eq_of_toNat_eq ?_
  simp only [fieldAt, packA, BitVec.toNat_ofNat]
  omega

theorem packI_fields (ho : fieldAt w 0 6 = op) : packI op (fieldAt w 6 5) (fieldAt w 11 5) (immField w) = w := by
  have hw := w.isLt
  subst ho
  refine BitVec.eq_of_toNat_eq ?_
  simp only [fieldAt, packI, immField, BitVec.toNat_ofNat]
  omega

theorem packJ_fields (ho : fieldAt w 0 6 = op) : packJ op (BitVec.ofNat 26 (w.toNat / 64)) = w := by
  have hw := w.isLt
  subst ho
  refine BitVec.eq_of_toNat_eq ?_
  simp only [fieldAt, packJ, BitVec.toNat_ofNat]
  omega

theorem packC_fields (ho : fieldAt w 0 6 = op) (h0 : fieldAt w 18 2 = 0) :
    packC op (fieldAt w 6 5) (fieldAt w 11 5) (fieldAt w 16 2) (fieldAt w 20 12) = w := by
  have hw := w.isLt
  subst ho
  refine BitVec.eq_of_toNat_eq ?_
  simp only [fieldAt, packC, BitVec.toNat_ofNat] at h0 ⊢
  omega

theorem packT_fields (ho : fieldAt w 0 6 = op) :
    packT op (fieldAt w 6 5) (fieldAt w 11 5) (fieldAt w 16 5) (fieldAt w 21 3) (fieldAt w 24 1) (fieldAt w 25 7) = w := by
  have hw := w.isLt
  subst ho
  refine BitVec.eq_of_toNat_eq ?_
  simp only [fieldAt, packT, BitVec.toNat_ofNat]
  omega

/-! ## A word that decodes is the word of what it decodes to -/

theorem whenOk_eq_some {ok : Bool} {i j : Instr} : whenOk ok i = some j ↔ ok = true ∧ i = j := by
  cases ok <;> simp [whenOk]

/-- The word is the instruction's, whose fields are in range when its context is one. -/
structure Spells (stations core k : Nat) (w : Word) (i : Instr) : Prop where
  word : encodeMeper i = some w
  fits : okCtx core k = true → wellFormed i = true
  ranges : encodable stations i = true

/-- The ALU group. -/
theorem spells_of_decodeAlu {stations core k x y z func : Nat} {i : Instr} (h : decodeAlu core k x y z func = some i)
    (hx : okG x = true) (hy : okG y = true) (hz : okG z = true) : Spells stations core k (packA 0x01 x y z func) i := by
  unfold decodeAlu at h
  split at h
  case h_20 =>
    obtain ⟨zero, rfl⟩ := whenOk_eq_some.1 h
    obtain rfl : z = 0 := by simpa using zero
    exact ⟨rfl, fun ok => by simp [wellFormed, *], rfl⟩
  case h_26 => simp at h
  all_goals
    obtain rfl := Option.some.inj h
    exact ⟨rfl, fun ok => by simp [wellFormed, *], rfl⟩

/-- The CSR group. -/
theorem spells_of_decodeCsr {stations core k x y kind csr : Nat} {i : Instr} (h : decodeCsr core k x y kind csr = some i)
    (hx : okG x = true) (hy : okG y = true) (hc : csr < 4096) : Spells stations core k (packC 0x28 x y kind csr) i := by
  unfold decodeCsr at h
  split at h
  · next access =>
    obtain ⟨zero, rfl⟩ := whenOk_eq_some.1 h
    obtain rfl : y = 0 := by simpa using zero
    exact ⟨rfl, fun ok => by simp [wellFormed, *], by simp [encodable, access]⟩
  · next access =>
    split at h
    · subst csr
      obtain rfl := Option.some.inj h
      exact ⟨rfl, fun ok => by simp [wellFormed, *], rfl⟩
    · split at h
      · subst csr
        obtain rfl := Option.some.inj h
        exact ⟨rfl, fun ok => by simp [wellFormed, *], rfl⟩
      · obtain rfl := Option.some.inj h
        exact ⟨rfl, fun ok => by simp [wellFormed, *], by simp [encodable, *]⟩
  · next access =>
    obtain rfl := Option.some.inj h
    exact ⟨rfl, fun ok => by simp [wellFormed, *], by simp [encodable, access]⟩
  · next access =>
    obtain rfl := Option.some.inj h
    exact ⟨rfl, fun ok => by simp [wellFormed, *], by simp [encodable, access]⟩
  · simp at h

/-- The atomics: func names the operation and whether the address is far. -/
theorem spells_of_amo {stations core k x y z func : Nat} {ans : BusAns} {i : Instr}
    (h : (match func with
      | 0 => some (.amoadd core k x y z false ans)
      | 1 => some (.amoswp core k x y z false ans)
      | 2 => some (.amoadd core k x y z true ans)
      | 3 => some (.amoswp core k x y z true ans)
      | _ => none) = some i)
    (hx : okG x = true) (hy : okG y = true) (hz : okG z = true) : Spells stations core k (packA 0x1C x y z func) i := by
  split at h
  case h_5 => simp at h
  all_goals
    obtain rfl := Option.some.inj h
    exact ⟨rfl, fun ok => by simp [wellFormed, *], rfl⟩

theorem spells_of_decode {stations core k : Nat} {ans : BusAns} {w : Word} {i : Instr}
    (h : decodeMeper stations core k ans w = some i) : Spells stations core k w i := by
  have hx := okG_fieldAt w 6
  have hy := okG_fieldAt w 11
  have hz := okG_fieldAt w 16
  have hf : fieldAt w 24 1 < 2 := fieldAt_lt ..
  have hcode : fieldAt w 21 3 < 8 := fieldAt_lt ..
  have hsub : fieldAt w 25 7 < 128 := fieldAt_lt ..
  simp only [decodeMeper] at h
  split at h <;> rename_i hop
  case h_1 => simpa [packA_fields hop] using spells_of_decodeAlu h hx hy hz
  case h_19 => simpa [packA_fields hop] using spells_of_amo h hx hy hz
  case h_28 =>
    split at h
    · next zero => simpa [packC_fields hop zero] using spells_of_decodeCsr h hx hy (fieldAt_lt ..)
    · simp at h
  case h_8 =>
    obtain ⟨zero, rfl⟩ := whenOk_eq_some.1 h
    have word := packI_fields hop
    exact ⟨by simp_all [encodeMeper], fun ok => by simp [wellFormed, *], rfl⟩
  case h_26 =>
    obtain rfl := Option.some.inj h
    exact ⟨congrArg some (packJ_fields hop), id, rfl⟩
  case h_29 =>
    obtain ⟨fits, rfl⟩ := whenOk_eq_some.1 h
    have word := packT_fields hop
    simp only [Bool.and_eq_true, Bool.not_eq_true', beq_eq_false_iff_ne] at fits
    have zero : fieldAt w 24 1 = 0 := by omega
    exact ⟨by simp_all [encodeMeper], fun ok => by simp [wellFormed, *], fits.2⟩
  case h_37 =>
    obtain ⟨fits, rfl⟩ := whenOk_eq_some.1 h
    have word := packT_fields hop
    have flag : (if (fieldAt w 24 1 == 1) = true then 1 else 0) = fieldAt w 24 1 := by split <;> simp_all; omega
    exact ⟨by rw [encodeMeper, flag, word], fun ok => by simp [wellFormed, *], fits⟩
  case h_40 =>
    obtain ⟨fits, rfl⟩ := whenOk_eq_some.1 h
    have word := packT_fields hop
    simp only [Bool.and_eq_true, Bool.not_eq_true', beq_eq_false_iff_ne] at fits
    have zero : fieldAt w 24 1 = 0 := by omega
    exact ⟨by simp_all [encodeMeper], fun ok => by simp [wellFormed, *], fits.2⟩
  case h_30 | h_31 | h_32 | h_33 | h_34 | h_35 | h_38 | h_39 =>
    obtain ⟨fits, rfl⟩ := whenOk_eq_some.1 h
    have word := packA_fields hop
    exact ⟨by simp_all [encodeMeper], fun ok => by simp_all [wellFormed], rfl⟩
  case h_41 => simp at h
  all_goals
    obtain rfl := Option.some.inj h
    exact ⟨congrArg some (packI_fields hop), fun ok => by simp [wellFormed, *], rfl⟩

/-! ## An instruction that fits its encoding is read back from its word -/

section
variable {stations core k : Nat} {ans : BusAns}

theorem decode_packA {rd rs1 rs2 func : Nat} (hd : rd < 32) (h1 : rs1 < 32) (h2 : rs2 < 32)
    (hf : func < 2048) : decodeMeper stations core k ans (packA 0x01 rd rs1 rs2 func) = decodeAlu core k rd rs1 rs2 func := by
  simp [decodeMeper, fields_packA, *]

theorem decode_packC {rd rs1 kind csr : Nat} (hd : rd < 32) (h1 : rs1 < 32) (hk : kind < 4) (hc : csr < 4096) :
    decodeMeper stations core k ans (packC 0x28 rd rs1 kind csr) = decodeCsr core k rd rs1 kind csr := by
  simp [decodeMeper, fields_packC, *]

theorem readBack_encode {i : Instr} {w : Word} (hw : encodeMeper i = some w) (fits : wellFormed i = true)
    (ranges : encodable stations i = true) : ∃ core k ans, decodeMeper stations core k ans w = some i := by
  cases i with
  | add core k | sub core k | and core k | or core k | xor core k | sll core k | slli core k | srl core k | srli core k
  | sra core k | srai core k | slt core k | sltu core k | min core k | max core k | minu core k | maxu core k | adds core k
  | subs core k | mul core k | mulh core k | mulhu core k | sats core k | satu core k =>
    obtain rfl := Option.some.inj hw
    simp only [wellFormed, okG, Bool.and_eq_true, decide_eq_true_eq] at fits
    obtain ⟨⟨⟨-, hd⟩, h1⟩, h2⟩ := fits
    exact ⟨core, k, .error, decode_packA hd h1 h2 (by decide)⟩
  | clz core k =>
    obtain rfl := Option.some.inj hw
    simp only [wellFormed, okG, Bool.and_eq_true, decide_eq_true_eq] at fits
    obtain ⟨⟨-, hd⟩, h1⟩ := fits
    exact ⟨core, k, .error, decode_packA hd h1 (by decide) (by decide)⟩
  | addi core k | andi core k | ori core k | xori core k | slti core k | sltiu core k | beq core k | bne core k
  | blt core k | bge core k | bltu core k | bgeu core k | jalr core k | stg core k =>
    obtain rfl := Option.some.inj hw
    simp only [wellFormed, okG, Bool.and_eq_true, decide_eq_true_eq] at fits
    obtain ⟨⟨-, hx⟩, hy⟩ := fits
    exact ⟨core, k, .error, by simp [decodeMeper, fields_packI, *]⟩
  | ldh core k =>
    obtain rfl := Option.some.inj hw
    simp only [wellFormed, okG, Bool.and_eq_true, decide_eq_true_eq] at fits
    exact ⟨core, k, .error, by simp [decodeMeper, fields_packI, fits.2, whenOk]⟩
  | lw core k _ _ _ ans | lh core k _ _ _ ans | lhu core k _ _ _ ans | lb core k _ _ _ ans | lbu core k _ _ _ ans
  | lwf core k _ _ _ ans | sw core k _ _ _ ans | sh core k _ _ _ ans | sb core k _ _ _ ans | swf core k _ _ _ ans =>
    obtain rfl := Option.some.inj hw
    simp only [wellFormed, okG, Bool.and_eq_true, decide_eq_true_eq] at fits
    obtain ⟨⟨-, hx⟩, hy⟩ := fits
    exact ⟨core, k, ans, by simp [decodeMeper, fields_packI, *]⟩
  | amoadd core k _ _ _ far ans | amoswp core k _ _ _ far ans =>
    obtain rfl := Option.some.inj hw
    simp only [wellFormed, okG, Bool.and_eq_true, decide_eq_true_eq] at fits
    obtain ⟨⟨⟨-, hd⟩, h1⟩, h2⟩ := fits
    exact ⟨core, k, ans, by cases far <;> simp [decodeMeper, fields_packA, *]⟩
  | jal core k =>
    obtain rfl := Option.some.inj hw
    exact ⟨core, k, .error, by simp [decodeMeper, fields_packJ]⟩
  | csrr core k =>
    obtain rfl := Option.some.inj hw
    simp only [wellFormed, okG, Bool.and_eq_true, decide_eq_true_eq] at fits
    obtain ⟨⟨-, hd⟩, hc⟩ := fits
    obtain ⟨access, exists_⟩ := Option.isSome_iff_exists.1 ranges
    exact ⟨core, k, .error, by simp [decode_packC, decodeCsr, whenOk, *]⟩
  | csrw core k =>
    obtain rfl := Option.some.inj hw
    simp only [wellFormed, okG, Bool.and_eq_true, decide_eq_true_eq] at fits
    obtain ⟨⟨⟨-, hd⟩, hc⟩, h1⟩ := fits
    simp only [encodable, Bool.and_eq_true, beq_iff_eq, bne_iff_ne] at ranges
    exact ⟨core, k, .error, by simp [decode_packC, decodeCsr, *]⟩
  | csrs core k | csrc core k =>
    obtain rfl := Option.some.inj hw
    simp only [wellFormed, okG, Bool.and_eq_true, decide_eq_true_eq] at fits
    obtain ⟨⟨⟨-, hd⟩, hc⟩, h1⟩ := fits
    simp only [encodable, beq_iff_eq] at ranges
    exact ⟨core, k, .error, by simp [decode_packC, decodeCsr, *]⟩
  | stgclr core k | cmtcan core k =>
    obtain rfl := Option.some.inj hw
    simp only [wellFormed, okG, Bool.and_eq_true, decide_eq_true_eq] at fits
    obtain ⟨⟨-, hd⟩, h1⟩ := fits
    exact ⟨core, k, .error, by simp [decode_packC, decodeCsr, csrKind, *]⟩
  | waite core k | sleep core k | pri core k | arm core k | darm core k =>
    obtain rfl := Option.some.inj hw
    simp only [wellFormed, okG, Bool.and_eq_true, decide_eq_true_eq] at fits
    exact ⟨core, k, .error, by simp [decodeMeper, fields_packA, whenOk, *]⟩
  | yield core k =>
    obtain rfl := Option.some.inj hw
    exact ⟨core, k, .error, by simp [decodeMeper, fields_packA, whenOk]⟩
  | push core k _ _ _ ans | pop core k _ _ _ ans =>
    obtain rfl := Option.some.inj hw
    simp only [wellFormed, okG, Bool.and_eq_true, decide_eq_true_eq] at fits
    obtain ⟨⟨⟨-, hd⟩, h1⟩, hr⟩ := fits
    have hf : _ < 2048 := Nat.lt_trans hr (by decide)
    exact ⟨core, k, ans, by simp [decodeMeper, fields_packA, whenOk, *]⟩
  | waitt core k | flt core k =>
    obtain rfl := Option.some.inj hw
    simp only [wellFormed, okG, Bool.and_eq_true, decide_eq_true_eq] at fits
    obtain ⟨⟨⟨⟨⟨-, hd⟩, h1⟩, h2⟩, hc⟩, hs⟩ := fits
    simp only [encodable, decide_eq_true_eq] at ranges
    exact ⟨core, k, .error, by simp [decodeMeper, fields_packT, whenOk, *]⟩
  | cmt core k _ _ _ _ _ late =>
    obtain rfl := Option.some.inj hw
    simp only [wellFormed, okG, Bool.and_eq_true, decide_eq_true_eq] at fits
    obtain ⟨⟨⟨⟨⟨-, hd⟩, h1⟩, h2⟩, hc⟩, hs⟩ := fits
    simp only [encodable] at ranges
    exact ⟨core, k, .error, by cases late <;> simp [decodeMeper, fields_packT, whenOk, *]⟩
  | _ => exact nomatch hw

end

/-- Settles O5: decoding finds the packed fields again, and the fields found in a word pack to that word. -/
theorem meperEncoding : Obligations.MeperEncoding := by
  refine fun stations _ => ⟨fun i w hw fits ranges => readBack_encode hw fits ranges, fun core k ans w i h => ?_⟩
  have spells := spells_of_decode h
  exact ⟨spells.word, fun ok => ⟨spells.fits ok, spells.ranges⟩⟩

end Sys2Proof.Machine
end

section
/-! PROOFS. Instructions of a context that touch no memory (O6, O7, O8): one rule for an instruction whose
effect is done, one for a jump, and the values that the model's operations come to. -/

namespace Sys2Proof.Machine

/-! ## Contexts -/

/-- The later of two writes at one index stands. -/
theorem tput_tput_same {α : Type} (k : Nat) (v v' : α) (t : Tab α) : tput k v' (tput k v t) = tput k v' t := by
  induction t with
  | nil => simp [tput]
  | cons p t ih =>
    obtain ⟨i, a⟩ := p
    simp only [tput]
    split
    · simp [tput]
    · split
      · simp [tput]
      · simp [tput, *]

/-- Two changes of one context are one. -/
theorem modCtx_modCtx (m : Mach) (i : Nat) (f g : Ctx → Ctx) : (m.modCtx i f).modCtx i g = m.modCtx i fun c => g (f c) := by
  simp only [Mach.modCtx, Mach.setCtx, Mach.ctx, tget_tput_same, tput_tput_same]

/-! ## Rules for an instruction that starts -/

section
variable {core k : Nat} {s : State}

theorem onUnit_of {ok : Bool} (h : ok = true) (f : Mach → Mach) (s : State) : onUnit ok f s = .next (s.onMach f) := by
  rw [h]; rfl

/-- A state is named by the machine it holds. -/
theorem onMach_congr {f g : Mach → Mach} (h : f s.mach = g s.mach) : s.onMach f = s.onMach g := by
  rw [State.onMach, State.onMach, h]

/-- An instruction whose effect is done after a change g of the machine. -/
theorem onMach_meper_done {f : Ctx → Mach → Eff} {g : Mach → Mach} (h : s.fetching core k)
    (hf : f (s.ctxOf core k) (s.fetched core k) = .done (g (s.fetched core k))) :
    s.onMach (meper core k f) = s.ranOn core k g := onMach_congr (meper_done h.starts hf)

/-- An instruction that changes its own context alone. -/
theorem onMach_meper_ctx {f : Ctx → Mach → Eff} {g : Ctx → Ctx} (h : s.fetching core k)
    (hf : f (s.ctxOf core k) (s.fetched core k) = .done ((s.fetched core k).modCtx (cix core k) g)) :
    s.onMach (meper core k f) = s.ran core k g := by
  refine (onMach_meper_done (g := (·.modCtx (cix core k) g)) h hf).trans (onMach_congr ?_)
  exact congrArg _ (modCtx_modCtx ..)

/-- An instruction without an effect of its own. -/
theorem onMach_meper_id {f : Ctx → Mach → Eff} (h : s.fetching core k)
    (hf : f (s.ctxOf core k) (s.fetched core k) = .done (s.fetched core k)) :
    s.onMach (meper core k f) = s.ran core k id := onMach_meper_done (g := id) h hf

theorem onMach_meper_jump {f : Ctx → Mach → Eff} {g : Ctx → Ctx} {pc : Word} (h : s.fetching core k)
    (hf : f (s.ctxOf core k) (s.fetched core k) = .jump ((s.fetched core k).modCtx (cix core k) g) pc) :
    s.onMach (meper core k f) = s.ran core k fun c => { g c with pc := pc } := by
  refine onMach_congr ((meper_jump h.starts hf).trans ?_)
  rw [State.fetched, modCtx_modCtx, modCtx_modCtx]

theorem onMach_meper_wait {f : Ctx → Mach → Eff} {w : Wait} (h : s.fetching core k)
    (hf : f (s.ctxOf core k) (s.fetched core k) = .wait w) : s.onMach (meper core k f) =
      s.onMach fun m => resched core (m.modCtx (cix core k) fun d => { d with state := .waiting, wait := w }) :=
  onMach_congr (meper_wait h.starts hf)

/-- An instruction that gives rd a value. -/
theorem exec_setRd {i : Instr} {rd : Nat} {ok : Bool} {v : Ctx → Word} {w : Word} (h : s.fetching core k)
    (hi : exec i s = onUnit ok (setRd core k rd v) s) (hok : ok = true) (hv : v (s.ctxOf core k) = w) :
    exec i s = .next (s.ran core k (·.setG rd w)) := by
  rw [hi, onUnit_of hok, ← hv]
  exact congrArg _ (onMach_meper_ctx h rfl)

end

/-! ## The values of the ALU group -/

section
variable (a b : Word) (n : Nat)

theorem shiftLeft_eq_ofNat : a <<< n = BitVec.ofNat 32 (a.toNat * 2 ^ n) := by
  simp [BitVec.toNat_eq, Nat.shiftLeft_eq]

theorem shiftRight_eq_ofNat : a >>> n = BitVec.ofNat 32 (a.toNat / 2 ^ n) := by
  have hlt := Nat.lt_of_le_of_lt (Nat.div_le_self a.toNat (2 ^ n)) a.isLt
  simp [BitVec.toNat_eq, Nat.shiftRight_eq_div_pow, Nat.mod_eq_of_lt hlt]

theorem sshiftRight_eq_ofInt : a.sshiftRight n = BitVec.ofInt 32 (a.toInt / 2 ^ n) := by
  rw [BitVec.sshiftRight, Int.shiftRight_eq_div_pow]
  norm_cast

theorem boolWord_slt : boolWord (a.slt b) = if a.toInt < b.toInt then 1 else 0 := by
  simp [boolWord, BitVec.slt]

theorem boolWord_ult : boolWord (a.ult b) = if a.toNat < b.toNat then 1 else 0 := by
  simp [boolWord, BitVec.ult]

end

/-- Settles O6: each of the group gives rd one value. -/
theorem aluResults : Obligations.AluResults := by
  intro core k rd rs1 rs2 s h hd h1 h2 a b sh
  have ok : (okCtx core k && okG rd && okG rs1 && okG rs2) = true := by simp [h.1, okG, *]
  have low : rs2 % 32 = rs2 := Nat.mod_eq_of_lt h2
  exact ⟨exec_setRd h rfl ok rfl, exec_setRd h rfl ok rfl, exec_setRd h rfl ok rfl, exec_setRd h rfl ok rfl,
    exec_setRd h rfl ok rfl, exec_setRd h rfl ok (shiftLeft_eq_ofNat ..),
    exec_setRd h rfl ok ((shiftLeft_eq_ofNat ..).trans (by rw [low])), exec_setRd h rfl ok (shiftRight_eq_ofNat ..),
    exec_setRd h rfl ok ((shiftRight_eq_ofNat ..).trans (by rw [low])), exec_setRd h rfl ok (sshiftRight_eq_ofInt ..),
    exec_setRd h rfl ok ((sshiftRight_eq_ofInt ..).trans (by rw [low])), exec_setRd h rfl ok (boolWord_slt ..),
    exec_setRd h rfl ok (boolWord_ult ..)⟩

/-! ## Minima, limits, leading zeros and products -/

section
variable (a b : Word)

theorem ite_slt_eq_min : (if a.slt b then a else b) = BitVec.ofInt 32 (min a.toInt b.toInt) := by
  rw [BitVec.slt]
  by_cases h : a.toInt < b.toInt
  · simp [h, min_eq_left h.le]
  · simp [h, min_eq_right (not_lt.1 h)]

theorem ite_slt_eq_max : (if a.slt b then b else a) = BitVec.ofInt 32 (max a.toInt b.toInt) := by
  rw [BitVec.slt]
  by_cases h : a.toInt < b.toInt
  · simp [h, max_eq_right h.le]
  · simp [h, max_eq_left (not_lt.1 h)]

theorem ite_ult_eq_min : (if a.ult b then a else b) = BitVec.ofNat 32 (min a.toNat b.toNat) := by
  rw [BitVec.ult]
  by_cases h : a.toNat < b.toNat
  · simp [h, min_eq_left h.le]
  · simp [h, min_eq_right (not_lt.1 h)]

theorem ite_ult_eq_max : (if a.ult b then b else a) = BitVec.ofNat 32 (max a.toNat b.toNat) := by
  rw [BitVec.ult]
  by_cases h : a.toNat < b.toNat
  · simp [h, max_eq_right h.le]
  · simp [h, max_eq_left (not_lt.1 h)]

theorem clampI_eq {lo hi : Int} (h : lo ≤ hi) (i : Int) : clampI lo hi i = max lo (min hi i) := by
  unfold clampI
  omega

/-- The leading zeros of a word bound it from above, and from below unless it is 0. -/
theorem leadZeros_spec : leadZeros a ≤ 32 ∧ a.toNat < 2 ^ (32 - leadZeros a) ∧
    (leadZeros a < 32 → 2 ^ (31 - leadZeros a) ≤ a.toNat) := by
  unfold leadZeros
  by_cases zero : a.toNat = 0
  · simp [zero]
  · have top : Nat.log2 a.toNat < 32 := (Nat.log2_lt zero).2 a.isLt
    have below := Nat.lt_log2_self (n := a.toNat)
    have above := Nat.log2_self_le zero
    rw [if_neg zero, show 32 - (32 - (a.toNat.log2 + 1)) = a.toNat.log2 + 1 by omega,
      show 31 - (32 - (a.toNat.log2 + 1)) = a.toNat.log2 by omega]
    exact ⟨by omega, below, fun _ => above⟩

end

/-- Settles O7: each of the group gives rd one value, in the form of Table 4.3. -/
theorem aluBounded : Obligations.AluBounded := by
  intro core k rd rs1 rs2 s h hd h1 h2 a b lim
  have ok : (okCtx core k && okG rd && okG rs1 && okG rs2) = true := by simp [h.1, okG, *]
  have okClz : (okCtx core k && okG rd && okG rs1) = true := by simp [h.1, okG, *]
  have low : rs2 % 32 = rs2 := Nat.mod_eq_of_lt h2
  have bound : (1 : Int) ≤ 2 ^ rs2 := one_le_pow₀ (by decide)
  obtain ⟨most, below, above⟩ := leadZeros_spec a
  exact ⟨exec_setRd h rfl ok (ite_slt_eq_min ..), exec_setRd h rfl ok (ite_slt_eq_max ..),
    exec_setRd h rfl ok (ite_ult_eq_min ..), exec_setRd h rfl ok (ite_ult_eq_max ..),
    exec_setRd h rfl ok (congrArg _ (clampI_eq (by decide) _)), exec_setRd h rfl ok (congrArg _ (clampI_eq (by decide) _)),
    ⟨leadZeros a, most, below, above, exec_setRd h rfl okClz rfl⟩,
    exec_setRd h rfl ok (by simp [BitVec.toNat_eq, a, b]), exec_setRd h rfl ok rfl, exec_setRd h rfl ok rfl,
    exec_setRd h rfl ok (by rw [low]; exact congrArg _ (clampI_eq (by omega) _)),
    exec_setRd h rfl ok (by rw [low]; exact congrArg _ (clampI_eq (by omega) _))⟩

/-! ## Immediates and branches -/

theorem immZ_eq (imm : BitVec 16) : immZ imm = BitVec.ofNat 32 imm.toNat := by simp [immZ]

theorem toInt_immS (imm : BitVec 16) : (immS imm).toInt = imm.toInt := BitVec.toInt_signExtend_of_le (by decide)

theorem immZ_shift (imm : BitVec 16) : immZ imm <<< 16 = BitVec.ofNat 32 (imm.toNat * 65536) := by
  rw [shiftLeft_eq_ofNat, immZ_eq, BitVec.toNat_ofNat, Nat.mod_eq_of_lt (Nat.lt_trans imm.isLt (by decide))]
  rfl

/-- A sign-extended offset in words, as an offset in bytes. -/
theorem signExtend_shift {n : Nat} (off : BitVec n) : off.signExtend 32 <<< 2 = BitVec.ofInt 32 (4 * off.toInt) := by
  rw [BitVec.signExtend, shiftLeft_eq_ofNat, BitVec.toNat_eq, BitVec.toNat_ofNat, BitVec.toNat_ofInt, BitVec.toNat_ofInt]
  omega

section
variable {core k : Nat} {s : State}

/-- A branch changes the PC when its condition holds, and nothing else. -/
theorem exec_branch {i : Instr} {ok : Bool} {off : BitVec 16} {p : Ctx → Bool} (q : Prop) [Decidable q]
    (h : s.fetching core k) (hi : exec i s = onUnit ok (branch core k p off) s) (hok : ok = true)
    (hp : p (s.ctxOf core k) = true ↔ q) :
    exec i s = .next (s.ran core k fun d =>
      if q then { d with pc := (s.ctxOf core k).pc + BitVec.ofInt 32 (4 * off.toInt) } else d) := by
  rw [hi, onUnit_of hok, ← signExtend_shift]
  refine congrArg _ ?_
  by_cases taken : q
  · simp only [taken, if_true]
    refine onMach_congr ((meper_jump h.starts (m' := s.fetched core k) (if_pos (hp.2 taken))).trans ?_)
    rw [State.fetched, modCtx_modCtx]
    rfl
  · simp only [taken, if_false]
    exact onMach_meper_id h (if_neg (mt hp.1 taken))

end

/-- Settles O8: immediates as in the ALU group; a branch by its condition; the two jumps leave their return address. -/
theorem immediatesAndBranches : Obligations.ImmediatesAndBranches := by
  intro core k x y imm off s h hx hy c a b near turn
  have ok : (okCtx core k && okG x && okG y) = true := by simp [h.1, okG, *]
  have okLdh : (okCtx core k && okG x) = true := by simp [h.1, okG, *]
  have imm0 := immZ_eq imm
  exact ⟨exec_setRd h rfl ok rfl, exec_setRd h rfl ok (congrArg (b &&& ·) imm0), exec_setRd h rfl ok (congrArg (b ||| ·) imm0),
    exec_setRd h rfl ok (congrArg (b ^^^ ·) imm0), exec_setRd h rfl ok ((boolWord_slt ..).trans (by rw [toInt_immS])),
    exec_setRd h rfl ok (boolWord_ult ..), exec_setRd h rfl okLdh (immZ_shift imm), exec_branch _ h rfl ok beq_iff_eq,
    exec_branch _ h rfl ok bne_iff_ne, exec_branch _ h rfl ok BitVec.slt_iff_toInt_lt,
    exec_branch _ h rfl ok (by simp [BitVec.slt, a, b, c]), exec_branch _ h rfl ok (by simp [BitVec.ult, a, b, c]),
    exec_branch _ h rfl ok (by simp [BitVec.ult, a, b, c]),
    (onUnit_of h.1 _ s).trans (congrArg _ ((onMach_meper_jump h rfl).trans (by rw [jumpTo, signExtend_shift]))),
    (onUnit_of ok _ s).trans (congrArg _ (onMach_meper_jump h rfl))⟩

end Sys2Proof.Machine
end

section
/-! PROOFS. CSRs (O9). -/

namespace Sys2Proof.Machine

section
variable {core k : Nat} {s : State}

/-- The state after an instruction depends on what it makes of its own context alone. -/
theorem ran_congr {f g : Ctx → Ctx} (h : f (s.ctxOf core k).retire = g (s.ctxOf core k).retire) :
    s.ran core k f = s.ran core k g := by
  refine onMach_congr (congrArg _ ?_)
  rw [Mach.modCtx, Mach.modCtx]
  exact congrArg _ h

/-! ## CSRs -/

theorem exec_csrr {rd csr : Nat} (h : s.fetching core k) (hd : rd < 32) (hc : csr < 4096) (exists_ : csrKind csr ≠ none) :
    exec (.csrr core k rd csr) s = .next (s.ran core k fun d =>
      (csrLatch csr (s.ctxOf core k) s.mach d).setG rd (csrValue core k csr (s.ctxOf core k) s.mach)) := by
  have ok : (okCtx core k && okG rd && decide (csr < 4096)) = true := by simp [h.1, okG, *]
  refine (onUnit_of ok _ s).trans (congrArg _ (onMach_meper_ctx h ?_))
  exact if_pos (Option.isSome_iff_ne_none.2 exists_)

/-- A CSR that can be written takes what f makes of its value and g[rs1]; rd takes the value it had. -/
theorem exec_csrWrite {i : Instr} {ok : Bool} {rd csr rs1 : Nat} {f : Word → Word → Word} (h : s.fetching core k)
    (hi : exec i s = onUnit ok (csrWrite core k rd csr rs1 f) s) (hok : ok = true) (access : csrKind csr = some true) :
    let c := s.ctxOf core k
    let old := csrValue core k csr c s.mach
    exec i s = .next (s.ranOn core k fun m =>
      csrPut (cix core k) csr (f old (c.g rs1)) (m.modCtx (cix core k) (·.setG rd old))) := by
  rw [hi, onUnit_of hok]
  refine congrArg _ (onMach_meper_done h ?_)
  simp only [access]
  rfl

/-- The same, where the two writes together make g of the own context. -/
theorem exec_csrWrite_ctx {i : Instr} {ok : Bool} {rd csr rs1 : Nat} {f : Word → Word → Word} {g : Ctx → Ctx}
    (h : s.fetching core k) (hi : exec i s = onUnit ok (csrWrite core k rd csr rs1 f) s) (hok : ok = true)
    (access : csrKind csr = some true)
    (hg : let old := csrValue core k csr (s.ctxOf core k) s.mach
      ∀ m : Mach, csrPut (cix core k) csr (f old ((s.ctxOf core k).g rs1)) (m.modCtx (cix core k) (·.setG rd old)) =
        m.modCtx (cix core k) g) :
    exec i s = .next (s.ran core k g) := by
  refine (exec_csrWrite h hi hok access).trans (congrArg _ (onMach_congr (congrArg (resched core) ?_)))
  exact (hg _).trans (modCtx_modCtx ..)

theorem getLsbD_zero_iff (v : Word) : v.getLsbD 0 = true ↔ v.toNat % 2 = 1 := by
  simp [BitVec.getLsbD, Nat.testBit_zero]

theorem exec_csrw_farhi {rd rs1 : Nat} (h : s.fetching core k) (hd : rd < 32) (h1 : rs1 < 32) :
    let c := s.ctxOf core k
    exec (.csrw core k rd 0x002 rs1) s = .next (s.ran core k fun d =>
      { d.setG rd (BitVec.ofNat 32 c.farhi.toNat) with farhi := BitVec.ofNat 8 (c.g rs1).toNat }) := by
  refine exec_csrWrite_ctx (rd := rd) (csr := 2) (rs1 := rs1) (f := fun _ v => v) h rfl (by simp [h.1, okG, *]) rfl ?_
  intro old m
  rw [csrPut, modCtx_modCtx]
  rfl

theorem exec_csrw_evpend {rd rs1 : Nat} (h : s.fetching core k) (hd : rd < 32) (h1 : rs1 < 32) :
    let c := s.ctxOf core k
    exec (.csrw core k rd 0x003 rs1) s =
      .next (s.ran core k fun d => { d.setG rd c.evpend with evpend := c.g rs1 }) := by
  refine exec_csrWrite_ctx (rd := rd) (csr := 3) (rs1 := rs1) (f := fun _ v => v) h rfl (by simp [h.1, okG, *]) rfl ?_
  intro old m
  rw [csrPut, modCtx_modCtx]
  rfl

theorem exec_stgclr {rd rs1 : Nat} (h : s.fetching core k) (hd : rd < 32) (h1 : rs1 < 32) :
    exec (.stgclr core k rd rs1) s = .next (s.ran core k fun d =>
      if ((s.ctxOf core k).g rs1).toNat % 2 = 1 then { d.setG rd 0 with stage := [] } else d.setG rd 0) := by
  refine exec_csrWrite_ctx (rd := rd) (csr := 5) (rs1 := rs1) (f := fun _ v => v) h rfl (by simp [h.1, okG, *]) rfl ?_
  intro old m
  simp only [csrPut, getLsbD_zero_iff]
  split
  · exact modCtx_modCtx ..
  · rfl

theorem exec_cmtcan {rd rs1 : Nat} (h : s.fetching core k) (hd : rd < 32) (h1 : rs1 < 32) :
    exec (.cmtcan core k rd rs1) s = .next (s.ranOn core k fun m =>
      when (((s.ctxOf core k).g rs1).toNat % 2 = 1) (cancelCommit (cix core k)) (m.modCtx (cix core k) (·.setG rd 0))) := by
  refine (exec_csrWrite (rd := rd) (csr := 7) (rs1 := rs1) (f := fun _ v => v) h rfl (by simp [h.1, okG, *]) rfl).trans ?_
  refine congrArg _ (onMach_congr (congrArg (resched core) ?_))
  simp only [csrPut, getLsbD_zero_iff, when, decide_eq_true_eq, csrValue]

end

/-- Settles O9: CSRR reads; the three writes share one rule; the CSRs of their own name what their write does. -/
theorem csrResults : Obligations.CsrResults := by
  intro core k rd rs1 csr s h hd h1 hc i c v old put
  have ok : (okCtx core k && okG rd && decide (csr < 4096) && okG rs1) = true := by simp [h.1, okG, *]
  refine ⟨exec_csrr h hd hc, fun access => ?_, exec_csrw_farhi h hd h1, exec_csrw_evpend h hd h1, exec_stgclr h hd h1,
    exec_cmtcan h hd h1⟩
  exact ⟨exec_csrWrite (f := fun _ v => v) h rfl ok access, exec_csrWrite (f := fun old v => old ||| v) h rfl ok access,
    exec_csrWrite (f := fun old v => old &&& ~~~v) h rfl ok access⟩

end Sys2Proof.Machine
end

section
/-! PROOFS. Waits and context control when they issue (O13), and the seal of a commit (O16). -/

namespace Sys2Proof.Machine

section
variable {core k : Nat} {s : State}

/-- What an instruction that changes its own context does is one of two things. -/
theorem onMach_meper_if {f : Ctx → Mach → Eff} {p : Prop} [Decidable p] {t e : State} (ht : p → s.onMach (meper core k f) = t)
    (he : ¬p → s.onMach (meper core k f) = e) : s.onMach (meper core k f) = if p then t else e := by
  split
  · exact ht ‹_›
  · exact he ‹_›

/-- The target that a WAITT names, by the code of its timebase. -/
def waittTarget (c : Ctx) (rs1 rs2 code : Nat) : BitVec 64 :=
  match code with
  | 0 => pairTarget c rs1 rs2 64
  | 1 => pairTarget c rs1 rs2 48
  | _ => (c.g rs1).zeroExtend 64

/-- The effect of a WAITT. -/
def waittEff (core k rd rs1 rs2 code sub : Nat) (c : Ctx) (m : Mach) : Eff :=
  if 3 < code || (code < 2 && sub != 0) || (2 ≤ code && (rs2 != 0 || m.nStn ≤ sub)) then illegal c m
  else if baseReached code sub (waittTarget c rs1 rs2 code) m then .done (m.modCtx (cix core k) (·.setG rd 1))
  else .wait (.timebase code sub (waittTarget c rs1 rs2 code) rd)

theorem opWaitt_eq (core k rd rs1 rs2 code sub : Nat) :
    opWaitt core k rd rs1 rs2 code sub = meper core k (waittEff core k rd rs1 rs2 code sub) := rfl

/-- A WAITT whose fields are in range is no undefined encoding. -/
theorem waittEff_of_ok {rd rs1 rs2 code sub : Nat} {c : Ctx} {m : Mach} (h : waittOk m.nStn rs2 code sub = true) :
    waittEff core k rd rs1 rs2 code sub c m = if baseReached code sub (waittTarget c rs1 rs2 code) m
      then .done (m.modCtx (cix core k) (·.setG rd 1)) else .wait (.timebase code sub (waittTarget c rs1 rs2 code) rd) := by
  refine if_neg ?_
  simp only [waittOk, Bool.or_eq_true, Bool.and_eq_true, decide_eq_true_eq, beq_iff_eq] at h
  simp only [Bool.or_eq_true, Bool.and_eq_true, decide_eq_true_eq, bne_iff_ne]
  omega

/-- Whether a timebase has reached a target is asked of clocks and registers, which the fetch leaves. -/
theorem baseReached_fetched (base stn : Nat) (t : BitVec 64) :
    baseReached base stn t (s.fetched core k) = baseReached base stn t s.mach := rfl

theorem exec_waitt {rd rs1 rs2 code sub : Nat} (h : s.fetching core k) (hd : rd < 32) (h1 : rs1 < 32) (h2 : rs2 < 32)
    (hc : code < 8) (hs : sub < 128) (ok : waittOk s.mach.nStn rs2 code sub = true) :
    let tgt := waittTarget (s.ctxOf core k) rs1 rs2 code
    exec (.waitt core k rd rs1 rs2 code sub) s = .next (if baseReached code sub tgt s.mach then s.ran core k (·.setG rd 1)
      else s.onMach fun m => resched core (m.modCtx (cix core k) fun d =>
        { d with state := .waiting, wait := .timebase code sub tgt rd })) := by
  intro tgt
  have fields : (okCtx core k && okG rd && okG rs1 && okG rs2 && decide (code < 8) && decide (sub < 128)) = true := by
    simp [h.1, okG, *]
  refine (onUnit_of fields (opWaitt core k rd rs1 rs2 code sub) s).trans (congrArg _ ?_)
  have effect := waittEff_of_ok (core := core) (k := k) (rd := rd) (rs1 := rs1) (c := s.ctxOf core k) (m := s.fetched core k) ok
  rw [baseReached_fetched] at effect
  rw [opWaitt_eq]
  refine onMach_meper_if (fun reached => ?_) (fun later => ?_)
  · exact onMach_meper_ctx h (effect.trans (if_pos reached))
  · exact onMach_meper_wait h (effect.trans (if_neg later))

theorem exec_waite {rd rs1 : Nat} (h : s.fetching core k) (hd : rd < 32) (h1 : rs1 < 32) :
    let c := s.ctxOf core k
    let a := c.g rs1
    exec (.waite core k rd rs1) s = .next (if c.evpend &&& a = 0
      then s.onMach fun m => resched core (m.modCtx (cix core k) fun d => { d with state := .waiting, wait := .events a rd })
      else s.ran core k fun d => { d.setG rd (c.evpend &&& a) with evpend := c.evpend &&& ~~~a }) := by
  intro c a
  refine (onUnit_of (by simp [h.1, okG, *]) (opWaite core k rd rs1) s).trans (congrArg _ ?_)
  refine onMach_meper_if (fun none => ?_) (fun hit => ?_)
  · exact onMach_meper_wait h (if_pos none)
  · refine (onMach_meper_ctx h (if_neg hit)).trans (ran_congr ?_)
    have left : c.evpend &&& ~~~(c.evpend &&& a) = c.evpend &&& ~~~a := by
      ext j; simp; cases c.evpend[j] <;> simp
    dsimp only
    rw [show (s.ctxOf core k).retire.evpend = c.evpend from rfl, left]

theorem exec_sleep {rs1 : Nat} (h : s.fetching core k) (h1 : rs1 < 32) :
    let a := (s.ctxOf core k).g rs1
    exec (.sleep core k rs1) s = .next (if a = 0 then s.ran core k id
      else s.onMach fun m => resched core (m.modCtx (cix core k) fun d =>
        { d with state := .waiting, wait := .sleep (s.mach.clk.tick + BitVec.ofNat 64 a.toNat) })) := by
  intro a
  refine (onUnit_of (by simp [h.1, okG, *]) (opSleep core k rs1) s).trans (congrArg _ ?_)
  refine onMach_meper_if (fun zero => ?_) (fun some => ?_)
  · exact onMach_meper_id h (if_pos zero)
  · refine onMach_meper_wait h ((if_neg some).trans ?_)
    rw [BitVec.ofNat_add, show (s.fetched core k).now = s.mach.clk.tick.toNat from rfl, BitVec.ofNat_toNat,
      BitVec.setWidth_eq]

theorem exec_yield (h : s.fetching core k) : exec (.yield core k) s =
    .next (match equalReady core (s.ctxOf core k).prio (s.fetched core k) with
      | some j => s.ranOn core k (switchTo core j)
      | none => s.ran core k id) := by
  refine (onUnit_of h.1 (opYield core k) s).trans (congrArg _ ?_)
  have effect : ∀ j, equalReady core (s.ctxOf core k).prio (s.fetched core k) = j →
      (match equalReady core (s.ctxOf core k).prio (s.fetched core k) with
        | some j => Eff.done (switchTo core j (s.fetched core k))
        | none => .done (s.fetched core k)) = match j with
        | some j => Eff.done (switchTo core j (s.fetched core k))
        | none => .done (s.fetched core k) := by rintro j rfl; rfl
  match next : equalReady core (s.ctxOf core k).prio (s.fetched core k) with
  | some j => exact onMach_meper_done h (effect _ next)
  | none => exact onMach_meper_id h (effect _ next)

end

/-- Settles O13: each of the five instructions has its own rule. -/
theorem waitsAndControl : Obligations.WaitsAndControl := by
  intro core k rd rs1 rs2 code sub s h hd h1 h2 hc hs i c a waits tgt
  have target : tgt = waittTarget c rs1 rs2 code := by
    simp only [tgt, waittTarget, pairTarget]
    split
    · simp [a, Nat.mod_eq_of_lt (c.g rs2).isLt]
    · rfl
    · simp [a]
  refine ⟨fun ok => target ▸ exec_waitt h hd h1 h2 hc hs ok, exec_waite h hd h1, exec_sleep h h1, exec_yield h, ?_⟩
  exact (onUnit_of (by simp [h.1, okG, *]) (opPri core k rd rs1) s).trans (congrArg _ (onMach_meper_ctx h rfl))

/-! ## The seal of a commit -/

theorem g_setG_same {c : Ctx} {r : Nat} (h : r ≠ 0) (v : Word) : (c.setG r v).g r = v := by
  simp [Ctx.setG, Ctx.g, h]

theorem g_setG_ne {c : Ctx} {r r' : Nat} (h : r' ≠ r) (v : Word) : (c.setG r v).g r' = c.g r' := by
  by_cases zero : r = 0 <;> simp [Ctx.setG, Ctx.g, zero, tget_tput_ne _ _ h]

/-- The context that a seal leaves. -/
def Ctx.sealed (c : Ctx) (rd : Nat) (k : Commit) : Ctx :=
  { c.setG rd (BitVec.ofNat 32 ((c.cmtSeq + 1) % 256)) with stage := [], slot := some k }

theorem ctx_sealNow (i rd : Nat) (b : Boundary) (late : Bool) (m : Mach) : (sealNow i b late rd m).ctx i =
    (m.ctx i).sealed rd { boundary := b, lateOk := late, entries := (m.ctx i).stage, seq := m.cox.sealClock, sealedAt := m.clk.tick } := by
  exact tget_tput_same ..

/-- Settles O16: the seal writes one context whole. -/
theorem sealTakesStage : Obligations.SealTakesStage := by
  intro i rd b late m c d
  have sealed : d = c.sealed rd _ := ctx_sealNow i rd b late m
  refine ⟨by rw [sealed]; rfl, by rw [sealed]; rfl, by rw [sealed]; rfl, by rw [sealed]; rfl, fun h => ?_, fun r h => ?_, rfl⟩
  · rw [sealed]; exact g_setG_same h _
  · rw [sealed]; exact g_setG_ne h _

end Sys2Proof.Machine
end

section
/-! PROOFS. What a fault message of any class, with all that follows it, leaves alone: one relation, closed under event
lines, ledger transitions, the collector and the trip. -/

namespace Sys2Proof.Machine

/-! ## The relation -/

/-- Registers that a message or a ledger transition may write: LOSTCNT, the MSI-X pending bits, SNAP_STAT and HSFSEQ,
JSFREE and the watches' STAT (a held edge may name any watch). -/
def rippleKey (key : Nat) : Prop :=
  key ∈ [0x040008, 0x09F000, 0x09F004, 0x060004, 0x060018, 0x0B002C] ∨ 0x07010C ≤ key ∧ key % 16 = 12

/-- Registers that a class 4 trip writes besides. -/
def tripsKey (key : Nat) : Prop := 0x10 ≤ key / 65536 ∧ key / 65536 ≤ 0x1E

/-- The machine after differs from the one before at most in the ledger, the collector, snapshots, pending bits of
contexts, Scull's triggers, Fjarilink's queues, the stored entries, what has been sent, and, where a class 4 trip has
been, in drives, islands, the fuser and their registers. -/
structure Ripples (trip : Prop) (m m' : Mach) : Prop where
  part : m'.part = m.part
  pend : m'.pend = m.pend
  latches : m'.latches = m.latches
  perReq : m'.perReq = m.perReq
  reply : m'.reply = m.reply
  fresh : m'.fresh = m.fresh
  clk : m'.clk = m.clk
  sec : m'.sec = m.sec
  pwr : m'.pwr = m.pwr
  adc : m'.adc = m.adc
  hv : m'.hv = m.hv
  thm : m'.thm = m.thm
  shunt : m'.shunt = m.shunt
  enc : m'.enc = m.enc
  ssi : m'.ssi = m.ssi
  sns : m'.sns = m.sns
  axes : m'.axes = m.axes
  mark : m'.mark = m.mark
  dram : m'.dram = m.dram
  hif : m'.hif = m.hif
  gp : m'.gp = m.gp
  peat : m'.peat = { m.peat with entries := m'.peat.entries }
  mot : m'.mot = { m.mot with stopDue := m'.mot.stopDue }
  cox : m'.cox = { m.cox with ctxs := m'.cox.ctxs }
  ctx : ∀ i, m'.ctx i = { m.ctx i with evpend := (m'.ctx i).evpend }
  scl : m'.scl = { m.scl with trigDue := m'.scl.trigDue, syncDue := m'.scl.syncDue }
  fjl : m'.fjl = { m.fjl with lseq0 := m'.fjl.lseq0, lseq1 := m'.fjl.lseq1, unacked0 := m'.fjl.unacked0, unacked1 := m'.fjl.unacked1 }
  drv : ¬trip → m'.drv = m.drv
  vid : ¬trip → m'.vid = m.vid
  fus : ¬trip → m'.fus = m.fus
  word : ∀ key, ¬rippleKey key → (trip → ¬tripsKey key) → m'.word key = m.word key

variable {trip : Prop}

theorem Ripples.refl (m : Mach) : Ripples trip m m := by constructor <;> intros <;> rfl

theorem Ripples.trans {a b c : Mach} (h : Ripples trip a b) (g : Ripples trip b c) : Ripples trip a c where
  part := g.part.trans h.part
  pend := g.pend.trans h.pend
  latches := g.latches.trans h.latches
  perReq := g.perReq.trans h.perReq
  reply := g.reply.trans h.reply
  fresh := g.fresh.trans h.fresh
  clk := g.clk.trans h.clk
  sec := g.sec.trans h.sec
  pwr := g.pwr.trans h.pwr
  adc := g.adc.trans h.adc
  hv := g.hv.trans h.hv
  thm := g.thm.trans h.thm
  shunt := g.shunt.trans h.shunt
  enc := g.enc.trans h.enc
  ssi := g.ssi.trans h.ssi
  sns := g.sns.trans h.sns
  axes := g.axes.trans h.axes
  mark := g.mark.trans h.mark
  dram := g.dram.trans h.dram
  hif := g.hif.trans h.hif
  gp := g.gp.trans h.gp
  peat := g.peat.trans (by rw [h.peat])
  mot := g.mot.trans (by rw [h.mot])
  cox := g.cox.trans (by rw [h.cox])
  ctx i := (g.ctx i).trans (by rw [h.ctx i])
  scl := g.scl.trans (by rw [h.scl])
  fjl := g.fjl.trans (by rw [h.fjl])
  drv n := (g.drv n).trans (h.drv n)
  vid n := (g.vid n).trans (h.vid n)
  fus n := (g.fus n).trans (h.fus n)
  word key hk ht := (g.word key hk ht).trans (h.word key hk ht)

section
variable {m m' : Mach}

/-- A field of a register that no message writes keeps its value. -/
theorem Ripples.get (h : Ripples trip m m') {f : FRef} (hf : ¬rippleKey f.key) (ht : trip → ¬tripsKey f.key) :
    m'.get f = m.get f := by simp [Mach.get, h.word _ hf ht]

theorem Ripples.on (h : Ripples trip m m') {f : FRef} (hf : ¬rippleKey f.key) (ht : trip → ¬tripsKey f.key) :
    m'.on f = m.on f := by simp [Mach.on, h.get hf ht]

/-- Where no class 4 trip is, a field of every register but those of a message keeps its value. -/
theorem Ripples.get' (h : Ripples False m m') {f : FRef} (hf : ¬rippleKey f.key) : m'.get f = m.get f :=
  h.get hf False.elim

theorem Ripples.on' (h : Ripples False m m') {f : FRef} (hf : ¬rippleKey f.key) : m'.on f = m.on f :=
  h.on hf False.elim

theorem Ripples.now (h : Ripples trip m m') : m'.now = m.now := by simp [Mach.now, h.clk]

theorem Ripples.cmp (h : Ripples trip m m') (i : Nat) : m'.cmp i = m.cmp i := by rw [Mach.cmp, h.cox]; rfl

end

theorem ripples_each {α : Type} (f : α → Mach → Mach) (l : List α) (hf : ∀ a ∈ l, ∀ m, Ripples trip m (f a m)) :
    ∀ m, Ripples trip m (each l f m) := by
  induction l with
  | nil => exact Ripples.refl
  | cons a l ih =>
    intro m
    exact (hf a (List.mem_cons_self ..) m).trans (ih (fun b hb => hf b (List.mem_cons_of_mem _ hb)) _)

theorem ripples_when {c : Bool} {f : Mach → Mach} (hf : c = true → ∀ m, Ripples trip m (f m)) (m : Mach) :
    Ripples trip m (when c f m) := by
  simp only [when]
  split
  · exact hf ‹_› m
  · exact Ripples.refl m

theorem ripples_setWord {key : Nat} (hk : rippleKey key ∨ trip ∧ tripsKey key) (w : Word) (m : Mach) :
    Ripples trip m (m.setWord key w) := by
  constructor
  case word =>
    intro k quiet untripped
    refine Mach.word_setWord_ne _ (fun e => ?_) _
    rcases hk with hk | ⟨t, hk⟩
    · exact quiet (e ▸ hk)
    · exact untripped t (e ▸ hk)
  all_goals intros; rfl

theorem ripples_set {f : FRef} (hk : rippleKey f.key ∨ trip ∧ tripsKey f.key) (v : Nat) (m : Mach) :
    Ripples trip m (m.set f v) := ripples_setWord hk _ m

/-! ## Events, messages out, snapshots -/

theorem ripples_evSet (i : Nat) (b : Word) (m : Mach) : Ripples trip m (m.evSet i b) := by
  constructor
  case ctx =>
    intro j
    by_cases h : j = i
    · subst h; simp [Mach.evSet, Mach.ctx, Mach.setCtx]
    · simp [Mach.evSet, Mach.ctx, Mach.setCtx, tget_tput_ne _ _ h]
  all_goals intros; rfl

theorem ripples_foldl {α : Type} (f : Mach → α → Mach) (hf : ∀ m a, Ripples trip m (f m a)) (l : List α) :
    ∀ m, Ripples trip m (l.foldl f m) := by
  induction l with
  | nil => exact Ripples.refl
  | cons a l ih => exact fun m => (hf m a).trans (ih _)

theorem ripples_assertEvent (code : Nat) (m : Mach) : Ripples trip m (assertEvent code m) := by
  have cores : Ripples trip m ((evselHits m.regs code).foldl (fun m cj => evSetCore (8 + cj.2) cj.1 m) m) :=
    ripples_foldl _ (fun m _ => ripples_foldl _ (fun m _ => ripples_evSet _ _ m) _ m) _ m
  rw [assertEvent]
  split
  · exact Ripples.refl m
  · exact cores.trans (by constructor <;> intros <;> rfl)

theorem ripples_msix (v : Nat) (m : Mach) : Ripples trip m (m.msix v) := by
  simp only [Mach.msix]
  split
  · refine ripples_setWord (.inl (.inl ?_)) _ m
    have : v % 64 / 32 = 0 ∨ v % 64 / 32 = 1 := by omega
    rcases this with e | e <;> simp [e, R.DMA_MSIXP_PBA]
  · constructor <;> intros <;> rfl

theorem ripples_captureBegin (b : Nat) (m : Mach) : Ripples trip m (captureBegin b m) := by
  have deferred : Ripples trip m (when m.snap.deferred (·.incSat R.SNAP_STAT_DEFER) m) :=
    ripples_when (fun _ m => ripples_set (.inl (.inl (by decide))) _ m) m
  refine deferred.trans ?_
  constructor <;> intros <;> rfl

theorem ripples_snapTry (m : Mach) : Ripples trip m (snapTry m) := by
  simp only [snapTry]
  split
  · split
    · exact ripples_captureBegin _ m
    · constructor <;> intros <;> rfl
  · exact Ripples.refl m

theorem ripples_snapEvent (k : SnapKind) (r : Nat) (m : Mach) : Ripples trip m (snapEvent k r m) := by
  simp only [snapEvent]
  split
  · split
    · constructor <;> intros <;> rfl
    · split
      · exact (ripples_set (f := R.SNAP_STAT_HSFDROP) (.inl (.inl (by decide))) _ m).trans
          (ripples_set (f := R.SNAP_HSFSEQ) (.inl (.inl (by decide))) _ _)
      · exact Ripples.refl m
  · exact Ripples.refl m

theorem ripples_frameTx (port : Nat) (f : Frame) (m : Mach) : Ripples trip m (frameTx port f m) := by
  by_cases hp : port = 0 <;> simp only [frameTx, hp, ↓reduceIte]
  all_goals
    split
    · constructor <;> intros <;> rfl
    · exact Ripples.refl m

theorem ripples_frameSend (f : Frame) (m : Mach) : Ripples trip m (frameSend f m) := by
  simp only [frameSend]
  split
  · exact (ripples_frameTx ..).trans (ripples_frameTx ..)
  · split
    · exact ripples_frameTx ..
    · exact (ripples_frameTx ..).trans (ripples_frameTx ..)

/-! ## The ledger and the job store -/

theorem ripples_setSheet (r : Nat) (sh : Sheet) (m : Mach) : Ripples trip m (m.setSheet r sh) := by
  constructor <;> intros <;> rfl

theorem ripples_jsCount (m : Mach) : Ripples trip m (jsCount m) :=
  (ripples_set (f := R.PEAT_JSFREE_UNITS) (.inl (.inl (by decide))) _ m).trans
    (ripples_when (fun _ => ripples_assertEvent _) _)

theorem ripples_setEntry (sid : Sid) (e : Entry) (m : Mach) : Ripples trip m (m.setEntry sid e) := by
  constructor <;> intros <;> rfl

theorem ripples_jsRelease (sid : Sid) (m : Mach) : Ripples trip m (jsRelease sid m) := by
  refine Ripples.trans (b := { m with peat := { m.peat with entries := tdel sid.toNat m.peat.entries } }) ?_ (ripples_jsCount _)
  constructor <;> intros <;> rfl

theorem ripples_jsHold (sid : Sid) (m : Mach) : Ripples trip m (jsHold sid m) := by
  simp only [jsHold]
  split
  · exact Ripples.refl m
  · split
    · split
      · exact ripples_setEntry ..
      · exact ripples_jsRelease ..
    · exact ripples_setEntry ..

theorem ripples_jsDelivered (sh : Sheet) (m : Mach) : Ripples trip m (jsDelivered sh m) :=
  (ripples_jsHold ..).trans (ripples_when (fun _ => ripples_jsHold _) _)

theorem ripples_queueEvents (n : Nat) (m : Mach) : Ripples trip m (queueEvents n m) :=
  (ripples_when (fun _ => ripples_assertEvent _) m).trans (ripples_when (fun _ => ripples_assertEvent _) _)

theorem ripples_countTerminal (st : SheetState) (m : Mach) : Ripples trip m (countTerminal st m) := by
  constructor <;> intros <;> rfl

theorem ripples_sheetTo (r : Nat) (st : SheetState) (m : Mach) : Ripples trip m (sheetTo r st m) := by
  simp only [sheetTo]
  refine Ripples.trans ?_ (ripples_queueEvents _ _)
  refine Ripples.trans ?_ (ripples_when (fun _ m => ((ripples_assertEvent _ m).trans (ripples_countTerminal _ _)).trans
    (ripples_snapEvent _ _ _)) _)
  refine Ripples.trans ?_ (ripples_when (fun _ => ripples_jsDelivered _) _)
  refine Ripples.trans ?_ (ripples_when (fun _ m => (ripples_assertEvent _ m).trans (ripples_snapEvent _ _ _)) _)
  exact (ripples_setSheet r _ m).trans (ripples_when (fun _ m => ripples_frameSend _ m) _)

theorem ripples_sheetStep (r : Nat) (m : Mach) : Ripples trip m (sheetStep r m) := by
  have go {c : Bool} (st : SheetState) : Ripples trip m (if c then sheetTo r st m else m) := by
    split
    · exact ripples_sheetTo r st m
    · exact Ripples.refl m
  simp only [sheetStep]
  split
  iterate 4 exact go _
  exact Ripples.refl m

theorem ripples_sheetAdvance (r : Nat) (m : Mach) : Ripples trip m (sheetAdvance r m) := by
  have step := ripples_sheetStep (trip := trip) r
  simp only [sheetAdvance]
  split
  · exact (((step _).trans (step _)).trans (step _)).trans (step _)
  · exact Ripples.refl m

theorem ripples_msgOnRecord (g : Msg) (r : Nat) (m : Mach) : Ripples trip m (msgOnRecord g r m) := by
  have go := ripples_sheetTo (trip := trip) r
  have blamed (st : SheetState) (sh : Sheet) : Ripples trip m (sheetTo r st (m.setSheet r sh)) :=
    (ripples_setSheet ..).trans (go st _)
  simp only [msgOnRecord]
  split
  · exact Ripples.refl m
  · split
    · exact Ripples.refl m
    · split
      · exact Ripples.refl m
      · split
        · exact (go .ready m).trans (ripples_setSheet ..)
        · exact (ripples_setSheet ..).trans (ripples_setSheet ..)
    · split
      · exact go .ready m
      · exact Ripples.refl m
    · split
      · exact go .ready m
      · exact blamed ..
    · split
      · exact go .ready m
      · exact blamed ..

/-! ## The outputs of a trip -/

theorem nStn_le (m : Mach) : m.nStn ≤ 5 := by rw [Mach.nStn]; cases m.part <;> decide

section
variable (t : trip)
include t

theorem ripples_drv (x : Drives) (m : Mach) : Ripples trip m { m with drv := x } := by
  constructor
  case drv => exact fun none_ => absurd t none_
  all_goals intros; rfl

theorem ripples_trips {f : FRef} (hk : tripsKey f.key) (v : Nat) (m : Mach) : Ripples trip m (m.set f v) :=
  ripples_set (.inr ⟨t, hk⟩) v m

theorem ripples_holdDrive (src kind d : Nat) (m : Mach) : Ripples trip m (holdDrive src kind d m) := ripples_drv t _ m

theorem ripples_brakeDrive (src kind : Nat) {d : Nat} (hd : d < 76) (m : Mach) :
    Ripples trip m (brakeDrive src kind d m) := by
  have held : Ripples trip m (holdDrive src kind d (m.set R.SRV_BRKSTAT_SWB 1)) :=
    (ripples_trips t (by simp [tripsKey, R.SRV_BRKSTAT_SWB]) _ m).trans (ripples_holdDrive t ..)
  simp only [brakeDrive]
  refine held.trans ?_
  split
  · refine Ripples.trans ?_ ((ripples_drv t _ _).trans (ripples_drv t _ _))
    refine Ripples.trans ?_ (ripples_trips t (by simp only [tripsKey, R.POLY_MEAS_DUTY]; omega) _ _)
    refine Ripples.trans ?_ (ripples_trips t (by simp only [tripsKey, R.POLY_STAT_STATE]; omega) _ _)
    exact ripples_trips t (by simp only [tripsKey, R.POLY_STAT_SWB]; omega) _ _
  · split
    · exact (ripples_trips t (by simp only [tripsKey, R.SRV_STAT_SWB]; omega) _ _).trans (ripples_drv t _ _)
    · exact ripples_trips t (by simp only [tripsKey, R.STP_STAT_SWB]; omega) _ _

theorem ripples_tripOutputs (src kind : Nat) (m : Mach) : Ripples trip m (tripOutputs src kind m) := by
  have off : Ripples trip m ((m.set R.HV_CTL_EN 0).set R.FUS_CTL_EN 0) :=
    (ripples_trips t (by simp [tripsKey, R.HV_CTL_EN]) _ m).trans (ripples_trips t (by simp [tripsKey, R.FUS_CTL_EN]) _ _)
  have gates (m : Mach) : Ripples trip m (gatesOff m) := by
    constructor
    case fus => exact fun none_ => absurd t none_
    all_goals intros; rfl
  refine (off.trans (gates _)).trans (ripples_each _ _ (fun d hd n => ripples_brakeDrive t src kind ?_ n) _)
  have drive := List.mem_of_mem_filter hd
  have stations := nStn_le (gatesOff ((m.set R.HV_CTL_EN 0).set R.FUS_CTL_EN 0))
  simp only [driveIds, List.mem_append, List.mem_range, List.mem_map] at drive
  omega

end

/-! ## The effects of one message -/

theorem ripples_captured (g : Msg) (m : Mach) : Ripples trip m (captured g m) := by
  simp only [captured]
  refine Ripples.trans ?_ (ripples_when (fun _ m => ripples_msix _ m) _)
  refine Ripples.trans ?_ (ripples_when (fun _ => ripples_assertEvent _) _)
  exact (ripples_assertEvent _ m).trans (ripples_when (fun _ => ripples_assertEvent _) _)

theorem ripples_flt (x : Collector) (m : Mach) : Ripples trip m { m with flt := x } := by constructor <;> intros <;> rfl

theorem ripples_collect (g : Msg) (m : Mach) : Ripples trip m (collect g m) := by
  simp only [collect]
  split
  · split
    · exact ripples_flt ..
    · exact (ripples_flt ..).trans (ripples_captured ..)
  · have counted : Ripples trip m (assertEvent 0x043 (m.incSat R.FLT_LOSTCNT_LOST)) :=
      (ripples_set (.inl (.inl (by decide))) _ m).trans (ripples_assertEvent ..)
    split
    · exact (counted.trans (ripples_flt ..)).trans (ripples_captured ..)
    · exact counted

theorem ripples_classEffects (g : Msg) (ht : g.cls = 4 → trip) (m : Mach) : Ripples trip m (classEffects g m) := by
  have ledger := ripples_each (trip := trip) (msgOnRecord g) (recsIn (·.engaged) m) (fun r _ => ripples_msgOnRecord g r) m
  simp only [classEffects]
  split
  · refine ledger.trans ?_
    constructor <;> intros <;> rfl
  · exact ledger.trans (ripples_tripOutputs (ht ‹_›) ..)
  · exact ledger

theorem ripples_groupEffects (g : Msg) (wasOpen : Bool) (m : Mach) : Ripples trip m (groupEffects g wasOpen m) := by
  simp only [groupEffects]
  split
  · exact Ripples.refl m
  · split
    · exact ripples_frameSend ..
    · split
      · exact ripples_frameSend ..
      · exact Ripples.refl m

theorem ripples_deliverNow (g : Msg) (ht : g.cls = 4 → trip) (m : Mach) : Ripples trip m (deliverNow g m) := by
  simp only [deliverNow]
  refine Ripples.trans ?_ (ripples_groupEffects ..)
  refine Ripples.trans ?_ (ripples_classEffects g ht _)
  exact (ripples_when (fun _ m => ripples_flt _ m) m).trans (ripples_collect ..)

/-! ## The messages of the watches and of the lock -/

theorem ripples_watchStat (w : Nat) (sid : Sid) (failed : Bool) (m : Mach) : Ripples trip m (watchStat w sid failed m) := by
  have stat : rippleKey (0x07010C + 0x10 * w) := by simp only [rippleKey]; omega
  exact (ripples_set (f := R.SLU_WATCH_STAT_SID w) (.inl stat) _ m).trans
    (ripples_set (f := R.SLU_WATCH_STAT_FAILED w) (.inl stat) _ _)

theorem ripples_watchOk (w r : Nat) (m : Mach) : Ripples trip m (watchOk w r m) :=
  (ripples_watchStat ..).trans (ripples_setSheet ..)

theorem ripples_watchFail (w : Nat) (r : Option Nat) (m : Mach) : Ripples trip m (watchFail w r m) := by
  have cls : watchClass w m ≠ 4 := by rw [watchClass]; split <;> decide
  cases r with
  | none => exact (ripples_watchStat ..).trans (ripples_deliverNow _ (fun h => absurd h cls) _)
  | some r =>
    simp only [watchFail]
    refine Ripples.trans ?_ (ripples_deliverNow _ (fun h => absurd h cls) _)
    have named := (ripples_setSheet (trip := trip) r { m.sheet r with judged := setBit (m.sheet r).judged w } m).trans
      (ripples_watchStat w (m.sheet r).sid true _)
    split
    · exact named.trans (ripples_sheetTo ..)
    · exact (named.trans (ripples_setSheet ..)).trans (ripples_sheetTo ..)

theorem ripples_actOn (p : Nat × SnsEdge) (v : Verdict) (m : Mach) : Ripples trip m (actOn p v m) := by
  simp only [actOn]
  split
  · exact ripples_watchOk ..
  · exact ripples_watchFail ..
  · constructor <;> intros <;> rfl
  · exact Ripples.refl m

theorem ripples_settlePass (m : Mach) : Ripples trip m (settlePass m) := by
  have cleared : Ripples trip m { m with heldEdges := [] } := by constructor <;> intros <;> rfl
  refine Ripples.trans ?_ (ripples_each _ _ (fun r _ => ripples_sheetAdvance r) _)
  exact cleared.trans (ripples_each _ _ (fun p _ m => ripples_actOn ..) _)

theorem ripples_settleEdges (m : Mach) : Ripples trip m (settleEdges m) :=
  ripples_foldl _ (fun m _ => ripples_settlePass m) _ m

theorem ripples_setIdok (t : trip) {s : Nat} (hs : s < 5) (b : Bool) (m : Mach) : Ripples trip m (setIdok s b m) := by
  simp only [setIdok]
  split
  · exact Ripples.refl m
  · exact (ripples_trips t (by simp only [tripsKey, R.VID_STAT_IDOK]; omega) _ m).trans (ripples_assertEvent ..)

theorem ripples_lockDrop (t : trip) {s : Nat} (hs : s < 5) (m : Mach) : Ripples trip m (lockDrop s m) := by
  have fall : Ripples trip m (assertEvent (vidEvent s 5) (m.set (R.VID_PLOCK_LOCK s) 0)) :=
    (ripples_trips t (by simp only [tripsKey, R.VID_PLOCK_LOCK]; omega) _ m).trans (ripples_assertEvent ..)
  refine fall.trans (Ripples.trans ?_ (ripples_setIdok t hs ..))
  constructor
  case vid => exact fun none_ => absurd t none_
  all_goals intros; rfl

theorem ripples_locksDrop (t : trip) (m : Mach) : Ripples trip m (locksDrop m) := by
  refine ripples_each _ _ (fun s hs m => ?_) m
  have station := List.mem_range.1 (List.mem_of_mem_filter hs)
  exact (ripples_lockDrop t (station.trans_le (nStn_le _)) m).trans (ripples_deliverNow _ (fun _ => t) _)

/-- Everything that follows a message. -/
theorem ripples_deliver (g : Msg) (ht : g.cls = 4 → trip) (m : Mach) : Ripples trip m (deliver g m) := by
  simp only [deliver]
  refine Ripples.trans ?_ (ripples_snapTry _)
  refine Ripples.trans ?_ (ripples_when (fun _ => ripples_settleEdges) _)
  exact (ripples_deliverNow g ht m).trans
    (ripples_when (fun h => ripples_locksDrop (ht (by simpa using h))) _)

theorem ripples_raise {src kind cls : Nat} {m : Mach} {sid : Sid} {param : Nat} (h : cls ≠ 4) :
    Ripples False m (raise src kind cls m sid param) := ripples_deliver _ (fun e => absurd e h) m

theorem ripples_note (src kind param : Nat) (m : Mach) : Ripples False m (note src kind param m) :=
  ripples_deliver _ (fun e => absurd e (by decide : (0 : Nat) ≠ 4)) m

end Sys2Proof.Machine
end

section
/-! PROOFS. Which context runs (R77, R78): what the choice at an instruction boundary makes of each context, a wait that
ends (O14), and a context that parks (O18). -/

namespace Sys2Proof.Machine

/-! ## One boundary, one context -/

/-- What an instruction boundary makes of a context: it stays as it is, takes the core, is READY again, or waits for its
access. -/
inductive Turn (c : Ctx) : Ctx → Prop
  | stays : Turn c c
  | takes (h : c.state = .ready) : Turn c { c with state := .running }
  | yields (h : c.state = .running) (r : Nat) :
      Turn c { c with state := .ready, wait := .none, readyAt := r, woken := none }
  | awaits (h : c.state = .running) (issued : c.issued = true) : Turn c { c with state := .waiting, wait := .access }

section
variable {core k i : Nat} {m : Mach}

theorem ctx_becomeReady_same (i : Nat) (w : Option (BitVec 64)) (m : Mach) : (becomeReady i w m).ctx i =
    { m.ctx i with state := .ready, wait := .none, readyAt := m.cox.readyClock, woken := w } :=
  ctx_modCtx_same m i fun c => { c with state := .ready, wait := .none, readyAt := m.cox.readyClock, woken := w }

theorem ctx_becomeReady_ne {j : Nat} (h : j ≠ i) (w : Option (BitVec 64)) (m : Mach) :
    (becomeReady i w m).ctx j = m.ctx j :=
  ctx_modCtx_ne m h fun c => { c with state := .ready, wait := .none, readyAt := m.cox.readyClock, woken := w }

theorem ctx_loseCore_ne {j : Nat} (h : j ≠ i) (m : Mach) : (loseCore i m).ctx j = m.ctx j := by
  rw [loseCore]
  split
  · exact ctx_modCtx_ne m h _
  · exact ctx_becomeReady_ne h ..

theorem turn_loseCore (h : (m.ctx i).state = .running) : Turn (m.ctx i) ((loseCore i m).ctx i) := by
  rw [loseCore]
  split
  · rw [ctx_modCtx_same]; exact .awaits h ‹_›
  · rw [ctx_becomeReady_same]; exact .yields h _

/-- The core passes from the context that has it, if any, to one that is READY. -/
theorem turn_switchTo (h : (m.ctx (cix core k)).state = .ready) (i : Nat) :
    Turn (m.ctx i) ((switchTo core k m).ctx i) := by
  rw [switchTo]
  cases held : runningOf core m with
  | none =>
    by_cases same : i = cix core k
    · subst same; rw [ctx_modCtx_same]; exact .takes h
    · rw [ctx_modCtx_ne _ same]; exact .stays
  | some j =>
    have runs : (m.ctx (cix core j)).state = .running := by simpa using List.find?_some held
    have apart : cix core k ≠ cix core j := fun e => by rw [e, runs] at h; contradiction
    by_cases same : i = cix core k
    · subst same; rw [ctx_modCtx_same, ctx_loseCore_ne apart]; exact .takes h
    · rw [ctx_modCtx_ne _ same]
      by_cases held : i = cix core j
      · subst held; exact turn_loseCore runs
      · rw [ctx_loseCore_ne held]; exact .stays

/-- The context that goes first is READY. -/
theorem readyFirst_ready {k : Nat} (h : readyFirst core m = some k) : (m.ctx (cix core k)).state = .ready := by
  have all (l : List Nat) : ∀ best : Option Nat, (∀ k, best = some k → (m.ctx (cix core k)).state = .ready) →
      ∀ k, l.foldl (fun best k => let c := m.ctx (cix core k)
        if c.state != .ready then best else match best with
          | none => some k
          | some b => if aheadOf c (m.ctx (cix core b)) then some k else best) best = some k →
        (m.ctx (cix core k)).state = .ready := by
    induction l with
    | nil => exact fun best h => h
    | cons a l ih =>
      intro best h
      refine ih _ (fun k => ?_)
      dsimp only
      split
      · exact h k
      · have ready : (m.ctx (cix core a)).state = .ready := by simp_all
        split
        · rintro ⟨⟩; exact ready
        · split
          · rintro ⟨⟩; exact ready
          · exact h k
  exact all _ none (fun _ h => nomatch h) k h

/-- The choice at an instruction boundary. -/
theorem turn_resched (core i : Nat) (m : Mach) : Turn (m.ctx i) ((resched core m).ctx i) := by
  rw [resched]
  split
  · exact turn_switchTo (readyFirst_ready ‹_›) i
  · dsimp only
    split
    · exact turn_switchTo (readyFirst_ready ‹_›) i
    · exact .stays
  · exact .stays

/-! ## What a turn leaves -/

section
variable {c d : Ctx} (h : Turn c d)
include h

theorem Turn.regs : d.regs = c.regs := by cases h <;> rfl
theorem Turn.pc : d.pc = c.pc := by cases h <;> rfl
theorem Turn.prio : d.prio = c.prio := by cases h <;> rfl
theorem Turn.stage : d.stage = c.stage := by cases h <;> rfl
theorem Turn.slot : d.slot = c.slot := by cases h <;> rfl
theorem Turn.evpend : d.evpend = c.evpend := by cases h <;> rfl
theorem Turn.cmtCode : d.cmtCode = c.cmtCode := by cases h <;> rfl
theorem Turn.cmtSeq : d.cmtSeq = c.cmtSeq := by cases h <;> rfl
theorem Turn.cmtCount : d.cmtCount = c.cmtCount := by cases h <;> rfl

theorem Turn.g (r : Nat) : d.g r = c.g r := by simp only [Ctx.g, h.regs]

/-- A context that is neither READY nor RUNNING is left alone. -/
theorem Turn.eq_of_idle (hr : c.state ≠ .ready) (hn : c.state ≠ .running) : d = c := by
  cases h with
  | stays => rfl
  | takes ready => exact absurd ready hr
  | yields runs => exact absurd runs hn
  | awaits runs => exact absurd runs hn

/-- A READY context is then READY or RUNNING, and waits for nothing more than it did. -/
theorem Turn.of_ready (hr : c.state = .ready) : (d.state = .ready ∨ d.state = .running) ∧ d.wait = c.wait := by
  cases h with
  | stays => exact ⟨.inl hr, rfl⟩
  | takes => exact ⟨.inr rfl, rfl⟩
  | yields h => rw [hr] at h; contradiction
  | awaits h => rw [hr] at h; contradiction

end

/-! ## The rest of the machine -/

/-- The choice of the running context touches the contexts and the order in which they became READY. -/
theorem switchTo_eq (core k : Nat) (m : Mach) : ∃ cs n,
    switchTo core k m = { m with cox := { m.cox with ctxs := cs, readyClock := n } } := by
  rw [switchTo]
  split
  · rw [loseCore]
    split
    · exact ⟨_, _, rfl⟩
    · exact ⟨_, _, rfl⟩
  · exact ⟨_, _, rfl⟩

theorem resched_eq (core : Nat) (m : Mach) : ∃ cs n,
    resched core m = { m with cox := { m.cox with ctxs := cs, readyClock := n } } := by
  rw [resched]
  split
  · exact switchTo_eq ..
  · dsimp only
    split
    · exact switchTo_eq ..
    · exact ⟨_, _, rfl⟩
  · exact ⟨_, _, rfl⟩

@[simp] theorem resched_regs (core : Nat) (m : Mach) : (resched core m).regs = m.regs := by
  obtain ⟨cs, n, h⟩ := resched_eq core m; rw [h]
@[simp] theorem resched_sheets (core : Nat) (m : Mach) : (resched core m).sheets = m.sheets := by
  obtain ⟨cs, n, h⟩ := resched_eq core m; rw [h]
@[simp] theorem resched_cmp (core i : Nat) (m : Mach) : (resched core m).cmp i = m.cmp i := by
  obtain ⟨cs, n, h⟩ := resched_eq core m; rw [h]; rfl
@[simp] theorem resched_get (core : Nat) (m : Mach) (f : FRef) : (resched core m).get f = m.get f := by
  simp [Mach.get, Mach.word]

end

/-! ## Waits that end -/

section
variable {core k : Nat} {s : State}

/-- What the statement of a wait that ends asks of the state after it. -/
theorem woken_of_wake {i : Instr} {m : Mach} {rd : Nat} {v : Word} (hi : exec i s = .next (s.onMach fun _ => wake (cix core k) rd v m))
    (hctx : ∃ e, m.ctx (cix core k) = { s.ctxOf core k with evpend := e }) (hregs : m.regs = s.mach.regs) :
    ∃ t, exec i s = .next t ∧ (t.ctxOf core k).pc = (s.ctxOf core k).pc + 4 ∧
      ((t.ctxOf core k).g rd = if rd = 0 then 0 else v) ∧ (t.ctxOf core k).wait = .none ∧
      ((t.ctxOf core k).state = .ready ∨ (t.ctxOf core k).state = .running) ∧ t.mem = s.mem ∧ t.mach.regs = s.mach.regs := by
  refine ⟨_, hi, ?_⟩
  obtain ⟨e, hctx⟩ := hctx
  let n := makeReady (cix core k) (m.modCtx (cix core k) fun c => (c.setG rd v).retire)
  have turn : Turn (n.ctx (cix core k)) ((wake (cix core k) rd v m).ctx (cix core k)) := turn_resched ..
  have own : n.ctx (cix core k) = _ := ctx_becomeReady_same ..
  rw [ctx_modCtx_same, hctx] at own
  obtain ⟨runs, waits⟩ := turn.of_ready (by rw [own])
  refine ⟨turn.pc.trans ?_, (turn.g rd).trans ?_, waits.trans (by rw [own]), runs, rfl, (resched_regs ..).trans hregs⟩
  · rw [own]
    simp only [Ctx.retire, Ctx.setG]
    split <;> rfl
  · rw [own]
    by_cases zero : rd = 0 <;> simp [Ctx.g, Ctx.retire, Ctx.setG, zero]

end

/-- Settles O14: each of the three waits that end wakes the context, whose turn then keeps it READY or gives it the core. -/
theorem wakesEndWaits : Obligations.WakesEndWaits := by
  intro core k s ok c woken
  have start (i : Instr) (f : Mach → Mach) (hi : exec i s = onUnit (okCtx core k) f s) (rd : Nat) (v : Word) (m : Mach)
      (hf : f s.mach = wake (cix core k) rd v m) : exec i s = .next (s.onMach fun _ => wake (cix core k) rd v m) := by
    rw [hi, onUnit_of ok]
    exact congrArg _ (onMach_congr hf)
  refine ⟨fun base stn tgt rd waits reached => ?_, fun mask rd waits hit => ?_, fun u waits due => ?_⟩
  · refine woken_of_wake (start _ (opWaittWake core k) rfl rd 0 s.mach ?_) ⟨_, rfl⟩ rfl
    have waits : (s.mach.ctx (cix core k)).wait = _ := waits
    simp only [opWaittWake, waits, reached, if_true]
  · refine woken_of_wake (start _ (opWaiteWake core k) rfl rd (c.evpend &&& mask)
      (s.mach.setCtx (cix core k) { c with evpend := c.evpend &&& ~~~(c.evpend &&& mask) }) ?_) ⟨_, tget_tput_same ..⟩ rfl
    have waits : (s.mach.ctx (cix core k)).wait = _ := waits
    have hit : ¬((s.mach.ctx (cix core k)).evpend &&& mask) = 0 := hit
    simp only [opWaiteWake, waits, if_neg hit]
    rw [← waits]
    rfl
  · refine woken_of_wake (start _ (opSleepWake core k) rfl 0 0 s.mach ?_) ⟨_, rfl⟩ rfl
    have waits : (s.mach.ctx (cix core k)).wait = _ := waits
    simp only [opSleepWake, waits, due, if_true]

/-! ## A context that parks -/

section
variable {core k : Nat} {s : State}

@[simp] theorem ctx_setCmp (m : Mach) (n i : Nat) (c : Cmp) : (m.setCmp n c).ctx i = m.ctx i := rfl

theorem ctx_disarmIf (core : Nat) (p : Cmp → Bool) (i : Nat) (m : Mach) : (disarmIf core p m).ctx i = m.ctx i := by
  have all (l : List Nat) : ∀ m : Mach, (each l (fun n m =>
      let c := m.cmp (core * 32 + n)
      if c.armed && p c then m.setCmp (core * 32 + n) { c with armed := false } else m) m).ctx i = m.ctx i := by
    induction l with
    | nil => exact fun _ => rfl
    | cons a l ih =>
      intro m
      refine (ih _).trans ?_
      dsimp only
      split <;> rfl
  exact all _ m

/-- Parking leaves of the context what it wrote, but for events that its own message may set. -/
theorem ctx_parkCtx (core k : Nat) (cause : Park) (addr : Nat) (m : Mach) : ∃ e, (parkCtx core k cause addr m).ctx (cix core k) =
    { m.ctx (cix core k) with state := .parked, cause := cause.code, faddr := BitVec.ofNat 40 addr, wait := .none,
                              issued := false, evpend := e } := by
  unfold parkCtx
  extract_lets i m1 m2 m3 m4
  have own : m1.ctx i = { m.ctx i with state := .parked, cause := cause.code, faddr := BitVec.ofNat 40 addr, wait := .none, issued := false } :=
    ctx_modCtx_same m i fun c => { c with state := .parked, cause := cause.code, faddr := BitVec.ofNat 40 addr, wait := .none, issued := false }
  have told : Ripples True m1 m2 := ripples_each _ _ (fun j _ m => by
    split
    · exact Ripples.refl m
    · exact ripples_evSet ..) m1
  have disarmed : m3.ctx i = m2.ctx i := by
    simp only [m3, when]
    split
    · exact ctx_disarmIf ..
    · rfl
  have delivered : Ripples True m3 m4 := ripples_deliver _ (fun _ => trivial) m3
  have now := delivered.ctx i
  rw [disarmed, told.ctx i, own] at now
  refine ⟨(m4.ctx i).evpend, ((turn_resched core i m4).eq_of_idle ?_ ?_).trans now⟩ <;> rw [now] <;> exact CtxState.noConfusion

/-- An undefined word parks its context at its own address. -/
theorem exec_undefined {w : Word} (h : s.fetching core k) (hw : undefinedWord s.mach.nStn w = true) :
    exec (.undefinedInstruction core k w) s = .next (s.onMach fun m => parkCtx core k .illegal (s.ctxOf core k).pc.toNat
      (m.modCtx (cix core k) fun d => { d with issued := false, woken := none })) := by
  refine (onUnit_of h.1 (opUndefinedInstruction core k w) s).trans (congrArg _ (onMach_congr ?_))
  obtain ⟨-, runs, going, fetched⟩ := h
  have runs : (s.mach.ctx (cix core k)).state = .running := runs
  have going : (s.mach.ctx (cix core k)).halting = false := going
  have fetched : fetchStop core k (s.mach.ctx (cix core k)).pc.toNat s.mach = none := fetched
  rw [opUndefinedInstruction, if_pos hw]
  simp only [meper, Ctx.runs, runs, going, fetched, illegal, when, modCtx_modCtx]
  rfl

end

/-- Settles O18: the effect of an undefined word is its park, which leaves the context's registers and PC. -/
theorem undefinedWordParks : Obligations.UndefinedWordParks := by
  refine ⟨fun stations => ?_, fun core k w s h hw => ⟨exec_undefined h hw, _, exec_undefined h hw, ?_⟩⟩
  · rfl
  · obtain ⟨e, parked⟩ := ctx_parkCtx core k .illegal (s.ctxOf core k).pc.toNat
      (s.mach.modCtx (cix core k) fun d => { d with issued := false, woken := none })
    rw [ctx_modCtx_same] at parked
    refine ⟨(congrArg Ctx.state parked :), (congrArg Ctx.cause parked :), ?_, (congrArg Ctx.pc parked :),
      (congrArg Ctx.iret parked :), fun r => (congrArg (Ctx.g · r) parked :), rfl⟩
    refine (congrArg (fun d : Ctx => d.faddr.toNat) parked).trans ?_
    have small : (s.ctxOf core k).pc.toNat < 2 ^ 40 := (s.ctxOf core k).pc.isLt.trans (by decide)
    exact (BitVec.toNat_ofNat ..).trans (Nat.mod_eq_of_lt small)

end Sys2Proof.Machine
end

section
/-! PROOFS. Loads and stores (O10, O11), and a Cox context on its own DTCM (O12). -/

namespace Sys2Proof.Machine

/-! ## Rules for an instruction that may write the memories -/

section
variable {core k : Nat} {s : State}

/-- An instruction that starts, its effect done on machine and memories. -/
theorem meperM_done {f : Ctx → Mach → Eff × Mem} {m' : Mach} {mem' : Mem} (h : s.fetching core k)
    (hf : f (s.ctxOf core k) (s.fetched core k) = (.done m', mem')) :
    meperM core k f s.mach s.mem = (resched core m', mem') := by
  have starts := h.starts
  have fetch : fetches core k s.mach = true := by
    obtain ⟨runs, -, allowed⟩ := starts
    simp [fetches, Ctx.runs, runs, allowed]
  rw [meperM, if_pos fetch]
  exact congrArg₂ Prod.mk (meper_done starts (congrArg Prod.fst hf)) (congrArg Prod.snd hf)

theorem onUnitM_of {ok : Bool} (h : ok = true) (f : Mach → Mem → Mach × Mem) (s : State) :
    onUnitM ok f s = .next { s with mach := (f s.mach s.mem).1, mem := (f s.mach s.mem).2 } := by rw [h]; rfl

theorem onUnitSM_of {ok : Bool} (h : ok = true) (f : Mach → Mem → Mach × Mem) (s : State) :
    onUnitSM ok f s = .next (settle { s with mach := (f s.mach s.mem).1, mem := (f s.mach s.mem).2 }) := by rw [h]; rfl

/-! ## Loads -/

/-- The effect of a load. -/
def loadEff (core k rd n : Nat) (ea : Ctx → Nat) (f : Nat → Word) (ans : BusAns) (mem : Mem) (c : Ctx) (m : Mach) : Eff :=
  let a := realAddr core (ea c)
  match accessStop core k false false a n m with
  | some x => .park m x (ea c)
  | none =>
    match dataRead core k a n ans mem m with
    | .val v m => .done (m.modCtx (cix core k) fun x => x.setG rd (f v))
    | .err m => .park m .buserr (ea c)
    | .held => .held

theorem load_eq (core k rd n : Nat) (ea : Ctx → Nat) (f : Nat → Word) (ans : BusAns) (mem : Mem) :
    load core k rd n ea f ans mem = meper core k (loadEff core k rd n ea f ans mem) := rfl

theorem loadEff_done {rd n v : Nat} {ea : Ctx → Nat} {f : Nat → Word} {ans : BusAns} {mem : Mem} {c : Ctx} {m m' : Mach}
    (free : accessStop core k false false (realAddr core (ea c)) n m = none)
    (read : dataRead core k (realAddr core (ea c)) n ans mem m = .val v m') :
    loadEff core k rd n ea f ans mem c m = .done (m'.modCtx (cix core k) fun x => x.setG rd (f v)) := by
  simp only [loadEff, free, read]

/-- A load that nothing stops. -/
theorem exec_load {i : Instr} {ok : Bool} {rd n v : Nat} {ea : Ctx → Nat} {f : Nat → Word} {w : Word} {ans : BusAns} {m : Mach}
    (h : s.fetching core k) (hi : exec i s = onUnitR ok (load core k rd n ea f ans) s) (hok : ok = true)
    (free : accessStop core k false false (realAddr core (ea (s.ctxOf core k))) n (s.fetched core k) = none)
    (read : dataRead core k (realAddr core (ea (s.ctxOf core k))) n ans s.mem (s.fetched core k) = .val v m) (hw : f v = w) :
    exec i s = .next { s with mach := resched core (m.modCtx (cix core k) (·.setG rd w)) } := by
  rw [hi, onUnitR, onUnit_of hok, load_eq, ← hw]
  exact congrArg _ (onMach_congr (g := fun _ => resched core (m.modCtx (cix core k) (·.setG rd (f v))))
    (meper_done h.starts (loadEff_done free read)))

theorem signed16_eq (v : Nat) :
    signed 16 v = BitVec.ofInt 32 (if v % 65536 < 32768 then v % 65536 else (v % 65536 : Int) - 65536) := rfl

theorem signed8_eq (v : Nat) :
    signed 8 v = BitVec.ofInt 32 (if v % 256 < 128 then v % 256 else (v % 256 : Int) - 256) := rfl

end

/-- Settles O10: one rule for every load, with what rd receives. -/
theorem loadResults : Obligations.LoadResults := by
  intro core k rd rs1 imm ans s h hd h1 c near far reads ends v m
  have ok : (okCtx core k && okG rd && okG rs1) = true := by simp [h.1, okG, *]
  refine ⟨fun ⟨free, read⟩ => ?_, fun ⟨free, read⟩ => ?_, fun ⟨free, read⟩ => ?_, fun ⟨free, read⟩ => ?_,
    fun ⟨free, read⟩ => ?_, fun ⟨free, read⟩ => ?_⟩
  · exact exec_load (n := 4) (ea := (nearAddr · rs1 imm)) (f := BitVec.ofNat 32) h rfl ok free read rfl
  · exact exec_load (n := 2) (ea := (nearAddr · rs1 imm)) (f := signed 16) h rfl ok free read (signed16_eq v)
  · exact exec_load (n := 2) (ea := (nearAddr · rs1 imm)) (f := BitVec.ofNat 32) h rfl ok free read rfl
  · exact exec_load (n := 1) (ea := (nearAddr · rs1 imm)) (f := signed 8) h rfl ok free read (signed8_eq v)
  · exact exec_load (n := 1) (ea := (nearAddr · rs1 imm)) (f := BitVec.ofNat 32) h rfl ok free read rfl
  · exact exec_load (n := 4) (ea := (farAddr · rs1 imm)) (f := BitVec.ofNat 32) h rfl ok free read rfl

/-! ## Stores -/

section
variable {core k : Nat} {s : State}

/-- The effect of a store. -/
def storeEff (core k rs2 n : Nat) (ea : Ctx → Nat) (ans : BusAns) (mem : Mem) (c : Ctx) (m : Mach) : Eff × Mem :=
  let a := realAddr core (ea c)
  match accessStop core k true false a n m with
  | some x => (.park m x (ea c), mem)
  | none =>
    match dataWrite core k a n ((c.g rs2).toNat % 2 ^ (8 * n)) ans m mem with
    | .ok m mem => (.done m, mem)
    | .err m => (.park m .buserr (ea c), mem)
    | .held => (.held, mem)

theorem store_eq (core k rs2 n : Nat) (ea : Ctx → Nat) (ans : BusAns) (m : Mach) (mem : Mem) :
    store core k rs2 n ea ans m mem = meperM core k (storeEff core k rs2 n ea ans mem) m mem := rfl

theorem storeEff_done {rs2 n : Nat} {ea : Ctx → Nat} {ans : BusAns} {mem mem' : Mem} {c : Ctx} {m m' : Mach}
    (free : accessStop core k true false (realAddr core (ea c)) n m = none)
    (write : dataWrite core k (realAddr core (ea c)) n ((c.g rs2).toNat % 2 ^ (8 * n)) ans m mem = .ok m' mem') :
    storeEff core k rs2 n ea ans mem c m = (.done m', mem') := by
  simp only [storeEff, free, write]

/-- A store that nothing stops. -/
theorem exec_store {i : Instr} {ok : Bool} {rs2 n : Nat} {ea : Ctx → Nat} {ans : BusAns} {m : Mach} {mem : Mem}
    (h : s.fetching core k) (hi : exec i s = onUnitSM ok (store core k rs2 n ea ans) s) (hok : ok = true)
    (free : accessStop core k true false (realAddr core (ea (s.ctxOf core k))) n (s.fetched core k) = none)
    (write : dataWrite core k (realAddr core (ea (s.ctxOf core k))) n (((s.ctxOf core k).g rs2).toNat % 2 ^ (8 * n)) ans
      (s.fetched core k) s.mem = .ok m mem) :
    exec i s = .next (settle { s with mach := resched core m, mem := mem }) := by
  rw [hi, onUnitSM_of hok, store_eq, meperM_done h (storeEff_done free write)]

end

/-- Settles O11: one rule for every store. -/
theorem storeResults : Obligations.StoreResults := by
  intro core k rs2 rs1 imm ans s h h2 h1 c near far writes ends m mem
  have ok : (okCtx core k && okG rs2 && okG rs1) = true := by simp [h.1, okG, *]
  refine ⟨fun ⟨free, write⟩ => ?_, fun ⟨free, write⟩ => ?_, fun ⟨free, write⟩ => ?_, fun ⟨free, write⟩ => ?_⟩
  · exact exec_store (n := 4) (ea := (nearAddr · rs1 imm)) h rfl ok free write
  · exact exec_store (n := 2) (ea := (nearAddr · rs1 imm)) h rfl ok free write
  · exact exec_store (n := 1) (ea := (nearAddr · rs1 imm)) h rfl ok free write
  · exact exec_store (n := 4) (ea := (farAddr · rs1 imm)) h rfl ok free write

end Sys2Proof.Machine
end

section
/-! PROOFS. A Cox context on its own DTCM through the window at 0x2F01_0000 (O12). -/

namespace Sys2Proof.Machine

/-- The address of a word of a Cox core's DTCM, behind the window. -/
def dtcmAt (core o : Nat) : Nat := 0x20010000 + core * 0x100000 + o

section
variable {core k o : Nat} {m : Mach}

theorem realAddr_alias (hc : core < 8) (ho : o < 0x10000) : realAddr core (0x2F010000 + o) = dtcmAt core o := by
  have inside : (decide (core < 8) && decide (0x2F000000 ≤ 0x2F010000 + o) && decide (0x2F010000 + o < 0x2F020000)) = true := by
    simp only [Bool.and_eq_true, decide_eq_true_eq]; omega
  rw [realAddr, if_pos inside, dtcmAt]
  omega

theorem placeOf_dtcm (hc : core < 8) (ho : o < 0x10000) : placeOf m (dtcmAt core o) = .dtcm core := by
  have low : ¬dtcmAt core o < 0x20000 := by rw [dtcmAt]; omega
  have sup : ¬(0x10000000 ≤ dtcmAt core o ∧ dtcmAt core o < 0x10040000) := by rw [dtcmAt]; omega
  have tcm : 0x20000000 ≤ dtcmAt core o ∧ dtcmAt core o < 0x20800000 := by rw [dtcmAt]; omega
  have data : ¬dtcmAt core o % 0x100000 < 0x10000 := by rw [dtcmAt]; omega
  have inside : dtcmAt core o % 0x100000 < 0x20000 := by rw [dtcmAt]; omega
  have own : (dtcmAt core o - 0x20000000) / 0x100000 = core := by rw [dtcmAt]; omega
  simp only [placeOf, Bool.and_eq_true, decide_eq_true_eq, if_neg low, if_neg sup, if_pos tcm, if_neg data, if_pos inside, own]

theorem addrDown_dtcm (hc : core < 8) (ho : o < 0x10000) (up : domUp 2 m = true) : addrDown m (dtcmAt core o) = false := by
  have domain : addrDomain (dtcmAt core o) = 2 := by
    have sup : ¬(0x10000000 ≤ dtcmAt core o ∧ dtcmAt core o < 0x10040000) := by rw [dtcmAt]; omega
    have tcm : 0x20000000 ≤ dtcmAt core o ∧ dtcmAt core o < 0x20800000 := by rw [dtcmAt]; omega
    simp only [addrDomain, Bool.and_eq_true, decide_eq_true_eq, if_neg sup, if_pos tcm]
  simp [addrDown, domain, up]

/-- Nothing stops a word access of a Cox context to its own DTCM. -/
theorem accessStop_own {a : Nat} (hc : core < 8) (place : placeOf m a = .dtcm core) (up : addrDown m a = false)
    (aligned : a % 4 = 0) (wr atomic : Bool) : accessStop core k wr atomic a 4 m = none := by
  simp [accessStop, place, up, aligned, protBad, hc, atomicAt]

/-- The word that stands at an address of the internal map. -/
def wordAt (mem : Mem) (a : Nat) : Word := BitVec.ofNat 32 ((mem.rd a).toNat + 256 * (mem.rd (a + 1)).toNat
  + 65536 * (mem.rd (a + 2)).toNat + 16777216 * (mem.rd (a + 3)).toNat)

theorem rdBytes_four (mem : Mem) (a : Nat) :
    mem.rdBytes a 4 = [mem.rd a, mem.rd (a + 1), mem.rd (a + 2), mem.rd (a + 3)] := rfl

theorem wordAt_eq (mem : Mem) (a : Nat) : BitVec.ofNat 32 (leNat (mem.rdBytes a 4)) = wordAt mem a := by
  have sum : leNat (mem.rdBytes a 4) = (mem.rd a).toNat + 256 * (mem.rd (a + 1)).toNat + 65536 * (mem.rd (a + 2)).toNat
      + 16777216 * (mem.rd (a + 3)).toNat := by
    simp only [rdBytes_four, leNat]
    omega
  rw [sum, wordAt]

theorem dataRead_own {a : Nat} (place : placeOf m a = .dtcm core) (ans : BusAns) (mem : Mem) :
    dataRead core k a 4 ans mem m = .val (leNat (mem.rdBytes a 4)) m := by
  simp [dataRead, place, noAnswer, ownMem]

theorem dataWrite_own {a : Nat} (hc : core < 8) (place : placeOf m a = .dtcm core) (v : Nat) (ans : BusAns) (mem : Mem) :
    dataWrite core k a 4 v ans m mem = .ok m (mem.wrBytes a (leBytes 4 v)) := by
  have other : (core == 8) = false := by simpa using (Nat.ne_of_lt hc)
  simp [dataWrite, place, noAnswer, ownMem, other, when]

end

/-! ## What a word written leaves -/

theorem leBytes_length (n v : Nat) : (leBytes n v).length = n := by
  induction n generalizing v with
  | zero => rfl
  | succ n ih => simp [leBytes, ih]

theorem leBytes_getElem (n v j : Nat) (h : j < (leBytes n v).length) : (leBytes n v)[j] = BitVec.ofNat 8 (v / 256 ^ j) := by
  induction n generalizing v j with
  | zero => exact absurd h (Nat.not_lt_zero _)
  | succ n ih =>
    cases j with
    | zero => simp [leBytes]
    | succ j => simp only [leBytes, List.getElem_cons_succ, ih, Nat.div_div_eq_div_mul, Nat.pow_succ, Nat.mul_comm 256]

/-- A word stands at an address, every other byte of the three memories being as it was. -/
def Holds (old new : Mem) (a : Nat) (w : Word) : Prop := (∀ j, j < 4 → new.rd (a + j) = BitVec.ofNat 8 (w.toNat / 256 ^ j)) ∧
  (∀ x, x < a ∨ a + 4 ≤ x → new.rd x = old.rd x) ∧ ∀ x, new.hostRd x = old.hostRd x ∧ new.flashRd x = old.flashRd x

theorem holds_wrBytes {mem : Mem} (ok : Memory.wf mem = true) (a : Nat) (w : Word) :
    Holds mem (mem.wrBytes a (leBytes 4 w.toNat)) a w := by
  have length := leBytes_length 4 w.toNat
  refine ⟨fun j hj => ?_, fun x hx => rd_wrBytes_out _ _ _ _ (by rwa [length]), fun x => ⟨?_, ?_⟩⟩
  · rw [rd_wrBytes_in _ _ _ j ok (by rwa [length]), leBytes_getElem]
  · rw [Mem.hostRd, wrBytes_host, Mem.hostRd]
  · rw [Mem.flashRd, wrBytes_flash, Mem.flashRd]

/-! ## The accesses -/

/-- The effect of an atomic. -/
def atomicEff (core k rd rs1 rs2 : Nat) (far : Bool) (f : Word → Word → Word) (ans : BusAns) (mem : Mem) (c : Ctx) (m : Mach) :
    Eff × Mem :=
  let ea := if far then farAddr c rs1 0 else nearAddr c rs1 0
  let a := realAddr core ea
  match accessStop core k true true a 4 m with
  | some x => (.park m x ea, mem)
  | none =>
    if regionBad core k 1 a 4 m && !(core < 8 && ownMem core (placeOf m a)) then (.park m .prot ea, mem)
    else match dataRead core k a 4 ans mem m with
      | .val v m =>
        match dataWrite core k a 4 (f (BitVec.ofNat 32 v) (c.g rs2)).toNat (.data .clean) m mem with
        | .ok m mem => (.done (m.modCtx (cix core k) fun x => x.setG rd (BitVec.ofNat 32 v)), mem)
        | .err m => (.park m .buserr ea, mem)
        | .held => (.held, mem)
      | .err m => (.park m .buserr ea, mem)
      | .held => (.held, mem)

theorem atomicOp_eq (core k rd rs1 rs2 : Nat) (far : Bool) (f : Word → Word → Word) (ans : BusAns) (m : Mach) (mem : Mem) :
    atomicOp core k rd rs1 rs2 far f ans m mem = meperM core k (atomicEff core k rd rs1 rs2 far f ans mem) m mem := rfl

section
variable {core k o : Nat} {s : State}

theorem resched_fetched (f : Ctx → Ctx) :
    resched core ((s.fetched core k).modCtx (cix core k) f) = (s.ran core k f).mach :=
  congrArg (resched core) (modCtx_modCtx ..)

@[simp] theorem resched_pwr (core : Nat) (m : Mach) : (resched core m).pwr = m.pwr := by
  obtain ⟨cs, n, h⟩ := resched_eq core m; rw [h]

variable (h : s.fetching core k) (hc : core < 8) (ho : o < 0x10000) (aligned : o % 4 = 0) (up : domUp 2 s.mach = true)
include h hc ho aligned up

omit h in
/-- What a word access of the context to that word finds. -/
theorem own_access : placeOf (s.fetched core k) (dtcmAt core o) = .dtcm core ∧
    ∀ wr atomic, accessStop core k wr atomic (dtcmAt core o) 4 (s.fetched core k) = none := by
  have word : dtcmAt core o % 4 = 0 := by rw [dtcmAt]; omega
  exact ⟨placeOf_dtcm hc ho, accessStop_own hc (placeOf_dtcm hc ho) (addrDown_dtcm hc ho up) word⟩

theorem exec_lw_own {rd rs1 : Nat} {imm : BitVec 16} (ans : BusAns) (hd : rd < 32) (h1 : rs1 < 32)
    (ea : nearAddr (s.ctxOf core k) rs1 imm = 0x2F010000 + o) : exec (.lw core k rd rs1 imm ans) s =
      .next (s.ran core k (·.setG rd (wordAt s.mem (dtcmAt core o)))) := by
  obtain ⟨place, free⟩ := own_access (s := s) (k := k) hc ho aligned up
  have addr : realAddr core (nearAddr (s.ctxOf core k) rs1 imm) = dtcmAt core o := by rw [ea, realAddr_alias hc ho]
  refine (exec_load (rd := rd) (n := 4) (ea := (nearAddr · rs1 imm)) (f := BitVec.ofNat 32) h rfl
    (by simp [h.1, okG, *]) (by rw [addr]; exact free _ _) (by rw [addr]; exact dataRead_own place ans s.mem) (wordAt_eq ..)).trans ?_
  rw [resched_fetched]
  rfl

theorem exec_sw_own {rs1 rs2 : Nat} {imm : BitVec 16} (ans : BusAns) (h1 : rs1 < 32) (h2 : rs2 < 32)
    (restart : s.mach.pwr.restart = false) (ea : nearAddr (s.ctxOf core k) rs1 imm = 0x2F010000 + o) :
    exec (.sw core k rs2 rs1 imm ans) s = .next { s with
      mach := (s.ran core k id).mach, mem := s.mem.wrBytes (dtcmAt core o) (leBytes 4 ((s.ctxOf core k).g rs2).toNat) } := by
  obtain ⟨place, free⟩ := own_access (s := s) (k := k) hc ho aligned up
  have addr : realAddr core (nearAddr (s.ctxOf core k) rs1 imm) = dtcmAt core o := by rw [ea, realAddr_alias hc ho]
  have value : ((s.ctxOf core k).g rs2).toNat % 2 ^ (8 * 4) = ((s.ctxOf core k).g rs2).toNat :=
    Nat.mod_eq_of_lt ((s.ctxOf core k).g rs2).isLt
  refine (exec_store (rs2 := rs2) (n := 4) (ea := (nearAddr · rs1 imm)) h rfl (by simp [h.1, okG, *])
    (by rw [addr]; exact free _ _) (by rw [addr, value]; exact dataWrite_own hc place _ ans s.mem)).trans ?_
  rw [settle_of_no_restart]
  · rfl
  · exact (congrArg Power.restart (resched_pwr ..)).trans restart

theorem exec_atomic_own {i : Instr} {ok : Bool} {rd rs1 rs2 : Nat} {far : Bool} {f : Word → Word → Word} {ans : BusAns}
    (hi : exec i s = onUnitSM ok (atomicOp core k rd rs1 rs2 far f ans) s) (hok : ok = true)
    (restart : s.mach.pwr.restart = false)
    (ea : (if far then farAddr (s.ctxOf core k) rs1 0 else nearAddr (s.ctxOf core k) rs1 0) = 0x2F010000 + o) :
    let old := wordAt s.mem (dtcmAt core o)
    exec i s = .next { s with
      mach := (s.ran core k (·.setG rd old)).mach,
      mem := s.mem.wrBytes (dtcmAt core o) (leBytes 4 (f old ((s.ctxOf core k).g rs2)).toNat) } := by
  intro old
  obtain ⟨place, free⟩ := own_access (s := s) (k := k) hc ho aligned up
  have effect : atomicEff core k rd rs1 rs2 far f ans s.mem (s.ctxOf core k) (s.fetched core k) =
      (.done ((s.fetched core k).modCtx (cix core k) fun x => x.setG rd old),
       s.mem.wrBytes (dtcmAt core o) (leBytes 4 (f old ((s.ctxOf core k).g rs2)).toNat)) := by
    simp only [atomicEff, ea, realAddr_alias hc ho, free, place, hc, ownMem, dataRead_own place, dataWrite_own hc place,
      wordAt_eq, beq_self_eq_true, decide_true, Bool.and_self, Bool.not_true, Bool.and_false, Bool.false_eq_true, if_false]
    rfl
  rw [hi, onUnitSM_of hok, atomicOp_eq, meperM_done h effect, resched_fetched]
  refine congrArg _ (settle_of_no_restart ?_)
  exact (congrArg Power.restart (resched_pwr ..)).trans restart

end

/-- Settles O12: the window stands for the core's own DTCM, where nothing stops a word access; the bytes written are
those of the word. -/
theorem ownDtcmAccess : Obligations.OwnDtcmAccess := by
  intro core k rd rs1 rs2 o imm far ans s h hc hd h1 h2 ho aligned up restart memOk c at_ old holds does
  have addr {w : Word} (hw : w = BitVec.ofNat 32 (0x2F010000 + o)) : w.toNat = 0x2F010000 + o := by
    rw [hw, BitVec.toNat_ofNat]; omega
  refine ⟨fun ea => ⟨exec_lw_own h hc ho aligned up ans hd h1 (addr ea), _,
    exec_sw_own h hc ho aligned up ans h1 h2 restart (addr ea), rfl, holds_wrBytes memOk ..⟩, fun ea near => ?_⟩
  have zero : c.g rs1 + immS 0 = c.g rs1 := by simp [immS]
  have reached : (if far then farAddr c rs1 0 else nearAddr c rs1 0) = 0x2F010000 + o := by
    rw [farAddr, nearAddr, zero, addr ea]
    cases far with
    | false => rfl
    | true => simp [near rfl]
  have ok : (okCtx core k && okG rd && okG rs1 && okG rs2) = true := by simp [h.1, okG, *]
  exact ⟨⟨_, exec_atomic_own (f := (· + ·)) h hc ho aligned up rfl ok restart reached, rfl, holds_wrBytes memOk ..⟩,
    ⟨_, exec_atomic_own (f := fun _ v => v) h hc ho aligned up rfl ok restart reached, rfl, holds_wrBytes memOk ..⟩⟩

end Sys2Proof.Machine
end

section
/-! PROOFS. Comparators, the stage buffer and fault messages of an instruction (O15). -/

namespace Sys2Proof.Machine

section
variable {core k : Nat} {s : State}

/-! ## ARM -/

/-- The effect of an ARM on a block read at an address. -/
def armEff (core k rd rs1 : Nat) (mem : Mem) (c : Ctx) (m : Mach) : Eff :=
  let ea := (c.g rs1).toNat
  let a := realAddr core ea
  if ea % 32 != 0 then .park m .align ea
  else if !ownData core (placeOf m a) || (core == 8 && regionBad core k 1 a 32 m) then .park m .prot ea
  else
    let w := armBlock mem a
    let ret (v : Word) (m : Mach) : Eff := .done (m.modCtx (cix core k) fun x => x.setG rd v)
    if !armValid m w then ret 0xFFFFFFFE m
    else if bitsOf (w 0) 8 6 == 5 && armTargetBad core k (w 4).toNat m then .park m .prot (w 4).toNat
    else match (List.range (cmpCount core)).find? fun n => !(m.cmp (core * 32 + n)).armed with
      | none => ret 0xFFFFFFFF m
      | some n =>
        let i := core * 32 + n
        let x := armCmp k w (m.cmp i)
        if baseReached x.base x.stn x.tgt m then
          ret (BitVec.ofNat 32 (0x100 + n)) (fireNow i (m.setCmp i { x with late := true }))
        else ret (BitVec.ofNat 32 n) (m.setCmp i x)

/-- The lowest free comparator. -/
theorem find_free {count n : Nat} {m : Mach} (hn : n < count) (free : (m.cmp (core * 32 + n)).armed = false)
    (below : ∀ j, j < n → (m.cmp (core * 32 + j)).armed = true) :
    ((List.range count).find? fun n => !(m.cmp (core * 32 + n)).armed) = some n := by
  rw [List.find?_range_eq_some]
  refine ⟨by simp [free], List.mem_range.2 hn, fun j hj => ?_⟩
  simp [below j hj]

theorem armEff_done {rd rs1 n : Nat} {mem : Mem} {c : Ctx} {m : Mach}
    (aligned : (c.g rs1).toNat % 32 = 0) (own : ownData core (placeOf m (realAddr core (c.g rs1).toNat)) = true)
    (region : core = 8 → regionBad core k 1 (realAddr core (c.g rs1).toNat) 32 m = false)
    (valid : armValid m (armBlock mem (realAddr core (c.g rs1).toNat)) = true)
    (action : bitsOf (armBlock mem (realAddr core (c.g rs1).toNat) 0) 8 6 ≠ 5)
    (hn : n < cmpCount core) (free : (m.cmp (core * 32 + n)).armed = false)
    (below : ∀ j, j < n → (m.cmp (core * 32 + j)).armed = true)
    (later : let x := armCmp k (armBlock mem (realAddr core (c.g rs1).toNat)) (m.cmp (core * 32 + n))
      baseReached x.base x.stn x.tgt m = false) :
    armEff core k rd rs1 mem c m = .done ((m.setCmp (core * 32 + n)
      (armCmp k (armBlock mem (realAddr core (c.g rs1).toNat)) (m.cmp (core * 32 + n)))).modCtx (cix core k)
        fun x => x.setG rd (BitVec.ofNat 32 n)) := by
  have allowed : (core == 8 && regionBad core k 1 (realAddr core (c.g rs1).toNat) 32 m) = false := by
    by_cases sup : core = 8 <;> simp [sup]
    exact sup ▸ region sup
  dsimp only at later
  simp [armEff, aligned, own, allowed, valid, action, find_free hn free below, later]

/-! ## DARM, STG, CMT and FLT -/

theorem exec_darm {rd rs1 : Nat} (h : s.fetching core k) (hd : rd < 32) (h1 : rs1 < 32) :
    let n := ((s.ctxOf core k).g rs1).toNat % 32
    let x := (s.fetched core k).cmp (core * 32 + n)
    let mine : Bool := n < cmpCount core && x.armed && x.ctx == k
    exec (.darm core k rd rs1) s = .next (s.ranOn core k fun m =>
      (when mine (fun m => m.setCmp (core * 32 + n) { x with armed := false }) m).modCtx (cix core k)
        (·.setG rd (boolWord !mine))) := by
  intro n x mine
  exact (onUnit_of (by simp [h.1, okG, *]) (opDarm core k rd rs1) s).trans
    (congrArg _ (onMach_meper_done (g := fun m =>
      (when mine (fun m => m.setCmp (core * 32 + n) { x with armed := false }) m).modCtx (cix core k)
        (·.setG rd (boolWord !mine))) h rfl))

/-- The effect of an STG. -/
def stgEff (core k rs2 rs1 : Nat) (imm : BitVec 16) (c : Ctx) (m : Mach) : Eff :=
  let a := nearAddr c rs1 imm
  let key := a - 0x40000000
  if a % 4 != 0 || !(0x40000000 ≤ a && a < 0x41000000)
      || (blockAssigned (key / 65536) && !mayWrite (.ctx core k) true key) || regionBad core k 2 a 4 m then
    .park m .stgaddr a
  else if 32 ≤ c.stage.length then .park m .stgfull a
  else .done (m.modCtx (cix core k) fun x => { x with stage := x.stage ++ [(key, c.g rs2)] })

theorem stgEff_done {rs1 rs2 : Nat} {imm : BitVec 16} {c : Ctx} {m : Mach} (low : 0x40000000 ≤ nearAddr c rs1 imm)
    (high : nearAddr c rs1 imm - 0x40000000 < 0x1000000) (aligned : (nearAddr c rs1 imm - 0x40000000) % 4 = 0)
    (rights : blockAssigned ((nearAddr c rs1 imm - 0x40000000) / 65536) = true →
      mayWrite (.ctx core k) true (nearAddr c rs1 imm - 0x40000000) = true)
    (region : regionBad core k 2 (nearAddr c rs1 imm) 4 m = false) (room : c.stage.length < 32) :
    stgEff core k rs2 rs1 imm c m = .done (m.modCtx (cix core k) fun x =>
      { x with stage := x.stage ++ [(nearAddr c rs1 imm - 0x40000000, c.g rs2)] }) := by
  have word : nearAddr c rs1 imm % 4 = 0 := by omega
  have below : nearAddr c rs1 imm < 0x41000000 := by omega
  have granted : (blockAssigned ((nearAddr c rs1 imm - 0x40000000) / 65536) &&
      !mayWrite (.ctx core k) true (nearAddr c rs1 imm - 0x40000000)) = false := by
    cases assigned : blockAssigned ((nearAddr c rs1 imm - 0x40000000) / 65536) with
    | false => rfl
    | true => simp [rights assigned]
  simp [stgEff, word, low, below, granted, region, room]

/-- The effect of a CMT. -/
def cmtEff (core k rd rs1 rs2 code sub : Nat) (late : Bool) (c : Ctx) (m : Mach) : Eff :=
  match cmtBoundary c m rs1 rs2 code sub late with
  | none => illegal c m
  | some b => if c.slot.isSome then .wait (.commit b late rd) else .done (sealNow (cix core k) b late rd m)

theorem cmtEff_of_boundary {rd rs1 rs2 code sub : Nat} {late : Bool} {b : Boundary} {c : Ctx} {m : Mach}
    (hb : cmtBoundary c m rs1 rs2 code sub late = some b) : cmtEff core k rd rs1 rs2 code sub late c m =
      if c.slot.isSome then .wait (.commit b late rd) else .done (sealNow (cix core k) b late rd m) := by
  simp only [cmtEff, hb]

/-- The message of an FLT. -/
def fltMsg (core k code sub : Nat) (a b : Word) : Msg :=
  { src := 0x0D0 + core, kind := 0x80 + sub % 128, cls := code, sid := a.truncate 24,
    param := BitVec.ofNat 40 (b.toNat + k * 2 ^ 32) }

/-- The effect of an FLT. -/
def fltEff (core k rd rs1 rs2 code sub : Nat) (c : Ctx) (m : Mach) : Eff :=
  if 4 < code then illegal c m
  else .done ((deliver (fltMsg core k code sub (c.g rs1) (c.g rs2)) m).modCtx (cix core k) fun x =>
    x.setG rd (boolWord (tget {} (0x0D0 + core) m.flt.srcs).held))

end

/-- Settles O15: the effect of each instruction in its normal case, then the rule for effects that are done. -/
theorem stagingAndFaultInstructions : Obligations.StagingAndFaultInstructions := by
  intro core k rd rs1 rs2 code sub n late imm b s h hd h1 h2 hcode hsub i c m a at_ w key
  have fields : (okCtx core k && okG rd && okG rs1 && okG rs2 && decide (code < 8) && decide (sub < 128)) = true := by
    simp [h.1, okG, *]
  refine ⟨fun aligned own region valid action hn free below later => ?_, fun hn small armed mine => ?_, fun hn other => ?_,
    fun low high aligned rights region room => ?_, fun hb empty => ?_, fun hb full => ?_, fun small => ?_⟩
  · have effect := armEff_done (core := core) (k := k) (rd := rd) aligned own region valid action hn free below later
    have ok : (okCtx core k && okG rd && okG rs1) = true := by simp [h.1, okG, *]
    have started : exec (.arm core k rd rs1) s = .next (settle (s.onMach (meper core k (armEff core k rd rs1 s.mem)))) := by
      show onUnitSR _ _ s = _
      rw [onUnitSR, onUnitS, ok]
      rfl
    rw [started]
    exact congrArg (fun t => Host.Outcome.next (settle t)) (onMach_meper_done (g := fun m =>
      (m.setCmp (core * 32 + n) (armCmp k w (m.cmp (core * 32 + n)))).modCtx i (·.setG rd (BitVec.ofNat 32 n))) h effect)
  · subst hn
    have mine : (decide (a % 32 < cmpCount core) && (m.cmp (core * 32 + a % 32)).armed &&
        (m.cmp (core * 32 + a % 32)).ctx == k) = true := by simp [small, armed, mine]
    refine (exec_darm h hd h1).trans (congrArg _ (onMach_congr (congrArg (resched core) ?_)))
    simp only [when]
    rw [if_pos mine, mine]
    rfl
  · subst hn
    have other : (decide (a % 32 < cmpCount core) && (m.cmp (core * 32 + a % 32)).armed &&
        (m.cmp (core * 32 + a % 32)).ctx == k) = false := by
      rw [← Bool.not_eq_true]; simpa [and_assoc] using other
    refine (exec_darm h hd h1).trans (congrArg _ (onMach_congr (congrArg (resched core) ?_)))
    simp only [when]
    rw [other]
    exact modCtx_modCtx ..
  · have ok : (okCtx core k && okG rs2 && okG rs1) = true := by simp [h.1, okG, *]
    refine (onUnit_of ok (opStg core k rs2 rs1 imm) s).trans (congrArg _ ?_)
    have address : key + 0x40000000 = nearAddr c rs1 imm := Nat.sub_add_cancel low
    exact (onMach_meper_ctx h (stgEff_done low high aligned rights (address ▸ region) room)).trans (ran_congr rfl)
  · refine (onUnit_of fields (opCmt core k rd rs1 rs2 code sub late) s).trans (congrArg _ ?_)
    have empty : c.slot.isSome = false := by rw [empty]; rfl
    exact onMach_meper_done (g := sealNow i b late rd) h ((cmtEff_of_boundary hb).trans (by rw [if_neg]; simpa using empty))
  · refine (onUnit_of fields (opCmt core k rd rs1 rs2 code sub late) s).trans (congrArg _ ?_)
    have full : c.slot.isSome = true := Option.isSome_iff_ne_none.2 full
    exact onMach_meper_wait h ((cmtEff_of_boundary hb).trans (if_pos full))
  · refine (onUnit_of fields (opFlt core k rd rs1 rs2 code sub) s).trans (congrArg _ ?_)
    have effect : fltEff core k rd rs1 rs2 code sub c m = _ := if_neg (Nat.not_lt.2 (Nat.le_of_lt_succ small))
    rw [fltMsg, Nat.mod_eq_of_lt hsub] at effect
    exact onMach_meper_done (g := fun m => (deliver _ m).modCtx i (·.setG rd _)) h effect

end Sys2Proof.Machine
end

section
/-! PROOFS. Ring entries: what putting and taking one comes to, and PUSH and POP (O17). -/

namespace Sys2Proof.Machine

/-! ## The other side is told -/

section
variable {r n key : Nat} {m : Mach}

theorem msix_word (hk : quietKey key) (v : Nat) (m : Mach) : (m.msix v).word key = m.word key :=
  (calm_msix (K := quietKey) (fun _ h => h) v m).word key hk

theorem assertEvent_word (code key : Nat) (m : Mach) : (assertEvent code m).word key = m.word key := by
  simp [Mach.word]

/-- Telling the consumer writes no register but the pending bits. -/
theorem tellConsumer_word (hk : quietKey key) (r n : Nat) (m : Mach) : (tellConsumer r n m).word key = m.word key := by
  rw [tellConsumer]
  split
  · simp only [when]; split <;> simp [assertEvent_word]
  · split
    · dsimp only
      split
      · exact msix_word hk ..
      · rfl
    · rfl
  · rfl

/-- Telling the producer writes no register but the pending bits. -/
theorem tellProducer_word (hk : quietKey key) (r : Nat) (m : Mach) : (tellProducer r m).word key = m.word key := by
  rw [tellProducer]
  split
  · simp only [when]; split <;> simp [assertEvent_word]
  · simp only [when]
    split
    · exact msix_word hk ..
    · rfl
  · rfl

/-- The two indices of a ring stand in registers that no message writes. -/
theorem quietKey_pidx (hr : r < 32) : quietKey (R.RING_PIDX r).key := by simp only [quietKey, R.RING_PIDX]; omega

theorem quietKey_cidx (hr : r < 32) : quietKey (R.RING_CIDX r).key := by simp only [quietKey, R.RING_CIDX]; omega

theorem get_of_word {m m' : Mach} {f : FRef} (h : m'.word f.key = m.word f.key) : m'.get f = m.get f := by
  rw [Mach.get, Mach.get, h]

theorem get_incWrap_index (f : FRef) (hhi : f.hi = 31) (hlo : f.lo = 0) (m : Mach) :
    (m.incWrap f).get f = (m.get f + 1) % 2 ^ 32 := by
  rw [Mach.incWrap, Mach.get_set_same _ _ _ (by omega) (by omega), hhi, hlo]

end

/-! ## A slot in shared SRAM -/

section
variable {r : Nat} {m : Mach} {a : Nat}

/-- The range of shared SRAM. -/
theorem shared_of_placeOf (h : placeOf m a = .shared) : 0x30500000 ≤ a ∧ a < 0x307F0000 := by
  rw [placeOf] at h
  split at h
  · cases h
  split at h
  · cases h
  split at h
  · dsimp only at h
    split at h
    · cases h
    · split at h <;> cases h
  split at h
  · dsimp only at h
    split at h <;> cases h
  split at h
  · rename_i inside
    simpa using inside
  split at h
  · cases h
  split at h
  · cases h
  split at h
  · cases h
  split at h <;> cases h

theorem inHost_of_shared (h : placeOf m a = .shared) : inHost a = false := by
  obtain ⟨-, below⟩ := shared_of_placeOf h
  have : ¬(0x8000000000 ≤ a) := by omega
  simp [inHost, hostWindow, this]

theorem slotAsk_of_shared {m' : Mach} (h : placeOf m a = .shared) : slotAsk a m' = m' := by
  obtain ⟨-, below⟩ := shared_of_placeOf h
  have : ¬(0x0400000000 ≤ a) := by omega
  simp [slotAsk, dramBase, this, when]

theorem slotWrite_shared {idx : Nat} (bs : List Byte) (mem : Mem) (place : placeOf m (ringSlot m r idx) = .shared) :
    slotWrite r idx bs m mem = (true, m, mem.wrBytes (ringSlot m r idx) bs) := by
  have local_ : ¬inHost (ringSlot m r idx) = true := by rw [inHost_of_shared place]; exact Bool.false_ne_true
  exact (if_neg local_).trans (by rw [slotAsk_of_shared place])

theorem slotRead_shared {idx : Nat} (mem : Mem) (place : placeOf m (ringSlot m r idx) = .shared) :
    slotRead r idx mem m = (some (mem.rdBytes (ringSlot m r idx) 32), m) := by
  have local_ : ¬inHost (ringSlot m r idx) = true := by rw [inHost_of_shared place]; exact Bool.false_ne_true
  exact (if_neg local_).trans (by rw [slotAsk_of_shared place])

/-- An entry put into a slot of shared SRAM: the bytes stand there, and the producer index goes on by one. -/
theorem ringPut_shared {side : Nat} (bs : List Byte) (mem : Mem) (en : m.on (R.RING_CFG_EN r) = true)
    (own : m.get (R.RING_CFG_PSIDE r) = side) (room : ringCount m r < ringSize m r)
    (place : placeOf m (ringSlot m r (m.get (R.RING_PIDX r))) = .shared) : ringPut r side bs m mem =
      (true, tellConsumer r 1 (m.incWrap (R.RING_PIDX r)), mem.wrBytes (ringSlot m r (m.get (R.RING_PIDX r))) bs) := by
  have open_ : (m.on (R.RING_CFG_EN r) && m.get (R.RING_CFG_PSIDE r) == side && decide (ringCount m r < ringSize m r)) = true := by
    rw [en, own, decide_eq_true room, beq_self_eq_true]; rfl
  rw [ringPut, if_pos open_, slotWrite_shared bs mem place]

/-- An entry taken from a slot of shared SRAM. -/
theorem ringTake_shared {side : Nat} (mem : Mem) (en : m.on (R.RING_CFG_EN r) = true)
    (own : m.get (R.RING_CFG_CSIDE r) = side) (some_ : ringCount m r ≠ 0)
    (place : placeOf m (ringSlot m r (m.get (R.RING_CIDX r))) = .shared) : ringTake r side mem m =
      (some (mem.rdBytes (ringSlot m r (m.get (R.RING_CIDX r))) 32), tellProducer r (m.incWrap (R.RING_CIDX r))) := by
  have open_ : (m.on (R.RING_CFG_EN r) && m.get (R.RING_CFG_CSIDE r) == side && decide (0 < ringCount m r)) = true := by
    rw [en, own, decide_eq_true (Nat.pos_of_ne_zero some_), beq_self_eq_true]; rfl
  rw [ringTake, if_pos open_, slotRead_shared mem place]

end

/-! ## PUSH and POP -/

/-- What a PUSH whose operand stands where it may comes to: the value for rd, the machine before that and the memories. -/
inductive Pushes (core a r : Nat) (ans : BusAns) (mem : Mem) (m : Mach) : Word → Mach → Mem → Prop
  | disabled (en : m.on (R.RING_CFG_EN r) = false) : Pushes core a r ans mem m 2 m mem
  | foreign (en : m.on (R.RING_CFG_EN r) = true) (side : m.get (R.RING_CFG_PSIDE r) ≠ 0) : Pushes core a r ans mem m 3 m mem
  | full (en : m.on (R.RING_CFG_EN r) = true) (side : m.get (R.RING_CFG_PSIDE r) = 0) (full : ringSize m r ≤ ringCount m r) :
      Pushes core a r ans mem m 1 m mem
  | puts (en : m.on (R.RING_CFG_EN r) = true) (side : m.get (R.RING_CFG_PSIDE r) = 0) (room : ringCount m r < ringSize m r)
      (free : slotHeld r (m.get (R.RING_PIDX r)) m = false)
      (reached : slotStop core (ringSlot m r (m.get (R.RING_PIDX r))) ans m = none) {x : Bool × Mach × Mem}
      (hx : ringPut r 0 (mem.rdBytes a 32) m mem = x) : Pushes core a r ans mem m (if x.1 then 0 else 2) x.2.1 x.2.2

/-- What a POP whose operand stands where it may comes to. -/
inductive Pops (core a r : Nat) (ans : BusAns) (mem : Mem) (m : Mach) : Word → Mach → Mem → Prop
  | disabled (en : m.on (R.RING_CFG_EN r) = false) : Pops core a r ans mem m 2 m mem
  | foreign (en : m.on (R.RING_CFG_EN r) = true) (side : m.get (R.RING_CFG_CSIDE r) ≠ 0) : Pops core a r ans mem m 3 m mem
  | empty (en : m.on (R.RING_CFG_EN r) = true) (side : m.get (R.RING_CFG_CSIDE r) = 0) (empty : ringCount m r = 0) :
      Pops core a r ans mem m 1 m mem
  | takes (en : m.on (R.RING_CFG_EN r) = true) (side : m.get (R.RING_CFG_CSIDE r) = 0) (some_ : ringCount m r ≠ 0)
      (free : slotHeld r (m.get (R.RING_CIDX r)) m = false)
      (reached : slotStop core (ringSlot m r (m.get (R.RING_CIDX r))) ans m = none)
      (clean : (slotAns (ringSlot m r (m.get (R.RING_CIDX r))) ans m).1 = false) {bs : List Byte} {m' : Mach}
      (take : ringTake r 0 mem (slotAns (ringSlot m r (m.get (R.RING_CIDX r))) ans m).2 = (some bs, m')) :
      Pops core a r ans mem m 0 (when (core == 8) (placeSpoil (placeOf m a)) m') (mem.wrBytes a bs)

section
variable {core k rd rs1 r : Nat} {ans : BusAns} {s : State} {v : Word} {m' : Mach} {mem' : Mem}

theorem exec_push (h : s.fetching core k) (hd : rd < 32) (h1 : rs1 < 32) (hr : r < 32)
    (operand : ringOperand core k false ((s.ctxOf core k).g rs1).toNat (s.fetched core k) = none)
    (answer : noAnswer core (placeOf (s.fetched core k) (realAddr core ((s.ctxOf core k).g rs1).toNat)) ans = false)
    (case : Pushes core (realAddr core ((s.ctxOf core k).g rs1).toNat) r ans s.mem (s.fetched core k) v m' mem') :
    exec (.push core k rd rs1 r ans) s =
      .next { s with mach := resched core (m'.modCtx (cix core k) (·.setG rd v)), mem := mem' } := by
  have effect : opPush core k rd rs1 r ans s.mach s.mem = (resched core (m'.modCtx (cix core k) (·.setG rd v)), mem') := by
    unfold opPush
    refine meperM_done h ?_
    extract_lets +onlyGivenNames ea a r' ret
    have ring : r' = r := Nat.mod_eq_of_lt hr
    rewrite [show ringOperand core k false ea (s.fetched core k) = none from operand, ring]
    refine (if_neg (by rw [answer]; exact Bool.false_ne_true)).trans ?_
    cases case with
    | disabled en => exact if_pos (by rw [en]; rfl)
    | foreign en side => exact (if_neg (by rw [en]; decide)).trans (if_pos (by simpa using side))
    | full en side full => exact (if_neg (by rw [en]; decide)).trans ((if_neg (by rw [side]; decide)).trans (if_pos full))
    | puts en side room free reached hx =>
      subst hx
      refine (if_neg (by rw [en]; decide)).trans ((if_neg (by rw [side]; decide)).trans
        ((if_neg (Nat.not_le.2 room)).trans ((if_neg (by rw [free]; decide)).trans ?_)))
      extract_lets +onlyGivenNames at_
      rewrite [show slotStop core at_ ans (s.fetched core k) = none from reached]
      rfl
  rw [show exec (.push core k rd rs1 r ans) s = _ from onUnitM_of (by simp [h.1, okG, *]) (opPush core k rd rs1 r ans) s, effect]

theorem exec_pop (h : s.fetching core k) (hd : rd < 32) (h1 : rs1 < 32) (hr : r < 32)
    (operand : ringOperand core k true ((s.ctxOf core k).g rs1).toNat (s.fetched core k) = none)
    (answer : noAnswer core (placeOf (s.fetched core k) (realAddr core ((s.ctxOf core k).g rs1).toNat)) ans = false)
    (case : Pops core (realAddr core ((s.ctxOf core k).g rs1).toNat) r ans s.mem (s.fetched core k) v m' mem') :
    exec (.pop core k rd rs1 r ans) s =
      .next { s with mach := resched core (m'.modCtx (cix core k) (·.setG rd v)), mem := mem' } := by
  have effect : opPop core k rd rs1 r ans s.mach s.mem = (resched core (m'.modCtx (cix core k) (·.setG rd v)), mem') := by
    unfold opPop
    refine meperM_done h ?_
    extract_lets +onlyGivenNames ea a r' ret
    have ring : r' = r := Nat.mod_eq_of_lt hr
    rewrite [show ringOperand core k true ea (s.fetched core k) = none from operand, ring]
    refine (if_neg (by rw [answer]; exact Bool.false_ne_true)).trans ?_
    cases case with
    | disabled en => exact if_pos (by rw [en]; rfl)
    | foreign en side => exact (if_neg (by rw [en]; decide)).trans (if_pos (by simpa using side))
    | empty en side empty => exact (if_neg (by rw [en]; decide)).trans ((if_neg (by rw [side]; decide)).trans (if_pos empty))
    | takes en side some_ free reached clean take =>
      -- opaque names keep the kernel from evaluating the slot's address
      generalize slotAns = answerOf at clean take ⊢
      refine (if_neg (by rw [en]; decide)).trans ((if_neg (by rw [side]; decide)).trans
        ((if_neg some_).trans ((if_neg (by rw [free]; decide)).trans ?_)))
      extract_lets +onlyGivenNames at_
      rewrite [show slotStop core at_ ans (s.fetched core k) = none from reached]
      generalize ringTake r 0 s.mem = takeOf at take ⊢
      generalize answerOf (ringSlot (s.fetched core k) r ((s.fetched core k).get (R.RING_CIDX r))) ans (s.fetched core k) = d
        at clean take ⊢
      refine (if_neg (by rw [clean]; decide)).trans ?_
      rewrite [take]
      rfl
  rw [show exec (.pop core k rd rs1 r ans) s = _ from onUnitM_of (by simp [h.1, okG, *]) (opPop core k rd rs1 r ans) s, effect]

/-- A ring instruction that gives rd a value and moves nothing. -/
theorem next_ret (v : Word) :
    (Host.Outcome.next { s with mach := resched core ((s.fetched core k).modCtx (cix core k) fun x => x.setG rd v) } :
      Host.Outcome State Fault Refusal) = .next (s.ran core k (·.setG rd v)) := by
  rw [resched_fetched]; rfl

/-- What rd holds once the core has gone on. -/
theorem g_resched_setG {m : Mach} (i rd : Nat) (core : Nat) :
    ((resched core (m.modCtx i (·.setG rd 0))).ctx i).g rd = 0 := by
  rw [(turn_resched core i _).g, ctx_modCtx_same]
  by_cases zero : rd = 0
  · simp [zero, Ctx.g]
  · exact g_setG_same zero _

theorem get_resched_modCtx (core i : Nat) (f : Ctx → Ctx) (m : Mach) (g : FRef) :
    (resched core (m.modCtx i f)).get g = m.get g := resched_get ..

/-- A write to a measured memory touches the measurement registers alone. -/
theorem placeSpoil_word {key : Nat} (hk : key < 0x211000) (p : Place) (m : Mach) : (placeSpoil p m).word key = m.word key := by
  have all (i : Nat) (l : List Nat) : ∀ m : Mach,
      (each l (fun j m => m.setWord (R.SEC_MEAS_HASH i j).key (BitVec.allOnes 32)) m).word key = m.word key := by
    induction l with
    | nil => exact fun _ => rfl
    | cons a l ih =>
      intro m
      refine (ih _).trans (Mach.word_setWord_ne _ ?_ _)
      simp only [R.SEC_MEAS_HASH]; omega
  rw [placeSpoil]
  split
  · rw [measSpoil]
    split
    · rfl
    · exact all _ _ m
  · rfl

end

/-- Settles O17: the effects of the two instructions case by case, and what an entry in shared SRAM comes to. -/
theorem ringInstructions : Obligations.RingInstructions := by
  intro core k rd rs1 r ans s h hd h1 hr c m a at_ rets fits pAt cAt pushes pops
  refine ⟨fun ⟨operand, answer⟩ en => ?_, fun ⟨operand, answer⟩ en => ?_, fun ⟨operand, answer⟩ en side => ?_,
    fun ⟨operand, answer⟩ en side => ?_, fun ⟨operand, answer⟩ en side full => ?_, fun ⟨operand, answer⟩ en side empty => ?_,
    fun ⟨⟨operand, answer⟩, en, side, room, free, reached⟩ => ?_,
    fun ⟨⟨operand, answer⟩, en, side, room, free, reached⟩ place => ?_,
    fun ⟨⟨operand, answer⟩, en, side, some_, free, reached⟩ clean bs m' take => ?_,
    fun ⟨⟨operand, answer⟩, en, side, some_, free, reached⟩ place => ?_⟩
  · exact (exec_push h hd h1 hr operand answer (.disabled en)).trans (next_ret 2)
  · exact (exec_pop h hd h1 hr operand answer (.disabled en)).trans (next_ret 2)
  · exact (exec_push h hd h1 hr operand answer (.foreign en side)).trans (next_ret 3)
  · exact (exec_pop h hd h1 hr operand answer (.foreign en side)).trans (next_ret 3)
  · exact (exec_push h hd h1 hr operand answer (.full en side full)).trans (next_ret 1)
  · exact (exec_pop h hd h1 hr operand answer (.empty en side empty)).trans (next_ret 1)
  · exact exec_push h hd h1 hr operand answer (.puts en side room free reached rfl)
  · refine ⟨_, exec_push h hd h1 hr operand answer (.puts en side room free reached (ringPut_shared _ _ en side room place)),
      rfl, ?_, ?_, g_resched_setG ..⟩
    · rw [get_resched_modCtx, get_of_word (tellConsumer_word (quietKey_pidx hr) ..)]
      exact get_incWrap_index _ rfl rfl m
    · rw [get_resched_modCtx, get_of_word (tellConsumer_word (quietKey_cidx hr) ..)]
      exact Mach.get_set_ne _ (by simp [R.RING_PIDX, R.RING_CIDX]) _
  · exact exec_pop h hd h1 hr operand answer (.takes en side some_ free reached clean take)
  · have plain : slotAns cAt ans m = (false, m) := by
      have : (placeOf m cAt != .dram) = true := by rw [place]; rfl
      exact if_pos this
    have take : ringTake r 0 s.mem (slotAns cAt ans m).2 = _ :=
      (congrArg (ringTake r 0 s.mem) (congrArg Prod.snd plain)).trans (ringTake_shared s.mem en side some_ place)
    have spoiled {key : Nat} (hk : key < 0x211000) (m' : Mach) :
        (when (core == 8) (placeSpoil (placeOf m at_)) m').word key = m'.word key := by
      simp only [when]
      split
      · exact placeSpoil_word hk ..
      · rfl
    refine ⟨_, exec_pop h hd h1 hr operand answer (.takes en side some_ free reached (congrArg Prod.fst plain) take),
      rfl, ?_, ?_, g_resched_setG ..⟩
    · rw [get_resched_modCtx, get_of_word (spoiled (by simp only [R.RING_CIDX]; omega) _),
        get_of_word (tellProducer_word (quietKey_cidx hr) ..)]
      exact get_incWrap_index _ rfl rfl m
    · rw [get_resched_modCtx, get_of_word (spoiled (by simp only [R.RING_PIDX]; omega) _),
        get_of_word (tellProducer_word (quietKey_pidx hr) ..)]
      exact Mach.get_set_ne _ (by simp [R.RING_PIDX, R.RING_CIDX]) _

end Sys2Proof.Machine
end

section
/-! PROOFS. Steps and reset (O1, O2), and what one ledger transition does to the records (O21). -/

namespace Sys2Proof.Machine

/-- Settles O1: by the three definitions. -/
theorem stepRunsFront : Obligations.StepRunsFront := by
  refine fun s => ⟨fun c q waits => ?_, fun idle => ?_, fun nbits w => ?_⟩
  · rw [step, waits]
  · rw [step, idle]
  · rw [State.withFetchWord, decodeTableWord]

/-- The contexts right after reset. -/
theorem ctx_reset (i : Nat) :
    State.reset.mach.ctx i = if i = 32 then { state := .running, prio := 3 } else { prio := i % 4 } := by
  rw [Mach.ctx, show State.reset.mach.cox.ctxs = [(32, { state := .running, prio := 3 })] from rfl, tget, tget]
  split <;> simp_all [eq_comm]

/-- Settles O2: nothing is listed in the reset state but context 0 of the supervisor. -/
theorem resetState : Obligations.ResetState := by
  refine ⟨show Memory.wf {} = true by decide, rfl, rfl, fun _ => rfl, fun _ => rfl, fun core k ok => ?_, fun _ _ => rfl⟩
  have range : core < 9 ∧ k < 4 := by simpa [okCtx] using ok
  rw [State.ctxOf, ctx_reset, cix]
  split
  · simp; omega
  · simp; omega

/-! ## What a transition does besides -/

theorem sheets_when {c : Bool} {f : Mach → Mach} (h : ∀ m, (f m).sheets = m.sheets) (m : Mach) :
    (when c f m).sheets = m.sheets := by
  rw [when]; split
  · exact h m
  · rfl

theorem sheets_each {α : Type} {f : α → Mach → Mach} (h : ∀ a m, (f a m).sheets = m.sheets) (l : List α) :
    ∀ m, (each l f m).sheets = m.sheets := by
  induction l with
  | nil => exact fun _ => rfl
  | cons a l ih => exact fun m => (ih _).trans (h a m)

@[simp] theorem msix_sheets (v : Nat) (m : Mach) : (m.msix v).sheets = m.sheets := by
  rw [Mach.msix]; split <;> rfl

@[simp] theorem captureBegin_sheets (b : Nat) (m : Mach) : (captureBegin b m).sheets = m.sheets :=
  show (when _ (·.incSat R.SNAP_STAT_DEFER) m).sheets = m.sheets from
    sheets_when (fun m => Mach.incSat_sheets m _ _) m

@[simp] theorem snapTry_sheets (m : Mach) : (snapTry m).sheets = m.sheets := by
  simp only [snapTry]
  split
  · split
    · exact captureBegin_sheets ..
    · rfl
  · rfl

@[simp] theorem snapEvent_sheets (k : SnapKind) (r : Nat) (m : Mach) : (snapEvent k r m).sheets = m.sheets := by
  simp only [snapEvent]
  split
  · split
    · rfl
    · split <;> rfl
  · rfl

@[simp] theorem frameTx_sheets (port : Nat) (f : Frame) (m : Mach) : (frameTx port f m).sheets = m.sheets := by
  by_cases up : port = 0 <;> simp only [frameTx, up, ↓reduceIte] <;> split <;> rfl

@[simp] theorem frameSend_sheets (f : Frame) (m : Mach) : (frameSend f m).sheets = m.sheets := by
  simp only [frameSend]
  split
  · simp
  · split <;> simp

@[simp] theorem jsCount_sheets (m : Mach) : (jsCount m).sheets = m.sheets :=
  sheets_when (assertEvent_sheets _) _

@[simp] theorem jsRelease_sheets (sid : Sid) (m : Mach) : (jsRelease sid m).sheets = m.sheets := jsCount_sheets _

@[simp] theorem jsHold_sheets (sid : Sid) (m : Mach) : (jsHold sid m).sheets = m.sheets := by
  rw [jsHold]
  split
  · rfl
  · dsimp only
    split
    · split
      · rfl
      · exact jsRelease_sheets ..
    · rfl

@[simp] theorem jsDelivered_sheets (sh : Sheet) (m : Mach) : (jsDelivered sh m).sheets = m.sheets :=
  (sheets_when (jsHold_sheets _) _).trans (jsHold_sheets ..)

@[simp] theorem queueEvents_sheets (n : Nat) (m : Mach) : (queueEvents n m).sheets = m.sheets :=
  (sheets_when (assertEvent_sheets _) _).trans (sheets_when (assertEvent_sheets _) m)

/-! ## The record -/

/-- The record after a transition at `tick`. -/
def Sheet.moved (sh : Sheet) (st : SheetState) (tick : Tick) : Sheet :=
  { (if sh.state == .admitted && (st == .ready || st == .withdrawn) then sh.unadmitted else sh) with
    state := st, trtick := tick }

theorem moved_of_ne {sh : Sheet} {st : SheetState} {tick : Tick} (h : sh.state ≠ .admitted) :
    sh.moved st tick = { sh with state := st, trtick := tick } := by simp [Sheet.moved, h]

theorem sheet_setSheet_same (r : Nat) (sh : Sheet) (m : Mach) : (m.setSheet r sh).sheet r = sh := tget_tput_same ..

theorem sheet_setSheet_ne {j r : Nat} (h : j ≠ r) (sh : Sheet) (m : Mach) : (m.setSheet r sh).sheet j = m.sheet j :=
  tget_tput_ne _ _ h _

theorem sheet_of_sheets {m m' : Mach} (h : m'.sheets = m.sheets) (j : Nat) : m'.sheet j = m.sheet j := by
  rw [Mach.sheet, h]; rfl

/-- A transition writes its record alone. -/
theorem sheetTo_sheets (r : Nat) (st : SheetState) (m : Mach) :
    (sheetTo r st m).sheets = (m.setSheet r ((m.sheet r).moved st m.clk.tick)).sheets := by
  simp only [sheetTo]
  refine (queueEvents_sheets ..).trans ((sheets_when (fun m => ?_) _).trans ((sheets_when (jsDelivered_sheets _) _).trans
    ((sheets_when (fun m => ?_) _).trans (sheets_when (fun m => frameSend_sheets _ m) _))))
  · exact (snapEvent_sheets ..).trans (assertEvent_sheets ..)
  · exact (snapEvent_sheets ..).trans (assertEvent_sheets ..)

theorem sheetTo_same (r : Nat) (st : SheetState) (m : Mach) :
    (sheetTo r st m).sheet r = (m.sheet r).moved st m.clk.tick :=
  (sheet_of_sheets (sheetTo_sheets r st m) r).trans (sheet_setSheet_same ..)

theorem sheetTo_ne {j r : Nat} (h : j ≠ r) (st : SheetState) (m : Mach) : (sheetTo r st m).sheet j = m.sheet j :=
  (sheet_of_sheets (sheetTo_sheets r st m) j).trans (sheet_setSheet_ne h ..)

/-- Settles O21: the record's equation, with the frames of what a transition sets off. -/
theorem sheetTransition : Obligations.SheetTransition := by
  intro r st m sh t
  have same : t.sheet r = sh.moved st m.clk.tick := sheetTo_same r st m
  refine ⟨?_, ?_, ?_, ?_, ?_, ?_, fun ne => same.trans (moved_of_ne ne), fun j ne => sheetTo_ne ne .., ?_, ?_⟩
  · rw [same]; rfl
  · rw [same]; rfl
  iterate 4 rw [same, Sheet.moved]; split <;> rfl
  · exact (ripples_sheetTo (trip := False) r st m).clk
  · exact (spares_sheetTo r st m).flt

end Sys2Proof.Machine
end

section
/-! PROOFS. Fields apart from one another, and committed writes to the ledger's registers (O22). -/

namespace Sys2Proof.Machine

/-! ## Fields apart -/

/-- Two fields share no bit: they stand in different registers, or in different bits of one. -/
abbrev FRef.apart (f g : FRef) : Prop :=
  g.key ≠ f.key ∨ f.hi < 32 ∧ f.lo ≤ f.hi ∧ g.lo ≤ g.hi ∧ (g.hi < f.lo ∨ f.hi < g.lo)

theorem Mach.get_set_of_apart (m : Mach) {f g : FRef} (h : f.apart g) (v : Nat) : (m.set f v).get g = m.get g :=
  h.elim (fun ne => m.get_set_ne ne v) fun ⟨hi, lo, glo, gap⟩ => m.get_set_apart v hi lo glo gap

theorem Mach.on_set_of_apart (m : Mach) {f g : FRef} (h : f.apart g) (v : Nat) : (m.set f v).on g = m.on g := by
  rw [Mach.on, m.get_set_of_apart h, Mach.on]

/-- A value that fits its field is read back. -/
theorem Mach.get_set_fits (m : Mach) {f : FRef} {v : Nat} (h : f.hi < 32) (hl : f.lo ≤ f.hi) (fits : v < 2 ^ (f.hi + 1 - f.lo)) :
    (m.set f v).get f = v := (m.get_set_same f v h hl).trans (Nat.mod_eq_of_lt fits)

theorem FRef.of_lt (f : FRef) (w : Word) : f.of w < 2 ^ (f.hi + 1 - f.lo) := Nat.mod_lt _ (Nat.two_pow_pos _)

/-! ## Commands that act on the machine -/

section
variable {core k r w : Nat} {v : Word} {s : State}

/-- A committed write that is let through. -/
theorem onMach_byCommit {key : Nat} (f : Mach → Mach) (h : s.lets (.ctx core k) true key) :
    s.onMach (byCommit core k key f) = s.onMach f := onMach_congr (guarded_of_lets f h)

theorem exec_sheetRecordWrite (ok : okCtx core k = true) (hr : r < 256) (hw : w < 16)
    (h : s.lets (.ctx core k) true (recKey r w)) :
    exec (.sheetRecordWrite core k r w v) s = .next (s.onMach (sluRecordWrite r w v)) :=
  (onUnit_of (by simp [ok, hr, hw]) (opSheetRecordWrite core k r w v) s).trans (congrArg _ (onMach_byCommit _ h))

theorem exec_sluCtlWrite (ok : okCtx core k = true) (h : s.lets (.ctx core k) true R.SLU_CTL_EN.key) :
    exec (.sluCtlWrite core k v) s = .next (s.onMach (sluCtlSet v)) :=
  (onUnit_of ok (opSluCtlWrite core k v) s).trans (congrArg _ (onMach_byCommit _ h))

theorem exec_sluRsvWrite (ok : okCtx core k = true) (h : s.lets (.ctx core k) true R.SLU_RSV_SPEED.key) :
    exec (.sluRsvWrite core k v) s = .next (s.onMach (sluRsvSet v)) :=
  (onUnit_of ok (opSluRsvWrite core k v) s).trans (congrArg _ (onMach_byCommit _ h))

end

/-! ## Record words -/

section
variable {r w : Nat} {v : Word} {m : Mach}

@[simp] theorem ignored_sheets (key : Nat) (m : Mach) : (ignored key m).sheets = m.sheets := note_sheets ..

/-- A recount writes the record's residency counters alone. -/
theorem recount_same (r : Nat) (m : Mach) : ∃ res, (recount r m).sheet r = { m.sheet r with res := res } :=
  ⟨_, sheet_setSheet_same ..⟩

theorem recount_ne {j : Nat} (h : j ≠ r) (m : Mach) : (recount r m).sheet j = m.sheet j := sheet_setSheet_ne h ..

/-- A word written to a QUEUED record: its RW fields, and a recount where the word decides the bands. -/
theorem sluRecordWrite_queued (h : (m.sheet r).state = .queued) :
    (∃ res, (sluRecordWrite r w v m).sheet r = { (m.sheet r).put w v with res := res } ∧
      (w ≠ 1 ∧ w ≠ 2 ∧ w ≠ 7 → res = (m.sheet r).res)) ∧
    ∀ j, j ≠ r → (sluRecordWrite r w v m).sheet j = m.sheet j := by
  simp only [sluRecordWrite, h]
  have kept (j : Nat) : ∀ {c : Bool} {x : Mach}, (when c (jsRelease (m.sheet r).sid) x).sheet j = x.sheet j :=
    sheet_of_sheets (sheets_when (jsRelease_sheets _) _) j
  have put_res : ((m.sheet r).put w v).res = (m.sheet r).res := by unfold Sheet.put; split <;> rfl
  split
  next counts =>
    refine ⟨?_, fun j ne => (recount_ne ne _).trans ((kept j).trans (sheet_setSheet_ne ne ..))⟩
    obtain ⟨res, hres⟩ := recount_same r
      (when (((m.sheet r).put w v).reimg && !(m.sheet r).reimg) (jsRelease (m.sheet r).sid) (m.setSheet r ((m.sheet r).put w v)))
    refine ⟨res, hres.trans ?_, fun ⟨n1, n2, n7⟩ => ?_⟩
    · rw [kept, sheet_setSheet_same]
    · simp [n1, n2, n7] at counts
  next =>
    refine ⟨⟨(m.sheet r).res, ?_, fun _ => rfl⟩, fun j ne => (kept j).trans (sheet_setSheet_ne ne ..)⟩
    rw [kept, sheet_setSheet_same, ← put_res]

theorem sluRecordWrite_ready_time (h : (m.sheet r).state = .ready) (hw : w = 4 ∨ w = 5) :
    sluRecordWrite r w v m = m.setSheet r ((m.sheet r).put w v) := by
  simp only [sluRecordWrite, h]
  exact if_pos (by simpa using hw)

theorem sluRecordWrite_ready_speed (h : (m.sheet r).state = .ready) :
    (sluRecordWrite r 1 v m).sheets = (m.setSheet r { m.sheet r with speed := bitsOf v 12 10 }).sheets := by
  simp only [sluRecordWrite, h]
  exact sheets_when (ignored_sheets _) _

theorem sluRecordWrite_other (hq : (m.sheet r).state ≠ .queued) (hr : (m.sheet r).state ≠ .ready) :
    sluRecordWrite r w v m = ignored (recKey r w) m := by
  simp only [sluRecordWrite]

end

/-! ## SLU_CTL and SLU_RSV -/

section
variable {f ok g : FRef} {v : Word} {m : Mach}

/-- A reservation field written while nothing holds it reads as written. -/
theorem get_rsvField_self (hf : f.hi < 32 ∧ f.lo ≤ f.hi) (apart : ok.apart f) :
    (rsvField f ok false v m).get f = f.of v := by
  rw [rsvField]
  split
  next same => rw [Mach.get_set_of_apart _ apart, same]
  next =>
    rw [if_neg (by decide), Mach.get_set_of_apart _ apart]
    exact Mach.get_set_fits _ hf.1 hf.2 (f.of_lt v)

/-- Its OK bit stands as written where the value stays, and falls where it changes. -/
theorem get_rsvField_ok (hok : ok.hi < 32 ∧ ok.lo ≤ ok.hi) :
    (rsvField f ok false v m).get ok = if f.of v = m.get f then ok.of v else 0 := by
  rw [rsvField]
  split
  next => exact Mach.get_set_fits _ hok.1 hok.2 (ok.of_lt v)
  next => exact Mach.get_set_fits _ hok.1 hok.2 (Nat.two_pow_pos _)

theorem get_rsvField_apart (hf : f.apart g) (hok : ok.apart g) : (rsvField f ok false v m).get g = m.get g := by
  rw [rsvField]
  split
  next => exact Mach.get_set_of_apart _ hok _
  next => rw [if_neg (by decide), Mach.get_set_of_apart _ hok, Mach.get_set_of_apart _ hf]

theorem rsvField_sheets : (rsvField f ok false v m).sheets = m.sheets := by
  rw [rsvField]; split <;> rfl

/-- SLU_RSV with nothing to hold a field: the three values, before a mark frame that a change of SPEED abandons. -/
def reserved (v : Word) (m : Mach) : Mach :=
  rsvField R.SLU_RSV_FUSBAND R.SLU_RSV_FUSOK false v
    (rsvField R.SLU_RSV_HVSET R.SLU_RSV_HVOK false v (rsvField R.SLU_RSV_SPEED R.SLU_RSV_SPDOK false v m))

theorem sluRsvSet_free (busy : countIn (fun st => st == .admitted || st.busy) m = 0)
    (hot : countIn (fun st => st == .admitted || st.busy || st == .transferred) m = 0) :
    sluRsvSet v m = when ((reserved v m).get R.SLU_RSV_SPEED != m.get R.SLU_RSV_SPEED) markAbandon (reserved v m) := by
  simp only [sluRsvSet, busy, hot]
  rfl

/-- A field of SLU_RSV after the write: abandoning a mark frame writes another register. -/
theorem get_sluRsvSet (busy : countIn (fun st => st == .admitted || st.busy) m = 0)
    (hot : countIn (fun st => st == .admitted || st.busy || st == .transferred) m = 0) (g : FRef)
    (hg : g.key = R.SLU_RSV_SPEED.key) : (sluRsvSet v m).get g = (reserved v m).get g := by
  rw [sluRsvSet_free busy hot, when]
  split
  · exact markAbandon_get _ (by rw [hg]; simp [quietKey, R.SLU_RSV_SPEED]) (by rw [hg]; decide)
  · rfl

end

/-- Settles O22: each clause is the write's own branch. -/
theorem ledgerWrites : Obligations.LedgerWrites := by
  intro core k r w v s ok hr hw sh writes busy hot
  refine ⟨fun lets => ?_, fun lets => ?_, fun lets noBusy noHot => ?_⟩
  · have run : writes = .next (s.onMach (sluRecordWrite r w v)) := exec_sheetRecordWrite ok hr hw lets
    refine ⟨fun queued => ?_, fun ready time => ?_, fun ready speed => ?_, fun notQueued notReady => ?_⟩
    · obtain ⟨⟨res, same, kept⟩, others⟩ := sluRecordWrite_queued (w := w) (v := v) queued
      exact ⟨_, res, run, same, kept, others⟩
    · exact run.trans (congrArg _ (onMach_congr (sluRecordWrite_ready_time ready time)))
    · subst speed
      have sheets := sluRecordWrite_ready_speed (v := v) ready
      exact ⟨_, run, (sheet_of_sheets sheets r).trans (sheet_setSheet_same ..),
        fun j ne => (sheet_of_sheets sheets j).trans (sheet_setSheet_ne ne ..)⟩
    · exact run.trans (congrArg _ (onMach_congr (sluRecordWrite_other notQueued notReady)))
  · have run := exec_sluCtlWrite (v := v) ok lets
    intro bad
    refine ⟨fun (isBad : _ ∨ _) => ?_, fun (notBad : ¬(_ ∨ _)) => ?_⟩
    · refine run.trans (congrArg _ (onMach_congr ?_))
      rw [sluCtlSet]
      rcases isBad with ⟨en, axis⟩ | ⟨off, on, engaged⟩
      · exact if_pos (by simp [en, axis])
      · rw [if_neg (by simp [off]), if_pos (by simp [off, on, engaged])]
    · refine run.trans (congrArg _ (onMach_congr ?_))
      obtain ⟨high, engaged⟩ := not_or.1 notBad
      rw [sluCtlSet, if_neg (by simpa using high), if_neg (by simpa [and_assoc] using engaged)]
  · refine ⟨_, exec_sluRsvWrite ok lets, ?_, ?_, ?_, ?_, ?_⟩
    · refine (get_sluRsvSet noBusy noHot R.SLU_RSV_SPEED rfl).trans ?_
      rw [reserved, get_rsvField_apart (by decide) (by decide), get_rsvField_apart (by decide) (by decide),
        get_rsvField_self (by decide) (by decide)]
    · refine (get_sluRsvSet noBusy noHot R.SLU_RSV_HVSET rfl).trans ?_
      rw [reserved, get_rsvField_apart (by decide) (by decide), get_rsvField_self (by decide) (by decide)]
    · refine (get_sluRsvSet noBusy noHot R.SLU_RSV_FUSBAND rfl).trans ?_
      rw [reserved, get_rsvField_self (by decide) (by decide)]
    · refine (get_sluRsvSet noBusy noHot R.SLU_RSV_SPDOK rfl).trans ?_
      rw [reserved, get_rsvField_apart (by decide) (by decide), get_rsvField_apart (by decide) (by decide),
        get_rsvField_ok (by decide)]
    · have free := sluRsvSet_free (v := v) noBusy noHot
      show (sluRsvSet v s.mach).sheets = _
      rw [free, sheets_when markAbandon_sheets, reserved, rsvField_sheets, rsvField_sheets, rsvField_sheets]

end Sys2Proof.Machine
end

section
/-! PROOFS. Registers as a write finds them idle: no staged values, the enable that governs them off; signed fields; and
a run of fields written one after the other. -/

namespace Sys2Proof.Machine

/-! ## A command's effect, named -/

/-- A command that acts on the machine, with what it makes of it. -/
theorem acts_to {s : State} {o : Host.Outcome State Fault Refusal} {f : Mach → Mach} {m' : Mach}
    (run : o = .next (s.onMach f)) (eff : f s.mach = m') : o = .next { s with mach := m' } := by
  rw [run, State.onMach, eff]

/-- A register command that is let through. -/
theorem acts_guarded {s : State} {o : Host.Outcome State Fault Refusal} {q : Requester} {staged : Bool} {key : Nat}
    {f : Mach → Mach} (run : o = .next (s.onMach (guarded q staged key f))) (lets : s.lets q staged key) :
    o = .next (s.onMach f) := run.trans (congrArg _ (onMach_congr (guarded_of_lets f lets)))

/-! ## A write while nothing is staged -/

section
variable {key : Nat} {w : Word} {m : Mach} {d : RegDef} {is : List Nat}

theorem unstage_idle (h : m.pend = []) (key : Nat) (mask : Word) : unstage key mask m = m := by
  cases m
  simp_all [unstage, tdel]

theorem settlePend_idle (h : m.pend = []) : settlePend m = m := by simp [settlePend, h, each]

/-- What a write makes of one field while the governing enable is off and nothing is staged. -/
def storeIdle (key : Nat) (w : Word) (m : Mach) (f : Fld) : Mach :=
  if fldReserved key f then m
  else match fldAcc key f m with
    | .rw => m.set ⟨key, f.hi, f.lo⟩ (bitsOf w f.hi f.lo)
    | .w1c => m.setWord key (m.word key &&& ~~~(w &&& withBits 0 f.hi f.lo (2 ^ 32 - 1)))
    | _ => m

theorem storeIdle_eq (key : Nat) (w : Word) (m : Mach) (f : Fld) :
    storeIdle key w m f = m ∨ ∃ v, storeIdle key w m f = m.setWord key v := by
  simp only [storeIdle]
  split
  · exact .inl rfl
  · split
    · exact .inr ⟨_, rfl⟩
    · exact .inr ⟨_, rfl⟩
    · exact .inl rfl

theorem storeIdle_pend (h : m.pend = []) (f : Fld) : (storeIdle key w m f).pend = [] := by
  rcases storeIdle_eq key w m f with e | ⟨v, e⟩ <;> rw [e] <;> exact h

theorem storeFld_idle (h : m.pend = []) (b : Bool) (f : Fld) :
    storeFld key w false (m, b) f = (storeIdle key w m f, b) := by
  have set_pend (fr : FRef) (v : Nat) : (m.set fr v).pend = [] := h
  simp only [storeFld, storeIdle, unstage_idle (set_pend ..), Bool.false_eq_true, if_false]
  split
  · rfl
  · cases fldAcc key f m <;> simp only
    cases fldCls key f <;> rfl

theorem storeFlds_idle (fs : List Fld) : ∀ {m : Mach}, m.pend = [] → ∀ b,
    fs.foldl (storeFld key w false) (m, b) = (fs.foldl (storeIdle key w) m, b) ∧ (fs.foldl (storeIdle key w) m).pend = [] := by
  induction fs with
  | nil => exact fun h _ => ⟨rfl, h⟩
  | cons f fs ih =>
    intro m h b
    rw [List.foldl_cons, List.foldl_cons, storeFld_idle h]
    exact ih (storeIdle_pend h f) b

/-- A write of a register whose enable is off, with nothing staged: field by field, at once. -/
theorem storeFields_idle (row : rowAt key = some (d, is)) (gov : govOn key m = false) (pend : m.pend = []) :
    storeFields key w m = d.flds.foldl (storeIdle key w) m := by
  obtain ⟨fold, still⟩ := storeFlds_idle (key := key) (w := w) d.flds pend false
  simp only [storeFields, row, gov, fold]
  exact settlePend_idle still

/-- An idle write of a field that reads and writes. -/
theorem storeIdle_rw {f : Fld} (res : fldReserved key f = false) (acc : fldAcc key f m = .rw) :
    storeIdle key w m f = m.set ⟨key, f.hi, f.lo⟩ (bitsOf w f.hi f.lo) := by
  rw [storeIdle, res, acc]; rfl

/-- The access code of a field whose register is no one's exception. -/
theorem fldAcc_plain (h : (key / 65536 == 0x01 || key / 65536 == 0x07 || key / 65536 == 0x19) = false) (f : Fld) (m : Mach) :
    fldAcc key f m = f.acc := by
  simp only [Bool.or_eq_false_iff, beq_eq_false_iff_ne] at h
  obtain ⟨⟨hclk, hslu⟩, hmot⟩ := h
  have e1 : (key == 0x010100) = false := beq_eq_false_iff_ne.2 (by omega)
  have e2 : (key == (R.SLU_SDIST 0).key) = false := beq_eq_false_iff_ne.2 (by simp only [R.SLU_SDIST]; omega)
  simp [fldAcc, e1, e2, inGroup, hmot]

/-- An idle write changes one register. -/
theorem storeIdles_eq (fs : List Fld) : ∀ m : Mach,
    fs.foldl (storeIdle key w) m = m ∨ ∃ v, fs.foldl (storeIdle key w) m = m.setWord key v := by
  induction fs with
  | nil => exact fun m => .inl rfl
  | cons f fs ih =>
    intro m
    rw [List.foldl_cons]
    rcases storeIdle_eq key w m f with e | ⟨v, e⟩
    · rw [e]; exact ih m
    · rw [e]
      rcases ih (m.setWord key v) with e | ⟨v', e⟩
      · exact .inr ⟨v, e⟩
      · exact .inr ⟨v', by rw [e, Mach.setWord, Mach.setWord, Mach.setWord, tput_tput_same]⟩

/-- The row of this key has this field, to be read and written, and its fields share no bit. -/
def hasField (f : FRef) : Bool :=
  match rowAt f.key with
  | some (d, _) =>
    d.flds.all (fun g => g.hi < 32 && g.lo ≤ g.hi && g.acc != .w1c) &&
      d.flds.all (fun g => (g.hi == f.hi && g.lo == f.lo && g.acc == .rw && !fldReserved f.key g) || g.hi < f.lo || f.hi < g.lo) &&
      d.flds.any (fun g => g.hi == f.hi && g.lo == f.lo)
  | none => false

theorem get_storeIdle_apart {f : FRef} {g : Fld} (shape : g.hi < 32 ∧ g.lo ≤ g.hi) (hf : f.lo ≤ f.hi)
    (apart : g.hi < f.lo ∨ f.hi < g.lo) (acc : fldAcc f.key g m ≠ .w1c) : (storeIdle f.key w m g).get f = m.get f := by
  rw [storeIdle]
  split
  · rfl
  · split
    · exact m.get_set_apart (f := ⟨f.key, g.hi, g.lo⟩) _ shape.1 shape.2 hf apart.symm
    · contradiction
    · rfl

/-- A field that an idle write reaches reads as written. -/
theorem get_storeFields_idle {f : FRef} (h : hasField f = true) (acc : ∀ g m, fldAcc f.key g m = g.acc)
    (gov : govOn f.key m = false) (pend : m.pend = []) : (storeFields f.key w m).get f = f.of w := by
  rw [hasField] at h
  split at h
  next d is row =>
    simp only [Bool.and_eq_true, List.all_eq_true, List.any_eq_true, Bool.or_eq_true, decide_eq_true_eq, beq_iff_eq,
      Bool.not_eq_true', bne_iff_ne, or_assoc] at h
    obtain ⟨⟨shape, each_⟩, g, mem, hhi, hlo⟩ := h
    have fits : f.hi < 32 ∧ f.lo ≤ f.hi := by have := shape g mem; omega
    rw [storeFields_idle row gov pend]
    have goal : ∀ (fs : List Fld), (∀ g ∈ fs, g ∈ d.flds) → ∀ m : Mach,
        (fs.foldl (storeIdle f.key w) m).get f = f.of w ∨
          (∀ g ∈ fs, ¬(g.hi = f.hi ∧ g.lo = f.lo)) ∧ (fs.foldl (storeIdle f.key w) m).get f = m.get f := by
      intro fs
      induction fs with
      | nil => exact fun _ m => .inr ⟨fun _ h => (List.not_mem_nil h).elim, rfl⟩
      | cons g fs ih =>
        intro sub m
        have member := sub g List.mem_cons_self
        rcases ih (fun x hx => sub x (List.mem_cons_of_mem _ hx)) (storeIdle f.key w m g) with done | ⟨none_, kept⟩
        · exact .inl done
        · rw [List.foldl_cons, kept]
          obtain ⟨shape, noClear⟩ := shape g member
          rcases each_ g member with ⟨⟨⟨ghi, glo⟩, gacc⟩, gres⟩ | gap
          · refine .inl ?_
            rw [storeIdle_rw gres ((acc g m).trans gacc), ghi, glo]
            exact Mach.get_set_fits _ fits.1 fits.2 (f.of_lt w)
          · refine .inr ⟨?_, get_storeIdle_apart shape fits.2 gap (by rw [acc]; exact noClear)⟩
            rintro x hx ⟨e1, e2⟩
            rcases List.mem_cons.1 hx with rfl | hx
            · omega
            · exact none_ x hx ⟨e1, e2⟩
    rcases goal d.flds (fun _ h => h) m with done | ⟨none_, -⟩
    · exact done
    · exact (none_ g mem ⟨hhi, hlo⟩).elim
  next => cases h

/-- An idle write changes no other register and nothing besides. -/
theorem storeFields_idle_eq (gov : govOn key m = false) (pend : m.pend = []) :
    storeFields key w m = m ∨ ∃ v, storeFields key w m = m.setWord key v := by
  cases row : rowAt key with
  | none => exact .inl (by rw [storeFields, row])
  | some x =>
    obtain ⟨d, is⟩ := x
    rw [storeFields_idle row gov pend]
    exact storeIdles_eq d.flds m

end

/-! ## Signed fields -/

/-- A number that fits the width is read back from its two's complement form. -/
theorem sint_uint {bits : Nat} {i : Int} (hb : 0 < bits) (lo : -2 ^ (bits - 1) ≤ i) (hi : i < 2 ^ (bits - 1)) :
    sint bits (uint bits i) = i := by
  obtain ⟨b, rfl⟩ : ∃ b, bits = b + 1 := ⟨bits - 1, by omega⟩
  have half : (2 : Int) ^ (b + 1) = 2 * 2 ^ b := by rw [Int.pow_succ]; omega
  have halfN : 2 ^ (b + 1) = 2 * 2 ^ b := by rw [Nat.pow_succ]; omega
  have cast : ((2 ^ b : Nat) : Int) = 2 ^ b := by simp
  have pos : (0 : Int) < 2 ^ b := by positivity
  have hmod := Int.emod_nonneg i (b := 2 ^ (b + 1)) (by omega)
  have hlt := Int.emod_lt_of_pos i (b := 2 ^ (b + 1)) (by omega)
  simp only [Nat.add_sub_cancel] at lo hi
  simp only [sint, uint, Nat.add_sub_cancel]
  have small : (i % 2 ^ (b + 1)).toNat % 2 ^ (b + 1) = (i % 2 ^ (b + 1)).toNat := Nat.mod_eq_of_lt (by omega)
  rw [small]
  by_cases neg : i < 0
  · have : i % 2 ^ (b + 1) = i + 2 ^ (b + 1) := by
      rw [← Int.add_emod_right, Int.emod_eq_of_lt (by omega) (by omega)]
    rw [this, if_neg (by omega)]
    omega
  · rw [Int.emod_eq_of_lt (by omega) (by omega), if_pos (by omega)]
    omega

/-- A signed value that fits its field is read back. -/
theorem Mach.getI_setI (m : Mach) {f : FRef} {v : Int} (h : f.hi < 32) (hl : f.lo ≤ f.hi)
    (lo : -2 ^ (f.hi - f.lo) ≤ v) (hi : v < 2 ^ (f.hi - f.lo)) : (m.setI f v).getI f = v := by
  have width : f.hi + 1 - f.lo - 1 = f.hi - f.lo := by omega
  rw [Mach.getI, Mach.setI, Mach.get_set_same _ _ _ h hl]
  refine Eq.trans ?_ (sint_uint (bits := f.hi + 1 - f.lo) (by omega) (by rwa [width]) (by rwa [width]))
  rw [sint, sint, Nat.mod_mod]

theorem Mach.getI_of_get {m m' : Mach} {f : FRef} (h : m'.get f = m.get f) : m'.getI f = m.getI f := by
  rw [Mach.getI, Mach.getI, h]

theorem clampI_bounds {lo hi : Int} (h : lo ≤ hi) (i : Int) : lo ≤ clampI lo hi i ∧ clampI lo hi i ≤ hi := by
  rw [clampI]
  split
  · exact ⟨le_refl _, h⟩
  · split
    · exact ⟨h, le_refl _⟩
    · omega

/-! ## A run of writes -/

/-- A run of writes leaves what each of them leaves. -/
theorem each_keeps {α β : Type} {f : α → Mach → Mach} {p : Mach → β} (l : List α) (h : ∀ a ∈ l, ∀ m, p (f a m) = p m) :
    ∀ m, p (each l f m) = p m := by
  induction l with
  | nil => exact fun _ => rfl
  | cons a l ih =>
    exact fun m => (ih (fun b hb => h b (List.mem_cons_of_mem _ hb)) _).trans (h a List.mem_cons_self m)

/-- In a run over a list without repetition, what a member leaves stands when the others leave it alone. -/
theorem each_leaves {α β : Type} {f : α → Mach → Mach} {p : Mach → β} {v : β} {a : α} {l : List α} (nodup : l.Nodup)
    (mem : a ∈ l) (here : ∀ m, p (f a m) = v) (others : ∀ b ∈ l, b ≠ a → ∀ m, p (f b m) = p m) :
    ∀ m, p (each l f m) = v := by
  induction l with
  | nil => cases mem
  | cons b l ih =>
    intro m
    obtain ⟨fresh, nodup⟩ := List.nodup_cons.1 nodup
    by_cases e : b = a
    · subst e
      refine (each_keeps l (fun c hc => others c (List.mem_cons_of_mem _ hc) fun e => fresh (e ▸ hc)) _).trans (here m)
    · exact ih nodup (by simpa [Ne.symm e] using mem) (fun c hc => others c (List.mem_cons_of_mem _ hc)) _

end Sys2Proof.Machine
end

section
/-! PROOFS. Commands of a video island (O41). -/

namespace Sys2Proof.Machine

/-! ## Reads after an island's own changes -/

section
variable {stn : Nat} {m : Mach}

@[simp] theorem vidOf_setVid_same (stn : Nat) (v : Vid) (m : Mach) : (m.setVid stn v).vidOf stn = v := tget_tput_same ..

@[simp] theorem vidOf_onVid_same (stn : Nat) (f : Vid → Vid) (m : Mach) : (m.onVid stn f).vidOf stn = f (m.vidOf stn) :=
  vidOf_setVid_same ..

theorem setVid_get (n : Nat) (v : Vid) (m : Mach) (f : FRef) : (m.setVid n v).get f = m.get f := rfl

theorem send_vidOf (x : Sent) (m : Mach) : (m.send x).vidOf stn = m.vidOf stn := rfl

theorem assertEvent_get (code : Nat) (m : Mach) (f : FRef) : (assertEvent code m).get f = m.get f :=
  get_of_word (assertEvent_word ..)

theorem assertEvent_on (code : Nat) (m : Mach) (f : FRef) : (assertEvent code m).on f = m.on f := by
  rw [Mach.on, assertEvent_get, Mach.on]

theorem assertEvent_vidOf (code : Nat) (m : Mach) : (assertEvent code m).vidOf stn = m.vidOf stn := by
  rw [Mach.vidOf, (calm_assertEvent (K := fun _ => True) code m).vid, Mach.vidOf]

theorem on_setIdok (stn : Nat) (b : Bool) (m : Mach) : (setIdok stn b m).on (R.VID_STAT_IDOK stn) = b := by
  rw [setIdok]
  split
  next same => exact eq_of_beq same
  next =>
    rw [assertEvent_on, R.VID_STAT_IDOK, Mach.on_set_bit _ _ _ _ (by decide)]
    cases b <;> rfl

theorem get_setIdok {g : FRef} (h : (R.VID_STAT_IDOK stn).apart g) (b : Bool) (m : Mach) :
    (setIdok stn b m).get g = m.get g := by
  rw [setIdok]
  split
  · rfl
  · rw [assertEvent_get, Mach.get_set_of_apart _ h]

theorem setIdok_vidOf (b : Bool) (m : Mach) : (setIdok stn b m).vidOf stn = m.vidOf stn := by
  rw [setIdok]
  split
  · rfl
  · exact assertEvent_vidOf ..

@[simp] theorem setIdok_sheets (stn : Nat) (b : Bool) (m : Mach) : (setIdok stn b m).sheets = m.sheets := by
  rw [setIdok]
  split
  · rfl
  · exact assertEvent_sheets ..

end

/-! ## Frames of a drive link -/

section
variable {stn z : Nat} {m : Mach}

/-- The zone that ends here leaves a frame room (200 dots; the last zone always does). -/
def frameRoom (m : Mach) (stn z : Nat) : Bool :=
  match zoneEnd m stn z with
  | none => true
  | some e => dotsLast m stn (e - zoneStart m stn z) 200

theorem opLevelFrame_eq (len : lenOn stn m = true) (zone : z < zonesOf m stn) :
    opLevelFrame stn z m =
      if frameRoom m stn z then
        (m.onVid stn fun v =>
          { v with levels := (List.range 16).map (laneLevel m stn (m.get (R.CLK_TB_FACET stn)) z), zone := z }).send
          (.level stn (linkFrame 0b101 z ((List.range 16).map (laneLevel m stn (m.get (R.CLK_TB_FACET stn)) z))))
      else m.incSat (R.VID_DLSTAT_DLSKIP stn) := by
  have cond : ¬((!lenOn stn m || decide (zonesOf m stn ≤ z)) = true) := by simp [len, zone]
  refine (if_neg cond).trans ?_
  show (if (!frameRoom m stn z) = true then _ else _) = _
  cases frameRoom m stn z <;> rfl

theorem frameRoom_of_all (h : ∀ e, zoneEnd m stn z = some e → dotsLast m stn (e - zoneStart m stn z) 200 = true) :
    frameRoom m stn z = true := by
  rw [frameRoom]
  split
  · rfl
  · exact h _ ‹_›

theorem frameRoom_of_none {e : Nat} (end_ : zoneEnd m stn z = some e)
    (short : dotsLast m stn (e - zoneStart m stn z) 200 = false) : frameRoom m stn z = false := by
  rw [frameRoom, end_]; exact short

end

/-! ## The signature -/

section
variable {stn : Nat} {m : Mach}

/-- Rounding leaves everything but the count of free values. -/
theorem roundFree_eq (n : Int) (d : Nat) (m : Mach) : ∃ fresh, (m.roundFree n d).2 = { m with fresh := fresh } := by
  rw [Mach.roundFree]
  split
  · exact ⟨_, rfl⟩
  · exact ⟨_, rfl⟩

theorem sigPpms_eq (avgs : List Nat) (m : Mach) : ∃ fresh, (sigPpms avgs m).2 = { m with fresh := fresh } := by
  suffices all : ∀ (n : Nat) (sum : Nat) (l : List Nat) (p : List Int × Mach), (∃ fresh, p.2 = { m with fresh := fresh }) →
      ∃ fresh, (l.foldl (fun (p : List Int × Mach) (a : Nat) =>
        let q := p.2.roundFree (((a : Int) * n - sum) * 1000000) sum
        (p.1 ++ [q.1], q.2)) p).2 = { m with fresh := fresh } from all _ _ avgs _ ⟨m.fresh, rfl⟩
  intro n sum l
  induction l with
  | nil => exact fun _ h => h
  | cons a l ih =>
    rintro p ⟨fresh, hp⟩
    refine ih _ ?_
    obtain ⟨f', h'⟩ := roundFree_eq (((a : Int) * n - sum) * 1000000) sum p.2
    exact ⟨f', h'.trans (by rw [hp])⟩

/-- The averages of a signature in the registers that show them. -/
def sigShown (stn f : Nat) (ppms : List Int) (m : Mach) : Mach :=
  each (List.range f) (fun i m => m.setI (R.VID_MEAS_PPM stn i) (clampI (-32768) 32767 (ppms.getD i 0))) m

theorem sigShown_getI {i f : Nat} (hi : i < f) (ppms : List Int) (m : Mach) :
    (sigShown stn f ppms m).getI (R.VID_MEAS_PPM stn i) = clampI (-32768) 32767 (ppms.getD i 0) := by
  refine each_leaves (p := fun m => m.getI (R.VID_MEAS_PPM stn i)) List.nodup_range (List.mem_range.2 hi) (fun m => ?_)
    (fun j _ ne m => ?_) m
  · obtain ⟨lo, hi⟩ := clampI_bounds (lo := -32768) (hi := 32767) (by decide) (ppms.getD i 0)
    have width : (2 : Int) ^ ((R.VID_MEAS_PPM stn i).hi - (R.VID_MEAS_PPM stn i).lo) = 32768 := rfl
    exact m.getI_setI (f := R.VID_MEAS_PPM stn i) (by decide : 15 < 32) (by decide : 0 ≤ 15) (by omega) (by omega)
  · exact Mach.getI_of_get (m.get_set_ne (by simp only [R.VID_MEAS_PPM]; omega) _)

theorem sigShown_word {key f : Nat} (hk : ∀ i, i < f → key ≠ (R.VID_MEAS_PPM stn i).key) (ppms : List Int) (m : Mach) :
    (sigShown stn f ppms m).word key = m.word key :=
  each_keeps (p := fun m => m.word key) _ (fun i hi m => Mach.word_set_ne m (hk i (List.mem_range.1 hi)) _) m

/-- The machine once the averages show and the measurement is cleared. -/
def sigTaken (stn : Nat) (m : Mach) : Mach :=
  (sigShown stn (facetsOf m stn) (sigPpms (m.vidOf stn).sigSums m).1 (sigPpms (m.vidOf stn).sigSums m).2).setVid stn
    { m.vidOf stn with sigSums := [], sigCount := 0 }

theorem facetsOf_le (m : Mach) (stn : Nat) : 1 ≤ facetsOf m stn ∧ facetsOf m stn ≤ 15 := by
  have : m.get (R.VID_CTL_FACETS stn) < 2 ^ 4 := m.get_lt _
  simp only [facetsOf]; omega

theorem sigTaken_word {key : Nat} (hk : ∀ i, i < 15 → key ≠ (R.VID_MEAS_PPM stn i).key) (m : Mach) :
    (sigTaken stn m).word key = m.word key := by
  obtain ⟨fresh, h⟩ := sigPpms_eq (m.vidOf stn).sigSums m
  have few := (facetsOf_le m stn).2
  refine (sigShown_word (fun i hi => hk i (by omega)) _ _).trans ?_
  rw [h]; rfl

theorem sigTaken_getI {i : Nat} (hi : i < facetsOf m stn) :
    (sigTaken stn m).getI (R.VID_MEAS_PPM stn i) =
      clampI (-32768) 32767 ((sigPpms (m.vidOf stn).sigSums m).1.getD i 0) := sigShown_getI hi ..

theorem sigTaken_facet (m : Mach) :
    (sigTaken stn m).get (R.CLK_TB_FACET stn) = m.get (R.CLK_TB_FACET stn) :=
  get_of_word (sigTaken_word (fun i hi => by simp only [R.CLK_TB_FACET, R.VID_MEAS_PPM]; omega) m)

theorem sigTaken_sigSum (ppms : List Int) (hl : ppms.length ≤ 15) (m : Mach) :
    sigSum (sigTaken stn m) stn ppms = sigSum m stn ppms := by
  funext r
  refine List.foldl_ext _ _ _ fun a i hi => ?_
  have : (i + r) % ppms.length < ppms.length := Nat.mod_lt _ (by have := List.mem_range.1 hi; omega)
  have same : (sigTaken stn m).getI (R.VID_SIG_PPM stn ((i + r) % ppms.length)) = m.getI (R.VID_SIG_PPM stn ((i + r) % ppms.length)) :=
    Mach.getI_of_get (get_of_word (sigTaken_word (fun j hj => by simp only [R.VID_SIG_PPM, R.VID_MEAS_PPM]; omega) m))
  simp only [same]

theorem sigPpms_length (avgs : List Nat) (m : Mach) : (sigPpms avgs m).1.length = avgs.length := by
  suffices all : ∀ (n sum : Nat) (l : List Nat) (p : List Int × Mach),
      (l.foldl (fun (p : List Int × Mach) (a : Nat) =>
        let q := p.2.roundFree (((a : Int) * n - sum) * 1000000) sum
        (p.1 ++ [q.1], q.2)) p).1.length = p.1.length + l.length from (all _ _ avgs _).trans (Nat.zero_add _)
  intro n sum l
  induction l with
  | nil => exact fun _ => rfl
  | cons a l ih =>
    intro p
    rw [List.foldl_cons, ih, List.length_append, List.length_cons, List.length_cons]
    simp only [List.length_nil]; omega

/-- One rotation of SIG fits the averages clearly best. -/
def clearlyBest (margin : Nat) (best : Nat × Nat × Option Nat) : Bool :=
  match best.2.2 with
  | some n => decide (best.2.1 + margin ≤ n)
  | none => true

/-- A signature measured to its end (R186): the averages show; and, where they may, they settle the identity. -/
theorem opSignatureDone_eq (en : m.on (R.VID_CTL_EN stn) = true) (lock : m.on (R.VID_PLOCK_LOCK stn) = true)
    (sums : (m.vidOf stn).sigSums.length = facetsOf m stn) (count : sigLength stn m ≤ (m.vidOf stn).sigCount) :
    opSignatureDone stn (m.get (R.VID_IDCFG_SIGREV stn)) m =
      if m.on (R.VID_CTL_FZEN stn) || (m.vidOf stn).sigDone then sigTaken stn m
      else
        let best := leastTwo ((List.range (facetsOf m stn)).map (sigSum m stn (sigPpms (m.vidOf stn).sigSums m).1))
        if clearlyBest (m.get (R.VID_IDCFG_SIGMARGIN stn)) best then
          setIdok stn true (((sigTaken stn m).set (R.CLK_TB_FACET stn)
            ((m.get (R.CLK_TB_FACET stn) + best.1) % facetsOf m stn)).setVid stn
              { m.vidOf stn with sigSums := [], sigCount := 0, sigDone := true, sigTries := 0 })
        else when ((m.vidOf stn).sigTries == 3) (facetFault stn) ((sigTaken stn m).setVid stn
          { m.vidOf stn with sigSums := [], sigCount := 0, sigTries := ((m.vidOf stn).sigTries + 1) % 4 }) := by
  have fzen : (sigTaken stn m).on (R.VID_CTL_FZEN stn) = m.on (R.VID_CTL_FZEN stn) := by
    rw [Mach.on, Mach.on, get_of_word (sigTaken_word (fun i hi => by simp only [R.VID_CTL_FZEN, R.VID_MEAS_PPM]; omega) m)]
  have margin : (sigTaken stn m).get (R.VID_IDCFG_SIGMARGIN stn) = m.get (R.VID_IDCFG_SIGMARGIN stn) :=
    get_of_word (sigTaken_word (fun i hi => by simp only [R.VID_IDCFG_SIGMARGIN, R.VID_MEAS_PPM]; omega) m)
  have short : (sigPpms (m.vidOf stn).sigSums m).1.length ≤ 15 := by
    rw [sigPpms_length, sums]; exact (facetsOf_le m stn).2
  have open_ : ¬((!m.on (R.VID_CTL_EN stn) || m.get (R.VID_IDCFG_SIGREV stn) != m.get (R.VID_IDCFG_SIGREV stn) ||
      (m.vidOf stn).sigSums.length != facetsOf m stn || decide ((m.vidOf stn).sigCount < sigLength stn m) ||
      !m.on (R.VID_PLOCK_LOCK stn)) = true) := by simp [en, lock, sums, count]
  refine (if_neg open_).trans ?_
  show (if ((sigTaken stn m).on (R.VID_CTL_FZEN stn) || (m.vidOf stn).sigDone) = true then _ else _) = _
  rw [fzen]
  refine if_congr Iff.rfl rfl ?_
  show (let best := leastTwo ((List.range (facetsOf m stn)).map
      (sigSum (sigTaken stn m) stn (sigPpms (m.vidOf stn).sigSums m).1))
    if clearlyBest ((sigTaken stn m).get (R.VID_IDCFG_SIGMARGIN stn)) best then
      setIdok stn true (((sigTaken stn m).set (R.CLK_TB_FACET stn)
        (((sigTaken stn m).get (R.CLK_TB_FACET stn) + best.1) % facetsOf m stn)).setVid stn _) else _) = _
  rw [sigTaken_sigSum _ short, margin, sigTaken_facet]
  rfl

/-- The identity that a rotation of SIG settles. -/
def sigSettled (stn : Nat) (best : Nat × Nat × Option Nat) (m : Mach) : Mach :=
  setIdok stn true (((sigTaken stn m).set (R.CLK_TB_FACET stn)
    ((m.get (R.CLK_TB_FACET stn) + best.1) % facetsOf m stn)).setVid stn
      { m.vidOf stn with sigSums := [], sigCount := 0, sigDone := true, sigTries := 0 })

theorem sigSettled_facet (best : Nat × Nat × Option Nat) (m : Mach) :
    (sigSettled stn best m).get (R.CLK_TB_FACET stn) = (m.get (R.CLK_TB_FACET stn) + best.1) % facetsOf m stn := by
  have few := facetsOf_le m stn
  have small : (m.get (R.CLK_TB_FACET stn) + best.1) % facetsOf m stn < 2 ^ 4 := by
    have := Nat.mod_lt (m.get (R.CLK_TB_FACET stn) + best.1) (show 0 < facetsOf m stn from few.1)
    omega
  rw [sigSettled, get_setIdok (.inl (by simp only [R.CLK_TB_FACET, R.VID_STAT_IDOK]; omega)), setVid_get]
  exact Mach.get_set_fits (f := R.CLK_TB_FACET stn) _ (by decide : 3 < 32) (by decide : 0 ≤ 3) small

/-- Averages that fit one rotation of SIG clearly best settle the identity. -/
theorem signature_settles (en : m.on (R.VID_CTL_EN stn) = true) (lock : m.on (R.VID_PLOCK_LOCK stn) = true)
    (sums : (m.vidOf stn).sigSums.length = facetsOf m stn) (count : sigLength stn m ≤ (m.vidOf stn).sigCount)
    (noFz : m.on (R.VID_CTL_FZEN stn) = false) (fresh : (m.vidOf stn).sigDone = false) {best : Nat × Nat × Option Nat}
    (hbest : leastTwo ((List.range (facetsOf m stn)).map (sigSum m stn (sigPpms (m.vidOf stn).sigSums m).1)) = best)
    (clear : ∀ n, best.2.2 = some n → best.2.1 + m.get (R.VID_IDCFG_SIGMARGIN stn) ≤ n) :
    opSignatureDone stn (m.get (R.VID_IDCFG_SIGREV stn)) m = sigSettled stn best m := by
  have open_ : ¬((m.on (R.VID_CTL_FZEN stn) || (m.vidOf stn).sigDone) = true) := by rw [noFz, fresh]; decide
  have best_ : clearlyBest (m.get (R.VID_IDCFG_SIGMARGIN stn)) best = true := by
    rw [clearlyBest]
    split
    · exact decide_eq_true (clear _ ‹_›)
    · rfl
  rw [opSignatureDone_eq en lock sums count, if_neg open_, hbest]
  exact if_pos best_

/-- With facet-zero edges the averages only show. -/
theorem signature_shows (en : m.on (R.VID_CTL_EN stn) = true) (lock : m.on (R.VID_PLOCK_LOCK stn) = true)
    (sums : (m.vidOf stn).sigSums.length = facetsOf m stn) (count : sigLength stn m ≤ (m.vidOf stn).sigCount)
    (fz : m.on (R.VID_CTL_FZEN stn) = true) :
    opSignatureDone stn (m.get (R.VID_IDCFG_SIGREV stn)) m = sigTaken stn m :=
  (opSignatureDone_eq en lock sums count).trans (if_pos (by rw [fz]; rfl))

end

/-! ## VIDs_CTL -/

section
variable {stn : Nat} {w : Word} {m : Mach}

theorem hasField_vidCtl (hs : stn < 5) :
    hasField (R.VID_CTL_EN stn) = true ∧ hasField (R.VID_CTL_FACETS stn) = true := by
  interval_cases stn <;> exact ⟨rfl, rfl⟩

/-- The island's registers are no exceptions to their rows' access codes. -/
theorem fldAcc_vid (hs : stn < 5) (g : Fld) (m : Mach) : fldAcc (R.VID_CTL_EN stn).key g m = g.acc :=
  fldAcc_plain (by interval_cases stn <;> rfl) g m

theorem govOn_vid (hs : stn < 5) (m : Mach) : govOn (R.VID_CTL_EN stn).key m = m.on (R.VID_CTL_EN stn) := by
  interval_cases stn <;> rfl

/-- What the enable of an island begins anew. -/
def islandOn (stn : Nat) (m : Mach) : Mach :=
  setIdok stn false (m.onVid stn fun v =>
    { v with fzHave := false, fzPend := false, fzMiss := 0, rezero := false, stamps := [], pulses := [] })

/-- The enabling write asks for a number of facets or zones that the part has not. -/
def vidAsksTooMuch (stn : Nat) (w : Word) : Prop :=
  (R.VID_CTL_FACETS stn).of w < 4 ∨ 12 < (R.VID_CTL_FACETS stn).of w ∨
    (if (R.VID_CTL_BANKS stn).of w = 1 then 128 else 256) < (R.VID_CTL_FACETS stn).of w * ((R.VID_CTL_NZM1 stn).of w + 1)

theorem vidCtlWrite_refused (off : m.on (R.VID_CTL_EN stn) = false) (en : (R.VID_CTL_EN stn).of w = 1)
    (bad : vidAsksTooMuch stn w) : vidCtlWrite stn w m = ignored (R.VID_CTL_EN stn).key m := by
  unfold vidAsksTooMuch at bad
  simp only [vidCtlWrite, off, en]
  exact if_pos (by simpa [or_assoc] using bad)

theorem vidCtlWrite_enables (off : m.on (R.VID_CTL_EN stn) = false) (en : (R.VID_CTL_EN stn).of w = 1)
    (sound : ¬vidAsksTooMuch stn w) : vidCtlWrite stn w m = islandOn stn (storeFields (R.VID_CTL_EN stn).key w m) := by
  unfold vidAsksTooMuch at sound
  simp only [vidCtlWrite, off, en]
  exact (if_neg (by simpa [or_assoc] using sound)).trans rfl

end

/-! ## The commands -/

/-- Settles O41: each clause is the command's own branch. -/
theorem islandCommands : Obligations.IslandCommands := by
  intro q stn z w revs s okq hs hz m v f levels
  have five : stn < 5 := Nat.lt_of_lt_of_le hs (nStn_le _)
  have has : s.mach.hasStn stn = true := decide_eq_true hs
  refine ⟨fun len zone => ⟨fun room => ?_, fun e end_ short => ?_⟩, fun noLen due => ?_, fun en fz => ?_,
    fun en lock revsOk sums count => ?_, fun lets off on => ?_, fun lets => ?_⟩
  · have run : exec (.levelFrame stn z) s = .next (s.onMach (opLevelFrame stn z)) := onUnit_of (by simp [has, hz]) _ s
    refine ⟨_, acts_to run ((opLevelFrame_eq len zone).trans (if_pos (frameRoom_of_all room))), rfl, ?_, rfl, rfl⟩
    show Vid.levels (Mach.vidOf (Mach.send (Mach.onVid m stn _) _) stn) = _
    rw [send_vidOf, vidOf_onVid_same]
  · have run : exec (.levelFrame stn z) s = .next (s.onMach (opLevelFrame stn z)) := onUnit_of (by simp [has, hz]) _ s
    refine ⟨_, acts_to run ((opLevelFrame_eq len zone).trans (if_neg (by rw [frameRoom_of_none end_ short]; decide))), rfl,
      ?_, rfl⟩
    refine (Mach.get_set_fits (f := R.VID_DLSTAT_DLSKIP stn) _ (by decide : 7 < 32) (by decide : 0 ≤ 7) ?_).trans
      (Nat.min_comm ..)
    show min _ 255 < 256
    omega
  · have run : exec (.safeFrame stn) s = .next (s.onMach (opSafeFrame stn)) := onUnit_of has _ s
    have due_ : (m.vidOf stn).safeAt.toNat + usTicks 10 ≤ m.now := due
    have late : ¬((lenOn stn m || decide (m.now < (m.vidOf stn).safeAt.toNat + usTicks 10)) = true) := by
      simp only [noLen, Bool.false_or, decide_eq_true_eq]; omega
    exact ⟨_, acts_to run (if_neg late), rfl, congrArg Vid.levels (vidOf_setVid_same stn _ m),
      congrArg Vid.safeAt (vidOf_setVid_same stn _ m), rfl⟩
  · have run : exec (.fzEdge stn) s = .next (s.onMach (opFzEdge stn)) := onUnit_of has _ s
    have both : (m.on (R.VID_CTL_EN stn) && m.on (R.VID_CTL_FZEN stn)) = true := by rw [en, fz]; rfl
    exact ⟨_, acts_to run (if_pos both), congrArg Vid.fzPend (vidOf_onVid_same stn _ m), rfl, rfl⟩
  · have run : exec (.signatureDone stn revs) s = .next (s.onMach (opSignatureDone stn revs)) := onUnit_of has _ s
    subst revsOk
    refine ⟨_, run, fun noFz fresh clear => ?_, fun fz => ?_⟩ <;> rw [State.onMach]
    · rw [signature_settles en lock sums count noFz fresh rfl clear]
      exact ⟨on_setIdok .., sigSettled_facet ..⟩
    · rw [signature_shows en lock sums count fz]
      exact ⟨sigTaken_facet _, fun i hi => sigTaken_getI hi⟩
  · have run : exec (.vidCtlWrite q stn w) s = .next (s.onMach (vidCtlWrite stn w)) :=
      acts_guarded (onUnit_of (by simp [okq, five]) (opVidCtlWrite q stn w) s) lets
    intro n room
    refine ⟨fun least most fits noPend => ?_, fun bad => ?_⟩
    · have sound : ¬vidAsksTooMuch stn w := by
        rintro (few | many | wide)
        · exact absurd few (Nat.not_lt.2 least)
        · exact absurd many (Nat.not_lt.2 most)
        · exact absurd wide (Nat.not_lt.2 fits)
      have gov : govOn (R.VID_CTL_EN stn).key m = false := (govOn_vid five m).trans off
      obtain ⟨hasEn, hasFacets⟩ := hasField_vidCtl five
      have stored {g : FRef} (key : g.key = (R.VID_CTL_EN stn).key) (has : hasField g = true) :
          (islandOn stn (storeFields (R.VID_CTL_EN stn).key w m)).get g = g.of w := by
        rw [islandOn, get_setIdok (.inl (by rw [key]; simp only [R.VID_STAT_IDOK, R.VID_CTL_EN]; omega)), ← key]
        exact get_storeFields_idle has (key ▸ fldAcc_vid five) (key ▸ gov) noPend
      refine ⟨_, acts_to run (vidCtlWrite_enables off on sound), ?_, stored rfl hasFacets, on_setIdok .., ?_, ?_, ?_⟩
      · rw [Mach.on, stored rfl hasEn, on]; rfl
      · rw [islandOn, setIdok_vidOf, vidOf_onVid_same]
      · rw [islandOn, setIdok_vidOf, vidOf_onVid_same]
      · rw [islandOn, setIdok_sheets, Mach.onVid_sheets]
        rcases storeFields_idle_eq (w := w) gov noPend with e | ⟨v, e⟩
        · rw [e]
        · rw [e]; rfl
    · exact run.trans (congrArg _ (onMach_congr (vidCtlWrite_refused off on bad)))
  · have run : exec (.bmapSelWrite q w) s = .next (s.onMach (bmapSelWrite q w)) :=
      acts_guarded (onUnit_of okq (opBmapSelWrite q w) s) lets
    have own : (bmapSelWrite q w m).own (Requester.id q) R.BMAP_SEL_STN.key = BitVec.ofNat 32 (bitsOf w 2 0) :=
      tget_tput_same ..
    have low : bitsOf w 2 0 = w.toNat % 8 := by simp [bitsOf]
    refine ⟨_, acts_to run rfl, own.trans ?_, ?_, rfl, rfl⟩
    · rw [low]
      refine BitVec.eq_of_toNat_eq ?_
      rw [BitVec.toNat_and, show (7#32).toNat = 2 ^ 3 - 1 from rfl, Nat.and_two_pow_sub_one_eq_mod, BitVec.toNat_ofNat]
      omega
    · rw [bmapStation, own, low]
      have read : bitsOf (BitVec.ofNat 32 (w.toNat % 8)) 2 0 = w.toNat % 8 := by
        simp only [bitsOf, BitVec.toNat_ofNat]; omega
      simp only [read]
      rfl

end Sys2Proof.Machine
end

section
/-! PROOFS. The operations of the sheet ledger: creation, reservation and their undoing (O19), admission and its
undoing (O20). -/

namespace Sys2Proof.Machine

/-! ## Results -/

section
variable {core k code r op : Nat} {s : State} {m : Mach}

/-- A result reads back from the requester's own SLU_OPRES. -/
theorem opres_sluResult (hc : code < 256) (hr : r < 256) (ho : op < 16) :
    State.opres { s with mach := sluResult core k code r op m } core k = (code, r, op) := by
  have own : (sluResult core k code r op m).own (cix core k) R.SLU_OPRES_CODE.key = _ := tget_tput_same ..
  simp only [State.opres, own]
  simp only [R.SLU_OPRES_CODE, R.SLU_OPRES_REC, R.SLU_OPRES_OP, FRef.of, bitsOf, BitVec.toNat_ofNat, Prod.mk.injEq]
  refine ⟨?_, ?_, ?_⟩ <;> omega

@[simp] theorem sluResult_sheets : (sluResult core k code r op m).sheets = m.sheets := rfl

theorem sluResult_get (f : FRef) : (sluResult core k code r op m).get f = m.get f := rfl

/-- A committed operation that the ledger lets through. -/
theorem acts_committed {f : Mach → Mach} {key : Nat} {o : Host.Outcome State Fault Refusal}
    (run : o = .next (s.onMach (byCommit core k key f))) (lets : s.lets (.ctx core k) true key) : o = .next (s.onMach f) :=
  acts_guarded run lets

/-- What an operation leaves that fails with a code. -/
theorem sluOp_refused {f : Mach → Mach} {i : Instr} (run : exec i s = .next (s.onMach f))
    (eff : f s.mach = sluResult core k code r op s.mach) (hc : code < 256) (hr : r < 256) (ho : op < 16) :
    ∃ t, exec i s = .next t ∧ t.opres core k = (code, r, op) ∧ t.mach.sheets = s.mach.sheets ∧ t.mem = s.mem :=
  ⟨_, acts_to run eff, opres_sluResult hc hr ho, rfl, rfl⟩

/-- What an operation leaves that acts, when it moves the record it names and leaves the others. -/
theorem sluOp_acts {f : Mach → Mach} {i : Instr} {new : Sheet} (run : exec i s = .next (s.onMach f))
    (eff : f s.mach = sluResult core k 0 r op m) (hr : r < 256) (ho : op < 16) (same : m.sheet r = new)
    (others : ∀ j, j ≠ r → m.sheet j = s.mach.sheet j) :
    ∃ t, exec i s = .next t ∧ t.opres core k = (0, r, op) ∧ t.mach.sheet r = new ∧ s.otherSheets t r ∧ t.mem = s.mem :=
  ⟨_, acts_to run eff, opres_sluResult (by decide) hr ho, same, others, rfl⟩

theorem ite_lt {c : Prop} [Decidable c] {a b n : Nat} (ha : a < n) (hb : b < n) : (if c then a else b) < n := by
  split
  · exact ha
  · exact hb

theorem reserveCode_lt (m : Mach) (sh : Sheet) : reserveCode m sh < 256 := by
  iterate 4 refine ite_lt (by decide) ?_
  decide

theorem admitCode_lt (m : Mach) (sh : Sheet) : admitCode m sh < 256 := by
  iterate 13 refine ite_lt (by decide) ?_
  decide

theorem queued_of_reserveCode {sh : Sheet} (h : reserveCode m sh = 0) : sh.state = .queued := by
  by_contra ne
  rw [reserveCode, if_pos (by simpa using ne)] at h
  cases h

theorem ready_of_admitCode {sh : Sheet} (h : admitCode m sh = 0) : sh.state = .ready := by
  by_contra ne
  rw [admitCode, if_pos (by simpa using ne)] at h
  cases h

end

/-! ## Creation and reservation -/

section
variable {core k r : Nat} {sid : Sid} {m : Mach}

theorem sluReserve_fails (h : reserveCode m (m.sheet r) ≠ 0) :
    ∃ m', sluReserve core k r m = sluResult core k (reserveCode m (m.sheet r)) r 1 m' ∧ m'.sheets = m.sheets := by
  refine ⟨_, rfl, ?_⟩
  rw [if_neg h]
  exact sheets_when (fun m => Mach.set_sheets m _ _) m

theorem sluReserve_acts (h : reserveCode m (m.sheet r) = 0) :
    sluReserve core k r m = sluResult core k 0 r 1 (sheetTo r .ready m) := by
  simp only [sluReserve, h]
  rfl

/-- The machine once record r is taken for a new sheet. -/
def created (r : Nat) (sid : Sid) (m : Mach) : Mach := sheetTo r .queued (m.setSheet r { ({} : Sheet) with sid := sid })

theorem sluCreate_acts (later : sidLater sid (BitVec.ofNat 24 (m.get R.SLU_LASTSID_SID)) = true)
    (free : freeRec m = some r) : sluCreate core k sid m =
      sluResult core k 0 r 0 ((recount r (created r sid m)).set R.SLU_LASTSID_SID sid.toNat) := by
  simp only [sluCreate, later, free]
  rfl

theorem created_same (r : Nat) (sid : Sid) (m : Mach) :
    (created r sid m).sheet r = { ({} : Sheet) with sid := sid, state := .queued, trtick := m.clk.tick } := by
  rw [created, sheetTo_same, sheet_setSheet_same]
  rfl

theorem created_ne {j : Nat} (h : j ≠ r) (sid : Sid) (m : Mach) : (created r sid m).sheet j = m.sheet j :=
  (sheetTo_ne h ..).trans (sheet_setSheet_ne h ..)

end

/-- Settles O19: each operation is its own branch, and a transition moves its record alone. -/
theorem ledgerQueueOps : Obligations.LedgerQueueOps := by
  intro core k r op sid s ok hr sh now
  have moves {st : SheetState} (ne : sh.state ≠ .admitted) :
      (sheetTo r st s.mach).sheet r = { sh with state := st, trtick := now } := (sheetTo_same ..).trans (moved_of_ne ne)
  have inRange : (okCtx core k && decide (r < 256)) = true := by simp [ok, hr]
  refine ⟨fun lets later free => ?_, fun lets => ⟨fun code => ?_, fun code => ?_, fun ready => ?_, fun term => ?_, fun und => ?_⟩⟩
  · have run : exec (.sluCreate core k sid) s = .next (s.onMach (sluCreate core k sid)) :=
      acts_committed (onUnit_of ok (opSluCreate core k sid) s) lets
    obtain ⟨res, same⟩ := recount_same r (created r sid s.mach)
    rw [created_same] at same
    refine ⟨_, acts_to run (sluCreate_acts later free), opres_sluResult (by decide) hr (by decide), ?_, ?_, ?_, ?_, fun j ne => ?_⟩
    · exact (congrArg Sheet.state same :)
    · exact (congrArg Sheet.sid same :)
    · exact (congrArg Sheet.trtick same :)
    · refine (sluResult_get _).trans (Mach.get_set_fits (f := R.SLU_LASTSID_SID) _ (by decide) (by decide) ?_)
      exact Nat.lt_of_lt_of_eq sid.isLt (by decide)
    · exact (recount_ne ne _).trans (created_ne ne ..)
  · have run : exec (.reserve core k r) s = .next (s.onMach (sluReserve core k r)) :=
      acts_committed (onUnit_of inRange (opReserve core k r) s) lets
    have queued := queued_of_reserveCode code
    obtain ⟨t, next, res, same, others, -⟩ := sluOp_acts run (sluReserve_acts code) hr (by decide)
      (moves (by rw [show sh.state = .queued from queued]; decide)) fun j ne => sheetTo_ne ne ..
    exact ⟨t, next, res, same, others⟩
  · have run : exec (.reserve core k r) s = .next (s.onMach (sluReserve core k r)) :=
      acts_committed (onUnit_of inRange (opReserve core k r) s) lets
    obtain ⟨m', eff, sheets⟩ := sluReserve_fails (core := core) (k := k) code
    exact ⟨_, acts_to run eff, opres_sluResult (reserveCode_lt ..) hr (by decide), sheets⟩
  · have run : exec (.unreserve core k r) s = .next (s.onMach (sluUnreserve core k r)) :=
      acts_committed (onUnit_of inRange (opUnreserve core k r) s) lets
    have eff : sluUnreserve core k r s.mach = sluResult core k 0 r 5 (sheetTo r .queued s.mach) := by
      simp only [sluUnreserve, show (s.mach.sheet r).state = .ready from ready]; rfl
    obtain ⟨t, next, res, same, others, -⟩ := sluOp_acts run eff hr (by decide) (moves (by rw [ready]; decide))
      fun j ne => sheetTo_ne ne ..
    exact ⟨t, next, res, same, others⟩
  · have run : exec (.free core k r) s = .next (s.onMach (sluFree core k r)) :=
      acts_committed (onUnit_of inRange (opFree core k r) s) lets
    have eff : sluFree core k r s.mach = sluResult core k 0 r 6 (sheetTo r .free s.mach) := by
      simp only [sluFree, show (s.mach.sheet r).state.terminal = true from term]; rfl
    obtain ⟨t, next, res, same, others, -⟩ := sluOp_acts run eff hr (by decide)
      (moves fun e => by rw [e] at term; cases term) fun j ne => sheetTo_ne ne ..
    exact ⟨t, next, res, same, others⟩
  · have small : op < 16 := by omega
    have named : (okCtx core k && (op == 0 || (7 ≤ op && op < 16)) && decide (r < 256)) = true := by simp [ok, hr]; omega
    have run : exec (.sluOpUndefined core k op r) s = .next (s.onMach (sluResult core k 0x01 r op)) :=
      acts_committed (onUnit_of named (opSluOpUndefined core k op r) s) lets
    obtain ⟨t, next, res, sheets, -⟩ := sluOp_refused run rfl (by decide) hr small
    exact ⟨t, next, res, sheets⟩

/-! ## Admission -/

section
variable {core k r : Nat} {m : Mach}

@[simp] theorem markCheck_sheets (m : Mach) : (markCheck m).sheets = m.sheets := by
  rw [markCheck]
  split
  · exact markAbandon_sheets m
  · rfl

theorem markCheck_get {f : FRef} (hq : quietKey f.key) (hk : f.key ≠ R.ADC_MKSTAT_ARMED.key) (m : Mach) :
    (markCheck m).get f = m.get f := by
  rw [markCheck]
  split
  · exact markAbandon_get m hq hk
  · rfl

/-- With no edge held, judging them changes nothing. -/
theorem settleEdges_none (h : m.heldEdges = []) : settleEdges m = m := by rw [settleEdges, h]; rfl

theorem sheetTo_heldEdges (r : Nat) (st : SheetState) (m : Mach) : (sheetTo r st m).heldEdges = m.heldEdges :=
  (spares_sheetTo r st m).heldEdges

/-- What follows a record's way back, with no edge held, leaves every record. -/
theorem back_sheets (h : m.heldEdges = []) (r : Nat) (st : SheetState) :
    (snapTry (settleEdges (sheetTo r st m))).sheets = (sheetTo r st m).sheets := by
  rw [snapTry_sheets, settleEdges_none ((sheetTo_heldEdges ..).trans h)]

/-- The record as ADMIT finds it: what an earlier ADMIT fixed is forgotten, the rule and the watches are fixed. -/
def Sheet.fixed (sh : Sheet) (m : Mach) : Sheet :=
  { sh.unadmitted with earlyRule := sh.early && m.on R.SLU_CTL_EARLYEN, watches := watchesOn m, judged := 0 }

/-- The machine with the record ADMITTED, before a gate time that goes out at once. -/
def admitted (r : Nat) (m : Mach) : Mach := markCheck (sheetTo r .admitted (m.setSheet r ((m.sheet r).fixed m)))

theorem admitted_armlead (r : Nat) (m : Mach) : (admitted r m).get R.SLU_ARMLEAD = m.get R.SLU_ARMLEAD := by
  rw [admitted, markCheck_get (by simp [quietKey, R.SLU_ARMLEAD]) (by decide),
    (ripples_sheetTo (trip := False) ..).get (by simp [rippleKey, R.SLU_ARMLEAD]) (fun h => h.elim)]
  rfl

theorem sluAdmit_acts (h : admitCode m (m.sheet r) = 0) : sluAdmit core k r m = sluResult core k 0 r 2
    (when (sint 32 (m.sheet r).gateoff.toNat < -(m.get R.SLU_ARMLEAD : Int)) (sendGate r) (admitted r m)) := by
  have open_ : ¬((admitCode m (m.sheet r) != 0) = true) := by simp [h]
  refine (if_neg open_).trans ?_
  rw [← admitted_armlead r m]
  rfl

theorem sluAdmit_fails (h : admitCode m (m.sheet r) ≠ 0) :
    sluAdmit core k r m = sluResult core k (admitCode m (m.sheet r)) r 2 m := if_pos (by simpa using h)

theorem admitted_same (ready : (m.sheet r).state = .ready) :
    (admitted r m).sheet r = { (m.sheet r).fixed m with state := .admitted, trtick := m.clk.tick } := by
  rw [admitted, sheet_of_sheets (markCheck_sheets _), sheetTo_same, sheet_setSheet_same, moved_of_ne]
  · rfl
  · rw [show ((m.sheet r).fixed m).state = (m.sheet r).state from rfl, ready]; decide

theorem admitted_ne {j : Nat} (h : j ≠ r) (m : Mach) : (admitted r m).sheet j = m.sheet j := by
  rw [admitted, sheet_of_sheets (markCheck_sheets _), sheetTo_ne h, sheet_setSheet_ne h]

theorem sluUnadmit_acts (adm : (m.sheet r).state = .admitted) (open_ : pastLock (m.sheet r) m = false) :
    sluUnadmit core k r m = sluResult core k 0 r 3 (snapTry (settleEdges (sheetTo r .ready m))) := by
  simp only [sluUnadmit, lockedCode, adm, open_]
  rfl

theorem sluUnadmit_locked (adm : (m.sheet r).state = .admitted) (past : pastLock (m.sheet r) m = true) :
    sluUnadmit core k r m = sluResult core k 0x10 r 3 m := by
  simp only [sluUnadmit, lockedCode, adm, past]
  rfl

theorem sluUnadmit_state (ne : (m.sheet r).state ≠ .admitted) : sluUnadmit core k r m = sluResult core k 0x01 r 3 m := by
  have : ((m.sheet r).state != .admitted) = true := by simpa using ne
  simp only [sluUnadmit, this]
  rfl

theorem sluWithdraw_acts
    (may : (m.sheet r).state = .queued ∨ (m.sheet r).state = .ready ∨
      (m.sheet r).state = .admitted ∧ pastLock (m.sheet r) m = false) :
    sluWithdraw core k r m = sluResult core k 0 r 4 (snapTry (settleEdges (sheetTo r .withdrawn m))) := by
  rcases may with st | st | ⟨st, open_⟩
  · simp only [sluWithdraw, lockedCode, st]; rfl
  · simp only [sluWithdraw, lockedCode, st]; rfl
  · simp only [sluWithdraw, lockedCode, st, open_]; rfl

theorem sluWithdraw_locked (adm : (m.sheet r).state = .admitted) (past : pastLock (m.sheet r) m = true) :
    sluWithdraw core k r m = sluResult core k 0x10 r 4 m := by
  simp only [sluWithdraw, lockedCode, adm, past]
  rfl

theorem sluWithdraw_state (nq : (m.sheet r).state ≠ .queued) (nr : (m.sheet r).state ≠ .ready)
    (na : (m.sheet r).state ≠ .admitted) : sluWithdraw core k r m = sluResult core k 0x01 r 4 m := by
  have none_ : ((m.sheet r).state == .queued || (m.sheet r).state == .ready || (m.sheet r).state == .admitted) = false := by
    simp [nq, nr, na]
  simp only [sluWithdraw, none_]
  rfl

end

/-- Settles O20: each operation is its own branch, and a transition moves its record alone. -/
theorem ledgerAdmission : Obligations.LedgerAdmission := by
  intro core k r s ok hr lets m sh now refuses does code
  have inRange : (okCtx core k && decide (r < 256)) = true := by simp [ok, hr]
  have admission : exec (.admitSheet core k r) s = .next (s.onMach (sluAdmit core k r)) :=
    acts_committed (onUnit_of inRange (opAdmit core k r) s) lets
  have unadmit : exec (.unadmit core k r) s = .next (s.onMach (sluUnadmit core k r)) :=
    acts_committed (onUnit_of inRange (opUnadmit core k r) s) lets
  have withdraw : exec (.withdraw core k r) s = .next (s.onMach (sluWithdraw core k r)) :=
    acts_committed (onUnit_of inRange (opWithdraw core k r) s) lets
  have refused {f : Mach → Mach} {i : Instr} {c op : Nat} (run : exec i s = .next (s.onMach f))
      (eff : f s.mach = sluResult core k c r op s.mach) (hc : c < 256) (ho : op < 16) : refuses i c op :=
    ⟨run.trans (congrArg _ (onMach_congr eff)), sluOp_refused run eff hc hr ho⟩
  have back {st : SheetState} (held : m.heldEdges = []) :
      (snapTry (settleEdges (sheetTo r st m))).sheet r = sh.moved st now ∧
        ∀ j, j ≠ r → (snapTry (settleEdges (sheetTo r st m))).sheet j = m.sheet j :=
    ⟨(sheet_of_sheets (back_sheets held r st) r).trans (sheetTo_same ..),
      fun j ne => (sheet_of_sheets (back_sheets held r st) j).trans (sheetTo_ne ne ..)⟩
  refine ⟨fun zero => ?_, fun zero later => ?_, fun fails => refused admission (sluAdmit_fails fails) (admitCode_lt ..) (by decide),
    fun adm open_ => ⟨?_, fun held => ?_⟩, fun adm past => ⟨?_, ?_⟩, fun ne => refused unadmit (sluUnadmit_state ne) (by decide) (by decide),
    fun may => ⟨?_, fun held => ?_⟩, fun nq nr na => refused withdraw (sluWithdraw_state nq nr na) (by decide) (by decide)⟩
  · exact admission.trans (congrArg _ (onMach_congr (sluAdmit_acts zero)))
  · have eff : sluAdmit core k r m = sluResult core k 0 r 2 (admitted r m) := by
      rw [sluAdmit_acts zero, decide_eq_false (Int.not_lt.2 later)]; rfl
    exact sluOp_acts admission eff hr (by decide) (admitted_same (ready_of_admitCode zero)) fun j ne => admitted_ne ne m
  · exact unadmit.trans (congrArg _ (onMach_congr (sluUnadmit_acts adm open_)))
  · refine sluOp_acts unadmit (sluUnadmit_acts adm open_) hr (by decide) ((back held).1.trans ?_) (back held).2
    rw [Sheet.moved, adm]; rfl
  · exact refused unadmit (sluUnadmit_locked adm past) (by decide) (by decide)
  · exact refused withdraw (sluWithdraw_locked adm past) (by decide) (by decide)
  · exact withdraw.trans (congrArg _ (onMach_congr (sluWithdraw_acts may)))
  · refine sluOp_acts withdraw (sluWithdraw_acts may) hr (by decide) ((back held).1.trans ?_) (back held).2
    by_cases adm : sh.state = .admitted
    · rw [Sheet.moved, if_pos adm, adm]; rfl
    · rw [moved_of_ne adm, if_neg adm]

end Sys2Proof.Machine
end

section
/-! PROOFS. What the ledger does by itself (O23). -/

namespace Sys2Proof.Machine

section
variable {r : Nat} {m : Mach}

/-! ## Hardware transitions -/

theorem sheetTo_enabled (r : Nat) (st : SheetState) (m : Mach) : (sheetTo r st m).on R.SLU_CTL_EN = m.on R.SLU_CTL_EN :=
  (ripples_sheetTo (trip := False) r st m).on (by simp [rippleKey, R.SLU_CTL_EN]) fun h => h.elim

theorem sheetAdvance_on (en : m.on R.SLU_CTL_EN = true) :
    sheetAdvance r m = sheetStep r (sheetStep r (sheetStep r (sheetStep r m))) := if_pos en

/-- A CAUGHT record whose lines have not all begun stays. -/
theorem sheetStep_caught (st : (m.sheet r).state = .caught) (begun : (m.sheet r).allBegun = false) : sheetStep r m = m := by
  simp [sheetStep, st, begun]

/-- A TRANSFERRED record whose fusing has not been seen stays. -/
theorem sheetStep_transferred (st : (m.sheet r).state = .transferred) (held : (m.sheet r).heldFuse = false) :
    sheetStep r m = m := by
  simp [sheetStep, st, held]

/-- An IMAGING record whose transfer has been seen is TRANSFERRED. -/
theorem sheetStep_imaging (st : (m.sheet r).state = .imaging) (held : (m.sheet r).heldTransfer = true) :
    sheetStep r m = sheetTo r .transferred m := by
  simp [sheetStep, st, held]

/-! ## The arm -/

theorem opSheetArm_due (en : m.on R.SLU_CTL_EN = true) (adm : (m.sheet r).state = .admitted)
    (unarmed : (m.sheet r).armed = false) (due : (m.sheet r).catchT.toNat ≤ m.now + m.get R.SLU_ARMLEAD) :
    opSheetArm r m = groupMissCheck
      (when (!(m.sheet r).gateSent) (sendGate r) (m.setSheet r { m.sheet r with armed := true })) := by
  have cond : (m.on R.SLU_CTL_EN && (m.sheet r).state == .admitted && !(m.sheet r).armed &&
      decide ((m.sheet r).catchT.toNat ≤ m.now + m.get R.SLU_ARMLEAD)) = true := by simp [en, adm, unarmed, due]
  refine congrArg groupMissCheck ((if_pos cond).trans ?_)
  rw [when]
  by_cases sent : (m.sheet r).gateSent = true
  · exact (if_pos sent).trans (if_neg (by rw [sent]; decide)).symm
  · exact (if_neg sent).trans (if_pos (by simpa using sent)).symm

/-! ## The catch -/

/-- The legs of a record that is caught: the catching station's line 0 stands at PPC, unless the group's master fixes it. -/
def caughtLegs (sh : Sheet) (m : Mach) : Tab Leg :=
  match tfind 0 sh.legs with
  | some l => if deepenSlave m then sh.legs else tput 0 { l with l0 := some m.clk.ppc } sh.legs
  | none => sh.legs

/-- The machine with the record CAUGHT, before what the catch sets off. -/
def caught (r : Nat) (m : Mach) : Mach :=
  sheetTo r .caught (m.setSheet r { m.sheet r with cppc := m.clk.ppc, legs := caughtLegs (m.sheet r) m })

theorem opCatch_due (en : m.on R.SLU_CTL_EN = true) (adm : (m.sheet r).state = .admitted)
    (due : (m.sheet r).catchT.toNat ≤ m.now) : opCatch r m = snapTry (settleEdges (sheetAdvance r (caught r m))) := by
  have cond : (m.on R.SLU_CTL_EN && (m.sheet r).state == .admitted && decide ((m.sheet r).catchT.toNat ≤ m.now)) = true := by
    simp [en, adm, due]
  exact if_pos cond

theorem caught_same (r : Nat) (m : Mach) : (caught r m).sheet r =
    { m.sheet r with state := .caught, trtick := m.clk.tick, cppc := m.clk.ppc, legs := caughtLegs (m.sheet r) m } := by
  rw [caught, sheetTo_same, sheet_setSheet_same, Sheet.moved, if_neg (by simp)]
  rfl

theorem caught_ne {j : Nat} (h : j ≠ r) (m : Mach) : (caught r m).sheet j = m.sheet j :=
  (sheetTo_ne h ..).trans (sheet_setSheet_ne h ..)

/-- A catch whose lines have not all begun goes no further. -/
theorem opCatch_sheets (en : m.on R.SLU_CTL_EN = true) (adm : (m.sheet r).state = .admitted)
    (due : (m.sheet r).catchT.toNat ≤ m.now) (held : m.heldEdges = [])
    (begun : ({ m.sheet r with legs := caughtLegs (m.sheet r) m } : Sheet).allBegun = false) :
    (opCatch r m).sheets = (caught r m).sheets := by
  have on_ : (caught r m).on R.SLU_CTL_EN = true := (sheetTo_enabled ..).trans en
  have stays : sheetStep r (caught r m) = caught r m := sheetStep_caught (by rw [caught_same]) (by rw [caught_same]; exact begun)
  rw [opCatch_due en adm due, snapTry_sheets, sheetAdvance_on on_, stays, stays, stays, stays,
    settleEdges_none (m := caught r m) ((sheetTo_heldEdges ..).trans held)]

/-! ## The transfer -/

theorem opSheetTransferred_due (en : m.on R.SLU_CTL_EN = true) (busy : (m.sheet r).state.busy = true)
    (open_ : (m.sheet r).heldTransfer = false)
    (reached : ppcReached m.ppcNow (((m.sheet r).cppc.toNat + m.get R.SLU_TRDIST + 64 * (m.sheet r).lines) % 2 ^ 48) = true) :
    opSheetTransferred r m = snapTry (sheetAdvance r (m.setSheet r { m.sheet r with heldTransfer := true })) := by
  have cond : (m.on R.SLU_CTL_EN && (m.sheet r).state.busy && !(m.sheet r).heldTransfer &&
      ppcReached m.ppcNow (((m.sheet r).cppc.toNat + m.get R.SLU_TRDIST + 64 * (m.sheet r).lines) % 2 ^ 48)) = true := by
    rw [en, busy, open_, reached]; rfl
  exact if_pos cond

/-- The machine with an imaged record TRANSFERRED. -/
def sheetTransferred (r : Nat) (m : Mach) : Mach := sheetTo r .transferred (m.setSheet r { m.sheet r with heldTransfer := true })

theorem sheetTransferred_same (img : (m.sheet r).state = .imaging) : (sheetTransferred r m).sheet r =
    { m.sheet r with state := .transferred, trtick := m.clk.tick, heldTransfer := true } := by
  rw [sheetTransferred, sheetTo_same, sheet_setSheet_same, Sheet.moved, if_neg (by simp [img])]
  rfl

theorem sheetTransferred_ne {j : Nat} (h : j ≠ r) (m : Mach) : (sheetTransferred r m).sheet j = m.sheet j :=
  (sheetTo_ne h ..).trans (sheet_setSheet_ne h ..)

/-- A record whose imaging is over and whose fusing has not been seen goes one state on. -/
theorem advance_imaging (en : m.on R.SLU_CTL_EN = true) (img : (m.sheet r).state = .imaging)
    (unfused : (m.sheet r).heldFuse = false) :
    sheetAdvance r (m.setSheet r { m.sheet r with heldTransfer := true }) = sheetTransferred r m := by
  have step : sheetStep r (m.setSheet r { m.sheet r with heldTransfer := true }) = sheetTransferred r m :=
    sheetStep_imaging (by rw [sheet_setSheet_same]; exact img) (by rw [sheet_setSheet_same])
  have stays : sheetStep r (sheetTransferred r m) = sheetTransferred r m :=
    sheetStep_transferred (by rw [sheetTransferred_same img]) (by rw [sheetTransferred_same img]; exact unfused)
  exact (sheetAdvance_on (m := m.setSheet r _) en).trans (by rw [step, stays, stays, stays])

/-! ## The deadline of a band -/

theorem opBandDeadline_due {stn k : Nat} (en : m.on R.SLU_CTL_EN = true)
    (out : (m.sheet r).state.busy = true ∨ (m.sheet r).state = .transferred ∨ (m.sheet r).state = .fused)
    (early : (m.sheet r).earlyRule = true) (plane : bitOf (m.sheet r).planes stn = true) (band : k < (m.sheet r).bands)
    (next : (m.sheet r).nextDl.getD stn 0 ≤ k)
    (reached : ppcReached m.ppcNow (((lineZero m (m.sheet r) stn).toNat + 64 * (64 * k - (m.sheet r).dlmargin)) % 2 ^ 48) = true) :
    opBandDeadline r stn k m = when (!(k < (m.sheet r).res.getD stn 0 || (m.sheet r).spoil)) (spoilBand r stn k 0x070 0x01)
      (m.setSheet r { m.sheet r with nextDl := (m.sheet r).nextDl.set stn (k + 1) }) := by
  have state : ((m.sheet r).state.busy || (m.sheet r).state == .transferred || (m.sheet r).state == .fused) = true := by
    simpa [or_assoc] using out
  have cond : (m.on R.SLU_CTL_EN && ((m.sheet r).state.busy || (m.sheet r).state == .transferred || (m.sheet r).state == .fused)
      && (m.sheet r).earlyRule && bitOf (m.sheet r).planes stn && decide (k < (m.sheet r).bands)
      && decide ((m.sheet r).nextDl.getD stn 0 ≤ k)
      && ppcReached m.ppcNow (((lineZero m (m.sheet r) stn).toNat + 64 * (64 * k - (m.sheet r).dlmargin)) % 2 ^ 48)) = true := by
    rw [en, state, early, plane, decide_eq_true band, decide_eq_true next, reached]; rfl
  refine (if_pos cond).trans ?_
  simp only [when]
  cases (decide (k < (m.sheet r).res.getD stn 0) || (m.sheet r).spoil) <;> rfl

end

/-- Settles O23: each clause is the branch of its command, and a transition moves its record alone. -/
theorem ledgerTimeline : Obligations.LedgerTimeline := by
  intro r stn k s hr hs hk m sh en legs late
  refine ⟨fun tenf gap fast => ?_, fun en adm unarmed due => ?_, fun en adm due => ⟨?_, fun held begun => ?_⟩,
    fun en busy open_ reached => ⟨?_, fun img unfused => ?_⟩, fun en out early plane band next reached => ?_⟩
  · obtain ⟨t, run, speed, ok, -, sheets, -⟩ := (throttleStepInGap s).1 ⟨tenf, countIn_or_eq_zero_iff _ _ _ |>.1 gap, fast⟩
    exact ⟨t, run, speed, ok, sheets⟩
  · exact (onUnit_of (decide_eq_true hr) (opSheetArm r) s).trans
      (congrArg _ (onMach_congr (opSheetArm_due en adm unarmed due)))
  · exact (onUnit_of (decide_eq_true hr) (opCatch r) s).trans (congrArg _ (onMach_congr (opCatch_due en adm due)))
  · have sheets := opCatch_sheets en adm due held begun
    exact ⟨_, onUnit_of (decide_eq_true hr) (opCatch r) s, (sheet_of_sheets sheets r).trans (caught_same ..),
      fun j ne => (sheet_of_sheets sheets j).trans (caught_ne ne _)⟩
  · exact (onUnit_of (decide_eq_true hr) (opSheetTransferred r) s).trans
      (congrArg _ (onMach_congr (opSheetTransferred_due en busy open_ reached)))
  · have sheets : (opSheetTransferred r m).sheets = (sheetTransferred r m).sheets := by
      rw [opSheetTransferred_due en busy open_ reached, snapTry_sheets, advance_imaging en img unfused]
    exact ⟨_, onUnit_of (decide_eq_true hr) (opSheetTransferred r) s, (sheet_of_sheets sheets r).trans (sheetTransferred_same img),
      fun j ne => (sheet_of_sheets sheets j).trans (sheetTransferred_ne ne _)⟩
  · refine (onUnit_of (by simp only [hr, hk, show s.mach.hasStn stn = true from decide_eq_true hs]; rfl) (opBandDeadline r stn k) s).trans
      (congrArg _ (onMach_congr (opBandDeadline_due en out early plane band next reached)))

end Sys2Proof.Machine
end

section
/-! PROOFS. What a message leaves of the sheet records; watches and snapshots (O24). -/

namespace Sys2Proof.Machine

section
variable {r : Nat} {m : Mach}

/-- A command that acts on machine and memories, with what it makes of them. -/
theorem actsM_to {s : State} {o : Host.Outcome State Fault Refusal} {f : Mach → Mem → Mach × Mem} {m' : Mach} {mem' : Mem}
    (run : o = .next { s with mach := (f s.mach s.mem).1, mem := (f s.mach s.mem).2 }) (eff : f s.mach s.mem = (m', mem')) :
    o = .next { s with mach := m', mem := mem' } := by
  rw [run, eff]

/-! ## Messages and records -/

/-- What every member of a list keeps stands after all of them. -/
theorem each_preserves {α : Type} {f : α → Mach → Mach} {P : Mach → Prop} (h : ∀ a m, P m → P (f a m)) (l : List α) :
    ∀ m, P m → P (each l f m) := by
  induction l with
  | nil => exact fun _ hm => hm
  | cons a l ih => exact fun m hm => ih _ (h a m hm)

theorem runOut_ne {j : Nat} (h : j ≠ r) (stn : Option Nat) (m : Mach) : (runOut r stn m).sheet j = m.sheet j :=
  sheet_setSheet_ne h ..

/-- A message acts on the record it is judged against alone. -/
theorem msgOnRecord_ne {j : Nat} (h : j ≠ r) (g : Msg) (m : Mach) : (msgOnRecord g r m).sheet j = m.sheet j := by
  have go (st : SheetState) (m : Mach) : (sheetTo r st m).sheet j = m.sheet j := sheetTo_ne h st m
  simp only [msgOnRecord]
  split
  · rfl
  · split
    · rfl
    · split
      · rfl
      · split
        · exact (sheet_setSheet_ne h ..).trans (go ..)
        · exact (runOut_ne h ..).trans (sheet_setSheet_ne h ..)
    · split
      · exact go ..
      · rfl
    · split
      · exact go ..
      · exact (go ..).trans (sheet_setSheet_ne h ..)
    · split
      · exact go ..
      · exact (go ..).trans (sheet_setSheet_ne h ..)

/-- A record that is not engaged is no message's concern. -/
theorem msgOnRecord_idle (h : (m.sheet r).state.engaged = false) (g : Msg) : msgOnRecord g r m = m := by
  simp [msgOnRecord, h]

theorem brakeDrive_sheets (src kind d : Nat) (m : Mach) : (brakeDrive src kind d m).sheets = m.sheets := by
  simp only [brakeDrive]
  split
  · rfl
  · split <;> rfl

theorem tripOutputs_sheets (src kind : Nat) (m : Mach) : (tripOutputs src kind m).sheets = m.sheets :=
  (sheets_each (brakeDrive_sheets src kind) _ _).trans rfl

theorem captured_sheets (g : Msg) (m : Mach) : (captured g m).sheets = m.sheets :=
  (sheets_when (fun m => msix_sheets _ m) _).trans ((sheets_when (assertEvent_sheets _) _).trans
    ((sheets_when (assertEvent_sheets _) _).trans (assertEvent_sheets ..)))

@[simp] theorem collect_sheets (g : Msg) (m : Mach) : (collect g m).sheets = m.sheets := by
  simp only [collect]
  split
  · split
    · rfl
    · exact captured_sheets ..
  · split
    · exact (captured_sheets ..).trans (assertEvent_sheets ..)
    · exact assertEvent_sheets ..

@[simp] theorem groupEffects_sheets (g : Msg) (o : Bool) (m : Mach) : (groupEffects g o m).sheets = m.sheets := by
  simp only [groupEffects]
  split
  · rfl
  · split
    · exact frameSend_sheets ..
    · split
      · exact frameSend_sheets ..
      · rfl

/-- The records after a message's effects are those that the message leaves one by one. -/
theorem classEffects_sheets (g : Msg) (m : Mach) :
    (classEffects g m).sheets = (each (recsIn (·.engaged) m) (msgOnRecord g) m).sheets := by
  simp only [classEffects]
  split
  · rfl
  · exact tripOutputs_sheets ..
  · rfl

/-- A record that is not engaged outlasts every message. -/
theorem deliverNow_idle (h : (m.sheet r).state.engaged = false) (g : Msg) : (deliverNow g m).sheet r = m.sheet r := by
  have start (x : Mach) : (collect g (withLast g x)).sheet r = x.sheet r :=
    sheet_of_sheets ((collect_sheets ..).trans (withLast_sheets g x)) r
  refine (sheet_of_sheets ((groupEffects_sheets ..).trans (classEffects_sheets ..)) r).trans ?_
  refine each_preserves (P := fun x => x.sheet r = m.sheet r) (fun j x hx => ?_) _ _ (start m)
  by_cases e : j = r
  · subst e; rw [msgOnRecord_idle (by rw [hx]; exact h), hx]
  · exact (msgOnRecord_ne (Ne.symm e) g x).trans hx

/-! ## Watches -/

theorem watchStat_sheets (w : Nat) (sid : Sid) (b : Bool) (m : Mach) : (watchStat w sid b m).sheets = m.sheets := rfl

theorem watchClass_cases (w : Nat) (m : Mach) : watchClass w m = 2 ∨ watchClass w m = 3 := by
  rw [watchClass]; split
  · exact .inl rfl
  · exact .inr rfl

/-- The record as a failing watch leaves it: JAMMED from this instant. -/
theorem watchFail_jams (w : Nat) (st : (m.sheet r).state ≠ .admitted) :
    ((watchFail w (some r) m).sheet r).state = .jammed ∧ ((watchFail w (some r) m).sheet r).trtick = m.clk.tick := by
  have late : ¬(((m.sheet r).state == .admitted && !pastLock (m.sheet r) (watchStat w (m.sheet r).sid true
      (m.setSheet r { m.sheet r with judged := setBit (m.sheet r).judged w }))) = true) := by simp [st]
  generalize hm : watchStat w (m.sheet r).sid true (m.setSheet r { m.sheet r with judged := setBit (m.sheet r).judged w }) = m1 at late
  have tick : m1.clk.tick = m.clk.tick := by rw [← hm]; rfl
  have jams (x : Sheet) : ((sheetTo r .jammed (m1.setSheet r x)).sheet r).state = .jammed ∧
      ((sheetTo r .jammed (m1.setSheet r x)).sheet r).trtick = m.clk.tick := by
    rw [sheetTo_same]; exact ⟨rfl, tick⟩
  obtain ⟨g, eff⟩ : ∃ g, watchFail w (some r) m =
      deliverNow g (sheetTo r .jammed (m1.setSheet r ((m1.sheet r).blame 0x071 0x02 (watchClass w m)))) := by
    rw [← hm] at late ⊢
    exact ⟨_, congrArg (deliverNow _) (if_neg late)⟩
  rw [eff, deliverNow_idle (by rw [(jams _).1]; rfl)]
  exact jams _

theorem watchFail_heldEdges (w : Nat) (m : Mach) : (watchFail w (some r) m).heldEdges = m.heldEdges := by
  have two : watchClass w m ≠ 4 := by rcases watchClass_cases w m with e | e <;> omega
  simp only [watchFail]
  refine (calm_deliverNow (K := quietKey) (fun _ h => h) _ two _).heldEdges.trans ?_
  rw [withLast_heldEdges]
  split
  · exact (sheetTo_heldEdges ..).trans rfl
  · exact (sheetTo_heldEdges ..).trans rfl

theorem opWatchWindowJudged_due {w : Nat} (en : m.on R.SLU_CTL_EN = true) (open_ : watchOpen w (m.sheet r) = true)
    (base : baseKnown m w (m.sheet r) = true)
    (passed : m.getI (R.SLU_WATCH_CLOSE w) + (if m.on (R.SLU_WATCH_CFG_BASE w) then
      ((usTicks (max 1 (m.get (R.SNS_CFG_DEB (m.get (R.SLU_WATCH_CFG_SNS w))))) * m.get R.CLK_PPCRATE / 2 ^ 32 : Nat) : Int)
      else (usTicks (max 1 (m.get (R.SNS_CFG_DEB (m.get (R.SLU_WATCH_CFG_SNS w))))) : Int)) <
        stampOffset m w (m.sheet r) m.clk.tick m.clk.ppc) :
    opWatchWindowJudged w r m = snapTry (settleEdges (watchFail w (some r) m)) := by
  refine if_pos ?_
  rw [en, open_, base, decide_eq_true passed]; rfl

/-! ## Captures -/

theorem multipleIn_of_div {a b : Nat} (h : a / 100000 < b / 100000) : multipleIn (msTicks 1) 0 a b = true := by
  have per : msTicks 1 = 100000 := rfl
  simp only [multipleIn, per, decide_eq_true_eq]
  omega

/-- With a bank free and no capture in progress, a trigger begins the next one and takes every trigger that waits. -/
theorem snapTry_begins (idle : m.snap.writing = none) (thawed : m.snap.frozen = false) (waits : 0 < m.snap.waitPer)
    (free : bankHeld 0 m = false ∧ bankHeld 1 m = false) :
    (snapTry m).snap.writing.isSome = true ∧ (snapTry m).snap.waitPer = 0 ∧ (snapTry m).snap.waitEv = [] := by
  have cond : (!m.snap.frozen && m.snap.writing.isNone && (decide (0 < m.snap.waitPer) || !m.snap.waitEv.isEmpty)) = true := by
    simp [idle, thawed, waits]
  have none_ (b : Nat) : bankHeld b m = false := by
    by_cases zero : b = 0
    · subst zero; exact free.1
    · rw [← free.2, bankHeld, bankHeld, if_neg zero, if_neg (by decide)]
  obtain ⟨b, bank⟩ : ∃ b, captureBank m = some b := ⟨_, if_pos (by rw [none_]; rfl)⟩
  have eff : snapTry m = captureBegin b m := by
    simp only [snapTry, if_pos cond, bank]
  rw [eff]
  exact ⟨rfl, rfl, rfl⟩

/-- A capture that begins keeps what the bank before it left. -/
theorem captureBegin_keeps (b : Nat) (m : Mach) : (captureBegin b m).snap.lastBank = m.snap.lastBank ∧
    (captureBegin b m).snap.hold0 = m.snap.hold0 ∧ (captureBegin b m).snap.hold1 = m.snap.hold1 := by
  have snap : (when m.snap.deferred (·.incSat R.SNAP_STAT_DEFER) m).snap = m.snap := by rw [when]; split <;> rfl
  refine ⟨?_, ?_, ?_⟩
  · exact (congrArg Snap.lastBank snap :)
  · exact (congrArg Snap.hold0 snap :)
  · exact (congrArg Snap.hold1 snap :)

theorem snapTry_keeps (m : Mach) : (snapTry m).snap.lastBank = m.snap.lastBank ∧
    (snapTry m).snap.hold0 = m.snap.hold0 ∧ (snapTry m).snap.hold1 = m.snap.hold1 := by
  simp only [snapTry]
  split
  · split
    · exact captureBegin_keeps ..
    · exact ⟨rfl, rfl, rfl⟩
  · exact ⟨rfl, rfl, rfl⟩

/-- A capture that begins writes DEFER alone. -/
theorem captureBegin_get {f : FRef} (h : R.SNAP_STAT_DEFER.apart f) (b : Nat) (m : Mach) :
    (captureBegin b m).get f = m.get f := by
  show (when m.snap.deferred (·.incSat R.SNAP_STAT_DEFER) m).get f = _
  rw [when]
  split
  · exact Mach.get_set_of_apart _ h _
  · rfl

theorem snapTry_get {f : FRef} (h : R.SNAP_STAT_DEFER.apart f) (m : Mach) : (snapTry m).get f = m.get f := by
  simp only [snapTry]
  split
  · split
    · exact captureBegin_get h ..
    · rfl
  · rfl

/-- A queued frame changes its number and, where it is dropped, HSFDROP. -/
theorem queueFrame_get {f : FRef} (seq : R.SNAP_HSFSEQ.apart f) (drop : R.SNAP_STAT_HSFDROP.apart f) (body : List Word)
    (m : Mach) : (queueFrame body m).get f = m.get f := by
  have kept : (m.incWrap R.SNAP_HSFSEQ).get f = m.get f := Mach.get_set_of_apart _ seq _
  simp only [queueFrame]
  split
  · exact kept
  · exact (Mach.get_set_of_apart _ drop _).trans kept

theorem queueFrame_lastBank (body : List Word) (m : Mach) : (queueFrame body m).snap.lastBank = m.snap.lastBank := by
  simp only [queueFrame]
  split <;> rfl

theorem word_of_get {m : Mach} {f : FRef} (hhi : f.hi = 31) (hlo : f.lo = 0) {w : Word} (h : m.get f = w.toNat) :
    m.word f.key = w := by
  refine BitVec.eq_of_toNat_eq ?_
  rw [← h, Mach.get, bitsOf, hhi, hlo, Nat.pow_zero, Nat.div_one]
  exact (Nat.mod_eq_of_lt (m.word f.key).isLt).symm

/-- The machine once a capture is in its bank, before its frames. -/
def banked (c : Capture) (m : Mach) : Mach :=
  { (m.set R.SNAP_STAT_LATEST c.bank).setWord R.SNAP_EPOCH.key c.epoch with
    snap := { m.snap with writing := none, lastBank := some c.bank } }

theorem opSnapshotCaptureDone_eq {c : Capture} (h : m.snap.writing = some c) (mem : Mem) :
    opSnapshotCaptureDone m mem = (snapTry (each c.frames queueFrame (banked c m)), writeBank c mem) := by
  simp only [opSnapshotCaptureDone, h]
  rfl

/-- A field that neither the frames of a capture nor the next capture writes. -/
theorem captureDone_get {f : FRef} (defer : R.SNAP_STAT_DEFER.apart f) (seq : R.SNAP_HSFSEQ.apart f)
    (drop : R.SNAP_STAT_HSFDROP.apart f) (c : Capture) (m : Mach) :
    (snapTry (each c.frames queueFrame m)).get f = m.get f :=
  (snapTry_get defer _).trans (each_keeps (p := fun m => m.get f) _ (fun b _ m => queueFrame_get seq drop b m) m)

theorem opSnapshotHoldExpire_due {b : Nat} {u : Tick} (hold : (if b = 0 then m.snap.hold0 else m.snap.hold1) = some u)
    (due : u.toNat ≤ m.now) : opSnapshotHoldExpire b m =
      snapTry { m with snap := if b = 0 then { m.snap with hold0 := none } else { m.snap with hold1 := none } } := by
  simp only [opSnapshotHoldExpire, hold]
  exact if_pos due

theorem banked_latest {c : Capture} (hb : c.bank < 2) : (banked c m).get R.SNAP_STAT_LATEST = c.bank := by
  show ((m.set R.SNAP_STAT_LATEST c.bank).setWord R.SNAP_EPOCH.key c.epoch).get _ = _
  rw [Mach.get_setWord_ne _ (by decide), Mach.get_set_fits _ (by decide) (by decide) hb]

theorem banked_epoch (c : Capture) : (banked c m).get R.SNAP_EPOCH = c.epoch.toNat := by
  show ((m.set R.SNAP_STAT_LATEST c.bank).setWord R.SNAP_EPOCH.key c.epoch).get _ = _
  rw [Mach.get, Mach.word_setWord_same, bitsOf]
  simp only [R.SNAP_EPOCH, Nat.pow_zero, Nat.div_one]
  exact Nat.mod_eq_of_lt c.epoch.isLt

end

/-- Settles O24: each clause is the branch of its command, with what a message, a queued frame or the next capture leaves
alone. -/
theorem watchesAndSnapshots : Obligations.WatchesAndSnapshots := by
  intro core k w r b off v q s ok okq hw hr hb hoff m sh deb wait
  refine ⟨fun en open_ base passed => ⟨?_, fun held st => ?_⟩, fun lets => ?_, fun en passed idle thawed free0 free1 => ?_,
    fun c writing bank => ?_, ?_, fun u hold due => ?_⟩
  · exact (onUnit_of (by simp [hw, hr]) (opWatchWindowJudged w r) s).trans
      (congrArg _ (onMach_congr (opWatchWindowJudged_due en open_ base passed)))
  · have sheets : (opWatchWindowJudged w r m).sheets = (watchFail w (some r) m).sheets := by
      rw [opWatchWindowJudged_due en open_ base passed, snapTry_sheets,
        settleEdges_none ((watchFail_heldEdges w m).trans held)]
    have same := sheet_of_sheets sheets r
    obtain ⟨jammed, tick⟩ := watchFail_jams w st
    exact ⟨_, onUnit_of (by simp [hw, hr]) (opWatchWindowJudged w r) s, (congrArg Sheet.state same).trans jammed,
      (congrArg Sheet.trtick same).trans tick, rfl⟩
  · refine (acts_guarded (onUnit_of (by simp [ok, hw]) (opWatchCfgWrite core k w v) s) lets).trans (congrArg _ (onMach_congr ?_))
    by_cases bad : (R.SLU_WATCH_CFG_EN w).of v = 1 ∧ 47 < (R.SLU_WATCH_CFG_SNS w).of v
    · rw [if_pos bad]
      exact if_pos (by simp [bad])
    · rw [if_neg bad]
      exact if_neg (by simpa using bad)
  · have cond : (m.on R.SNAP_CTL_EN && multipleIn (msTicks 1) 0 m.snap.perFrom.toNat m.now) = true := by
      rw [en, multipleIn_of_div passed]; rfl
    obtain ⟨writing, per, ev⟩ := snapTry_begins
      (m := { m with snap := { m.snap with perFrom := m.clk.tick, waitPer := m.snap.waitPer + 1 } })
      idle thawed (Nat.succ_pos _) ⟨free0, free1⟩
    exact ⟨_, acts_to (onUnit_of rfl opSnapshotPeriodicTrigger s) (if_pos cond), writing, per, ev, snapTry_sheets _, rfl⟩
  · have eff := opSnapshotCaptureDone_eq writing s.mem
    refine ⟨_, actsM_to (onUnitM_of rfl opSnapshotCaptureDone s) eff, ?_, ?_, ?_, rfl⟩
    · exact (captureDone_get (by decide) (by decide) (by decide) c _).trans (banked_latest bank)
    · exact word_of_get rfl rfl ((captureDone_get (by decide) (by decide) (by decide) c _).trans (banked_epoch c))
    · exact (snapTry_keeps _).1.trans
        ((each_keeps (p := fun m => m.snap.lastBank) _ (fun b _ m => queueFrame_lastBank b m) _).trans rfl)
  · refine ⟨_, onUnit_of (by simp [okq, hb, hoff]) (opSnapshotBankRead q b off s.mem) s, tget_tput_same .., ?_, rfl, rfl⟩
    have until_ : BitVec.ofNat 64 (m.now + msTicks 1) = m.clk.tick + 100000 := by
      refine BitVec.eq_of_toNat_eq ?_
      rw [BitVec.toNat_ofNat, BitVec.toNat_add]; rfl
    rw [← until_]
    by_cases zero : b = 0
    · subst zero; rfl
    · exact (if_neg zero).trans (congrArg Snap.hold1 (if_neg zero))
  · have run : exec (.snapshotHoldExpire b) s = .next (s.onMach (opSnapshotHoldExpire b)) := onUnit_of (decide_eq_true hb) _ s
    refine ⟨_, acts_to run (opSnapshotHoldExpire_due hold due), ?_, snapTry_sheets _, rfl⟩
    by_cases zero : b = 0
    · subst zero; exact (snapTry_keeps _).2.1
    · rw [if_neg zero]; exact (snapTry_keeps _).2.2.trans (congrArg Snap.hold1 (if_neg zero))

end Sys2Proof.Machine
end

section
/-! PROOFS. The timebases (O26). -/

namespace Sys2Proof.Machine

/-! ## The rule -/

theorem trimOf_bounds (m : Mach) : -4294967 ≤ trimOf m ∧ trimOf m ≤ 4294967 := clampI_bounds (by decide) _

/-- What one application of the rule makes of the timebases. -/
theorem tickRule_clk (m : Mach) : (tickRule m).clk =
    let acc := ((m.clk.tickFrac.toNat : Int) + 2 ^ 32 + trimOf m).toNat
    let ppc := m.clk.ppc.toNat * 2 ^ 32 + m.clk.ppcFrac.toNat + m.get R.CLK_PPCRATE * (acc / 2 ^ 32)
    { m.clk with tick := m.clk.tick + BitVec.ofNat 64 (acc / 2 ^ 32), tickFrac := BitVec.ofNat 32 acc,
                 ppc := BitVec.ofNat 48 (ppc / 2 ^ 32), ppcFrac := BitVec.ofNat 32 ppc } := rfl

/-- One REFCLK cycle of a synthesiser leaves the timebases and the count of core cycles. -/
theorem pfdCycle_times (k : Nat) (m : Mach) : (pfdCycle k m).clk = { m.clk with syn := (pfdCycle k m).clk.syn } := by
  simp only [pfdCycle]
  split
  · split
    · split <;> rfl
    · rfl
  · rfl

theorem pfdCycles_times (l : List Nat) : ∀ m : Mach, (each l pfdCycle m).clk = { m.clk with syn := (each l pfdCycle m).clk.syn } := by
  induction l with
  | nil => exact fun _ => rfl
  | cons k l ih => exact fun m => (ih _).trans (by rw [pfdCycle_times k m]; rfl)

/-- What a period of the clock advances, the synthesisers' own cycles apart. -/
def tickAdvanced (m : Mach) : Mach :=
  if onOscillator m then coreCycles 1 (tickRule (tickRule (tickRule (tickRule m))))
  else coreCycles (if sysRuns m then 5 else 1) (tickRule m)

theorem tickAdvance_clk (m : Mach) : (tickAdvance m).clk = { (tickAdvanced m).clk with syn := (tickAdvance m).clk.syn } :=
  pfdCycles_times _ (tickAdvanced m)

/-! ## Targets -/

/-- Modular distance below half the circle, as numbers and as bit vectors. -/
theorem sub_lt_half {n : Nat} (a b : BitVec (n + 1)) :
    a - b < BitVec.ofNat (n + 1) (2 ^ n) ↔ (a.toNat + 2 ^ (n + 1) - b.toNat) % 2 ^ (n + 1) < 2 ^ n := by
  have half : 2 ^ n % 2 ^ (n + 1) = 2 ^ n := Nat.mod_eq_of_lt (Nat.pow_lt_pow_right (by decide) (Nat.lt_succ_self n))
  have order : 2 ^ (n + 1) - b.toNat + a.toNat = a.toNat + 2 ^ (n + 1) - b.toNat := by
    have := b.isLt; omega
  rw [BitVec.lt_def, BitVec.toNat_sub, BitVec.toNat_ofNat, half, order]

section
variable {base stn : Nat} {tgt : BitVec 64} {m : Mach}

/-! The timebase as a variable: with the numeral itself the kernel evaluates the whole match. -/

theorem baseReached_tick (h : base = 0) : baseReached base stn tgt m = decide (tgt.toNat ≤ m.now) := by
  unfold baseReached
  split
  · rfl
  iterate 3 contradiction

theorem baseReached_ppc (h : base = 1) : baseReached base stn tgt m = ppcReached m.ppcNow (tgt.toNat % 2 ^ 48) := by
  unfold baseReached
  split
  · contradiction
  · rfl
  · contradiction
  · contradiction

theorem baseReached_stroke (h : base = 2) :
    baseReached base stn tgt m = cntReached (m.get (R.CLK_TB_STROKE stn)) (tgt.toNat % 2 ^ 32) := by
  unfold baseReached
  split
  · contradiction
  · contradiction
  · rfl
  · contradiction

theorem baseReached_line (h : base = 3) :
    baseReached base stn tgt m = cntReached (m.get (R.CLK_TB_LINE stn)) (tgt.toNat % 2 ^ 32) := by
  unfold baseReached
  split
  iterate 3 contradiction
  rfl

end

theorem ppcReached_iff (p t : Nat) : ppcReached p (t % 2 ^ 48) = true ↔ (p + 2 ^ 48 - t % 2 ^ 48) % 2 ^ 48 < 2 ^ 47 := by
  unfold ppcReached
  simp only [Nat.mod_mod, decide_eq_true_eq]

/-- A whole word read as a field. -/
theorem get_whole (m : Mach) {f : FRef} (hhi : f.hi = 31) (hlo : f.lo = 0) : m.get f = (m.word f.key).toNat := by
  rw [Mach.get, bitsOf, hhi, hlo, Nat.pow_zero, Nat.div_one]
  exact Nat.mod_eq_of_lt (m.word f.key).isLt

theorem reached_word (m : Mach) {f : FRef} (hhi : f.hi = 31) (hlo : f.lo = 0) (t : Nat) :
    cntReached (m.get f) (t % 2 ^ 32) = true ↔ ((m.word f.key).toNat + 2 ^ 32 - t % 2 ^ 32) % 2 ^ 32 < 2 ^ 31 := by
  rw [cntReached, get_whole m hhi hlo, Nat.mod_mod]
  exact decide_eq_true_iff

/-- Settles O26: the rule's own equations; the cycles of the synthesisers leave the timebases. -/
theorem timebasesAdvanceAndReach : Obligations.TimebasesAdvanceAndReach := by
  refine ⟨fun m => ?_, fun m => ?_, fun m stn tgt => ⟨?_, ?_, ?_, ?_⟩⟩
  · intro acc inc p n
    obtain ⟨low, high⟩ := trimOf_bounds m
    have frac := m.clk.tickFrac.isLt
    have pos : 0 ≤ acc := by show 0 ≤ (_ : Int) + _ + _; omega
    have bound : acc < 3 * 2 ^ 32 := by show (_ : Int) + _ + _ < _; omega
    have split_ : acc.toNat / 2 ^ 32 = inc := by show _ = (acc / 2 ^ 32).toNat; omega
    have clk := tickRule_clk m
    simp only [show ((m.clk.tickFrac.toNat : Int) + 2 ^ 32 + trimOf m).toNat / 2 ^ 32 = inc from split_] at clk
    refine ⟨?_, (congrArg Clk.tick clk :), ?_, (congrArg Clk.ppc clk :), (congrArg Clk.ppcFrac clk :)⟩
    · show (acc / 2 ^ 32).toNat ≤ 2
      omega
    · have tickFrac : n.clk.tickFrac = BitVec.ofNat 32 acc.toNat := (congrArg Clk.tickFrac clk :)
      rw [tickFrac, BitVec.toNat_ofNat]
      omega
  · intro a n
    have clk := tickAdvance_clk m
    have times : a.clk.tick = (tickAdvanced m).clk.tick ∧ a.clk.tickFrac = (tickAdvanced m).clk.tickFrac ∧
        a.clk.ppc = (tickAdvanced m).clk.ppc ∧ a.clk.ppcFrac = (tickAdvanced m).clk.ppcFrac ∧
        a.clk.cycles = (tickAdvanced m).clk.cycles :=
      ⟨(congrArg Clk.tick clk :), (congrArg Clk.tickFrac clk :), (congrArg Clk.ppc clk :), (congrArg Clk.ppcFrac clk :),
        (congrArg Clk.cycles clk :)⟩
    obtain ⟨tick, tickFrac, ppc, ppcFrac, cycles⟩ := times
    rw [tick, tickFrac, ppc, ppcFrac, cycles, tickAdvanced]
    by_cases osc : onOscillator m = true
    · simp only [n, osc, if_true]; exact ⟨rfl, rfl⟩
    · simp only [n, osc]
      refine ⟨rfl, ?_⟩
      cases sysRuns m <;> rfl
  · rw [baseReached_tick rfl]
    exact decide_eq_true_iff
  · rw [baseReached_ppc rfl, show (2 ^ 47 : BitVec 48) = BitVec.ofNat 48 (2 ^ 47) by decide]
    refine Iff.trans ?_ (sub_lt_half (n := 47) ..).symm
    rw [BitVec.truncate, BitVec.toNat_setWidth]
    exact ppcReached_iff ..
  · rw [baseReached_stroke rfl, show (2 ^ 31 : BitVec 32) = BitVec.ofNat 32 (2 ^ 31) by decide]
    refine Iff.trans ?_ (sub_lt_half (n := 31) ..).symm
    rw [BitVec.truncate, BitVec.toNat_setWidth]
    exact reached_word m rfl rfl _
  · rw [baseReached_line rfl, show (2 ^ 31 : BitVec 32) = BitVec.ofNat 32 (2 ^ 31) by decide]
    refine Iff.trans ?_ (sub_lt_half (n := 31) ..).symm
    rw [BitVec.truncate, BitVec.toNat_setWidth]
    exact reached_word m rfl rfl _

end Sys2Proof.Machine
end

section
/-! PROOFS. The latest fault, what any write of a register leaves alone, and one member of a run. -/

namespace Sys2Proof.Machine

/-! ## The latest fault -/

section
variable {src kind cls param : Nat} {sid : Sid} {s : State} {m : Mach}

/-- A fault of class 2 or 3, with no edge held, is the latest. -/
theorem last_raise (h2 : 2 ≤ cls) (h4 : cls ≠ 4) (held : m.heldEdges = []) :
    (raise src kind cls m sid param).flt.last.src = src ∧ (raise src kind cls m sid param).flt.last.kind = kind ∧
      (raise src kind cls m sid param).flt.last.cls = cls := by
  have last := (calm_raise src kind cls m sid param h4 (.inr held)).last
  rw [withLast_last _ _ h2] at last
  exact ⟨congrArg FltRec.src last, congrArg FltRec.kind last, congrArg FltRec.cls last⟩

/-- A fault of class 2 or 3 has been seen once it is raised on a machine that holds no more edges than the state. -/
theorem faulted_raise (h2 : 2 ≤ cls) (h4 : cls ≠ 4) (held : s.mach.heldEdges = [] → m.heldEdges = []) :
    s.faulted { s with mach := raise src kind cls m sid param } src kind cls := fun none_ => last_raise h2 h4 (held none_)

@[simp] theorem note_heldEdges (src kind param : Nat) (m : Mach) : (note src kind param m).heldEdges = m.heldEdges :=
  (calm_raise src kind 0 m 0 param (by decide) (.inl rfl)).heldEdges.trans (withLast_heldEdges ..)

end

/-! ## Writes of registers -/

section
variable {key : Nat} {w : Word} {m : Mach}

/-- The machine after differs at most in registers and staged values. -/
abbrev Stores (m m' : Mach) : Prop := m' = { m with regs := m'.regs, pend := m'.pend }

theorem Stores.trans {a b c : Mach} (h : Stores a b) (g : Stores b c) : Stores a c :=
  Eq.trans g (by rw [h])

theorem stores_applyKey (key : Nat) (mask : Word) (m : Mach) : Stores m (applyKey key mask m) := by
  simp only [applyKey]
  split <;> rfl

theorem stores_each {α : Type} {f : α → Mach → Mach} (h : ∀ a m, Stores m (f a m)) (l : List α) : ∀ m, Stores m (each l f m) := by
  induction l with
  | nil => exact fun _ => rfl
  | cons a l ih => exact fun m => (h a m).trans (ih _)

theorem stores_settlePend (m : Mach) : Stores m (settlePend m) := stores_each (fun _ _ => stores_applyKey ..) _ m

theorem stores_storeFld (key : Nat) (w : Word) (gov : Bool) (x : Mach × Bool) (f : Fld) :
    Stores x.1 (storeFld key w gov x f).1 := by
  simp only [storeFld]
  split
  · rfl
  · cases fldAcc key f x.1 <;> try rfl
    cases fldCls key f
    · rfl
    iterate 6 cases gov <;> rfl

theorem stores_storeFlds (fs : List Fld) (key : Nat) (w : Word) (gov : Bool) :
    ∀ x : Mach × Bool, Stores x.1 (fs.foldl (storeFld key w gov) x).1 := by
  induction fs with
  | nil => exact fun _ => rfl
  | cons f fs ih => exact fun x => (stores_storeFld key w gov x f).trans (ih _)

/-- A write of a register: registers and staged values, and a note where a locked field refused. -/
theorem storeFields_stores (key : Nat) (w : Word) (m : Mach) :
    ∃ m1, Stores m m1 ∧ (storeFields key w m = m1 ∨ storeFields key w m = regNote 0x3A key m1) := by
  simp only [storeFields]
  split
  · exact ⟨m, rfl, .inl rfl⟩
  next d _ _ =>
    refine ⟨_, (stores_storeFlds d.flds key w (govOn key m) (m, false)).trans (stores_settlePend _), ?_⟩
    rw [when]
    split
    · exact .inr rfl
    · exact .inl rfl

@[simp] theorem storeFields_sheets (key : Nat) (w : Word) (m : Mach) : (storeFields key w m).sheets = m.sheets := by
  obtain ⟨m1, stores, e | e⟩ := storeFields_stores key w m
  · rw [e, stores]
  · rw [e, regNote, note_sheets, stores]

@[simp] theorem storeFields_clk (key : Nat) (w : Word) (m : Mach) : (storeFields key w m).clk = m.clk := by
  obtain ⟨m1, stores, e | e⟩ := storeFields_stores key w m
  · rw [e, stores]
  · rw [e, regNote, (ripples_note ..).clk, stores]

end

/-! ## Fields of a unit's registers: bits that are compared by computation, also where the unit is a variable -/

section
variable {f g : FRef} {v : Nat} {m : Mach}

/-- The field's bits lie in a word, in order. -/
def FRef.sound (f : FRef) : Bool := f.hi < 32 && f.lo ≤ f.hi

/-- Two fields of one register share no bit. -/
def FRef.bitsApart (f g : FRef) : Bool := f.sound && g.lo ≤ g.hi && (g.hi < f.lo || f.hi < g.lo)

theorem FRef.apart_of_bits (h : f.bitsApart g = true) : f.apart g := by
  simp only [FRef.bitsApart, FRef.sound, Bool.and_eq_true, Bool.or_eq_true, decide_eq_true_eq] at h
  exact .inr ⟨h.1.1.1, h.1.1.2, h.1.2, h.2⟩

theorem Mach.get_set_bits (h : f.bitsApart g = true) (v : Nat) (m : Mach) : (m.set f v).get g = m.get g :=
  m.get_set_of_apart (FRef.apart_of_bits h) v

theorem Mach.on_set_bits (h : f.bitsApart g = true) (v : Nat) (m : Mach) : (m.set f v).on g = m.on g :=
  m.on_set_of_apart (FRef.apart_of_bits h) v

theorem Mach.get_set_self (h : f.sound = true) (v : Nat) (m : Mach) : (m.set f v).get f = v % 2 ^ (f.hi + 1 - f.lo) := by
  simp only [FRef.sound, Bool.and_eq_true, decide_eq_true_eq] at h
  exact m.get_set_same f v h.1 h.2

theorem Mach.get_set_val (h : f.sound = true) (fits : v < 2 ^ (f.hi + 1 - f.lo)) (m : Mach) : (m.set f v).get f = v :=
  (Mach.get_set_self h v m).trans (Nat.mod_eq_of_lt fits)

/-- A flag that is set reads back. -/
theorem Mach.on_set_flag (h : f.sound = true) (one : f.hi = f.lo) (b : Bool) (m : Mach) : (m.set f (b2n b)).on f = b := by
  have width : f.hi + 1 - f.lo = 1 := by omega
  rw [Mach.on, Mach.get_set_self h, width]
  cases b <;> rfl

end

/-! ## One member of a run -/

/-- In a run over a list without repetition, what a member makes of its own part stands when the others leave it alone. -/
theorem each_at {α β : Type} {f : α → Mach → Mach} {p : Mach → β} {u v : β} {a : α} {l : List α} (nodup : l.Nodup)
    (mem : a ∈ l) (here : ∀ m, p m = u → p (f a m) = v) (others : ∀ b ∈ l, b ≠ a → ∀ m, p (f b m) = p m) :
    ∀ m, p m = u → p (each l f m) = v := by
  induction l with
  | nil => cases mem
  | cons b l ih =>
    intro m hm
    obtain ⟨fresh, nodup⟩ := List.nodup_cons.1 nodup
    by_cases e : b = a
    · subst e
      exact (each_keeps l (fun c hc => others c (List.mem_cons_of_mem _ hc) fun e => fresh (e ▸ hc)) _).trans (here m hm)
    · exact ih nodup (by simpa [Ne.symm e] using mem) (fun c hc => others c (List.mem_cons_of_mem _ hc)) _
        ((others b List.mem_cons_self e m).trans hm)

end Sys2Proof.Machine
end

section
/-! PROOFS. Synthesisers (O27), loss and return of REFCLK, PPC rate and watchdog (O28). -/

namespace Sys2Proof.Machine

/-! ## Synthesiser states -/

section
variable {k st : Nat} {m : Mach}

@[simp] theorem syn_setSyn_same (k : Nat) (y : Syn) (m : Mach) : (m.setSyn k y).syn k = y := tget_tput_same ..

theorem syn_setSyn_ne {j : Nat} (h : j ≠ k) (y : Syn) (m : Mach) : (m.setSyn k y).syn j = m.syn j := tget_tput_ne _ _ h _

/-- The register with the state and the flags of a synthesiser. -/
def synStat (k : Nat) : Nat := 0x010110 + 0x20 * k

/-- The flags of Table 2.5 that follow a synthesiser's state. -/
def synFlags (k st : Nat) (m : Mach) : Mach :=
  (((m.set (R.CLK_SYN_STAT_STATE k) st).set (R.CLK_SYN_STAT_LOCK k) (b2n (st == synLocked))).set
    (R.CLK_SYN_STAT_COAST k) (b2n (st == synCoast || st == synReacq))).set (R.CLK_SYN_STAT_GATED k) (b2n (st == synGated))

theorem slotHits_lt {regs : Tab Word} {off n : Nat} {p : Word → Bool} (h : n ∈ slotHits regs off p) : n < 96 := by
  obtain ⟨⟨key, w⟩, -, hit⟩ := List.mem_filterMap.1 h
  dsimp only at hit
  split at hit
  next range => cases hit; omega
  next => cases hit

/-- Discarding pending runs writes the slots' STAT alone. -/
theorem shedPending_word {key : Nat} (hk : key < 0x0E0000) (m : Mach) : (shedPending m).word key = m.word key := by
  rw [shedPending]
  split
  · exact each_keeps (p := fun m => m.word key) _
      (fun n _ m => m.word_set_ne (by simp only [R.SCL_SLOT_STAT_PEND]; omega) _) m
  · rfl

/-- What a change of a synthesiser's state does not reach. -/
theorem shedPending_eq (m : Mach) : shedPending m = { m with regs := (shedPending m).regs } := by
  have all (l : List Nat) : ∀ m : Mach, each l (fun n m => m.set (R.SCL_SLOT_STAT_PEND n) 0) m =
      { m with regs := (each l (fun n m => m.set (R.SCL_SLOT_STAT_PEND n) 0) m).regs } := by
    induction l with
    | nil => exact fun _ => rfl
    | cons a l ih => exact fun m => ih _
  rw [shedPending]
  split
  · exact all _ m
  · rfl

theorem synTo_word {key : Nat} (hk : key < 0x0E0000) (ne : key ≠ synStat k) (m : Mach) : (synTo k st m).word key = m.word key := by
  have flags : (synFlags k st m).word key = m.word key := by
    rw [synFlags]
    iterate 4 rw [Mach.word_set_ne _ ne]
  unfold synTo
  extract_lets m1 y y1 y2 m2
  rw [when]
  split
  · rw [shedPending_word hk, Mach.word_set_ne _ (by simp only [R.SCL_STAT_FALLBK]; omega)]
    exact flags
  · exact flags

/-- A field of the synthesiser's STAT after a change of its state. -/
theorem synTo_stat {f : FRef} (hf : f.key = synStat k) (hk : k < 7) (m : Mach) : (synTo k st m).get f = (synFlags k st m).get f := by
  have small : f.key < 0x0E0000 := by rw [hf, synStat]; omega
  unfold synTo
  extract_lets m1 y y1 y2 m2
  rw [when]
  split
  · rw [get_of_word (shedPending_word small _), Mach.get_set_ne _ (by simp only [R.SCL_STAT_FALLBK]; omega)]
    rfl
  · rfl

theorem synTo_state (hk : k < 7) (hst : st < 8) (m : Mach) : (synTo k st m).get (R.CLK_SYN_STAT_STATE k) = st := by
  rw [synTo_stat rfl hk, synFlags]
  iterate 3 rw [Mach.get_set_bits rfl]
  exact Mach.get_set_val rfl hst _

theorem synTo_lock (hk : k < 7) (m : Mach) : (synTo k st m).on (R.CLK_SYN_STAT_LOCK k) = (st == synLocked) := by
  rw [Mach.on, synTo_stat rfl hk, synFlags]
  iterate 2 rw [Mach.get_set_bits rfl]
  exact Mach.on_set_flag rfl rfl _ _

theorem synTo_gated (hk : k < 7) (m : Mach) : (synTo k st m).on (R.CLK_SYN_STAT_GATED k) = (st == synGated) := by
  rw [Mach.on, synTo_stat rfl hk, synFlags]
  exact Mach.on_set_flag rfl rfl _ _

theorem synTo_losscnt (hk : k < 7) (m : Mach) :
    (synTo k st m).get (R.CLK_SYN_STAT_LOSSCNT k) = m.get (R.CLK_SYN_STAT_LOSSCNT k) := by
  rw [synTo_stat rfl hk, synFlags]
  iterate 4 rw [Mach.get_set_bits rfl]

/-- A change of a synthesiser's state writes registers and its unseen state. -/
theorem synTo_eq (k st : Nat) (m : Mach) :
    synTo k st m = { m with regs := (synTo k st m).regs, clk := { m.clk with syn := (synTo k st m).clk.syn } } := by
  unfold synTo
  extract_lets m1 y y1 y2 m2
  rw [when]
  split
  · rw [shedPending_eq]; rfl
  · rfl

@[simp] theorem synTo_sheets (k st : Nat) (m : Mach) : (synTo k st m).sheets = m.sheets := by rw [synTo_eq]
@[simp] theorem synTo_heldEdges (k st : Nat) (m : Mach) : (synTo k st m).heldEdges = m.heldEdges := by rw [synTo_eq]

theorem synTo_syn_ne {j : Nat} (h : j ≠ k) (m : Mach) : (synTo k st m).syn j = m.syn j := by
  unfold synTo
  extract_lets m1 y y1 y2 m2
  have here : m2.syn j = m.syn j := syn_setSyn_ne h ..
  rw [when]
  split
  · rw [shedPending_eq]; exact here
  · exact here

/-- Only the entry to LOCKED takes up F. -/
theorem synTo_locked_syn (k : Nat) (m : Mach) :
    ((synTo k synLocked m).syn k).fUsed = m.get (R.CLK_SYN_F k) := by
  have f : (synFlags k synLocked m).get (R.CLK_SYN_F k) = m.get (R.CLK_SYN_F k) := by
    rw [synFlags]
    iterate 4 rw [Mach.get_set_ne _ (by simp [R.CLK_SYN_F, R.CLK_SYN_STAT_STATE, R.CLK_SYN_STAT_LOCK, R.CLK_SYN_STAT_COAST, R.CLK_SYN_STAT_GATED])]
  unfold synTo
  extract_lets m1 y y1 y2 m2
  have here : (m2.syn k).fUsed = m.get (R.CLK_SYN_F k) := (congrArg Syn.fUsed (syn_setSyn_same ..)).trans f
  rw [when]
  split
  · rw [shedPending_eq]; exact here
  · exact here

end

/-! ## Enable and disable -/

section
variable {q : Requester} {k : Nat} {v : Word} {m : Mach}

theorem enBit_withBits (b : Nat) (hb : b < 2) (v : Word) : (R.CLK_SYN_CFG_EN k).of (withBits v 0 0 b) = b :=
  (bitsOf_withBits_same v b (by decide) (by decide)).trans (Nat.mod_eq_of_lt hb)

theorem synCfgWrite_enables (hk : k ≠ 0) (off : m.on (R.CLK_SYN_CFG_EN k) = false) :
    synCfgWrite k (withBits v 0 0 1) m = synTo k synAcquire (storeFields (R.CLK_SYN_CFG_EN k).key (withBits v 0 0 1) m) := by
  simp only [synCfgWrite, off, enBit_withBits 1 (by decide)]
  rw [if_neg (by simp), if_neg hk]
  rfl

/-- What keeps a synthesiser enabled: memory in use, or a station that is exposing. -/
def synHeld (k : Nat) (m : Mach) : Bool := (k == 1 && domUp 9 m) || (2 ≤ k && stationBusy (k - 2) m)

theorem synHeld_iff : synHeld k m = true ↔ k = 1 ∧ domUp 9 m = true ∨ 2 ≤ k ∧ stationBusy (k - 2) m = true := by
  simp [synHeld]

theorem synCfgWrite_disables (hk : k ≠ 0) (on_ : m.on (R.CLK_SYN_CFG_EN k) = true) (free : synHeld k m = false) :
    synCfgWrite k (withBits v 0 0 0) m = synTo k synOff (storeFields (R.CLK_SYN_CFG_EN k).key (withBits v 0 0 0) m) := by
  simp only [synHeld] at free
  simp only [synCfgWrite, on_, enBit_withBits 0 (by decide), free]
  rw [if_neg (by decide), if_neg hk]
  rfl

theorem synCfgWrite_held (on_ : m.on (R.CLK_SYN_CFG_EN k) = true) (held : synHeld k m = true) :
    synCfgWrite k (withBits v 0 0 0) m = ignored (R.CLK_SYN_CFG_EN k).key m := by
  simp only [synHeld] at held
  simp only [synCfgWrite, on_, enBit_withBits 0 (by decide), held]
  rfl

end

/-! ## Lock and its loss -/

section
variable {k : Nat} {m : Mach} {f : FRef}

theorem synStat_ripple (hk : k < 7) (hf : f.key = synStat k) : ¬rippleKey f.key := by
  simp only [hf, rippleKey, synStat, List.mem_cons, List.not_mem_nil, or_false]; omega

/-- The STAT of a synthesiser outlasts faults of class 1 to 3. -/
theorem raise_stat (hk : k < 7) (hf : f.key = synStat k) {src kind cls : Nat} (h4 : cls ≠ 4) (sid : Sid) (m : Mach) :
    (raise src kind cls m sid).get f = m.get f := (ripples_raise h4).get' (synStat_ripple hk hf)

theorem raises_stat (hk : k < 7) (hf : f.key = synStat k) {src kind cls : Nat} (h4 : cls ≠ 4) (l : List Nat) (m : Mach) :
    (each l (fun r m => raise src kind cls m (m.sheet r).sid) m).get f = m.get f :=
  each_keeps (p := fun m => m.get f) l (fun _ _ m => raise_stat hk hf h4 _ m) m

/-- The machine after differs at most in the sheet records. -/
abbrev SheetsOnly (m m' : Mach) : Prop := m' = { m with sheets := m'.sheets }

theorem SheetsOnly.trans {a b c : Mach} (h : SheetsOnly a b) (g : SheetsOnly b c) : SheetsOnly a c :=
  Eq.trans g (by rw [h])

theorem sheetsOnly_each {α : Type} {f : α → Mach → Mach} (h : ∀ a m, SheetsOnly m (f a m)) (l : List α) :
    ∀ m, SheetsOnly m (each l f m) := by
  induction l with
  | nil => exact fun _ => rfl
  | cons a l ih => exact fun m => (h a m).trans (ih _)

theorem suspectSheets_eq (s : Nat) (m : Mach) : SheetsOnly m (suspectSheets s m) := by
  refine sheetsOnly_each (fun r m => ?_) _ m
  dsimp only
  split <;> rfl

theorem suspectSheets_get (s : Nat) (m : Mach) (f : FRef) : (suspectSheets s m).get f = m.get f := by
  rw [suspectSheets_eq]; rfl

theorem mainLoss_stat (hk : k < 7) (hf : f.key = synStat k) (m : Mach) :
    (mainLoss k m).get f = (synTo k synGated m).get f := by
  have small : f.key < 0x0A0000 := by rw [hf, synStat]; omega
  simp only [mainLoss]
  rw [raise_stat hk hf (by decide), raises_stat hk hf (by decide)]
  show (when _ (fun m => m.set R.DRC_STAT_SELFREF 1) (synTo k synGated m)).get f = _
  rw [when]
  split
  · exact Mach.get_set_ne _ (by simp only [R.DRC_STAT_SELFREF]; omega) _
  · rfl

theorem pixGate_stat (hk : k < 7) (hf : f.key = synStat k) (m : Mach) :
    (pixGate k m).get f = (synTo k synGated m).get f := raises_stat hk hf (by decide) _ _

theorem pixCoast_stat (hk : k < 7) (hf : f.key = synStat k) (m : Mach) :
    (pixCoast k m).get f = (synTo k synCoast (m.setSyn k { m.syn k with coastRef := false })).get f :=
  (suspectSheets_get ..).trans (raise_stat hk hf (by decide) ..)

/-- The state that a loss of lock leads to: a coast where a station is exposing. -/
def lossState (k : Nat) (m : Mach) : Nat := if 2 ≤ k ∧ stationBusy (k - 2) m = true then 3 else 5

/-- A loss of lock counts in LOSSCNT and leads to a state that is not LOCKED. -/
theorem lockLoss_stat (hk : k < 7) (m : Mach) : (lockLoss k m).get (R.CLK_SYN_STAT_STATE k) = lossState k m ∧
    (lockLoss k m).on (R.CLK_SYN_STAT_LOCK k) = false ∧
    (lockLoss k m).get (R.CLK_SYN_STAT_LOSSCNT k) = min (m.get (R.CLK_SYN_STAT_LOSSCNT k) + 1) 255 := by
  have count : (m.incSat (R.CLK_SYN_STAT_LOSSCNT k)).get (R.CLK_SYN_STAT_LOSSCNT k) =
      min (m.get (R.CLK_SYN_STAT_LOSSCNT k) + 1) 255 :=
    Mach.get_set_val rfl (show min _ 255 < 256 by omega) m
  have reads {n : Mach} {st : Nat} (hst : st < 8) (ne : st ≠ synLocked) {m' : Mach}
      (cnt : m'.get (R.CLK_SYN_STAT_LOSSCNT k) = min (m.get (R.CLK_SYN_STAT_LOSSCNT k) + 1) 255)
      (same : ∀ {f : FRef}, f.key = synStat k → n.get f = (synTo k st m').get f) :
      n.get (R.CLK_SYN_STAT_STATE k) = st ∧ n.on (R.CLK_SYN_STAT_LOCK k) = false ∧
        n.get (R.CLK_SYN_STAT_LOSSCNT k) = min (m.get (R.CLK_SYN_STAT_LOSSCNT k) + 1) 255 := by
    refine ⟨(same rfl).trans (synTo_state hk hst _), ?_, (same rfl).trans ((synTo_losscnt hk _).trans cnt)⟩
    rw [Mach.on, same rfl]
    exact (synTo_lock hk _).trans (beq_eq_false_iff_ne.2 ne)
  have busy : stationBusy (k - 2) (m.incSat (R.CLK_SYN_STAT_LOSSCNT k)) = stationBusy (k - 2) m := rfl
  unfold lockLoss lossState
  extract_lets m1
  rw [show stationBusy (k - 2) m1 = stationBusy (k - 2) m from busy]
  have count : m1.get (R.CLK_SYN_STAT_LOSSCNT k) = min (m.get (R.CLK_SYN_STAT_LOSSCNT k) + 1) 255 := count
  clear_value m1
  split
  next two =>
    rw [if_neg (by omega)]
    exact reads (by decide) (by decide) count fun hf => mainLoss_stat hk hf _
  next two =>
    have two : 2 ≤ k := by omega
    simp only [two, true_and]
    split
    · exact reads (m' := m1.setSyn k { m1.syn k with coastRef := false }) (by decide) (by decide) count
        fun hf => pixCoast_stat hk hf _
    · exact reads (by decide) (by decide) count fun hf => pixGate_stat hk hf _

/-- The machine with synthesiser k LOCKED, and the DRAM to be trained again after a loss that gated MEMPLL. -/
theorem opSynthLock_eq (st : m.get (R.CLK_SYN_STAT_STATE k) = 1 ∨ m.get (R.CLK_SYN_STAT_STATE k) = 4 ∨ m.get (R.CLK_SYN_STAT_STATE k) = 5)
    (ref : m.clk.refclk = true) (settable : synSettable k m = true) : ∃ c, opSynthLock k m = when c (fun m =>
      { (m.set R.DRC_STAT_TRAINED 0).set R.DRC_STAT_RTDUE 0 with dram := { m.dram with retrain := false } }) (synTo k synLocked m) := by
  have cond : ((m.get (R.CLK_SYN_STAT_STATE k) == synAcquire || m.get (R.CLK_SYN_STAT_STATE k) == synGated ||
      m.get (R.CLK_SYN_STAT_STATE k) == synReacq) && m.clk.refclk && synSettable k m) = true := by
    rw [ref, settable]
    rcases st with e | e | e <;> rw [e] <;> rfl
  exact ⟨_, if_pos cond⟩

end

/-- Settles O27: each command is the branch that its hypotheses choose; the flags follow the state. -/
theorem synthesiserStates : Obligations.SynthesiserStates := by
  intro q k v s okq has m st key held
  have hk : k < 7 := by
    have five := nStn_le s.mach
    have := of_decide_eq_true (show decide (k < synCount s.mach) = true from has)
    simp only [synCount] at this; omega
  have inRange : (okReq q && decide (k < 7)) = true := by simp [okq, hk]
  refine ⟨fun lets nz off => ?_, fun lets nz on_ free => ?_, fun lets on_ isHeld => ?_, fun state ref settable => ?_,
    fun locked calm => ?_, fun u ramp due => ?_⟩
  · have run := acts_to (acts_guarded (onUnit_of inRange (opSynthEnable q k v) s) lets) (synCfgWrite_enables nz off)
    exact ⟨_, run, synTo_state hk (by decide) _, (synTo_lock hk _).trans rfl, (synTo_sheets ..).trans (storeFields_sheets ..)⟩
  · have free_ : synHeld k m = false := by
      rw [← Bool.not_eq_true, synHeld_iff]; exact free
    have run := acts_to (acts_guarded (onUnit_of inRange (opSynthDisable q k v) s) lets) (synCfgWrite_disables nz on_ free_)
    exact ⟨_, run, synTo_state hk (by decide) _, (synTo_lock hk _).trans rfl, (synTo_sheets ..).trans (storeFields_sheets ..)⟩
  · exact (acts_guarded (onUnit_of inRange (opSynthDisable q k v) s) lets).trans
      (congrArg _ (onMach_congr (synCfgWrite_held on_ (synHeld_iff.2 isHeld))))
  · obtain ⟨c, eff⟩ := opSynthLock_eq state ref settable
    have kept {f : FRef} (hf : f.key = synStat k) (m : Mach) : (when c (fun m : Mach =>
        { (m.set R.DRC_STAT_TRAINED 0).set R.DRC_STAT_RTDUE 0 with dram := { m.dram with retrain := false } }) m).get f = m.get f := by
      rw [when]
      split
      · have small : f.key < 0x0A0000 := by rw [hf, synStat]; omega
        show ((m.set R.DRC_STAT_TRAINED 0).set R.DRC_STAT_RTDUE 0).get f = _
        rw [Mach.get_set_ne _ (by simp only [R.DRC_STAT_RTDUE]; omega), Mach.get_set_ne _ (by simp only [R.DRC_STAT_TRAINED]; omega)]
      · rfl
    refine ⟨_, acts_to (onUnit_of has (opSynthLock k) s) eff, (kept rfl _).trans (synTo_state hk (by decide) _), ?_, ?_, ?_⟩
    · rw [Mach.on, kept rfl]; exact (synTo_lock hk _).trans rfl
    · rw [Mach.on, kept rfl]; exact (synTo_gated hk _).trans rfl
    · refine Eq.trans ?_ (synTo_locked_syn k m)
      simp only [when]
      split <;> rfl
  · have cond : (m.get (R.CLK_SYN_STAT_STATE k) == synLocked && !synRamping k m) = true := by
      rw [show m.get (R.CLK_SYN_STAT_STATE k) = 2 from locked, calm]; rfl
    exact ⟨_, acts_to (onUnit_of has (opSynthLockLoss k) s) (if_pos cond), lockLoss_stat hk m⟩
  · refine (onUnit_of has (opSynthRampEnd k) s).trans (congrArg _ (onMach_congr ?_))
    simp only [opSynthRampEnd, show (s.mach.syn k).rampEnd = some u from ramp]
    exact if_pos due

end Sys2Proof.Machine
end

section
/-! PROOFS. Loss and return of REFCLK, clock-loss drains, PPC rate and watchdog (O28). -/

namespace Sys2Proof.Machine

section
variable {k : Nat} {m : Mach}

/-! ## REFCLK -/

/-- What the loss of REFCLK makes of a synthesiser: one that runs coasts. -/
def coastOnLoss (k : Nat) (m : Mach) : Mach :=
  let st := m.get (R.CLK_SYN_STAT_STATE k)
  if st == synLocked || st == synReacq then
    let m := synTo k synCoast (m.setSyn k { m.syn k with coastRef := true })
    if 2 ≤ k then suspectSheets (k - 2) m else m
  else m

/-- What its return makes of one that coasts for it. -/
def reacquire (k : Nat) (m : Mach) : Mach :=
  if m.get (R.CLK_SYN_STAT_STATE k) == synCoast && (m.syn k).coastRef then synTo k synReacq m else m

/-- The machine whose clocks run without REFCLK, before the fault. -/
def refclkLost (m : Mach) : Mach :=
  (((each (List.range (synCount m)) coastOnLoss { m with clk := { m.clk with refclk := false } }).set
    R.CLK_STATUS_REFOK 0).set R.CLK_STATUS_ONOSC 1).set R.CLK_STATUS_TICKCOAST 1

theorem opRefclkLoss_eq (h : m.clk.refclk = true) : opRefclkLoss m = raise 0x017 0x04 3 (refclkLost m) :=
  if_neg (by rw [h]; decide)

/-- The machine with REFCLK back, before the synthesisers reacquire it. -/
def refclkBack (m : Mach) : Mach :=
  ((({ m with clk := { m.clk with refclk := true } } : Mach).set R.CLK_STATUS_REFOK 1).set R.CLK_STATUS_ONOSC 0).set
    R.CLK_STATUS_TICKCOAST 0

theorem opRefclkReturn_eq (m : Mach) : opRefclkReturn m = each (List.range (synCount m)) reacquire (refclkBack m) := rfl

theorem coastOnLoss_word {key : Nat} (hk : key < 0x0E0000) (ne : key ≠ synStat k) (m : Mach) :
    (coastOnLoss k m).word key = m.word key := by
  have coast : (synTo k synCoast (m.setSyn k { m.syn k with coastRef := true })).word key = m.word key := synTo_word hk ne _
  simp only [coastOnLoss]
  split
  · split
    · rw [suspectSheets_eq]; exact coast
    · exact coast
  · rfl

theorem coastOnLoss_state (hk : k < 7) (h : m.get (R.CLK_SYN_STAT_STATE k) = 2) :
    (coastOnLoss k m).get (R.CLK_SYN_STAT_STATE k) = 3 := by
  have coast : (synTo k synCoast (m.setSyn k { m.syn k with coastRef := true })).get (R.CLK_SYN_STAT_STATE k) = 3 :=
    synTo_state hk (by decide) _
  simp only [coastOnLoss, h]
  split
  · split
    · rw [suspectSheets_get]; exact coast
    · exact coast
  · contradiction

theorem coastOnLoss_refclk (k : Nat) (m : Mach) : (coastOnLoss k m).clk.refclk = m.clk.refclk := by
  have coast : (synTo k synCoast (m.setSyn k { m.syn k with coastRef := true })).clk.refclk = m.clk.refclk := by
    rw [synTo_eq]; rfl
  simp only [coastOnLoss]
  split
  · split
    · rw [suspectSheets_eq]; exact coast
    · exact coast
  · rfl

theorem coastOnLoss_heldEdges (k : Nat) (m : Mach) : (coastOnLoss k m).heldEdges = m.heldEdges := by
  have coast : (synTo k synCoast (m.setSyn k { m.syn k with coastRef := true })).heldEdges = m.heldEdges := synTo_heldEdges ..
  simp only [coastOnLoss]
  split
  · split
    · rw [suspectSheets_eq]; exact coast
    · exact coast
  · rfl

theorem refclkLost_state (hk : k < synCount m) (seven : k < 7) (h : m.get (R.CLK_SYN_STAT_STATE k) = 2) :
    (refclkLost m).get (R.CLK_SYN_STAT_STATE k) = 3 := by
  rw [refclkLost]
  iterate 3 rw [Mach.get_set_ne _ (by simp only [R.CLK_SYN_STAT_STATE, R.CLK_STATUS_REFOK, R.CLK_STATUS_ONOSC, R.CLK_STATUS_TICKCOAST]; omega)]
  refine each_at (p := fun m => m.get (R.CLK_SYN_STAT_STATE k)) List.nodup_range (List.mem_range.2 hk)
    (fun m => coastOnLoss_state seven) (fun j _ ne m => get_of_word (coastOnLoss_word ?_ ?_ m)) _ h
  · simp only [R.CLK_SYN_STAT_STATE]; omega
  · simp only [R.CLK_SYN_STAT_STATE, synStat]; omega

theorem refclkLost_refclk (m : Mach) : (refclkLost m).clk.refclk = false :=
  each_keeps (p := fun m => m.clk.refclk) _ (fun k _ m => coastOnLoss_refclk k m) _

theorem refclkLost_heldEdges (m : Mach) : (refclkLost m).heldEdges = m.heldEdges :=
  each_keeps (p := Mach.heldEdges) _ (fun k _ m => coastOnLoss_heldEdges k m) _

/-- The flags of CLK_STATUS once three of them have been written. -/
theorem status_flags (a b c : Bool) (m : Mach) :
    let n := ((m.set R.CLK_STATUS_REFOK (b2n a)).set R.CLK_STATUS_ONOSC (b2n b)).set R.CLK_STATUS_TICKCOAST (b2n c)
    n.on R.CLK_STATUS_REFOK = a ∧ n.on R.CLK_STATUS_ONOSC = b ∧ n.on R.CLK_STATUS_TICKCOAST = c := by
  intro n
  refine ⟨?_, ?_, Mach.on_set_flag rfl rfl ..⟩
  · rw [Mach.on_set_bits rfl, Mach.on_set_bits rfl]
    exact Mach.on_set_flag rfl rfl ..
  · rw [Mach.on_set_bits rfl]
    exact Mach.on_set_flag rfl rfl ..

theorem reacquire_word {key : Nat} (hk : key < 0x0E0000) (ne : key ≠ synStat k) (m : Mach) :
    (reacquire k m).word key = m.word key := by
  rw [reacquire]
  split
  · exact synTo_word hk ne _
  · rfl

theorem reacquire_syn_ne {j : Nat} (h : j ≠ k) (m : Mach) : (reacquire k m).syn j = m.syn j := by
  rw [reacquire]
  split
  · exact synTo_syn_ne h m
  · rfl

theorem reacquire_refclk (k : Nat) (m : Mach) : (reacquire k m).clk.refclk = m.clk.refclk := by
  rw [reacquire]
  split
  · rw [synTo_eq]
  · rfl

theorem synTo_coastRef (k st : Nat) (m : Mach) : ((synTo k st m).syn k).coastRef = (m.syn k).coastRef := by
  unfold synTo
  extract_lets m1 y y1 y2 m2
  have first : y1.coastRef = (m.syn k).coastRef := by simp only [y1]; split <;> rfl
  have second : y2.coastRef = y1.coastRef := by simp only [y2]; split <;> rfl
  have here : (m2.syn k).coastRef = (m.syn k).coastRef := (congrArg Syn.coastRef (syn_setSyn_same ..)).trans (second.trans first)
  rw [when]
  split
  · rw [shedPending_eq]; exact here
  · exact here

theorem reacquire_state (hk : k < 7) (coast : m.get (R.CLK_SYN_STAT_STATE k) = 3) (ref : (m.syn k).coastRef = true) :
    (reacquire k m).get (R.CLK_SYN_STAT_STATE k) = 4 ∧ ((reacquire k m).syn k).coastRef = true := by
  rw [reacquire, if_pos (by rw [coast, ref]; rfl), synTo_coastRef]
  exact ⟨synTo_state hk (by decide) _, ref⟩

/-- Once REFCLK is back, a synthesiser that coasted for it reacquires. -/
theorem reacquires_state (hk : k < synCount m) (seven : k < 7) (st : m.get (R.CLK_SYN_STAT_STATE k) = 3)
    (ref : (m.syn k).coastRef = true) :
    (each (List.range (synCount m)) reacquire (refclkBack m)).get (R.CLK_SYN_STAT_STATE k) = 4 := by
  have back : (refclkBack m).get (R.CLK_SYN_STAT_STATE k) = 3 := by
    rw [refclkBack]
    iterate 3 rw [Mach.get_set_ne _ (by simp only [R.CLK_SYN_STAT_STATE, R.CLK_STATUS_REFOK, R.CLK_STATUS_ONOSC, R.CLK_STATUS_TICKCOAST]; omega)]
    exact st
  have pair := each_at (p := fun m : Mach => (m.get (R.CLK_SYN_STAT_STATE k), (m.syn k).coastRef)) (u := (3, true))
    (v := (4, true)) (f := reacquire) List.nodup_range (List.mem_range.2 hk)
    (fun m h => by
      obtain ⟨st, ref⟩ := Prod.mk.inj h
      obtain ⟨st', ref'⟩ := reacquire_state seven st ref
      rw [st', ref'])
    (fun j _ ne m => by
      rw [reacquire_syn_ne (Ne.symm ne), get_of_word (reacquire_word (by simp only [R.CLK_SYN_STAT_STATE]; omega)
        (by simp only [R.CLK_SYN_STAT_STATE, synStat]; omega) m)])
    (refclkBack m) (Prod.ext back ref)
  exact (Prod.mk.inj pair).1

/-! ## Watchdog -/

/-- A catch with all that follows. -/
theorem ripples_opCatch (r : Nat) (m : Mach) : Ripples False m (opCatch r m) := by
  simp only [opCatch]
  split
  · exact (((((ripples_setSheet ..).trans (ripples_sheetTo ..)).trans (ripples_sheetAdvance ..)).trans
      (ripples_settleEdges _)).trans (ripples_snapTry _))
  · exact Ripples.refl m

theorem opCatch_heldEdges (r : Nat) (held : m.heldEdges = []) : (opCatch r m).heldEdges = [] := by
  simp only [opCatch]
  split
  · have moved (x : Sheet) : (sheetAdvance r (sheetTo r .caught (m.setSheet r x))).heldEdges = [] :=
      (spares_sheetAdvance ..).heldEdges.trans ((sheetTo_heldEdges ..).trans held)
    rw [settleEdges_none (moved _)]
    exact (spares_snapTry _).heldEdges.trans (moved _)
  · exact held

theorem ripples_loseAll (src kind cls : Nat) (m : Mach) : Ripples False m (loseAll src kind cls m) :=
  ripples_each _ _ (fun _ _ _ => (ripples_setSheet ..).trans (ripples_sheetTo ..)) m

theorem loseAll_heldEdges (src kind cls : Nat) (m : Mach) : (loseAll src kind cls m).heldEdges = m.heldEdges :=
  each_keeps (p := Mach.heldEdges) _
    (fun r _ m => (sheetTo_heldEdges r .lost _).trans (Mach.setSheet_heldEdges m r _)) m

/-- PPC is no longer kept: the catches that are due come first, then every engaged sheet is lost. -/
def ppcLost (m : Mach) : Mach := loseAll 0x018 0x05 3 (catchesDue (m.set R.CLK_STATUS_PPCOK 0))

theorem ripples_ppcLost (m : Mach) : Ripples False (m.set R.CLK_STATUS_PPCOK 0) (ppcLost m) :=
  (ripples_each _ _ (fun r _ m => ripples_opCatch r m) _).trans (ripples_loseAll ..)

theorem ppcLost_heldEdges (held : m.heldEdges = []) : (ppcLost m).heldEdges = [] :=
  (loseAll_heldEdges ..).trans (each_preserves (P := fun m => m.heldEdges = []) (fun _ _ h => opCatch_heldEdges _ h) _ _ held)

theorem opPpcWatchdogExpire_due (ok : m.on R.CLK_STATUS_PPCOK = true)
    (due : m.clk.ppcWrite.toNat + m.get R.CLK_PPCWDOG ≤ m.now) :
    opPpcWatchdogExpire m = indivisible (fun m => raise 0x018 0x05 3 (ppcLost m)) m :=
  if_pos (by rw [ok, decide_eq_true due]; rfl)

/-- The freeze of snapshots around a step. -/
theorem ripples_snap (sn : Snap) (m : Mach) : Ripples False m { m with snap := sn } := by constructor <;> intros <;> rfl

end

/-- Settles O28: each command is the branch that its hypotheses choose; faults leave the clocks' registers. -/
theorem clockLossAndPpc : Obligations.ClockLossAndPpc := by
  intro q v s okq m
  have seven {k : Nat} (h : k < synCount m) : k < 7 := by
    have := nStn_le m
    simp only [synCount] at h; omega
  have low {f : FRef} (h : f.key < 0x020000) : ¬rippleKey f.key := by
    simp only [rippleKey, List.mem_cons, List.not_mem_nil, or_false]; omega
  refine ⟨fun ref => ?_, ?_, fun kind u rest drain => ⟨fun none_ => ?_, fun due => ?_⟩, fun lets => ?_, fun ok due => ?_⟩
  · have frame : Ripples False (refclkLost m) (raise 0x017 0x04 3 (refclkLost m)) := ripples_raise (by decide)
    obtain ⟨refok, onosc, coast⟩ := status_flags false true true
      (each (List.range (synCount m)) coastOnLoss { m with clk := { m.clk with refclk := false } })
    refine ⟨_, acts_to (onUnit_of rfl opRefclkLoss s) (opRefclkLoss_eq ref), ?_, ?_, ?_, ?_, ?_, fun k hk locked => ?_⟩
    · exact (congrArg Clk.refclk frame.clk).trans (refclkLost_refclk m)
    · exact (frame.on' (low (by decide))).trans refok
    · exact (frame.on' (low (by decide))).trans onosc
    · exact (frame.on' (low (by decide))).trans coast
    · exact faulted_raise (by decide) (by decide) fun held => (refclkLost_heldEdges m).trans held
    · have := seven hk
      exact (frame.get' (low (by simp only [R.CLK_SYN_STAT_STATE]; omega))).trans (refclkLost_state hk this locked)
  · obtain ⟨refok, onosc, coast⟩ := status_flags true false false { m with clk := { m.clk with refclk := true } }
    have kept {f : FRef} (hf : f.key = R.CLK_STATUS_REFOK.key) (n : Mach) :
        (each (List.range (synCount m)) reacquire n).on f = n.on f :=
      each_keeps (p := fun m => m.on f) _ (fun k _ m => by
        rw [Mach.on, get_of_word (reacquire_word (by rw [hf]; decide)
          (by rw [hf]; simp only [R.CLK_STATUS_REFOK, synStat]; omega) m), Mach.on]) n
    refine ⟨_, acts_to (onUnit_of rfl opRefclkReturn s) (opRefclkReturn_eq m), ?_, (kept rfl (refclkBack m)).trans refok,
      (kept (f := R.CLK_STATUS_ONOSC) rfl (refclkBack m)).trans onosc,
      (kept (f := R.CLK_STATUS_TICKCOAST) rfl (refclkBack m)).trans coast, fun k hk st ref => ?_⟩
    · exact each_keeps (p := fun m => m.clk.refclk) _ (fun k _ m => reacquire_refclk k m) (refclkBack m)
    · exact reacquires_state hk (seven hk) st ref
  · have eff : opClockLossDrainEnd m = drainFault kind m := by
      simp only [opClockLossDrainEnd, drain]
      exact if_pos none_
    refine ⟨_, acts_to (onUnit_of rfl opClockLossDrainEnd s) eff, faulted_raise (by decide) (by decide) id, ?_⟩
    exact congrArg Clk.drain (ripples_raise (by decide)).clk
  · have eff : opClockLossDrainTimeout m = drainFault kind m := by
      simp only [opClockLossDrainTimeout, drain]
      exact if_pos due
    refine ⟨_, acts_to (onUnit_of rfl opClockLossDrainTimeout s) eff, faulted_raise (by decide) (by decide) id, ?_⟩
    exact congrArg Clk.drain (ripples_raise (by decide)).clk
  · refine ⟨_, acts_to (acts_guarded (onUnit_of okq (opPpcrateWrite q v) s) lets) rfl, ?_, ?_, rfl, rfl⟩
    · exact (Mach.word_set_ne _ (by decide) _).trans (Mach.word_setWord_same ..)
    · exact Mach.on_set_flag (f := R.CLK_STATUS_PPCOK) rfl rfl true _
  · let frozen : Mach := { m with snap := { m.snap with frozen := true } }
    let fault := raise 0x018 0x05 3 (ppcLost frozen)
    have frame : Ripples False (frozen.set R.CLK_STATUS_PPCOK 0) fault := (ripples_ppcLost frozen).trans (ripples_raise (by decide))
    have after : Ripples False fault (snapTry { fault with snap := { fault.snap with frozen := m.snap.frozen } }) :=
      (ripples_snap _ fault).trans (ripples_snapTry _)
    refine ⟨_, acts_to (onUnit_of rfl opPpcWatchdogExpire s) (opPpcWatchdogExpire_due ok due), ?_, fun held => ?_⟩
    · refine ((frame.trans after).on' (low (by decide))).trans ?_
      exact Mach.on_set_flag (f := R.CLK_STATUS_PPCOK) rfl rfl false _
    · have flt : (indivisible (fun m => raise 0x018 0x05 3 (ppcLost m)) m).flt = fault.flt := (spares_snapTry _).flt
      obtain ⟨src, kind, cls⟩ := last_raise (src := 0x018) (kind := 0x05) (cls := 3) (sid := 0) (param := 0) (by decide) (by decide)
        (ppcLost_heldEdges (m := frozen) held)
      exact ⟨(congrArg (fun x : Collector => x.last.src) flt).trans src, (congrArg (fun x : Collector => x.last.kind) flt).trans kind,
        (congrArg (fun x : Collector => x.last.cls) flt).trans cls⟩

end Sys2Proof.Machine
end

section
/-! PROOFS. Register accesses (O29). -/

namespace Sys2Proof.Machine

section
variable {q : Requester} {off bytes : Nat} {v : Word} {s : State} {m : Mach}

theorem onUnitS_of {ok : Bool} (h : ok = true) (f : Mach → Mach) (s : State) : onUnitS ok f s = .next (settle (s.onMach f)) := by
  rw [h]; rfl

/-- A command that may end a software reset, with what it makes of the machine. -/
theorem actsS_to {o : Host.Outcome State Fault Refusal} {f : Mach → Mach} {m' : Mach}
    (run : o = .next (settle (s.onMach f))) (eff : f s.mach = m') : o = .next (settle { s with mach := m' }) := by
  rw [run, State.onMach, eff]

/-- The same while no restart is due. -/
theorem actsS_calm {o : Host.Outcome State Fault Refusal} {f : Mach → Mach} {m' : Mach}
    (run : o = .next (settle (s.onMach f))) (eff : f s.mach = m') (no : m'.pwr.restart = false) :
    o = .next { s with mach := m' } := (actsS_to run eff).trans (congrArg _ (settle_of_no_restart no))

/-! ## Writes -/

theorem exec_registerWrite (okq : okReq q = true) (hoff : off < 0x1000000) (hb : bytes ∈ [1, 2, 4, 8]) :
    exec (.registerWrite q off bytes v) s = .next (settle (s.onMach (opRegisterWrite q off bytes v))) := by
  refine onUnitS_of ?_ (opRegisterWrite q off bytes v) s
  simp only [List.mem_cons, List.not_mem_nil, or_false] at hb
  rcases hb with rfl | rfl | rfl | rfl <;> simp [okq, hoff]

theorem opRegisterWrite_badWidth (live : reaches q m = true) (bad : bytes ≠ 4 ∨ off % 4 ≠ 0) :
    opRegisterWrite q off bytes v m = badWidth off m := by
  rw [opRegisterWrite, if_neg (by rw [live]; decide), if_pos (by simpa using bad)]

theorem opRegisterWrite_word (live : reaches q m = true) (aligned : off % 4 = 0) :
    opRegisterWrite q off 4 v m = busWrite q false off v m := by
  rw [opRegisterWrite, if_neg (by rw [live]; decide), if_neg (by simp [aligned])]

/-- Who wrote a register last is kept beside the registers. -/
theorem noteWriter_eq (q : Requester) (key : Nat) (m : Mach) : ∃ scl, noteWriter q key m = { m with scl := scl } := ⟨_, rfl⟩

theorem writeReg_trim (q : Requester) (v : Word) (m : Mach) : writeReg q R.CLK_TRIM.key v m = storeFields R.CLK_TRIM.key v m := rfl

theorem fldAcc_trim (g : Fld) (m : Mach) : fldAcc R.CLK_TRIM.key g m = g.acc := by
  have e1 : (R.CLK_TRIM.key == 0x010100) = false := by decide
  have e2 : (R.CLK_TRIM.key == (R.SLU_SDIST 0).key) = false := by decide
  have e3 : inGroup R.CLK_TRIM.key 0x19 0x100 0xB00 = false := by decide
  simp [fldAcc, e1, e2, e3]

/-- A write of TRIM while nothing is staged. -/
theorem storeFields_trim (pend : m.pend = []) (v : Word) :
    (storeFields R.CLK_TRIM.key v m).get R.CLK_TRIM = R.CLK_TRIM.of v ∧ (storeFields R.CLK_TRIM.key v m).pwr = m.pwr := by
  refine ⟨get_storeFields_idle rfl fldAcc_trim rfl pend, ?_⟩
  rcases storeFields_idle_eq (key := R.CLK_TRIM.key) (w := v) (m := m) rfl pend with e | ⟨w, e⟩
  · rw [e]
  · rw [e]; rfl

/-! ## Reads -/

theorem exec_latchedLowRead (okq : okReq q = true) (hoff : off < 0x1000000) :
    exec (.latchedLowRead q off) s = .next (s.onMach (readFor q off)) :=
  onUnit_of (by simp [okq, hoff]) (opLatchedLowRead q off) s

theorem exec_readClear (okq : okReq q = true) (hoff : off < 0x1000000) :
    exec (.readClear q off) s = .next (s.onMach (readFor q off)) :=
  onUnit_of (by simp [okq, hoff]) (opReadClear q off) s

theorem readFor_word (live : reaches q m = true) (aligned : off % 4 = 0) :
    readFor q off m = (busRead q off m).2.answer q (busRead q off m).1 := by
  rw [readFor, if_neg (by rw [live]; decide), if_neg (by simp [aligned])]

/-- The machine after differs at most in registers. -/
abbrev RegsOnly (m m' : Mach) : Prop := m' = { m with regs := m'.regs }

theorem RegsOnly.trans {a b c : Mach} (h : RegsOnly a b) (g : RegsOnly b c) : RegsOnly a c := Eq.trans g (by rw [h])

theorem regsOnly_foldl {α : Type} {f : Mach → α → Mach} (h : ∀ a m, RegsOnly m (f m a)) (l : List α) :
    ∀ m, RegsOnly m (l.foldl f m) := by
  induction l with
  | nil => exact fun _ => rfl
  | cons a l ih => exact fun m => (h a m).trans (ih _)

theorem regsOnly_when {c : Bool} {f : Mach → Mach} (h : ∀ m, RegsOnly m (f m)) (m : Mach) : RegsOnly m (when c f m) := by
  rw [when]
  split
  · exact h m
  · rfl

theorem regsOnly_set (f : FRef) (v : Nat) (m : Mach) : RegsOnly m (m.set f v) := rfl

/-- What a read clears are fields of its register. -/
theorem readClear_eq (key : Nat) (m : Mach) : RegsOnly m (readClear key m) := by
  rw [readClear]
  split
  · rfl
  · refine (regsOnly_foldl (fun f m => ?_) _ m).trans (regsOnly_when (fun m => regsOnly_set ..) _)
    split <;> rfl

/-- A read that latches the high word for its reader. -/
theorem busRead_latches (up : regUp off m = true) (ex : regExists off m = true) (high : latchesHigh off = true) :
    busRead q off m = (readWord q off m, readClear off
      { m with latches := tput (reqKey (Requester.id q) (off + 4)) (readWord q (off + 4) m) m.latches }) := by
  simp only [busRead, up, ex, high]
  rfl

/-- A read of a high word that has been latched for its reader. -/
theorem busRead_latched {w : Word} (up : regUp off m = true) (ex : regExists off m = true) (low : latchesHigh off = false)
    (latch : tfind (reqKey (Requester.id q) off) m.latches = some w) :
    busRead q off m = (w, { m with latches := tdel (reqKey (Requester.id q) off) m.latches }) := by
  simp only [busRead, up, ex, low, latch]
  rfl

theorem busRead_plain (up : regUp off m = true) (ex : regExists off m = true) (low : latchesHigh off = false)
    (latch : tfind (reqKey (Requester.id q) off) m.latches = none) : busRead q off m = (readWord q off m, readClear off m) := by
  simp only [busRead, up, ex, low, latch]
  rfl

end

/-- Settles O29: each access is the branch that width, rights, domain, existence and latches choose. -/
theorem registerAccess : Obligations.RegisterAccess := by
  intro q off bytes v s okq hoff live m id
  refine ⟨fun hb bad => ?_, fun aligned => ?_⟩
  · rw [exec_registerWrite okq hoff hb]
    exact congrArg (fun t => Host.Outcome.next (settle t)) (onMach_congr (opRegisterWrite_badWidth live bad))
  have run : exec (.registerWrite q off 4 v) s = .next (settle (s.onMach (busWrite q false off v))) := by
    rw [exec_registerWrite okq hoff (by decide)]
    exact congrArg (fun t => Host.Outcome.next (settle t)) (onMach_congr (opRegisterWrite_word live aligned))
  have written (lets : s.lets q false off) : exec (.registerWrite q off 4 v) s =
      .next (settle (s.onMach fun m => writeReg q off v (noteWriter q off m))) :=
    run.trans (congrArg (fun t => Host.Outcome.next (settle t)) (onMach_congr (guarded_of_lets _ lets)))
  refine ⟨written, fun lets trim pend calm => ?_, fun assigned denied => ?_, fun up ex high => ?_, fun up ex low => ⟨fun w latch => ?_, fun latch => ?_⟩⟩
  · subst trim
    obtain ⟨scl, noted⟩ := noteWriter_eq q R.CLK_TRIM.key m
    obtain ⟨read, pwr⟩ := storeFields_trim (m := { m with scl := scl }) pend v
    have eff : writeReg q R.CLK_TRIM.key v (noteWriter q R.CLK_TRIM.key m) = storeFields R.CLK_TRIM.key v { m with scl := scl } := by
      rw [noted, writeReg_trim]
    exact ⟨_, actsS_calm (written lets) eff ((congrArg Power.restart pwr).trans calm), read, storeFields_clk .., storeFields_sheets .., rfl⟩
  · refine run.trans (congrArg (fun t => Host.Outcome.next (settle t)) (onMach_congr ?_))
    rw [busWrite, guarded, if_pos (by rw [assigned, denied]; rfl)]
  · have eff : readFor q off m = _ := (readFor_word live aligned).trans (by rw [busRead_latches up ex high])
    refine ⟨_, acts_to (exec_latchedLowRead okq hoff) eff, tget_tput_same .., ?_, ?_, ?_⟩
    · rw [readClear_eq]; exact tget_tput_same ..
    · rw [readClear_eq]; rfl
    · rw [readClear_eq]; rfl
  · refine (exec_readClear okq hoff).trans (congrArg _ (onMach_congr ?_))
    rw [readFor_word live aligned, busRead_latched up ex low latch]; rfl
  · refine (exec_readClear okq hoff).trans (congrArg _ (onMach_congr ?_))
    rw [readFor_word live aligned, busRead_plain up ex low latch]

end Sys2Proof.Machine
end

section
/-! PROOFS. Messages on an empty ledger; the boot; a read-to-clear field and what RST_N leaves (O30). -/

namespace Sys2Proof.Machine

/-! ## Messages on an empty ledger -/

/-- No sheet record is in use and no edge is held. -/
structure Vacant (m : Mach) : Prop where
  sheets : m.sheets = []
  heldEdges : m.heldEdges = []

section
variable {m : Mach}

theorem Spares.vacant {m' : Mach} (h : Spares m m') (s : m'.sheets = m.sheets) (v : Vacant m) : Vacant m' :=
  ⟨s.trans v.sheets, h.heldEdges.trans v.heldEdges⟩

theorem recsIn_none (h : m.sheets = []) (p : SheetState → Bool) : recsIn p m = [] := by
  rw [recsIn, h]; rfl

theorem collect_heldEdges (g : Msg) (m : Mach) : (collect g m).heldEdges = m.heldEdges := by
  simp only [collect]
  split
  · split
    · rfl
    · exact (spares_captured ..).heldEdges
  · split
    · exact (spares_captured ..).heldEdges.trans ((spares_assertEvent ..).heldEdges.trans rfl)
    · exact (spares_assertEvent ..).heldEdges.trans rfl

theorem deliverNow_heldEdges (g : Msg) (m : Mach) : (deliverNow g m).heldEdges = m.heldEdges :=
  (spares_groupEffects ..).heldEdges.trans ((spares_classEffects ..).heldEdges.trans
    ((collect_heldEdges ..).trans (by rw [when]; split <;> rfl)))

theorem deliverNow_vacant (v : Vacant m) (g : Msg) : Vacant (deliverNow g m) := by
  have start : (collect g (withLast g m)).sheets = [] := (collect_sheets ..).trans ((withLast_sheets ..).trans v.sheets)
  refine ⟨(groupEffects_sheets ..).trans ((classEffects_sheets ..).trans ?_), (deliverNow_heldEdges ..).trans v.heldEdges⟩
  change (each (Machine.recsIn (·.engaged) (collect g (withLast g m))) (msgOnRecord g) (collect g (withLast g m))).sheets = []
  rw [recsIn_none start]
  exact start

theorem setIdok_heldEdges (s : Nat) (b : Bool) (m : Mach) : (setIdok s b m).heldEdges = m.heldEdges := by
  rw [setIdok]
  split
  · rfl
  · exact (spares_assertEvent ..).heldEdges

theorem lockDrop_heldEdges (s : Nat) (m : Mach) : (lockDrop s m).heldEdges = m.heldEdges :=
  (setIdok_heldEdges ..).trans ((spares_assertEvent ..).heldEdges.trans rfl)

theorem lockDrop_sheets (s : Nat) (m : Mach) : (lockDrop s m).sheets = m.sheets :=
  (setIdok_sheets ..).trans ((assertEvent_sheets ..).trans rfl)

theorem locksDrop_vacant (v : Vacant m) : Vacant (locksDrop m) :=
  each_preserves (fun s m v =>
    deliverNow_vacant ⟨(lockDrop_sheets s m).trans v.sheets, (lockDrop_heldEdges s m).trans v.heldEdges⟩ _) _ m v

theorem Vacant.when (v : Vacant m) {c : Bool} {f : Mach → Mach} (h : ∀ m, Vacant m → Vacant (f m)) : Vacant (when c f m) := by
  rw [Machine.when]
  split
  · exact h m v
  · exact v

/-- A message of any class leaves an empty ledger empty. -/
theorem deliver_vacant (v : Vacant m) (g : Msg) : Vacant (deliver g m) := by
  have locks := (deliverNow_vacant v g).when (c := g.cls == 4) fun m v => locksDrop_vacant v
  have edges := locks.when (c := decide (0 < g.cls)) (f := settleEdges) fun m v => by rwa [settleEdges_none v.heldEdges]
  exact (spares_snapTry _).vacant (snapTry_sheets _) edges

end

/-! ## The boot -/

/-- A machine just started by RST_N: TICK is 0, the ledger empty, the cause the pin. -/
structure Started (m : Mach) : Prop where
  tick : m.clk.tick = 0
  vacant : Vacant m
  cause : m.on R.SYS_RSTCAUSE_PIN = true

section
variable {m : Mach}

theorem Started.setWord (h : Started m) {key : Nat} (ne : key ≠ R.SYS_RSTCAUSE_PIN.key) (w : Word) : Started (m.setWord key w) :=
  ⟨h.tick, ⟨h.vacant.sheets, h.vacant.heldEdges⟩, by
    rw [Mach.on, Mach.get, Mach.word_setWord_ne _ ne.symm]; exact h.cause⟩

theorem Started.set (h : Started m) {f : FRef} (ne : f.key ≠ R.SYS_RSTCAUSE_PIN.key) (v : Nat) : Started (m.set f v) :=
  h.setWord ne _

theorem Started.raise (h : Started m) (src kind cls : Nat) (sid : Sid) (param : Nat) :
    Started (raise src kind cls m sid param) := by
  have left : Ripples True m (Machine.raise src kind cls m sid param) := ripples_deliver _ (fun _ => trivial) m
  refine ⟨?_, deliver_vacant h.vacant _, ?_⟩
  · rw [left.clk]; exact h.tick
  · rw [left.on (by simp [rippleKey, R.SYS_RSTCAUSE_PIN]) (fun _ => by simp [tripsKey, R.SYS_RSTCAUSE_PIN])]; exact h.cause

theorem Started.when (h : Started m) {c : Bool} {f : Mach → Mach} (hf : ∀ m, Started m → Started (f m)) : Started (when c f m) := by
  rw [Machine.when]
  split
  · exact hf m h
  · exact h

theorem Started.setMeas (h : Started m) (i : Nat) (b : List Byte) : Started (setMeas i b m) :=
  each_preserves (fun j m h => h.setWord (by simp only [R.SEC_MEAS_HASH, R.SYS_RSTCAUSE_PIN]; omega) _) _ m h

theorem Started.guards (h : Started m) (r : List Byte) : Started (each (List.range 256) (fun i m =>
    m.setWord (R.ENV_GUARD i).key (BitVec.ofNat 32 (leAt r (4 * i) 4))) m) :=
  each_preserves (fun j m h => h.setWord (by simp only [R.ENV_GUARD, R.SYS_RSTCAUSE_PIN]; omega) _) _ m h

theorem Started.envLoad (h : Started m) (mem : Mem) : Started (envLoad mem m) := by
  unfold Machine.envLoad
  extract_lets a b ra rb pick r m1 m2 m3
  have h1 : Started m1 := (((h.set (by decide) _).set (by decide) _).set (by decide) _).set (by decide) _
  have h2 : Started m2 := by
    change Started (if pick = 0 then m1 else _)
    split
    · exact h1
    · exact ((h1.set (by decide) _).guards _).setMeas ..
  have h3 : Started m3 := h2.set (by decide) _
  split
  · exact h3.raise ..
  · exact h3

theorem Started.imageInvalid (h : Started m) (reason : Nat) : Started (imageInvalid reason m) :=
  (h.set (by decide) _).raise ..

theorem Started.imageStart (started : Started m) (at_ : Nat) (mem : Mem) : Started (imageStart at_ m mem).1 := by
  unfold Machine.imageStart
  extract_lets hd sc bs m1 m2
  have h1 : Started m1 := started.setMeas 2 _
  exact ⟨h1.tick, ⟨h1.vacant.sheets, h1.vacant.heldEdges⟩, h1.cause⟩

theorem Started.sec (h : Started m) (x : Sec) : Started { m with sec := x } :=
  ⟨h.tick, ⟨h.vacant.sheets, h.vacant.heldEdges⟩, h.cause⟩

theorem Started.setCtx (h : Started m) (i : Nat) (c : Ctx) : Started (m.setCtx i c) :=
  ⟨h.tick, ⟨h.vacant.sheets, h.vacant.heldEdges⟩, h.cause⟩

theorem Started.loaderStart (h : Started m) (mem : Mem) : Started (loaderStart m mem).1 := h.sec _

theorem Started.bootRun (h : Started m) (mem : Mem) : Started (bootRun m mem).1 := by
  unfold Machine.bootRun
  generalize sha256 ((List.range 0x20000).map Config.bootRom) = rom
  extract_lets +onlyGivenNames mem1 m1 m2 m3 r
  have h3 : Started m3 := ((h.set (by decide) _).setMeas ..).envLoad _
  clear_value m3 r mem1
  split
  · extract_lets +onlyGivenNames x
    have hx : Started x.1 := h3.imageStart ..
    clear_value x
    exact hx.sec _
  · extract_lets +onlyGivenNames m4 l x
    have h4 : Started m4 := h3.when fun m h => h.imageInvalid r
    have hx : Started x.1 := (h4.set (by decide) _).imageStart ..
    clear_value x m4 l
    split
    · exact hx.loaderStart _
    · exact (h4.setCtx 32 {}).imageInvalid l

end

theorem rd_tcmClear {a : Nat} (lo : 0x20000000 ≤ a) (hi : a < 0x20800000) (mem : Mem) : (tcmClear mem).rd a = 0 := by
  rw [Mem.rd, tcmClear, cellGet_cellsClear, if_pos ⟨lo, hi⟩, Config.ramFill]
  simp; omega

/-- An image's supervisor section ends below the TCMs. -/
theorem rd_imageStart {a : Nat} (lo : 0x20000000 ≤ a) (at_ : Nat) (m : Mach) (mem : Mem) :
    (imageStart at_ m mem).2.rd a = mem.rd a := by
  unfold imageStart
  extract_lets hd sc bs m1 m2
  have length : bs.length ≤ 0x40000 := by simp [bs, Mem.flashBytes]
  clear_value m1 bs
  exact rd_wrBytes_out bs mem 0x10000000 a (.inr (by omega))

theorem rd_bootRun {a : Nat} (lo : 0x20000000 ≤ a) (hi : a < 0x20800000) (m : Mach) (mem : Mem) :
    (bootRun m mem).2.rd a = 0 := by
  unfold bootRun
  generalize sha256 ((List.range 0x20000).map Config.bootRom) = rom
  extract_lets +onlyGivenNames mem1 m1 m2 m3 r
  have clear : mem1.rd a = 0 := rd_tcmClear lo hi mem
  clear_value m3 r mem1
  split
  · extract_lets +onlyGivenNames x
    have hx : x.2.rd a = 0 := (rd_imageStart lo ..).trans clear
    clear_value x
    exact hx
  · extract_lets +onlyGivenNames m4 l x
    have hx : x.2.rd a = 0 := (rd_imageStart lo ..).trans clear
    clear_value x m4 l
    split
    · exact hx
    · exact clear

/-- RST_N high boots a started machine. -/
theorem opReset_eq (m : Mach) (mem : Mem) : ∃ m', Started m' ∧ opReset m mem = bootRun m' (bankClear mem) := by
  unfold opReset coldStart
  generalize reset : afterReset _ = m0
  have vacant : Vacant m0 := reset ▸ ⟨rfl, rfl⟩
  have tick : m0.clk.tick = 0 := reset ▸ rfl
  exact ⟨(m0.set R.SYS_RSTCAUSE_PIN 0).set R.SYS_RSTCAUSE_PIN 1,
    ⟨tick, ⟨vacant.sheets, vacant.heldEdges⟩, Mach.on_set_flag (f := R.SYS_RSTCAUSE_PIN) rfl rfl true _⟩, rfl⟩

/-! ## The read-to-clear field -/

theorem readClear_losscnt {k : Nat} (hk : k < 6) (m : Mach) :
    readClear (R.CLK_SYN_STAT_LOSSCNT k).key m = m.set (R.CLK_SYN_STAT_LOSSCNT k) 0 := by
  interval_cases k <;> rfl

theorem busRead_losscnt {q : Requester} {k : Nat} {m : Mach} (hk : k < 6)
    (latch : tfind (reqKey (Requester.id q) (R.CLK_SYN_STAT_LOSSCNT k).key) m.latches = none) :
    busRead q (R.CLK_SYN_STAT_LOSSCNT k).key m =
      (readWord q (R.CLK_SYN_STAT_LOSSCNT k).key m, m.set (R.CLK_SYN_STAT_LOSSCNT k) 0) := by
  have up : regUp (R.CLK_SYN_STAT_LOSSCNT k).key m = true := by interval_cases k <;> rfl
  have ex : regExists (R.CLK_SYN_STAT_LOSSCNT k).key m = true := by
    have row : (rowAt (R.CLK_SYN_STAT_LOSSCNT k).key).isSome = true := by interval_cases k <;> rfl
    have there : absentReg m (R.CLK_SYN_STAT_LOSSCNT k).key = false := by
      interval_cases k <;> simp [absentReg, R.CLK_SYN_STAT_LOSSCNT]
    rw [regExists, row, there]; rfl
  have low : latchesHigh (R.CLK_SYN_STAT_LOSSCNT k).key = false := by interval_cases k <;> rfl
  rw [busRead_plain up ex low latch, readClear_losscnt hk]

/-- Settles O30: the read clears its one field; RST_N low leaves the reset values, and every step of the boot keeps what
RST_N high has started. -/
theorem readToClearAndReset : Obligations.ReadToClearAndReset := by
  intro q k s okq live hk off
  refine ⟨fun latch => ?_, ?_, ?_⟩
  · have small : off < 0x1000000 := by simp only [off, R.CLK_SYN_STAT_LOSSCNT]; omega
    have eff := (readFor_word live (off := off) (by simp only [off, R.CLK_SYN_STAT_LOSSCNT]; omega)).trans
      (by rw [busRead_losscnt hk latch])
    refine ⟨_, acts_to (exec_readClear okq small) eff, ?_, ?_, ?_⟩
    · exact Mach.get_set_val (f := R.CLK_SYN_STAT_LOSSCNT k) rfl (by simp) s.mach
    · exact Mach.get_set_bits (f := R.CLK_SYN_STAT_LOSSCNT k) (g := R.CLK_SYN_STAT_STATE k) rfl 0 s.mach
    · exact congrArg _ (tget_tput_same ..)
  · refine ⟨_, onUnit_of rfl opResetAsserted s, rfl, rfl, rfl, fun core j ok => ?_, rfl⟩
    change (tget ({ prio := cix core j % 4 } : Ctx) (cix core j) (tput 32 {} [])).state = .idle
    rw [tget_tput]
    split <;> rfl
  · obtain ⟨m', started, boots⟩ := opReset_eq s.mach s.mem
    have h := started.bootRun (bankClear s.mem)
    have run : exec .reset s = .next { s with mach := (opReset s.mach s.mem).1, mem := (opReset s.mach s.mem).2 } :=
      onUnitM_of rfl opReset s
    have clear (a : Nat) (lo : 0x20000000 ≤ a) (hi : a < 0x20800000) := rd_bootRun lo hi m' (bankClear s.mem)
    generalize bootRun m' (bankClear s.mem) = x at boots h clear
    exact ⟨_, actsM_to run boots, h.tick, h.vacant.sheets, h.cause, clear⟩

end Sys2Proof.Machine
end

section
/-! PROOFS. A write of a register whose enable is on: what its live fields read, and which words it leaves. -/

namespace Sys2Proof.Machine

/-! ## Bits of a field -/

theorem bitsOf_congr {v w : Word} {hi lo : Nat} (h : ∀ i, lo ≤ i → i ≤ hi → w.getLsbD i = v.getLsbD i) :
    bitsOf w hi lo = bitsOf v hi lo := by
  refine Nat.eq_of_testBit_eq fun j => ?_
  simp only [bitsOf, Nat.testBit_mod_two_pow, Nat.testBit_div_two_pow, BitVec.testBit_toNat]
  by_cases hj : j < hi + 1 - lo
  · rw [h (j + lo) (by omega) (by omega)]
  · simp [hj]

/-- The mask of a field has no bit outside it. -/
theorem mask_apart {hi lo i : Nat} (shape : hi < 32 ∧ lo ≤ hi) (v : Nat) (apart : i < lo ∨ hi < i) :
    (withBits 0 hi lo v).getLsbD i = false := by
  have zero : bitsOf (withBits 0 hi lo v) i i = 0 := by
    rcases apart with below | above
    · rw [bitsOf_withBits_below _ _ shape.1 shape.2 below le_rfl]; simp [bitsOf]
    · rw [bitsOf_withBits_above _ _ shape.1 shape.2 above]; simp [bitsOf]
  have one : i + 1 - i = 1 := by omega
  rw [bitsOf, one, pow_one] at zero
  rw [BitVec.getLsbD, Nat.testBit_eq_decide_div_mod_eq, zero]
  rfl

/-! ## Nothing pending for a field -/

section
variable {key : Nat} {w : Word} {m : Mach} {f : FRef}

/-- No bit of the field waits for its enable. -/
def Unstaged (f : FRef) (m : Mach) : Prop :=
  ∀ p ∈ m.pend, p.1 = f.key → ∀ i, f.lo ≤ i → i ≤ f.hi → p.2.1.getLsbD i = false

theorem unstaged_of_none (h : m.pend = []) : Unstaged f m := by
  rw [Unstaged, h]
  exact fun _ hp => (List.not_mem_nil hp).elim

theorem pending_of_unstaged {t : Tab (Word × Word)} {k i : Nat} (h : ∀ p ∈ t, p.1 = k → p.2.1.getLsbD i = false) :
    (tget (0, 0) k t).1.getLsbD i = false := by
  induction t with
  | nil => exact BitVec.getLsbD_zero
  | cons x t ih =>
    rw [tget]
    split
    · exact h x List.mem_cons_self ‹_›
    · exact ih fun p hp => h p (List.mem_cons_of_mem _ hp)

theorem Unstaged.pending (h : Unstaged f m) {i : Nat} (lo : f.lo ≤ i) (hi : i ≤ f.hi) :
    (tget (0, 0) f.key m.pend).1.getLsbD i = false := pending_of_unstaged fun p hp e => h p hp e i lo hi

theorem Unstaged.unstage (h : Unstaged f m) (k : Nat) (mask : Word) : Unstaged f (unstage k mask m) := by
  intro p hp e i lo hi
  simp only [Machine.unstage] at hp
  split at hp
  · exact h p (mem_tdel hp) e i lo hi
  · rcases mem_tput hp with new | old
    · subst new
      subst e
      rw [BitVec.getLsbD_and, h.pending lo hi, Bool.false_and]
    · exact h p old e i lo hi

theorem Unstaged.stage (h : Unstaged f m) {k : Nat} {mask : Word}
    (apart : ∀ i, f.lo ≤ i → i ≤ f.hi → mask.getLsbD i = false) (v : Word) : Unstaged f (stage k mask v m) := by
  intro p hp e i lo hi
  rcases mem_tput hp with new | old
  · subst new
    subst e
    rw [BitVec.getLsbD_or, h.pending lo hi, apart i lo hi, Bool.false_or]
  · exact h p old e i lo hi

/-- Pending bits of other fields pass the field by. -/
theorem Unstaged.applyKey (h : Unstaged f m) (k : Nat) (mask : Word) :
    Unstaged f (applyKey k mask m) ∧ (applyKey k mask m).get f = m.get f := by
  simp only [Machine.applyKey]
  split
  · exact ⟨h, rfl⟩
  · refine ⟨Unstaged.unstage (m := m.setWord _ _) h _ _, ?_⟩
    change (m.setWord k _).get f = _
    by_cases same : f.key = k
    · subst same
      rw [Mach.get, Mach.word_setWord_same]
      refine bitsOf_congr fun i lo hi => ?_
      simp only [BitVec.getLsbD_or, BitVec.getLsbD_and, BitVec.getLsbD_not, h.pending lo hi]
      by_cases small : i < 32
      · simp [small]
      · simp [BitVec.getLsbD_of_ge _ i (by omega : 32 ≤ i)]
    · exact Mach.get_setWord_ne _ same _

theorem Unstaged.settlePend (h : Unstaged f m) : (settlePend m).get f = m.get f := by
  have all (l : List Nat) : ∀ x : Mach, Unstaged f x → (each l (fun k => Machine.applyKey k (2 ^ 32 - 1)) x).get f = x.get f := by
    induction l with
    | nil => exact fun _ _ => rfl
    | cons k l ih => exact fun x hx => (ih _ (hx.applyKey ..).1).trans (hx.applyKey ..).2
  exact all _ m h

/-! ## Live fields -/

/-- The row of this key has this field, to be read and written at any time. -/
def liveField (f : FRef) : Bool :=
  hasField f && match rowAt f.key with
    | some (d, _) => d.flds.all fun g => !(g.hi == f.hi && g.lo == f.lo) || decide (fldCls f.key g = .live)
    | none => false

/-- A write of another field of the register. -/
theorem storeFld_apart {g : Fld} (shape : g.hi < 32 ∧ g.lo ≤ g.hi) (hf : f.lo ≤ f.hi) (apart : g.hi < f.lo ∨ f.hi < g.lo)
    (acc : fldAcc f.key g m ≠ .w1c) (h : Unstaged f m) (gov b : Bool) :
    Unstaged f (storeFld f.key w gov (m, b) g).1 ∧ (storeFld f.key w gov (m, b) g).1.get f = m.get f := by
  have set_get (v : Nat) : (m.set ⟨f.key, g.hi, g.lo⟩ v).get f = m.get f :=
    m.get_set_apart (f := ⟨f.key, g.hi, g.lo⟩) v shape.1 shape.2 hf apart.symm
  have set_un (v : Nat) : Unstaged f (m.set ⟨f.key, g.hi, g.lo⟩ v) := h
  have mask (i : Nat) (lo : f.lo ≤ i) (hi : i ≤ f.hi) : (withBits 0 g.hi g.lo (2 ^ 32 - 1)).getLsbD i = false :=
    mask_apart shape _ (by omega)
  simp only [storeFld]
  split
  · exact ⟨h, rfl⟩
  · split
    · split
      · exact ⟨set_un _, set_get _⟩
      · cases gov
        · exact ⟨set_un _, set_get _⟩
        · exact ⟨h, rfl⟩
      · cases gov
        · exact ⟨(set_un _).unstage _ _, set_get _⟩
        · exact ⟨h.stage mask _, rfl⟩
    · contradiction
    · exact ⟨h, rfl⟩

/-- A write of the field itself. -/
theorem storeFld_live {g : Fld} (hhi : g.hi = f.hi) (hlo : g.lo = f.lo) (fits : f.hi < 32 ∧ f.lo ≤ f.hi)
    (res : fldReserved f.key g = false) (acc : fldAcc f.key g m = .rw) (live : fldCls f.key g = .live) (h : Unstaged f m)
    (gov b : Bool) :
    Unstaged f (storeFld f.key w gov (m, b) g).1 ∧ (storeFld f.key w gov (m, b) g).1.get f = f.of w := by
  simp only [storeFld, res, acc, live, hhi, hlo]
  exact ⟨h, Mach.get_set_fits _ fits.1 fits.2 (f.of_lt w)⟩

/-- A live field reads as written once the fields of its register have been. -/
theorem storeFlds_live (h : liveField f = true) (acc : ∀ g m, fldAcc f.key g m = g.acc) (un : Unstaged f m) (gov : Bool) :
    ∃ d is, rowAt f.key = some (d, is) ∧ Unstaged f (d.flds.foldl (storeFld f.key w gov) (m, false)).1 ∧
      (d.flds.foldl (storeFld f.key w gov) (m, false)).1.get f = f.of w := by
  rw [liveField, Bool.and_eq_true] at h
  obtain ⟨has, cls⟩ := h
  rw [hasField] at has
  cases row : rowAt f.key with
  | none => rw [row] at has; cases has
  | some x =>
    obtain ⟨d, is⟩ := x
    rw [row] at has cls
    refine ⟨d, is, rfl, ?_⟩
    simp only [Bool.and_eq_true, List.all_eq_true, List.any_eq_true, Bool.or_eq_true, decide_eq_true_eq, beq_iff_eq,
      Bool.not_eq_true', bne_iff_ne, or_assoc] at has cls
    obtain ⟨⟨shape, each_⟩, g, mem, hhi, hlo⟩ := has
    have fits : f.hi < 32 ∧ f.lo ≤ f.hi := by have := shape g mem; omega
    have goal : ∀ (fs : List Fld), (∀ g ∈ fs, g ∈ d.flds) → ∀ x : Mach × Bool, Unstaged f x.1 →
        Unstaged f (fs.foldl (storeFld f.key w gov) x).1 ∧
          ((x.1.get f = f.of w ∨ ∃ g ∈ fs, g.hi = f.hi ∧ g.lo = f.lo) → (fs.foldl (storeFld f.key w gov) x).1.get f = f.of w) := by
      intro fs
      induction fs with
      | nil => exact fun _ x un => ⟨un, fun e => e.resolve_right (by simp)⟩
      | cons g fs ih =>
        intro sub x un
        have member := sub g List.mem_cons_self
        obtain ⟨shape, noClear⟩ := shape g member
        have later := ih (fun x hx => sub x (List.mem_cons_of_mem _ hx)) (storeFld f.key w gov x g)
        rcases each_ g member with ⟨⟨⟨ghi, glo⟩, gacc⟩, gres⟩ | gap
        · have live : fldCls f.key g = .live := (cls g member).resolve_left (by simp [ghi, glo])
          have here := storeFld_live (w := w) ghi glo fits gres ((acc g x.1).trans gacc) live un gov x.2
          exact ⟨(later here.1).1, fun _ => (later here.1).2 (.inl here.2)⟩
        · have here := storeFld_apart (w := w) shape fits.2 gap (by rw [acc]; exact noClear) un gov x.2
          refine ⟨(later here.1).1, fun e => (later here.1).2 ?_⟩
          rcases e with done | ⟨y, hy, e⟩
          · exact .inl (here.2.trans done)
          · rcases List.mem_cons.1 hy with rfl | hy
            · omega
            · exact .inr ⟨y, hy, e⟩
    obtain ⟨still, reads⟩ := goal d.flds (fun _ h => h) (m, false) un
    exact ⟨still, reads (.inr ⟨g, mem, hhi, hlo⟩)⟩

/-- A live field reads as written, whether its register's enable is on or off. -/
theorem get_storeFields_live (h : liveField f = true) (acc : ∀ g m, fldAcc f.key g m = g.acc) (quiet : ¬rippleKey f.key)
    (un : Unstaged f m) : (storeFields f.key w m).get f = f.of w := by
  obtain ⟨d, is, row, still, reads⟩ := storeFlds_live (w := w) h acc un (govOn f.key m)
  simp only [storeFields, row]
  have settled := still.settlePend.trans reads
  rw [when]
  split
  · exact ((ripples_note ..).get' quiet).trans settled
  · exact settled

end

end Sys2Proof.Machine
end

section
/-! PROOFS. Control of contexts and cores (O31, O32). -/

namespace Sys2Proof.Machine

/-! ## The rest of the machine -/

/-- The machine after differs at most in contexts, comparators and their clocks. -/
abbrev CoxOnly (m m' : Mach) : Prop := m' = { m with cox := m'.cox }

section
variable {core k i j : Nat} {m : Mach}

theorem CoxOnly.trans {a b c : Mach} (h : CoxOnly a b) (g : CoxOnly b c) : CoxOnly a c := Eq.trans g (by rw [h])

theorem CoxOnly.get {m' : Mach} (h : CoxOnly m m') (f : FRef) : m'.get f = m.get f := by rw [h]; rfl

theorem CoxOnly.regs {m' : Mach} (h : CoxOnly m m') : m'.regs = m.regs := by rw [h]

theorem CoxOnly.sheets {m' : Mach} (h : CoxOnly m m') : m'.sheets = m.sheets := by rw [h]

theorem coxOnly_each {α : Type} {f : α → Mach → Mach} (h : ∀ a m, CoxOnly m (f a m)) (l : List α) :
    ∀ m, CoxOnly m (each l f m) := by
  induction l with
  | nil => exact fun _ => rfl
  | cons a l ih => exact fun m => (h a m).trans (ih _)

theorem coxOnly_modCtx (i : Nat) (f : Ctx → Ctx) (m : Mach) : CoxOnly m (m.modCtx i f) := rfl

theorem coxOnly_makeReady (i : Nat) (m : Mach) : CoxOnly m (makeReady i m) := rfl

theorem coxOnly_resched (core : Nat) (m : Mach) : CoxOnly m (resched core m) := by
  obtain ⟨cs, n, h⟩ := resched_eq core m
  rw [h]

theorem coxOnly_sealNow (i rd : Nat) (b : Boundary) (late : Bool) (m : Mach) : CoxOnly m (sealNow i b late rd m) := rfl

theorem coxOnly_commitWakes (i : Nat) (m : Mach) : CoxOnly m (commitWakes i m) := by
  rw [commitWakes]
  split
  · exact ((coxOnly_sealNow ..).trans ((coxOnly_modCtx ..).trans (coxOnly_makeReady ..))).trans (coxOnly_resched ..)
  · rfl

theorem coxOnly_cancelCommit (i : Nat) (m : Mach) : CoxOnly m (cancelCommit i m) := by
  rw [cancelCommit, resolve]
  split
  · rfl
  · exact ((coxOnly_modCtx ..).trans (coxOnly_modCtx ..)).trans (coxOnly_commitWakes ..)

theorem coxOnly_disarmIf (core : Nat) (p : Cmp → Bool) (m : Mach) : CoxOnly m (disarmIf core p m) := by
  refine coxOnly_each (fun n m => ?_) _ m
  dsimp only
  split <;> rfl

/-! ## Comparators that are disarmed -/

/-- A comparator as a disarming of those that satisfy p leaves it. -/
def Cmp.spared (c : Cmp) (p : Cmp → Bool) : Cmp := if c.armed && p c then { c with armed := false } else c

theorem Cmp.spared_spared (c : Cmp) (p : Cmp → Bool) : (c.spared p).spared p = c.spared p := by
  by_cases h : (c.armed && p c) = true <;> simp [Cmp.spared, h]

theorem Cmp.armed_spared {c : Cmp} {p : Cmp → Bool} (h : (c.spared p).armed = true) : p c = false ∧ c.spared p = c := by
  by_cases hit : (c.armed && p c) = true
  · simp [Cmp.spared, hit] at h
  · simp only [Cmp.spared, hit] at h ⊢
    have armed : c.armed = true := h
    exact ⟨by simpa [armed] using hit, rfl⟩

theorem cmp_setCmp (m : Mach) (n j : Nat) (c : Cmp) : (m.setCmp n c).cmp j = if j = n then c else m.cmp j := tget_tput ..

theorem cmp_disarmIf (core : Nat) (p : Cmp → Bool) (j : Nat) (m : Mach) : (disarmIf core p m).cmp j =
    if core * 32 ≤ j ∧ j < core * 32 + cmpCount core then (m.cmp j).spared p else m.cmp j := by
  have one (n : Nat) (x : Mach) : (if (x.cmp (core * 32 + n)).armed && p (x.cmp (core * 32 + n)) then
      x.setCmp (core * 32 + n) { x.cmp (core * 32 + n) with armed := false } else x).cmp j =
      if j = core * 32 + n then (x.cmp j).spared p else x.cmp j := by
    by_cases same : j = core * 32 + n
    · subst same
      rw [if_pos rfl, Cmp.spared]
      split
      · rw [cmp_setCmp, if_pos rfl]
      · rfl
    · rw [if_neg same]
      split
      · rw [cmp_setCmp, if_neg same]
      · rfl
  have all (l : List Nat) : ∀ x : Mach, (each l (fun n m =>
      let c := m.cmp (core * 32 + n)
      if c.armed && p c then m.setCmp (core * 32 + n) { c with armed := false } else m) x).cmp j =
      if ∃ n ∈ l, j = core * 32 + n then (x.cmp j).spared p else x.cmp j := by
    induction l with
    | nil => exact fun x => by simp [each]
    | cons a l ih =>
      intro x
      refine (ih _).trans ?_
      rw [one]
      by_cases here : j = core * 32 + a
      · simp [here, Cmp.spared_spared]
      · simp [here]
  refine (all _ m).trans (if_congr ⟨?_, fun h => ⟨j - core * 32, by simp; omega, by omega⟩⟩ rfl rfl)
  rintro ⟨n, hn, e⟩
  have := List.mem_range.1 hn
  omega

/-- After all comparators of a core are disarmed, none is armed. -/
theorem disarmAll (h : i < cmpCount core) (m : Mach) : ((disarmIf core (fun _ => true) m).cmp (core * 32 + i)).armed = false := by
  rw [cmp_disarmIf, if_pos (by omega), Cmp.spared]
  cases armed : (m.cmp (core * 32 + i)).armed <;> simp [armed]

/-- A comparator that stays armed is not one of the context's. -/
theorem disarmOwn (h : i < cmpCount core) (armed : ((disarmIf core (·.ctx == k) m).cmp (core * 32 + i)).armed = true) :
    ((disarmIf core (·.ctx == k) m).cmp (core * 32 + i)).ctx ≠ k := by
  rw [cmp_disarmIf, if_pos (by omega)] at armed ⊢
  obtain ⟨other, same⟩ := Cmp.armed_spared armed
  rw [same]
  simpa using other

/-! ## Commits that are cancelled -/

/-- A context without a commit has none to cancel. -/
theorem cancelCommit_none (h : (m.ctx i).slot = none) : cancelCommit i m = m := by rw [cancelCommit, resolve, h]

/-- The context that a resolved commit leaves, if it does not wait for the slot. -/
def Ctx.resolved (c : Ctx) (code count : Nat) : Ctx :=
  { c with slot := none, cmtCode := code, cmtSeq := (c.cmtSeq + 1) % 256, cmtCount := count,
           evpend := c.evpend ||| (if code ≤ 1 then 2#32 else 4#32) }

theorem commitWakes_idle (h : ∀ b l rd, (m.ctx i).wait ≠ .commit b l rd) : commitWakes i m = m := by
  rw [commitWakes]
  split
  next b l rd waits => exact absurd waits (h b l rd)
  · rfl

/-- A commit of a context that does not wait in CMT leaves its slot and reports its code. -/
theorem resolveWith_ctx (i code : Nat) (x : Commit) {m : Mach} (slot : (m.ctx i).slot = none)
    (h : ∀ b l rd, (m.ctx i).wait ≠ .commit b l rd) :
    (resolveWith i code x m).ctx i = (m.ctx i).resolved code x.entries.length := by
  rw [resolveWith, commitWakes_idle (by rw [ctx_modCtx_same]; exact h), ctx_modCtx_same, Ctx.resolved, ← slot]

theorem cancelCommit_ctx {x : Commit} (slot : (m.ctx i).slot = some x) (h : ∀ b l rd, (m.ctx i).wait ≠ .commit b l rd) :
    (cancelCommit i m).ctx i = (m.ctx i).resolved 4 x.entries.length := by
  have own : (slotEmpty i m).ctx i = { m.ctx i with slot := none } := ctx_modCtx_same ..
  rw [cancelCommit, resolve, slot]
  refine (resolveWith_ctx i 4 x (by rw [own]) (by rw [own]; exact h)).trans ?_
  rw [own]
  rfl

theorem turn_commitWakes (ne : j ≠ i) (m : Mach) : Turn (m.ctx j) ((commitWakes i m).ctx j) := by
  rw [commitWakes]
  split
  next b l rd waits =>
    have others : (makeReady i ((sealNow i b l rd m).modCtx i Ctx.retire)).ctx j = m.ctx j :=
      (ctx_becomeReady_ne ne ..).trans ((ctx_modCtx_ne _ ne _).trans (tget_tput_ne _ _ ne _))
    exact others ▸ turn_resched ..
  · exact .stays

/-- A commit of another context leaves a context its turn at most. -/
theorem turn_cancelCommit (ne : j ≠ i) (m : Mach) : Turn (m.ctx j) ((cancelCommit i m).ctx j) := by
  rw [cancelCommit, resolve]
  split
  · exact .stays
  next x _ =>
    have others : ((slotEmpty i m).modCtx i fun c =>
        { c with cmtCode := 4, cmtSeq := (c.cmtSeq + 1) % 256, cmtCount := x.entries.length,
                 evpend := c.evpend ||| (if 4 ≤ 1 then 2#32 else 4#32) }).ctx j = m.ctx j :=
      (ctx_modCtx_ne _ ne _).trans (ctx_modCtx_ne _ ne _)
    exact others ▸ turn_commitWakes ne _

theorem Turn.wait_ne {c d : Ctx} (h : Turn c d) (w : ∀ b l rd, c.wait ≠ .commit b l rd) (b : Boundary) (l : Bool) (rd : Nat) :
    d.wait ≠ .commit b l rd := by
  cases h with
  | stays => exact w b l rd
  | takes => exact w b l rd
  | yields => exact Wait.noConfusion
  | awaits => exact Wait.noConfusion

/-- What one member of a run brings about, and the others keep, stands after it. -/
theorem each_reaches {α : Type} {f : α → Mach → Mach} {P Q : Mach → Prop} {a : α} {l : List α} (mem : a ∈ l)
    (before : ∀ b m, P m → P (f b m) ∨ Q (f b m)) (here : ∀ m, P m → Q (f a m)) (after : ∀ b m, Q m → Q (f b m)) :
    ∀ m, P m ∨ Q m → Q (each l f m) := by
  induction l with
  | nil => cases mem
  | cons b l ih =>
    intro m hm
    by_cases same : a ∈ l
    · exact ih same _ (hm.elim (before b m) fun h => .inr (after b m h))
    · have e : a = b := (List.mem_cons.1 mem).resolve_right same
      subst e
      exact each_preserves after l _ (hm.elim (here m) (after a m))

theorem cix_ne (h : j ≠ k) (core : Nat) : cix core k ≠ cix core j := by simp only [cix]; omega

/-- Once every commit of a core is cancelled, a context that does not wait in CMT has none, and reports code 4 if it had one. -/
theorem cancelCore_ctx (hk : k < 4) (w : ∀ b l rd, (m.ctx (cix core k)).wait ≠ .commit b l rd) :
    ((cancelCore core m).ctx (cix core k)).slot = none ∧
      ((m.ctx (cix core k)).slot ≠ none → ((cancelCore core m).ctx (cix core k)).cmtCode = 4) := by
  by_cases has : (m.ctx (cix core k)).slot = none
  · have keeps : ((cancelCore core m).ctx (cix core k)).slot = none := by
      refine each_preserves (P := fun x => (x.ctx (cix core k)).slot = none) (fun j x hx => ?_) _ m has
      by_cases e : j = k
      · subst e; rw [cancelCommit_none hx]; exact hx
      · exact (turn_cancelCommit (cix_ne e core) x).slot.trans hx
    exact ⟨keeps, fun ne => absurd has ne⟩
  · have done : ((cancelCore core m).ctx (cix core k)).slot = none ∧ ((cancelCore core m).ctx (cix core k)).cmtCode = 4 := by
      refine each_reaches (a := k) (P := fun x => (x.ctx (cix core k)).slot ≠ none ∧
          ∀ b l rd, (x.ctx (cix core k)).wait ≠ .commit b l rd)
        (Q := fun x => (x.ctx (cix core k)).slot = none ∧ (x.ctx (cix core k)).cmtCode = 4) (by simpa using hk)
        (fun j x hx => ?_) (fun x hx => ?_) (fun j x hx => ?_) m (.inl ⟨has, w⟩)
      · by_cases e : j = k
        · subst e
          obtain ⟨y, slot⟩ := Option.ne_none_iff_exists'.1 hx.1
          exact .inr (by rw [cancelCommit_ctx slot hx.2]; exact ⟨rfl, rfl⟩)
        · have turn := turn_cancelCommit (cix_ne e core) x
          exact .inl ⟨by rw [turn.slot]; exact hx.1, turn.wait_ne hx.2⟩
      · obtain ⟨y, slot⟩ := Option.ne_none_iff_exists'.1 hx.1
        rw [cancelCommit_ctx slot hx.2]; exact ⟨rfl, rfl⟩
      · by_cases e : j = k
        · subst e; rw [cancelCommit_none hx.1]; exact hx
        · have turn := turn_cancelCommit (cix_ne e core) x
          exact ⟨turn.slot.trans hx.1, turn.cmtCode.trans hx.2⟩
    exact ⟨done.1, fun _ => done.2⟩

/-! ## START and HALT -/

/-- A context that START makes ready. -/
def started (core k : Nat) (m : Mach) (c : Ctx) : Ctx :=
  { regs := [], pc := entryPc core k m, state := .idle, prio := m.get (R.COX_CTL_PRIO core k), cause := c.cause, faddr := c.faddr }

theorem startCtx_eq (en : m.on (R.COX_CFG_EN core) = true) (st : (m.ctx (cix core k)).state = .idle ∨ (m.ctx (cix core k)).state = .parked) :
    ∃ n, CoxOnly m n ∧ startCtx core k m = resched core (makeReady (cix core k) (n.modCtx (cix core k) (started core k m))) := by
  have runs : (m.on (R.COX_CFG_EN core) && ((m.ctx (cix core k)).state == .idle || (m.ctx (cix core k)).state == .parked)) = true := by
    rcases st with e | e <;> rw [en, e] <;> rfl
  have only : CoxOnly m (disarmIf core (·.ctx == k) (cancelCommit (cix core k) m)) :=
    (coxOnly_cancelCommit ..).trans (coxOnly_disarmIf ..)
  refine ⟨_, only, ?_⟩
  simp only [startCtx, runs, if_true, entryPc, only.get]
  rfl

theorem idleCtx_ctx (core k : Nat) (m : Mach) : ((idleCtx core k m).ctx (cix core k)).state = .idle ∧
    ((idleCtx core k m).ctx (cix core k)).stage = [] ∧ ((idleCtx core k m).ctx (cix core k)).slot = none ∧
    ((idleCtx core k m).ctx (cix core k)).pc = (m.ctx (cix core k)).pc := by
  unfold idleCtx
  extract_lets i m1
  have own : m1.ctx i = { m.ctx i with state := .idle, wait := .none, stage := [], issued := false, halting := false } :=
    ctx_modCtx_same m i fun c => { c with state := .idle, wait := .none, stage := [], issued := false, halting := false }
  have cancelled : ∃ code seq count ev, (cancelCommit i m1).ctx i =
      { m1.ctx i with slot := none, cmtCode := code, cmtSeq := seq, cmtCount := count, evpend := ev } := by
    cases slot : (m1.ctx i).slot with
    | none => exact ⟨_, _, _, _, by rw [cancelCommit_none slot, ← slot]⟩
    | some x => exact ⟨_, _, _, _, cancelCommit_ctx slot (by rw [own]; exact fun _ _ _ => Wait.noConfusion)⟩
  obtain ⟨code, seq, count, ev, cancelled⟩ := cancelled
  have last := cancelled
  rw [← ctx_disarmIf core (·.ctx == k) i, own] at last
  have idle := (turn_resched core i (disarmIf core (·.ctx == k) (cancelCommit i m1))).eq_of_idle
    (by rw [last]; exact CtxState.noConfusion) (by rw [last]; exact CtxState.noConfusion)
  rw [idle, last]
  exact ⟨rfl, rfl, rfl, rfl⟩

theorem coxOnly_idleCtx (core k : Nat) (m : Mach) : CoxOnly m (idleCtx core k m) :=
  (coxOnly_modCtx ..).trans (((coxOnly_cancelCommit ..).trans (coxOnly_disarmIf ..)).trans (coxOnly_resched ..))

theorem idleCtx_armed (h : i < cmpCount core) (armed : ((idleCtx core k m).cmp (core * 32 + i)).armed = true) :
    ((idleCtx core k m).cmp (core * 32 + i)).ctx ≠ k := by
  rw [idleCtx, resched_cmp] at armed ⊢
  exact disarmOwn h armed

end

/-- Settles O31: each command is one effect on its context, after which the choice at the boundary leaves the context its
turn; a commit is cancelled unless its context waits to seal the next. -/
theorem contextControl : Obligations.ContextControl := by
  intro core k s ok lets c
  have range : core < 9 ∧ k < 4 := by simpa [okCtx] using ok
  have nine : decide (core < 9) = true := by simpa using range.1
  refine ⟨fun en st => ?_, fun free => ?_, fun issued => ?_, fun parked => ?_, ?_, ?_, ?_⟩
  · have run : exec (.start core k) s = .next (s.onMach (startCtx core k)) := acts_guarded (onUnit_of ok (opStart core k) s) lets
    obtain ⟨n, only, eff⟩ := startCtx_eq (k := k) en st
    let n' := makeReady (cix core k) (n.modCtx (cix core k) (started core k s.mach))
    have own : n'.ctx (cix core k) = _ := (ctx_becomeReady_same ..).trans (by rw [ctx_modCtx_same])
    have turn : Turn (n'.ctx (cix core k)) ((resched core n').ctx (cix core k)) := turn_resched ..
    rw [own] at turn
    exact ⟨_, acts_to run eff, (turn.of_ready rfl).1, turn.pc, turn.prio, turn.stage, turn.slot, turn.evpend,
      fun r => (turn.g r).trans (by simp [Ctx.g, started]), rfl⟩
  · have run : exec (.halt core k) s = .next (s.onMach (haltCtx core k)) := acts_guarded (onUnit_of ok (opHalt core k) s) lets
    have free : (s.mach.ctx (cix core k)).issued = false := free
    have eff : haltCtx core k s.mach = idleCtx core k s.mach := by rw [haltCtx, free]; rfl
    obtain ⟨idle, stage, slot, pc⟩ := idleCtx_ctx core k s.mach
    exact ⟨_, acts_to run eff, idle, stage, slot, pc, fun n hn armed => idleCtx_armed hn armed, rfl, (coxOnly_idleCtx ..).regs⟩
  · have run : exec (.halt core k) s = .next (s.onMach (haltCtx core k)) := acts_guarded (onUnit_of ok (opHalt core k) s) lets
    have issued : (s.mach.ctx (cix core k)).issued = true := issued
    have eff : haltCtx core k s.mach = s.mach.modCtx (cix core k) fun c => { c with halting := true } := by rw [haltCtx, issued]; rfl
    exact ⟨_, acts_to run eff, ctx_modCtx_same s.mach (cix core k) fun c => { c with halting := true }, rfl, rfl⟩
  · have run : exec (.resume core k) s = .next (s.onMach (resumeCtx core k)) := acts_guarded (onUnit_of ok (opResume core k) s) lets
    have parked : (s.mach.ctx (cix core k)).state = .parked := parked
    have eff : resumeCtx core k s.mach = resched core (makeReady (cix core k) s.mach) := by rw [resumeCtx, parked]; rfl
    have turn : Turn ((makeReady (cix core k) s.mach).ctx (cix core k)) ((resched core (makeReady (cix core k) s.mach)).ctx (cix core k)) :=
      turn_resched ..
    rw [show (makeReady (cix core k) s.mach).ctx (cix core k) = _ from ctx_becomeReady_same ..] at turn
    exact ⟨_, acts_to run eff, (turn.of_ready rfl).1, turn.pc, turn.regs, resched_regs ..⟩
  · exact acts_guarded (onUnit_of ok (opDiscard core k) s) lets
  · have run : exec (.cancel core) s = .next (s.onMach (cancelCore core)) := acts_guarded (onUnit_of nine (opCancel core) s) lets
    have regs : (cancelCore core s.mach).regs = s.mach.regs := (coxOnly_each (fun k m => coxOnly_cancelCommit (cix core k) m) _ _).regs
    refine ⟨_, run, regs, fun has waits => ?_⟩
    obtain ⟨slot, code⟩ := cancelCore_ctx range.2 waits
    exact ⟨slot, code has⟩
  · have run : exec (.disarm core) s = .next (s.onMach (disarmIf core fun _ => true)) :=
      acts_guarded (onUnit_of nine (opDisarm core) s) lets
    exact ⟨_, run, fun n hn => disarmAll hn s.mach, (coxOnly_disarmIf core (fun _ => true) s.mach).regs, rfl⟩

end Sys2Proof.Machine
end

section
/-! PROOFS. A core's enable, its software events and the lock of the supervisor MPU (O32). -/

namespace Sys2Proof.Machine

section
variable {core k i : Nat} {v : Word} {m : Mach}

/-- A change of each context of a core, once. -/
theorem ctx_each_modCtx (hk : k < 4) (core : Nat) (f : Ctx → Ctx) (m : Mach) :
    (each (List.range 4) (fun j m => m.modCtx (cix core j) f) m).ctx (cix core k) = f (m.ctx (cix core k)) :=
  each_at (p := fun x => x.ctx (cix core k)) (u := m.ctx (cix core k)) (a := k) List.nodup_range (by simpa using hk)
    (fun x hx => by rw [ctx_modCtx_same, hx]) (fun j _ ne x => ctx_modCtx_ne _ (cix_ne ne core) f) m rfl

/-- A context that is IDLE, stages nothing and waits for nothing stays so when the commits of its core are cancelled. -/
theorem cancelCore_idle (h : (m.ctx (cix core k)).state = .idle ∧ (m.ctx (cix core k)).stage = [] ∧
      (m.ctx (cix core k)).wait = .none) :
    ((cancelCore core m).ctx (cix core k)).state = .idle ∧ ((cancelCore core m).ctx (cix core k)).stage = [] ∧
      ((cancelCore core m).ctx (cix core k)).wait = .none := by
  refine each_preserves (P := fun x => (x.ctx (cix core k)).state = .idle ∧ (x.ctx (cix core k)).stage = [] ∧
    (x.ctx (cix core k)).wait = .none) (fun j x hx => ?_) _ m h
  obtain ⟨idle, stage, wait⟩ := hx
  by_cases e : j = k
  · subst e
    cases slot : (x.ctx (cix core j)).slot with
    | none => rw [cancelCommit_none slot]; exact ⟨idle, stage, wait⟩
    | some y =>
      rw [cancelCommit_ctx slot (by rw [wait]; exact fun _ _ _ => Wait.noConfusion)]
      exact ⟨idle, stage, wait⟩
  · rw [(turn_cancelCommit (cix_ne e core) x).eq_of_idle (by rw [idle]; exact CtxState.noConfusion)
      (by rw [idle]; exact CtxState.noConfusion)]
    exact ⟨idle, stage, wait⟩

theorem coxOnly_cancelCore (core : Nat) (m : Mach) : CoxOnly m (cancelCore core m) :=
  coxOnly_each (fun k m => coxOnly_cancelCommit (cix core k) m) _ m

theorem coxOnly_disableCore (core : Nat) (m : Mach) : CoxOnly m (disableCore core m) := by
  have all (f : Ctx → Ctx) (m : Mach) : CoxOnly m (each (List.range 4) (fun k m => m.modCtx (cix core k) f) m) :=
    coxOnly_each (fun k m => coxOnly_modCtx (cix core k) f m) _ m
  unfold disableCore
  extract_lets changed m1
  have cancelled : CoxOnly m m1 := (all _ m).trans (coxOnly_cancelCore ..)
  exact (cancelled.trans (all _ m1)).trans (coxOnly_disarmIf ..)

theorem disableCore_ctx (hk : k < 4) (core : Nat) (m : Mach) : ((disableCore core m).ctx (cix core k)).state = .idle ∧
    ((disableCore core m).ctx (cix core k)).stage = [] ∧ ((disableCore core m).ctx (cix core k)).slot = none ∧
    ((disableCore core m).ctx (cix core k)).evpend = 0 := by
  unfold disableCore
  extract_lets all m1
  let halted : Mach := all (fun c => { c with state := .idle, wait := .none, stage := [], issued := false, halting := false }) m
  have own : halted.ctx (cix core k) = { m.ctx (cix core k) with state := .idle, wait := .none, stage := [], issued := false, halting := false } :=
    ctx_each_modCtx hk core _ m
  obtain ⟨idle, stage, -⟩ := cancelCore_idle (core := core) (k := k) (m := halted) (by rw [own]; exact ⟨rfl, rfl, rfl⟩)
  have slot := (cancelCore_ctx (core := core) (m := halted) hk (by rw [own]; exact fun _ _ _ => Wait.noConfusion)).1
  have cleared : (all (fun c => { c with evpend := 0 }) m1).ctx (cix core k) = { m1.ctx (cix core k) with evpend := 0 } :=
    ctx_each_modCtx hk core _ m1
  rw [ctx_disarmIf, cleared]
  exact ⟨idle, stage, slot, rfl⟩

theorem disableCore_cmp (hi : i < cmpCount core) (m : Mach) : ((disableCore core m).cmp (core * 32 + i)).armed = false :=
  disarmAll hi _

/-! ## A write of COXc_CFG -/

theorem coxCfgWrite_enable (hc : core < 8) (off : m.on (R.COX_CFG_EN core) = false) :
    coxCfgWrite core v m = storeFields (R.COX_CFG_EN core).key v m := by
  simp only [coxCfgWrite, off, if_neg (by omega : ¬core = 8)]
  rfl

theorem liveField_cox (hc : core < 8) : liveField (R.COX_CFG_EN core) = true := by
  interval_cases core <;> rfl

theorem fldAcc_cox (hc : core < 8) (g : Fld) (m : Mach) : fldAcc (R.COX_CFG_EN core).key g m = g.acc :=
  fldAcc_plain (by simp only [R.COX_CFG_EN, Bool.or_eq_false_iff, beq_eq_false_iff_ne]; omega) g m

theorem storeFields_coxEn (hc : core < 8) (pend : m.pend = []) (v : Word) :
    (storeFields (R.COX_CFG_EN core).key v m).get (R.COX_CFG_EN core) = (R.COX_CFG_EN core).of v :=
  get_storeFields_live (liveField_cox hc) (fldAcc_cox hc)
    (by simp only [rippleKey, R.COX_CFG_EN, List.mem_cons, List.not_mem_nil, or_false]; omega) (unstaged_of_none pend)

theorem coxCfgWrite_disable (hc : core < 8) (pend : m.pend = []) (on : m.on (R.COX_CFG_EN core) = true) (v : Word) :
    coxCfgWrite core (withBits v 0 0 0) m =
        disableCore core (storeFields (R.COX_CFG_EN core).key (withBits v 0 0 0) m) ∧
      (storeFields (R.COX_CFG_EN core).key (withBits v 0 0 0) m).on (R.COX_CFG_EN core) = false := by
  have off : (storeFields (R.COX_CFG_EN core).key (withBits v 0 0 0) m).on (R.COX_CFG_EN core) = false := by
    rw [Mach.on, storeFields_coxEn hc pend]
    exact congrArg (· == 1) (bitsOf_withBits_same (hi := 0) (lo := 0) v 0 (by decide) le_rfl)
  refine ⟨?_, off⟩
  simp only [coxCfgWrite, on, off, if_neg (by omega : ¬core = 8)]
  rfl

/-! ## Software events -/

theorem coxOnly_swevWrite (core : Nat) (v : Word) (m : Mach) : CoxOnly m (swevWrite core v m) :=
  coxOnly_each (f := fun k m => m.evSet (cix core k) (BitVec.ofNat 32 (v.toNat % 16 * 16))) (fun _ _ => rfl) _ m

theorem swevWrite_evpend (hk : k < 4) (core : Nat) (v : Word) (m : Mach) : ((swevWrite core v m).ctx (cix core k)).evpend =
    (m.ctx (cix core k)).evpend ||| (if v.toNat / 2 ^ (4 + k) % 2 = 1 then BitVec.ofNat 32 (v.toNat % 16 * 16) else 0) := by
  have others (j : Nat) (ne : j ≠ k) (x : Mach) (ev : Word) :
      ((x.evSet (cix core j) ev).ctx (cix core k)).evpend = (x.ctx (cix core k)).evpend :=
    congrArg Ctx.evpend (tget_tput_ne _ _ (cix_ne ne core) _)
  rw [swevWrite]
  by_cases named : v.toNat / 2 ^ (4 + k) % 2 = 1
  · rw [if_pos named]
    refine each_at (p := fun x => (x.ctx (cix core k)).evpend) (a := k) (List.nodup_range.filter _)
      (by simp [hk, bitOf, named]) (fun x hx => ?_) (fun j _ ne x => others j ne x _) m rfl
    rw [← hx]
    exact congrArg Ctx.evpend (tget_tput_same ..)
  · rw [if_neg named, show ∀ x : Word, x ||| 0 = x from fun _ => BitVec.or_zero]
    refine each_keeps (p := fun x => (x.ctx (cix core k)).evpend) _ (fun j hj x => others j ?_ x _) m
    rintro rfl
    exact named (by simpa [bitOf] using (List.mem_filter.1 hj).2)

end

/-! ## The supervisor MPU -/

theorem supmpuWrite_locks {m : Mach} (free : m.on (R.COX_SUPMPU_LOCK 8) = false) (v : Word) :
    supmpuWrite (v ||| 2) m = (m.set (R.COX_SUPMPU_EN 8) (v.toNat % 2)).set (R.COX_SUPMPU_LOCK 8) 1 := by
  have lock : bitOf (v ||| 2).toNat 1 = true := by
    have bit : (v ||| 2).toNat.testBit 1 = true := by
      rw [BitVec.testBit_toNat, BitVec.getLsbD_or]
      simp
    rw [Nat.testBit_eq_decide_div_mod_eq] at bit
    simpa [bitOf] using bit
  have low : (v ||| 2).toNat % 2 = v.toNat % 2 := by
    have bit : (v ||| 2).toNat.testBit 0 = v.toNat.testBit 0 := by
      rw [BitVec.testBit_toNat, BitVec.testBit_toNat, BitVec.getLsbD_or]
      simp
    simp only [Nat.testBit_zero, decide_eq_decide] at bit
    omega
  rw [supmpuWrite, free, low, lock]
  rfl

/-- Settles O32: EN is live, and a core that is disabled halts its contexts before it cancels their commits. -/
theorem coreEnables : Obligations.CoreEnables := by
  intro q core k v s okq hc hk m
  have eight : decide (core < 8) = true := by simpa using hc
  have count : cmpCount core = 32 := by simp [cmpCount]; omega
  refine ⟨fun lets => ⟨fun off => ?_, fun pend on => ?_⟩, fun lets => ?_, fun lets => ⟨fun free => ?_, fun locked => ?_⟩⟩
  · have run : exec (.coxEnable core v) s = .next (s.onMach (coxCfgWrite core (withBits v 0 0 1))) :=
      acts_guarded (onUnit_of eight (opCoxEnable core v) s) lets
    exact run.trans (congrArg _ (onMach_congr (coxCfgWrite_enable hc off)))
  · have run : exec (.coxDisable core v) s = .next (s.onMach (coxCfgWrite core (withBits v 0 0 0))) :=
      acts_guarded (onUnit_of eight (opCoxDisable core v) s) lets
    obtain ⟨eff, off⟩ := coxCfgWrite_disable hc pend on v
    have only := coxOnly_disableCore core (storeFields (R.COX_CFG_EN core).key (withBits v 0 0 0) m)
    obtain ⟨idle, stage, slot, events⟩ := disableCore_ctx hk core (storeFields (R.COX_CFG_EN core).key (withBits v 0 0 0) m)
    refine ⟨_, acts_to run eff, ?_, idle, stage, slot, events, fun n hn => disableCore_cmp (by omega) _,
      only.sheets.trans (storeFields_sheets ..), rfl⟩
    rw [Mach.on, only.get]
    exact off
  · have run : exec (.swev q core v) s = .next (s.onMach (swevWrite core v)) :=
      acts_guarded (onUnit_of (by simp [okq]; omega) (opSwev q core v) s) lets
    exact ⟨_, run, swevWrite_evpend hk core v m, (coxOnly_swevWrite ..).regs⟩
  · have run : exec (.supmpuLock v) s = .next (s.onMach (supmpuWrite (v ||| 2))) :=
      acts_guarded (onUnit_of rfl (opSupmpuLock v) s) lets
    refine ⟨_, acts_to run (supmpuWrite_locks free v), Mach.on_set_flag (f := R.COX_SUPMPU_LOCK 8) rfl rfl true _, ?_, rfl⟩
    exact (Mach.get_set_bits (f := R.COX_SUPMPU_LOCK 8) (g := R.COX_SUPMPU_EN 8) rfl 1 _).trans
      (Mach.get_set_val (f := R.COX_SUPMPU_EN 8) rfl (Nat.mod_lt _ (by decide)) _)
  · have run : exec (.supmpuLock v) s = .next (s.onMach (supmpuWrite (v ||| 2))) :=
      acts_guarded (onUnit_of rfl (opSupmpuLock v) s) lets
    refine run.trans (congrArg _ (onMach_congr ?_))
    have locked : s.mach.on (R.COX_SUPMPU_LOCK 8) = true := locked
    rw [supmpuWrite, locked]; rfl

end Sys2Proof.Machine
end

section
/-! PROOFS. Comparators that fire and commits whose instant has come (O33), and a commit applied whole (O34). -/

namespace Sys2Proof.Machine

/-! ## Single bits -/

@[simp] theorem bitOf_setBit (n i : Nat) : bitOf (setBit n i) i = true := by
  rw [setBit]
  split
  · assumption
  next clear =>
    have clear : n / 2 ^ i % 2 ≠ 1 := by simpa [bitOf] using clear
    have next_ : (n + 2 ^ i) / 2 ^ i = n / 2 ^ i + 1 := Nat.add_div_right n (Nat.two_pow_pos i)
    simp only [bitOf, next_, beq_iff_eq]
    omega

@[simp] theorem bitOf_clrBit (n i : Nat) : bitOf (clrBit n i) i = false := by
  rw [clrBit]
  split
  next set =>
    have set : n / 2 ^ i % 2 = 1 := by simpa [bitOf] using set
    have before : (n - 2 ^ i) / 2 ^ i = n / 2 ^ i - 1 := by simpa using Nat.sub_mul_div n (2 ^ i) 1
    simp only [bitOf, before, beq_eq_false_iff_ne]
    omega
  · simpa using ‹¬bitOf n i = true›

section
variable {core k n i : Nat} {m : Mach} {x : Commit}

/-! ## Firing -/

/-- A comparator with no due one before it on its pin fires by itself. -/
theorem opComparatorFire_alone (due : cmpDue core n m = true)
    (alone : ∀ j, j < n → cmpDue core j m = true → 1 ≤ (m.cmp (core * 32 + n)).action ∧ (m.cmp (core * 32 + n)).action ≤ 4 →
      1 ≤ (m.cmp (core * 32 + j)).action ∧ (m.cmp (core * 32 + j)).action ≤ 4 →
      (m.cmp (core * 32 + j)).pin ≠ (m.cmp (core * 32 + n)).pin) :
    opComparatorFire core n m = fireNow (core * 32 + n) m := by
  rw [opComparatorFire, if_pos due]
  extract_lets c same before
  have none_ : before = [] := by
    refine List.filter_eq_nil_iff.2 fun j hj both => ?_
    simp only [same, c, Bool.and_eq_true, decide_eq_true_eq, beq_iff_eq] at both
    obtain ⟨dueJ, ⟨⟨⟨one, four⟩, oneJ⟩, fourJ⟩, pin⟩ := both
    exact alone j (List.mem_range.1 hj) dueJ ⟨one, four⟩ ⟨oneJ, fourJ⟩ pin
  rw [none_]
  rfl

theorem fireNow_idle (act : (m.cmp i).action = 0) : fireNow i m = (rearm i m).evSet (cix (i / 32) (m.cmp i).ctx) 1 := by
  have same : ((rearm i m).cmp i).action = 0 := by rw [rearm, cmp_setCmp, if_pos rfl]; exact act
  simp only [fireNow, act, pinAction, same]
  rfl

theorem rearm_cmp (i : Nat) (m : Mach) : (rearm i m).cmp i =
    { m.cmp i with armed := (m.cmp i).periodic, tgt := if (m.cmp i).periodic then nextTarget (m.cmp i) else (m.cmp i).tgt } := by
  rw [rearm, cmp_setCmp, if_pos rfl]

/-- A comparator that drives its pin high or low. -/
theorem fireNow_drives {act : Nat} (one : act = 1 ∨ act = 2) (h : (m.cmp i).action = act)
    (mode : m.get (R.PIN_GPCFG_MODE (m.cmp i).pin) = 2) :
    fireNow i m = ({ rearm i m with gp := if act = 1 then setBit m.gp (m.cmp i).pin else clrBit m.gp (m.cmp i).pin }).evSet
      (cix (i / 32) (m.cmp i).ctx) 1 := by
  have pin : ((rearm i m).cmp i).pin = (m.cmp i).pin := by rw [rearm_cmp]
  have action : ((rearm i m).cmp i).action = act := by rw [rearm_cmp]; exact h
  have mode : (rearm i m).get (R.PIN_GPCFG_MODE (m.cmp i).pin) = 2 := mode
  rcases one with rfl | rfl
  · simp only [fireNow, h, pinAction, action, pin, pinDrive, mode]
    rfl
  · simp only [fireNow, h, pinAction, action, pin, pinDrive, mode]
    rfl

theorem evpend_evSet (m : Mach) (i : Nat) (bits : Word) :
    ((m.evSet i bits).ctx i).evpend = (m.ctx i).evpend ||| bits := congrArg Ctx.evpend (tget_tput_same ..)

theorem bit0_evSet (m : Mach) (i : Nat) : ((m.evSet i 1).ctx i).evpend.getLsbD 0 = true := by
  rw [evpend_evSet, BitVec.getLsbD_or]
  simp

/-! ## The end of a pulse -/

theorem opPinpulseEnd_eq {pin : Nat} {u : Tick} {lvl : Bool}
    (ends : (m.cmp (core * 32 + n)).pulses.find? (fun p => p.2.1.toNat ≤ m.now) = some (pin, u, lvl))
    (mode : m.get (R.PIN_GPCFG_MODE pin) = 2) : opPinpulseEnd core n m =
      { m.setCmp (core * 32 + n) { m.cmp (core * 32 + n) with pulses := tdel pin (m.cmp (core * 32 + n)).pulses } with
        gp := if lvl then setBit m.gp pin else clrBit m.gp pin } := by
  have mode' (c : Cmp) : (m.setCmp (core * 32 + n) c).get (R.PIN_GPCFG_MODE pin) = 2 := mode
  simp only [opPinpulseEnd, ends, mode', if_true]
  rfl

/-! ## Commits -/

theorem coxOnly_resolveWith (i code : Nat) (x : Commit) (m : Mach) : CoxOnly m (resolveWith i code x m) :=
  (coxOnly_modCtx ..).trans (coxOnly_commitWakes ..)

theorem coxOnly_resolve (i code : Nat) (m : Mach) : CoxOnly m (resolve i code m) := by
  rw [resolve]
  split
  · rfl
  · exact (coxOnly_modCtx ..).trans (coxOnly_resolveWith ..)

/-- Going on to the next seal leaves what the commit before it reported. -/
theorem commitWakes_reports (i : Nat) (m : Mach) : ((commitWakes i m).ctx i).cmtCode = (m.ctx i).cmtCode ∧
    ((commitWakes i m).ctx i).cmtSeq = (m.ctx i).cmtSeq ∧ ((commitWakes i m).ctx i).cmtCount = (m.ctx i).cmtCount := by
  rw [commitWakes]
  split
  next b l rd waits =>
    have turn := turn_resched (i / 4) i (makeReady i ((sealNow i b l rd m).modCtx i Ctx.retire))
    have own : (makeReady i ((sealNow i b l rd m).modCtx i Ctx.retire)).ctx i = _ :=
      (ctx_becomeReady_same ..).trans (by rw [ctx_modCtx_same, ctx_sealNow])
    have keeps (c : Ctx) (rd : Nat) (v : Word) : (c.setG rd v).cmtCode = c.cmtCode ∧ (c.setG rd v).cmtSeq = c.cmtSeq ∧
        (c.setG rd v).cmtCount = c.cmtCount := by
      rw [Ctx.setG]; split <;> exact ⟨rfl, rfl, rfl⟩
    obtain ⟨code, seq, count⟩ := keeps (m.ctx i) rd (BitVec.ofNat 32 (((m.ctx i).cmtSeq + 1) % 256))
    rw [turn.cmtCode, turn.cmtSeq, turn.cmtCount, own]
    exact ⟨code, seq, count⟩
  · exact ⟨rfl, rfl, rfl⟩

/-- A commit that leaves its slot reports code, sequence number and count. -/
theorem resolveWith_reports (i code : Nat) (x : Commit) (m : Mach) :
    ((resolveWith i code x m).ctx i).cmtCode = code ∧ ((resolveWith i code x m).ctx i).cmtSeq = ((m.ctx i).cmtSeq + 1) % 256 ∧
      ((resolveWith i code x m).ctx i).cmtCount = x.entries.length := by
  obtain ⟨c, s, n⟩ := commitWakes_reports i (m.modCtx i fun c =>
    { c with cmtCode := code, cmtSeq := (c.cmtSeq + 1) % 256, cmtCount := x.entries.length,
             evpend := c.evpend ||| (if code ≤ 1 then 2#32 else 4#32) })
  rw [ctx_modCtx_same] at c s n
  exact ⟨c, s, n⟩

theorem resolve_reports (slot : (m.ctx i).slot = some x) (code : Nat) :
    ((resolve i code m).ctx i).cmtCode = code ∧ ((resolve i code m).ctx i).cmtSeq = ((m.ctx i).cmtSeq + 1) % 256 ∧
      ((resolve i code m).ctx i).cmtCount = x.entries.length := by
  obtain ⟨c, s, n⟩ := resolveWith_reports i code x (slotEmpty i m)
  rw [slotEmpty, ctx_modCtx_same] at s
  rw [resolve, slot]
  exact ⟨c, s, n⟩

/-- Boundaries are met and missed by clocks, counts and islands, which no context changes. -/
theorem boundaryPast_modCtx (b : Boundary) (i : Nat) (f : Ctx → Ctx) (m : Mach) :
    boundaryPast b (m.modCtx i f) = boundaryPast b m := by cases b <;> rfl

theorem boundaryHere_modCtx (b : Boundary) (i : Nat) (f : Ctx → Ctx) (m : Mach) :
    boundaryHere b (m.modCtx i f) = boundaryHere b m := by cases b <;> rfl

/-- A sealed commit is ready. -/
def commitReadied (i : Nat) (x : Commit) (m : Mach) : Mach := m.modCtx i fun c => { c with slot := some { x with ready := true } }

/-- What COMMIT_READY does with a sealed commit, by where its boundary lies. -/
theorem opCommitReady_eq (slot : (m.ctx (cix core k)).slot = some x) (fresh : x.ready = false) :
    opCommitReady core k m =
      if boundaryPast x.boundary m then
        if x.lateOk then indivisible (applyCommit 1 (cix core k)) (commitReadied (cix core k) x m)
        else resolve (cix core k) 2 (commitReadied (cix core k) x m)
      else if boundaryHere x.boundary m then commitNow x (commitReadied (cix core k) x m)
      else commitReadied (cix core k) x m := by
  simp only [opCommitReady, slot, fresh, boundaryPast_modCtx, boundaryHere_modCtx]
  rfl

/-! ## Applying -/

/-- The captures that an indivisible step brings leave of a context all but its pending events, and no record. -/
theorem indivisible_frame (f : Mach → Mach) (m : Mach) :
    let n := f { m with snap := { m.snap with frozen := true } }
    (∀ i, ∃ e, (indivisible f m).ctx i = { n.ctx i with evpend := e }) ∧ (indivisible f m).sheets = n.sheets ∧
      (indivisible f m).pwr = n.pwr := by
  intro n
  have left : Ripples True { n with snap := { n.snap with frozen := m.snap.frozen } } (indivisible f m) := ripples_snapTry _
  exact ⟨fun i => ⟨_, left.ctx i⟩, snapTry_sheets _, left.pwr⟩

/-- A commit without entries that nothing awaits. -/
theorem applyCommit_empty (code : Nat) (slot : (m.ctx i).slot = some x) (none_ : x.entries = []) :
    applyCommit code i m = resolveWith i code x (slotEmpty i m) := by
  have up : commitDown x m = false := by rw [commitDown, none_]; rfl
  have other : touchesSlu x = false := by rw [touchesSlu, none_]; rfl
  simp only [applyCommit, slot, up, other, none_]
  rfl

/-- The only context that the machine lists has the only commit. -/
theorem commitsWith_one {c : Ctx} {p : Commit → Bool} (only : m.cox.ctxs = [(i, c)]) (slot : c.slot = some x)
    (ready : x.ready = true) (hp : p x = true) : commitsWith p m = [(x.seq, i)] := by
  simp [commitsWith, only, slot, ready, hp]

theorem commitsAt_one {c : Ctx} {p : Commit → Bool} (only : m.cox.ctxs = [(i, c)]) (slot : c.slot = some x)
    (ready : x.ready = true) (hp : p x = true) : commitsAt p m = indivisible (applyCommit 0 i) m := by
  have seq (n : Mach) (h : n.cox = m.cox) : ((n.ctx i).slot.map (·.seq) == some x.seq) = true := by
    rw [Mach.ctx, h, only, tget, if_pos rfl, slot]
    simp
  rw [commitsAt, commitsWith_one only slot ready hp]
  simp only [List.foldl, bySeq, each, indivisible, seq { m with snap := { m.snap with frozen := true } } rfl, if_true]

end

theorem commitNow_free {x : Commit} (free : ∀ stn, x.boundary ≠ .gap stn) (m : Mach) :
    commitNow x m = commitsAt (fun y => y.seq ≤ x.seq && boundaryHere y.boundary m) m := by
  rw [commitNow]
  split
  next s gap => exact absurd gap (free s)
  · rfl

/-- Settles O33: a comparator alone on its pin fires by itself, and a commit goes the way its boundary says. -/
theorem comparatorsAndCommits : Obligations.ComparatorsAndCommits := by
  intro core k n s ok hn calm m i c drives alone ready
  have range : core < 9 ∧ k < 4 := by simpa [okCtx] using ok
  have unit : (decide (core < 9) && (if core == 8 then decide (n < 16) else decide (n < 32))) = true := by
    rw [cmpCount] at hn
    by_cases sup : core = 8 <;> simp [sup] at hn ⊢ <;> omega
  have fire : exec (.comparatorFire core n) s = .next (settle (s.onMach (opComparatorFire core n))) := onUnitS_of unit (opComparatorFire core n) s
  have own : i / 32 = core := by
    have : cmpCount core ≤ 32 := by rw [cmpCount]; split <;> decide
    omega
  refine ⟨fun armed reached => ?_, fun pin u lvl ends mode => ?_, fun x slot fresh => ?_, fun x slot isReady here => ?_⟩
  · have due : cmpDue core n m = true := by
      rw [cmpDue, Bool.and_eq_true]; exact ⟨armed, reached⟩
    have eff (lone : alone) : opComparatorFire core n m = fireNow i m := opComparatorFire_alone due lone
    refine ⟨fun lone => ?_, fun act hctx => ?_, fun lone act hctx mode hpin => ?_⟩
    · exact fire.trans (congrArg (fun t => Host.Outcome.next (settle t)) (onMach_congr (eff lone)))
    · have lone : alone := fun j _ _ mine => by have : 1 ≤ c.action := mine.1; omega
      have eff := (eff lone).trans (fireNow_idle act)
      rw [own] at eff
      exact ⟨_, actsS_calm fire eff calm, congrArg Cmp.armed (rearm_cmp i m), bit0_evSet .., rfl, rfl⟩
    · have eff := (eff lone).trans (fireNow_drives act rfl mode)
      rw [own] at eff
      refine ⟨_, actsS_calm fire eff calm, ?_, bit0_evSet .., rfl⟩
      change bitOf (if c.action = 1 then setBit m.gp c.pin else clrBit m.gp c.pin) c.pin = _
      rcases act with one | two
      · rw [one]; simp
      · rw [two]; simp
  · have run : exec (.pinpulseEnd core n) s = .next (s.onMach (opPinpulseEnd core n)) := onUnit_of unit (opPinpulseEnd core n) s
    refine ⟨_, acts_to run (opPinpulseEnd_eq ends mode), ?_, rfl, congrArg Cmp.pulses (tget_tput_same ..)⟩
    change bitOf (if lvl then setBit m.gp pin else clrBit m.gp pin) pin = _
    cases lvl <;> simp
  · have run : exec (.commitReady core k) s = .next (settle (s.onMach (opCommitReady core k))) := onUnitS_of ok (opCommitReady core k) s
    have eff := opCommitReady_eq slot fresh
    refine ⟨fun past strict => ?_, fun past late => ?_, fun later here => ?_, fun later before => ?_⟩
    · have past : boundaryPast x.boundary s.mach = true := past
      rw [if_pos past, if_neg (by rw [strict]; decide)] at eff
      have own : (ready x m).ctx (cix core k) = { m.ctx (cix core k) with slot := some { x with ready := true } } := ctx_modCtx_same ..
      obtain ⟨code, seq, -⟩ := resolve_reports (m := ready x m) (i := cix core k) (x := { x with ready := true }) (by rw [own]) 2
      have only : CoxOnly m (resolve (cix core k) 2 (ready x m)) := (coxOnly_modCtx ..).trans (coxOnly_resolve ..)
      have calm : (resolve (cix core k) 2 (ready x m)).pwr.restart = false := by rw [only]; exact calm
      exact ⟨_, actsS_calm run eff calm, code, seq.trans (by rw [own]; rfl), only.regs, only.sheets, rfl⟩
    · have past : boundaryPast x.boundary s.mach = true := past
      rw [if_pos past, if_pos late] at eff
      exact run.trans (congrArg (fun t => Host.Outcome.next (settle t)) (onMach_congr eff))
    · have later : boundaryPast x.boundary s.mach = false := later
      have here : boundaryHere x.boundary s.mach = true := here
      rw [if_neg (by rw [later]; decide), if_pos here] at eff
      exact run.trans (congrArg (fun t => Host.Outcome.next (settle t)) (onMach_congr eff))
    · have later : boundaryPast x.boundary s.mach = false := later
      have before : boundaryHere x.boundary s.mach = false := before
      rw [if_neg (by rw [later]; decide), if_neg (by rw [before]; decide)] at eff
      exact actsS_calm run eff calm
  · have run : exec (.commitApply core k) s = .next (settle (s.onMach (opCommitApply core k))) := onUnitS_of ok (opCommitApply core k) s
    have eff : opCommitApply core k s.mach = commitNow x s.mach := by
      have slot : (s.mach.ctx (cix core k)).slot = some x := slot
      have here : boundaryHere x.boundary s.mach = true := here
      simp only [opCommitApply, slot, isReady, here]; rfl
    refine ⟨run.trans (congrArg (fun t => Host.Outcome.next (settle t)) (onMach_congr eff)), fun free only none_ waits => ?_⟩
    have here : boundaryHere x.boundary s.mach = true := here
    let frozen : Mach := { s.mach with snap := { s.mach.snap with frozen := true } }
    have slot' : (frozen.ctx (cix core k)).slot = some x := slot
    have eff := (eff.trans (commitNow_free free _)).trans (commitsAt_one only slot isReady (by simp [here]))
    obtain ⟨ctxs, sheets, pwr⟩ := indivisible_frame (applyCommit 0 (cix core k)) s.mach
    rw [applyCommit_empty (m := frozen) 0 slot' none_] at ctxs sheets pwr
    have emptied : (slotEmpty (cix core k) frozen).ctx (cix core k) = { frozen.ctx (cix core k) with slot := none } := ctx_modCtx_same ..
    have own := resolveWith_ctx (cix core k) 0 x (m := slotEmpty (cix core k) frozen) (by rw [emptied])
      (by rw [emptied]; exact waits)
    have left : CoxOnly frozen (resolveWith (cix core k) 0 x (slotEmpty (cix core k) frozen)) :=
      (coxOnly_modCtx ..).trans (coxOnly_resolveWith ..)
    obtain ⟨e, now⟩ := ctxs (cix core k)
    rw [own, emptied] at now
    have calm' : (indivisible (applyCommit 0 (cix core k)) s.mach).pwr.restart = false := by
      rw [pwr, left]; exact calm
    exact ⟨_, actsS_calm run eff calm', (congrArg Ctx.slot now :), (congrArg Ctx.cmtCode now :),
      (congrArg Ctx.cmtCount now :).trans (by rw [none_]; rfl), (congrArg Ctx.cmtSeq now :), sheets.trans left.sheets, rfl⟩

/-- Settles O34: the two branches of applying a commit. -/
theorem commitAppliesWhole : Obligations.CommitAppliesWhole := by
  intro i code x m slot led
  refine ⟨fun up => ?_, fun down => ?_⟩
  · have due : when (touchesSlu x) ledgerDue m = led := rfl
    simp only [applyCommit, slot, up, due]
    rfl
  · have eff : applyCommit code i m = resolve i 3 m := by
      simp only [applyCommit, slot, down]; rfl
    obtain ⟨reports, seq, count⟩ := resolve_reports slot 3
    rw [eff]
    exact ⟨(coxOnly_resolve ..).regs, reports, seq, count⟩

end Sys2Proof.Machine
end

section
/-! PROOFS. The steps of a descriptor through ingest (O35). -/

namespace Sys2Proof.Machine

section
variable {n : Nat} {i : Ingest} {bs : List Byte} {ecc : Ecc} {mem : Mem} {m m' : Mach} {s : State}

/-- A command that reads the memories and acts on the machine, with what it makes of it. -/
theorem actsR_to {o : Host.Outcome State Fault Refusal} {f : Mem → Mach → Mach} (run : o = onUnitR true f s)
    (eff : f s.mem s.mach = m') : o = .next (s.onMach fun _ => m') := run.trans (congrArg _ (onMach_congr eff))

/-! ## Taking a descriptor -/

/-- The machine with a further descriptor. -/
def ingestTook (i : Ingest) (m : Mach) : Mach := m.onPeat fun p => { p with ingest := p.ingest ++ [i] }

theorem opIngestDescriptor_takes (may : mayTake m = true)
    (takes : ringTake (m.get R.PEAT_CTL_INRING) 2 mem m = (some bs, m')) :
    opIngestDescriptor mem m =
      let new : Ingest := { desc := bytesWords 8 bs, stage := .room }
      if descCode (ingestTook new m') new ≠ 0 then
        ingestFail m'.peat.ingest.length (descCode (ingestTook new m') new) (ingestTook new m')
      else if classify (ingestTook new m') new ≠ 0 then
        ingestFail m'.peat.ingest.length (classify (ingestTook new m') new) (ingestTook new m')
      else ingestTook new m' := by
  simp only [opIngestDescriptor, may, takes, bne_iff_ne]
  rfl

/-! ## Store units -/

@[simp] theorem jsCount_peat (m : Mach) : (jsCount m).peat = m.peat := by
  rw [jsCount, when]
  split
  · exact (assertEvent_peat ..).trans rfl
  · rfl

theorem jsCount_get {f : FRef} (h : f.key ≠ R.PEAT_JSFREE_UNITS.key) (m : Mach) : (jsCount m).get f = m.get f := by
  rw [jsCount, when]
  split
  · exact (assertEvent_get ..).trans (Mach.get_set_ne _ h _)
  · exact Mach.get_set_ne _ h _

/-- The machine once the transfer of a descriptor has been given its units and its channel. -/
def ingestStarts (n : Nat) (i : Ingest) (m : Mach) : Mach :=
  let m' := jsCount (m.setIngest n
    { i with units := unitsWanted m i, stage := .transfer false, keepRaw := m.on R.PEAT_CTL_KEEPRAW })
  let c := m'.get R.PEAT_CTL_INCH
  setCur c (if i.inDram then i.addr % 2 ^ 40 else hostToWindow i.addr) (m'.set (R.DMA_STAT_STATE c) dRun)

theorem opIngestAllocate_starts (room : m.peat.ingest.findIdx? (·.stage == .room) = some n)
    (desc : m.peat.ingest[n]? = some i) (free : (inTransfer m).isNone = true) (units : unitsWanted m i ≤ freeUnits m)
    (index : usedIndex m < 131072) (up : domUp 11 m = true) : opIngestAllocate m = ingestStarts n i m := by
  have all : ((inTransfer m).isNone && decide (unitsWanted m i ≤ freeUnits m) && decide (usedIndex m < 131072) && domUp 11 m) = true := by
    simp [free, units, index, up]
  simp only [opIngestAllocate, room, desc, all]
  rfl

theorem ingestStarts_peat (n : Nat) (i : Ingest) (m : Mach) : (ingestStarts n i m).peat.ingest = m.peat.ingest.set n
    { i with units := unitsWanted m i, stage := .transfer false, keepRaw := m.on R.PEAT_CTL_KEEPRAW } :=
  (congrArg Peat.ingest (jsCount_peat _) :)

theorem setCur_state (c a : Nat) (m : Mach) : (setCur c a m).get (R.DMA_STAT_STATE c) = m.get (R.DMA_STAT_STATE c) :=
  (Mach.get_set_ne _ (by simp only [R.DMA_STAT_STATE, R.DMA_CUR_HI_CUR]; omega) _).trans
    (Mach.get_set_ne _ (by simp only [R.DMA_STAT_STATE, R.DMA_CUR_LO_CUR]; omega) _)

theorem ingestStarts_state (n : Nat) (i : Ingest) (m : Mach) :
    (ingestStarts n i m).get (R.DMA_STAT_STATE (m.get R.PEAT_CTL_INCH)) = dRun := by
  unfold ingestStarts
  extract_lets m' c
  have chan : c = m.get R.PEAT_CTL_INCH := (jsCount_get (by decide) _).trans rfl
  rw [← chan, setCur_state]
  exact Mach.get_set_val (f := R.DMA_STAT_STATE c) rfl (by simp [R.DMA_STAT_STATE, dRun]) _

theorem ingestStarts_sheets (n : Nat) (i : Ingest) (m : Mach) : (ingestStarts n i m).sheets = m.sheets := jsCount_sheets _

/-! ## The transfer -/

theorem opPeatHeaderArrived_reads (now : inTransfer m = some n) (desc : m.peat.ingest[n]? = some i) (peat : i.isPeat = true)
    (stage : i.stage = .transfer false) (read : bandRead i 32 ecc mem m = .bytes bs m') :
    opPeatHeaderArrived ecc mem m = if headerCode i (bytesWords 8 bs) = 0 then m'.setIngest n { i with stage := .transfer true }
      else ingestFail n (headerCode i (bytesWords 8 bs)) (holdRelease (transferEnd m')) := by
  have first : (!i.isPeat || i.stage != .transfer false) = false := by rw [peat, stage]; rfl
  simp only [opPeatHeaderArrived, now, desc, first, read]
  rfl

theorem opIngestTransferDone_reads (now : inTransfer m = some n) (desc : m.peat.ingest[n]? = some i)
    (stage : i.isPeat = true → i.stage = .transfer true) (read : bandRead i i.len ecc mem m = .bytes bs m') :
    opIngestTransferDone ecc mem m = transferred n i bs (holdRelease (transferEnd m')) := by
  have last : (i.isPeat && i.stage != .transfer true) = false := by
    cases peat : i.isPeat
    · rfl
    · rw [stage peat]; rfl
  simp only [opIngestTransferDone, now, desc, last, read]
  rfl

theorem transferred_wrong (crc : crcRight i bs = false) : transferred n i bs m =
    ingestFail n (if i.isPeat then 1 else 2) (m.incSat (R.CRC_ERR_ERRS 0)) := by
  simp only [transferred, crc]; rfl

theorem transferred_late (crc : crcRight i bs = true) (kept : i.purged = false) (code : classify m i ≠ 0) :
    transferred n i bs m = ingestFail n (classify m i) m := by
  simp only [transferred, crc, kept, bne_iff_ne.2 code]; rfl

theorem transferred_raw (crc : crcRight i bs = true) (kept : i.purged = false) (code : classify m i = 0)
    (raw : i.isPeat = false) : transferred n i bs m = if i.keepRaw then makeResident n (bandFrom i bs) m
      else m.setIngest n { i with stage := .wait, band := some (bandFrom i bs) } := by
  simp only [transferred, crc, kept, code, raw]; rfl

theorem transferred_peat (crc : crcRight i bs = true) (kept : i.purged = false) (code : classify m i = 0)
    (peat : i.isPeat = true) (plain : m.on R.PEAT_CTL_VERIFY = false) :
    transferred n i bs m = makeResident n (bandFrom i bs) m := by
  simp only [transferred, crc, kept, code, peat, plain, Bool.and_false]; rfl

end

/-- Settles O35: each step of a descriptor is the branch that its checks choose. -/
theorem ingestSteps : Obligations.IngestSteps := by
  intro ecc n i bs m' s m new took ended
  refine ⟨fun may takes => ?_, fun room desc free units index up => ?_, fun now desc => ⟨fun peat stage read => ?_, fun stage read => ?_⟩⟩
  · have run : exec .ingestDescriptor s = onUnitR true opIngestDescriptor s := rfl
    have eff := opIngestDescriptor_takes may takes
    refine ⟨fun good fresh => ?_, fun bad => ?_, fun good late => ?_⟩
    · exact ⟨_, actsR_to run (eff.trans ((if_neg (not_not.2 good)).trans (if_neg (not_not.2 fresh)))), rfl, rfl⟩
    · exact actsR_to run (eff.trans (if_pos bad))
    · exact actsR_to run (eff.trans ((if_neg (not_not.2 good)).trans (if_pos late)))
  · have run : exec .ingestAllocate s = .next (s.onMach opIngestAllocate) := onUnit_of rfl opIngestAllocate s
    have inside : n < m.peat.ingest.length := (List.getElem?_eq_some_iff.1 desc).1
    refine ⟨_, acts_to run (opIngestAllocate_starts room desc free units index up), ?_, ingestStarts_state n i m,
      ingestStarts_sheets n i m, rfl⟩
    rw [ingestStarts_peat]
    exact List.getElem?_set_self inside
  · have run : exec (.peatHeaderArrived ecc) s = onUnitR true (opPeatHeaderArrived ecc) s := rfl
    have eff := opPeatHeaderArrived_reads now desc peat stage read
    exact ⟨fun good => actsR_to run (eff.trans (if_pos good)), fun bad => actsR_to run (eff.trans (if_neg bad))⟩
  · have run : exec (.ingestTransferDone ecc) s = onUnitR true (opIngestTransferDone ecc) s := rfl
    have eff := opIngestTransferDone_reads now desc stage read
    refine ⟨fun wrong => actsR_to run (eff.trans (transferred_wrong wrong)), fun crc kept => ⟨fun code => ?_, fun code raw keep => ?_,
      fun code raw keep => ?_, fun code peat plain => ?_⟩⟩
    · exact actsR_to run (eff.trans (transferred_late crc kept code))
    · exact actsR_to run (eff.trans ((transferred_raw crc kept code raw).trans (if_neg (by rw [keep]; decide))))
    · exact actsR_to run (eff.trans ((transferred_raw crc kept code raw).trans (if_pos keep)))
    · exact actsR_to run (eff.trans (transferred_peat crc kept code peat plain))

end Sys2Proof.Machine
end

section
/-! PROOFS. Deflate engines, verification and completion records (O36). -/

namespace Sys2Proof.Machine

section
variable {n e : Nat} {i : Ingest} {b : Band} {out : List Byte} {m : Mach}

/-! ## Engines -/

theorem opDeflateStart_takes (first : firstWaiting m = some n) (free : ∃ r, freeEngines m = e :: r)
    (desc : m.peat.ingest[n]? = some i) (raw : i.verifies = false) : opDeflateStart m =
      m.setIngest n { i with stage := .engine e, depth := clampN 1 64 (m.get R.PEAT_DEFCFG_DEPTH) } := by
  obtain ⟨r, free⟩ := free
  simp only [opDeflateStart, first, free, desc, raw]
  rfl

theorem opDeflateDone_gives (on : onEngine m e = some (n, i)) (band : i.band = some b) (raw : i.verifies = false)
    (blocks : deflates out i.rawLen = true) : opDeflateDone e out m =
      if (inflate out i.rawLen).2 && (inflate out i.rawLen).1 == b.payload then
        verifyTake (makeResident n { b with raw := false, stored := true, payload := out } m)
      else verifyTake (makeResident n b (note 0x0B0 0x02 0 (assertEvent 0x0B3 (m.incSat R.PEAT_STAT2_VERIFYMM)))) := by
  simp only [opDeflateDone, on, band, raw, blocks]
  rfl

theorem opIngestVerifyDone_gives (on : onEngine m e = some (n, i)) (band : i.band = some b) (check : i.verifies = true) :
    opIngestVerifyDone e m = if (inflate b.payload i.rawLen).2 then verifyTake (makeResident n b m)
      else verifyTake (ingestFail n 0x0A m) := by
  simp only [opIngestVerifyDone, on, band, check]
  rfl

/-! ## Residency -/

theorem recountFor_peat (sid : Sid) (m : Mach) : (recountFor sid m).peat = m.peat :=
  each_keeps (f := recount) (p := Mach.peat) _ (fun _ _ _ => rfl) m

/-- The first band of an entry. -/
theorem makeResident_first (desc : m.peat.ingest[n]? = some i) (kept : i.purged = false) (new : m.entry i.sid = none) :
    (makeResident n b m).peat = ((m.setEntry i.sid { bands := [b] }).setIngest n
      { i with stage := .post, code := 0, kept := b.bytes, units := 0, band := none }).peat := by
  have alone : (match liveRec m i.sid with
      | some r => (({} : Entry).bands.filter fun x => x.stn == b.stn && x.band == b.band).any fun x => x.fits (m.sheet r)
      | none => !(({} : Entry).bands.filter fun x => x.stn == b.stn && x.band == b.band).isEmpty) = false := by
    cases liveRec m i.sid <;> rfl
  simp only [makeResident, desc, new, kept]
  refine (congrArg Mach.peat (if_neg Bool.false_ne_true)).trans ((congrArg Mach.peat (if_neg ?_)).trans ?_)
  · rw [Bool.not_eq_true]; exact alone
  · rw [recountFor_peat, jsCount_peat]
    rfl

/-! ## Completion records -/

theorem opIngestCompletionPost_posts {rest : List Ingest} {mem mem' : Mem} {m' : Mach} (head : m.peat.ingest = i :: rest)
    (post : i.stage = .post) (up : domUp 11 m = true)
    (puts : ringPut (m.get R.PEAT_CTL_CPRING) 2 (completion m i) m mem = (true, m', mem')) : opIngestCompletionPost m mem =
      (when (i.code != 0x00 && i.code != 0x05 && i.code != 0x06) (assertEvent 0x0B2)
        (assertEvent 0x0B0 (m'.onPeat fun p => { p with ingest := rest })), mem') := by
  have ready : (i.stage == .post && domUp 11 m) = true := by rw [post, up]; rfl
  simp only [opIngestCompletionPost, head, ready, puts]
  rfl

/-- Event lines after a change leave the descriptors and the registers. -/
theorem posted_frame (c : Bool) (m : Mach) : (when c (assertEvent 0x0B2) (assertEvent 0x0B0 m)).peat = m.peat ∧
    (when c (assertEvent 0x0B2) (assertEvent 0x0B0 m)).regs = m.regs := by
  rw [when]
  split
  · exact ⟨(assertEvent_peat ..).trans (assertEvent_peat ..), (assertEvent_regs ..).trans (assertEvent_regs ..)⟩
  · exact ⟨assertEvent_peat .., assertEvent_regs ..⟩

end

/-- Settles O36: each engine's end is the branch that decoding its output chooses, and the oldest record is posted. -/
theorem deflateAndComplete : Obligations.DeflateAndComplete := by
  intro n e i b out s he m
  have unit : decide (e < 4) = true := by simpa using he
  refine ⟨fun first free desc raw => ?_, fun on band => ⟨fun raw blocks => ?_, fun check => ?_⟩, fun desc kept new => ?_,
    fun rest m' mem' head post up puts => ?_⟩
  · have run : exec .deflateStart s = .next (s.onMach opDeflateStart) := onUnit_of rfl opDeflateStart s
    exact ⟨_, acts_to run (opDeflateStart_takes first free desc raw), rfl, rfl, rfl, rfl⟩
  · have run : exec (.deflateDone e out) s = .next (s.onMach (opDeflateDone e out)) := onUnit_of unit (opDeflateDone e out) s
    have eff := opDeflateDone_gives on band raw blocks
    refine ⟨fun whole => ?_, fun differs => ?_⟩
    · exact run.trans (congrArg _ (onMach_congr (eff.trans (if_pos (by rw [whole]; simp)))))
    · exact run.trans (congrArg _ (onMach_congr (eff.trans (if_neg (by simp [differs])))))
  · have run : exec (.ingestVerifyDone e) s = .next (s.onMach (opIngestVerifyDone e)) := onUnit_of unit (opIngestVerifyDone e) s
    have eff := opIngestVerifyDone_gives on band check
    exact ⟨fun good => run.trans (congrArg _ (onMach_congr (eff.trans (if_pos good)))),
      fun bad => run.trans (congrArg _ (onMach_congr (eff.trans (if_neg (by rw [bad]; decide)))))⟩
  · have inside : n < m.peat.ingest.length := (List.getElem?_eq_some_iff.1 desc).1
    have peat := makeResident_first (b := b) desc kept new
    refine ⟨?_, { i with stage := .post, code := 0, kept := b.bytes, units := 0, band := none }, ?_, rfl, rfl, rfl, rfl⟩
    · rw [Mach.entry, peat]
      exact tfind_tput_same ..
    · rw [peat]
      exact List.getElem?_set_self inside
  · have run : exec .ingestCompletionPost s = _ := onUnitM_of rfl opIngestCompletionPost s
    obtain ⟨peat, regs⟩ := posted_frame (i.code != 0x00 && i.code != 0x05 && i.code != 0x06) (m'.onPeat fun p => { p with ingest := rest })
    exact ⟨_, actsM_to run (opIngestCompletionPost_posts head post up puts), congrArg Peat.ingest peat, rfl, regs⟩

end Sys2Proof.Machine
end

section
/-! PROOFS. Operations on the job store and the end of a hold (O37). -/

namespace Sys2Proof.Machine

/-! ## Removals from a table -/

section
variable {α : Type} {k j : Nat} {t : Tab α}

theorem tfind_tdel_ne (h : j ≠ k) (t : Tab α) : tfind j (tdel k t) = tfind j t := by
  induction t with
  | nil => rfl
  | cons p t ih =>
    obtain ⟨i, a⟩ := p
    rw [tdel]
    split
    · subst_vars; rw [tfind, if_neg (Ne.symm h)]
    · rw [tfind, tfind, ih]

theorem tfind_of_not_mem (h : k ∉ t.map (·.1)) : tfind k t = none := by
  induction t with
  | nil => rfl
  | cons p t ih =>
    simp only [List.map_cons, List.mem_cons, not_or] at h
    rw [tfind, if_neg (Ne.symm h.1), ih h.2]

theorem tfind_tdel_same (h : (t.map (·.1)).Nodup) : tfind k (tdel k t) = none := by
  induction t with
  | nil => rfl
  | cons p t ih =>
    obtain ⟨i, a⟩ := p
    obtain ⟨out, rest⟩ := List.nodup_cons.1 h
    rw [tdel]
    by_cases same : i = k
    · subst same; rw [if_pos rfl]; exact tfind_of_not_mem out
    · rw [if_neg (Ne.symm same), tfind, if_neg same, ih rest]

theorem keys_tdel (k : Nat) (t : Tab α) : ((tdel k t).map (·.1)).Sublist (t.map (·.1)) := by
  induction t with
  | nil => exact List.Sublist.refl _
  | cons p t ih =>
    obtain ⟨i, a⟩ := p
    rw [tdel]
    split
    · exact List.sublist_cons_self ..
    · exact ih.cons_cons _

theorem mem_of_tfind {a : α} (h : tfind k t = some a) : (k, a) ∈ t := by
  induction t with
  | nil => cases h
  | cons p t ih =>
    obtain ⟨i, b⟩ := p
    rw [tfind] at h
    split at h
    · subst_vars; cases h; exact List.mem_cons_self
    · exact List.mem_cons_of_mem _ (ih h)

theorem tfind_of_mem {a : α} (nodup : (t.map (·.1)).Nodup) (h : (k, a) ∈ t) : tfind k t = some a := by
  induction t with
  | nil => cases h
  | cons p t ih =>
    obtain ⟨i, b⟩ := p
    obtain ⟨out, rest⟩ := List.nodup_cons.1 nodup
    rw [tfind]
    rcases List.mem_cons.1 h with e | e
    · cases e; exact if_pos rfl
    · rw [if_neg (fun same => out (by subst same; exact List.mem_map_of_mem (f := (·.1)) e)), ih rest e]

end

/-! ## Results -/

section
variable {q : Requester} {sid x : Sid} {code units : Nat} {pinned refd hold : Bool} {e : Entry} {s : State} {m : Mach}

theorem own_jsResult (q : Requester) (code : Nat) (pinned refd hold : Bool) (units : Nat) (m : Mach) :
    (jsResult q code pinned refd hold units m).own (Requester.id q) R.PEAT_JSRES_CODE.key =
      BitVec.ofNat 32 (code + b2n pinned * 16 + b2n refd * 32 + b2n hold * 64 + units % 2 ^ 24 * 2 ^ 8) := tget_tput_same ..

/-- A result reads back from the requester's own PEAT_JSRES. -/
theorem jsResult_fields (hc : code < 16) (pinned refd hold : Bool) (units : Nat) (m : Mach) :
    let w := (jsResult q code pinned refd hold units m).own (Requester.id q) R.PEAT_JSRES_CODE.key
    R.PEAT_JSRES_CODE.of w = code ∧ R.PEAT_JSRES_PINNED.of w = b2n pinned ∧ R.PEAT_JSRES_UNITS.of w = units % 2 ^ 24 := by
  intro w
  have one (b : Bool) : b2n b ≤ 1 := by cases b <;> decide
  have p := one pinned; have r := one refd; have h := one hold
  simp only [w, own_jsResult, R.PEAT_JSRES_CODE, R.PEAT_JSRES_PINNED, R.PEAT_JSRES_UNITS, FRef.of, bitsOf, BitVec.toNat_ofNat]
  refine ⟨?_, ?_, ?_⟩ <;> omega

/-- What the statement asks of a result: its code, whether the entry is pinned, and the entry's units. -/
theorem reports_of {t : State} (eff : t.mach = jsResult q code pinned refd hold units m) (hc : code < 16)
    (hu : units = e.units) : R.PEAT_JSRES_CODE.of (t.mach.own (Requester.id q) R.PEAT_JSRES_CODE.key) = code ∧
      R.PEAT_JSRES_PINNED.of (t.mach.own (Requester.id q) R.PEAT_JSRES_CODE.key) = b2n pinned ∧
      R.PEAT_JSRES_UNITS.of (t.mach.own (Requester.id q) R.PEAT_JSRES_CODE.key) = e.units % 2 ^ 24 := by
  rw [eff, ← hu]
  exact jsResult_fields hc pinned refd hold units m

/-! ## Entries -/

theorem entry_setEntry (x sid : Sid) (e : Entry) (m : Mach) :
    (m.setEntry sid e).entry x = if x = sid then some e else m.entry x := by
  refine (tfind_tput ..).trans (if_congr ?_ rfl rfl)
  exact ⟨BitVec.eq_of_toNat_eq, congrArg _⟩

theorem jsRelease_entries (sid : Sid) (m : Mach) : (jsRelease sid m).peat.entries = tdel sid.toNat m.peat.entries :=
  congrArg Peat.entries (jsCount_peat _)

theorem entry_jsRelease_same (nodup : (m.peat.entries.map (·.1)).Nodup) : (jsRelease sid m).entry sid = none := by
  rw [Mach.entry, jsRelease_entries]
  exact tfind_tdel_same nodup

theorem entry_jsRelease_ne (h : x ≠ sid) (m : Mach) : (jsRelease sid m).entry x = m.entry x := by
  rw [Mach.entry, jsRelease_entries]
  exact tfind_tdel_ne (fun e => h (BitVec.eq_of_toNat_eq e)) _

/-- The entries that a run of releases leaves. -/
theorem entry_releases (l : List (Nat × Entry)) : ∀ m : Mach, (m.peat.entries.map (·.1)).Nodup →
    (each l (fun p => jsRelease (BitVec.ofNat 24 p.1)) m).entry x =
      if x ∈ l.map (fun p => (BitVec.ofNat 24 p.1 : Sid)) then none else m.entry x := by
  induction l with
  | nil => exact fun _ _ => (if_neg (by simp)).symm
  | cons p l ih =>
    intro m nodup
    have still : ((jsRelease (BitVec.ofNat 24 p.1) m).peat.entries.map (·.1)).Nodup := by
      rw [jsRelease_entries]; exact nodup.sublist (keys_tdel ..)
    refine (ih (jsRelease (BitVec.ofNat 24 p.1) m) still).trans ?_
    by_cases here : x = BitVec.ofNat 24 p.1
    · subst here
      rw [if_pos (by simp : (BitVec.ofNat 24 p.1 : Sid) ∈ (p :: l).map (fun p => (BitVec.ofNat 24 p.1 : Sid)))]
      split
      · rfl
      · exact entry_jsRelease_same nodup
    · rw [entry_jsRelease_ne here]
      refine if_congr ?_ rfl rfl
      simp [here]

/-- The entries that a sweep releases. -/
def sweeps (m : Mach) (p : Nat × Entry) : Bool :=
  !p.2.pinned && p.2.hold.isNone && !referenced (BitVec.ofNat 24 p.1) m

theorem swept_iff (nodup : (m.peat.entries.map (·.1)).Nodup) (small : ∀ p ∈ m.peat.entries, p.1 < 2 ^ 24)
    (has : m.entry x = some e) :
    x ∈ (m.peat.entries.filter (sweeps m)).map (fun p => (BitVec.ofNat 24 p.1 : Sid)) ↔
      ¬(e.pinned = true ∨ e.hold.isSome = true ∨ referenced x m = true) := by
  have back : (BitVec.ofNat 24 x.toNat : Sid) = x := by simp
  have self : sweeps m (x.toNat, e) = true ↔ ¬(e.pinned = true ∨ e.hold.isSome = true ∨ referenced x m = true) := by
    simp only [sweeps, back]
    cases e.pinned <;> cases e.hold <;> simp
  rw [← self]
  refine ⟨fun h => ?_, fun h => ?_⟩
  · obtain ⟨p, hp, same⟩ := List.mem_map.1 h
    obtain ⟨listed, go⟩ := List.mem_filter.1 hp
    have key : p.1 = x.toNat := by
      rw [← same]
      exact (Nat.mod_eq_of_lt (small p listed)).symm
    have value : tfind x.toNat m.peat.entries = some p.2 := tfind_of_mem nodup (by rw [← key]; exact listed)
    have : p = (x.toNat, e) := Prod.ext key (Option.some_inj.1 (value.symm.trans has))
    rwa [this] at go
  · exact List.mem_map.2 ⟨(x.toNat, e), List.mem_filter.2 ⟨mem_of_tfind has, h⟩, back⟩

theorem entry_jsSweep (nodup : (m.peat.entries.map (·.1)).Nodup) (small : ∀ p ∈ m.peat.entries, p.1 < 2 ^ 24)
    (has : m.entry x = some e) : (jsSweep q m).entry x =
      if e.pinned = true ∨ e.hold.isSome = true ∨ referenced x m = true then some e else none := by
  refine (entry_releases (m.peat.entries.filter (sweeps m)) m nodup).trans ?_
  by_cases stays : e.pinned = true ∨ e.hold.isSome = true ∨ referenced x m = true
  · rw [if_pos stays, if_neg (fun h => (swept_iff nodup small has).1 h stays), has]
  · rw [if_neg stays, if_pos ((swept_iff nodup small has).2 stays)]

/-! ## Operations -/

theorem jsUnpin_keeps (has : m.entry sid = some e) (stays : e.ended = false ∨ referenced sid m = true) :
    jsUnpin q sid m = jsReport q sid { e with pinned := false } 0 (m.setEntry sid { e with pinned := false }) := by
  have no : (e.ended && !referenced sid m) = false := by rcases stays with h | h <;> simp [h]
  simp only [jsUnpin, has, no]
  rfl

theorem jsPurge_refused (has : m.entry sid = some e) (refd : referenced sid m = true) : jsPurge q sid m = jsReport q sid e 2 m := by
  simp only [jsPurge, has, refd]
  rfl

/-- The machine with the descriptors of a purged entry marked. -/
def purged (sid : Sid) (m : Mach) : Mach :=
  m.onPeat fun p => { p with ingest := p.ingest.map fun i => if i.sid == sid && i.stage != .post then { i with purged := true } else i }

theorem jsPurge_acts (has : m.entry sid = some e) (free : referenced sid m = false) :
    jsPurge q sid m = jsResult q 0 false false false e.units (jsRelease sid (purged sid m)) := by
  simp only [jsPurge, has, free]
  rfl

theorem acts_byJsop {o : Host.Outcome State Fault Refusal} {f : Mach → Mach} (run : o = .next (s.onMach (byJsop q f)))
    (lets : s.lets q false R.PEAT_JSOP_SID.key) : o = .next (s.onMach f) := acts_guarded run lets

theorem opJobStoreHoldExpire_due {u : Tick} (has : m.entry sid = some e) (hold : e.hold = some u) (due : u.toNat ≤ m.now) :
    opJobStoreHoldExpire sid m = if referenced sid m || e.pinned then m.setEntry sid { e with hold := none, ended := true }
      else jsRelease sid m := by
  simp only [opJobStoreHoldExpire, has, hold, due, if_true]

end

/-- Settles O37: each operation writes at most its entry and the requester's own result; a sweep is a run of releases. -/
theorem jobStoreOperations : Obligations.JobStoreOperations := by
  intro q sid op e s okq m res reports
  refine ⟨fun lets => ⟨fun undef => ?_, fun none_ i hi => ?_, fun has => ⟨?_, ?_, fun stays => ?_, fun refd => ?_, fun free nodup => ?_⟩,
    fun nodup small => ?_⟩, fun u has hold due => ⟨fun stays => ?_, fun free unpinned nodup => ?_⟩⟩
  · have unit : (okReq q && (op == 0 || op == 6 || op == 7)) = true := by rcases undef with rfl | rfl | rfl <;> simp [okq]
    have run : exec (.jsopUndefined q op sid) s = .next (s.onMach (jsResult q 3 false false false 0)) :=
      acts_byJsop (onUnit_of unit (opJsopUndefined q op sid) s) lets
    exact ⟨_, run, own_jsResult .., rfl, rfl, rfl⟩
  · have none_ : s.mach.entry sid = none := none_
    have absent {f : Mach → Mach} (run : exec i s = .next (s.onMach f)) (eff : f s.mach = jsResult q 1 false false false 0 s.mach) :
        ∃ t, exec i s = .next t ∧ res t = 1 ∧ t.mach.peat = m.peat ∧ t.mach.regs = m.regs ∧ t.mem = s.mem :=
      ⟨_, acts_to run eff, own_jsResult .., rfl, rfl, rfl⟩
    simp only [List.mem_cons, List.not_mem_nil, or_false] at hi
    rcases hi with rfl | rfl | rfl | rfl
    · exact absent (acts_byJsop (onUnit_of okq (opPurge q sid) s) lets) (by rw [jsPurge, none_])
    · exact absent (acts_byJsop (onUnit_of okq (opPin q sid) s) lets) (by rw [jsPin, none_])
    · exact absent (acts_byJsop (onUnit_of okq (opUnpin q sid) s) lets) (by rw [jsUnpin, none_])
    · exact absent (acts_byJsop (onUnit_of okq (opQuery q sid) s) lets) (by rw [jsQuery, none_])
  · have run : exec (.query q sid) s = .next (s.onMach (jsQuery q sid)) := acts_byJsop (onUnit_of okq (opQuery q sid) s) lets
    have has : s.mach.entry sid = some e := has
    have eff : jsQuery q sid s.mach = jsReport q sid e 0 s.mach := by rw [jsQuery, has]
    exact ⟨_, acts_to run eff, reports_of rfl (by decide) rfl, rfl, rfl⟩
  · have run : exec (.pin q sid) s = .next (s.onMach (jsPin q sid)) := acts_byJsop (onUnit_of okq (opPin q sid) s) lets
    have has : s.mach.entry sid = some e := has
    have eff : jsPin q sid s.mach = jsReport q sid { e with pinned := true } 0 (s.mach.setEntry sid { e with pinned := true }) := by
      rw [jsPin, has]
    exact ⟨_, acts_to run eff, reports_of rfl (by decide) rfl, (entry_setEntry ..).trans (if_pos rfl),
      fun x ne => (entry_setEntry ..).trans (if_neg ne), rfl⟩
  · have run : exec (.unpin q sid) s = .next (s.onMach (jsUnpin q sid)) := acts_byJsop (onUnit_of okq (opUnpin q sid) s) lets
    exact ⟨_, acts_to run (jsUnpin_keeps has stays), reports_of rfl (by decide) rfl, (entry_setEntry ..).trans (if_pos rfl), rfl⟩
  · have run : exec (.purge q sid) s = .next (s.onMach (jsPurge q sid)) := acts_byJsop (onUnit_of okq (opPurge q sid) s) lets
    exact ⟨_, acts_to run (jsPurge_refused has refd), reports_of rfl (by decide) rfl, rfl, rfl⟩
  · have run : exec (.purge q sid) s = .next (s.onMach (jsPurge q sid)) := acts_byJsop (onUnit_of okq (opPurge q sid) s) lets
    have listed : ((purged sid s.mach).peat.entries.map (·.1)).Nodup := nodup
    exact ⟨_, acts_to run (jsPurge_acts has free), reports_of rfl (by decide) rfl, entry_jsRelease_same listed,
      fun x ne => entry_jsRelease_ne ne (purged sid s.mach)⟩
  · have run : exec (.sweep q) s = .next (s.onMach (jsSweep q)) := acts_byJsop (onUnit_of okq (opSweep q) s) lets
    exact ⟨_, run, (jsResult_fields (by decide) ..).1, fun x e has => entry_jsSweep nodup small has⟩
  · have run : exec (.jobStoreHoldExpire sid) s = .next (s.onMach (opJobStoreHoldExpire sid)) :=
      onUnit_of rfl (opJobStoreHoldExpire sid) s
    have eff := (opJobStoreHoldExpire_due has hold due).trans (if_pos (by rcases stays with h | h <;> simp [h]))
    exact ⟨_, acts_to run eff, (entry_setEntry ..).trans (if_pos rfl), rfl⟩
  · have run : exec (.jobStoreHoldExpire sid) s = .next (s.onMach (opJobStoreHoldExpire sid)) :=
      onUnit_of rfl (opJobStoreHoldExpire sid) s
    have free : referenced sid s.mach = false := free
    have eff := (opJobStoreHoldExpire_due has hold due).trans (if_neg (by rw [free, unpinned]; decide))
    exact ⟨_, acts_to run eff, entry_jsRelease_same nodup, jsRelease_sheets ..⟩

end Sys2Proof.Machine
end

section
/-! PROOFS. A run of the decoder that stops early gives the first bytes of the whole output (R150). -/

namespace Sys2Proof.Machine

/-! ## Steps that read -/

/-- The decoder after has read bits, and stands where it stood in the output. -/
def Reads (z y : Inflate) : Prop := y.out = z.out ∧ y.st.len = z.st.len ∧ y.st.left = z.st.left ∧ y.st.dist = z.st.dist

section
variable {z y : Inflate} {h : Huff} {n k : Nat}

theorem Reads.refl (z : Inflate) : Reads z z := ⟨rfl, rfl, rfl, rfl⟩

theorem Reads.trans {x : Inflate} (a : Reads z y) (b : Reads y x) : Reads z x :=
  ⟨b.1.trans a.1, b.2.1.trans a.2.1, b.2.2.1.trans a.2.2.1, b.2.2.2.trans a.2.2.2⟩

theorem reads_take (e : z.take n = some (k, y)) : Reads z y := by
  rw [Inflate.take] at e
  split at e
  · cases e
  · cases e; exact ⟨rfl, rfl, rfl, rfl⟩

theorem reads_step {fuel : Nat} : ∀ {z : Inflate} {l : Nat} {code first : Int} {index : Nat},
    h.step z fuel l code first index = some (k, y) → Reads z y := by
  induction fuel with
  | zero => intro z l code first index e; cases e
  | succ fuel ih =>
    intro z l code first index e
    simp only [Huff.step] at e
    split at e
    · cases e
    next b x took =>
      split at e
      · cases e; exact reads_take took
      · exact (reads_take took).trans (ih e)

theorem reads_decode (e : h.decode z = some (k, y)) : Reads z y := reads_step e

theorem reads_readLens {want fuel : Nat} : ∀ {acc : List Nat} {z : Inflate} {l : List Nat},
    readLens h want fuel acc z = some (l, y) → Reads z y := by
  induction fuel with
  | zero => intro acc z l e; cases e
  | succ fuel ih =>
    intro acc z l e
    have rep {x : Inflate} {v bits base : Nat} {acc : List Nat} (e : (match x.take bits with
        | none => none
        | some (n, z) => readLens h want fuel (List.replicate (base + n) v ++ acc) z) = some (l, y)) : Reads x y := by
      split at e
      · cases e
      next took => exact (reads_take took).trans (ih e)
    simp only [readLens] at e
    split at e
    · cases e
    · split at e
      · cases e; exact Reads.refl _
      · split at e
        · cases e
        next s x got =>
          refine (reads_decode got).trans ?_
          split at e
          · exact ih e
          · split at e
            · cases e
            · exact rep e
            · exact rep e
            · exact rep e

theorem reads_readCl : ∀ {n : Nat} {z : Inflate} {l : List Nat}, readCl n z = some (l, y) → Reads z y := by
  intro n
  induction n with
  | zero => intro z l e; cases e; exact Reads.refl _
  | succ n ih =>
    intro z l e
    rw [readCl] at e
    split at e
    · cases e
    next took =>
      split at e
      · cases e
      next rest => cases e; exact (reads_take took).trans (ih rest)

theorem reads_dynCodes {lit dist : Huff} (e : dynCodes z = some (lit, dist, y)) : Reads z y := by
  simp only [dynCodes] at e
  split at e
  · cases e
  next took =>
    split at e
    · cases e
    next cl =>
      split at e
      · cases e
      · split at e
        · cases e
        next lens =>
          split at e
          · cases e
          · cases e; exact ((reads_take took).trans (reads_readCl cl)).trans (reads_readLens lens)

theorem reads_goTo (z : Inflate) (b : InfBlk) : Reads z (z.goTo b) := ⟨rfl, rfl, rfl, rfl⟩

theorem reads_storedHead {lim : Nat} (e : storedHead lim z = some y) : Reads z y := by
  simp only [storedHead] at e
  split at e
  · cases e
  next first =>
    split at e
    · cases e
    next second =>
      split at e
      · cases e
      · cases e; exact ((reads_take first).trans (reads_take second)).trans (reads_goTo ..)

theorem reads_blockHead {lim : Nat} (e : blockHead lim z = some y) : Reads z y := by
  simp only [blockHead] at e
  split at e
  · cases e
  next v x took =>
    refine (reads_take took).trans ?_
    split at e
    · have r := reads_storedHead e
      exact r
    · cases e; exact ⟨rfl, rfl, rfl, rfl⟩
    · obtain ⟨⟨lit, dist, c⟩, got, e⟩ := Option.map_eq_some_iff.1 e
      subst e
      have r := reads_dynCodes got
      have r : Reads x c := r
      exact r.trans (reads_goTo ..)
    · cases e

end

/-! ## One step -/

/-- The bytes of this run are all the bytes there are, and a match to be copied lies within them. -/
structure FromStart (z : Inflate) : Prop where
  len : z.out.length = z.st.len
  dist : z.st.left ≠ 0 → 1 ≤ z.st.dist ∧ z.st.dist ≤ z.st.len

theorem FromStart.reads {z y : Inflate} (h : FromStart z) (r : Reads z y) : FromStart y := by
  obtain ⟨out, len, left, dist⟩ := r
  exact ⟨by rw [out, len]; exact h.len, by rw [left, dist, len]; exact h.dist⟩

/-- A step writes a byte or none. -/
inductive Writes (z y : Inflate) : Prop
  | none (out : y.out = z.out) (start : FromStart y)
  | one (b : Byte) (out : y.out = b :: z.out) (start : FromStart y)

section
variable {old old' : Nat → Byte} {lim target : Nat} {z y : Inflate} {lit dist : Huff}

theorem Writes.start (h : Writes z y) : FromStart y := by cases h <;> assumption

theorem writes_reads (start : FromStart z) (r : Reads z y) : Writes z y := .none r.1 (start.reads r)

theorem writes_put (start : FromStart z) (b : Byte) : Writes z (z.put b) :=
  .one b rfl ⟨by simp [Inflate.put, start.len], fun h => by
    have := start.dist h
    simp only [Inflate.put]
    omega⟩

/-- A literal, the end of a block, or a match within the output so far. -/
theorem writes_codeStep (start : FromStart z) (e : codeStep lim lit dist z = some y) : Writes z y := by
  simp only [codeStep] at e
  split at e
  · cases e
  next s x got =>
    have rx := reads_decode got
    split at e
    · split at e
      · cases e
        cases writes_put (start.reads rx) (BitVec.ofNat 8 s) with
        | none out start => exact .none (out.trans rx.1) start
        | one b out start => exact .one b (out.trans (by rw [rx.1])) start
      · cases e
    · split at e
      · cases e; exact writes_reads start (rx.trans (reads_goTo ..))
      · split at e
        · cases e
        · split at e
          · cases e
          next took =>
            split at e
            · cases e
            next got2 =>
              split at e
              · cases e
              · split at e
                · cases e
                next took2 =>
                  split at e
                  · cases e
                  next within =>
                    cases e
                    have r := ((rx.trans (reads_take took)).trans (reads_decode got2)).trans (reads_take took2)
                    refine .none r.1 ⟨(start.reads r).len, fun _ => ?_⟩
                    simp only [Bool.or_eq_true, decide_eq_true_eq, not_or, not_lt] at within
                    refine ⟨?_, within.1⟩
                    have base (i : Nat) : 1 ≤ distBase i := by
                      rw [distBase]
                      split
                      · omega
                      · have := Nat.two_pow_pos (i / 2); omega
                    exact (base _).trans (Nat.le_add_right ..)

theorem writes_infStep (start : FromStart z) (e : infStep old lim z = some y) : Writes z y := by
  rw [infStep] at e
  split at e
  · cases e; exact .none rfl start
  · exact writes_reads start (reads_blockHead e)
  · cases e; exact writes_reads start (reads_goTo ..)
  · obtain ⟨x, took, e⟩ := Option.map_eq_some_iff.1 e
    subst e
    have rx := reads_take (k := x.1) (y := x.2) took
    have w := writes_put (start.reads rx) (BitVec.ofNat 8 x.1)
    exact .one _ (congrArg _ rx.1) (w.start.reads (reads_goTo ..))
  · split at e
    · exact writes_codeStep start e
    · cases e
      refine .one _ rfl ⟨by simp [Inflate.put, start.len], fun h => ?_⟩
      have := start.dist (by assumption)
      simp only [Inflate.put]
      omega

/-- A match within the bytes of this run is copied from them, whatever came before. -/
theorem infStep_old (start : FromStart z) : infStep old lim z = infStep old' lim z := by
  have back (h : z.st.left ≠ 0) : z.back old z.st.dist = z.back old' z.st.dist := by
    have := start.dist h
    have inside : z.st.dist - 1 < z.out.length := by rw [start.len]; omega
    simp only [Inflate.back, List.getElem?_eq_getElem inside]
  rw [infStep, infStep]
  split <;> try rfl
  split
  · rfl
  · rw [back (by assumption)]

end

/-! ## A run that stops early -/

/-- A run that would write the whole output, stopped at fewer bytes, has written those bytes of it. -/
theorem infRun_prefix {old old' : Nat → Byte} {lim target : Nat} (short : target < lim) (fuel : Nat) :
    ∀ {z y : Inflate}, FromStart z → z.st.len ≤ target → infRun old' lim lim fuel z = (y, true) → y.st.len = lim →
      ∃ x : Inflate, infRun old lim target fuel z = (x, true) ∧ x.out.length = target ∧ x.out <:+ y.out := by
  have kept (old : Nat → Byte) : ∀ (fuel : Nat) {z y : Inflate}, FromStart z → infRun old lim lim fuel z = (y, true) →
      z.out <:+ y.out := by
    intro fuel
    induction fuel with
    | zero => intro z y _ e; cases e
    | succ fuel ih =>
      intro z y start e
      rw [infRun] at e
      split at e
      · cases e; exact List.suffix_refl _
      · split at e
        · cases e
        next x step =>
          have later := ih (writes_infStep start step).start e
          cases writes_infStep start step with
          | none out => rwa [out] at later
          | one b out => rw [out] at later; exact (List.suffix_cons b z.out).trans later
  induction fuel with
  | zero => intro z y _ _ e; cases e
  | succ fuel ih =>
    intro z y start below whole len
    by_cases there : target ≤ z.st.len
    · refine ⟨z, ?_, ?_, kept old' _ start whole⟩
      · rw [infRun, if_pos (by simp [there, short])]
      · rw [start.len]; omega
    · rw [infRun] at whole ⊢
      have going : (z.st.blk == .done) = false := by
        by_contra done
        rw [Bool.not_eq_false] at done
        rw [if_pos (by simp [done])] at whole
        cases whole
        omega
      rw [if_neg (by simp [going])] at whole
      rw [if_neg (by simp [going, there])]
      rw [infStep_old (old := old') (old' := old) start] at whole
      split at whole
      · cases whole
      next x step =>
        have w := writes_infStep start step
        refine ih w.start ?_ whole len
        cases w with
        | none out after => rw [← after.len, out, start.len]; exact below
        | one b out after => rw [← after.len, out, List.length_cons, start.len]; omega

/-- The first run of a stream whose whole output is valid writes its first bytes. -/
theorem inflateRun_prefix {payload lines : List Byte} {lim target : Nat} (old : Nat → Byte) (short : target < lim)
    (whole : inflate payload lim = (lines, true)) :
    (inflateRun old payload lim target {}).2 = true ∧
      (inflateRun old payload lim target {}).1.out.reverse = lines.take target ∧ target ≤ lines.length := by
  rw [inflate, Prod.mk.injEq] at whole
  obtain ⟨out, good⟩ := whole
  simp only [infWhole, Bool.and_eq_true, beq_iff_eq] at good
  obtain ⟨⟨ran, len⟩, -⟩ := good
  have start : FromStart { bits := (payload.flatMap byteBits).drop ({} : Stream).pos, st := {} } := ⟨rfl, fun h => absurd rfl h⟩
  obtain ⟨x, run, length, pre, split⟩ := infRun_prefix (old := old) short (2 * (payload.length * 8 + lim) + 2) start (Nat.zero_le _)
    (Prod.ext rfl ran : infRun (fun _ => 0) lim lim _ _ = (_, true)) len
  have run : inflateRun old payload lim target {} = (x, true) := run
  have out : (inflateRun (fun _ => 0) payload lim lim {}).1.out.reverse = lines := out
  have split : pre ++ x.out = (inflateRun (fun _ => 0) payload lim lim {}).1.out := split
  rw [run, ← out, ← split, List.reverse_append]
  refine ⟨rfl, (List.take_left' (by rw [List.length_reverse, length])).symm, ?_⟩
  rw [List.length_append, List.length_reverse, length]
  omega

/-- Lines cut from the first bytes are the first lines. -/
theorem cutLines_take {n k : Nat} (bs : List Byte) : cutLines n k (bs.take (n * k)) = cutLines n k bs := by
  refine List.map_congr_left fun i hi => ?_
  have inside : n ≤ n * k - i * n := by
    have : i + 1 ≤ k := List.mem_range.1 hi
    have := Nat.mul_le_mul_left n this
    rw [Nat.mul_comm i n]
    rw [Nat.mul_add] at this
    omega
  rw [List.drop_take, List.take_take, Nat.min_eq_left inside]

end Sys2Proof.Machine
end

section
/-! PROOFS. The band feeders, the inflate engines and CRC unit 3 (O38). -/

namespace Sys2Proof.Machine

section
variable {stn e r : Nat} {b : Band} {m : Mach} {mem : Mem}

theorem feeder_setFeeder (stn : Nat) (f : Feeder) (m : Mach) : (m.setFeeder stn f).feeder stn = f := tget_tput_same ..

/-! ## A feeder takes up a sheet -/

theorem opFeederStart_takes (up : domUp 11 m = true) (free : feederFree m stn = true) (idle : (m.feeder stn).eng = none)
    (next_ : feedNext m stn = some r) : opFeederStart stn m = (m.setSheet r { m.sheet r with
      legs := tput stn { (tget {} stn (m.sheet r).legs) with fed := true } (m.sheet r).legs }).setFeeder stn
        { sheet := some r, sid := (m.sheet r).sid } := by
  simp only [opFeederStart, up, free, idle, next_]
  rfl

/-! ## Bands -/

/-- The lines that band k of the feeder's sheet ends at. -/
def bandEnd (stn r : Nat) (m : Mach) : Nat := min (m.sheet r).lines (64 * ((m.feeder stn).band + 1))

/-- The next band's slots are free and it is resident. -/
structure BandReady (stn r : Nat) (b : Band) (m : Mach) : Prop where
  sheet : (m.feeder stn).sheet = some r
  started : (m.feeder stn).started = false
  eng : (m.feeder stn).eng = none
  sid : (m.sheet r).sid = (m.feeder stn).sid
  exposes : (m.sheet r).exposes = true
  band : (m.feeder stn).band < (m.sheet r).bands
  up : domUp 11 m = true
  free : dramHeld m = false
  slots : bandEnd stn r m ≤ linesFreed m stn (tget {} stn (m.sheet r).legs) + 128
  here : bandOf m (m.sheet r) stn (m.feeder stn).band = some b

theorem eccEffect_clean (a : Nat) (m : Mach) : eccEffect .clean a m = m := by
  rw [eccEffect]; split <;> rfl

theorem poisoned_clean (m : Mach) : poisoned .clean m = false := by simp [poisoned]

/-- The branch that the form of the band chooses. -/
theorem opFeederBandStart_ready (h : BandReady stn r b m) : opFeederBandStart stn .clean m mem =
    let f := m.feeder stn
    let n := (m.sheet r).width / 2
    if b.blank then (bandFed stn (bandEnd stn r m) m,
      writeLines stn n (64 * f.band) (List.replicate (bandEnd stn r m - 64 * f.band) []) mem)
    else if b.raw then
      (bandFed stn (bandEnd stn r m) (dramAsk true true (bandAddr m (m.sheet r).sid stn f.band 0) (32 + b.payload.length) m),
        writeLines stn n (64 * f.band) (cutLines n (bandEnd stn r m - 64 * f.band) b.payload) mem)
    else (m.setFeeder stn { f with started := true, filled := 64 * f.band, stream := {} }, mem) := by
  have goes : ((m.feeder stn).started || (m.feeder stn).eng.isSome || (m.sheet r).sid != (m.feeder stn).sid || !(m.sheet r).exposes ||
      decide ((m.sheet r).bands ≤ (m.feeder stn).band) || !domUp 11 m || dramHeld m ||
      decide (linesFreed m stn (tget {} stn (m.sheet r).legs) + 128 < (bandEnd stn r m : Nat))) = false := by
    simp [h.started, h.eng, h.sid, h.exposes, h.up, h.free, Nat.not_le.2 h.band, Int.not_lt.2 h.slots]
  unfold opFeederBandStart
  simp only [h.sheet]
  refine (if_neg (Bool.eq_false_iff.1 goes)).trans ?_
  simp only [h.here, eccEffect_clean, poisoned_clean]
  rfl

theorem feeder_bandFed (stn fin : Nat) (m : Mach) : (bandFed stn fin m).feeder stn =
    { m.feeder stn with band := (m.feeder stn).band + 1, started := false, filled := fin, eng := none } := feeder_setFeeder ..

/-! ## Inflate engines -/

theorem opInflateRunStart_takes
    (waits : ((List.range m.nStn).filter fun s => (m.feeder s).started && (m.feeder s).eng.isNone) = [stn])
    (free : ((List.range 4).find? fun e => !(m.peat.feeders.any fun f => f.2.eng == some e)) = some e) :
    opInflateRunStart m = m.setFeeder stn { m.feeder stn with eng := some e } := by
  simp only [opInflateRunStart, waits, free]
  rfl

/-- Up to 8 further lines of the band that engine e has. -/
structure Inflates (stn e r : Nat) (b : Band) (m : Mach) : Prop where
  engine : ((List.range m.nStn).find? fun s => (m.feeder s).eng == some e) = some stn
  sheet : (m.feeder stn).sheet = some r
  free : dramHeld m = false
  here : bandOf m (m.sheet r) stn (m.feeder stn).band = some b
  wide : 0 < (m.sheet r).width / 2
  from_ : 64 * (m.feeder stn).band ≤ (m.feeder stn).filled
  short : (m.feeder stn).filled < bandEnd stn r m

/-- The run of an engine: the decoder's state, and whether the stream is sound so far. -/
def inflateTurn (stn r : Nat) (b : Band) (m : Mach) (mem : Mem) : Inflate × Bool :=
  inflateRun (bufferByte stn (m.feeder stn).band ((m.sheet r).width / 2) mem) b.payload
    ((m.sheet r).width / 2 * (bandEnd stn r m - 64 * (m.feeder stn).band))
    ((m.sheet r).width / 2 * (min (bandEnd stn r m) ((m.feeder stn).filled + 8) - 64 * (m.feeder stn).band)) (m.feeder stn).stream

/-- The memories once a run's lines are in the line buffer. -/
def inflateWrote (stn r : Nat) (b : Band) (m : Mach) (mem : Mem) : Mem :=
  let n := (m.sheet r).width / 2
  let took := (inflateTurn stn r b m mem).1.out.reverse
  writeLines stn n (m.feeder stn).filled (cutLines n (took.length / n) took) mem

theorem opInflateRunDone_good (h : Inflates stn e r b m) (good : (inflateTurn stn r b m mem).2 = true)
    (end_ : min (bandEnd stn r m) ((m.feeder stn).filled + 8) = bandEnd stn r m →
      infWhole ((m.sheet r).width / 2 * (bandEnd stn r m - 64 * (m.feeder stn).band)) (inflateTurn stn r b m mem) = true) :
    ∃ m', m'.feeder stn = m.feeder stn ∧ opInflateRunDone e .clean m mem =
      if min (bandEnd stn r m) ((m.feeder stn).filled + 8) = bandEnd stn r m then
        (bandFed stn (bandEnd stn r m) m', inflateWrote stn r b m mem)
      else (m'.setFeeder stn { m.feeder stn with
        filled := min (bandEnd stn r m) ((m.feeder stn).filled + 8), eng := none,
        stream := (inflateTurn stn r b m mem).1.st }, inflateWrote stn r b m mem) := by
  obtain ⟨engine, sheet, free, here, wide, from_, short⟩ := h
  refine ⟨dramAsk true true (bandAddr m (m.sheet r).sid stn (m.feeder stn).band 32) 256 m, rfl, ?_⟩
  have one : max 1 ((m.sheet r).width / 2) = (m.sheet r).width / 2 := by omega
  have step : 64 * (m.feeder stn).band + (min (bandEnd stn r m) ((m.feeder stn).filled + 8) - 64 * (m.feeder stn).band) =
      min (bandEnd stn r m) ((m.feeder stn).filled + 8) := by omega
  have target : min (bandEnd stn r m - 64 * (m.feeder stn).band) ((m.feeder stn).filled - 64 * (m.feeder stn).band + 8) =
      min (bandEnd stn r m) ((m.feeder stn).filled + 8) - 64 * (m.feeder stn).band := by omega
  have sound : (!((inflateTurn stn r b m mem).2 && (decide (min (bandEnd stn r m) ((m.feeder stn).filled + 8) < bandEnd stn r m) ||
      infWhole ((m.sheet r).width / 2 * (bandEnd stn r m - 64 * (m.feeder stn).band)) (inflateTurn stn r b m mem)))) = false := by
    by_cases last : min (bandEnd stn r m) ((m.feeder stn).filled + 8) = bandEnd stn r m
    · simp [good, end_ last]
    · have before : min (bandEnd stn r m) ((m.feeder stn).filled + 8) < bandEnd stn r m := by omega
      simp only [good, before, decide_true, Bool.true_or, Bool.and_self, Bool.not_true]
  unfold opInflateRunDone
  have fin : min (m.sheet r).lines (64 * ((m.feeder stn).band + 1)) = bandEnd stn r m := rfl
  have turn : inflateRun (bufferByte stn (m.feeder stn).band ((m.sheet r).width / 2) mem) b.payload
      ((m.sheet r).width / 2 * (bandEnd stn r m - 64 * (m.feeder stn).band))
      ((m.sheet r).width / 2 * (min (bandEnd stn r m) ((m.feeder stn).filled + 8) - 64 * (m.feeder stn).band))
      (m.feeder stn).stream = inflateTurn stn r b m mem := rfl
  simp only [engine, sheet, free, here, eccEffect_clean, poisoned_clean, one, fin, step, target, turn, sound]
  rfl

/-! ## CRC unit 3 -/

theorem crcGo_starts (idle : m.peat.crc = none) : crcGo 1 m = (m.set R.CRC_GCTL_BUSY 1).onPeat fun p => { p with
    crc := some (m.get R.CRC_GADDR_LO_ADDR + m.get R.CRC_GADDR_HI_ADDR * 2 ^ 32, m.get R.CRC_GLEN_LEN) } := by
  have go : bitOf (1 : Word).toNat 0 = true := by decide
  simp only [crcGo, idle, go]
  rfl

/-- The machine once CRC unit 3 has ended, before its result is written. -/
def crcEnded (bad : Bool) (m : Mach) : Mach :=
  ((m.set R.CRC_GCTL_BUSY 0).set R.CRC_GCTL_ERR (b2n bad)).onPeat fun p => { p with crc := none }

theorem opCrcDone_low {a n : Nat} (run : m.peat.crc = some (a, n)) (low : a < 0x0400000000) : opCrcDone .clean mem m =
    assertEvent 0x0C0 (if !crcRange m a n then
        (crcEnded (!crcRange m a n) m).free.2.setWord R.CRC_GRES_CRC.key (crcEnded (!crcRange m a n) m).free.1
      else (crcEnded (!crcRange m a n) m).setWord R.CRC_GRES_CRC.key (crc32c (mem.rdBytes a n))) := by
  have high : decide (0x0400000000 ≤ a) = false := by simpa using low
  simp only [opCrcDone, run, high, eccEffect_clean, Bool.false_and, Bool.or_false, when]
  rfl

/-- A result in another register leaves the unit's state. -/
theorem crcEnded_frame (bad : Bool) (m : Mach) {m' : Mach} (word : ∀ k, k ≠ R.CRC_GRES_CRC.key → m'.word k = (crcEnded bad m).word k) :
    m'.on R.CRC_GCTL_BUSY = false ∧ m'.on R.CRC_GCTL_ERR = bad := by
  have ne : R.CRC_GCTL_BUSY.key ≠ R.CRC_GRES_CRC.key := by decide
  have same (f : FRef) (h : f.key = R.CRC_GCTL_BUSY.key) : m'.on f = (crcEnded bad m).on f := by
    rw [Mach.on, Mach.on, Mach.get, Mach.get, word _ (by rw [h]; exact ne)]
  rw [same R.CRC_GCTL_BUSY rfl, same R.CRC_GCTL_ERR rfl]
  exact ⟨(Mach.on_set_bits (f := R.CRC_GCTL_ERR) (g := R.CRC_GCTL_BUSY) rfl _ _).trans
      (Mach.on_set_flag (f := R.CRC_GCTL_BUSY) rfl rfl false m),
    Mach.on_set_flag (f := R.CRC_GCTL_ERR) rfl rfl bad (m.set R.CRC_GCTL_BUSY 0)⟩

end

/-- Settles O38: each step of a feeder is the branch that its band and its stream choose; the first run of a sound stream
gives its first 8 lines. -/
theorem feedersAndCrc : Obligations.FeedersAndCrc := by
  intro stn e q s hstn he okq m f
  have station : s.mach.hasStn stn = true := by simpa [Mach.hasStn] using hstn
  refine ⟨fun r up free idle next_ => ?_, ?_, fun waits free => ?_, ?_,
    fun lets idle => ?_, fun a n run low => ?_⟩
  · have run : exec (.feederStart stn) s = .next (s.onMach (opFeederStart stn)) := onUnit_of station (opFeederStart stn) s
    refine ⟨_, acts_to run (opFeederStart_takes up free idle next_), feeder_setFeeder .., ?_,
      fun j ne => sheet_setSheet_ne (m := m) ne _, rfl⟩
    change (tget {} stn ((m.setSheet r _).sheet r).legs).fed = true
    rw [sheet_setSheet_same]
    exact congrArg Leg.fed (tget_tput_same ..)
  · intro r b sh fin n sheet started eng sid exposes band up free slots here
    have run : exec (.feederBandStart stn .clean) s = _ := onUnitM_of station (opFeederBandStart stn .clean) s
    have eff := opFeederBandStart_ready (mem := s.mem) ⟨sheet, started, eng, sid, exposes, band, up, free, slots, here⟩
    refine ⟨fun blank => ?_, fun inked raw => ?_, fun inked coded => ?_⟩
    · exact actsM_to run (eff.trans (if_pos blank))
    · have eff := eff.trans ((if_neg (by rw [inked]; decide)).trans (if_pos raw))
      have fed := feeder_bandFed stn fin (dramAsk true true (bandAddr m sh.sid stn f.band 0) (32 + b.payload.length) m)
      exact ⟨_, actsM_to run eff, (congrArg Feeder.band fed :), (congrArg Feeder.filled fed :), rfl⟩
    · have eff := eff.trans ((if_neg (by rw [inked]; decide)).trans (if_neg (by rw [coded]; decide)))
      exact ⟨_, actsM_to run eff, feeder_setFeeder .., rfl⟩
  · have run : exec .inflateRunStart s = .next (s.onMach opInflateRunStart) := onUnit_of rfl opInflateRunStart s
    exact ⟨_, acts_to run (opInflateRunStart_takes waits free), feeder_setFeeder .., rfl, rfl⟩
  · intro r b lines sh n fin all to_ x took wrote engine sheet free here wide from_ short
    have run : exec (.inflateRunDone e .clean) s = _ := onUnitM_of (by simpa using he) (opInflateRunDone e .clean) s
    have h : Inflates stn e r b s.mach := ⟨engine, sheet, free, here, wide, from_, short⟩
    refine ⟨fun more sound => ?_, fun last whole => ?_, fun first start more whole => ?_⟩
    · have before : to_ ≠ fin := by omega
      obtain ⟨m', same, eff⟩ := opInflateRunDone_good h (mem := s.mem) sound fun e => absurd e before
      refine ⟨_, actsM_to run (eff.trans (if_neg before)), (feeder_setFeeder ..).trans ?_, rfl⟩
      have to8 : to_ = f.filled + 8 := by omega
      change ({ f with filled := to_, eng := none, stream := x.1.st } : Feeder) = _
      rw [to8]
    · have there : to_ = fin := by omega
      have sound : x.2 = true := by
        simp only [infWhole, Bool.and_eq_true] at whole
        exact whole.1.1
      obtain ⟨m', same, eff⟩ := opInflateRunDone_good h (mem := s.mem) sound fun _ => whole
      refine ⟨_, actsM_to run (eff.trans (if_pos there)), (feeder_bandFed ..).trans ?_, rfl⟩
      rw [same]
      rfl
    · have before : to_ ≠ fin := by omega
      have to8 : to_ - 64 * f.band = 8 := by omega
      have shortN : n * 8 < all := Nat.mul_lt_mul_of_pos_left (by omega) wide
      obtain ⟨sound, out, length⟩ := inflateRun_prefix (bufferByte stn f.band n s.mem) shortN whole
      have same : x = inflateRun (bufferByte stn f.band n s.mem) b.payload all (n * 8) {} := by
        simp only [x, to8, first]
      obtain ⟨m', kept, eff⟩ := opInflateRunDone_good h (mem := s.mem) (show x.2 = true by rw [same]; exact sound) fun e => absurd e before
      refine ⟨_, actsM_to run (eff.trans (if_neg before)), (congrArg Feeder.filled (feeder_setFeeder ..)).trans ?_, ?_⟩
      · change to_ = _
        omega
      · have tookEq : took = lines.take (n * 8) := by simp only [took, same, out]
        have eight : took.length / n = 8 := by
          rw [tookEq, List.length_take, Nat.min_eq_left length, Nat.mul_div_cancel_left _ wide]
        change writeLines stn n f.filled (cutLines n (took.length / n) took) s.mem = _
        rw [eight, tookEq, cutLines_take]
  · have run : exec (.crcGo q) s = .next (s.onMach (crcGo 1)) := acts_guarded (onUnit_of okq (opCrcGo q) s) lets
    exact ⟨_, acts_to run (crcGo_starts idle), Mach.on_set_flag (f := R.CRC_GCTL_BUSY) rfl rfl true m, rfl, rfl, rfl⟩
  · have run' : exec (.crcDone .clean) s = onUnitR true (opCrcDone .clean) s := rfl
    have eff := opCrcDone_low (mem := s.mem) run low
    have run : exec (.crcDone .clean) s = .next (s.onMach (opCrcDone .clean s.mem)) := run'.trans (onUnit_of rfl _ s)
    by_cases good : crcRange m a n = true
    · rw [if_neg (by rw [show crcRange s.mach a n = true from good]; decide)] at eff
      obtain ⟨busy, err⟩ := crcEnded_frame (!crcRange m a n) m (m' := assertEvent 0x0C0 _) fun k ne =>
        (assertEvent_word ..).trans (Mach.word_setWord_ne _ ne (crc32c (s.mem.rdBytes a n)))
      refine ⟨_, acts_to run eff, busy, congrArg Peat.crc (assertEvent_peat ..), err, fun _ => ?_, rfl⟩
      exact (assertEvent_word ..).trans (Mach.word_setWord_same ..)
    · rw [if_pos (by rw [show crcRange s.mach a n = false by simpa using good]; rfl)] at eff
      obtain ⟨busy, err⟩ := crcEnded_frame (!crcRange m a n) m (m' := assertEvent 0x0C0 _) fun k ne =>
        (assertEvent_word ..).trans (Mach.word_setWord_ne (crcEnded (!crcRange m a n) m).free.2 ne _)
      exact ⟨_, acts_to run eff, busy, congrArg Peat.crc (assertEvent_peat ..), err, fun h => absurd h good, rfl⟩

end Sys2Proof.Machine
end

section
/-! PROOFS. O44: the bounds of a microprogram's run (R196, R206). -/

namespace Sys2Proof.Machine

/-- The accumulators of a run keep to 40 bits. -/
def SclCpu.Within (c : SclCpu) : Prop := ∀ a ∈ c.acc, -(2 ^ 39) ≤ a ∧ a < 2 ^ 39

/-- What a microinstruction keeps of a run: its slot, the number of accumulators and their bounds. -/
def SclCpu.Bounded (c d : SclCpu) : Prop :=
  d.n = c.n ∧ d.acc.length = c.acc.length ∧ (c.Within → d.Within)

theorem SclCpu.bounded_of_acc {c d : SclCpu} (slot : d.n = c.n) (accs : d.acc = c.acc) : c.Bounded d :=
  ⟨slot, by rw [accs], fun kept a ha => kept a (accs ▸ ha)⟩

/-- A write of an accumulator saturates to 40 bits. -/
theorem SclCpu.bounded_setA (c : SclCpu) (a : Nat) (v : Int) : c.Bounded (c.setA a v) := by
  refine ⟨rfl, by simp [SclCpu.setA, setAt], fun kept x hx => ?_⟩
  have bounds := clampI_bounds (lo := -(2 ^ 39)) (hi := 2 ^ 39 - 1) (by decide) v
  rcases List.mem_or_eq_of_mem_set hx with old | new
  · exact kept x old
  · omega

theorem SclCpu.bounded_rcup (c : SclCpu) (p : Nat) : c.Bounded (c.rcup p) := by
  apply bounded_of_acc <;>
  · simp only [SclCpu.rcup]
    split
    · rfl
    · split
      · rfl
      · split <;> split <;> rfl

/-- Every microinstruction writes accumulators through the saturating write only. -/
theorem SclCpu.bounded_exec (c : SclCpu) (i : Micro) : c.Bounded (c.exec i) := by
  cases i with
  | clr a => exact c.bounded_setA a _
  | lda a p => exact c.bounded_setA a _
  | ldl a p => exact c.bounded_setA a _
  | add a p => exact c.bounded_setA a _
  | sub a p => exact c.bounded_setA a _
  | mpy a p q => exact c.bounded_setA a _
  | mac a p q => exact c.bounded_setA a _
  | msu a p q => exact c.bounded_setA a _
  | adda a k => exact c.bounded_setA a _
  | suba a k => exact c.bounded_setA a _
  | shr a k => exact c.bounded_setA a _
  | shl a k => exact c.bounded_setA a _
  | lim a p q => exact c.bounded_setA a _
  | abs a => exact c.bounded_setA a _
  | neg a => exact c.bounded_setA a _
  | tbl a p q => exact c.bounded_setA a _
  | rcld a => exact c.bounded_setA a _
  | rcup p => exact c.bounded_rcup p
  | pre a k =>
    simp only [SclCpu.exec]
    split
    · exact c.bounded_setA a _
    · exact bounded_of_acc rfl rfl
  | str a p => exact bounded_of_acc rfl rfl
  | stl a p => exact bounded_of_acc rfl rfl
  | mov p q => exact bounded_of_acc rfl rfl
  | end_ => exact bounded_of_acc rfl rfl
  | skp k j => exact bounded_of_acc rfl rfl
  | nop => exact bounded_of_acc rfl rfl

/-- What a whole run keeps: the bounds of its accumulators, its slot, and its budget when it reaches END. -/
def SclCpu.Spent (c : SclCpu) (r : RunEnd × Nat × SclCpu) : Prop :=
  (c.Within → r.2.2.Within) ∧ r.2.2.n = c.n ∧ (r.1 = .ended → r.2.1 ≤ r.2.2.m.get (R.SCL_SLOT_BUD_BUDGET c.n))

theorem SclCpu.spent_of_stopped (c : SclCpu) {e : RunEnd} (used : Nat) (not : e ≠ .ended) : c.Spent (e, used, c) :=
  ⟨id, rfl, fun ended => absurd ended not⟩

theorem SclCpu.Spent.after {c d : SclCpu} {r : RunEnd × Nat × SclCpu} (rest : d.Spent r) (step : c.Bounded d) :
    c.Spent r := by
  obtain ⟨kept, slot, budget⟩ := rest
  obtain ⟨same, -, within_⟩ := step
  exact ⟨kept ∘ within_, slot.trans same, same ▸ budget⟩

theorem SclCpu.run_spent (fuel : Nat) : ∀ (pc used : Nat) (c : SclCpu), c.Spent (SclCpu.run fuel pc used c) := by
  induction fuel with
  | zero => exact fun pc used c => c.spent_of_stopped used nofun
  | succ fuel ih =>
    intro pc used c
    rw [SclCpu.run]
    extract_lets used'
    split
    next => split <;> exact c.spent_of_stopped _ nofun
    next i word =>
      split
      · exact c.spent_of_stopped _ nofun
      · next room =>
        split
        next => exact ⟨id, rfl, fun _ => Nat.le_of_not_lt room⟩
        next k j =>
          split
          · exact c.spent_of_stopped _ nofun
          · split <;> exact ih _ _ c
        next =>
          split
          · exact c.spent_of_stopped _ nofun
          · exact (ih _ _ _).after (c.bounded_exec i)

/-- Settles O44: accumulators are only written through the saturating write, and END is taken within the budget. -/
theorem microprogramBounds : Obligations.MicroprogramBounds := by
  unfold Obligations.MicroprogramBounds
  refine ⟨fun c i kept => ?_, fun fuel pc used c => SclCpu.run_spent fuel pc used c⟩
  obtain ⟨-, length, within_⟩ := c.bounded_exec i
  exact ⟨within_ kept, length⟩

end Sys2Proof.Machine
end

section
/-! PROOFS. O48: a profile rate written while a value waits for the status word of the axis (R16, R264). -/

namespace Sys2Proof.Machine

/-- Axis 0 runs at its velocity, and a value is staged for the register of its phase: nothing in the statement's
premises excludes that. -/
def stagedPhase : State := State.reset.onMach fun m =>
  { (m.setAxis 0 { m.axis 0 with mode := 2 }).set (R.MOT_STAT_PHASE 0) 2 with pend := [((R.MOT_STAT_PHASE 0).key, (7, 0))] }

theorem stagedPhase_runs : stagedPhase.lets (.ctx 8 0) false (R.MOT_VMAX 0).key ∧ (stagedPhase.mach.axis 0).mode = 2 ∧
    stagedPhase.mach.get (R.MOT_STAT_PHASE 0) = 2 := by
  refine ⟨⟨?_, ?_, ?_⟩, ?_, ?_⟩ <;> decide +kernel

/-- The write of VMAX puts the staged phase IDLE into effect, the axis being disabled; so no segment takes the rate. -/
theorem stagedPhase_rate : (rateWrite 0 0 5 stagedPhase.mach).axis 0 = stagedPhase.mach.axis 0 ∧
    (stagedPhase.mach.axis 0).vmax = 0 := by
  constructor <;> decide +kernel

/-- Refutes O48: the clause on a rate that acts on a running segment has no premise that nothing is staged (m.pend = []),
as the clause on GO has, and a write to a register whose axis is disabled settles what is pending. -/
theorem not_profileSegments : ¬ Obligations.ProfileSegments := by
  unfold Obligations.ProfileSegments
  intro holds
  obtain ⟨-, -, -, rates, -⟩ := holds (.ctx 8 0) 0 0 5 0 stagedPhase rfl (by decide)
  obtain ⟨lets, mode, phase⟩ := stagedPhase_runs
  obtain ⟨t, run, vmax, -⟩ := rates (by decide) lets mode phase
  have acts : exec (.profileRateWrite (.ctx 8 0) 0 0 5) stagedPhase = .next (stagedPhase.onMach (rateWrite 0 0 5)) :=
    acts_guarded (onUnit_of rfl (opProfileRateWrite (.ctx 8 0) 0 0 5) _) lets
  cases run.symm.trans acts
  have five : ((rateWrite 0 0 5 stagedPhase.mach).axis 0).vmax = 5 := vmax rfl
  rw [stagedPhase_rate.1, stagedPhase_rate.2] at five
  cases five

end Sys2Proof.Machine
end

section
/-! PROOFS. O40: the pulses of a lane in a stroke (R173, R175-R177, R179). -/

namespace Sys2Proof.Machine

theorem laneLevel_le (m : Mach) (s f z i : Nat) : laneLevel m s f z i ≤ laneCeil m s i := by
  rw [laneLevel]
  split
  · exact Nat.zero_le _
  · exact Nat.min_le_left _ _

theorem blend_width (r : Nat) (a b : Nat × Nat) : (blend r a b).2 ≤ 64 :=
  (Nat.min_le_right _ _).trans (Nat.sub_le _ _)

/-- A pulse of lane i as the statement bounds it. -/
def Pulse.Bounded (m : Mach) (stn i : Nat) (p : Pulse) : Prop :=
  p.lane = i ∧ 0 < p.width ∧ p.width ≤ 64 ∧ p.level ≤ laneCeil m stn i ∧
    64 ≤ p.start + (m.get (R.CLK_SYN_LSDLY (2 + stn)) : Int) ∧ p.start ≤ 64 * (m.get (R.VID_SCAN_ACTIVE stn) : Int)

/-- The pulses of a lane so far, latest first: each is bounded and follows those before it. -/
structure PulsesOrdered (m : Mach) (stn i : Nat) (acc : List Pulse) : Prop where
  bounded : ∀ p ∈ acc, p.Bounded m stn i
  order : acc.Pairwise fun b a : Pulse => a.start + a.width ≤ b.start

theorem PulsesOrdered.nil (m : Mach) (stn i : Nat) : PulsesOrdered m stn i [] := ⟨by simp, .nil⟩

/-- The end of the latest pulse, or `at_` when there is none. -/
def pulsesEnd (at_ : Int) : List Pulse → Int
  | q :: _ => q.start + q.width
  | [] => at_

/-- Every pulse has ended by the end of the latest one. -/
theorem PulsesOrdered.ended {m : Mach} {stn i : Nat} {acc : List Pulse} (h : PulsesOrdered m stn i acc) (at_ : Int) :
    ∀ p ∈ acc, p.start + p.width ≤ pulsesEnd at_ acc := by
  cases acc with
  | nil => simp
  | cons q rest =>
    intro p hp
    rcases List.mem_cons.1 hp with rfl | older
    · exact le_refl _
    · have before := (List.pairwise_cons.1 h.order).1 p older
      simp only [pulsesEnd]
      omega

theorem PulsesOrdered.cons {m : Mach} {stn i : Nat} {acc : List Pulse} (h : PulsesOrdered m stn i acc) {p : Pulse}
    {at_ : Int} (fits : p.Bounded m stn i) (after : pulsesEnd at_ acc ≤ p.start) : PulsesOrdered m stn i (p :: acc) :=
  ⟨fun _ hq => (List.mem_cons.1 hq).elim (· ▸ fits) (h.bounded _),
    List.pairwise_cons.2 ⟨fun q hq => (h.ended at_ q hq).trans after, h.order⟩⟩

/-- One zone adds its pulses after those before, cut where they would start before the last one's end. -/
theorem PulsesOrdered.zone {m : Mach} {stn i : Nat} {acc : List Pulse} (h : PulsesOrdered m stn i acc) (mem : Mem) (f : Nat)
    (es : List Expo) {z : LaneZone} (level : z.level ≤ laneCeil m stn i) (width : Nat) :
    PulsesOrdered m stn i (zonePulses m mem stn f i es z width acc) := by
  refine List.foldlRecOn (motive := PulsesOrdered m stn i) _ _ h fun acc h k _ => ?_
  extract_lets d a b p at_ stop at' wd
  have narrow : p.2 ≤ 64 := blend_width ..
  have later : at_ ≤ at' := Int.le_max_left ..
  have free : stop ≤ at' := Int.le_max_right ..
  split
  · exact h
  · split
    · exact h
    next keeps =>
      simp only [Bool.or_eq_true, decide_eq_true_eq, not_or, not_lt] at keeps
      obtain ⟨⟨some_, early⟩, late⟩ := keeps
      have len : wd ≤ p.2 := Int.toNat_le.2 (sub_le_self _ (sub_nonneg.2 later))
      refine h.cons (at_ := at_) ⟨rfl, Nat.pos_of_ne_zero some_, len.trans narrow, level, early, late⟩ ?_
      cases acc <;> exact free

theorem laneZones_level {m : Mach} {s f i : Nat} {z : LaneZone} (hz : z ∈ laneZones m s f i) : z.level ≤ laneCeil m s i := by
  obtain ⟨n, -, e⟩ := List.mem_filterMap.1 hz
  extract_lets entry at e
  split at e
  · cases e
  · cases e
    exact laneLevel_le ..

theorem lanePulses_ordered (m : Mach) (mem : Mem) (stn f i : Nat) (es : List Expo) :
    ∃ acc, lanePulses m mem stn f i es = acc.reverse ∧ PulsesOrdered m stn i acc := by
  rw [lanePulses]
  split
  · exact ⟨[], rfl, .nil ..⟩
  · exact ⟨_, rfl, List.foldlRecOn (motive := PulsesOrdered m stn i) _ _ (.nil ..) fun _ h _ hz => h.zone mem f es (laneZones_level hz) _⟩

/-- Settles O40: by the invariant of the pulses that a lane has emitted so far, latest first. -/
theorem pulsesKeepOrder : Obligations.PulsesKeepOrder := by
  unfold Obligations.PulsesKeepOrder
  intro stn f i es mem m ps
  obtain ⟨acc, e, ordered⟩ := lanePulses_ordered m mem stn f i es
  have reversed : ps = acc.reverse := e
  refine ⟨fun p hp => ordered.bounded p (List.mem_reverse.1 (reversed ▸ hp)), ?_, fun out => ?_⟩
  · rw [reversed, List.pairwise_reverse]
    exact ordered.order
  · exact if_pos out

end Sys2Proof.Machine
end

section
/-! PROOFS. O49: an edge that a watch holds is judged when the loss of a rotor is reported (R287, R430). -/

namespace Sys2Proof.Machine

/-- Drive 0 is at the end of its RAMP, and an edge is held for a watch of a number whose STAT stands where MEAS of drive 0
does: nothing in the statement's premises excludes that. -/
def rampHeld : State := State.reset.onMach fun m =>
  { ((m.set (R.POLY_STAT_STATE 0) 2).set (R.POLY_STARTB_RAMPT 0) 0).set (R.SLU_WATCH_CFG_EN 0x13004) 1 with
    heldEdges := [(0x13004, { sns := 0, lvl := false, tick := 0, ppc := 0 })] }

theorem rampHeld_ready : rampHeld.mach.get (R.POLY_STAT_STATE 0) = 2 ∧
    (rampHeld.mach.polyOf 0).since.toNat + 100000 * rampHeld.mach.get (R.POLY_STARTB_RAMPT 0) ≤ rampHeld.mach.now := by
  constructor <;> decide +kernel

/-- The failure of the watch, which names no sheet, is written over the duty. -/
theorem rampHeld_duty : (opPolyRampEnd 0 rampHeld.mach).get (R.POLY_MEAS_DUTY 0) = 256 := by decide +kernel

/-- Refutes O49: the clause on the end of RAMP has no premise that no edge is held, and the fault of class 2 has the held
edges judged after the duty has gone to 0. -/
theorem not_polygonDrives : ¬ Obligations.PolygonDrives := by
  unfold Obligations.PolygonDrives
  intro holds
  obtain ⟨-, -, ramp, -⟩ := holds (.ctx 8 0) 0 0 0 0 0 0 0 false false [] 0 rampHeld rfl (by decide) (by decide) (by decide)
    (by decide)
  obtain ⟨running, due⟩ := rampHeld_ready
  obtain ⟨t, run, -, -, duty, -⟩ := ramp running due
  have acts : exec (.polyRampEnd 0) rampHeld = .next (rampHeld.onMach (opPolyRampEnd 0)) := onUnit_of rfl (opPolyRampEnd 0) _
  cases run.symm.trans acts
  rw [show (rampHeld.onMach (opPolyRampEnd 0)).mach = opPolyRampEnd 0 rampHeld.mach from rfl, rampHeld_duty] at duty
  cases duty

end Sys2Proof.Machine
end

section
/-! PROOFS. O53: an edge that a watch holds is judged when a parked channel is reported (R324, R430). -/

namespace Sys2Proof.Machine

/-- Channel 0 runs, its faults are of class 2, and an edge is held for a watch of a number whose STAT stands where CUR_LO
of channel 0 does: nothing in the statement's premises excludes that. -/
def runHeld : State := State.reset.onMach fun m =>
  { ((m.set (R.DMA_STAT_STATE 0) dRun).set (R.DMA_CFG_FCLS 0) 2).set (R.SLU_WATCH_CFG_EN 0x1FF1) 1 with
    heldEdges := [(0x1FF1, { sns := 0, lvl := false, tick := 0, ppc := 0 })] }

theorem runHeld_ready : runHeld.mach.pwr.restart = false ∧ runHeld.mach.get R.PWR_DOMSTAT_PEND = 0 ∧
    runHeld.mach.get (R.DMA_STAT_STATE 0) = dRun ∧ dramHeld runHeld.mach = false ∧ chanOwned runHeld.mach 0 = false ∧
    curOf runHeld.mach 0 = 0 := by
  refine ⟨?_, ?_, ?_, ?_, ?_, ?_⟩ <;> decide +kernel

/-- The failure of the watch, which names no sheet, is written over CUR. -/
theorem runHeld_cur : curOf (opDmaBusTimeout 0 runHeld.mach) 0 = 2 ^ 24 := by decide +kernel

/-- Refutes O53: the clause on the bus timeout has no premise that no edge is held, and a fault of class 2 has the held
edges judged after CUR has been left as it is. -/
theorem not_dmaChannels : ¬ Obligations.DmaChannels := by
  unfold Obligations.DmaChannels
  intro holds
  obtain ⟨calm, none_, running, free, unowned, cur⟩ := runHeld_ready
  obtain ⟨-, -, -, -, -, timeout, -⟩ := holds (.ctx 8 0) 0 runHeld rfl (by decide) nofun calm none_
  obtain ⟨t, run, -, -, same, -⟩ := timeout running free unowned
  have acts : exec (.dmaBusTimeout 0) runHeld = .next (runHeld.onMach (opDmaBusTimeout 0)) :=
    onUnit_of rfl (opDmaBusTimeout 0) _
  cases run.symm.trans acts
  rw [show (runHeld.onMach (opDmaBusTimeout 0)).mach = opDmaBusTimeout 0 runHeld.mach from rfl, runHeld_cur, cur] at same
  cases same

end Sys2Proof.Machine
end

section
/-! PROOFS. O50: the clamp of a servo reference marks the slot that has written it (R202, R291, R369). -/

namespace Sys2Proof.Machine

/-- Servo axis 0 is regulated with a reference above the envelope's limit, and the latest writer of the reference is noted
as a slot of a number whose STAT stands where MEAS of the axis does: nothing in the statement's premises excludes that. -/
def servoClamped : State := State.reset.onMach fun m =>
  { (m.set (R.SRV_CFG_EN 0) 1).setI (R.SRV_IREF_IQ 0) 32767 with
    scl := { m.scl with writers := [((R.SRV_IREF_IQ 0).key, 0x33F4)] } }

theorem servoClamped_ready : servoClamped.mach.on (R.SRV_CFG_EN 0) = true ∧ driveHeld 32 servoClamped.mach = false ∧
    servoClamped.mach.on (R.SRV_STAT_OC 0) = false ∧ servoClamped.mach.on (R.SRV_STAT_SWB 0) = false ∧
    srvPhases servoClamped.mach 0 = (0, 0, 0) := by
  refine ⟨?_, ?_, ?_, ?_, ?_⟩ <;> decide +kernel

theorem servoClamped_within (lim : Nat) : (srvPhases servoClamped.mach 0).1.natAbs ≤ lim ∧
    (srvPhases servoClamped.mach 0).2.1.natAbs ≤ lim ∧ (srvPhases servoClamped.mach 0).2.2.natAbs ≤ lim := by
  obtain ⟨-, -, -, -, phases⟩ := servoClamped_ready
  rw [phases]
  exact ⟨Nat.zero_le _, Nat.zero_le _, Nat.zero_le _⟩

theorem servoClamped_meas : (srvPark servoClamped.mach 0 (srvAngle servoClamped.mach 0)).1 = 0 ∧
    (opServoPwmPeriod 0 servoClamped.mach).getI (R.SRV_MEAS_IQ 0) = 64 := by
  constructor <;> decide +kernel

theorem exec_servoPwmPeriod {n : Nat} (hn : n < 8) (s : State) :
    exec (.servoPwmPeriod n) s = .next (s.onMach (opServoPwmPeriod n)) :=
  onUnit_of (decide_eq_true hn) (opServoPwmPeriod n) s

/-- Refutes O50: the clause on a servo period within the peak limit has no premise that no slot is noted as the writer of
the reference, and the clamp of the reference marks that slot after the measured current has been written. -/
theorem not_axisDrivesAndChopper : ¬ Obligations.AxisDrivesAndChopper := by
  unfold Obligations.AxisDrivesAndChopper
  intro holds
  obtain ⟨enabled, free, calm, braking, -⟩ := servoClamped_ready
  obtain ⟨current, meas⟩ := servoClamped_meas
  obtain ⟨servo, -⟩ := holds 0 servoClamped
  obtain ⟨u, v, w⟩ := servoClamped_within (3 * guard16 servoClamped.mach (0x162 + 4 * 0))
  obtain ⟨t, run, reads, -⟩ := (servo (by decide) enabled free calm braking).1 u v w
  have shown : t.mach.getI (R.SRV_MEAS_IQ 0) =
    clampI (-32768) 32767 (srvPark servoClamped.mach 0 (srvAngle servoClamped.mach 0)).1 := reads
  injection run.symm.trans (exec_servoPwmPeriod (by decide) servoClamped) with result
  rw [result, State.onMach_mach, meas, current] at shown
  exact absurd shown (by decide)

end Sys2Proof.Machine
end

section
/-! PROOFS. O55: an edge that a watch holds is judged when the last channel of a domain parks (R326, R430). -/

namespace Sys2Proof.Machine

/-- The power-down of domain 2 is held for channel 0 and has reached its limit; channel 1 writes to DRAM; and an edge is
held for a watch of a number whose STAT stands where the high word of the target of channel 1 does: nothing in the
statement's premises excludes that. -/
def downHeld : State := State.reset.onMach fun m =>
  let m := (m.set R.PWR_DOMSTAT_UP 0xFFF).set R.PWR_DOMSTAT_PEND 4
  let m := ((m.set (R.DMA_CFG_FCLS 0) 2).set (R.DMA_STAT_STATE 0) dRun).set (R.DMA_ACT_TD 0 2) 0x20000000
  let m := ((m.set (R.DMA_STAT_STATE 1) dRun).set (R.DMA_ACT_TD 1 2) 0x20000000).set (R.DMA_ACT_TD 1 3) 5
  let m := (m.onChan 0 fun h => { h with act := true }).onChan 1 fun h => { h with act := true }
  { m.set (R.SLU_WATCH_CFG_EN 0x2004) 1 with
    clk := { m.clk with tick := 1000000000 }
    pwr := { m.pwr with heldAt := [(2, 0)] }
    heldEdges := [(0x2004, { sns := 0, lvl := false, tick := 0, ppc := 0 })] }

theorem downHeld_ready : downHeld.mach.pwr.restart = false ∧ tfind 2 downHeld.mach.pwr.heldAt = some 0 ∧
    downHeld.mach.get R.PWR_DOMSTAT_PEND = 2 ^ 2 ∧ chansOn downHeld.mach 2 = [0] ∧ chanOwned downHeld.mach 0 = false ∧
    downHeld.mach.pend = [] ∧ (0 : Tick).toNat + 100 * downHeld.mach.get R.DMA_GCFG_PDTO ≤ downHeld.mach.now := by
  refine ⟨?_, ?_, ?_, ?_, ?_, ?_, ?_⟩ <;> decide +kernel

/-- The failure of the watch moves the target of channel 1 into the domain, which so stays up. -/
theorem downHeld_up : domUp 2 (opDmaPowerdownTimeout 2 downHeld.mach) = true := by decide +kernel

theorem exec_dmaPowerdownTimeout {d : Nat} (hd : d < 12) (s : State) :
    exec (.dmaPowerdownTimeout d) s = .next (s.onMach (opDmaPowerdownTimeout d)) :=
  onUnit_of (decide_eq_true hd) (opDmaPowerdownTimeout d) s

/-- Refutes O55: the clause on the limit of a held power-down has no premise that no edge is held, and the fault of class 2
of the channel that parks has the held edges judged before the domain is looked at again. -/
theorem not_domainsAndShutdown : ¬ Obligations.DomainsAndShutdown := by
  unfold Obligations.DomainsAndShutdown
  intro holds
  obtain ⟨calm, held, pends, chans, unowned, unstaged, due⟩ := downHeld_ready
  obtain ⟨-, -, limit, -⟩ := holds (.ctx 8 0) 2 0 downHeld rfl (by decide) calm
  obtain ⟨t, run, -, -, down, -⟩ := limit 0 0 (le_refl 2) held pends chans unowned unstaged due
  injection run.symm.trans (exec_dmaPowerdownTimeout (by decide) downHeld) with result
  rw [result, State.onMach_mach, downHeld_up] at down
  cases down

end Sys2Proof.Machine
end

section
/-! PROOFS. O46: a mark frame armed, abandoned and judged window by window (R226-R229). -/

namespace Sys2Proof.Machine

section
variable {s : State} {m : Mach} {q : Requester} {stn x bar : Nat} {stamps codes : List Nat} {v : Word}

/-! ## Arming and abandonment -/

theorem exec_markArm (okq : okReq q = true) (lets : s.lets q false R.ADC_MKCTL_MKEN.key) :
    exec (.markArm q v) s = .next (s.onMach (mkctlWrite (withBits v 1 1 1))) :=
  acts_guarded (onUnit_of okq (opMarkArm q v) s) lets

theorem exec_markAbort (okq : okReq q = true) (lets : s.lets q false R.ADC_MKCTL_MKEN.key) :
    exec (.markAbort q v) s = .next (s.onMach (mkctlWrite (withBits v 2 2 1))) :=
  acts_guarded (onUnit_of okq (opMarkAbort q v) s) lets

theorem mkctlWrite_arm (w : Word) (arm : R.ADC_MKCTL_ARM.of w = 1) : mkctlWrite w m =
    markArm (when ((m.on R.ADC_MKCTL_MKEN && !(storeFields R.ADC_MKCTL_MKEN.key w m).on R.ADC_MKCTL_MKEN) ||
      R.ADC_MKCTL_ABORT.of w = 1) markAbandon (storeFields R.ADC_MKCTL_MKEN.key w m)) := by
  rw [mkctlWrite]
  exact if_pos (decide_eq_true arm)

theorem mkctlWrite_abort (w : Word) (arm : R.ADC_MKCTL_ARM.of w = 0) (abort : R.ADC_MKCTL_ABORT.of w = 1) :
    mkctlWrite w m = markAbandon (storeFields R.ADC_MKCTL_MKEN.key w m) := by
  simp only [mkctlWrite, when, arm, abort, decide_true, Bool.or_true, if_true, Nat.zero_ne_one, decide_false,
    Bool.false_eq_true, if_false]

/-- A frame may be armed at this position. -/
def MarkReady (m : Mach) : Prop :=
  m.on R.ADC_CTL_EN = true ∧ m.on R.ADC_MKCTL_MKEN = true ∧ markBusy m = false ∧
    4096 ≤ ppcDiff (BitVec.ofNat 48 (m.get R.ADC_MKPOS_LO_POS + m.get R.ADC_MKPOS_HI_POS * 2 ^ 32) : Ppc).toNat m.ppcNow

theorem markReady_iff : MarkReady m ↔ ¬((!m.on R.ADC_CTL_EN || !m.on R.ADC_MKCTL_MKEN || markBusy m ||
    decide (ppcDiff (BitVec.ofNat 48 (m.get R.ADC_MKPOS_LO_POS + m.get R.ADC_MKPOS_HI_POS * 2 ^ 32) : Ppc).toNat m.ppcNow <
      4096)) = true) := by
  simp only [MarkReady, Bool.or_eq_true, Bool.not_eq_true', decide_eq_true_eq, not_or, not_lt, Bool.not_eq_false,
    Bool.not_eq_true, and_assoc]

theorem markArm_refused (h : ¬MarkReady m) : markArm m = m.set R.ADC_MKSTAT_REFUSED 1 :=
  if_pos (not_not.1 (mt markReady_iff.2 h))

/-- With no sheet about, an armed frame stands. -/
theorem markCheck_alone (h : recsIn (fun st => st == .admitted || st.busy) m = []) : markCheck m = m := by
  rw [markCheck, h]
  exact if_neg (by simp)

theorem on_withMark (f : FRef) (x : Mark) (m : Mach) : ({ m with mark := x } : Mach).on f = m.on f := rfl

/-- The flags of an armed frame. -/
def armedFlags (m : Mach) : Mach :=
  (((m.set R.ADC_MKSTAT_REFUSED 0).set R.ADC_MKSTAT_ABAND 0).set R.ADC_MKSTAT_ARMED 1).set R.ADC_MKSTAT_DIRTY 0

theorem armedFlags_on : (armedFlags m).on R.ADC_MKSTAT_ARMED = true ∧ (armedFlags m).on R.ADC_MKSTAT_REFUSED = false := by
  refine ⟨?_, ?_⟩
  · exact (Mach.on_set_bits (f := R.ADC_MKSTAT_DIRTY) (g := R.ADC_MKSTAT_ARMED) rfl _ _).trans
      (Mach.on_set_flag (f := R.ADC_MKSTAT_ARMED) rfl rfl true _)
  · exact (Mach.on_set_bits (f := R.ADC_MKSTAT_DIRTY) (g := R.ADC_MKSTAT_REFUSED) rfl _ _).trans
      ((Mach.on_set_bits (f := R.ADC_MKSTAT_ARMED) (g := R.ADC_MKSTAT_REFUSED) rfl _ _).trans
        ((Mach.on_set_bits (f := R.ADC_MKSTAT_ABAND) (g := R.ADC_MKSTAT_REFUSED) rfl _ _).trans
          (Mach.on_set_flag (f := R.ADC_MKSTAT_REFUSED) rfl rfl false _)))

theorem markArm_armed (h : MarkReady m) (alone : recsIn (fun st => st == .admitted || st.busy) m = []) :
    markArm m = { armedFlags m with
      mark := { pos := BitVec.ofNat 48 (m.get R.ADC_MKPOS_LO_POS + m.get R.ADC_MKPOS_HI_POS * 2 ^ 32), legs := [], bars := [] } } :=
  (if_neg (markReady_iff.1 h)).trans (markCheck_alone alone)

/-- The machine of an abandoned frame, before it is reported. -/
def frameDropped (m : Mach) : Mach :=
  (({ m with mark := { m.mark with legs := [], bars := [] } }.set R.ADC_MKSTAT_ARMED 0).set R.ADC_MKSTAT_ACTIVE 0).set
    R.ADC_MKSTAT_ABAND 1

theorem markAbandon_busy (h : markBusy m = true) : markAbandon m = note 0x240 0x01 0 (assertEvent 0x241 (frameDropped m)) :=
  if_pos h

theorem ripples_frameReport : Ripples False (frameDropped m) (note 0x240 0x01 0 (assertEvent 0x241 (frameDropped m))) :=
  (ripples_assertEvent ..).trans (ripples_note ..)

theorem frameDropped_flags : (frameDropped m).on R.ADC_MKSTAT_ABAND = true ∧ (frameDropped m).on R.ADC_MKSTAT_ARMED = false ∧
    (frameDropped m).on R.ADC_MKSTAT_ACTIVE = false := by
  refine ⟨Mach.on_set_flag (f := R.ADC_MKSTAT_ABAND) rfl rfl true _, ?_, ?_⟩
  · exact ((Mach.on_set_bits (f := R.ADC_MKSTAT_ABAND) (g := R.ADC_MKSTAT_ARMED) rfl _ _).trans
      (Mach.on_set_bits (f := R.ADC_MKSTAT_ACTIVE) rfl _ _)).trans (Mach.on_set_flag (f := R.ADC_MKSTAT_ARMED) rfl rfl false _)
  · exact (Mach.on_set_bits (f := R.ADC_MKSTAT_ABAND) (g := R.ADC_MKSTAT_ACTIVE) rfl _ _).trans
      (Mach.on_set_flag (f := R.ADC_MKSTAT_ACTIVE) rfl rfl false _)

/-! ## Windows -/

theorem crossing_eq (thr : Int) (p q : Nat × Nat) (m : Mach) : ∃ fresh, (crossing thr p q m).2 = { m with fresh := fresh } :=
  roundFree_eq ..

/-- The edges of a window take free values and nothing else. -/
theorem barEdges_eq (xs : List (Nat × Nat)) (m : Mach) : ∃ fresh, (barEdges stn xs m).2.2 = { m with fresh := fresh } := by
  simp only [barEdges]
  split
  · exact ⟨m.fresh, rfl⟩
  · split
    · exact crossing_eq ..
    · obtain ⟨f1, h1⟩ := crossing_eq _ _ _ m
      rw [h1]
      obtain ⟨f2, h2⟩ := crossing_eq _ _ _ { m with fresh := f1 }
      exact ⟨f2, h2⟩

/-- Every window of the frame has closed. -/
def windowsClosed (m : Mach) : Bool :=
  (List.range 5).all fun s => !markIncl m s || (List.range 8).all fun i => (tfind (s * 8 + i) m.mark.bars).isSome

/-- The machine with a judged bar. -/
def barJudged (fresh stn x bar : Nat) (lead trail : Option Nat) (m : Mach) : Mach :=
  { m with
    fresh := fresh
    mark := { m.mark with bars := tput ((stn * 4 + x) * 2 + bar) (judgeBar m stn bar lead trail) m.mark.bars } }

/-- The samples of a window. -/
def windowSamples (m : Mach) (stamps codes : List Nat) : List (Nat × Nat) :=
  if m.on R.ADC_CTL_EN then stamps.zip codes else []

/-- The window is open and its last sample has come. -/
def WindowEnds (m : Mach) (stn x bar : Nat) : Prop :=
  markBusy m = true ∧ markIncl m stn = true ∧ barAt m stn x bar = none ∧
    ppcReached m.ppcNow (m.mark.pos + BitVec.ofNat 48 (windowCentre m stn bar + 64 * m.get R.ADC_MKCTL_WIN)).toNat = true

theorem opMarkWindowClose_eq (h : WindowEnds m stn x bar) : ∃ fresh,
    opMarkWindowClose stn x bar (stamps.zip codes) m =
      when (windowsClosed (barJudged fresh stn x bar (barEdges stn (windowSamples m stamps codes) m).1
        (barEdges stn (windowSamples m stamps codes) m).2.1 m)) markDone
        (barJudged fresh stn x bar (barEdges stn (windowSamples m stamps codes) m).1
          (barEdges stn (windowSamples m stamps codes) m).2.1 m) := by
  obtain ⟨busy, incl, open_, reached⟩ := h
  obtain ⟨fresh, drawn⟩ := barEdges_eq (stn := stn) (windowSamples m stamps codes) m
  refine ⟨fresh, ?_⟩
  have acts : (markBusy m && markIncl m stn && (barAt m stn x bar).isNone && ppcReached m.ppcNow
      (m.mark.pos + BitVec.ofNat 48 (windowCentre m stn bar + 64 * m.get R.ADC_MKCTL_WIN)).toNat) = true := by
    rw [busy, incl, open_, reached]; rfl
  have samples : (if m.on R.ADC_CTL_EN = true then stamps.zip codes else []) = windowSamples m stamps codes := rfl
  rw [opMarkWindowClose]
  simp only [acts, if_true, samples]
  generalize barEdges stn (windowSamples m stamps codes) m = e at drawn
  obtain ⟨lead, trail, m'⟩ := e
  simp only at drawn
  subst drawn
  rfl

theorem exec_markWindowClose (hs : stn < s.mach.nStn) (hx : x < 4) (hb : bar < 2) :
    exec (.markWindowClose stn x bar stamps codes) s =
      .next (s.onMach (opMarkWindowClose stn x bar (stamps.zip codes))) :=
  onUnit_of (by simp [Mach.hasStn, hs, hx, hb]) _ s

theorem windowsClosed_iff : windowsClosed m = true ↔ ∀ y, y < 5 → ∀ j, j < 8 → markIncl m y = true →
    (tfind (y * 8 + j) m.mark.bars).isSome = true := by
  simp only [windowsClosed, List.all_eq_true, List.mem_range, Bool.or_eq_true, Bool.not_eq_true']
  constructor
  · intro h y hy j hj incl
    exact (h y hy).resolve_left (by simp [incl]) j hj
  · intro h y hy
    rcases hi : markIncl m y with _ | _
    · exact .inl rfl
    · exact .inr fun j hj => h y hy j hj hi

theorem tfind_barJudged_same {fresh : Nat} {lead trail : Option Nat} :
    tfind ((stn * 4 + x) * 2 + bar) (barJudged fresh stn x bar lead trail m).mark.bars =
      some (judgeBar m stn bar lead trail) := tfind_tput_same ..

theorem tfind_barJudged_ne {fresh k : Nat} {lead trail : Option Nat} (h : k ≠ (stn * 4 + x) * 2 + bar) :
    tfind k (barJudged fresh stn x bar lead trail m).mark.bars = tfind k m.mark.bars := tfind_tput_ne _ h _

/-- The last window of a frame: the others have closed. -/
theorem windowsClosed_last {fresh : Nat} {lead trail : Option Nat}
    (others : ∀ y, y < 5 → ∀ j, j < 8 → markIncl m y = true → y * 8 + j ≠ (stn * 4 + x) * 2 + bar →
      (tfind (y * 8 + j) m.mark.bars).isSome = true) : windowsClosed (barJudged fresh stn x bar lead trail m) = true := by
  refine windowsClosed_iff.2 fun y hy j hj incl => ?_
  by_cases at_ : y * 8 + j = (stn * 4 + x) * 2 + bar
  · rw [at_, tfind_barJudged_same]; rfl
  · rw [tfind_barJudged_ne at_]; exact others y hy j hj incl at_

/-- A window of the frame that is still open. -/
theorem windowsClosed_open {fresh y j : Nat} {lead trail : Option Nat} (hy : y < 5) (hj : j < 8) (incl : markIncl m y = true)
    (at_ : y * 8 + j ≠ (stn * 4 + x) * 2 + bar) (none_ : tfind (y * 8 + j) m.mark.bars = none) :
    windowsClosed (barJudged fresh stn x bar lead trail m) = false := by
  refine Bool.eq_false_iff.2 fun closed => ?_
  have some_ := windowsClosed_iff.1 closed y hy j hj incl
  rw [tfind_barJudged_ne at_, none_] at some_
  exact nomatch some_

/-! ## The results of a frame -/

/-- The bars and SEQ, which the results of a station leave alone. -/
def barsAndSeq (m : Mach) : Mark × Nat := (m.mark, m.get R.ADC_MKSTAT_SEQ)

theorem barsAndSeq_set {f : FRef} (h : f.apart R.ADC_MKSTAT_SEQ) (n : Nat) : barsAndSeq (m.set f n) = barsAndSeq m :=
  Prod.ext rfl (Mach.get_set_of_apart _ h _)

theorem mkstat_still : ¬rippleKey R.ADC_MKSTAT_SEQ.key := by
  simp only [rippleKey, R.ADC_MKSTAT_SEQ, List.mem_cons, List.not_mem_nil, or_false]; omega

theorem Ripples.barsAndSeq {m m' : Mach} (h : Ripples False m m') : Machine.barsAndSeq m' = Machine.barsAndSeq m :=
  Prod.ext h.mark (h.get' mkstat_still)

theorem barsAndSeq_resultA (y : Nat) (n : Nat) (m : Mach) :
    barsAndSeq (m.set (R.ADC_MKA_A y x) n) = barsAndSeq m :=
  barsAndSeq_set (.inl (by simp only [R.ADC_MKA_A, R.ADC_MKSTAT_SEQ]; omega)) n

theorem barsAndSeq_resultQ (y : Nat) (n : Nat) (m : Mach) :
    barsAndSeq (m.set (R.ADC_MKQ_Q y x) n) = barsAndSeq m :=
  barsAndSeq_set (.inl (by simp only [R.ADC_MKQ_Q, R.ADC_MKSTAT_SEQ]; omega)) n

theorem barsAndSeq_markResult (y : Nat) (m : Mach) : barsAndSeq (markResult y m) = barsAndSeq m := by
  refine (barsAndSeq_set (by decide) _).trans ?_
  have noted (b : Bool) (m : Mach) : barsAndSeq (when b (note 0x240 0x02 y) m) = barsAndSeq m :=
    (ripples_when (fun _ m => ripples_note ..) m).barsAndSeq
  refine (noted _ _).trans (each_keeps _ (fun x _ m => ?_) m)
  split
  · exact (barsAndSeq_resultQ y _ _).trans (barsAndSeq_resultA y _ _)
  · exact (barsAndSeq_resultQ y _ _).trans (barsAndSeq_resultA y _ _)

/-- The frame's end: SEQ counts on, the bars stand, and the frame is no longer busy. -/
theorem markDone_ends (m : Mach) : (markDone m).mark = m.mark ∧ markBusy (markDone m) = false ∧
    (markDone m).get R.ADC_MKSTAT_SEQ = (m.get R.ADC_MKSTAT_SEQ + 1) % 256 := by
  have results (l : List Nat) (m : Mach) : barsAndSeq (each l markResult m) = barsAndSeq m :=
    each_keeps l (fun y _ m => barsAndSeq_markResult y m) m
  have judged : barsAndSeq (((each ((List.range 5).filter (markIncl (m.set R.ADC_MKSTAT_VALID 0))) markResult
      (m.set R.ADC_MKSTAT_VALID 0)).set R.ADC_MKSTAT_ACTIVE 0).set R.ADC_MKSTAT_ARMED 0) = barsAndSeq m :=
    (barsAndSeq_set (by decide) _).trans ((barsAndSeq_set (by decide) _).trans
      ((results _ _).trans (barsAndSeq_set (by decide) _)))
  have off (m : Mach) : markBusy (((m.set R.ADC_MKSTAT_ACTIVE 0).set R.ADC_MKSTAT_ARMED 0).incWrap R.ADC_MKSTAT_SEQ) = false := by
    have armed : (((m.set R.ADC_MKSTAT_ACTIVE 0).set R.ADC_MKSTAT_ARMED 0).incWrap R.ADC_MKSTAT_SEQ).on R.ADC_MKSTAT_ARMED = false :=
      (Mach.on_set_bits (f := R.ADC_MKSTAT_SEQ) (g := R.ADC_MKSTAT_ARMED) rfl _ _).trans
        (Mach.on_set_flag (f := R.ADC_MKSTAT_ARMED) rfl rfl false _)
    have active : (((m.set R.ADC_MKSTAT_ACTIVE 0).set R.ADC_MKSTAT_ARMED 0).incWrap R.ADC_MKSTAT_SEQ).on R.ADC_MKSTAT_ACTIVE = false :=
      ((Mach.on_set_bits (f := R.ADC_MKSTAT_SEQ) (g := R.ADC_MKSTAT_ACTIVE) rfl _ _).trans
        (Mach.on_set_bits (f := R.ADC_MKSTAT_ARMED) (g := R.ADC_MKSTAT_ACTIVE) rfl _ _)).trans
          (Mach.on_set_flag (f := R.ADC_MKSTAT_ACTIVE) rfl rfl false _)
    rw [markBusy, armed, active]; rfl
  rw [markDone]
  generalize each ((List.range 5).filter (markIncl (m.set R.ADC_MKSTAT_VALID 0))) markResult (m.set R.ADC_MKSTAT_VALID 0) = r at judged
  refine ⟨((ripples_assertEvent ..).mark (trip := False)).trans (congrArg Prod.fst judged), ?_, ?_⟩
  · rw [markBusy, assertEvent_on, assertEvent_on]
    exact off r
  · rw [assertEvent_get]
    refine (Mach.get_set_same _ _ _ (by decide) (by decide)).trans ?_
    rw [show ((r.set R.ADC_MKSTAT_ACTIVE 0).set R.ADC_MKSTAT_ARMED 0).get R.ADC_MKSTAT_SEQ = _ from congrArg Prod.snd judged]
    rfl

/-- With the converters off, a window has no edges. -/
theorem barEdges_off (off : m.on R.ADC_CTL_EN = false) : barEdges stn (windowSamples m stamps codes) m = (none, none, m) := by
  rw [windowSamples, off]; rfl

theorem withBits_arm (v : Word) : R.ADC_MKCTL_ARM.of (withBits v 1 1 1) = 1 :=
  bitsOf_withBits_same v 1 (by decide) (by decide)

end

/-- Settles O46: the results of stations touch no bar and no SEQ; a window is judged from its edges, which take free values
only. -/
theorem markFrames : Obligations.MarkFrames := by
  intro q stn x bar stamps codes v s okq hs hx hb
  refine ⟨fun lets => ⟨?_, fun arm => ?_⟩, fun ready alone => ?_, fun unready => markArm_refused unready, fun busy => ?_,
    fun busy incl open_ reached others => ?_, fun busy incl open_ reached others => ?_, fun off => ?_⟩
  · rw [exec_markArm okq lets, onMach_congr (g := fun _ => _) (mkctlWrite_arm (m := s.mach) _ (withBits_arm v))]
  · have arm' : R.ADC_MKCTL_ARM.of (withBits v 2 2 1) = 0 :=
      (bitsOf_withBits_below v 1 (by decide) (by decide) (by decide) (by decide)).trans arm
    have abort : R.ADC_MKCTL_ABORT.of (withBits v 2 2 1) = 1 := bitsOf_withBits_same v 1 (by decide) (by decide)
    rw [exec_markAbort okq lets, onMach_congr (g := fun _ => _) (mkctlWrite_abort (m := s.mach) _ arm' abort)]
  · rw [markArm_armed ready alone]
    exact ⟨(on_withMark ..).trans armedFlags_on.1, (on_withMark ..).trans armedFlags_on.2, rfl⟩
  · rw [markAbandon_busy busy]
    have reported := ripples_frameReport (m := s.mach)
    obtain ⟨aband, armed, active⟩ := frameDropped_flags (m := s.mach)
    refine ⟨(reported.on' (f := R.ADC_MKSTAT_ABAND) mkstat_still).trans aband, ?_, congrArg Mark.legs reported.mark⟩
    rw [markBusy, (reported.on' (f := R.ADC_MKSTAT_ARMED) mkstat_still).trans armed, (reported.on' (f := R.ADC_MKSTAT_ACTIVE) mkstat_still).trans active]
    rfl
  · obtain ⟨fresh, closes⟩ := opMarkWindowClose_eq (stamps := stamps) (codes := codes) ⟨busy, incl, open_, reached⟩
    refine ⟨_, exec_markWindowClose hs hx hb, ?_⟩
    rw [State.onMach_mach, closes, windowsClosed_last others]
    obtain ⟨bars, idle, seq⟩ := markDone_ends (barJudged fresh stn x bar (barEdges stn (windowSamples s.mach stamps codes) s.mach).1
      (barEdges stn (windowSamples s.mach stamps codes) s.mach).2.1 s.mach)
    exact ⟨congrArg Mark.bars bars, idle, seq⟩
  · obtain ⟨fresh, closes⟩ := opMarkWindowClose_eq (stamps := stamps) (codes := codes) ⟨busy, incl, open_, reached⟩
    obtain ⟨y, j, hy, hj, incl', at_, none_⟩ := others
    refine ⟨_, exec_markWindowClose hs hx hb, ?_⟩
    rw [State.onMach_mach, closes, windowsClosed_open hy hj incl' at_ none_]
    exact ⟨rfl, rfl, rfl⟩
  · show tfind _ (tput _ (judgeBar _ _ _ (barEdges stn (windowSamples s.mach stamps codes) s.mach).1
      (barEdges stn (windowSamples s.mach stamps codes) s.mach).2.1) _) = _
    rw [barEdges_off off]
    exact tfind_tput_same ..

end Sys2Proof.Machine
end

section
/-! PROOFS. O39: strokes count STROKEs, LINEs and FACETs on (R57, R68, R73, R187). Everything that a stroke does besides
its counts leaves the count of strokes, what is staged and the commits alone. -/

namespace Sys2Proof.Machine

/-! ## What a stroke leaves alone -/

/-- The staged fields, the power block, the commit slots and the word at a key stay. -/
structure Quiet (key : Nat) (m m' : Mach) : Prop where
  pend : m'.pend = m.pend
  pwr : m'.pwr = m.pwr
  slot : ∀ i, (m'.ctx i).slot = (m.ctx i).slot
  word : m'.word key = m.word key

/-- Nothing is staged and no commit waits. -/
def Calmly (m : Mach) : Prop := m.pend = [] ∧ ∀ i, (m.ctx i).slot = none

section
variable {key stn : Nat} {m m' : Mach}

theorem Quiet.refl (m : Mach) : Quiet key m m := ⟨rfl, rfl, fun _ => rfl, rfl⟩

theorem Quiet.trans {a b c : Mach} (h : Quiet key a b) (g : Quiet key b c) : Quiet key a c :=
  ⟨g.pend.trans h.pend, g.pwr.trans h.pwr, fun i => (g.slot i).trans (h.slot i), g.word.trans h.word⟩

theorem Quiet.calmly (h : Quiet key m m') (c : Calmly m) : Calmly m' :=
  ⟨h.pend.trans c.1, fun i => (h.slot i).trans (c.2 i)⟩

theorem quiet_when {c : Bool} {f : Mach → Mach} (hf : ∀ m, Quiet key m (f m)) (m : Mach) : Quiet key m (when c f m) := by
  cases c
  · exact .refl m
  · exact hf m

theorem quiet_each {α : Type} {f : α → Mach → Mach} (hf : ∀ a m, Quiet key m (f a m)) (l : List α) :
    ∀ m, Quiet key m (each l f m) := by
  induction l with
  | nil => exact Quiet.refl
  | cons a l ih => exact fun m => (hf a m).trans (ih _)

theorem quiet_set {f : FRef} (h : key ≠ f.key) (v : Nat) (m : Mach) : Quiet key m (m.set f v) :=
  ⟨rfl, rfl, fun _ => rfl, Mach.word_set_ne _ h _⟩

theorem quiet_onVid (f : Vid → Vid) (m : Mach) : Quiet key m (m.onVid stn f) := ⟨rfl, rfl, fun _ => rfl, rfl⟩

theorem quiet_setVid (v : Vid) (m : Mach) : Quiet key m (m.setVid stn v) := ⟨rfl, rfl, fun _ => rfl, rfl⟩

theorem quiet_setSheet (r : Nat) (sh : Sheet) (m : Mach) : Quiet key m (m.setSheet r sh) := ⟨rfl, rfl, fun _ => rfl, rfl⟩

end

/-- Snapshots held off, or not. -/
def withFrozen (b : Bool) (m : Mach) : Mach := { m with snap := { m.snap with frozen := b } }

theorem indivisible_eq (f : Mach → Mach) (m : Mach) :
    indivisible f m = snapTry (withFrozen m.snap.frozen (f (withFrozen true m))) := rfl

/-! ## The pieces of a stroke -/

section
variable {n stn : Nat} {m m' : Mach}

/-- The register that counts the strokes of a station. -/
def strokeKey (n : Nat) : Nat := (R.CLK_TB_STROKE n).key

theorem strokeKey_lt (hn : n < 5) : strokeKey n < 0x010250 ∧ 0x010200 ≤ strokeKey n ∧ strokeKey n % 16 = 0 := by
  simp only [strokeKey, R.CLK_TB_STROKE]; omega

theorem Ripples.quiet {trip : Prop} (hn : n < 5) (h : Ripples trip m m') : Quiet (strokeKey n) m m' := by
  obtain ⟨below, above, low⟩ := strokeKey_lt hn
  refine ⟨h.pend, h.pwr, fun i => by rw [h.ctx i], h.word _ ?_ fun _ => ?_⟩
  · simp only [rippleKey, List.mem_cons, List.not_mem_nil, or_false]; omega
  · simp only [tripsKey]; omega

variable (hn : n < 5)
include hn

theorem quiet_assertEvent (code : Nat) (m : Mach) : Quiet (strokeKey n) m (assertEvent code m) :=
  (ripples_assertEvent (trip := False) code m).quiet hn

theorem quiet_note (src kind param : Nat) (m : Mach) : Quiet (strokeKey n) m (note src kind param m) :=
  (ripples_note src kind param m).quiet hn

theorem quiet_raise {cls : Nat} (h : cls ≠ 4) (src kind : Nat) (sid : Sid) (param : Nat) :
    Quiet (strokeKey n) m (raise src kind cls m sid param) := (ripples_raise (m := m) h).quiet hn

theorem quiet_raiseEach {cls : Nat} (h : cls ≠ 4) (src kind : Nat) (rs : List Nat) (m : Mach) :
    Quiet (strokeKey n) m (raiseEach src kind cls rs m) := quiet_each (fun _ _ => quiet_raise hn h ..) rs m

theorem quiet_far {f : FRef} (h : 0x010250 ≤ f.key) (v : Nat) (m : Mach) : Quiet (strokeKey n) m (m.set f v) :=
  quiet_set (by have := strokeKey_lt hn; omega) v m

theorem quiet_retireChanged (old : Nat) (m : Mach) : Quiet (strokeKey n) m (retireChanged stn old m) := by
  rw [retireChanged]
  split
  · exact .refl m
  · exact (quiet_assertEvent hn _ m).trans (quiet_when (fun m => quiet_note hn _ _ _ m) _)

theorem quiet_autoRetire (lanes : List Nat) (m : Mach) : Quiet (strokeKey n) m (autoRetire stn lanes m) := by
  rw [autoRetire]
  split
  · exact (quiet_far hn (by simp only [R.VID_RETIRE_LANES]; omega) _ m).trans (quiet_retireChanged hn ..)
  · exact .refl m

theorem quiet_dutyFault (kind : Nat) (m : Mach) : Quiet (strokeKey n) m (dutyFault stn kind m) := by
  simp only [dutyFault]
  split
  · exact quiet_note hn ..
  · exact quiet_raiseEach hn (by decide) ..

theorem quiet_dutyGuard (ps : List Pulse) (m : Mach) : Quiet (strokeKey n) m (dutyGuard stn ps m) := by
  simp only [dutyGuard]
  refine Quiet.trans ?_ (quiet_autoRetire hn ..)
  refine Quiet.trans ?_ (quiet_when (quiet_dutyFault hn _) _)
  refine Quiet.trans ?_ (quiet_when (quiet_dutyFault hn _) _)
  refine Quiet.trans ?_ (quiet_when (quiet_far hn (by decide) _) _)
  refine Quiet.trans ?_ (quiet_far hn (by simp only [R.VID_DUTYSUP_STN]; omega) _ _)
  refine Quiet.trans ?_ (quiet_far hn (by simp only [R.VID_DUTYSUP_LANES]; omega) _ _)
  exact quiet_setVid _ m

theorem quiet_retireSpoils (was m : Mach) : Quiet (strokeKey n) m (retireSpoils stn was m) := by
  refine quiet_each (fun x m => ?_) _ m
  split
  · dsimp only
    split
    · exact (quiet_setSheet _ _ m).trans (quiet_raise hn (by decide) ..)
    · exact .refl m
  · exact .refl m

theorem quiet_guardClamp {f : FRef} (h : 0x010250 ≤ f.key) (keys : List Nat) (m : Mach) :
    Quiet (strokeKey n) m (guardClamp f keys m) :=
  (quiet_far hn h 1 m).trans (quiet_each (fun k m => quiet_far hn (by simp only [R.SCL_SLOT_STAT_ECLAMP]; omega) 1 m) _ _)

theorem quiet_levelClamps (m : Mach) : Quiet (strokeKey n) m (levelClamps stn m) := by
  simp only [levelClamps]
  refine Quiet.trans ?_ (quiet_autoRetire hn ..)
  refine Quiet.trans (quiet_setVid _ m) (quiet_when (fun m => ?_) _)
  exact ((quiet_far hn (by simp only [R.VID_DLSTAT_LCLAMP]; omega) _ m).trans (quiet_guardClamp hn (by decide) ..)).trans
    (quiet_note hn ..)

theorem quiet_lateLines (m : Mach) : Quiet (strokeKey n) m (lateLines stn m) := by
  refine quiet_each (fun x m => ?_) _ m
  split
  · refine Quiet.trans ?_ (quiet_raise hn (by decide) ..)
    split
    · exact quiet_setSheet _ _ m
    · exact .refl m
  · exact .refl m

theorem quiet_exposeStroke (dark : Bool) (mem : Mem) (m : Mach) : Quiet (strokeKey n) m (exposeStroke stn dark mem m) := by
  simp only [exposeStroke]
  refine Quiet.trans ?_ (quiet_onVid _ _)
  refine Quiet.trans ?_ (quiet_levelClamps hn _)
  refine Quiet.trans ?_ (quiet_retireSpoils hn _ _)
  refine Quiet.trans ?_ (quiet_dutyGuard hn _ _)
  split
  · exact .refl m
  · exact quiet_lateLines hn m

theorem quiet_darkSheets (m : Mach) : Quiet (strokeKey n) m (darkSheets stn m) := by
  refine quiet_each (fun x m => ?_) _ m
  split
  · split
    · exact .refl m
    · exact quiet_raise hn (by decide) ..
  · exact .refl m

theorem quiet_liveFeather (m : Mach) : Quiet (strokeKey n) m (liveFeather stn m) := by
  have lf (v : Nat) (m : Mach) : Quiet (strokeKey n) m (m.set (R.VID_LIVE_LF stn) v) :=
    quiet_far hn (by simp only [R.VID_LIVE_LF]; omega) v m
  have clamp (v : Nat) (m : Mach) : Quiet (strokeKey n) m (m.set (R.VID_LIVE_LFCLAMP stn) v) :=
    quiet_far hn (by simp only [R.VID_LIVE_LFCLAMP]; omega) v m
  have perr (v : Int) (m : Mach) : Quiet (strokeKey n) m (m.setI (R.VID_LIVE_PERR stn) v) :=
    quiet_far hn (by simp only [R.VID_LIVE_PERR]; omega) _ m
  have fclamp (m : Mach) : Quiet (strokeKey n) m (m.incSat (R.VID_DLSTAT_FCLAMP stn)) :=
    quiet_far hn (by simp only [R.VID_DLSTAT_FCLAMP]; omega) _ m
  rw [liveFeather]
  split
  · next rc t p =>
    extract_lets target m1 e raw l m2
    have begun : Quiet (strokeKey n) m m2 := (quiet_setVid _ m).trans (perr _ _)
    split
    · exact begun.trans ((lf _ _).trans (clamp _ _))
    · split
      · exact (begun.trans (lf _ _)).trans (clamp _ _)
      · exact ((begun.trans (lf _ _)).trans ((clamp _ _).trans (fclamp _))).trans (quiet_raise hn (by omega) ..)
  · exact .refl m

theorem quiet_shiftCount (q : Nat) (d : Int) (m : Mach) : Quiet (strokeKey n) m (shiftCount q d m) := by
  have eoff (a : Nat) (v : Int) (m : Mach) : Quiet (strokeKey n) m (m.setI (R.SRV_EOFF a) v) :=
    quiet_far hn (by simp only [R.SRV_EOFF]; omega) _ m
  have cnt (v : Int) (m : Mach) : Quiet (strokeKey n) m (m.setI (R.FBK_CNT q) v) :=
    quiet_far hn (by simp only [R.FBK_CNT]; omega) _ m
  have rpos (v : Int) (m : Mach) : Quiet (strokeKey n) m (m.setI (R.FBK_RPOS q) v) :=
    quiet_far hn (by simp only [R.FBK_RPOS]; omega) _ m
  unfold shiftCount
  extract_lets fed moved m1 m2 m3 e
  have h1 : Quiet (strokeKey n) m m1 := ⟨rfl, rfl, fun _ => rfl, rfl⟩
  have h2 : Quiet (strokeKey n) m1 m2 := quiet_each (fun a m => eoff a _ m) _ _
  have h3 : Quiet (strokeKey n) m2 m3 := (cnt _ _).trans (rpos _ _)
  exact ((h1.trans h2).trans h3).trans ⟨rfl, rfl, fun _ => rfl, rfl⟩

theorem quiet_gapRezero (m : Mach) : Quiet (strokeKey n) m (gapRezero stn m) :=
  quiet_each (fun q m => ((quiet_shiftCount hn q _ m).trans (quiet_far hn (by simp only [R.FBK_ICAP]; omega) _ _)).trans
    (quiet_far hn (by simp only [R.FBK_STAT_IDXDEF]; omega) _ _)) _ m

omit hn in
theorem quiet_suspectSheets (m : Mach) : Quiet (strokeKey n) m (suspectSheets stn m) := by
  refine quiet_each (fun r m => ?_) _ m
  dsimp only
  split
  · exact quiet_setSheet _ _ m
  · exact .refl m

theorem quiet_setIdok (b : Bool) (m : Mach) : Quiet (strokeKey n) m (setIdok stn b m) := by
  rw [setIdok]
  split
  · exact .refl m
  · exact (quiet_far hn (by simp only [R.VID_STAT_IDOK]; omega) _ m).trans (quiet_assertEvent hn ..)

theorem quiet_lockDrop (m : Mach) : Quiet (strokeKey n) m (lockDrop stn m) :=
  (((quiet_far hn (by simp only [R.VID_PLOCK_LOCK]; omega) _ m).trans (quiet_assertEvent hn ..)).trans
    (quiet_onVid _ _)).trans (quiet_setIdok hn ..)

theorem quiet_polyUnlock (m : Mach) : Quiet (strokeKey n) m (polyUnlock stn m) := by
  unfold polyUnlock
  extract_lets m1 m2 rs
  have h1 : Quiet (strokeKey n) m m1 := quiet_onVid (stn := stn) _ m
  split
  · exact h1
  · refine (h1.trans (quiet_lockDrop (stn := stn) hn m1)).trans (?_ : Quiet _ m2 _)
    split
    · exact quiet_note hn ..
    · exact quiet_raiseEach hn (by decide) ..

theorem quiet_polyJudge (adv : Nat) (m : Mach) : Quiet (strokeKey n) m (polyJudge stn adv m) := by
  unfold polyJudge
  extract_lets nom dev tol v lockRun missRun m1
  have h1 : Quiet (strokeKey n) m m1 := quiet_setVid (stn := stn) _ m
  split
  · exact h1.trans (quiet_when (quiet_polyUnlock hn) _)
  · split
    · exact (h1.trans (quiet_far hn (by simp only [R.VID_PLOCK_LOCK]; omega) _ _)).trans (quiet_assertEvent hn ..)
    · exact h1

theorem quiet_selectSheet (r : Nat) (m : Mach) : Quiet (strokeKey n) m (selectSheet stn r m) := by
  simp only [selectSheet]
  split
  · exact .refl m
  · split
    · exact .refl m
    · split
      · exact .refl m
      · exact ((quiet_setSheet _ _ m).trans (quiet_onVid _ _)).trans ((ripples_sheetAdvance (trip := False) ..).quiet hn)

theorem quiet_selectMark (m : Mach) : Quiet (strokeKey n) m (selectMark stn m) := by
  simp only [selectMark]
  split
  · exact .refl m
  · split
    · exact .refl m
    · split
      · exact .refl m
      · refine Quiet.trans ?_ (quiet_onVid _ _)
        refine Quiet.trans ?_ ((quiet_far hn (by decide) _ _).trans (quiet_far hn (by decide) _ _))
        exact ⟨rfl, rfl, fun _ => rfl, rfl⟩

theorem quiet_selectStroke (m : Mach) : Quiet (strokeKey n) m (selectStroke stn m) :=
  (quiet_each (quiet_selectSheet hn) _ m).trans (quiet_selectMark hn _)

omit hn in
theorem quiet_facetSet (v : Nat) (m : Mach) : Quiet (strokeKey n) m (m.set (R.CLK_TB_FACET stn) v) :=
  quiet_set (by simp only [strokeKey, R.CLK_TB_STROKE, R.CLK_TB_FACET]; omega) v m

theorem quiet_facetFault (m : Mach) : Quiet (strokeKey n) m (facetFault stn m) := by
  have cls (w : Nat) : clampN 1 3 w ≠ 4 := by
    rw [clampN]; split
    · omega
    · split <;> omega
  refine Quiet.trans ?_ (quiet_setIdok hn ..)
  rw [raiseNaming]
  split
  · exact quiet_raise hn (cls _) ..
  · exact quiet_raiseEach hn (cls _) ..

theorem quiet_facetAtBd (m : Mach) : Quiet (strokeKey n) m (facetAtBd stn m) := by
  unfold facetAtBd
  extract_lets f v next off v' zero m1 m2
  split
  · exact (quiet_facetSet _ m).trans (quiet_setVid _ _)
  · split
    · exact (quiet_facetSet _ m).trans (quiet_setVid _ _)
    · split
      · exact ((quiet_facetSet _ m).trans (quiet_setVid _ _)).trans (quiet_setIdok hn ..)
      · have h1 : Quiet (strokeKey n) m m1 := (quiet_facetSet _ m).trans (quiet_setVid (stn := stn) _ _)
        have h2 : Quiet (strokeKey n) m1 m2 :=
          (quiet_far hn (f := R.VID_STAT_FZMISS stn) (by simp only [R.VID_STAT_FZMISS]; omega) _ _).trans (quiet_note hn ..)
        exact (h1.trans h2).trans (quiet_when (quiet_facetFault hn) _)

theorem quiet_facetCount (m : Mach) : Quiet (strokeKey n) m (facetCount stn m) := by
  simp only [facetCount]
  split
  · exact quiet_facetAtBd hn m
  · exact (quiet_facetAtBd hn m).trans (quiet_onVid _ _)

omit hn in
theorem quiet_sigMeasure (m : Mach) : Quiet (strokeKey n) m (sigMeasure stn m) := by
  simp only [sigMeasure]
  split
  · exact .refl m
  · exact quiet_setVid _ m

theorem quiet_pixGate {k : Nat} (hk : 2 ≤ k) (hk' : k < 7) (m : Mach) : Quiet (strokeKey n) m (pixGate k m) := by
  have near (f : FRef) (h : f.key = (R.CLK_SYN_STAT_STATE k).key) (v : Nat) (m : Mach) : Quiet (strokeKey n) m (m.set f v) := by
    refine quiet_set ?_ v m
    have := strokeKey_lt hn
    rw [h]
    simp only [R.CLK_SYN_STAT_STATE]
    omega
  have syn (st : Nat) (m : Mach) : Quiet (strokeKey n) m (synTo k st m) := by
    have master : (k == 0) = false := by simp; omega
    unfold synTo
    rw [master]
    extract_lets m1 y y1 y2 m2
    have h1 : Quiet (strokeKey n) m m1 :=
      ((near (R.CLK_SYN_STAT_STATE k) rfl _ m).trans (near (R.CLK_SYN_STAT_LOCK k) rfl _ _)).trans
        ((near (R.CLK_SYN_STAT_COAST k) rfl _ _).trans (near (R.CLK_SYN_STAT_GATED k) rfl _ _))
    exact h1.trans ⟨rfl, rfl, fun _ => rfl, rfl⟩
  refine Quiet.trans ?_ (quiet_each (fun r m => quiet_raise hn (by decide) ..) _ _)
  exact (syn synGated m).trans (c := { synTo k synGated m with vid := _ }) ⟨rfl, rfl, fun _ => rfl, rfl⟩

theorem quiet_strokeCoast (hs : stn < 5) (gap : Bool) (m : Mach) : Quiet (strokeKey n) m (strokeCoast stn gap m) := by
  rw [strokeCoast]
  split
  · split
    · exact quiet_pixGate hn (by omega) (by omega) m
    · exact quiet_suspectSheets m
  · exact .refl m

omit hn in
theorem quiet_restamp (m : Mach) : Quiet (strokeKey n) m (restamp stn m) := by
  unfold restamp
  extract_lets x m1
  have h1 : Quiet (strokeKey n) m m1 := quiet_set (by simp only [strokeKey, R.CLK_TB_STROKE, R.CLK_TB_STRKTICK]; omega) _ m
  exact h1.trans (quiet_onVid _ _)

omit hn in
theorem quiet_withFrozen (b : Bool) (m : Mach) : Quiet (strokeKey n) m (withFrozen b m) := ⟨rfl, rfl, fun _ => rfl, rfl⟩

theorem quiet_snapTry (m : Mach) : Quiet (strokeKey n) m (snapTry m) := (ripples_snapTry (trip := False) m).quiet hn

theorem quiet_gapEffects (m : Mach) : Quiet (strokeKey n) m (gapEffects stn m) :=
  (quiet_assertEvent hn _ m).trans (quiet_gapRezero hn _)

end

/-! ## A boundary at which nothing is due -/

section
variable {n stn : Nat} {m : Mach}

theorem each_idle {α : Type} {f : α → Mach → Mach} {m : Mach} (h : ∀ a, f a m = m) (l : List α) : each l f m = m := by
  induction l with
  | nil => rfl
  | cons a l ih => exact (congrArg (each l f) (h a)).trans ih

/-- No commit waits: a boundary only tries the snapshots that have been held off. -/
theorem commitsAt_calm (calm : Calmly m) (p : Commit → Bool) : commitsAt p m = snapTry m := by
  have idle (l : List (Nat × Nat)) : each l (fun x m => if (m.ctx x.2).slot.map (·.seq) == some x.1 then applyCommit 0 x.2 m
      else m) (withFrozen true m) = withFrozen true m := by
    refine each_idle ?_ l
    intro x
    refine if_neg ?_
    rw [show ((withFrozen true m).ctx x.2).slot = none from calm.2 x.2]
    exact nofun
  rw [commitsAt, indivisible_eq, idle]
  rfl

theorem applyStation_idle (staged : m.pend = []) (cs : List Cls) : applyStation stn cs m = m := by
  rw [applyStation, staged]; rfl

/-- With nothing staged and no commit waiting, a boundary of a station puts nothing into effect. -/
theorem stationBoundary_calm (calm : Calmly m) (cs : List Cls) (due : Boundary → Bool) :
    stationBoundary stn cs due m = snapTry m := by
  have staged : (snapTry m).pend = [] := (ripples_snapTry (trip := False) m).pend.trans calm.1
  have clean : markDirty stn cs (snapTry m) = snapTry m := by
    rw [markDirty, staged]
    exact if_neg (by simp)
  have applied : applyAt stn cs (snapTry m) = snapTry m := by
    rw [applyAt, applyStation_idle staged]
    exact if_pos (by simp)
  rw [stationBoundary, commitsAt_calm calm, clean, applied]
  exact if_pos rfl

/-- The count of strokes goes on by one, and the rest of the counting leaves it alone. -/
theorem quiet_strokeCount (hs : stn < 5) (t : Tick) (p : Ppc) (m : Mach) :
    Quiet (strokeKey stn) (m.incWrap (R.CLK_TB_STROKE stn)) (strokeCount stn t p m) := by
  have line (v : Nat) (m : Mach) : Quiet (strokeKey stn) m (m.set (R.CLK_TB_LINE stn) v) :=
    quiet_set (by simp only [strokeKey, R.CLK_TB_STROKE, R.CLK_TB_LINE]; omega) v m
  have tick (v : Nat) (m : Mach) : Quiet (strokeKey stn) m (m.set (R.CLK_TB_STRKTICK stn) v) :=
    quiet_set (by simp only [strokeKey, R.CLK_TB_STROKE, R.CLK_TB_STRKTICK]; omega) v m
  have legs (m : Mach) : Quiet (strokeKey stn) m (advanceLegs stn m) := ⟨rfl, rfl, fun _ => rfl, rfl⟩
  unfold strokeCount
  extract_lets v ln m1 m2 adv m3 m4
  have h1 : Quiet (strokeKey stn) (m.incWrap (R.CLK_TB_STROKE stn)) m1 := line _ _
  have h4 : Quiet (strokeKey stn) m1 m4 := ((tick _ m1).trans (quiet_onVid _ _)).trans (legs _)
  clear_value adv
  cases adv with
  | some a =>
    exact (h1.trans h4).trans ((quiet_far hs (by simp only [R.VID_SPPC_ADV]; omega) _ _).trans (quiet_polyJudge hs ..))
  | none => exact h1.trans h4

/-- A stroke with nothing staged and no commit waiting. -/
theorem quiet_strokeRun (hs : stn < 5) (calm : Calmly m) (miss : Bool) (t : Tick) (p : Ppc) (mem : Mem) :
    Quiet (strokeKey stn) (m.incWrap (R.CLK_TB_STROKE stn)) (strokeRun stn miss t p mem m) := by
  have begun : Calmly (m.incWrap (R.CLK_TB_STROKE stn)) := calm
  unfold strokeRun
  extract_lets m1 gap m2 cs m3 m4 m5 dark m6
  have h2 : Quiet (strokeKey stn) (m.incWrap (R.CLK_TB_STROKE stn)) m2 :=
    ((quiet_strokeCount hs t p m).trans (quiet_selectStroke hs _)).trans (quiet_onVid (stn := stn) _ _)
  have h3 : Quiet (strokeKey stn) m2 m3 := by
    refine (?_ : m3 = snapTry m2) ▸ (ripples_snapTry (trip := False) m2).quiet hs
    exact stationBoundary_calm (h2.calmly begun) ..
  have h4 : Quiet (strokeKey stn) m3 m4 := (quiet_when (quiet_gapEffects hs) _).trans (quiet_when quiet_restamp _)
  have h5 : Quiet (strokeKey stn) m4 m5 := (quiet_strokeCoast hs hs ..).trans (quiet_liveFeather hs _)
  have h6 : Quiet (strokeKey stn) m5 m6 := (quiet_when (quiet_darkSheets hs) _).trans (quiet_exposeStroke hs ..)
  exact ((h2.trans h3).trans ((h4.trans h5).trans h6)).trans ((quiet_assertEvent hs ..).trans ⟨rfl, rfl, fun _ => rfl, rfl⟩)

/-- A stroke has been counted, and the power block stands. -/
structure Counted (stn : Nat) (m m' : Mach) : Prop where
  pwr : m'.pwr = m.pwr
  count : m'.get (R.CLK_TB_STROKE stn) = (m.get (R.CLK_TB_STROKE stn) + 1) % 2 ^ 32

theorem Quiet.get {m m' : Mach} (h : Quiet (strokeKey stn) m m') : m'.get (R.CLK_TB_STROKE stn) = m.get (R.CLK_TB_STROKE stn) :=
  get_of_word h.word

theorem Counted.after {a b c d : Mach} (h : Counted stn b c) (before : Quiet (strokeKey stn) a b)
    (behind : Quiet (strokeKey stn) c d) : Counted stn a d :=
  ⟨(behind.pwr.trans h.pwr).trans before.pwr, behind.get.trans (h.count.trans (by rw [before.get]))⟩

theorem counted_strokeRun (hs : stn < 5) (calm : Calmly m) (miss : Bool) (t : Tick) (p : Ppc) (mem : Mem) :
    Counted stn m (strokeRun stn miss t p mem m) :=
  ⟨(quiet_strokeRun hs calm miss t p mem).pwr,
    (quiet_strokeRun hs calm miss t p mem).get.trans (get_incWrap_index _ rfl rfl m)⟩

/-- A stroke that snapshots cannot divide, after a change of the machine that leaves its counts alone. -/
theorem counted_indivisible {pre : Mach → Mach} (hs : stn < 5) (calm : Calmly m) (quiet : ∀ m, Quiet (strokeKey stn) m (pre m))
    (miss : Bool) (t : Tick) (p : Ppc) (mem : Mem) :
    Counted stn m (indivisible (fun m => strokeRun stn miss t p mem (pre m)) m) := by
  have before : Quiet (strokeKey stn) m (pre (withFrozen true m)) := (quiet_withFrozen true m).trans (quiet _)
  rw [indivisible_eq]
  exact (counted_strokeRun hs (before.calmly calm) miss t p mem).after before
    ((quiet_withFrozen _ _).trans (quiet_snapTry hs _))

end

section
variable {stn : Nat} {s : State} {m : Mach} {t0 : Tick} {p0 : Ppc} {dt dp : Int}

/-! ## The three events -/

theorem exec_strokeStart (hs : stn < s.mach.nStn) : exec (.strokeStart stn) s = .next (settle (s.onMach (opStrokeStart stn s.mem))) :=
  onUnitS_of (by simpa [Mach.hasStn] using hs) _ s

theorem exec_bdMissing (hs : stn < s.mach.nStn) : exec (.bdMissing stn) s = .next (settle (s.onMach (opBdMissing stn s.mem))) :=
  onUnitS_of (by simpa [Mach.hasStn] using hs) _ s

theorem exec_lineStep (hs : stn < s.mach.nStn) : exec (.lineStep stn) s = .next (settle (s.onMach (opLineStep stn))) :=
  onUnitS_of (by simpa [Mach.hasStn] using hs) _ s

theorem settle_congr {f g : Mach → Mach} (h : f s.mach = g s.mach) :
    (.next (settle (s.onMach f)) : Host.Outcome State Fault Refusal) = .next (settle (s.onMach g)) := by
  rw [onMach_congr h]

/-- The machine at a BD edge. -/
def atEdge (stn : Nat) (m : Mach) : Mach := (sigMeasure stn m).onVid stn fun v => { v with bdAt := m.clk.tick }

/-- The machine at a forecast edge that has not come. -/
def atForecast (stn : Nat) (dt : Int) (m : Mach) : Mach :=
  m.onVid stn fun v => { v with bdAt := v.bdAt + BitVec.ofInt 64 dt, sigSums := [], sigCount := 0 }

/-- The stroke that a BD edge starts. -/
def edgeStroke (stn : Nat) (mem : Mem) (m : Mach) : Mach :=
  let n := atEdge stn m
  let x := startStamps stn n
  indivisible (fun m => strokeRun stn false x.1 x.2 mem (facetCount stn m)) n

/-- The stroke that counts as started at the forecast. -/
def forecastStroke (stn : Nat) (t0 : Tick) (p0 : Ppc) (dt dp : Int) (mem : Mem) (m : Mach) : Mach :=
  indivisible (fun m => strokeRun stn true (t0 + BitVec.ofInt 64 dt) (ppcAdd p0 dp) mem (polyUnlock stn (facetForecast stn m)))
    (atForecast stn dt m)

theorem opStrokeStart_eq (en : m.on (R.VID_CTL_EN stn) = true) (mem : Mem) : opStrokeStart stn mem m = edgeStroke stn mem m :=
  if_pos en

theorem opBdMissing_eq (en : m.on (R.VID_CTL_EN stn) = true) (stamps : stampsOf m stn = some (t0, p0, dt, dp))
    (late : 3 * dt ≤ 2 * ((m.now : Int) - (m.vidOf stn).bdAt.toNat)) (mem : Mem) :
    opBdMissing stn mem m = forecastStroke stn t0 p0 dt dp mem m := by
  rw [opBdMissing, en, stamps]
  exact if_pos late

theorem opLineStep_eq (en : m.on (R.VID_CTL_EN stn) = true) (stamps : stampsOf m stn = some (t0, p0, dt, dp))
    (room : (BitVec.ofNat 32 (m.get (R.CLK_TB_LINE stn)) - (m.vidOf stn).line0).toNat + 1 < advLines m stn)
    (due : ((BitVec.ofNat 32 (m.get (R.CLK_TB_LINE stn)) - (m.vidOf stn).line0).toNat + 1 : Nat) * dt ≤
      ((m.now : Int) - t0.toNat) * advLines m stn) :
    opLineStep stn m = stationBoundary stn [.line] (fun b => b == .line stn) (m.incWrap (R.CLK_TB_LINE stn)) := by
  rw [opLineStep, en, stamps]
  exact if_pos (by simp only [room, due, decide_true, Bool.and_self])

theorem counted_edgeStroke (hs : stn < 5) (calm : Calmly m) (mem : Mem) : Counted stn m (edgeStroke stn mem m) := by
  have edge : Quiet (strokeKey stn) m (atEdge stn m) := (quiet_sigMeasure m).trans (quiet_onVid _ _)
  exact (counted_indivisible hs (edge.calmly calm) (quiet_facetCount hs) ..).after edge (.refl _)

theorem counted_forecastStroke (hs : stn < 5) (calm : Calmly m) (mem : Mem) :
    Counted stn m (forecastStroke stn t0 p0 dt dp mem m) := by
  have edge : Quiet (strokeKey stn) m (atForecast stn dt m) := quiet_onVid _ _
  exact (counted_indivisible (pre := fun m => polyUnlock stn (facetForecast stn m)) hs (edge.calmly calm)
    (fun m => (quiet_facetSet _ m).trans (quiet_polyUnlock hs _)) ..).after edge (.refl _)

/-- A run of a stroke in a state where no restart is due leaves its machine and the memories. -/
theorem Counted.settled {f : Mach → Mach} (h : Counted stn s.mach (f s.mach)) (calm : s.mach.pwr.restart = false) :
    settle (s.onMach f) = s.onMach f := settle_of_no_restart ((congrArg Power.restart h.pwr).trans calm)

theorem calmly_of_empty (pend : m.pend = []) (ctxs : m.cox.ctxs = []) : Calmly m := by
  refine ⟨pend, fun i => ?_⟩
  rw [Mach.ctx, ctxs]
  rfl

/-- A line step with nothing staged and no commit waiting. -/
theorem lineStep_calm (calm : Calmly m) :
    stationBoundary stn [.line] (fun b => b == .line stn) (m.incWrap (R.CLK_TB_LINE stn)) =
      snapTry (m.incWrap (R.CLK_TB_LINE stn)) := stationBoundary_calm (m := m.incWrap (R.CLK_TB_LINE stn)) calm ..

/-! ## The counts -/

theorem strokeCount_first (t : Tick) (p : Ppc) (first : (m.vidOf stn).stamps = []) :
    strokeCount stn t p m = advanceLegs stn ((((m.incWrap (R.CLK_TB_STROKE stn)).set (R.CLK_TB_LINE stn)
      ((m.vidOf stn).line0 + BitVec.ofNat 32 (advLines m stn)).toNat).set (R.CLK_TB_STRKTICK stn) t.toNat).onVid stn fun v =>
        { v with
          line0 := (m.vidOf stn).line0 + BitVec.ofNat 32 (advLines m stn), stamps := (t, p) :: v.stamps.take 1,
          recent := v.recent.map fun r => { r with stroke := r.stroke + 1 } }) := by
  unfold strokeCount
  extract_lets v line m1 m2 adv m3 m4
  have none_ : adv = none := by simp only [adv, v, first]
  rw [none_]

/-- What the first stroke of a station leaves. -/
theorem strokeCount_leaves (t : Tick) (p : Ppc) (first : (m.vidOf stn).stamps = []) :
    (strokeCount stn t p m).get (R.CLK_TB_STROKE stn) = (m.get (R.CLK_TB_STROKE stn) + 1) % 2 ^ 32 ∧
    (strokeCount stn t p m).get (R.CLK_TB_LINE stn) = ((m.vidOf stn).line0.toNat + advLines m stn) % 2 ^ 32 ∧
    (strokeCount stn t p m).get (R.CLK_TB_STRKTICK stn) = t.toNat % 2 ^ 32 ∧
    ((strokeCount stn t p m).vidOf stn).stamps = [(t, p)] ∧
    ((strokeCount stn t p m).vidOf stn).line0.toNat = (strokeCount stn t p m).get (R.CLK_TB_LINE stn) := by
  rw [strokeCount_first t p first]
  have regs (f : FRef) (v : Vid → Vid) (m : Mach) : (advanceLegs stn (m.onVid stn v)).get f = m.get f := rfl
  have vid (v : Vid → Vid) (m : Mach) : (advanceLegs stn (m.onVid stn v)).vidOf stn = v (m.vidOf stn) := vidOf_onVid_same ..
  have line : ((m.vidOf stn).line0 + BitVec.ofNat 32 (advLines m stn)).toNat =
      ((m.vidOf stn).line0.toNat + advLines m stn) % 2 ^ 32 := by
    rw [BitVec.toNat_add, BitVec.toNat_ofNat, Nat.add_mod_mod]
  have lines : (((m.incWrap (R.CLK_TB_STROKE stn)).set (R.CLK_TB_LINE stn)
      ((m.vidOf stn).line0 + BitVec.ofNat 32 (advLines m stn)).toNat).set (R.CLK_TB_STRKTICK stn) t.toNat).get
        (R.CLK_TB_LINE stn) = ((m.vidOf stn).line0.toNat + advLines m stn) % 2 ^ 32 := by
    rw [Mach.get_set_ne _ (by simp only [R.CLK_TB_LINE, R.CLK_TB_STRKTICK]; omega), line]
    exact Mach.get_set_fits _ (Nat.lt_succ_self 31) (Nat.zero_le _) (Nat.mod_lt _ (by decide))
  simp only [regs, vid]
  refine ⟨?_, lines, ?_, ?_, line.trans lines.symm⟩
  · rw [Mach.get_set_ne _ (by simp only [R.CLK_TB_STROKE, R.CLK_TB_STRKTICK]; omega),
      Mach.get_set_ne _ (by simp only [R.CLK_TB_STROKE, R.CLK_TB_LINE]; omega)]
    exact get_incWrap_index _ rfl rfl m
  · exact Mach.get_set_same _ _ _ (Nat.lt_succ_self 31) (Nat.zero_le _)
  · show (t, p) :: (m.vidOf stn).stamps.take 1 = _
    rw [first]
    rfl

theorem facetAtBd_counts (counted : (m.vidOf stn).fzPend = false) :
    (facetAtBd stn m).get (R.CLK_TB_FACET stn) = (m.get (R.CLK_TB_FACET stn) + 1) % facetsOf m stn := by
  obtain ⟨least, most⟩ := facetsOf_le m stn
  have fits : (m.get (R.CLK_TB_FACET stn) + 1) % facetsOf m stn < 16 := by
    have := Nat.mod_lt (m.get (R.CLK_TB_FACET stn) + 1) least
    omega
  rw [facetAtBd, counted]
  exact Mach.get_set_fits m (f := R.CLK_TB_FACET stn) (by decide : 3 < 32) (Nat.zero_le 3) fits

theorem facetAtBd_first (pend : (m.vidOf stn).fzPend = true) (have_ : (m.vidOf stn).fzHave = false) :
    (facetAtBd stn m).get (R.CLK_TB_FACET stn) = 0 ∧
      (facetAtBd stn m).on (R.VID_STAT_IDOK stn) = m.on (R.VID_STAT_IDOK stn) := by
  rw [facetAtBd, pend, have_]
  exact ⟨Mach.get_set_fits m (f := R.CLK_TB_FACET stn) (by decide : 3 < 32) (Nat.zero_le 3) (Nat.two_pow_pos _),
    Mach.on_set_ne m (f := R.CLK_TB_FACET stn) (by simp only [R.CLK_TB_FACET, R.VID_STAT_IDOK]; omega) 0⟩

end

/-- Settles O39: nothing in a stroke but its own count writes STROKEs, and nothing due leaves a boundary without effect. -/
theorem strokesCount : Obligations.StrokesCount := by
  intro stn t p s hs
  have hn : stn < 5 := Nat.lt_of_lt_of_le hs (nStn_le _)
  have line_still : ¬rippleKey (R.CLK_TB_LINE stn).key := by
    simp only [rippleKey, R.CLK_TB_LINE, List.mem_cons, List.not_mem_nil, or_false]; omega
  refine ⟨fun en => ⟨?_, fun calm => ?_, fun t0 p0 dt dp stamps late => ⟨?_, fun calm => ?_⟩,
    fun t0 p0 dt dp stamps => ?_⟩, strokeCount_leaves t p, facetAtBd_counts, facetAtBd_first⟩
  · exact (exec_strokeStart hs).trans (settle_congr (g := edgeStroke stn s.mem) (opStrokeStart_eq en s.mem))
  · obtain ⟨pend, ctxs, restart⟩ := calm
    have ran : Counted stn s.mach (opStrokeStart stn s.mem s.mach) := by
      rw [opStrokeStart_eq en]
      exact counted_edgeStroke hn (calmly_of_empty pend ctxs) s.mem
    refine ⟨_, exec_strokeStart hs, ?_⟩
    rw [ran.settled restart]
    exact ⟨ran.count, rfl⟩
  · exact (exec_bdMissing hs).trans (settle_congr (g := forecastStroke stn t0 p0 dt dp s.mem)
      (opBdMissing_eq en stamps late s.mem))
  · obtain ⟨pend, ctxs, restart⟩ := calm
    have ran : Counted stn s.mach (opBdMissing stn s.mem s.mach) := by
      rw [opBdMissing_eq en stamps late]
      exact counted_forecastStroke hn (calmly_of_empty pend ctxs) s.mem
    refine ⟨_, exec_bdMissing hs, ?_⟩
    rw [ran.settled restart]
    exact ⟨ran.count, rfl⟩
  · intro j room due
    have steps := opLineStep_eq en stamps room due
    refine ⟨(exec_lineStep hs).trans (settle_congr
      (g := fun m => stationBoundary stn [.line] (fun b => b == .line stn) (m.incWrap (R.CLK_TB_LINE stn))) steps),
      fun calm => ?_⟩
    obtain ⟨pend, ctxs, restart⟩ := calm
    rw [lineStep_calm (calmly_of_empty pend ctxs)] at steps
    have ripples := ripples_snapTry (trip := False) (s.mach.incWrap (R.CLK_TB_LINE stn))
    have still : (s.onMach (opLineStep stn)).mach.pwr.restart = false := by
      rw [State.onMach_mach, steps]
      exact (congrArg Power.restart ripples.pwr).trans restart
    refine ⟨_, exec_lineStep hs, ?_⟩
    rw [settle_of_no_restart still, State.onMach_mach, steps]
    exact ⟨(ripples.get' line_still).trans (get_incWrap_index _ rfl rfl _), snapTry_sheets _, rfl⟩

end Sys2Proof.Machine
end

section
/-! PROOFS. O42: triggers, syncs and enables of Scull slots (R194, R198, R203, R212, R214). -/

namespace Sys2Proof.Machine

section
variable {n : Nat} {m : Mach} {w : Word}

/-! ## Triggers -/

theorem exec_slotTrigger {s : State} (hn : n < 96) : exec (.slotTrigger n) s = .next (settle (s.onMach (opSlotTrigger n))) :=
  onUnitS_of (decide_eq_true hn) _ s

theorem exec_slotInputsRead {s : State} (hn : n < 96) : exec (.slotInputsRead n) s = .next (s.onMach (opSlotInputsRead n)) :=
  onUnit_of (decide_eq_true hn) _ s

theorem exec_rcSyncEvent {s : State} (hn : n < 96) : exec (.rcSyncEvent n) s = .next (s.onMach (opRcSyncEvent n)) :=
  onUnit_of (decide_eq_true hn) _ s

/-- The machine after a trigger's sync event and sample boundary. -/
def atTrigger (n : Nat) (m : Mach) : Mach :=
  let synced := opRcSyncEvent n { m with scl := { m.scl with trigDue := m.scl.trigDue.erase n } }
  if groupRunning n synced then { synced with scl := { synced.scl with bounds := synced.scl.bounds ++ [n] } }
  else sampleBoundary n synced

/-- The slot has no room for a trigger: one came within 1000 ticks, its inputs are being read, or it is pending or runs. -/
def slotBusy (n : Nat) (a c : Mach) : Bool :=
  (match (a.sclSlot n).last with | some t => decide (a.now < t.toNat + 1000) | none => false) || (a.sclSlot n).reading
    || c.on (R.SCL_SLOT_STAT_PEND n) || c.on (R.SCL_SLOT_STAT_RUNNING n)

theorem opSlotTrigger_eq (due : m.scl.trigDue.contains n = true) (en : m.on (R.SCL_SLOT_CTL_EN n) = true)
    (on : m.on R.SCL_CTL_EN = true) : opSlotTrigger n m =
      if slotShed n (triggerCounts n (atTrigger n m)) then triggerCounts n (atTrigger n m)
      else if slotBusy n (atTrigger n m) (triggerCounts n (atTrigger n m)) then slotMiss n (triggerCounts n (atTrigger n m))
      else (triggerCounts n (atTrigger n m)).onSlot n fun x =>
        { x with
          reading := true, idx := (atTrigger n m).get (R.SCL_SLOT_RCSTAT_IDX n)
          held := 0 < ((atTrigger n m).sclSlot n).hold } := by
  have enabled : (Mach.on { m with scl := { m.scl with trigDue := m.scl.trigDue.erase n } } (R.SCL_SLOT_CTL_EN n) &&
      Mach.on { m with scl := { m.scl with trigDue := m.scl.trigDue.erase n } } R.SCL_CTL_EN) = true :=
    Bool.and_eq_true_iff.2 ⟨en, on⟩
  unfold opSlotTrigger
  rw [due]
  simp only [enabled]
  rfl

theorem triggerCounts_tick : (triggerCounts n m).get (R.SCL_SLOT_TRTICK_TICK n) = m.now % 2 ^ 32 := by
  have tick : (m.set (R.SCL_SLOT_TRTICK_TICK n) m.now).get (R.SCL_SLOT_TRTICK_TICK n) = m.now % 2 ^ 32 :=
    Mach.get_set_same _ _ _ (Nat.lt_succ_self 31) (Nat.zero_le _)
  show (when _ _ _).get _ = _
  rw [when]
  split
  · rw [Mach.get_set_ne _ (by simp only [R.SCL_SLOT_TRTICK_TICK, R.SCL_SLOT_RCSTAT_IDX]; omega)]
    exact tick
  · exact tick

theorem get_idx_trtick (v : Nat) : (m.set (R.SCL_SLOT_TRTICK_TICK n) v).get (R.SCL_SLOT_RCSTAT_IDX n) = m.get (R.SCL_SLOT_RCSTAT_IDX n) :=
  Mach.get_set_ne _ (by simp only [R.SCL_SLOT_TRTICK_TICK, R.SCL_SLOT_RCSTAT_IDX]; omega) _

theorem triggerCounts_idx (some_ : 0 < m.get (R.SCL_SLOT_RCA_LEN n)) (most : m.get (R.SCL_SLOT_RCA_LEN n) ≤ 2 ^ 14) :
    (triggerCounts n m).get (R.SCL_SLOT_RCSTAT_IDX n) =
      (m.get (R.SCL_SLOT_RCSTAT_IDX n) + 1) % m.get (R.SCL_SLOT_RCA_LEN n) := by
  have fits := Nat.mod_lt (m.get (R.SCL_SLOT_RCSTAT_IDX n) + 1) some_
  show (when _ _ _).get _ = _
  rw [when, if_pos (decide_eq_true some_), get_idx_trtick]
  exact Mach.get_set_fits _ (f := R.SCL_SLOT_RCSTAT_IDX n) (by decide : 13 < 32) (Nat.zero_le 13) (Nat.lt_of_lt_of_le fits most)

theorem triggerCounts_noMemory (none_ : m.get (R.SCL_SLOT_RCA_LEN n) = 0) :
    (triggerCounts n m).get (R.SCL_SLOT_RCSTAT_IDX n) = m.get (R.SCL_SLOT_RCSTAT_IDX n) := by
  show (when _ _ _).get _ = _
  rw [when, if_neg (by simp [none_])]
  exact get_idx_trtick _

/-! ## Inputs -/

theorem opSlotInputsRead_held (h : m.scl.bounds.contains n = true) : opSlotInputsRead n m = m :=
  if_pos (by rw [h, Bool.or_true])

theorem opSlotInputsRead_eq (reading : (m.sclSlot n).reading = true) (free : m.scl.bounds.contains n = false) :
    opSlotInputsRead n m =
      (let r := (List.range (m.get (R.SCL_SLOT_BUD_NIN n))).foldl (inputRead n) (m.onSlot n fun x => { x with reading := false }, true)
       if r.2 = false then slotMiss n r.1 else if slotShed n r.1 then r.1 else r.1.set (R.SCL_SLOT_STAT_PEND n) 1) := by
  rw [opSlotInputsRead, reading, free]
  simp only [Bool.not_true, Bool.or_false, Bool.false_eq_true, if_false, Bool.not_eq_true']
  rfl

theorem opSlotInputsRead_none (reading : (m.sclSlot n).reading = true) (free : m.scl.bounds.contains n = false)
    (none_ : m.get (R.SCL_SLOT_BUD_NIN n) = 0) (kept : slotShed n m = false) :
    opSlotInputsRead n m = (m.onSlot n fun x => { x with reading := false }).set (R.SCL_SLOT_STAT_PEND n) 1 := by
  rw [opSlotInputsRead_eq reading free, none_]
  exact (if_neg Bool.noConfusion).trans (if_neg (Bool.eq_false_iff.1 kept))

/-! ## Syncs -/

/-- How far the index stands from its sync. -/
def syncOff (n : Nat) (m : Mach) : Nat :=
  if m.get (R.SCL_SLOT_RCA_LEN n) < 2 * m.get (R.SCL_SLOT_RCSTAT_IDX n) then
    m.get (R.SCL_SLOT_RCA_LEN n) - m.get (R.SCL_SLOT_RCSTAT_IDX n)
  else m.get (R.SCL_SLOT_RCSTAT_IDX n)

/-- The index is back at 0 and the sync line served. -/
def syncDone (n : Nat) (m : Mach) : Mach :=
  Mach.set { m with scl := { m.scl with syncDue := m.scl.syncDue.erase n } } (R.SCL_SLOT_RCSTAT_IDX n) 0

/-- A sync that came too far off begins a hold of LEN triggers. -/
def syncHeld (n : Nat) (m : Mach) : Mach :=
  ((syncDone n m).onSlot n fun s => { s with hold := m.get (R.SCL_SLOT_RCA_LEN n) }).incSat (R.SCL_SLOT_RCSTAT_SYNCERR n)

theorem rcSync_eq (len : 0 < m.get (R.SCL_SLOT_RCA_LEN n)) (off : m.get (R.SCL_SLOT_RCSTAT_IDX n) ≠ 0) : rcSync n m =
    if syncOff n m ≤ m.get (R.SCL_SLOT_RCB_SYNCTOL n) then syncDone n m
    else assertEvent 0x0E3 (note (slotSrc n) 0x04 n (syncHeld n m)) := by
  have tol : (syncDone n m).get (R.SCL_SLOT_RCB_SYNCTOL n) = m.get (R.SCL_SLOT_RCB_SYNCTOL n) :=
    Mach.get_set_ne _ (by simp only [R.SCL_SLOT_RCB_SYNCTOL, R.SCL_SLOT_RCSTAT_IDX]; omega) _
  have live : (m.get (R.SCL_SLOT_RCA_LEN n) == 0 || m.get (R.SCL_SLOT_RCSTAT_IDX n) == 0) = false := by
    simp; omega
  rw [← tol]
  unfold rcSync
  simp only [live]
  rfl

theorem syncDone_idx : (syncDone n m).get (R.SCL_SLOT_RCSTAT_IDX n) = 0 :=
  Mach.get_set_fits _ (f := R.SCL_SLOT_RCSTAT_IDX n) (by decide : 13 < 32) (Nat.zero_le 13) (Nat.two_pow_pos _)

theorem syncHeld_idx : (syncHeld n m).get (R.SCL_SLOT_RCSTAT_IDX n) = 0 :=
  (Mach.get_set_bits (f := R.SCL_SLOT_RCSTAT_SYNCERR n) (g := R.SCL_SLOT_RCSTAT_IDX n) rfl _ _).trans syncDone_idx

theorem syncHeld_hold : ((syncHeld n m).sclSlot n).hold = m.get (R.SCL_SLOT_RCA_LEN n) :=
  congrArg SclSlot.hold (tget_tput_same ..)

/-- The report of a sync that came too far off. -/
theorem ripples_syncReport (n : Nat) (m : Mach) : Ripples False m (assertEvent 0x0E3 (note (slotSrc n) 0x04 n m)) :=
  (ripples_note ..).trans (ripples_assertEvent ..)

theorem rcstat_still (n : Nat) : ¬rippleKey (R.SCL_SLOT_RCSTAT_IDX n).key := by
  simp only [rippleKey, R.SCL_SLOT_RCSTAT_IDX, List.mem_cons, List.not_mem_nil, or_false]; omega

/-! ## Enables -/

theorem hasField_slotCtl (hn : n < 96) : hasField (R.SCL_SLOT_CTL_EN n) = true ∧ hasField (R.SCL_SLOT_CTL_PSTART n) = true := by
  have all : ∀ n < 96, hasField (R.SCL_SLOT_CTL_EN n) = true ∧ hasField (R.SCL_SLOT_CTL_PSTART n) = true := by decide +kernel
  exact all n hn

theorem slotCtl_key (hn : n < 96) : (R.SCL_SLOT_CTL_EN n).key / 65536 = 0x0E ∧ (R.SCL_SLOT_CTL_EN n).key % 65536 = 0x400 + 0x40 * n := by
  simp only [R.SCL_SLOT_CTL_EN]; omega

theorem fldAcc_slotCtl (hn : n < 96) (g : Fld) (m : Mach) : fldAcc (R.SCL_SLOT_CTL_EN n).key g m = g.acc :=
  fldAcc_plain (by rw [(slotCtl_key hn).1]; rfl) g m

theorem govOn_slotCtl (hn : n < 96) : govOn (R.SCL_SLOT_CTL_EN n).key m = m.on (R.SCL_SLOT_CTL_EN n) := by
  obtain ⟨block, low⟩ := slotCtl_key hn
  have here : (decide (0x400 ≤ 0x400 + 0x40 * n) && decide (0x400 + 0x40 * n < 0x1C00)) = true := by simp; omega
  have index : (0x400 + 0x40 * n - 0x400) / 0x40 = n := by omega
  simp only [govOn, block, low, here, if_true, index]

theorem withBits_en (w : Word) : (R.SCL_SLOT_CTL_EN n).of (withBits w 0 0 1) = 1 :=
  bitsOf_withBits_same w 1 (by decide) (by decide)

theorem slotCtlWrite_refused (en : (R.SCL_SLOT_CTL_EN n).of w = 1) (off : m.on (R.SCL_SLOT_CTL_EN n) = false)
    (unsound : slotSound n m = false) : slotCtlWrite n w m = note (slotSrc n) 0x06 n m := by
  simp only [slotCtlWrite, en, off, unsound]
  rfl

theorem slotCtlWrite_enables (en : (R.SCL_SLOT_CTL_EN n).of w = 1) (off : m.on (R.SCL_SLOT_CTL_EN n) = false)
    (sound : slotSound n m = true) : slotCtlWrite n w m =
      handOver n (m.get (R.SCL_SLOT_CTL_MODE n)) (storeFields (R.SCL_SLOT_CTL_EN n).key w m) := by
  simp only [slotCtlWrite, en, off, sound]
  rfl

theorem handOver_get {f : FRef} (h : f.key ≠ (R.SCL_SLOT_STAT_HOV n).key) (was : Nat) : (handOver n was m).get f = m.get f := by
  unfold handOver
  extract_lets mode act m1 m2
  have blend : m2.get f = m.get f := Mach.get_set_ne m1 (f := R.SCL_SLOT_STAT_BLENDING n) h _
  split
  · rfl
  · rw [when]
    split
    · exact (Mach.get_set_ne _ h _).trans blend
    · exact blend

@[simp] theorem handOver_sheets (was : Nat) : (handOver n was m).sheets = m.sheets := by
  unfold handOver
  extract_lets mode act m1 m2
  split
  · rfl
  · rw [when]
    split <;> rfl

end

/-- Settles O42: each clause is the command's own branch; the reports of a sync leave the slot's index and hold alone. -/
theorem slotTriggers : Obligations.SlotTriggers := by
  intro q n v s okq hn
  refine ⟨fun due en on => ⟨fun shed => ?_, fun kept free => ?_, fun kept busy => ?_⟩,
    ⟨triggerCounts_tick, triggerCounts_idx, triggerCounts_noMemory⟩, fun _ held => ?_, fun reading free none_ kept => ?_,
    fun reading free => ?_, fun due len off => ?_, fun lets off => ⟨fun sound pend => ?_, fun unsound => ?_⟩⟩
  · refine (exec_slotTrigger hn).trans (settle_congr (g := fun _ => triggerCounts n (atTrigger n s.mach)) ?_)
    exact (opSlotTrigger_eq due en on).trans (if_pos shed)
  · refine (exec_slotTrigger hn).trans (settle_congr (g := fun _ => (triggerCounts n (atTrigger n s.mach)).onSlot n fun x =>
      { x with
        reading := true, idx := (atTrigger n s.mach).get (R.SCL_SLOT_RCSTAT_IDX n)
        held := 0 < ((atTrigger n s.mach).sclSlot n).hold }) ?_)
    exact (opSlotTrigger_eq due en on).trans ((if_neg (Bool.eq_false_iff.1 kept)).trans (if_neg (Bool.eq_false_iff.1 free)))
  · refine (exec_slotTrigger hn).trans (settle_congr (g := fun _ => slotMiss n (triggerCounts n (atTrigger n s.mach))) ?_)
    exact (opSlotTrigger_eq due en on).trans ((if_neg (Bool.eq_false_iff.1 kept)).trans (if_pos busy))
  · exact acts_to (exec_slotInputsRead hn) (opSlotInputsRead_held held)
  · refine ⟨_, acts_to (exec_slotInputsRead hn) (opSlotInputsRead_none reading free none_ kept), ?_, ?_, rfl, rfl⟩
    · exact Mach.on_set_flag (f := R.SCL_SLOT_STAT_PEND n) rfl rfl true _
    · exact congrArg SclSlot.reading (tget_tput_same ..)
  · exact (exec_slotInputsRead hn).trans (congrArg _ (onMach_congr (opSlotInputsRead_eq reading free)))
  · have synced : opRcSyncEvent n s.mach = _ := (if_pos due).trans (rcSync_eq len off)
    have report := ripples_syncReport n (syncHeld n s.mach)
    refine ⟨_, exec_rcSyncEvent hn, ?_⟩
    rw [State.onMach_mach, synced]
    split
    · next near =>
      exact ⟨syncDone_idx, rfl, rfl, fun _ => ⟨rfl, rfl⟩, fun far => absurd near (Nat.not_le.2 far)⟩
    · next far =>
      refine ⟨(report.get' (rcstat_still n)).trans syncHeld_idx, ?_, rfl, fun near => absurd near far, fun _ => ?_⟩
      · rw [assertEvent_sheets, note_sheets]
        rfl
      · have slots := congrArg Scl.slots report.scl
        rw [Mach.sclSlot, slots]
        exact syncHeld_hold
  · have gov := (govOn_slotCtl hn).trans off
    obtain ⟨hasEn, hasStart⟩ := hasField_slotCtl hn
    have other {g : FRef} (key : g.key = (R.SCL_SLOT_CTL_EN n).key) : g.key ≠ (R.SCL_SLOT_STAT_HOV n).key := by
      rw [key]; simp only [R.SCL_SLOT_CTL_EN, R.SCL_SLOT_STAT_HOV]; omega
    have stored {g : FRef} (key : g.key = (R.SCL_SLOT_CTL_EN n).key) (has : hasField g = true) (w : Word) (was : Nat) :
        (handOver n was (storeFields (R.SCL_SLOT_CTL_EN n).key w s.mach)).get g = g.of w := by
      rw [handOver_get (other key), ← key]
      exact get_storeFields_idle has (key ▸ fldAcc_slotCtl hn) (key ▸ gov) pend
    have run : exec (.slotEnable q n v) s = .next (s.onMach (slotCtlWrite n (withBits v 0 0 1))) :=
      acts_guarded (onUnit_of (by simp [okq, hn]) (opSlotEnable q n v) s) lets
    refine ⟨_, acts_to run (slotCtlWrite_enables (withBits_en v) off sound), ?_, ?_, ?_, rfl⟩
    · rw [Mach.on, stored rfl hasEn, withBits_en]; rfl
    · rw [stored (g := R.SCL_SLOT_CTL_PSTART n) rfl hasStart]
      exact bitsOf_withBits_above v 1 (by decide) (by decide) (Nat.succ_pos 15)
    · rw [handOver_sheets]
      rcases storeFields_idle_eq (w := withBits v 0 0 1) gov pend with e | ⟨x, e⟩
      · rw [e]
      · rw [e]; rfl
  · exact (acts_guarded (onUnit_of (by simp [okq, hn]) (opSlotEnable q n v) s) lets).trans
      (congrArg _ (onMach_congr (slotCtlWrite_refused (withBits_en v) off unsound)))

end Sys2Proof.Machine
end

section
/-! PROOFS. O43: the engine's choice of a slot, and how a run ends (R195-R197, R202, R213). A microprogram writes X words,
the repetitive-controller memory and its slot's RCSTAT, and reports with notes. -/

namespace Sys2Proof.Machine

/-! ## What a microprogram leaves alone -/

/-- Registers of the engine below the X files, besides the slots' RCSTAT. -/
def engineKey (key : Nat) : Prop := 0x0E0000 ≤ key ∧ key < 0x0E2C00 ∧ key % 64 ≠ 48

/-- The engine's other registers, the ledger, the power block and what waits for the run's end stay. -/
structure MicroKeeps (m m' : Mach) : Prop where
  word : ∀ key, engineKey key → m'.word key = m.word key
  sheets : m'.sheets = m.sheets
  heldEdges : m'.heldEdges = m.heldEdges
  pwr : m'.pwr = m.pwr
  bounds : m'.scl.bounds = m.scl.bounds
  waiting : m'.scl.waiting = m.scl.waiting

section
variable {m m' : Mach} {n : Nat}

theorem MicroKeeps.refl (m : Mach) : MicroKeeps m m := ⟨fun _ _ => rfl, rfl, rfl, rfl, rfl, rfl⟩

theorem MicroKeeps.trans {a b c : Mach} (h : MicroKeeps a b) (g : MicroKeeps b c) : MicroKeeps a c :=
  ⟨fun key hk => (g.word key hk).trans (h.word key hk), g.sheets.trans h.sheets, g.heldEdges.trans h.heldEdges,
    g.pwr.trans h.pwr, g.bounds.trans h.bounds, g.waiting.trans h.waiting⟩

theorem microKeeps_setWord {k : Nat} (h : ¬engineKey k) (w : Word) (m : Mach) : MicroKeeps m (m.setWord k w) :=
  ⟨fun key hk => Mach.word_setWord_ne m (fun e : key = k => h (e ▸ hk)) w, rfl, rfl, rfl, rfl, rfl⟩

theorem microKeeps_xPut (g i : Nat) (v : Int) (m : Mach) : MicroKeeps m (xPut g i v m) :=
  microKeeps_setWord (by simp only [engineKey, R.SCL_XFILE]; omega) _ m

theorem microKeeps_rcSet (i : Nat) (v : Int) (m : Mach) : MicroKeeps m (rcSet i v m) := ⟨fun _ _ => rfl, rfl, rfl, rfl, rfl, rfl⟩

theorem microKeeps_onSlot (f : SclSlot → SclSlot) (m : Mach) : MicroKeeps m (m.onSlot n f) :=
  ⟨fun _ _ => rfl, rfl, rfl, rfl, rfl, rfl⟩

theorem microKeeps_note (src kind param : Nat) (m : Mach) : MicroKeeps m (note src kind param m) := by
  have ripples := ripples_note src kind param m
  refine ⟨fun key hk => (calm_note src kind param m).word key ?_, note_sheets .., note_heldEdges .., ripples.pwr,
    (congrArg Scl.bounds ripples.scl :), (congrArg Scl.waiting ripples.scl :)⟩
  obtain ⟨above, -, -⟩ := hk
  simp only [quietKey]
  omega

theorem SclCpu.microKeeps_rcup (c : SclCpu) (p : Nat) : MicroKeeps c.m (c.rcup p).m := by
  have count (m : Mach) : MicroKeeps m (m.incSat (R.SCL_SLOT_RCSTAT_RCSAT c.n)) :=
    microKeeps_setWord (by simp only [engineKey, R.SCL_SLOT_RCSTAT_RCSAT]; omega) _ m
  unfold SclCpu.rcup
  extract_lets n m i forget v m1 m2 due
  have h1 : MicroKeeps c.m m1 := microKeeps_rcSet _ _ _
  have h2 : MicroKeeps c.m m2 := h1.trans (count m1)
  split
  · exact .refl _
  · split
    · exact h1
    · split
      · exact h2.trans ((microKeeps_onSlot (n := n) _ _).trans (microKeeps_note ..))
      · exact h2

/-- Every microinstruction writes accumulators or X words alone, but for RCUP. -/
theorem SclCpu.microKeeps_exec (c : SclCpu) (i : Micro) : MicroKeeps c.m (c.exec i).m := by
  cases i with
  | str a p => exact microKeeps_xPut ..
  | stl a p => exact (microKeeps_xPut ..).trans (microKeeps_xPut ..)
  | mov p q => exact microKeeps_xPut ..
  | rcup p => exact c.microKeeps_rcup p
  | pre a k =>
    simp only [SclCpu.exec]
    split <;> exact .refl _
  | clr | lda | ldl | add | sub | mpy | mac | msu | adda | suba | shr | shl | lim | abs | neg | tbl | rcld | end_ | skp | nop =>
    exact .refl _

/-- So does a whole run. -/
theorem SclCpu.microKeeps_run (fuel : Nat) : ∀ (pc used : Nat) (c : SclCpu), MicroKeeps c.m (SclCpu.run fuel pc used c).2.2.m := by
  induction fuel with
  | zero => exact fun pc used c => .refl _
  | succ fuel ih =>
    intro pc used c
    rw [SclCpu.run]
    extract_lets used'
    split
    next => split <;> exact .refl _
    next i word =>
      split
      · exact .refl _
      · split
        next => exact .refl _
        next k j =>
          split
          · exact .refl _
          · split <;> exact ih _ _ c
        next =>
          split
          · exact .refl _
          · exact (c.microKeeps_exec i).trans (ih _ _ _)

/-! ## The slot that goes first -/

/-- The slot that goes first of the best so far and another. -/
def goesFirst (m : Mach) (best : Option Nat) (n : Nat) : Option Nat :=
  match best with
  | none => some n
  | some b => if m.get (R.SCL_SLOT_CTL_PRIO b) < m.get (R.SCL_SLOT_CTL_PRIO n) then some n else best

theorem goesFirst_eq (m : Mach) (best : Option Nat) (n : Nat) : goesFirst m best n = some n ∨ goesFirst m best n = best := by
  cases best with
  | none => exact .inl rfl
  | some b =>
    rw [goesFirst]
    split
    · exact .inl rfl
    · exact .inr rfl

theorem foldl_goesFirst_lt (l : List Nat) (hl : ∀ a ∈ l, a < 96) : ∀ best : Option Nat, (∀ a, best = some a → a < 96) →
    ∀ a, l.foldl (goesFirst m) best = some a → a < 96 := by
  induction l with
  | nil => exact fun _ hb => hb
  | cons x l ih =>
    refine fun best hb => ih (fun a ha => hl a (List.mem_cons_of_mem _ ha)) _ fun a ha => ?_
    rcases goesFirst_eq m best x with e | e
    · rw [e] at ha
      cases ha
      exact hl x List.mem_cons_self
    · exact hb a (e ▸ ha)

theorem pendingFirst_lt (h : pendingFirst m = some n) : n < 96 :=
  foldl_goesFirst_lt _ (fun _ ha => slotHits_lt (List.mem_of_mem_filter ha)) none nofun n h

/-! ## The end of a run -/

/-- The engine is free, and its end of run left the ledger, the collector and the power block alone. -/
structure EngineFree (slot : Nat) (m m' : Mach) : Prop where
  run : m'.scl.run = none
  busy : m'.on R.SCL_STAT_BUSY = false
  running : m'.on (R.SCL_SLOT_STAT_RUNNING slot) = false
  sheets : m'.sheets = m.sheets
  flt : m'.flt = m.flt
  pwr : m'.pwr = m.pwr

/-- What the end of a run means while no sample boundary and no write waited for it. -/
theorem engineFree_runEnd (r : SclRun) (bounds : m.scl.bounds = []) (waiting : m.scl.waiting = []) :
    EngineFree r.slot m (runEnd r m) := by
  unfold runEnd
  extract_lets m1 t old bs src m2 m3
  have none_ : bs = [] := bounds
  have flushed : sclFlush m3 = { m3 with scl := { m3.scl with waiting := [] } } := by
    unfold sclFlush
    rw [show m3.scl.waiting = [] from waiting]
    rfl
  have on3 (f : FRef) (h : f.key ≠ R.SCL_LOAD_PEAK.key) : m3.on f = m1.on f := Mach.on_set_ne m2 (f := R.SCL_LOAD_PEAK) h _
  rw [none_, show each [] sampleBoundary m3 = m3 from rfl, flushed]
  refine ⟨rfl, ?_, ?_, rfl, rfl, rfl⟩
  · refine (on3 R.SCL_STAT_BUSY (by decide)).trans ?_
    exact Mach.on_set_flag (f := R.SCL_STAT_BUSY) rfl rfl false _
  · refine (on3 (R.SCL_SLOT_STAT_RUNNING r.slot) (by simp only [R.SCL_SLOT_STAT_RUNNING, R.SCL_LOAD_PEAK]; omega)).trans ?_
    refine (Mach.on_set_ne _ (f := R.SCL_STAT_BUSY) (by simp only [R.SCL_SLOT_STAT_RUNNING, R.SCL_STAT_BUSY]; omega) 0).trans ?_
    exact Mach.on_set_flag (f := R.SCL_SLOT_STAT_RUNNING r.slot) rfl rfl false _

/-- A stopped run frees the engine with its fault as the latest. -/
theorem runStopped_faults (r : SclRun) (kind : Nat) (bounds : m.scl.bounds = []) (waiting : m.scl.waiting = [])
    (held : m.heldEdges = []) (cls : 2 ≤ m.get (R.SCL_SLOT_CTL_BUDCLS r.slot)) :
    (runStopped r kind m).scl.run = none ∧ (runStopped r kind m).pwr = m.pwr ∧
      (runStopped r kind m).flt.last.src = slotSrc r.slot ∧ (runStopped r kind m).flt.last.kind = kind ∧
      (runStopped r kind m).flt.last.cls = min 3 (m.get (R.SCL_SLOT_CTL_BUDCLS r.slot)) := by
  unfold runStopped
  extract_lets n m1
  have class_ : m1.get (R.SCL_SLOT_CTL_BUDCLS n) = m.get (R.SCL_SLOT_CTL_BUDCLS n) :=
    (Mach.get_set_ne _ (by simp only [R.SCL_SLOT_CTL_BUDCLS, R.SCL_MISSALL_BUDOVR]; omega) _).trans
      (Mach.get_set_ne _ (by simp only [R.SCL_SLOT_CTL_BUDCLS, R.SCL_SLOT_CNT_BUDOVR]; omega) _)
  have not4 : min 3 (m1.get (R.SCL_SLOT_CTL_BUDCLS n)) ≠ 4 := by omega
  have some_ : 2 ≤ min 3 (m1.get (R.SCL_SLOT_CTL_BUDCLS n)) := by rw [class_]; exact le_min (by decide) cls
  have ripples := ripples_raise (m := m1) (src := slotSrc n) (kind := kind) (sid := 0) (param := n) not4
  obtain ⟨src, kd, cl⟩ := last_raise (m := m1) (src := slotSrc n) (kind := kind) (sid := 0) (param := n) some_ not4 held
  have free := engineFree_runEnd r
    (show (raise (slotSrc n) kind (min 3 (m1.get (R.SCL_SLOT_CTL_BUDCLS n))) m1 0 n).scl.bounds = [] from
      (congrArg Scl.bounds ripples.scl :).trans bounds) ((congrArg Scl.waiting ripples.scl :).trans waiting)
  refine ⟨free.run, free.pwr.trans ripples.pwr, ?_, ?_, ?_⟩
  · rw [free.flt]; exact src
  · rw [free.flt]; exact kd
  · rw [free.flt]; exact cl.trans (by rw [class_])

/-! ## Dispatch -/

theorem get_withScl (f : FRef) (x : Scl) (m : Mach) : ({ m with scl := x } : Mach).get f = m.get f := rfl

/-- The machine that a slot's run begins on. -/
def runBegun (n : Nat) (m : Mach) : Mach :=
  { (((((m.set (R.SCL_SLOT_STAT_PEND n) 0).set (R.SCL_SLOT_STAT_RUNNING n) 1).set
        (R.SCL_SLOT_STAT_HOV n) 0).set (R.SCL_SLOT_STAT_FROZEN n) (b2n (learningFrozen n m))).set
        (R.SCL_SLOT_STAT_ECLAMP n) 0).set R.SCL_STAT_SLOT n |>.set R.SCL_STAT_BUSY 1 with
    scl := { m.scl with writers := m.scl.writers.filter fun p => p.2 != n } }

/-- A dispatched run of a slot's microprogram. -/
def slotRun (n : Nat) (m : Mach) : RunEnd × Nat × SclCpu :=
  SclCpu.run ((runBegun n m).get (R.SCL_SLOT_BUD_BUDGET n)) ((runBegun n m).get (R.SCL_SLOT_CTL_PSTART n)) 16
    { m := runBegun n m, n := n, hov := m.on (R.SCL_SLOT_STAT_HOV n), frozen := learningFrozen n m }

/-- The machine after the run, with its flags. -/
def runShown (n : Nat) (m : Mach) : Mach :=
  let m' := ((slotRun n m).2.2.m.set (R.SCL_SLOT_STAT_LIMF n) (b2n (slotRun n m).2.2.limf)).set (R.SCL_SLOT_STAT_SATF n)
    (b2n (slotRun n m).2.2.satf)
  { m' with scl := { m'.scl with run := some { slot := n, ended := (slotRun n m).1 == .ended, cycles := (slotRun n m).2.1 } } }

theorem runBegun_get {f : FRef} (slot : f.key ≠ (R.SCL_SLOT_STAT_RUNNING n).key) (stat : f.key ≠ R.SCL_STAT_BUSY.key) :
    (runBegun n m).get f = m.get f := by
  refine (get_withScl ..).trans ?_
  refine (Mach.get_set_ne _ (f := R.SCL_STAT_BUSY) stat _).trans ((Mach.get_set_ne _ (f := R.SCL_STAT_SLOT) stat _).trans ?_)
  refine (Mach.get_set_ne _ (f := R.SCL_SLOT_STAT_ECLAMP n) slot _).trans ((Mach.get_set_ne _ (f := R.SCL_SLOT_STAT_FROZEN n) slot _).trans ?_)
  refine (Mach.get_set_ne _ (f := R.SCL_SLOT_STAT_HOV n) slot _).trans ((Mach.get_set_ne _ (f := R.SCL_SLOT_STAT_RUNNING n) slot _).trans ?_)
  exact Mach.get_set_ne _ (f := R.SCL_SLOT_STAT_PEND n) slot _

theorem slotRun_eq (n : Nat) (m : Mach) : SclCpu.run (m.get (R.SCL_SLOT_BUD_BUDGET n)) (m.get (R.SCL_SLOT_CTL_PSTART n)) 16
    { m := runBegun n m, n := n, hov := m.on (R.SCL_SLOT_STAT_HOV n), frozen := learningFrozen n m } = slotRun n m := by
  have budget : (runBegun n m).get (R.SCL_SLOT_BUD_BUDGET n) = m.get (R.SCL_SLOT_BUD_BUDGET n) :=
    runBegun_get (by simp only [R.SCL_SLOT_BUD_BUDGET, R.SCL_SLOT_STAT_RUNNING]; omega)
      (by simp only [R.SCL_SLOT_BUD_BUDGET, R.SCL_STAT_BUSY]; omega)
  have start : (runBegun n m).get (R.SCL_SLOT_CTL_PSTART n) = m.get (R.SCL_SLOT_CTL_PSTART n) :=
    runBegun_get (by simp only [R.SCL_SLOT_CTL_PSTART, R.SCL_SLOT_STAT_RUNNING]; omega)
      (by simp only [R.SCL_SLOT_CTL_PSTART, R.SCL_STAT_BUSY]; omega)
  rw [slotRun, budget, start]

theorem opScullDispatch_eq (idle : m.scl.run = none) (on : m.on R.SCL_CTL_EN = true) (first : pendingFirst m = some n) :
    opScullDispatch m = if (slotRun n m).1 == .illegal then
      runStopped { slot := n, ended := (slotRun n m).1 == .ended, cycles := (slotRun n m).2.1 } 0x03 (runShown n m)
      else runShown n m := by
  unfold opScullDispatch
  rw [idle, on, first]
  rfl

theorem opScullDispatch_none (idle : m.scl.run = none) (on : m.on R.SCL_CTL_EN = true) (none_ : pendingFirst m = none) :
    opScullDispatch m = m := by
  unfold opScullDispatch
  rw [idle, on, none_]
  rfl

/-- From the machine that a run begins on to the one it is shown on. -/
theorem microKeeps_slotRun (n : Nat) (m : Mach) : MicroKeeps (runBegun n m) (slotRun n m).2.2.m :=
  SclCpu.microKeeps_run (c := { m := runBegun n m, n := n, hov := _, frozen := _ }) ..

theorem runShown_get {f : FRef} (hn : engineKey f.key) (limf : (R.SCL_SLOT_STAT_LIMF n).apart f)
    (satf : (R.SCL_SLOT_STAT_SATF n).apart f) : (runShown n m).get f = (runBegun n m).get f := by
  have shown (v w : Nat) (m' : Mach) : ((m'.set (R.SCL_SLOT_STAT_LIMF n) v).set (R.SCL_SLOT_STAT_SATF n) w).get f = m'.get f :=
    (Mach.get_set_of_apart _ satf _).trans (Mach.get_set_of_apart _ limf _)
  exact (get_withScl ..).trans ((shown _ _ _).trans (get_of_word ((microKeeps_slotRun n m).word _ hn)))

theorem engineKey_stat (hn : n < 96) : engineKey (R.SCL_SLOT_STAT_RUNNING n).key := by
  simp only [engineKey, R.SCL_SLOT_STAT_RUNNING]; omega

theorem engineKey_ctl (hn : n < 96) : engineKey (R.SCL_SLOT_CTL_BUDCLS n).key := by
  simp only [engineKey, R.SCL_SLOT_CTL_BUDCLS]; omega

/-- Where the engine stands as a slot's run begins. -/
theorem runBegun_flags (hn : n < 96) : (runBegun n m).get (R.SCL_SLOT_STAT_RUNNING n) = 1 ∧
    (runBegun n m).get (R.SCL_SLOT_STAT_PEND n) = 0 ∧ (runBegun n m).get R.SCL_STAT_BUSY = 1 ∧
    (runBegun n m).get R.SCL_STAT_SLOT = n := by
  have slot : (R.SCL_SLOT_STAT_RUNNING n).key ≠ R.SCL_STAT_BUSY.key := by
    simp only [R.SCL_SLOT_STAT_RUNNING, R.SCL_STAT_BUSY]; omega
  have behind {f : FRef} (key : f.key = (R.SCL_SLOT_STAT_RUNNING n).key) (a b c : Nat) (m' : Mach)
      (hov : (R.SCL_SLOT_STAT_HOV n).bitsApart f = true) (frozen : (R.SCL_SLOT_STAT_FROZEN n).bitsApart f = true)
      (eclamp : (R.SCL_SLOT_STAT_ECLAMP n).bitsApart f = true) :
      (((((m'.set (R.SCL_SLOT_STAT_HOV n) a).set (R.SCL_SLOT_STAT_FROZEN n) b).set (R.SCL_SLOT_STAT_ECLAMP n) c).set
        R.SCL_STAT_SLOT n).set R.SCL_STAT_BUSY 1).get f = m'.get f := by
    have ne : f.key ≠ R.SCL_STAT_BUSY.key := key ▸ slot
    exact (Mach.get_set_ne _ (f := R.SCL_STAT_BUSY) ne _).trans ((Mach.get_set_ne _ (f := R.SCL_STAT_SLOT) ne _).trans
      ((Mach.get_set_bits eclamp _ _).trans ((Mach.get_set_bits frozen _ _).trans (Mach.get_set_bits hov _ _))))
  refine ⟨?_, ?_, ?_, ?_⟩
  · refine (get_withScl ..).trans ?_
    refine (behind (f := R.SCL_SLOT_STAT_RUNNING n) rfl _ _ _ _ rfl rfl rfl).trans ?_
    exact Mach.get_set_val (f := R.SCL_SLOT_STAT_RUNNING n) rfl (by decide : 1 < 2 ^ 1) _
  · refine (get_withScl ..).trans ?_
    refine (behind (f := R.SCL_SLOT_STAT_PEND n) rfl _ _ _ _ rfl rfl rfl).trans ?_
    refine (Mach.get_set_bits (f := R.SCL_SLOT_STAT_RUNNING n) (g := R.SCL_SLOT_STAT_PEND n) rfl _ _).trans ?_
    exact Mach.get_set_val (f := R.SCL_SLOT_STAT_PEND n) rfl (by decide : 0 < 2 ^ 1) _
  · exact (get_withScl ..).trans (Mach.get_set_val (f := R.SCL_STAT_BUSY) rfl (by decide) _)
  · refine (get_withScl ..).trans ((Mach.get_set_bits (f := R.SCL_STAT_BUSY) (g := R.SCL_STAT_SLOT) rfl _ _).trans ?_)
    exact Mach.get_set_val (f := R.SCL_STAT_SLOT) rfl (show n < 2 ^ 7 by omega) _

/-- What a dispatched slot's machine shows. -/
theorem runShown_flags (hn : n < 96) : (runShown n m).on (R.SCL_SLOT_STAT_RUNNING n) = true ∧
    (runShown n m).on (R.SCL_SLOT_STAT_PEND n) = false ∧ (runShown n m).on R.SCL_STAT_BUSY = true ∧
    (runShown n m).get R.SCL_STAT_SLOT = n := by
  obtain ⟨running, pend, busy, slot⟩ := runBegun_flags (m := m) hn
  have stat : engineKey R.SCL_STAT_BUSY.key := by simp only [engineKey, R.SCL_STAT_BUSY]; omega
  have far (f : FRef) (key : f.key = R.SCL_STAT_BUSY.key) : (runShown n m).get f = (runBegun n m).get f :=
    runShown_get (key ▸ stat) (.inl (by rw [key]; simp only [R.SCL_SLOT_STAT_LIMF, R.SCL_STAT_BUSY]; omega))
      (.inl (by rw [key]; simp only [R.SCL_SLOT_STAT_SATF, R.SCL_STAT_BUSY]; omega))
  refine ⟨?_, ?_, ?_, (far R.SCL_STAT_SLOT rfl).trans slot⟩
  · rw [Mach.on, runShown_get (engineKey_stat hn) (FRef.apart_of_bits rfl) (FRef.apart_of_bits rfl), running]; rfl
  · rw [Mach.on, runShown_get (f := R.SCL_SLOT_STAT_PEND n) (engineKey_stat hn) (FRef.apart_of_bits rfl) (FRef.apart_of_bits rfl),
      pend]; rfl
  · rw [Mach.on, far _ rfl, busy]; rfl

theorem runShown_budcls (hn : n < 96) : (runShown n m).get (R.SCL_SLOT_CTL_BUDCLS n) = m.get (R.SCL_SLOT_CTL_BUDCLS n) :=
  (runShown_get (engineKey_ctl hn) (.inl (by simp only [R.SCL_SLOT_STAT_LIMF, R.SCL_SLOT_CTL_BUDCLS]; omega))
    (.inl (by simp only [R.SCL_SLOT_STAT_SATF, R.SCL_SLOT_CTL_BUDCLS]; omega))).trans
    (runBegun_get (by simp only [R.SCL_SLOT_CTL_BUDCLS, R.SCL_SLOT_STAT_RUNNING]; omega)
      (by simp only [R.SCL_SLOT_CTL_BUDCLS, R.SCL_STAT_BUSY]; omega))

end

/-! ## The commands -/

section
variable {s : State} {n : Nat} {out : RunEnd × Nat × SclCpu} {r : SclRun}

/-- No sample boundary, write or sensor edge waits. -/
def EngineQuiet (m : Mach) : Prop := m.scl.bounds = [] ∧ m.scl.waiting = [] ∧ m.heldEdges = []

theorem exec_scullDispatch : exec .scullDispatch s = .next (settle (s.onMach opScullDispatch)) := onUnitS_of rfl _ s
theorem exec_scullOutputWrite : exec .scullOutputWrite s = .next (settle (s.onMach opScullOutputWrite)) := onUnitS_of rfl _ s
theorem exec_scullBudgetExpire : exec .scullBudgetExpire s = .next (settle (s.onMach opScullBudgetExpire)) := onUnitS_of rfl _ s

theorem opScullOutputWrite_eq {m : Mach} (run : m.scl.run = some r) (ended : r.ended = true) : opScullOutputWrite m =
    markTrig (slotHits m.regs 0x04 fun w => bitsOf w 2 0 == 5 && bitsOf w 12 6 == r.slot) (runEnd r (outputsDo r.slot m)) := by
  rw [opScullOutputWrite, run]
  exact if_pos ended

theorem opScullBudgetExpire_eq {m : Mach} (run : m.scl.run = some r) (ended : r.ended = false) :
    opScullBudgetExpire m = assertEvent 0x0E1 (runStopped r 0x02 m) := by
  rw [opScullBudgetExpire, run]
  exact if_neg (Bool.eq_false_iff.1 ended)

/-- A run that is not illegal is in progress, at its end or past its budget. -/
theorem scullDispatch_runs (restart : s.mach.pwr.restart = false) (idle : s.mach.scl.run = none)
    (on : s.mach.on R.SCL_CTL_EN = true) (first : pendingFirst s.mach = some n) (ran : out = slotRun n s.mach)
    (legal : out.1 ≠ .illegal) : ∃ t, exec .scullDispatch s = .next t ∧
      t.mach.scl.run = some { slot := n, ended := out.1 == .ended, cycles := out.2.1 } ∧
      t.mach.on (R.SCL_SLOT_STAT_RUNNING n) = true ∧ t.mach.on (R.SCL_SLOT_STAT_PEND n) = false ∧
      t.mach.on R.SCL_STAT_BUSY = true ∧ t.mach.get R.SCL_STAT_SLOT = n ∧ t.mach.sheets = s.mach.sheets ∧ t.mem = s.mem := by
  subst ran
  have eff : opScullDispatch s.mach = runShown n s.mach := (opScullDispatch_eq idle on first).trans (if_neg (by simpa using legal))
  obtain ⟨running, pend, busy, slot⟩ := runShown_flags (m := s.mach) (pendingFirst_lt first)
  have kept := microKeeps_slotRun n s.mach
  exact ⟨_, actsS_calm exec_scullDispatch eff ((congrArg Power.restart kept.pwr).trans restart), rfl, running, pend, busy, slot,
    kept.sheets, rfl⟩

/-- An undefined word stops its run with a fault. -/
theorem scullDispatch_stops (restart : s.mach.pwr.restart = false) (idle : s.mach.scl.run = none)
    (on : s.mach.on R.SCL_CTL_EN = true) (first : pendingFirst s.mach = some n) (ran : out = slotRun n s.mach)
    (illegal : out.1 = .illegal) (quiet : EngineQuiet s.mach) (cls : 2 ≤ s.mach.get (R.SCL_SLOT_CTL_BUDCLS n)) :
    ∃ t, exec .scullDispatch s = .next t ∧ t.mach.scl.run = none ∧
      s.faulted t (slotSrc n) 0x03 (min 3 (s.mach.get (R.SCL_SLOT_CTL_BUDCLS n))) := by
  subst ran
  obtain ⟨bounds, waiting, held⟩ := quiet
  have kept := microKeeps_slotRun n s.mach
  have class_ := runShown_budcls (m := s.mach) (pendingFirst_lt first)
  have eff := (opScullDispatch_eq idle on first).trans (if_pos (by rw [illegal]; rfl))
  obtain ⟨run, pwr, src, kind, cl⟩ := runStopped_faults (m := runShown n s.mach)
    { slot := n, ended := (slotRun n s.mach).1 == .ended, cycles := (slotRun n s.mach).2.1 } 0x03 (kept.bounds.trans bounds)
    (kept.waiting.trans waiting) (kept.heldEdges.trans held) (by rw [class_]; exact cls)
  refine ⟨_, actsS_calm exec_scullDispatch eff ((congrArg Power.restart (pwr.trans kept.pwr)).trans restart), run,
    fun _ => ⟨src, kind, cl.trans ?_⟩⟩
  rw [class_]

/-- A run without outputs that has reached END frees the engine. -/
theorem scullOutputWrite_free (restart : s.mach.pwr.restart = false) (run : s.mach.scl.run = some r) (ended : r.ended = true)
    (quiet : EngineQuiet s.mach) (none_ : s.mach.get (R.SCL_SLOT_BUD_NOUT r.slot) = 0) :
    ∃ t, exec .scullOutputWrite s = .next t ∧ t.mach.scl.run = none ∧
      t.mach.on R.SCL_STAT_BUSY = false ∧ t.mach.on (R.SCL_SLOT_STAT_RUNNING r.slot) = false ∧
      t.mach.sheets = s.mach.sheets ∧ t.mem = s.mem := by
  obtain ⟨bounds, waiting, -⟩ := quiet
  have outputs : outputsDo r.slot s.mach = s.mach := by rw [outputsDo, none_]; rfl
  have eff : opScullOutputWrite s.mach =
      markTrig (slotHits s.mach.regs 0x04 fun w => bitsOf w 2 0 == 5 && bitsOf w 12 6 == r.slot) (runEnd r s.mach) := by
    rw [opScullOutputWrite_eq run ended, outputs]
  have free := engineFree_runEnd r bounds waiting
  exact ⟨_, actsS_calm exec_scullOutputWrite eff ((congrArg Power.restart free.pwr).trans restart), free.run, free.busy,
    free.running, free.sheets, rfl⟩

/-- A run that outlasts its budget stops with a fault. -/
theorem scullBudgetExpire_stops (restart : s.mach.pwr.restart = false) (run : s.mach.scl.run = some r) (ended : r.ended = false)
    (quiet : EngineQuiet s.mach) (cls : 2 ≤ s.mach.get (R.SCL_SLOT_CTL_BUDCLS r.slot)) :
    ∃ t, exec .scullBudgetExpire s = .next t ∧ t.mach.scl.run = none ∧
      s.faulted t (slotSrc r.slot) 0x02 (min 3 (s.mach.get (R.SCL_SLOT_CTL_BUDCLS r.slot))) := by
  obtain ⟨bounds, waiting, held⟩ := quiet
  have eff := opScullBudgetExpire_eq run ended
  obtain ⟨idle, pwr, src, kind, cl⟩ := runStopped_faults r 0x02 bounds waiting held cls
  have ripples := ripples_assertEvent (trip := False) 0x0E1 (runStopped r 0x02 s.mach)
  refine ⟨_, actsS_calm exec_scullBudgetExpire eff ((congrArg Power.restart (ripples.pwr.trans pwr)).trans restart),
    (congrArg Scl.run ripples.scl :).trans idle, fun _ => ?_⟩
  rw [State.lastFault, assertEvent_flt]
  exact ⟨src, kind, cl⟩

end

/-- Settles O43: a microprogram leaves the engine's own registers alone, and a run's end with nothing waiting does no more
than free the engine. -/
theorem scullRuns : Obligations.ScullRuns := by
  intro n r s restart
  refine ⟨fun idle on first => ⟨fun legal => ?_, fun illegal quiet cls => ?_⟩, fun idle on none_ => ?_,
    fun run ended quiet => ⟨?_, fun none_ => ?_⟩, fun run ended => ⟨?_, fun quiet cls => ?_⟩⟩
  · exact scullDispatch_runs restart idle on first (slotRun_eq n s.mach) legal
  · exact scullDispatch_stops restart idle on first (slotRun_eq n s.mach) illegal quiet cls
  · exact actsS_calm exec_scullDispatch (opScullDispatch_none idle on none_) restart
  · refine exec_scullOutputWrite.trans (settle_congr (g := fun m => markTrig _ (runEnd r (outputsDo r.slot m))) ?_)
    exact opScullOutputWrite_eq run ended
  · exact scullOutputWrite_free restart run ended quiet none_
  · refine exec_scullBudgetExpire.trans (settle_congr (g := fun m => assertEvent 0x0E1 (runStopped r 0x02 m)) ?_)
    exact opScullBudgetExpire_eq run ended
  · exact scullBudgetExpire_stops restart run ended quiet cls

end Sys2Proof.Machine
end

section
/-! PROOFS. O45: a shunt's conversion reaches the stepper in strong mode that it measures, whose current limit may clamp
(R223, R303). -/

namespace Sys2Proof.Machine

/-- Stepper 0 is enabled in strong mode with a running current above its limit in the envelope, which is not programmed. -/
def strongStepper : State := State.reset.onMach fun m =>
  ((m.set (R.STP_CFG_EN 0) 1).set (R.STP_STAT_STRONG 0) 1).set (R.STP_IRUN 0) 1

theorem strongStepper_free : strongStepper.mach.on (R.STP_STAT_ICLAMP 0) = false := by decide +kernel

/-- A conversion of the stepper's shunt has its references set anew, and they clamp. -/
theorem strongStepper_clamps : (opConversion (.shunt 29) 0 strongStepper.mach).on (R.STP_STAT_ICLAMP 0) = true := by
  decide +kernel

theorem exec_adcConversion {i : AdcInput} (h : okAdc i = true) (v : Int) (s : State) :
    exec (.adcConversion i v) s = .next (s.onMach (opConversion i v)) := onUnit_of h (opConversion i v) s

/-- Refutes O45: the clause on shunts says that a conversion leaves every register alone, and that of a stepper in strong
mode sets ICLAMP of that stepper. -/
theorem not_analogAndFuser : ¬ Obligations.AnalogAndFuser := by
  unfold Obligations.AnalogAndFuser
  intro holds
  obtain ⟨-, shunt, -⟩ := holds 0 0 29 0 0 0 0 strongStepper (by decide) (by decide) (by decide) (by decide) (by decide)
  obtain ⟨t, run, -, -, regs⟩ := shunt
  injection run.symm.trans (exec_adcConversion (i := .shunt 29) rfl 0 strongStepper) with result
  have clamps := strongStepper_clamps
  rw [result, State.onMach_mach] at regs
  rw [Mach.on, Mach.get, Mach.word, regs] at clamps
  have free := strongStepper_free
  rw [Mach.on, Mach.get, Mach.word, clamps] at free
  cases free

end Sys2Proof.Machine
end

section
/-! PROOFS. O47: quadrature channels, SSI ports and filtered inputs (R247-R260, R273). -/

namespace Sys2Proof.Machine

/-! ## Registers of a whole word -/

section
variable {f : FRef} {m : Mach}

/-- The field is the whole word. -/
def FRef.whole (f : FRef) : Prop := f.hi = 31 ∧ f.lo = 0

theorem getI_whole (h : f.whole) : m.getI f = (m.word f.key).toInt := by
  obtain ⟨hi, lo⟩ := h
  have low : bitsOf (m.word f.key) 31 0 = (m.word f.key).toNat := by
    have := (m.word f.key).isLt
    simp only [bitsOf]
    omega
  have := (m.word f.key).isLt
  rw [Mach.getI, Mach.get, hi, lo, low, BitVec.toInt_eq_toNat_cond]
  simp only [sint]
  rw [Nat.mod_eq_of_lt (by omega)]
  split <;> split <;> omega

theorem word_setI_whole (h : f.whole) (v : Int) : (m.setI f v).word f.key = BitVec.ofInt 32 v := by
  obtain ⟨hi, lo⟩ := h
  rw [Mach.setI, hi, lo, Mach.set, Mach.word_setWord_same, hi, lo]
  refine BitVec.eq_of_toNat_eq ?_
  have := (m.word f.key).isLt
  simp only [withBits, uint, BitVec.toNat_ofInt, BitVec.toNat_ofNat]
  omega

theorem get_setI_whole (h : f.whole) (v : Int) : (m.setI f v).get f = uint 32 v := by
  obtain ⟨hi, lo⟩ := h
  rw [Mach.setI, Mach.get_set_same _ _ _ (by omega) (by omega), hi, lo]
  refine Nat.mod_eq_of_lt ?_
  simp only [uint]
  omega

end

/-! ## Edges of a quadrature channel -/

section
variable {q held sub : Nat} {a b : Bool} {m : Mach} {s : State}

theorem get_setEnc (e : Enc) (f : FRef) (m : Mach) : (m.setEnc q e).get f = m.get f := rfl

theorem word_setEnc (e : Enc) (key : Nat) (m : Mach) : (m.setEnc q e).word key = m.word key := rfl

/-- The least time that a level of the channel holds. -/
def minEdge (q : Nat) (m : Mach) : Nat := max 1 (min 1000 (m.get (R.FBK_CFG_MINEDGE q)))

theorem minEdge_eq (q : Nat) (m : Mach) : clampN 1 1000 (m.get (R.FBK_CFG_MINEDGE q)) = minEdge q m := by
  rw [clampN, minEdge]
  split
  · omega
  · split <;> omega

/-- A change is far enough from the one before. -/
def farEdge (q : Nat) (last : Option Nat) (t : Nat) (m : Mach) : Bool :=
  match last with | some p => decide (p + minEdge q m * 8 ≤ t) | none => true

theorem farEdge_iff {last : Option Nat} {t : Nat} : farEdge q last t m = true ↔ ∀ p, last = some p → p + 8 * minEdge q m ≤ t := by
  cases last with
  | none => exact ⟨fun _ => nofun, fun _ => rfl⟩
  | some p => simp only [farEdge, decide_eq_true_eq, Option.some.injEq, forall_eq', Nat.mul_comm]

/-- The channel takes the change. -/
def edgeTaken (q held sub : Nat) (m : Mach) : Prop :=
  minEdge q m ≤ held ∧ ∀ p, (m.encOf q).lastAcc = some p → p + 8 * minEdge q m ≤ 8 * m.now + sub

theorem edgeTaken_iff (hs : sub < 8) : edgeTaken q held sub m ↔
    ¬((decide (held < minEdge q m) || !farEdge q (m.encOf q).lastAcc (fineNow sub m) m) = true) := by
  have fine : fineNow sub m = 8 * m.now + sub := by rw [fineNow]; omega
  simp only [edgeTaken, Bool.or_eq_true, decide_eq_true_eq, Bool.not_eq_true', not_or, not_lt, Bool.not_eq_false, farEdge_iff, fine]

/-- The channel with its inputs' new levels. -/
def edgeSeen (q : Nat) (a b : Bool) (sub : Nat) (m : Mach) : Mach :=
  (beforeStill q m).onEnc q fun e =>
    { e with
      a := a, b := b, lastAcc := some (fineNow sub m)
      accPpc := (m.ppcNow * 2 ^ 32 + m.clk.ppcFrac.toNat + m.get R.CLK_PPCRATE * (sub % 8) / 8) % 2 ^ 80 }

theorem edgeSeen_encOf (sub : Nat) : ((edgeSeen q a b sub m).encOf q).a = a ∧ ((edgeSeen q a b sub m).encOf q).b = b := by
  have same : (edgeSeen q a b sub m).encOf q = _ := tget_tput_same ..
  rw [same]
  exact ⟨rfl, rfl⟩

theorem opEncEdge_eq (en : m.on (R.FBK_CFG_EN q) = true) (changed : (m.encOf q).a ≠ a ∨ (m.encOf q).b ≠ b) :
    opEncEdge q a b held sub m =
      if decide (held < minEdge q m) || !farEdge q (m.encOf q).lastAcc (fineNow sub m) m then glitch q m
      else if (m.encOf q).a != a && (m.encOf q).b != b then glitch q (edgeSeen q a b sub m)
      else countEdge q ((if (m.encOf q).a != a then a != b else a == b) == m.on (R.FBK_CFG_INV q)) (fineNow sub m)
        (edgeSeen q a b sub m) := by
  have moved : ((m.encOf q).a == a && (m.encOf q).b == b) = false := by
    rw [Bool.and_eq_false_iff, beq_eq_false_iff_ne, beq_eq_false_iff_ne]; exact changed
  unfold opEncEdge
  simp only [en, moved, minEdge_eq]
  rfl

theorem exec_encEdge (hq : q < 12) (hs : sub < 8) : exec (.encEdge q a b held sub) s =
    .next (s.onMach (opEncEdge q a b held sub)) := onUnit_of (by simp [hq, hs]) _ s

/-- A rejected change is counted, and with no threshold that is all. -/
theorem glitch_counts (off : m.get (R.FBK_SPDCFG_GLTHR q) = 0) : ∃ e, glitch q m = (m.incSat (R.FBK_STAT_GLITCH q)).setEnc q e := by
  have thr : (m.incSat (R.FBK_STAT_GLITCH q)).get (R.FBK_SPDCFG_GLTHR q) = 0 :=
    (Mach.get_set_ne _ (by simp only [R.FBK_SPDCFG_GLTHR, R.FBK_STAT_GLITCH]; omega) _).trans off
  unfold glitch
  simp only [thr]
  exact ⟨_, rfl⟩

theorem get_incSat {f : FRef} (h : f.sound = true) : (m.incSat f).get f = min (2 ^ (f.hi + 1 - f.lo) - 1) (m.get f + 1) := by
  rw [Mach.incSat, Nat.min_comm]
  refine Mach.get_set_val h (Nat.lt_of_le_of_lt (Nat.min_le_left ..) ?_) _
  have := Nat.two_pow_pos (f.hi + 1 - f.lo)
  omega

theorem glitch_leaves (off : m.get (R.FBK_SPDCFG_GLTHR q) = 0) :
    (glitch q m).get (R.FBK_STAT_GLITCH q) = min 255 (m.get (R.FBK_STAT_GLITCH q) + 1) ∧
      (glitch q m).flt = m.flt ∧ ∀ key, key ≠ (R.FBK_STAT_GLITCH q).key → (glitch q m).word key = m.word key := by
  obtain ⟨e, eq⟩ := glitch_counts off
  rw [eq]
  exact ⟨(get_setEnc ..).trans (get_incSat rfl), rfl, fun key ne => (word_setEnc ..).trans (Mach.word_set_ne m (f := R.FBK_STAT_GLITCH q) ne _)⟩

theorem homingOn_congr {m' : Mach} (h : ∀ key, 0x190000 ≤ key → m'.word key = m.word key) : homingOn q m' = homingOn q m := by
  have same (ax : Nat) : m'.get (R.MOT_STAT_PHASE ax) = m.get (R.MOT_STAT_PHASE ax) ∧
      m'.get (R.MOT_CFG_FBCH ax) = m.get (R.MOT_CFG_FBCH ax) :=
    ⟨get_of_word (h _ (by simp only [R.MOT_STAT_PHASE]; omega)), get_of_word (h _ (by simp only [R.MOT_CFG_FBCH]; omega))⟩
  simp only [homingOn, same]

/-- A count without soft limits. -/
theorem countTo_free (d : Int) (free : m.on (R.FBK_CFG_SLEN q) = false) :
    countTo q d m = m.setI (R.FBK_CNT q) (m.getI (R.FBK_CNT q) + d) ∨
      countTo q d m = (m.setI (R.FBK_CNT q) (m.getI (R.FBK_CNT q) + d)).set (R.FBK_STAT_SAT q) 0 := by
  simp only [countTo, free, Bool.false_and, Bool.false_eq_true, if_false, when]
  split
  · exact .inr rfl
  · exact .inl rfl

theorem cnt_whole (q : Nat) : (R.FBK_CNT q).whole := ⟨rfl, rfl⟩
theorem rpos_whole (q : Nat) : (R.FBK_RPOS q).whole := ⟨rfl, rfl⟩

/-- What a count leaves: CNT, and besides it only STAT. -/
theorem countTo_leaves (d : Int) (free : m.on (R.FBK_CFG_SLEN q) = false) :
    (countTo q d m).word (R.FBK_CNT q).key = m.word (R.FBK_CNT q).key + BitVec.ofInt 32 d ∧
      (∀ key, key ≠ (R.FBK_CNT q).key → key ≠ (R.FBK_STAT_SAT q).key → (countTo q d m).word key = m.word key) ∧
      countTo q d m = { m with regs := (countTo q d m).regs } := by
  have cnt : (m.setI (R.FBK_CNT q) (m.getI (R.FBK_CNT q) + d)).word (R.FBK_CNT q).key =
      m.word (R.FBK_CNT q).key + BitVec.ofInt 32 d := by
    rw [word_setI_whole (cnt_whole q), getI_whole (cnt_whole q), BitVec.ofInt_add, BitVec.ofInt_toInt]
  have ne : (R.FBK_CNT q).key ≠ (R.FBK_STAT_SAT q).key := by simp only [R.FBK_CNT, R.FBK_STAT_SAT]; omega
  rcases countTo_free d free with e | e
  · rw [e]
    exact ⟨cnt, fun key h _ => Mach.word_set_ne _ h _, rfl⟩
  · rw [e]
    exact ⟨(Mach.word_set_ne _ ne _).trans cnt, fun key h g => (Mach.word_set_ne _ g _).trans (Mach.word_set_ne _ h _), rfl⟩

/-- RPOS follows CNT in mode 0. -/
theorem reportPos_follows (mode : m.on (R.FBK_CFG_MODE q) = false) (idle : homingOn q m = false) :
    reportPos q m = m.setI (R.FBK_RPOS q) (m.getI (R.FBK_CNT q)) := by
  rw [reportPos, mode, idle]; rfl

/-- A channel after a count: its unseen state, DIR and STILL. -/
def countShown (q : Nat) (neg : Bool) (e : Enc) (m : Mach) : Mach :=
  ((m.setEnc q e).set (R.FBK_STAT_DIR q) (b2n neg)).set (R.FBK_STAT_STILL q) 0

theorem countEdge_eq (neg : Bool) (stamp : Nat) : ∃ e : Enc,
    e.a = ((reportPos q (countTo q (if neg then -1 else 1) m)).encOf q).a ∧
      e.b = ((reportPos q (countTo q (if neg then -1 else 1) m)).encOf q).b ∧
      countEdge q neg stamp m = countShown q neg e (reportPos q (countTo q (if neg then -1 else 1) m)) := by
  refine ⟨_, ?_, ?_, rfl⟩
  · rfl
  · rfl

theorem countShown_word {neg : Bool} {e : Enc} {key : Nat} (ne : key ≠ (R.FBK_STAT_STILL q).key) :
    (countShown q neg e m).word key = m.word key :=
  (Mach.word_set_ne _ (f := R.FBK_STAT_STILL q) ne _).trans ((Mach.word_set_ne _ (f := R.FBK_STAT_DIR q) ne _).trans (word_setEnc ..))

theorem countShown_flags {neg : Bool} {e : Enc} : (countShown q neg e m).on (R.FBK_STAT_DIR q) = neg ∧
    (countShown q neg e m).on (R.FBK_STAT_STILL q) = false ∧ (countShown q neg e m).encOf q = e :=
  ⟨(Mach.on_set_bits (f := R.FBK_STAT_STILL q) (g := R.FBK_STAT_DIR q) rfl _ _).trans
    (Mach.on_set_flag (f := R.FBK_STAT_DIR q) rfl rfl neg _), Mach.on_set_flag (f := R.FBK_STAT_STILL q) rfl rfl false _,
    tget_tput_same ..⟩

/-- The channel's positions agree and show a count. -/
structure Counts (q : Nat) (neg : Bool) (m c : Mach) : Prop where
  cnt : c.word (R.FBK_CNT q).key = m.word (R.FBK_CNT q).key + BitVec.ofInt 32 (if neg then -1 else 1)
  rpos : c.word (R.FBK_RPOS q).key = c.word (R.FBK_CNT q).key
  dir : c.on (R.FBK_STAT_DIR q) = neg
  still : c.on (R.FBK_STAT_STILL q) = false
  a : (c.encOf q).a = (m.encOf q).a
  b : (c.encOf q).b = (m.encOf q).b
  sheets : c.sheets = m.sheets
  flt : c.flt = m.flt

/-- RPOS takes CNT, and the count is shown. -/
theorem counts_shown {n : Mach} {neg : Bool} {e : Enc} (cnt : n.word (R.FBK_CNT q).key = m.word (R.FBK_CNT q).key +
    BitVec.ofInt 32 (if neg then -1 else 1)) (ea : e.a = (m.encOf q).a) (eb : e.b = (m.encOf q).b)
    (sheets : n.sheets = m.sheets) (flt : n.flt = m.flt) :
    Counts q neg m (countShown q neg e (n.setI (R.FBK_RPOS q) (n.getI (R.FBK_CNT q)))) := by
  obtain ⟨dir, still, enc⟩ := countShown_flags (q := q) (m := n.setI (R.FBK_RPOS q) (n.getI (R.FBK_CNT q))) (neg := neg) (e := e)
  have cnt' : (n.setI (R.FBK_RPOS q) (n.getI (R.FBK_CNT q))).word (R.FBK_CNT q).key = n.word (R.FBK_CNT q).key :=
    Mach.word_set_ne _ (by simp only [R.FBK_CNT, R.FBK_RPOS]; omega) _
  have cntWord := (countShown_word (q := q) (neg := neg) (e := e) (by simp only [R.FBK_CNT, R.FBK_STAT_STILL]; omega)).trans cnt'
  refine ⟨cntWord.trans cnt, ?_, dir, still, (congrArg Enc.a enc).trans ea, (congrArg Enc.b enc).trans eb, sheets, flt⟩
  rw [cntWord, countShown_word (by simp only [R.FBK_RPOS, R.FBK_STAT_STILL]; omega), word_setI_whole (rpos_whole q),
    getI_whole (cnt_whole q), BitVec.ofInt_toInt]

/-- A count in mode 0 without soft limits. -/
theorem countEdge_counts (hq : q < 12) (neg : Bool) (stamp : Nat) (free : m.on (R.FBK_CFG_SLEN q) = false)
    (mode : m.on (R.FBK_CFG_MODE q) = false) (idle : homingOn q m = false) : Counts q neg m (countEdge q neg stamp m) := by
  obtain ⟨e, ea, eb, eq⟩ := countEdge_eq (q := q) (m := m) neg stamp
  obtain ⟨cnt, others, only⟩ := countTo_leaves (if neg then -1 else 1) free
  rw [eq]
  generalize countTo q (if neg then -1 else 1) m = n at cnt others only ea eb
  have far {key : Nat} (h : key < 0x180100 + 0x40 * q + 0x18 ∨ 0x180100 + 0x40 * q + 0x28 ≤ key) : n.word key = m.word key :=
    others key (by simp only [R.FBK_CNT]; omega) (by simp only [R.FBK_STAT_SAT]; omega)
  have mode' : n.on (R.FBK_CFG_MODE q) = false := by
    rw [Mach.on, get_of_word (far (by simp only [R.FBK_CFG_MODE]; omega))]
    exact mode
  have idle' : homingOn q n = false := (homingOn_congr fun key h => far (by omega)).trans idle
  have encs : n.enc = m.enc := (congrArg Mach.enc only :)
  have kept : n.encOf q = m.encOf q := by rw [Mach.encOf, encs]; rfl
  rw [reportPos_follows mode' idle'] at ea eb ⊢
  exact counts_shown cnt (ea.trans (congrArg Enc.a kept)) (eb.trans (congrArg Enc.b kept)) (congrArg Mach.sheets only :)
    (congrArg Mach.flt only :)

end

/-! ## Standstill, speed windows and modes -/

section
variable {q p i : Nat} {m : Mach} {s : State}

theorem exec_encStandstill (hq : q < 12) : exec (.encStandstill q) s = .next (s.onMach (opEncStandstill q)) :=
  onUnit_of (decide_eq_true hq) _ s

theorem exec_speedWindowEnd (hq : q < 12) : exec (.speedWindowEnd q) s = .next (s.onMach (opSpeedWindowEnd q)) :=
  onUnit_of (decide_eq_true hq) _ s

theorem opEncStandstill_eq (en : m.on (R.FBK_CFG_EN q) = true) (meth : m.on (R.FBK_STAT_METH q) = false)
    (still : m.on (R.FBK_STAT_STILL q) = false)
    (long : (m.encOf q).valid + 8 * (100000 * m.get (R.FBK_SPDCFG_STILL q)) < 8 * m.now) :
    opEncStandstill q m = ((m.set (R.FBK_SPD q) 0).set (R.FBK_STAT_STILL q) 1).setEnc q
      { m.encOf q with
        dirKnown := false, edges := [], idxFirst := true
        still := some (m.now, (m.encOf q).edges, (m.encOf q).dirKnown, (m.encOf q).idxFirst) } := by
  refine if_pos ?_
  rw [en, meth, still, msTicks]
  simp only [Bool.not_false, Bool.and_self, Bool.true_and, decide_eq_true_eq]
  omega

/-- The speed that a count window gives. -/
def windowSpeed (q : Nat) (m : Mach) : Int :=
  (sint 32 (m.word (R.FBK_CNT q).key - (m.encOf q).winCnt).toNat * 1600000).tdiv (max 1 (m.get (R.FBK_SPDCFG_CWIN q)) : Nat)

/-- The speed at which the channel goes over to the window method. -/
def upSpeed (q : Nat) (m : Mach) : Nat := max (m.get (R.FBK_SPDTHR_VUP q)) (m.get (R.FBK_SPDTHR_VDN q) + 1) * 4096

/-- A new count window begins. -/
def windowAnew (q : Nat) (m : Mach) : Mach :=
  m.setEnc q { m.encOf q with winCnt := m.word (R.FBK_CNT q).key, winAt := m.clk.tick }

theorem windowAnew_encOf : ((windowAnew q m).encOf q).winAt = m.clk.tick ∧
    ((windowAnew q m).encOf q).winCnt = m.word (R.FBK_CNT q).key := by
  have same : (windowAnew q m).encOf q = _ := tget_tput_same ..
  rw [same]
  exact ⟨rfl, rfl⟩

theorem opSpeedWindowEnd_eq (en : m.on (R.FBK_CFG_EN q) = true)
    (due : (m.encOf q).winAt.toNat + max 1 (m.get (R.FBK_SPDCFG_CWIN q)) * 1000 ≤ m.now) :
    opSpeedWindowEnd q m =
      if m.on (R.FBK_STAT_METH q) then
        (if (windowSpeed q m).natAbs < m.get (R.FBK_SPDTHR_VDN q) * 4096 then
          ((windowAnew q m).setI (R.FBK_SPD q) (windowSpeed q m)).set (R.FBK_STAT_METH q) 0
        else (windowAnew q m).setI (R.FBK_SPD q) (windowSpeed q m))
      else if upSpeed q m < (periodSpeed (windowAnew q m) q).natAbs then
        ((windowAnew q m).setI (R.FBK_SPD q) (windowSpeed q m)).set (R.FBK_STAT_METH q) 1
      else windowAnew q m := by
  have live : (!m.on (R.FBK_CFG_EN q) || decide (m.now < (m.encOf q).winAt.toNat + max 1 (m.get (R.FBK_SPDCFG_CWIN q)) * 1000))
      = false := by
    rw [en, Bool.not_true, Bool.false_or, decide_eq_false_iff_not]
    omega
  unfold opSpeedWindowEnd
  simp only [live]
  rfl

theorem periodSpeed_windowAnew : periodSpeed (windowAnew q m) q = periodSpeed m q := by
  have same : (windowAnew q m).encOf q = { m.encOf q with winCnt := m.word (R.FBK_CNT q).key, winAt := m.clk.tick } :=
    tget_tput_same ..
  rw [periodSpeed, same]
  rfl

theorem spd_whole (q : Nat) : (R.FBK_SPD q).whole := ⟨rfl, rfl⟩

theorem spd_ne (q : Nat) : (R.FBK_SPD q).key ≠ (R.FBK_STAT_METH q).key := by simp only [R.FBK_SPD, R.FBK_STAT_METH]; omega

/-- The window method shows the speed of the window. -/
theorem opSpeedWindowEnd_shows (en : m.on (R.FBK_CFG_EN q) = true)
    (due : (m.encOf q).winAt.toNat + max 1 (m.get (R.FBK_SPDCFG_CWIN q)) * 1000 ≤ m.now)
    (meth : m.on (R.FBK_STAT_METH q) = true) :
    (opSpeedWindowEnd q m).get (R.FBK_SPD q) = uint 32 (windowSpeed q m) ∧
      (opSpeedWindowEnd q m).encOf q = (windowAnew q m).encOf q ∧ (opSpeedWindowEnd q m).sheets = m.sheets := by
  have spd := get_setI_whole (m := windowAnew q m) (spd_whole q) (windowSpeed q m)
  rw [opSpeedWindowEnd_eq en due, if_pos meth]
  split
  · exact ⟨(Mach.get_set_ne _ (f := R.FBK_STAT_METH q) (spd_ne q) _).trans spd, rfl, rfl⟩
  · exact ⟨spd, rfl, rfl⟩

/-- The period method is left when the speed has passed the threshold. -/
theorem opSpeedWindowEnd_judges (en : m.on (R.FBK_CFG_EN q) = true)
    (due : (m.encOf q).winAt.toNat + max 1 (m.get (R.FBK_SPDCFG_CWIN q)) * 1000 ≤ m.now)
    (meth : m.on (R.FBK_STAT_METH q) = false) :
    (opSpeedWindowEnd q m).encOf q = (windowAnew q m).encOf q ∧
      (opSpeedWindowEnd q m).on (R.FBK_STAT_METH q) = decide (upSpeed q m < (periodSpeed m q).natAbs) ∧
      (opSpeedWindowEnd q m).sheets = m.sheets := by
  rw [opSpeedWindowEnd_eq en due, if_neg (Bool.eq_false_iff.1 meth), periodSpeed_windowAnew]
  split
  · next fast =>
    exact ⟨rfl, (Mach.on_set_flag (f := R.FBK_STAT_METH q) rfl rfl true _).trans (decide_eq_true fast).symm, rfl⟩
  · next slow =>
    exact ⟨rfl, (show m.on (R.FBK_STAT_METH q) = _ from meth.trans (decide_eq_false slow).symm), rfl⟩

theorem exec_encModeWrite {r : Requester} {v : Word} (okr : okReq r = true) (hq : q < 12)
    (lets : s.lets r false (R.FBK_CFG_EN q).key) : exec (.encModeWrite r q v) s = .next (s.onMach (fbkCfgWrite q v)) :=
  acts_guarded (onUnit_of (by simp [okr, hq]) (opEncModeWrite r q v) s) lets

/-- A write of a channel's CFG forgets the hysteresis, and in mode 0 RPOS takes CNT. -/
theorem fbkCfgWrite_leaves (v : Word) : ((fbkCfgWrite q v m).encOf q).hyst = 0 ∧
    ((fbkCfgWrite q v m).on (R.FBK_CFG_MODE q) = false →
      (fbkCfgWrite q v m).word (R.FBK_RPOS q).key = (fbkCfgWrite q v m).word (R.FBK_CNT q).key) := by
  have cntRpos : (R.FBK_CNT q).key ≠ (R.FBK_RPOS q).key := by simp only [R.FBK_CNT, R.FBK_RPOS]; omega
  unfold fbkCfgWrite
  extract_lets was m1 src e0 e m2
  have hyst : e.hyst = 0 := by
    simp only [e]
    split <;> rfl
  have enc : m2.encOf q = e := tget_tput_same ..
  split
  · next mode => exact ⟨(congrArg Enc.hyst enc).trans hyst, fun off => absurd (mode.symm.trans off) Bool.noConfusion⟩
  · refine ⟨(congrArg Enc.hyst enc).trans hyst, fun _ => ?_⟩
    rw [Mach.word_setWord_same, Mach.word_setWord_ne _ cntRpos]

end

/-! ## Indices -/

section
variable {q held : Nat} {m : Mach} {s : State}

theorem exec_encIndex (hq : q < 12) : exec (.encIndex ⟨q, held⟩) s = .next (s.onMach (opEncIndex q held)) :=
  onUnit_of (decide_eq_true hq) _ s

theorem opEncIndex_off (zen : m.on (R.FBK_CFG_ZEN q) = false) : opEncIndex q held m = m := by
  unfold opEncIndex
  simp only [zen, Bool.not_false, Bool.or_true, if_true]

/-- The channel takes the index. -/
def indexTaken (q held : Nat) (m : Mach) : Prop :=
  minEdge q m ≤ held ∧ ∀ p, (m.encOf q).lastZ = some p → p + 8 * minEdge q m ≤ 8 * m.now

theorem indexTaken_iff : indexTaken q held m ↔
    ¬((decide (held < minEdge q m) || !farEdge q (m.encOf q).lastZ (m.now * 8) m) = true) := by
  simp only [indexTaken, Bool.or_eq_true, decide_eq_true_eq, Bool.not_eq_true', not_or, not_lt, Bool.not_eq_false, farEdge_iff,
    Nat.mul_comm m.now 8]

/-- The channel with the index's stamp. -/
def indexSeen (q : Nat) (m : Mach) : Mach := m.onEnc q fun e => { e with lastZ := some (m.now * 8) }

theorem opEncIndex_eq (en : m.on (R.FBK_CFG_EN q) = true) (zen : m.on (R.FBK_CFG_ZEN q) = true) : opEncIndex q held m =
    if decide (held < minEdge q m) || !farEdge q (m.encOf q).lastZ (m.now * 8) m then glitch q m
    else axesIndex q (indexEdge q (indexSeen q m)) := by
  unfold opEncIndex
  simp only [en, zen, minEdge_eq]
  rfl

theorem each_idle_on {α : Type} {f : α → Mach → Mach} {m : Mach} (l : List α) (h : ∀ a ∈ l, f a m = m) : each l f m = m := by
  induction l with
  | nil => rfl
  | cons a l ih =>
    exact (congrArg (each l f) (h a List.mem_cons_self)).trans (ih fun b hb => h b (List.mem_cons_of_mem _ hb))

/-- An index reaches no axis that does not home. -/
theorem axesIndex_idle (rest : ∀ ax, ax < 20 → (m.axis ax).homing = .none) : axesIndex q m = m := by
  refine each_idle_on _ fun ax hax => if_neg ?_
  have := List.mem_range.1 hax
  simp [rest ax (by omega)]

/-- The first index since enable or standstill is captured and not compared. -/
def indexFirst (q : Nat) (m : Mach) : Mach :=
  (assertEvent (0x180 + q) ((m.setI (R.FBK_IDIFF q) (m.getI (R.FBK_CNT q) - m.getI (R.FBK_ICAP q))).setI (R.FBK_ICAP q)
    (m.getI (R.FBK_CNT q)))).onEnc q fun e => { e with idxFirst := false }

theorem indexEdge_first (first : (m.encOf q).idxFirst = true) (izero : m.on (R.FBK_CFG_IZERO q) = false) :
    indexEdge q m = indexFirst q m := by
  have checked : indexCheck q (assertEvent (0x180 + q) ((m.setI (R.FBK_IDIFF q) (m.getI (R.FBK_CNT q) - m.getI (R.FBK_ICAP q))).setI
      (R.FBK_ICAP q) (m.getI (R.FBK_CNT q)))) = indexFirst q m := by
    generalize hn : assertEvent (0x180 + q) ((m.setI (R.FBK_IDIFF q) (m.getI (R.FBK_CNT q) - m.getI (R.FBK_ICAP q))).setI
      (R.FBK_ICAP q) (m.getI (R.FBK_CNT q))) = n
    have first' : (n.encOf q).idxFirst = true := by
      rw [← hn, Mach.encOf, (ripples_assertEvent (trip := False) ..).enc]
      exact first
    have shape : indexFirst q m = n.setEnc q { n.encOf q with idxFirst := false } := by rw [← hn]; rfl
    rw [indexCheck, shape]
    refine if_pos ?_
    rw [first', Bool.or_true]
  have off : (indexFirst q m).on (R.FBK_CFG_IZERO q) = false := by
    refine (show (indexFirst q m).on _ = (assertEvent _ _).on _ from rfl).trans ((assertEvent_on ..).trans ?_)
    rw [Mach.setI, Mach.on_set_ne _ (by simp only [R.FBK_CFG_IZERO, R.FBK_ICAP]; omega),
      Mach.setI, Mach.on_set_ne _ (by simp only [R.FBK_CFG_IZERO, R.FBK_IDIFF]; omega)]
    exact izero
  unfold indexEdge
  simp only [checked, off]
  rfl

theorem indexFirst_leaves : (indexFirst q m).getI (R.FBK_ICAP q) = m.getI (R.FBK_CNT q) ∧
    (indexFirst q m).word (R.FBK_IDIFF q).key = m.word (R.FBK_CNT q).key - m.word (R.FBK_ICAP q).key ∧
    ((indexFirst q m).encOf q).idxFirst = false ∧ (indexFirst q m).get (R.FBK_STAT_IMISS q) = m.get (R.FBK_STAT_IMISS q) ∧
    (indexFirst q m).flt = m.flt ∧ (indexFirst q m).axes = m.axes := by
  have icap : (R.FBK_ICAP q).whole := ⟨rfl, rfl⟩
  have idiff : (R.FBK_IDIFF q).whole := ⟨rfl, rfl⟩
  have word (key : Nat) : (indexFirst q m).word key = ((m.setI (R.FBK_IDIFF q) (m.getI (R.FBK_CNT q) - m.getI (R.FBK_ICAP q))).setI
      (R.FBK_ICAP q) (m.getI (R.FBK_CNT q))).word key := assertEvent_word ..
  have enc : (indexFirst q m).encOf q = _ := tget_tput_same ..
  refine ⟨?_, ?_, congrArg Enc.idxFirst enc, get_of_word ((word _).trans ?_), assertEvent_flt .., ?_⟩
  · rw [getI_whole icap, word, word_setI_whole icap, getI_whole (cnt_whole q), BitVec.ofInt_toInt]
  · rw [word, Mach.setI, Mach.word_set_ne _ (by simp only [R.FBK_IDIFF, R.FBK_ICAP]; omega), word_setI_whole idiff,
      getI_whole (cnt_whole q), getI_whole icap, Int.sub_eq_add_neg,
      BitVec.ofInt_add, BitVec.ofInt_neg, BitVec.ofInt_toInt, BitVec.ofInt_toInt, BitVec.sub_eq_add_neg]
  · exact (Mach.word_set_ne _ (by simp only [R.FBK_STAT_IMISS, R.FBK_ICAP]; omega) _).trans
      (Mach.word_set_ne _ (by simp only [R.FBK_STAT_IMISS, R.FBK_IDIFF]; omega) _)
  · exact (ripples_assertEvent (trip := False) ..).axes

end

/-! ## SSI ports -/

section
variable {p data : Nat} {a b : Bool} {m : Mach} {s : State}

theorem exec_ssiFrameStart (hp : p < 4) : exec (.ssiFrameStart p a) s = .next (s.onMach (opSsiFrameStart p a)) :=
  onUnit_of (decide_eq_true hp) _ s

theorem exec_ssiFrameEnd {c : Bool} (hp : p < 4) :
    exec (.ssiFrameEnd p data a b c) s = .next (s.onMach (opSsiFrameEnd p data a b c)) := onUnit_of (decide_eq_true hp) _ s

theorem opSsiFrameStart_eq (en : m.on (R.FBK_SSI_CFG_EN p) = true) (idle : (m.ssiOf p).frame = none)
    (ready : (m.ssiOf p).ready.toNat ≤ m.now)
    (due : multipleIn (max 1 (m.get R.MOT_CTL_SPER)) 0 (m.ssiOf p).start.toNat m.now = true) :
    opSsiFrameStart p a m = m.setSsi p { m.ssiOf p with start := m.clk.tick, frame := some (!a) } := by
  refine if_pos ?_
  rw [en, idle, due]
  simpa using ready

/-- The last rising edge of a frame's clock, and the end of the monoflop time after it. -/
def ssiRise (p : Nat) (m : Mach) : Nat := (m.ssiOf p).start.toNat + ssiClocks (m.word (R.FBK_SSI_CFG_EN p).key) p
def ssiLimit (p : Nat) (m : Mach) : Nat := ssiRise p m + usTicks (m.get (R.FBK_SSI_MONO p))

theorem ssiLimit_eq (p : Nat) (m : Mach) : ssiRise p m + 100 * m.get (R.FBK_SSI_MONO p) = ssiLimit p m := by
  rw [ssiLimit, usTicks, Nat.mul_comm]

/-- The port with its frame over. -/
def ssiOver (p : Nat) (m : Mach) : Mach :=
  m.setSsi p { m.ssiOf p with frame := none, ready := BitVec.ofNat 64 (ssiLimit p m) }

theorem get_setSsi (x : Ssi) (f : FRef) : (m.setSsi p x).get f = m.get f := rfl

theorem on_setSsi (x : Ssi) (f : FRef) : (m.setSsi p x).on f = m.on f := rfl

theorem ssiOver_ssiOf : ((ssiOver p m).ssiOf p).frame = none ∧ ((ssiOver p m).ssiOf p).bad = (m.ssiOf p).bad := by
  have same : (ssiOver p m).ssiOf p = _ := tget_tput_same ..
  rw [same]
  exact ⟨rfl, rfl⟩

/-- A frame whose port was not ready is a bad one. -/
theorem opSsiFrameEnd_notReady {lvl : Bool} (frame : (m.ssiOf p).frame = some true) (late : ssiLimit p m ≤ m.now) :
    opSsiFrameEnd p data a b lvl m = ssiBad p (ssiOver p m) := by
  have rise : ssiRise p m ≤ ssiLimit p m := Nat.le_add_right ..
  have ended : (decide (m.now < ssiRise p m) || (!lvl && decide (m.now < ssiLimit p m))) = false := by
    rw [decide_eq_false (by omega), decide_eq_false (by omega), Bool.and_false]; rfl
  rw [opSsiFrameEnd, frame]
  exact (if_neg (Bool.eq_false_iff.1 ended)).trans (if_pos rfl)

/-- The value of a frame's data bits. -/
def ssiValue (p data : Nat) (m : Mach) : Nat :=
  let n := m.get (R.FBK_SSI_CFG_NBITS p) + 1
  if (ssiOver p m).on (R.FBK_SSI_CFG_GRAY p) then grayDecode n (data % 2 ^ n) else data % 2 ^ n

/-- The speed that a frame's value gives. -/
def ssiSpeed (p data : Nat) (m : Mach) : Int :=
  match (m.ssiOf p).last with
  | some (w, t) => (sint (m.get (R.FBK_SSI_CFG_NBITS p) + 1) (ssiValue p data m + 2 ^ (m.get (R.FBK_SSI_CFG_NBITS p) + 1) - w) *
      1600000000).tdiv (max 1 ((m.ssiOf p).start.toNat - t.toNat))
  | none => 0

/-- The port with a good frame's value. -/
def ssiTaken (p data : Nat) (m : Mach) : Mach :=
  let n := (((ssiOver p m).set (R.FBK_SSI_POS p) (ssiValue p data m)).setI (R.FBK_SSI_SPD p) (ssiSpeed p data m)).set
    (R.FBK_SSI_STAT_VALID p) 1
  n.setSsi p { n.ssiOf p with bad := 0, last := some (ssiValue p data m, (m.ssiOf p).start) }

theorem opSsiFrameEnd_good (frame : (m.ssiOf p).frame = some false) (rise : ssiRise p m ≤ m.now) (late : m.now ≤ ssiLimit p m)
    (err : m.on (R.FBK_SSI_CFG_ERRBIT p) = false) (par : m.on (R.FBK_SSI_CFG_PAR p) = false) :
    opSsiFrameEnd p data a b true m = ssiTaken p data m := by
  have ended : (decide (m.now < ssiRise p m) || (!true && decide (m.now < ssiLimit p m))) = false := by
    rw [decide_eq_false (by omega)]; rfl
  have good : (false || ((ssiOver p m).on (R.FBK_SSI_CFG_ERRBIT p) && a) || ((ssiOver p m).on (R.FBK_SSI_CFG_PAR p) &&
      (parity (m.get (R.FBK_SSI_CFG_NBITS p) + 1) data + b2n ((ssiOver p m).on (R.FBK_SSI_CFG_ERRBIT p) && a) + b2n b) % 2 == 1) ||
        !true || decide (ssiLimit p m < m.now)) = false := by
    rw [show (ssiOver p m).on (R.FBK_SSI_CFG_ERRBIT p) = false from err, show (ssiOver p m).on (R.FBK_SSI_CFG_PAR p) = false from par,
      decide_eq_false (by omega)]
    rfl
  rw [opSsiFrameEnd, frame]
  exact (if_neg (Bool.eq_false_iff.1 ended)).trans ((if_neg (Bool.eq_false_iff.1 good)).trans rfl)

/-- What a good frame leaves. -/
theorem ssiTaken_leaves (gray : m.on (R.FBK_SSI_CFG_GRAY p) = false) :
    (ssiTaken p data m).get (R.FBK_SSI_POS p) = data % 2 ^ (m.get (R.FBK_SSI_CFG_NBITS p) + 1) ∧
      (ssiTaken p data m).on (R.FBK_SSI_STAT_VALID p) = true ∧ ((ssiTaken p data m).ssiOf p).frame = none ∧
      (ssiTaken p data m).flt = m.flt := by
  have bits : m.get (R.FBK_SSI_CFG_NBITS p) < 2 ^ 5 := Nat.mod_lt _ (Nat.two_pow_pos _)
  have plain : (ssiOver p m).on (R.FBK_SSI_CFG_GRAY p) = false := (on_setSsi ..).trans gray
  have value : ssiValue p data m = data % 2 ^ (m.get (R.FBK_SSI_CFG_NBITS p) + 1) := if_neg (Bool.eq_false_iff.1 plain)
  have fits : ssiValue p data m < 2 ^ 32 := by
    rw [value]
    exact Nat.lt_of_lt_of_le (Nat.mod_lt _ (Nat.two_pow_pos _)) (Nat.pow_le_pow_right (by decide) (by omega))
  have same : (ssiTaken p data m).ssiOf p = _ := tget_tput_same ..
  refine ⟨?_, ?_, ?_, rfl⟩
  · rw [ssiTaken, get_setSsi, Mach.get_set_ne _ (f := R.FBK_SSI_STAT_VALID p) (by simp only [R.FBK_SSI_POS, R.FBK_SSI_STAT_VALID]; omega), Mach.setI,
      Mach.get_set_ne _ (f := R.FBK_SSI_SPD p) (by simp only [R.FBK_SSI_POS, R.FBK_SSI_SPD]; omega)]
    exact (Mach.get_set_val (f := R.FBK_SSI_POS p) rfl fits _).trans value
  · rw [ssiTaken, on_setSsi]
    exact Mach.on_set_flag (f := R.FBK_SSI_STAT_VALID p) rfl rfl true _
  · rw [same]
    exact (ssiOver_ssiOf (m := m)).1

/-- What a bad frame that does not make the third in a row leaves. -/
theorem ssiBad_leaves (count : (m.ssiOf p).bad ≠ 2) :
    (ssiBad p m).on (R.FBK_SSI_STAT_VALID p) = false ∧
      (ssiBad p m).get (R.FBK_SSI_STAT_ERRS p) = min 255 (m.get (R.FBK_SSI_STAT_ERRS p) + 1) ∧
      (ssiBad p m).get (R.FBK_SSI_POS p) = m.get (R.FBK_SSI_POS p) ∧ ((ssiBad p m).ssiOf p).frame = (m.ssiOf p).frame ∧
      (ssiBad p m).sheets = m.sheets := by
  have two : ((m.ssiOf p).bad == 2) = false := beq_eq_false_iff_ne.2 count
  unfold ssiBad
  extract_lets x m1 m2 m3
  rw [show (x.bad == 2) = false from two]
  show m3.on _ = _ ∧ m3.get _ = _ ∧ m3.get _ = _ ∧ (m3.ssiOf p).frame = _ ∧ m3.sheets = _
  have ripples : Ripples False m2 m3 := (ripples_assertEvent ..).trans (ripples_note ..)
  have still : ¬rippleKey (R.FBK_SSI_STAT_ERRS p).key := by
    simp only [rippleKey, R.FBK_SSI_STAT_ERRS, List.mem_cons, List.not_mem_nil, or_false]; omega
  have still' : ¬rippleKey (R.FBK_SSI_POS p).key := by
    simp only [rippleKey, R.FBK_SSI_POS, List.mem_cons, List.not_mem_nil, or_false]; omega
  have port : m2.ssiOf p = _ := tget_tput_same ..
  refine ⟨(ripples.on' (f := R.FBK_SSI_STAT_VALID p) still).trans ?_, (ripples.get' still).trans ?_, (ripples.get' still').trans ?_, ?_, ?_⟩
  · exact Mach.on_set_flag (f := R.FBK_SSI_STAT_VALID p) rfl rfl false _
  · exact (Mach.get_set_bits (f := R.FBK_SSI_STAT_VALID p) (g := R.FBK_SSI_STAT_ERRS p) rfl _ _).trans (get_incSat (m := m1) rfl)
  · exact (Mach.get_set_ne _ (f := R.FBK_SSI_STAT_VALID p) (by simp only [R.FBK_SSI_POS, R.FBK_SSI_STAT_VALID]; omega) _).trans
      (Mach.get_set_ne m1 (f := R.FBK_SSI_STAT_ERRS p) (by simp only [R.FBK_SSI_POS, R.FBK_SSI_STAT_ERRS]; omega) _)
  · have kept : m3.ssiOf p = m2.ssiOf p := (congrArg (tget ({} : Ssi) p) ripples.ssi :)
    rw [kept, port]
  · exact (note_sheets ..).trans (assertEvent_sheets ..)

end
end Sys2Proof.Machine
end

section
/-! PROOFS. O47: filtered inputs (R259, R260, R273), and the statement. -/

namespace Sys2Proof.Machine

/-! ## Transitions, chatter and filtered edges of an input -/

section
variable {i ch p held sub data : Nat} {lvl a b c : Bool} {v : Word} {q : Requester} {m n : Mach} {s : State}

theorem exec_snsRawTransition (hi : i < 48) : exec (.snsRawTransition i lvl) s = .next (s.onMach (opSnsRawTransition i lvl)) :=
  onUnit_of (decide_eq_true hi) _ s

theorem exec_chatterEnd (hi : i < 48) : exec (.chatterEnd i) s = .next (s.onMach (opChatterEnd i)) :=
  onUnit_of (decide_eq_true hi) _ s

theorem exec_sensorEdge (hi : i < 48) : exec (.sensorEdge i) s = .next (s.onMach (opSensorEdge i)) :=
  onUnit_of (decide_eq_true hi) _ s

theorem exec_snsCtlWrite (okr : okReq q = true) (lets : s.lets q false R.SNS_CTL_EN.key) :
    exec (.snsCtlWrite q v) s = .next (s.onMach (snsCtlWrite v)) :=
  acts_guarded (onUnit_of okr (opSnsCtlWrite q v) s) lets

/-- No axis homes, acts on a limit or stands stopped by one. -/
def axesRest (m : Mach) : Prop :=
  ∀ ax, ax < 20 → (m.axis ax).homing = .none ∧ m.on (R.MOT_CFG_LIMEN ax) = false ∧ m.on (R.MOT_STAT_LIMTRIP ax) = false

theorem axesRest_congr (axes : n.axes = m.axes) (regs : ∀ f : FRef, 0x190100 ≤ f.key → f.key < 0x191000 → n.get f = m.get f)
    (rest : axesRest m) : axesRest n := fun ax hax => by
  obtain ⟨homing, limen, limtrip⟩ := rest ax hax
  refine ⟨?_, ?_, ?_⟩
  · rw [Mach.axis, axes]; exact homing
  · rw [Mach.on, regs _ (by simp only [R.MOT_CFG_LIMEN]; omega) (by simp only [R.MOT_CFG_LIMEN]; omega)]
    exact limen
  · rw [Mach.on, regs _ (by simp only [R.MOT_STAT_LIMTRIP]; omega) (by simp only [R.MOT_STAT_LIMTRIP]; omega)]
    exact limtrip

/-- A filtered edge reaches no axis that rests. -/
theorem axesEdge_idle (e : SnsEdge) (rest : axesRest m) : axesEdge e m = m := by
  refine each_idle_on _ fun ax hax => ?_
  obtain ⟨homing, limen, limtrip⟩ := rest ax (List.mem_range.1 hax)
  simp [axisEdge, homing, limen, limtrip, when]

/-- Chatter ends no homing where none runs. -/
theorem axesChatter_idle (rest : axesRest m) : axesChatter i m = m := by
  refine each_idle_on _ fun ax hax => ?_
  obtain ⟨homing, -, -⟩ := rest ax (List.mem_range.1 hax)
  simp [homes, homing]

/-- The input with its new raw level. -/
def rawSeen (i : Nat) (lvl : Bool) (m : Mach) : Mach :=
  (m.set (R.SNS_STAT_RAW i) (b2n lvl)).setSns i { m.snsOf i with raw := m.clk.tick }

theorem rawSeen_sns : (rawSeen i lvl m).snsOf i = { m.snsOf i with raw := m.clk.tick } := tget_tput_same ..

theorem rawSeen_word {key : Nat} (ne : key ≠ (R.SNS_STAT_RAW i).key) : (rawSeen i lvl m).word key = m.word key :=
  Mach.word_set_ne m (f := R.SNS_STAT_RAW i) ne _

/-- The transitions of the input within the chatter window, with one more now. -/
def recentTrans (i : Nat) (m : Mach) : List Nat :=
  (m.now :: (m.snsOf i).trans).filter fun t => m.now < t + msTicks (max 1 (m.get (R.SNS_CFG_CHW i)))

/-- The input restarts its filter and counts the transition. -/
def rawCount (i : Nat) (lvl : Bool) (m : Mach) : Mach :=
  (rawSeen i lvl m).setSns i {
    tick := m.clk.tick, ppc := m.clk.ppc, raw := m.clk.tick
    trans := recentTrans i (rawSeen i lvl m), pos := axesPos (rawSeen i lvl m) }

theorem rawChange_eq (moved : m.on (R.SNS_STAT_RAW i) ≠ lvl) (en : m.on R.SNS_CTL_EN = true) : rawChange i lvl m =
    if decide (max 1 ((rawCount i lvl m).get (R.SNS_CFG_CHN i)) < (recentTrans i (rawSeen i lvl m)).length) &&
        !(rawCount i lvl m).on (R.SNS_STAT_CHAT i) then (chatterOn i (rawCount i lvl m), true)
    else (rawCount i lvl m, false) := by
  have en' : (rawSeen i lvl m).on R.SNS_CTL_EN = true :=
    (Mach.on_set_ne m (f := R.SNS_STAT_RAW i) (g := R.SNS_CTL_EN) (by simp only [R.SNS_CTL_EN, R.SNS_STAT_RAW]; omega) _).trans en
  rw [rawChange, if_neg (by rw [beq_iff_eq]; exact moved)]
  extract_lets src seen win trans count
  have counted : count = rawCount i lvl m := rfl
  have length : trans = recentTrans i (rawSeen i lvl m) := rfl
  rw [if_neg (by rw [show seen.on R.SNS_CTL_EN = true from en']; exact Bool.noConfusion), counted, length]

theorem recentTrans_seen : recentTrans i (rawSeen i lvl m) =
    (m.now :: (m.snsOf i).trans).filter fun t => m.now < t + msTicks (max 1 (m.get (R.SNS_CFG_CHW i))) := by
  have chw : (rawSeen i lvl m).get (R.SNS_CFG_CHW i) = m.get (R.SNS_CFG_CHW i) :=
    get_of_word (rawSeen_word (by simp only [R.SNS_CFG_CHW, R.SNS_STAT_RAW]; omega))
  rw [recentTrans, rawSeen_sns, chw]
  rfl

theorem recentTrans_length_le : (recentTrans i (rawSeen i lvl m)).length ≤ (m.snsOf i).trans.length + 1 := by
  rw [recentTrans_seen]
  exact List.length_filter_le ..

/-- All the transitions lie within the window. -/
theorem recentTrans_length (recent : ∀ u ∈ (m.snsOf i).trans, m.now < u + 100000 * max 1 (m.get (R.SNS_CFG_CHW i))) :
    (recentTrans i (rawSeen i lvl m)).length = (m.snsOf i).trans.length + 1 := by
  rw [recentTrans_seen, List.filter_eq_self.2]
  · rfl
  · intro u mem
    rw [decide_eq_true_eq, msTicks, Nat.mul_comm]
    rcases List.mem_cons.1 mem with rfl | old
    · omega
    · exact recent u old

theorem rawCount_get (f : FRef) (ne : f.key ≠ (R.SNS_STAT_RAW i).key) : (rawCount i lvl m).get f = m.get f :=
  get_of_word (rawSeen_word ne)

theorem rawCount_flags : (rawCount i lvl m).on (R.SNS_STAT_RAW i) = lvl ∧
    (rawCount i lvl m).on (R.SNS_STAT_CHAT i) = m.on (R.SNS_STAT_CHAT i) ∧
    (rawCount i lvl m).on (R.SNS_STAT_LVL i) = m.on (R.SNS_STAT_LVL i) :=
  ⟨Mach.on_set_flag (f := R.SNS_STAT_RAW i) rfl rfl lvl m,
    Mach.on_set_bits (f := R.SNS_STAT_RAW i) (g := R.SNS_STAT_CHAT i) rfl _ m,
    Mach.on_set_bits (f := R.SNS_STAT_RAW i) (g := R.SNS_STAT_LVL i) rfl _ m⟩

theorem rawCount_stamp : ((rawCount i lvl m).snsOf i).tick = m.clk.tick ∧ ((rawCount i lvl m).snsOf i).ppc = m.clk.ppc := by
  have same : (rawCount i lvl m).snsOf i = _ := tget_tput_same ..
  rw [same]
  exact ⟨rfl, rfl⟩

theorem opSnsRawTransition_eq (idle : filteredEdge i m = none) :
    opSnsRawTransition i lvl m = when (rawChange i lvl m).2 (axesChatter i) (rawChange i lvl m).1 := by
  have none_ : opSensorEdge i m = m := by rw [opSensorEdge, idle]
  rw [opSnsRawTransition, none_, ite_self]

/-- A transition that is not yet one too many. -/
theorem opSnsRawTransition_few (moved : m.on (R.SNS_STAT_RAW i) ≠ lvl) (en : m.on R.SNS_CTL_EN = true)
    (idle : filteredEdge i m = none) (few : (m.snsOf i).trans.length < max 1 (m.get (R.SNS_CFG_CHN i))) :
    opSnsRawTransition i lvl m = rawCount i lvl m := by
  have chn := rawCount_get (i := i) (m := m) (lvl := lvl) (R.SNS_CFG_CHN i) (by simp only [R.SNS_CFG_CHN, R.SNS_STAT_RAW]; omega)
  have calm : (decide (max 1 ((rawCount i lvl m).get (R.SNS_CFG_CHN i)) < (recentTrans i (rawSeen i lvl m)).length) &&
      !(rawCount i lvl m).on (R.SNS_STAT_CHAT i)) = false := by
    have := recentTrans_length_le (i := i) (lvl := lvl) (m := m)
    rw [chn, decide_eq_false (by omega), Bool.false_and]
  have change : rawChange i lvl m = (rawCount i lvl m, false) := (rawChange_eq moved en).trans (if_neg (Bool.eq_false_iff.1 calm))
  rw [opSnsRawTransition_eq idle, change]
  rfl

/-- The transition that is one too many within the window. -/
theorem opSnsRawTransition_chatter (moved : m.on (R.SNS_STAT_RAW i) ≠ lvl) (en : m.on R.SNS_CTL_EN = true)
    (idle : filteredEdge i m = none) (full : (m.snsOf i).trans.length = max 1 (m.get (R.SNS_CFG_CHN i)))
    (recent : ∀ u ∈ (m.snsOf i).trans, m.now < u + 100000 * max 1 (m.get (R.SNS_CFG_CHW i)))
    (quiet : m.on (R.SNS_STAT_CHAT i) = false) :
    opSnsRawTransition i lvl m = axesChatter i (chatterOn i (rawCount i lvl m)) := by
  have chn := rawCount_get (i := i) (m := m) (lvl := lvl) (R.SNS_CFG_CHN i) (by simp only [R.SNS_CFG_CHN, R.SNS_STAT_RAW]; omega)
  have many : (decide (max 1 ((rawCount i lvl m).get (R.SNS_CFG_CHN i)) < (recentTrans i (rawSeen i lvl m)).length) &&
      !(rawCount i lvl m).on (R.SNS_STAT_CHAT i)) = true := by
    rw [chn, recentTrans_length recent, rawCount_flags.2.1, quiet, decide_eq_true (by omega)]; rfl
  have change : rawChange i lvl m = (chatterOn i (rawCount i lvl m), true) := (rawChange_eq moved en).trans (if_pos many)
  rw [opSnsRawTransition_eq idle, change]
  rfl

theorem ripples_chatterOn : Ripples False (m.set (R.SNS_STAT_CHAT i) 1) (chatterOn i m) :=
  (ripples_assertEvent ..).trans (ripples_note ..)

theorem chatterOn_get {f : FRef} (quiet : quietKey f.key) : (chatterOn i m).get f = (m.set (R.SNS_STAT_CHAT i) 1).get f :=
  ((calm_note ..).get quiet).trans (get_of_word (assertEvent_word ..))

theorem snsStat_quiet : quietKey (0x1F0104 + 0x8 * i) := by
  simp only [quietKey]; omega

theorem chatterOn_flags : (chatterOn i m).on (R.SNS_STAT_CHAT i) = true ∧
    (chatterOn i m).on (R.SNS_STAT_RAW i) = m.on (R.SNS_STAT_RAW i) ∧ (chatterOn i m).sheets = m.sheets :=
  ⟨(congrArg (· == 1) (chatterOn_get (f := R.SNS_STAT_CHAT i) snsStat_quiet)).trans (Mach.on_set_flag (f := R.SNS_STAT_CHAT i) rfl rfl true m),
    (congrArg (· == 1) (chatterOn_get (f := R.SNS_STAT_RAW i) snsStat_quiet)).trans
      (Mach.on_set_bits (f := R.SNS_STAT_CHAT i) (g := R.SNS_STAT_RAW i) rfl _ m),
    (note_sheets ..).trans (assertEvent_sheets ..)⟩

theorem axesRest_chatterOn (rest : axesRest m) : axesRest (chatterOn i (rawCount i lvl m)) := by
  refine axesRest_congr (m := m) ripples_chatterOn.axes (fun f lo hi => ?_) rest
  rw [chatterOn_get (by simp only [quietKey]; omega)]
  exact (Mach.get_set_ne _ (f := R.SNS_STAT_CHAT i) (by simp only [R.SNS_STAT_CHAT]; omega) _).trans
    (rawCount_get f (by simp only [R.SNS_STAT_RAW]; omega))

/-- A quiet input ends its chatter. -/
theorem opChatterEnd_eq (chat : m.on (R.SNS_STAT_CHAT i) = true)
    (quiet : (m.snsOf i).raw.toNat + 100000 * max 1 (m.get (R.SNS_CFG_CHW i)) ≤ m.now) :
    opChatterEnd i m = m.set (R.SNS_STAT_CHAT i) 0 := by
  refine if_pos ?_
  rw [chat, msTicks, Nat.mul_comm, decide_eq_true quiet]
  rfl

/-- A filtered edge has the input's level, and stores it. -/
theorem filteredEdge_some {e : SnsEdge} (h : filteredEdge i m = some (e, n)) :
    e.lvl = snsInput i m ∧ n = m.set (R.SNS_STAT_LVL i) (b2n (snsInput i m)) := by
  rw [filteredEdge] at h
  split at h
  · cases h; exact ⟨rfl, rfl⟩
  · cases h

theorem opSensorEdge_some {e : SnsEdge} (h : filteredEdge i m = some (e, n)) :
    opSensorEdge i m = axesEdge e (if n.on R.SLU_CTL_EN then watchesEdge e n else n) := by
  rw [opSensorEdge, h]

/-- An edge that neither a watch nor an axis takes. -/
theorem opSensorEdge_idle {e : SnsEdge} (h : filteredEdge i m = some (e, n)) (off : m.on R.SLU_CTL_EN = false)
    (rest : axesRest m) : opSensorEdge i m = n := by
  obtain ⟨-, stored⟩ := filteredEdge_some h
  have word {key : Nat} (ne : key ≠ (R.SNS_STAT_LVL i).key) : n.word key = m.word key := by
    rw [stored]; exact Mach.word_set_ne m (f := R.SNS_STAT_LVL i) ne _
  have off' : n.on R.SLU_CTL_EN = false := by
    rw [Mach.on, get_of_word (word (by simp only [R.SLU_CTL_EN, R.SNS_STAT_LVL]; omega))]
    exact off
  have rest' : axesRest n :=
    axesRest_congr (by rw [stored]; rfl) (fun f _ _ => get_of_word (word (by simp only [R.SNS_STAT_LVL]; omega))) rest
  rw [opSensorEdge_some h, off']
  exact axesEdge_idle e rest'

/-! ## Filtering starts afresh -/

/-- An input starts its filter. -/
def snsAnew (i : Nat) (m : Mach) : Mach :=
  m.setSns i { m.snsOf i with tick := m.clk.tick, ppc := m.clk.ppc, trans := [], pos := axesPos m }

theorem snsCtlWrite_eq (was : m.on R.SNS_CTL_EN = false) (now : (storeFields R.SNS_CTL_EN.key v m).on R.SNS_CTL_EN = true) :
    snsCtlWrite v m = each (List.range 48) snsAnew (storeFields R.SNS_CTL_EN.key v m) := by
  refine if_pos ?_
  rw [was, now]
  rfl

/-- What starting the filters shows of an input. -/
def snsShown (i : Nat) (m : Mach) : Clk × Tick × Tick × Ppc × List Nat :=
  (m.clk, (m.snsOf i).raw, (m.snsOf i).tick, (m.snsOf i).ppc, (m.snsOf i).trans)

theorem each_snsAnew (hi : i < 48) : snsShown i (each (List.range 48) snsAnew m) =
    (m.clk, (m.snsOf i).raw, m.clk.tick, m.clk.ppc, []) := by
  refine each_at (p := snsShown i) (u := snsShown i m) List.nodup_range (List.mem_range.2 hi) (fun n h => ?_) (fun k _ ne n => ?_) m rfl
  · obtain ⟨clk, raw⟩ := Prod.mk.inj h
    have raw := (Prod.mk.inj raw).1
    have same : (snsAnew i n).snsOf i = _ := tget_tput_same ..
    rw [snsShown, same, ← clk, ← raw]
    rfl
  · have same : (snsAnew k n).snsOf i = n.snsOf i := tget_tput_ne _ _ ne.symm _
    rw [snsShown, same]
    rfl

theorem snsCtlWrite_leaves (hi : i < 48) (pend : m.pend = []) (was : m.on R.SNS_CTL_EN = false) (one : R.SNS_CTL_EN.of v = 1) :
    (snsCtlWrite v m).on R.SNS_CTL_EN = true ∧ ((snsCtlWrite v m).snsOf i).tick = m.clk.tick ∧
      ((snsCtlWrite v m).snsOf i).ppc = m.clk.ppc ∧ ((snsCtlWrite v m).snsOf i).trans = [] ∧
      ((snsCtlWrite v m).snsOf i).raw = (m.snsOf i).raw ∧ (snsCtlWrite v m).sheets = m.sheets := by
  have en : (storeFields R.SNS_CTL_EN.key v m).on R.SNS_CTL_EN = true :=
    decide_eq_true ((get_storeFields_idle (f := R.SNS_CTL_EN) (by decide) (fun _ _ => fldAcc_plain (by decide) ..) was pend).trans one)
  have clk := storeFields_clk R.SNS_CTL_EN.key v m
  have sns : (storeFields R.SNS_CTL_EN.key v m).snsOf i = m.snsOf i := by
    rcases storeFields_idle_eq (key := R.SNS_CTL_EN.key) (w := v) (m := m) was pend with e | ⟨w, e⟩
    · rw [e]
    · rw [e]; rfl
  have sheets := storeFields_sheets R.SNS_CTL_EN.key v m
  rw [snsCtlWrite_eq was en]
  generalize storeFields R.SNS_CTL_EN.key v m = n at *
  have shown := each_snsAnew (m := n) hi
  rw [snsShown, clk, sns] at shown
  simp only [Prod.mk.injEq] at shown
  obtain ⟨-, raw, tick, ppc, trans⟩ := shown
  exact ⟨(each_keeps (f := snsAnew) (p := fun m => m.on R.SNS_CTL_EN) _ (fun _ _ _ => rfl) n).trans en, tick, ppc, trans, raw,
    (each_keeps (f := snsAnew) (p := Mach.sheets) _ (fun _ _ _ => rfl) n).trans sheets⟩

end

/-! ## The statement -/

section
variable {q ch p i held sub data : Nat} {a b lvl : Bool} {m : Mach} {s : State}

/-- A valid single edge counts. -/
theorem opEncEdge_counts (hch : ch < 12) (hs : sub < 8) (en : m.on (R.FBK_CFG_EN ch) = true) (valid : edgeTaken ch held sub m)
    (single : ((m.encOf ch).a != a) ≠ ((m.encOf ch).b != b)) (free : m.on (R.FBK_CFG_SLEN ch) = false)
    (mode : m.on (R.FBK_CFG_MODE ch) = false) (idle : homingOn ch m = false) :
    Counts ch ((if (m.encOf ch).a != a then a != b else a == b) == m.on (R.FBK_CFG_INV ch)) (edgeSeen ch a b sub m)
      (opEncEdge ch a b held sub m) := by
  have changed : (m.encOf ch).a ≠ a ∨ (m.encOf ch).b ≠ b := by
    rcases eq_or_ne (m.encOf ch).a a with ea | ea
    · refine .inr fun eb => single ?_
      rw [ea, eb, bne_self_eq_false, bne_self_eq_false]
    · exact .inl ea
  have notBoth : ¬(((m.encOf ch).a != a && (m.encOf ch).b != b) = true) := by
    rw [Bool.and_eq_true]
    rintro ⟨ea, eb⟩
    exact single (ea.trans eb.symm)
  rw [opEncEdge_eq en changed, if_neg ((edgeTaken_iff hs).1 valid), if_neg notBoth]
  exact countEdge_counts hch _ _ free mode idle

/-- A rejected edge is counted as a glitch. -/
theorem opEncEdge_glitches (hs : sub < 8) (en : m.on (R.FBK_CFG_EN ch) = true)
    (changed : (m.encOf ch).a ≠ a ∨ (m.encOf ch).b ≠ b)
    (bad : ¬edgeTaken ch held sub m ∨ ((m.encOf ch).a ≠ a ∧ (m.encOf ch).b ≠ b)) :
    opEncEdge ch a b held sub m = glitch ch m ∨ opEncEdge ch a b held sub m = glitch ch (edgeSeen ch a b sub m) := by
  rw [opEncEdge_eq en changed]
  split
  · exact .inl rfl
  · next taken =>
    obtain ⟨ea, eb⟩ := bad.resolve_left (not_not.2 ((edgeTaken_iff hs).2 taken))
    exact .inr (if_pos (by rw [bne_iff_ne.2 ea, bne_iff_ne.2 eb]; rfl))

theorem cnt_glitch (q : Nat) : (R.FBK_CNT q).key ≠ (R.FBK_STAT_GLITCH q).key := by
  simp only [R.FBK_CNT, R.FBK_STAT_GLITCH]; omega

theorem icap_glitch (q : Nat) : (R.FBK_ICAP q).key ≠ (R.FBK_STAT_GLITCH q).key := by
  simp only [R.FBK_ICAP, R.FBK_STAT_GLITCH]; omega

end

/-- Settles O47: the channel, port or input is followed through each event, to the registers that show it. -/
theorem feedbackChannels : Obligations.FeedbackChannels := by
  unfold Obligations.FeedbackChannels
  intro q ch p i held sub data a b lvl v s okr hch hp hi hs
  refine ⟨?_, ?_, ?_, ?_, ?_, ?_, ?_, ?_, ?_, ?_, ?_, ?_, ?_, ?_, ?_, ?_⟩
  · intro en valid single free mode idle
    obtain ⟨cnt, rpos, dir, still, ea, eb, sheets, flt⟩ := opEncEdge_counts hch hs en valid single free mode idle
    refine ⟨_, exec_encEdge hch hs, cnt.trans ?_, rpos, dir.trans ?_, still, ea.trans (edgeSeen_encOf sub).1,
      eb.trans (edgeSeen_encOf sub).2, sheets, flt, rfl⟩
    · rcases Bool.eq_false_or_eq_true (if (s.mach.encOf ch).a != a then a != b else a == b) with l | l <;>
        rcases Bool.eq_false_or_eq_true (s.mach.on (R.FBK_CFG_INV ch)) with r | r <;> rw [l, r] <;> rfl
    · exact (Bool.not_not _).symm.trans rfl
  · intro en moved bad off
    rcases opEncEdge_glitches hs en moved bad with e | e
    · obtain ⟨count, flt, others⟩ := glitch_leaves (q := ch) (m := s.mach) off
      exact ⟨_, exec_encEdge hch hs, by rw [State.onMach_mach, e]; exact ⟨count, others _ (cnt_glitch ch), flt⟩⟩
    · obtain ⟨count, flt, others⟩ := glitch_leaves (q := ch) (m := edgeSeen ch a b sub s.mach) off
      exact ⟨_, exec_encEdge hch hs, by rw [State.onMach_mach, e]; exact ⟨count, others _ (cnt_glitch ch), flt⟩⟩
  · intro en meth still long
    refine ⟨_, (exec_encStandstill hch).trans (congrArg _ (onMach_congr (g := fun m => _) (opEncStandstill_eq en meth still long))), ?_⟩
    have same : ((((s.mach.set (R.FBK_SPD ch) 0).set (R.FBK_STAT_STILL ch) 1).setEnc ch
      { s.mach.encOf ch with
        dirKnown := false, edges := [], idxFirst := true
        still := some (s.mach.now, (s.mach.encOf ch).edges, (s.mach.encOf ch).dirKnown, (s.mach.encOf ch).idxFirst) }).encOf ch) = _ :=
      tget_tput_same ..
    refine ⟨?_, ?_, congrArg Enc.idxFirst same, congrArg Enc.dirKnown same, ?_, rfl, rfl⟩
    · rw [State.onMach_mach, get_setEnc, Mach.get_set_ne _ (by simp only [R.FBK_SPD, R.FBK_STAT_STILL]; omega)]
      exact Mach.get_set_val (f := R.FBK_SPD ch) rfl (Nat.two_pow_pos _) _
    · rw [State.onMach_mach, Mach.on, get_setEnc]
      exact Mach.on_set_flag (f := R.FBK_STAT_STILL ch) rfl rfl true _
    · rw [State.onMach_mach, word_setEnc, Mach.word_set_ne _ (by simp only [R.FBK_CNT, R.FBK_STAT_STILL]; omega),
        Mach.word_set_ne _ (by simp only [R.FBK_CNT, R.FBK_SPD]; omega)]
  · intro win d en due meth
    obtain ⟨spd, enc, sheets⟩ := opSpeedWindowEnd_shows en due meth
    refine ⟨_, exec_speedWindowEnd hch, spd, ?_, ?_, sheets, rfl⟩
    · exact (congrArg Enc.winAt enc).trans windowAnew_encOf.1
    · exact (congrArg Enc.winCnt enc).trans windowAnew_encOf.2
  · intro en due meth
    obtain ⟨enc, judged, sheets⟩ := opSpeedWindowEnd_judges en due meth
    exact ⟨_, exec_speedWindowEnd hch, (congrArg Enc.winAt enc).trans windowAnew_encOf.1,
      (congrArg Enc.winCnt enc).trans windowAnew_encOf.2, judged, sheets, rfl⟩
  · intro lets
    obtain ⟨hyst, rpos⟩ := fbkCfgWrite_leaves (q := ch) (m := s.mach) v
    exact ⟨_, exec_encModeWrite okr hch lets, hyst, rpos⟩
  · intro zen
    exact (exec_encIndex hch).trans (congrArg _ (onMach_congr (g := id) (opEncIndex_off zen)))
  · intro en zen bad off
    have e : opEncIndex ch held s.mach = glitch ch s.mach :=
      (opEncIndex_eq en zen).trans (if_pos (not_not.1 (mt indexTaken_iff.2 bad)))
    obtain ⟨count, -, others⟩ := glitch_leaves off
    exact ⟨_, exec_encIndex hch, by rw [State.onMach_mach, e]; exact ⟨count, others _ (icap_glitch ch)⟩⟩
  · intro en zen marked first izero rest
    have seen : ((indexSeen ch s.mach).encOf ch).idxFirst = true := by
      have same : (indexSeen ch s.mach).encOf ch = _ := tget_tput_same ..
      rw [same]
      exact first
    obtain ⟨icap, idiff, idxFirst, imiss, flt, axes⟩ := indexFirst_leaves (q := ch) (m := indexSeen ch s.mach)
    have e : opEncIndex ch held s.mach = indexFirst ch (indexSeen ch s.mach) := by
      rw [opEncIndex_eq en zen, if_neg (indexTaken_iff.1 marked), indexEdge_first seen izero]
      refine axesIndex_idle fun ax hax => ?_
      rw [Mach.axis, axes]
      exact (rest ax hax).1
    exact ⟨_, (exec_encIndex hch).trans (congrArg _ (onMach_congr (g := fun m => indexFirst ch (indexSeen ch m)) e)),
      icap, idiff, idxFirst, imiss, flt⟩
  · intro en idle ready due
    have same : ((s.mach.setSsi p { s.mach.ssiOf p with start := s.mach.clk.tick, frame := some (!a) }).ssiOf p) = _ := tget_tput_same ..
    exact ⟨_, (exec_ssiFrameStart hp).trans (congrArg _ (onMach_congr (g := fun _ => _) (opSsiFrameStart_eq en idle ready due))),
      congrArg Ssi.frame same, congrArg Ssi.start same, rfl⟩
  · intro frame rise late err par gray
    have late : s.mach.now ≤ ssiLimit p s.mach := late.trans_eq (ssiLimit_eq p s.mach)
    exact ⟨_, (exec_ssiFrameEnd hp).trans (congrArg _ (onMach_congr (g := ssiTaken p data)
      (opSsiFrameEnd_good frame rise late err par))), ssiTaken_leaves gray⟩
  · intro frame late count
    have late : ssiLimit p s.mach ≤ s.mach.now := (ssiLimit_eq p s.mach).symm.trans_le late
    obtain ⟨ended, bad⟩ := ssiOver_ssiOf (p := p) (m := s.mach)
    obtain ⟨valid, errs, pos, frame', sheets⟩ := ssiBad_leaves (p := p) (m := ssiOver p s.mach) (by rw [bad]; exact count)
    exact ⟨_, (exec_ssiFrameEnd hp).trans (congrArg _ (onMach_congr (g := fun m => ssiBad p (ssiOver p m))
      (opSsiFrameEnd_notReady frame late))), valid, errs, pos, frame'.trans ended, sheets⟩
  · intro en moved idle
    refine ⟨fun few => ?_, fun full recent quiet rest => ?_⟩
    · exact ⟨_, (exec_snsRawTransition hi).trans (congrArg _ (onMach_congr (g := rawCount i lvl)
        (opSnsRawTransition_few moved en idle few))), rawCount_flags.1, rawCount_stamp.1, rawCount_stamp.2, rawCount_flags.2.2, rfl, rfl⟩
    · have e : opSnsRawTransition i lvl s.mach = chatterOn i (rawCount i lvl s.mach) :=
        (opSnsRawTransition_chatter moved en idle full recent quiet).trans (axesChatter_idle (axesRest_chatterOn rest))
      obtain ⟨chat, raw, sheets⟩ := chatterOn_flags (i := i) (m := rawCount i lvl s.mach)
      exact ⟨_, (exec_snsRawTransition hi).trans (congrArg _ (onMach_congr (g := fun m => chatterOn i (rawCount i lvl m)) e)),
        raw.trans rawCount_flags.1, chat, sheets⟩
  · intro chat quiet
    exact ⟨_, (exec_chatterEnd hi).trans (congrArg _ (onMach_congr (g := fun m => m.set (R.SNS_STAT_CHAT i) 0) (opChatterEnd_eq chat quiet))),
      Mach.on_set_flag (f := R.SNS_STAT_CHAT i) rfl rfl false _,
      Mach.on_set_bits (f := R.SNS_STAT_CHAT i) (g := R.SNS_STAT_LVL i) rfl _ _, rfl, rfl⟩
  · intro e m' edge
    obtain ⟨level, stored⟩ := filteredEdge_some edge
    have shown : m'.on (R.SNS_STAT_LVL i) = snsInput i s.mach := by
      rw [stored]
      exact Mach.on_set_flag (f := R.SNS_STAT_LVL i) rfl rfl _ _
    refine ⟨level, shown.trans level.symm, (exec_sensorEdge hi).trans (congrArg _ (onMach_congr (opSensorEdge_some edge))), fun off rest => ?_⟩
    refine ⟨_, (exec_sensorEdge hi).trans (congrArg _ (onMach_congr (g := fun _ => m') (opSensorEdge_idle edge off rest))), shown, ?_, ?_, rfl⟩
    · rw [State.onMach_mach, stored]; rfl
    · rw [State.onMach_mach, stored]; rfl
  · intro lets pend was one
    exact ⟨_, exec_snsCtlWrite okr lets, snsCtlWrite_leaves hi pend was one⟩

end Sys2Proof.Machine
end

section
/-! PROOFS. O51: the DRAM controller, the endpoint and the host's window on DRAM (R307-R314, R331-R334). -/

namespace Sys2Proof.Machine

/-! ## The choice of the next request -/

section
variable {m : Mach} {x : DramChan} {i : Nat} {r : DramReq}

/-- A video-class request has waited for VCAP cycles. -/
def overdueReq (m : Mach) (r : DramReq) : Bool :=
  r.video && decide (m.get R.DRC_SCHED_VCAP ≤ Config.dramCycles (m.get R.DRC_CFG_RATE) (m.now - r.at_.toNat))

/-- The first of a list that meets a test, by its place. -/
theorem findIdx_meets {α : Type} {p : α → Bool} {l : List α} {i : Nat} {a : α} (h : l.findIdx? p = some i) (at_ : l[i]? = some a) :
    p a = true := by
  obtain ⟨lt, meets, -⟩ := List.findIdx?_eq_some_iff_getElem.1 h
  obtain ⟨_, e⟩ := List.getElem?_eq_some_iff.1 at_
  rwa [← e]

theorem findIdx_none {α : Type} {p : α → Bool} {l : List α} : l.findIdx? p = none ↔ l.any p = false := by
  rw [List.findIdx?_eq_none_iff, List.any_eq_false]
  simp only [Bool.not_eq_true]

theorem findIdx_some_of_any {α : Type} {p : α → Bool} {l : List α} (h : l.any p = true) : ∃ i, l.findIdx? p = some i := by
  cases found : l.findIdx? p with
  | none => exact absurd h (by rw [findIdx_none.1 found]; exact Bool.noConfusion)
  | some i => exact ⟨i, rfl⟩

theorem nextRequest_eq : nextRequest m x = ((x.queue.findIdx? (overdueReq m)).getD
    ((if x.hits < m.get R.DRC_SCHED_RHMAX then x.queue.findIdx? x.hit else none).getD 0)) := by
  show (match x.queue.findIdx? (overdueReq m) with | some i => i | none => _) = _
  cases x.queue.findIdx? (overdueReq m) with
  | some i => rfl
  | none =>
    show (match (if x.hits < m.get R.DRC_SCHED_RHMAX then x.queue.findIdx? x.hit else none) with | some i => i | none => 0) = _
    cases (if x.hits < m.get R.DRC_SCHED_RHMAX then x.queue.findIdx? x.hit else none) <;> rfl

/-- An overdue request goes first. -/
theorem nextRequest_overdue (at_ : x.queue[nextRequest m x]? = some r) (any : x.queue.any (overdueReq m) = true) :
    overdueReq m r = true := by
  obtain ⟨i, found⟩ := findIdx_some_of_any any
  rw [nextRequest_eq, found] at at_
  exact findIdx_meets found at_

/-- A row hit goes next. -/
theorem nextRequest_hit (at_ : x.queue[nextRequest m x]? = some r) (none_ : x.queue.any (overdueReq m) = false)
    (few : x.hits < m.get R.DRC_SCHED_RHMAX) (any : x.queue.any x.hit = true) : x.hit r = true := by
  obtain ⟨i, found⟩ := findIdx_some_of_any any
  rw [nextRequest_eq, findIdx_none.2 none_, if_pos few, found] at at_
  exact findIdx_meets found at_

/-- The oldest goes when RHMAX have gone ahead of it. -/
theorem nextRequest_oldest (none_ : x.queue.any (overdueReq m) = false) (many : m.get R.DRC_SCHED_RHMAX ≤ x.hits) :
    nextRequest m x = 0 := by
  rw [nextRequest_eq, findIdx_none.2 none_, if_neg (by omega)]
  rfl

theorem serve_eq (at_ : x.queue[i]? = some r) : x.serve i =
    { queue := x.queue.eraseIdx i, rows := if r.opn then tput r.bank r.row x.rows else tdel r.bank x.rows,
      hits := if x.hit r && i != 0 then x.hits + 1 else 0 } := by
  rw [DramChan.serve, at_]

theorem serve_leaves (at_ : x.queue[i]? = some r) : (x.serve i).queue.length + 1 = x.queue.length ∧
    (r.opn = true → tfind r.bank (x.serve i).rows = some r.row) ∧
    (r.opn = false → (x.rows.map (·.1)).Nodup → tfind r.bank (x.serve i).rows = none) := by
  obtain ⟨lt, -⟩ := List.getElem?_eq_some_iff.1 at_
  rw [serve_eq at_]
  refine ⟨?_, fun opn => ?_, fun opn nodup => ?_⟩
  · show (x.queue.eraseIdx i).length + 1 = _
    rw [List.length_eraseIdx_of_lt lt]
    omega
  · show tfind r.bank (if r.opn then _ else _) = _
    rw [if_pos opn]
    exact tfind_tput_same ..
  · show tfind r.bank (if r.opn then _ else _) = _
    rw [if_neg (Bool.eq_false_iff.1 opn)]
    exact tfind_tdel_same nodup

end

/-! ## The DRAM controller -/

section
variable {m : Mach} {s : State} {q : Requester} {v : Word} {video : Bool} {derate drift : Nat}

theorem exec_dramEnable (okr : okReq q = true) (lets : s.lets q false R.DRC_CFG_EN.key) :
    exec (.dramEnable q v) s = .next (s.onMach (drcCfgWrite (withBits v 0 0 1))) :=
  acts_guarded (onUnit_of okr (opDramEnable q v) s) lets

theorem exec_dramTrainingDone (ok : Bool) : exec (.dramTrainingDone ok) s = .next (s.onMach (opDramTrainingDone ok)) :=
  onUnit_of rfl _ s

theorem exec_refreshDue : exec (.refreshDue video) s = .next (s.onMach (opRefreshDue video)) := onUnit_of rfl _ s

theorem exec_mr4Poll (h : derate < 4) : exec (.mr4Poll derate) s = .next (s.onMach (opMr4Poll derate)) :=
  onUnit_of (decide_eq_true h) _ s

theorem exec_dqsOscCheck : exec (.dqsOscCheck drift) s = .next (s.onMach (opDqsOscCheck drift)) := onUnit_of rfl _ s

theorem exec_retrainStart : exec .retrainStart s = .next (s.onMach opRetrainStart) := onUnit_of rfl _ s

theorem exec_retrainLate : exec .retrainLate s = .next (s.onMach opRetrainLate) := onUnit_of rfl _ s

theorem exec_retrainDone : exec .retrainDone s = .next (s.onMach opRetrainDone) := onUnit_of rfl _ s

/-- The controller can run as a write of DRC_CFG asks. -/
def drcFits (v : Word) (m : Mach) : Prop :=
  m.on (R.CLK_SYN_STAT_LOCK 1) = true ∧ rateOf (R.DRC_CFG_RATE.of v) ≠ 0 ∧ R.DRC_CFG_DENS.of v ≠ 3 ∧
    rateFits m (rateOf (R.DRC_CFG_RATE.of v)) = true

theorem drcFits_iff : drcFits v m ↔ (m.on (R.CLK_SYN_STAT_LOCK 1) && rateOf (R.DRC_CFG_RATE.of v) != 0 &&
    R.DRC_CFG_DENS.of v != 3 && rateFits m (rateOf (R.DRC_CFG_RATE.of v))) = true := by
  simp only [drcFits, Bool.and_eq_true, bne_iff_ne, ne_eq, and_assoc]

/-- The controller that a write enables. -/
def drcStarted (v : Word) (m : Mach) : Mach :=
  let n := (storeFields R.DRC_CFG_EN.key (withBits v 0 0 1) m).set R.DRC_STAT_TRAINED 0
  { n with dram := { n.dram with refAt := n.now * 40 } }

theorem get_withDram (d : Dram) (f : FRef) : ({ m with dram := d } : Mach).get f = m.get f := rfl

theorem drcCfgWrite_eq (off : m.on R.DRC_CFG_EN = false) : drcCfgWrite (withBits v 0 0 1) m =
    if m.on (R.CLK_SYN_STAT_LOCK 1) && rateOf (R.DRC_CFG_RATE.of v) != 0 && R.DRC_CFG_DENS.of v != 3 &&
      rateFits m (rateOf (R.DRC_CFG_RATE.of v)) then drcStarted v m
    else ignored R.DRC_CFG_EN.key m := by
  have one : R.DRC_CFG_EN.of (withBits v 0 0 1) = 1 := bitsOf_withBits_same v 1 (by decide) (by decide)
  have rate : R.DRC_CFG_RATE.of (withBits v 0 0 1) = R.DRC_CFG_RATE.of v := bitsOf_withBits_above v 1 (by decide) (by decide) (by decide)
  have dens : R.DRC_CFG_DENS.of (withBits v 0 0 1) = R.DRC_CFG_DENS.of v := bitsOf_withBits_above v 1 (by decide) (by decide) (by decide)
  unfold drcCfgWrite
  rw [rate, dens, off, one]
  rfl

theorem drcStarted_leaves (off : m.on R.DRC_CFG_EN = false) (pend : m.pend = []) : (drcStarted v m).on R.DRC_CFG_EN = true ∧
    (drcStarted v m).get R.DRC_CFG_RATE = R.DRC_CFG_RATE.of v ∧ (drcStarted v m).on R.DRC_STAT_TRAINED = false := by
  have one : R.DRC_CFG_EN.of (withBits v 0 0 1) = 1 := bitsOf_withBits_same v 1 (by decide) (by decide)
  have rate : R.DRC_CFG_RATE.of (withBits v 0 0 1) = R.DRC_CFG_RATE.of v := bitsOf_withBits_above v 1 (by decide) (by decide) (by decide)
  have plain (g : Fld) (m : Mach) : fldAcc R.DRC_CFG_EN.key g m = g.acc := fldAcc_plain (by decide) g m
  refine ⟨?_, ?_, ?_⟩
  · rw [drcStarted, Mach.on, get_withDram, Mach.get_set_ne _ (by decide),
      get_storeFields_idle (f := R.DRC_CFG_EN) (by decide) plain off pend, one]
    rfl
  · rw [drcStarted, get_withDram, Mach.get_set_ne _ (by decide)]
    exact (get_storeFields_idle (f := R.DRC_CFG_RATE) (by decide) plain off pend).trans rate
  · rw [drcStarted, Mach.on, get_withDram]
    exact Mach.on_set_flag (f := R.DRC_STAT_TRAINED) rfl rfl false _

theorem on_withDram (d : Dram) (f : FRef) : ({ m with dram := d } : Mach).on f = m.on f := rfl

/-! ### Training -/

/-- The controller once trained. -/
def drcTrained (m : Mach) : Mach :=
  let n := (m.set R.DRC_STAT_TRAINED 1).set R.DRC_STAT_SELFREF 0
  { n with dram := { n.dram with oscAt := n.clk.tick, mr4At := n.clk.tick, retrain := false } }

theorem opDramTrainingDone_eq (en : m.on R.DRC_CFG_EN = true) (un : m.on R.DRC_STAT_TRAINED = false)
    (lock : m.on (R.CLK_SYN_STAT_LOCK 1) = true) (up : domUp 9 m = true) (ok : Bool) : opDramTrainingDone ok m =
      if ok then drcTrained m else raise 0x0A0 0x03 3 (m.set R.DRC_CFG_EN 0) := by
  refine if_pos ?_
  rw [en, un, lock, up]; rfl

theorem drcTrained_leaves : (drcTrained m).on R.DRC_STAT_TRAINED = true ∧ (drcTrained m).on R.DRC_STAT_SELFREF = false ∧
    dramHeld (drcTrained m) = false := by
  have trained : (drcTrained m).on R.DRC_STAT_TRAINED = true := by
    rw [drcTrained, on_withDram, Mach.on_set_bits (f := R.DRC_STAT_SELFREF) (g := R.DRC_STAT_TRAINED) rfl]
    exact Mach.on_set_flag (f := R.DRC_STAT_TRAINED) rfl rfl true _
  have selfref : (drcTrained m).on R.DRC_STAT_SELFREF = false := by
    rw [drcTrained, on_withDram]
    exact Mach.on_set_flag (f := R.DRC_STAT_SELFREF) rfl rfl false _
  refine ⟨trained, selfref, ?_⟩
  rw [dramHeld, trained, selfref, Bool.not_true, Bool.and_false]
  rfl

theorem on_failedTraining : (raise 0x0A0 0x03 3 (m.set R.DRC_CFG_EN 0)).on R.DRC_CFG_EN = false :=
  ((ripples_raise (by decide)).on' (f := R.DRC_CFG_EN) (by simp only [rippleKey, R.DRC_CFG_EN]; decide)).trans
    (Mach.on_set_flag (f := R.DRC_CFG_EN) rfl rfl false _)

/-! ### Refresh, polls and retrains -/

/-- The next interval begins. -/
def refreshNext (m : Mach) : Mach := { m with dram := { m.dram with refAt := m.dram.refAt + refreshEvery m } }

theorem opRefreshDue_eq (en : m.on R.DRC_CFG_EN = true) (sr : m.on R.DRC_STAT_SELFREF = false)
    (due : m.dram.refAt + refreshEvery m ≤ m.now * 40) : opRefreshDue video m =
      if !imagingClass m || !(video || videoQueued m) then refreshed ((refreshNext m).set R.DRC_REFSTAT_OWED 0)
      else if m.get R.DRC_REFSTAT_OWED < 8 then (refreshNext m).incSat R.DRC_REFSTAT_OWED
      else refreshed ((refreshNext m).incSat R.DRC_REFSTAT_FORCED) := by
  refine (if_neg ?_).trans rfl
  rw [en, sr, decide_eq_false (by omega)]
  exact Bool.noConfusion

theorem get_refreshed (f : FRef) : (refreshed m).get f = m.get f := rfl

theorem get_refreshNext (f : FRef) : (refreshNext m).get f = m.get f := rfl

/-- No video-class request keeps the refresh waiting. -/
theorem opRefreshDue_calm (en : m.on R.DRC_CFG_EN = true) (sr : m.on R.DRC_STAT_SELFREF = false)
    (due : m.dram.refAt + refreshEvery m ≤ m.now * 40) (calm : imagingClass m = false ∨ (videoQueued m || video) = false) :
    opRefreshDue video m = refreshed ((refreshNext m).set R.DRC_REFSTAT_OWED 0) := by
  refine (opRefreshDue_eq en sr due).trans (if_pos ?_)
  rcases calm with h | h
  · rw [h]; rfl
  · rw [Bool.or_comm video, h]; exact Bool.or_true _

/-- A video-class request keeps the refresh waiting. -/
theorem opRefreshDue_busy (en : m.on R.DRC_CFG_EN = true) (sr : m.on R.DRC_STAT_SELFREF = false)
    (due : m.dram.refAt + refreshEvery m ≤ m.now * 40) (img : imagingClass m = true) (vid : (videoQueued m || video) = true) :
    opRefreshDue video m = if m.get R.DRC_REFSTAT_OWED < 8 then (refreshNext m).incSat R.DRC_REFSTAT_OWED
      else refreshed ((refreshNext m).incSat R.DRC_REFSTAT_FORCED) := by
  refine (opRefreshDue_eq en sr due).trans (if_neg ?_)
  rw [img, Bool.or_comm video, vid]
  exact Bool.noConfusion

theorem opMr4Poll_eq (en : m.on R.DRC_CFG_EN = true) (due : m.dram.mr4At.toNat + 1600000 ≤ m.now) : opMr4Poll derate m =
    { m.set R.DRC_REF_DERATE derate with dram := { m.dram with mr4At := m.clk.tick } } := by
  refine if_pos ?_
  rw [en, decide_eq_true (show _ + msTicks 16 ≤ _ from due)]
  rfl

/-- The check of the drift begins anew. -/
def oscChecked (m : Mach) : Mach := { m with dram := { m.dram with oscAt := m.clk.tick } }

theorem opDqsOscCheck_eq (en : m.on R.DRC_CFG_EN = true) (trained : m.on R.DRC_STAT_TRAINED = true)
    (per : m.get R.DRC_TRN_RTPER ≠ 0) (due : m.dram.oscAt.toNat + 100000 * m.get R.DRC_TRN_RTPER ≤ m.now) :
    opDqsOscCheck drift m = if m.get R.DRC_TRN_RTDRIFT < drift && !m.on R.DRC_STAT_RTDUE then
      { (oscChecked m).set R.DRC_STAT_RTDUE 1 with dram := { (oscChecked m).dram with dueAt := m.clk.tick, lateSent := false } }
      else oscChecked m := by
  refine (if_pos ?_).trans rfl
  rw [en, trained, bne_iff_ne.2 per, msTicks, Nat.mul_comm, decide_eq_true due]
  rfl

/-- The drift makes a retrain due. -/
theorem opDqsOscCheck_leaves (en : m.on R.DRC_CFG_EN = true) (trained : m.on R.DRC_STAT_TRAINED = true)
    (per : m.get R.DRC_TRN_RTPER ≠ 0) (due : m.dram.oscAt.toNat + 100000 * m.get R.DRC_TRN_RTPER ≤ m.now) :
    (opDqsOscCheck drift m).on R.DRC_STAT_RTDUE = (m.on R.DRC_STAT_RTDUE || decide (m.get R.DRC_TRN_RTDRIFT < drift)) ∧
      (opDqsOscCheck drift m).dram.oscAt = m.clk.tick ∧ (opDqsOscCheck drift m).sheets = m.sheets := by
  rw [opDqsOscCheck_eq en trained per due]
  split
  · next far =>
    simp only [Bool.and_eq_true, decide_eq_true_eq] at far
    refine ⟨?_, rfl, rfl⟩
    rw [on_withDram, decide_eq_true far.1, Bool.or_true]
    exact Mach.on_set_flag (f := R.DRC_STAT_RTDUE) rfl rfl true _
  · next near =>
    refine ⟨?_, rfl, rfl⟩
    rw [oscChecked, on_withDram]
    cases h : m.on R.DRC_STAT_RTDUE
    · rw [h, Bool.not_false, Bool.and_true] at near
      rw [Bool.eq_false_iff.2 near]; rfl
    · rfl

theorem opRetrainStart_eq (due : m.on R.DRC_STAT_RTDUE = true) (no : m.dram.retrain = false)
    (gap : (m.vidOf 0).gap = true ∨ (m.vidOf 0).stamps = []) (ahead : feedersAhead m = true) :
    opRetrainStart m = { m with dram := { m.dram with retrain := true } } := by
  refine if_pos ?_
  have between : ((m.vidOf 0).gap || (m.vidOf 0).stamps.isEmpty) = true := by
    rcases gap with h | h <;> rw [h]
    · rfl
    · exact Bool.or_true _
  rw [due, no, between, ahead]
  rfl

theorem opRetrainLate_eq (due : m.on R.DRC_STAT_RTDUE = true) (no : m.dram.retrain = false) (sent : m.dram.lateSent = false)
    (late : m.dram.dueAt.toNat + 100000 * m.get R.DRC_TRN_RTWAIT ≤ m.now) :
    opRetrainLate m = note 0x0A0 0x04 0 { m with dram := { m.dram with lateSent := true } } := by
  refine if_pos ?_
  rw [due, no, sent, msTicks, Nat.mul_comm, decide_eq_true late]
  rfl

/-- The controller after a retrain. -/
def retrained (m : Mach) : Mach := { m.set R.DRC_STAT_RTDUE 0 with dram := { m.dram with retrain := false } }

theorem opRetrainDone_eq (on_ : m.dram.retrain = true) : opRetrainDone m = assertEvent 0x0A1 (retrained m) := by
  rw [opRetrainDone, if_pos on_]; rfl

theorem retrainDone_leaves : (assertEvent 0x0A1 (retrained m)).on R.DRC_STAT_RTDUE = false ∧
    (assertEvent 0x0A1 (retrained m)).dram.retrain = false :=
  ⟨(assertEvent_on ..).trans (Mach.on_set_flag (f := R.DRC_STAT_RTDUE) rfl rfl false m),
    congrArg Dram.retrain (ripples_assertEvent (trip := False) ..).dram⟩

end

/-! ## The endpoint -/

section
variable {m n : Mach} {s : State} {vec : Nat}

theorem exec_functionLevelReset : exec .functionLevelReset s = .next (s.onMach opFunctionLevelReset) := onUnit_of rfl _ s

theorem exec_pciePerst (low : Bool) : exec (.pciePerst low) s = .next (s.onMach (opPciePerst low)) := onUnit_of rfl _ s

theorem exec_pciePowerState (d3 : Bool) : exec (.pciePowerState d3) s = .next (s.onMach (opPciePowerState d3)) := onUnit_of rfl _ s

theorem exec_pcieLinkChange {gen width : Nat} (hg : 1 ≤ gen ∧ gen < 4) (hw : width = 1 ∨ width = 2 ∨ width = 4) :
    exec (.pcieLinkChange true gen width) s = .next (s.onMach (opPcieLinkChange true gen width)) :=
  onUnit_of (by simpa [hg] using or_assoc.2 hw) _ s

theorem exec_msixUnmask (hv : vec < 64) : exec (.msixUnmask vec) s = .next (s.onMach (opMsixUnmask vec)) :=
  onUnit_of (decide_eq_true hv) _ s

/-- Only the state of DMA channels differs. -/
structure ChannelsOnly (m n : Mach) : Prop where
  word : ∀ key, (∀ c, c < 24 → key ≠ (R.DMA_STAT_STATE c).key) → n.word key = m.word key
  tlb : n.hif.tlb = m.hif.tlb
  perst : n.hif.perst = m.hif.perst
  sheets : n.sheets = m.sheets
  flt : n.flt = m.flt

theorem channelsOnly_xlatResume {c : Nat} (h : ChannelsOnly m n) : ChannelsOnly m (xlatResume c n) := by
  obtain ⟨word, tlb, perst, sheets, flt⟩ := h
  rw [xlatResume]
  split
  · next waits =>
    have hc : c < 24 := by simp only [Bool.and_eq_true, decide_eq_true_eq] at waits; exact waits.1
    exact ⟨fun key far => (Mach.word_set_ne n (f := R.DMA_STAT_STATE c) (far c hc) _).trans (word key far), tlb, perst, sheets, flt⟩
  · exact ⟨word, tlb, perst, sheets, flt⟩

/-- Accesses that resume change the state of channels only. -/
theorem channelsOnly_hostWake : ChannelsOnly m (hostWake m) := by
  refine each_preserves (P := ChannelsOnly m) (fun c n h => ?_) _ m ⟨fun _ _ => rfl, rfl, rfl, rfl, rfl⟩
  split
  · exact h
  · exact channelsOnly_xlatResume h

/-! ### Function-level reset -/

theorem tfind_filter_range {α : Type} {lo hi key : Nat} (l : Tab α) : tfind key (l.filter fun p => !(decide (lo ≤ p.1) && decide (p.1 < hi))) =
    if lo ≤ key ∧ key < hi then none else tfind key l := by
  induction l with
  | nil => exact (ite_self _).symm
  | cons p l ih =>
    obtain ⟨k, a⟩ := p
    by_cases out : lo ≤ k ∧ k < hi
    · rw [List.filter_cons_of_neg (by simpa using out), ih, tfind]
      by_cases e : k = key
      · rw [if_pos (e ▸ out), if_pos (e ▸ out)]
      · rw [if_neg e]
    · rw [List.filter_cons_of_pos (by simp only [Bool.not_eq_true', Bool.and_eq_false_iff, decide_eq_false_iff_not]; omega), tfind, ih, tfind]
      by_cases e : k = key
      · rw [if_pos e, if_pos e, if_neg (e ▸ out)]
      · rw [if_neg e, if_neg e]

/-- The MSI-X table and pending bits read as at reset, all else as before. -/
theorem msixReset_word (key : Nat) : (msixReset m).word key =
    if 0x09E000 ≤ key ∧ key < 0x0A0000 then rstWord key else m.word key := by
  have found : tfind key (msixReset m).regs = _ := tfind_filter_range (lo := 0x09E000) (hi := 0x0A0000) m.regs
  rw [Mach.word, found]
  by_cases inside : 0x09E000 ≤ key ∧ key < 0x0A0000
  · rw [if_pos inside, if_pos inside]
  · rw [if_neg inside, if_neg inside]; rfl

/-- What a function-level reset resets first. -/
def flrBegun (m : Mach) : Mach :=
  (msixReset ((m.incSat R.PCIE_LINK_FLR).set R.PCIE_LINK_D3 0)).onHif fun h => { h with tlb := [] }

theorem word_onHif (f : HostIf → HostIf) (key : Nat) : (m.onHif f).word key = m.word key := rfl

/-- The rings of the host that are enabled. -/
def hostRings (m : Mach) : List Nat :=
  (List.range 32).filter fun r =>
    m.on (R.RING_CFG_EN r) && (m.get (R.RING_CFG_PSIDE r) == 1 || m.get (R.RING_CFG_CSIDE r) == 1)

/-- These rings are disabled. -/
def ringsOff (m : Mach) : Mach := each (hostRings m) (fun r m => m.set (R.RING_CFG_EN r) 0) m

theorem flrAct_eq (reqs : m.hif.reqs = []) : flrAct m = ringsOff (hostWake (flrBegun m)) := by
  have none_ : (flrBegun m).hif.reqs = [] := reqs
  show ringsOff (hostWake (each (flrBegun m).hif.reqs _ (flrBegun m))) = _
  rw [none_]
  rfl

theorem ringsOff_word {key : Nat} (far : ∀ r, r < 32 → key ≠ (R.RING_CFG_EN r).key) : (ringsOff m).word key = m.word key :=
  each_keeps (p := fun m => m.word key) _ (fun r hr m => Mach.word_set_ne m (f := R.RING_CFG_EN r)
    (far r (List.mem_range.1 (List.mem_filter.1 hr).1)) _) m

theorem ringsOff_off {r : Nat} (hr : r < 32) (side : m.get (R.RING_CFG_PSIDE r) = 1 ∨ m.get (R.RING_CFG_CSIDE r) = 1) :
    (ringsOff m).on (R.RING_CFG_EN r) = false := by
  have others (k : Nat) (ne : k ≠ r) (n : Mach) : (n.set (R.RING_CFG_EN k) 0).on (R.RING_CFG_EN r) = n.on (R.RING_CFG_EN r) :=
    Mach.on_set_ne n (f := R.RING_CFG_EN k) (by simp only [R.RING_CFG_EN]; omega) _
  by_cases mem : r ∈ hostRings m
  · exact each_leaves (p := fun m => m.on (R.RING_CFG_EN r)) (List.nodup_range.filter _) mem
      (fun n => Mach.on_set_flag (f := R.RING_CFG_EN r) rfl rfl false n) (fun k _ ne n => others k ne n) m
  · have off : m.on (R.RING_CFG_EN r) = false := by
      by_contra en
      refine mem (List.mem_filter.2 ⟨List.mem_range.2 hr, ?_⟩)
      rw [Bool.not_eq_false] at en
      simpa [en] using side
    exact (each_keeps (p := fun m => m.on (R.RING_CFG_EN r)) _ (fun k hk n => others k (fun e => mem (e ▸ hk)) n) m).trans off

theorem ringsOff_hif : (ringsOff m).hif = m.hif := each_keeps (p := Mach.hif) (f := fun r m => m.set (R.RING_CFG_EN r) 0) _ (fun _ _ _ => rfl) m

theorem ringsOff_sheets : (ringsOff m).sheets = m.sheets :=
  each_keeps (p := Mach.sheets) (f := fun r m => m.set (R.RING_CFG_EN r) 0) _ (fun _ _ _ => rfl) m

/-- A register that is neither a channel's state nor a ring's configuration. -/
theorem flrAct_word {key : Nat} (reqs : m.hif.reqs = []) (ring : ∀ r, r < 32 → key ≠ (R.RING_CFG_EN r).key)
    (chan : ∀ c, c < 24 → key ≠ (R.DMA_STAT_STATE c).key) : (flrAct m).word key = (flrBegun m).word key := by
  rw [flrAct_eq reqs, ringsOff_word ring, channelsOnly_hostWake.word key chan]

theorem flrAct_hif (reqs : m.hif.reqs = []) : (flrAct m).hif.tlb = [] ∧ (flrAct m).hif.perst = m.hif.perst ∧
    (flrAct m).sheets = m.sheets := by
  obtain ⟨-, tlb, perst, sheets, -⟩ := channelsOnly_hostWake (m := flrBegun m)
  rw [flrAct_eq reqs, ringsOff_hif, ringsOff_sheets]
  exact ⟨tlb, perst, sheets⟩

/-- The link's register counts the reset and leaves D3hot. -/
theorem flrAct_link (reqs : m.hif.reqs = []) : (flrAct m).word R.PCIE_LINK_FLR.key =
    ((m.incSat R.PCIE_LINK_FLR).set R.PCIE_LINK_D3 0).word R.PCIE_LINK_FLR.key := by
  rw [flrAct_word reqs (fun r hr => by simp only [R.PCIE_LINK_FLR, R.RING_CFG_EN]; omega)
    (fun c hc => by simp only [R.PCIE_LINK_FLR, R.DMA_STAT_STATE]; omega), flrBegun, word_onHif, msixReset_word]
  rfl

theorem flrAct_count (reqs : m.hif.reqs = []) : (flrAct m).get R.PCIE_LINK_FLR = min 255 (m.get R.PCIE_LINK_FLR + 1) := by
  rw [get_of_word (flrAct_link reqs), Mach.get_set_bits (f := R.PCIE_LINK_D3) (g := R.PCIE_LINK_FLR) rfl]
  exact get_incSat rfl

theorem flrAct_mask {k : Nat} (hk : k < 64) (reqs : m.hif.reqs = []) :
    (flrAct m).word (R.DMA_MSIXT_MASK k).key = rstWord (R.DMA_MSIXT_MASK k).key := by
  rw [flrAct_word reqs (fun r hr => by simp only [R.DMA_MSIXT_MASK, R.RING_CFG_EN]; omega)
    (fun c hc => by simp only [R.DMA_MSIXT_MASK, R.DMA_STAT_STATE]; omega), flrBegun, word_onHif, msixReset_word,
    if_pos (by simp only [R.DMA_MSIXT_MASK]; omega)]

theorem flrAct_ring {r : Nat} (hr : r < 32) (reqs : m.hif.reqs = [])
    (side : m.get (R.RING_CFG_PSIDE r) = 1 ∨ m.get (R.RING_CFG_CSIDE r) = 1) : (flrAct m).on (R.RING_CFG_EN r) = false := by
  have kept : (hostWake (flrBegun m)).word (R.RING_CFG_EN r).key = m.word (R.RING_CFG_EN r).key := by
    rw [channelsOnly_hostWake.word _ (fun c hc => by simp only [R.RING_CFG_EN, R.DMA_STAT_STATE]; omega), flrBegun, word_onHif,
      msixReset_word, if_neg (by simp only [R.RING_CFG_EN]; omega), Mach.word_set_ne _ (by simp only [R.RING_CFG_EN, R.PCIE_LINK_D3]; omega),
      Mach.incSat, Mach.word_set_ne _ (by simp only [R.RING_CFG_EN, R.PCIE_LINK_FLR]; omega)]
  rw [flrAct_eq reqs]
  refine ringsOff_off hr ?_
  rw [get_of_word (m := m) (f := R.RING_CFG_PSIDE r) kept, get_of_word (m := m) (f := R.RING_CFG_CSIDE r) kept]
  exact side

theorem opFunctionLevelReset_eq (reach : hostReach m = true) : opFunctionLevelReset m = flrAct m :=
  if_pos (by rw [reach]; rfl)

/-! ### The link -/

/-- A link that goes down shows no link, and touches nothing of the interface. -/
theorem linkDown_leaves : (linkDown m).on R.PCIE_LINK_UP = false ∧ (linkDown m).hif = m.hif := by
  rw [linkDown]
  split
  · constructor
    · rw [Mach.on, (calm_note ..).get (by simp only [quietKey, R.PCIE_LINK_UP]; decide), assertEvent_get,
        Mach.get_set_bits (f := R.PCIE_LINK_WIDTH) (g := R.PCIE_LINK_UP) rfl,
        Mach.get_set_bits (f := R.PCIE_LINK_GEN) (g := R.PCIE_LINK_UP) rfl]
      exact Mach.on_set_flag (f := R.PCIE_LINK_UP) rfl rfl false m
    · exact (calm_note ..).hif.trans (ripples_assertEvent (trip := False) ..).hif
  · next down => exact ⟨Bool.eq_false_iff.2 down, rfl⟩

theorem hostReach_perst (h : m.hif.perst = true) : hostReach m = false := by
  rw [hostReach, h, Bool.not_true, Bool.and_false]

/-- The fall of PCIE_PERST_N. -/
theorem opPciePerst_fall (high : m.hif.perst = false) :
    opPciePerst true m = linkDown (flrAct (m.onHif fun h => { h with perst := true })) := by
  rw [opPciePerst, high]; rfl

/-- The link that has come up. -/
def linkUp (gen width : Nat) (m : Mach) : Mach :=
  let n := ((m.set R.PCIE_LINK_UP 1).set R.PCIE_LINK_GEN gen).set R.PCIE_LINK_WIDTH width
  n.onHif fun h => { h with bar4 := some (h.bar4.getD (n.on R.PCIE_CFG_B4EN)) }

theorem opPcieLinkChange_eq {gen width : Nat} (up : domUp 10 m = true) (en : m.on R.PCIE_CFG_LINKEN = true)
    (high : m.hif.perst = false) (le : gen ≤ m.get R.PCIE_CFG_MAXGEN) : opPcieLinkChange true gen width m = linkUp gen width m := by
  have can : (domUp 10 m && m.on R.PCIE_CFG_LINKEN && !m.hif.perst && decide (gen ≤ m.get R.PCIE_CFG_MAXGEN)) = true := by
    rw [up, en, high, decide_eq_true le]; rfl
  refine (if_pos can).trans ?_
  rw [linkUp]
  generalize ((m.set R.PCIE_LINK_UP 1).set R.PCIE_LINK_GEN gen).set R.PCIE_LINK_WIDTH width = n
  rw [Mach.onHif, Mach.onHif]
  cases n.hif.bar4 <;> rfl

theorem get_onHif (f : HostIf → HostIf) (g : FRef) : (m.onHif f).get g = m.get g := rfl

theorem linkUp_leaves {gen width : Nat} (hg : gen < 4) (hw : width < 8) : (linkUp gen width m).on R.PCIE_LINK_UP = true ∧
    (linkUp gen width m).get R.PCIE_LINK_GEN = gen ∧ (linkUp gen width m).get R.PCIE_LINK_WIDTH = width ∧
    (linkUp gen width m).hif.bar4 = some (m.hif.bar4.getD (m.on R.PCIE_CFG_B4EN)) := by
  refine ⟨?_, ?_, ?_, ?_⟩
  · rw [linkUp, Mach.on, get_onHif, Mach.get_set_bits (f := R.PCIE_LINK_WIDTH) (g := R.PCIE_LINK_UP) rfl,
      Mach.get_set_bits (f := R.PCIE_LINK_GEN) (g := R.PCIE_LINK_UP) rfl]
    exact Mach.on_set_flag (f := R.PCIE_LINK_UP) rfl rfl true m
  · rw [linkUp, get_onHif, Mach.get_set_bits (f := R.PCIE_LINK_WIDTH) (g := R.PCIE_LINK_GEN) rfl]
    exact Mach.get_set_val (f := R.PCIE_LINK_GEN) rfl hg _
  · rw [linkUp, get_onHif]
    exact Mach.get_set_val (f := R.PCIE_LINK_WIDTH) rfl hw _
  · have b4en : (((m.set R.PCIE_LINK_UP 1).set R.PCIE_LINK_GEN gen).set R.PCIE_LINK_WIDTH width).on R.PCIE_CFG_B4EN =
        m.on R.PCIE_CFG_B4EN := by
      rw [Mach.on_set_ne _ (by decide), Mach.on_set_ne _ (by decide), Mach.on_set_ne _ (by decide)]
    exact congrArg (fun b => some (m.hif.bar4.getD b)) b4en

/-- The function in D3hot or back in D0. -/
theorem opPciePowerState_leaves (up : domUp 10 m = true) (high : m.hif.perst = false) (d3 : Bool) :
    (opPciePowerState d3 m).on R.PCIE_LINK_D3 = d3 ∧ (opPciePowerState d3 m).on R.PCIE_LINK_UP = m.on R.PCIE_LINK_UP ∧
      (opPciePowerState d3 m).sheets = m.sheets := by
  have eq : opPciePowerState d3 m = if m.on R.PCIE_LINK_D3 && !d3 then hostWake (m.set R.PCIE_LINK_D3 (b2n d3))
      else m.set R.PCIE_LINK_D3 (b2n d3) := (if_neg (by rw [up, high]; exact Bool.noConfusion)).trans rfl
  have set_ : (m.set R.PCIE_LINK_D3 (b2n d3)).on R.PCIE_LINK_D3 = d3 ∧
      (m.set R.PCIE_LINK_D3 (b2n d3)).on R.PCIE_LINK_UP = m.on R.PCIE_LINK_UP :=
    ⟨Mach.on_set_flag (f := R.PCIE_LINK_D3) rfl rfl d3 m, Mach.on_set_bits (f := R.PCIE_LINK_D3) (g := R.PCIE_LINK_UP) rfl _ m⟩
  rw [eq]
  split
  · obtain ⟨word, -, -, sheets, -⟩ := channelsOnly_hostWake (m := m.set R.PCIE_LINK_D3 (b2n d3))
    have link := word R.PCIE_LINK_D3.key fun c hc => by simp only [R.PCIE_LINK_D3, R.DMA_STAT_STATE]; omega
    exact ⟨(congrArg (· == 1) (get_of_word (f := R.PCIE_LINK_D3) link)).trans set_.1,
      (congrArg (· == 1) (get_of_word (f := R.PCIE_LINK_UP) link)).trans set_.2, sheets⟩
  · exact ⟨set_.1, set_.2, rfl⟩

/-! ### Vectors -/

/-- The register and the bit of a pending vector. -/
abbrev pbaKey (vec : Nat) : Nat := (R.DMA_MSIXP_PBA (vec / 32)).key
abbrev pbaBit (vec : Nat) : Word := BitVec.ofNat 32 (2 ^ (vec % 32))

theorem pba_ne_mask : pbaKey vec ≠ (R.DMA_MSIXT_MASK vec).key := by
  simp only [pbaKey, R.DMA_MSIXP_PBA, R.DMA_MSIXT_MASK]; omega

/-- A pending vector is unmasked and sent. -/
def vectorSent (vec : Nat) (m : Mach) : Mach :=
  ((m.set (R.DMA_MSIXT_MASK vec) 0).setWord (pbaKey vec) (m.word (pbaKey vec) &&& ~~~pbaBit vec)).send (.msix vec)

theorem vectorSent_leaves : (vectorSent vec m).on (R.DMA_MSIXT_MASK vec) = false ∧ (vectorSent vec m).sent = m.sent ++ [.msix vec] ∧
    (vectorSent vec m).word (pbaKey vec) = m.word (pbaKey vec) &&& ~~~pbaBit vec := by
  refine ⟨?_, rfl, Mach.word_setWord_same ..⟩
  have kept : (vectorSent vec m).word (R.DMA_MSIXT_MASK vec).key = (m.set (R.DMA_MSIXT_MASK vec) 0).word (R.DMA_MSIXT_MASK vec).key :=
    Mach.word_setWord_ne _ pba_ne_mask.symm _
  rw [Mach.on, get_of_word kept]
  exact Mach.on_set_flag (f := R.DMA_MSIXT_MASK vec) rfl rfl false m

theorem opMsixUnmask_eq (reach : hostReach m = true) : opMsixUnmask vec m =
    if m.word (pbaKey vec) &&& pbaBit vec = 0 then m.set (R.DMA_MSIXT_MASK vec) 0
    else vectorSent vec m := by
  have kept : (m.set (R.DMA_MSIXT_MASK vec) 0).word (pbaKey vec) = m.word (pbaKey vec) := Mach.word_set_ne m pba_ne_mask _
  refine (if_pos reach).trans ?_
  rw [msixUnmask]
  simp only [kept]
  rfl

end

/-! ## The host's window on DRAM -/

section
variable {m : Mach} {s : State} {mem : Mem} {w : Word} {lanes off a : Nat}

theorem exec_bar4Access {write : Option Word} {ecc : Ecc} (hl : lanes < 16) : exec (.bar4Access write lanes off ecc) s =
    .next { s with mach := (opBar4Access write lanes off ecc s.mach s.mem).1, mem := (opBar4Access write lanes off ecc s.mach s.mem).2 } :=
  onUnitM_of (decide_eq_true hl) _ s

theorem exec_bar2Write (h : off < 65536) : exec (.bar2Write off) s = .next (s.onMach (opBar2Write off)) :=
  onUnit_of (decide_eq_true h) _ s

/-- A byte of a word, if the write's lanes name it. -/
def laneWrite (w : Word) (lanes a : Nat) (mem : Mem) (i : Nat) : Mem :=
  if bitOf lanes i then mem.wr (a + i) (BitVec.ofNat 8 (w.toNat / 2 ^ (8 * i))) else mem

/-- The bytes of a word that a write's lanes name. -/
def lanesWrite (w : Word) (lanes a : Nat) (l : List Nat) (mem : Mem) : Mem := l.foldl (laneWrite w lanes a) mem

theorem laneWrite_out {x i : Nat} (ne : x ≠ a + i) : (laneWrite w lanes a mem i).rd x = mem.rd x := by
  rw [laneWrite]
  split
  · exact rd_wr_ne _ ne _
  · rfl

theorem laneWrite_in {i : Nat} (wf : Memory.wf mem = true) : (laneWrite w lanes a mem i).rd (a + i) =
    if bitOf lanes i then BitVec.ofNat 8 (w.toNat / 2 ^ (8 * i)) else mem.rd (a + i) := by
  rw [laneWrite]
  split
  · rw [rd_wr _ _ _ _ wf, if_pos rfl]
  · rfl

theorem wf_laneWrite {i : Nat} (wf : Memory.wf mem = true) : Memory.wf (laneWrite w lanes a mem i) = true := by
  rw [laneWrite]
  split
  · exact wf_wr _ _ _ wf
  · exact wf

theorem lanesWrite_out {x : Nat} (l : List Nat) (out : ∀ i ∈ l, x ≠ a + i) : ∀ mem, (lanesWrite w lanes a l mem).rd x = mem.rd x := by
  induction l with
  | nil => exact fun _ => rfl
  | cons i l ih =>
    exact fun mem => (ih (fun j hj => out j (List.mem_cons_of_mem _ hj)) _).trans (laneWrite_out (out i List.mem_cons_self))

theorem lanesWrite_in {i : Nat} (l : List Nat) (nodup : l.Nodup) (mem_ : i ∈ l) : ∀ mem, Memory.wf mem = true →
    (lanesWrite w lanes a l mem).rd (a + i) =
      if bitOf lanes i then BitVec.ofNat 8 (w.toNat / 2 ^ (8 * i)) else mem.rd (a + i) := by
  induction l with
  | nil => cases mem_
  | cons j l ih =>
    intro mem wf
    obtain ⟨fresh, nodup⟩ := List.nodup_cons.1 nodup
    rcases List.mem_cons.1 mem_ with rfl | later
    · refine (lanesWrite_out l (fun k hk e => fresh ?_) _).trans (laneWrite_in wf)
      rw [show i = k by omega]
      exact hk
    · have ne : a + i ≠ a + j := fun e => fresh (by rw [show j = i by omega]; exact later)
      exact (ih nodup later _ (wf_laneWrite wf)).trans (by rw [laneWrite_out ne])

/-- The host reaches a DRAM address through BAR4. -/
structure HostReaches (a : Nat) (m : Mach) : Prop where
  reach : hostReach m = true
  bar4 : m.hif.bar4 = some true
  free : dramHeld m = false
  up : domUp 9 m = true
  base : 0x0400000000 ≤ a
  cap : a < 0x0400000000 + dramMib m * 2 ^ 20

theorem opBar4Access_eq {write : Option Word} (can : HostReaches (m.get R.PCIE_B4BASE_BASE * 2 ^ 28 + off / 4 * 4) m) :
    opBar4Access write lanes off .clean m mem =
      let a := m.get R.PCIE_B4BASE_BASE * 2 ^ 28 + off / 4 * 4
      match write with
      | some v => (dramAsk false false a 4 m, lanesWrite v lanes a (List.range 4) mem)
      | none => ((dramAsk false false a 4 m).answer .host (mem.rdWord a), mem) := by
  obtain ⟨reach, bar4, free, up, base, cap⟩ := can
  have lets : (!hostReach m || m.hif.bar4 != some true || dramHeld m) = false := by rw [reach, bar4, free]; rfl
  have inside : (!domUp 9 m || decide (m.get R.PCIE_B4BASE_BASE * 2 ^ 28 + off / 4 * 4 < 0x0400000000) ||
      decide (0x0400000000 + dramMib m * 2 ^ 20 ≤ m.get R.PCIE_B4BASE_BASE * 2 ^ 28 + off / 4 * 4)) = false := by
    rw [up, decide_eq_false (by omega), decide_eq_false (by omega)]; rfl
  refine (if_neg (Bool.eq_false_iff.1 lets)).trans ((if_neg (Bool.eq_false_iff.1 inside)).trans ?_)
  cases write with
  | some v => rfl
  | none => simp only [eccEffect_clean]

end

/-! ## The statement -/

/-- Settles O51: each command by the equation that says what it leaves. -/
theorem dramAndEndpoint : Obligations.DramAndEndpoint := by
  unfold Obligations.DramAndEndpoint
  intro q video v w derate drift gen width vec off lanes s okr hd hv hl ho
  refine ⟨?_, ?_, ?_, ?_, ?_, ?_, ?_, ?_, ?_, ?_, ?_, ?_, ?_, ?_, ?_, ?_⟩
  · intro lets disabled
    refine ⟨fun fits pend => ?_, fun no => ?_⟩
    · have e := (drcCfgWrite_eq (v := v) disabled).trans (if_pos (drcFits_iff.1 fits))
      exact ⟨_, (exec_dramEnable okr lets).trans (congrArg _ (onMach_congr (g := drcStarted v) e)),
        (drcStarted_leaves disabled pend).1, (drcStarted_leaves disabled pend).2.1, (drcStarted_leaves disabled pend).2.2, rfl⟩
    · have e := (drcCfgWrite_eq (v := v) disabled).trans (if_neg (mt drcFits_iff.2 no))
      exact (exec_dramEnable okr lets).trans (congrArg _ (onMach_congr (g := ignored R.DRC_CFG_EN.key) e))
  · intro en un lock up
    refine ⟨?_, ?_⟩
    · obtain ⟨trained, selfref, held⟩ := drcTrained_leaves (m := s.mach)
      exact ⟨_, (exec_dramTrainingDone true).trans (congrArg _ (onMach_congr (g := drcTrained) (opDramTrainingDone_eq en un lock up true))),
        trained, selfref, held, rfl, rfl⟩
    · exact ⟨_, (exec_dramTrainingDone false).trans (congrArg _ (onMach_congr (g := fun m => raise 0x0A0 0x03 3 (m.set R.DRC_CFG_EN 0))
        (opDramTrainingDone_eq en un lock up false))), on_failedTraining, faulted_raise (by decide) (by decide) fun h => h⟩
  · intro en sr due
    refine ⟨fun calm => ?_, fun img vid few => ?_, fun img vid many => ?_⟩
    · refine ⟨_, exec_refreshDue.trans (congrArg _ (onMach_congr (g := fun m => refreshed ((refreshNext m).set R.DRC_REFSTAT_OWED 0))
        (opRefreshDue_calm en sr due calm))), ?_, rfl, rfl, rfl⟩
      rw [State.onMach_mach, get_refreshed]
      exact Mach.get_set_val (f := R.DRC_REFSTAT_OWED) rfl (Nat.two_pow_pos _) _
    · have e := (opRefreshDue_busy en sr due img vid).trans (if_pos few)
      refine ⟨_, exec_refreshDue.trans (congrArg _ (onMach_congr (g := fun m => (refreshNext m).incSat R.DRC_REFSTAT_OWED) e)), ?_, ?_, rfl⟩
      · rw [State.onMach_mach, get_incSat rfl, get_refreshNext]
        exact Nat.min_eq_right (by simp only [R.DRC_REFSTAT_OWED] at few ⊢; omega)
      · exact Mach.get_set_bits (f := R.DRC_REFSTAT_OWED) (g := R.DRC_REFSTAT_FORCED) rfl _ _
    · have e := (opRefreshDue_busy en sr due img vid).trans (if_neg (by omega))
      refine ⟨_, exec_refreshDue.trans (congrArg _ (onMach_congr (g := fun m => refreshed ((refreshNext m).incSat R.DRC_REFSTAT_FORCED)) e)),
        ?_, rfl, rfl⟩
      rw [State.onMach_mach, get_refreshed]
      exact Mach.get_set_bits (f := R.DRC_REFSTAT_FORCED) (g := R.DRC_REFSTAT_OWED) rfl _ _
  · intro x i r at_ overdue
    refine ⟨?_, serve_leaves at_⟩
    rintro rfl
    exact ⟨nextRequest_overdue at_, nextRequest_hit at_, nextRequest_oldest⟩
  · intro en due
    refine ⟨_, (exec_mr4Poll hd).trans (congrArg _ (onMach_congr (g := fun _ => _) (opMr4Poll_eq en due))), ?_, ?_, rfl⟩
    · rw [State.onMach_mach, get_withDram]
      exact Mach.get_set_val (f := R.DRC_REF_DERATE) rfl hd _
    · rw [State.onMach_mach, get_withDram]
      exact Mach.get_set_bits (f := R.DRC_REF_DERATE) (g := R.DRC_REF_INT) rfl _ _
  · intro en trained per due
    exact ⟨_, exec_dqsOscCheck, opDqsOscCheck_leaves en trained per due⟩
  · intro due no
    refine ⟨fun gap ahead => ?_, fun sent late => ?_⟩
    · refine ⟨_, exec_retrainStart.trans (congrArg _ (onMach_congr (g := fun _ => _) (opRetrainStart_eq due no gap ahead))), ?_, rfl, rfl⟩
      exact Bool.or_true _
    · exact exec_retrainLate.trans (congrArg _ (onMach_congr (opRetrainLate_eq due no sent late)))
  · intro on_
    exact ⟨_, exec_retrainDone.trans (congrArg _ (onMach_congr (g := fun m => assertEvent 0x0A1 (retrained m)) (opRetrainDone_eq on_))),
      retrainDone_leaves.1, retrainDone_leaves.2, assertEvent_sheets .., rfl⟩
  · intro reach reqs
    obtain ⟨tlb, -, sheets⟩ := flrAct_hif reqs
    exact ⟨_, exec_functionLevelReset.trans (congrArg _ (onMach_congr (opFunctionLevelReset_eq reach))), flrAct_count reqs, tlb,
      fun k hk => flrAct_mask hk reqs, fun r hr side => flrAct_ring hr reqs side, sheets, rfl⟩
  · exact ⟨_, exec_pciePerst false, rfl, rfl, rfl⟩
  · intro high reqs
    have reqs' : (s.mach.onHif fun h => { h with perst := true }).hif.reqs = [] := reqs
    obtain ⟨up, hif⟩ := linkDown_leaves (m := flrAct (s.mach.onHif fun h => { h with perst := true }))
    have perst : (linkDown (flrAct (s.mach.onHif fun h => { h with perst := true }))).hif.perst = true := by
      rw [hif]
      exact (flrAct_hif reqs').2.1
    exact ⟨_, (exec_pciePerst true).trans (congrArg _ (onMach_congr (g := fun m => linkDown (flrAct (m.onHif fun h => { h with perst := true })))
      (opPciePerst_fall high))), perst, up, hostReach_perst perst, rfl⟩
  · intro up en high lo le lane
    have gen3 : s.mach.get R.PCIE_CFG_MAXGEN < 2 ^ 2 := Nat.mod_lt _ (Nat.two_pow_pos _)
    have run : exec (.pcieLinkChange true gen width) s = .next (s.onMach (linkUp gen width)) :=
      (exec_pcieLinkChange ⟨lo, by omega⟩ lane).trans (congrArg _ (onMach_congr (opPcieLinkChange_eq up en high le)))
    obtain ⟨u, g, w, b⟩ := linkUp_leaves (m := s.mach) (gen := gen) (width := width) (by omega) (by omega)
    exact ⟨_, run, u, g, w, b, rfl⟩
  · intro reach
    have e := opMsixUnmask_eq (vec := vec) reach
    refine ⟨fun none_ => ?_, fun some_ => ?_⟩
    · refine ⟨_, (exec_msixUnmask hv).trans (congrArg _ (onMach_congr (g := fun m => m.set (R.DMA_MSIXT_MASK vec) 0)
        (e.trans (if_pos none_)))), Mach.on_set_flag (f := R.DMA_MSIXT_MASK vec) rfl rfl false _, rfl, rfl⟩
    · refine ⟨_, (exec_msixUnmask hv).trans (congrArg _ (onMach_congr (g := vectorSent vec) (e.trans (if_neg some_)))), ?_⟩
      exact vectorSent_leaves
  · intro up high d3
    obtain ⟨d, l, sheets⟩ := opPciePowerState_leaves up high d3
    exact ⟨_, exec_pciePowerState d3, d, l, sheets⟩
  · intro reach bar4 free up base cap
    have can : HostReaches (s.mach.get R.PCIE_B4BASE_BASE * 2 ^ 28 + off / 4 * 4) s.mach := ⟨reach, bar4, free, up, base, cap⟩
    refine ⟨?_, fun ok => ?_⟩
    · refine ⟨_, exec_bar4Access hl, ?_⟩
      rw [opBar4Access_eq can]
      exact ⟨tget_tput_same .., rfl, rfl⟩
    · refine ⟨_, exec_bar4Access hl, ?_⟩
      rw [opBar4Access_eq can]
      refine ⟨rfl, rfl, fun i hi => ?_, fun x out => ?_⟩
      · exact lanesWrite_in _ List.nodup_range (List.mem_range.2 hi) _ ok
      · exact lanesWrite_out _ (fun i hi => by have := List.mem_range.1 hi; omega) _
  · intro reach
    exact (exec_bar2Write ho).trans (congrArg _ (onMach_congr (if_pos reach)))

end Sys2Proof.Machine
end

section
/-! PROOFS. O52: rings, table walks, page requests, invalidation and status frames (R48, R315-R318, R327-R330). -/

namespace Sys2Proof.Machine

/-! ## Rings -/

section
variable {q : Requester} {r n : Nat} {v : Word} {m : Mach} {s : State} {f : Mach → Mach}

/-- The host's commands wait for a live endpoint. -/
theorem notHeld (live : q = .host → hostReach m = true) : (q == .host && !hostReach m) = false := by
  by_cases h : q = .host
  · rw [live h, Bool.not_true, Bool.and_false]
  · rw [beq_eq_false_iff_ne.2 h, Bool.false_and]

theorem hostGuard_live (live : q = .host → hostReach m = true) : hostGuard q f m = f m :=
  if_neg (Bool.eq_false_iff.1 (notHeld live))

theorem exec_ringEnable (okr : okReq q = true) (hr : r < 32) (live : q = .host → hostReach s.mach = true)
    (lets : s.lets q false (R.RING_CFG_EN r).key) :
    exec (.ringEnable q r v) s = .next (s.onMach (ringCfgWrite r (withBits v 0 0 1))) := by
  refine (onUnit_of (by simp [okr, hr]) (opRingEnable q r v) s).trans (congrArg _ (onMach_congr ?_))
  exact (if_neg (Bool.eq_false_iff.1 (notHeld live))).trans (guarded_of_lets _ lets)

theorem exec_ringProducerDoorbell (hr : r < 32) (reach : hostReach s.mach = true) (lets : s.lets .host false (R.RING_PIDX r).key) :
    exec (.ringProducerDoorbell r v) s = .next (s.onMach (ringIndexWrite .host r true v)) :=
  (onUnit_of (decide_eq_true hr) (opRingProducerDoorbell r v) s).trans
    (congrArg _ (onMach_congr ((if_pos reach).trans (guarded_of_lets _ lets))))

theorem exec_ringConsumerIndex (hr : r < 32) (reach : hostReach s.mach = true) (lets : s.lets .host false (R.RING_CIDX r).key) :
    exec (.ringConsumerIndex r v) s = .next (s.onMach (ringIndexWrite .host r false v)) :=
  (onUnit_of (decide_eq_true hr) (opRingConsumerIndex r v) s).trans
    (congrArg _ (onMach_congr ((if_pos reach).trans (guarded_of_lets _ lets))))

theorem exec_ringIrqTimer (hr : r < 32) : exec (.ringIrqTimer r) s = .next (s.onMach (opRingIrqTimer r)) :=
  onUnit_of (decide_eq_true hr) _ s

/-- The ring that a write enables: empty, its miss forgotten. -/
def ringStarted (r : Nat) (v : Word) (m : Mach) : Mach :=
  ((((storeFields (R.RING_CFG_EN r).key (withBits v 0 0 1) m).set (R.RING_PIDX r) 0).set (R.RING_CIDX r) 0).set (R.RING_STAT_XLATE r)
    0).onHif fun h => { h with rings := tdel r h.rings }

theorem ringCfgWrite_eq (off : m.on (R.RING_CFG_EN r) = false) : ringCfgWrite r (withBits v 0 0 1) m =
    if ringOk m r (withBits v 0 0 1) then ringStarted r v m else ignored (R.RING_CFG_EN r).key m := by
  have one : (R.RING_CFG_EN r).of (withBits v 0 0 1) = 1 := bitsOf_withBits_same v 1 (by decide) (by decide)
  refine (if_pos ?_).trans rfl
  rw [off, one]; rfl

theorem ringStarted_leaves (hr : r < 32) (off : m.on (R.RING_CFG_EN r) = false) (pend : m.pend = []) :
    (ringStarted r v m).on (R.RING_CFG_EN r) = true ∧ (ringStarted r v m).get (R.RING_PIDX r) = 0 ∧
      (ringStarted r v m).get (R.RING_CIDX r) = 0 ∧ (ringStarted r v m).on (R.RING_STAT_XLATE r) = false := by
  have one : (R.RING_CFG_EN r).of (withBits v 0 0 1) = 1 := bitsOf_withBits_same v 1 (by decide) (by decide)
  have field : ∀ r, r < 32 → hasField (R.RING_CFG_EN r) = true := by decide
  have gov : govOn (R.RING_CFG_EN r).key m = false := by
    have block : (R.RING_CFG_EN r).key / 65536 = 8 := by simp only [R.RING_CFG_EN]; omega
    have unit : (R.RING_CFG_EN r).key % 65536 / 32 = r := by simp only [R.RING_CFG_EN]; omega
    rw [govOn, block]
    show m.on (R.RING_CFG_EN ((R.RING_CFG_EN r).key % 65536 / 32)) = false
    rw [unit]
    exact off
  have plain (g : Fld) (m : Mach) : fldAcc (R.RING_CFG_EN r).key g m = g.acc :=
    fldAcc_plain (by simp only [R.RING_CFG_EN, Bool.or_eq_false_iff, beq_eq_false_iff_ne]; omega) g m
  refine ⟨?_, ?_, ?_, ?_⟩
  · rw [ringStarted, Mach.on, get_onHif, Mach.get_set_ne _ (by simp only [R.RING_CFG_EN, R.RING_STAT_XLATE]; omega),
      Mach.get_set_ne _ (by simp only [R.RING_CFG_EN, R.RING_CIDX]; omega),
      Mach.get_set_ne _ (by simp only [R.RING_CFG_EN, R.RING_PIDX]; omega),
      get_storeFields_idle (f := R.RING_CFG_EN r) (field r hr) plain gov pend, one]
    rfl
  · rw [ringStarted, get_onHif, Mach.get_set_ne _ (by simp only [R.RING_PIDX, R.RING_STAT_XLATE]; omega),
      Mach.get_set_ne _ (by simp only [R.RING_PIDX, R.RING_CIDX]; omega)]
    exact Mach.get_set_val (f := R.RING_PIDX r) rfl (Nat.two_pow_pos _) _
  · rw [ringStarted, get_onHif, Mach.get_set_ne _ (by simp only [R.RING_CIDX, R.RING_STAT_XLATE]; omega)]
    exact Mach.get_set_val (f := R.RING_CIDX r) rfl (Nat.two_pow_pos _) _
  · rw [ringStarted, Mach.on, get_onHif]
    exact Mach.on_set_flag (f := R.RING_STAT_XLATE r) rfl rfl false _

/-- An index may move to a value. -/
abbrev indexMoves (r : Nat) (v : Word) (f : FRef) (m : Mach) : Prop :=
  (v.toNat + 2 ^ 32 - m.get f) % 2 ^ 32 < 2 ^ 31 ∧ ringCount (m.set f v.toNat) r ≤ ringSize m r

theorem ringSize_set {f : FRef} (ne : (R.RING_CFG_LOG2N r).key ≠ f.key) (x : Nat) : ringSize (m.set f x) r = ringSize m r := by
  rw [ringSize, Mach.get_set_ne _ ne]; rfl

/-- A write of the producer's index. -/
theorem ringIndexWrite_pidx : ringIndexWrite .host r true v m =
    if m.get (R.RING_CFG_PSIDE r) = 1 ∧ indexMoves r v (R.RING_PIDX r) m then
      (if (v.toNat + 2 ^ 32 - m.get (R.RING_PIDX r)) % 2 ^ 32 = 0 then m.set (R.RING_PIDX r) v.toNat
      else tellConsumer r ((v.toNat + 2 ^ 32 - m.get (R.RING_PIDX r)) % 2 ^ 32) (m.set (R.RING_PIDX r) v.toNat))
    else badIndex r (R.RING_PIDX r).key m := by
  have size := ringSize_set (r := r) (m := m) (f := R.RING_PIDX r) (by simp only [R.RING_CFG_LOG2N, R.RING_PIDX]; omega) v.toNat
  refine (if_congr ?_ rfl rfl).trans rfl
  simp only [if_true, size, indexMoves, Bool.and_eq_true, beq_iff_eq, decide_eq_true_eq, and_assoc, true_and]

/-- A write of the consumer's index. -/
theorem ringIndexWrite_cidx : ringIndexWrite .host r false v m =
    if m.get (R.RING_CFG_CSIDE r) = 1 ∧ indexMoves r v (R.RING_CIDX r) m then
      (if (v.toNat + 2 ^ 32 - m.get (R.RING_CIDX r)) % 2 ^ 32 = 0 then m.set (R.RING_CIDX r) v.toNat
      else tellProducer r (m.set (R.RING_CIDX r) v.toNat))
    else badIndex r (R.RING_CIDX r).key m := by
  have size := ringSize_set (r := r) (m := m) (f := R.RING_CIDX r) (by simp only [R.RING_CFG_LOG2N, R.RING_CIDX]; omega) v.toNat
  refine (if_congr ?_ rfl rfl).trans rfl
  simp only [Bool.false_eq_true, if_false, size, indexMoves, Bool.and_eq_true, beq_iff_eq, decide_eq_true_eq, and_assoc, true_and]

theorem ringIndexWrite_pidx_leaves (hr : r < 32) (side : m.get (R.RING_CFG_PSIDE r) = 1) (moves : indexMoves r v (R.RING_PIDX r) m) :
    (ringIndexWrite .host r true v m).get (R.RING_PIDX r) = v.toNat ∧
      (ringIndexWrite .host r true v m).get (R.RING_CIDX r) = m.get (R.RING_CIDX r) := by
  have index : (m.set (R.RING_PIDX r) v.toNat).get (R.RING_PIDX r) = v.toNat := Mach.get_set_val (f := R.RING_PIDX r) rfl v.isLt m
  have other : (m.set (R.RING_PIDX r) v.toNat).get (R.RING_CIDX r) = m.get (R.RING_CIDX r) :=
    Mach.get_set_ne m (f := R.RING_PIDX r) (by simp only [R.RING_CIDX, R.RING_PIDX]; omega) _
  rw [ringIndexWrite_pidx, if_pos ⟨side, moves⟩]
  split
  · exact ⟨index, other⟩
  · exact ⟨(get_of_word (tellConsumer_word (quietKey_pidx hr) ..)).trans index,
      (get_of_word (tellConsumer_word (quietKey_cidx hr) ..)).trans other⟩

theorem ringIndexWrite_cidx_leaves (hr : r < 32) (side : m.get (R.RING_CFG_CSIDE r) = 1) (moves : indexMoves r v (R.RING_CIDX r) m) :
    (ringIndexWrite .host r false v m).get (R.RING_CIDX r) = v.toNat ∧
      (ringIndexWrite .host r false v m).get (R.RING_PIDX r) = m.get (R.RING_PIDX r) := by
  have index : (m.set (R.RING_CIDX r) v.toNat).get (R.RING_CIDX r) = v.toNat := Mach.get_set_val (f := R.RING_CIDX r) rfl v.isLt m
  have other : (m.set (R.RING_CIDX r) v.toNat).get (R.RING_PIDX r) = m.get (R.RING_PIDX r) :=
    Mach.get_set_ne m (f := R.RING_CIDX r) (by simp only [R.RING_CIDX, R.RING_PIDX]; omega) _
  rw [ringIndexWrite_cidx, if_pos ⟨side, moves⟩]
  split
  · exact ⟨index, other⟩
  · exact ⟨(get_of_word (tellProducer_word (quietKey_cidx hr) ..)).trans index,
      (get_of_word (tellProducer_word (quietKey_pidx hr) ..)).trans other⟩

theorem opRingIrqTimer_eq {x : RingIrq} (ring : tfind r m.hif.rings = some x) (time : m.get (R.RING_MOD_ITIME r) ≠ 0)
    (en : m.on (R.RING_CFG_IRQEN r) = true) (due : x.since.toNat + 100 * m.get (R.RING_MOD_ITIME r) ≤ m.now) :
    opRingIrqTimer r m = ringSignal r m := by
  rw [opRingIrqTimer, ring]
  refine if_pos ?_
  rw [bne_iff_ne.2 time, en, usTicks, Nat.mul_comm, decide_eq_true due]
  rfl

end

/-! ## Walks and page requests -/

section
variable {q : Requester} {n w p : Nat} {v : Word} {m : Mach} {mem : Mem} {s : State} {x : Xlat}

theorem exec_datuWalkDone (hn : n < 27) : exec (.datuWalkDone n false) s = .next (s.onMach (opDatuWalkDone n false s.mem)) :=
  onUnit_of (decide_eq_true hn) _ s

theorem exec_pageRequestPost : exec .pageRequestPost s =
    .next { s with mach := (opPageRequestPost s.mach s.mem).1, mem := (opPageRequestPost s.mach s.mem).2 } := onUnitM_of rfl _ s

theorem exec_prack (okr : okReq q = true) (live : q = .host → hostReach s.mach = true) (lets : s.lets q false R.DATU_PRACK_TAG.key) :
    exec (.prack q v) s = .next (s.onMach (prackWrite v)) :=
  (onUnit_of okr (opPrack q v) s).trans (congrArg _ (onMach_congr ((hostGuard_live live).trans (guarded_of_lets _ lets))))

theorem exec_invpage (okr : okReq q = true) (live : q = .host → hostReach s.mach = true) (lets : s.lets q false R.DATU_INVPAGE_PAGE.key) :
    exec (.invpage q v) s = .next (s.onMach (invPage (R.DATU_INVPAGE_PAGE.of v))) :=
  (onUnit_of okr (opInvpage q v) s).trans (congrArg _ (onMach_congr ((hostGuard_live live).trans (guarded_of_lets _ lets))))

theorem exec_invall (okr : okReq q = true) (live : q = .host → hostReach s.mach = true) (lets : s.lets q false R.DATU_INVALL_ALL.key) :
    exec (.invall q v) s = .next (s.onMach (when (R.DATU_INVALL_ALL.of v == 1) invAll)) :=
  (onUnit_of okr (opInvall q v) s).trans (congrArg _ (onMach_congr ((hostGuard_live live).trans (guarded_of_lets _ lets))))

theorem exec_invalidationDone : exec .invalidationDone s = .next (s.onMach opInvalidationDone) := onUnit_of rfl _ s

theorem exec_hsfWrite : exec .hsfWrite s = .next { s with mach := (opHsfWrite s.mach s.mem).1, mem := (opHsfWrite s.mach s.mem).2 } :=
  onUnitM_of rfl _ s

/-- The walk of a requester has ended. -/
def walkEnded (n : Nat) (m : Mach) : Mach :=
  (m.onHif fun h => { h with walks := h.walks.filter (·.req != n) }).incSat R.DATU_STAT_WALKS

theorem walkEnded_get {f : FRef} (ne : f.key ≠ R.DATU_STAT_WALKS.key) : (walkEnded n m).get f = m.get f :=
  Mach.get_set_ne (m.onHif _) (f := R.DATU_STAT_WALKS) ne _

theorem xlatAbort_walkEnded : xlatAbort (walkEnded n m) w = xlatAbort m w := by
  rw [xlatAbort, Mach.on, walkEnded_get (by decide), walkEnded_get (by decide)]
  rfl

theorem tableWalk_walkEnded : tableWalk (walkEnded n m) mem w = tableWalk m mem w := by
  rw [tableWalk, walkEnded_get (by decide), walkEnded_get (by decide)]
  rfl

/-- The end of a walk that has failed in no way, but for what the tables give. -/
theorem opDatuWalkDone_eq {wk : Walk} {result : Mach} (hw : w = wk.addr - hostWindow)
    (found : m.hif.walks.find? (·.req == n) = some wk) (fine : xlatAbort m w = false) (valid : wk.inval = false)
    (hits : ∀ x, tableWalk m mem w = some x → x.allows wk.wr = true ∧ result = xlatResume n (tlbUse x (walkEnded n m)))
    (misses : tableWalk m mem w = none → result = needPage n wk.addr wk.wr false (walkEnded n m)) :
    opDatuWalkDone n false mem m = result := by
  have fine' : (false || xlatAbort (walkEnded n m) w) = false := xlatAbort_walkEnded.trans fine
  have walk' : tableWalk (walkEnded n m) mem w = tableWalk m mem w := tableWalk_walkEnded
  unfold opDatuWalkDone
  rw [found]
  extract_lets ended
  have same : ended = walkEnded n m := rfl
  clear_value ended
  subst same
  dsimp only
  rw [← hw]
  refine (if_neg (Bool.eq_false_iff.1 fine')).trans ((if_neg (Bool.eq_false_iff.1 valid)).trans ?_)
  cases walk : tableWalk m mem w with
  | some x =>
    obtain ⟨allows, e⟩ := hits x walk
    simp only [walk', walk, allows, if_true, e]
  | none => simp only [walk', walk, misses walk]

/-- A walk gives the translation of its own page. -/
theorem tableWalk_page (h : tableWalk m mem w = some x) : x.page = w / 4096 := by
  unfold tableWalk at h
  extract_lets base e1 e2 at h
  split at h
  · cases h
  · split at h
    · cases h
    · cases h; rfl

theorem tlbFind_tlbUse : tlbFind (tlbUse x m) x.page = some x := by
  have st : tget [] (x.page % 128) (tlbUse x m).hif.tlb = _ := tget_tput_same ..
  rw [tlbFind, st]
  simp

theorem xlatResume_hif : (xlatResume n m).hif.tlb = m.hif.tlb ∧ (xlatResume n m).hif.walks = m.hif.walks := by
  rw [xlatResume]
  split
  · exact ⟨rfl, rfl⟩
  · exact ⟨rfl, rfl⟩

theorem opPageRequestPost_eq {pr : PageReq} {m' : Mach} {mem' : Mem} (first : m.hif.reqs.findIdx? (·.tag.isNone) = some n)
    (at_ : m.hif.reqs[n]? = some pr)
    (put : ringPut (m.get R.DATU_CFG_PRRING) 2 (pageRecord m pr m.hif.tag) m mem = (true, m', mem')) :
    opPageRequestPost m mem = (m'.onHif fun h => { h with
      reqs := h.reqs.set n { pr with tag := some m.hif.tag }, tag := (m.hif.tag + 1) % 65536 }, mem') := by
  simp only [opPageRequestPost, first, at_, put]

theorem waitOver_onHif (f : HostIf → HostIf) (same : (m.onHif f).hif.chans = m.hif.chans) : waitOver n (m.onHif f) = waitOver n m := by
  rw [waitOver, Mach.chan, same]
  rfl

/-- A request is answered: its walk starts again. -/
theorem prackWrite_eq {pr : PageReq} (found : m.hif.reqs.find? (·.tag == some (R.DATU_PRACK_TAG.of v)) = some pr)
    (good : R.DATU_PRACK_FAIL.of v = 0) (inTime : pr.req < 24 → waitOver pr.req m = false)
    (idle : m.hif.walks.any (·.req == pr.req) = false) :
    (prackWrite v m).hif.walks = m.hif.walks ++ [{ req := pr.req, addr := pr.addr, wr := pr.wr }] ∧
      (prackWrite v m).hif.reqs = m.hif.reqs.filter (·.tag != some (R.DATU_PRACK_TAG.of v)) ∧ (prackWrite v m).regs = m.regs := by
  have notFailed : (decide (R.DATU_PRACK_FAIL.of v = 1) || (decide (pr.req < 24) &&
      waitOver pr.req (m.onHif fun h => { h with reqs := h.reqs.filter (·.tag != some (R.DATU_PRACK_TAG.of v)) }))) = false := by
    rw [good, waitOver_onHif (m := m) _ rfl]
    by_cases h : pr.req < 24
    · rw [inTime h, Bool.and_false]; rfl
    · rw [decide_eq_false h]; rfl
  have eq : prackWrite v m = startWalk pr.req pr.addr pr.wr
      (m.onHif fun h => { h with reqs := h.reqs.filter (·.tag != some (R.DATU_PRACK_TAG.of v)) }) := by
    rw [prackWrite, found]
    exact if_neg (Bool.eq_false_iff.1 notFailed)
  have started : startWalk pr.req pr.addr pr.wr
      (m.onHif fun h => { h with reqs := h.reqs.filter (·.tag != some (R.DATU_PRACK_TAG.of v)) }) = _ :=
    if_neg (Bool.eq_false_iff.1 idle)
  rw [eq, started]
  exact ⟨rfl, rfl, rfl⟩

end

/-! ## Invalidation -/

section
variable {n p k : Nat} {m : Mach}

/-- The set of a page after the page has left it. -/
theorem tlbDrop_set (nodup : (m.hif.tlb.map (·.1)).Nodup) : tget [] (p % 128) (tlbDrop p m).hif.tlb =
    (tget [] (p % 128) m.hif.tlb).filter (·.page != p) := by
  show tget [] (p % 128) (if ((tget [] (p % 128) m.hif.tlb).filter (·.page != p)).isEmpty then tdel (p % 128) m.hif.tlb
    else tput (p % 128) ((tget [] (p % 128) m.hif.tlb).filter (·.page != p)) m.hif.tlb) = _
  split
  · next empty =>
    rw [tget_eq_tfind, tfind_tdel_same nodup, List.isEmpty_iff.1 empty]
    rfl
  · exact tget_tput_same ..

theorem tlbDrop_set_ne (ne : k ≠ p % 128) : tget [] k (tlbDrop p m).hif.tlb = tget [] k m.hif.tlb := by
  show tget [] k (if ((tget [] (p % 128) m.hif.tlb).filter (·.page != p)).isEmpty then tdel (p % 128) m.hif.tlb
    else tput (p % 128) ((tget [] (p % 128) m.hif.tlb).filter (·.page != p)) m.hif.tlb) = _
  split
  · exact tget_tdel_ne _ ne _
  · exact tget_tput_ne _ _ ne _

theorem tlbFind_tlbDrop (nodup : (m.hif.tlb.map (·.1)).Nodup) : tlbFind (tlbDrop p m) p = none := by
  rw [tlbFind, tlbDrop_set nodup, List.find?_eq_none]
  intro x hx
  have := (List.mem_filter.1 hx).2
  simpa using this

theorem tlbFind_tlbDrop_ne (ne : k % 128 ≠ p % 128) : tlbFind (tlbDrop p m) k = tlbFind m k := by
  rw [tlbFind, tlbDrop_set_ne ne]; rfl

theorem invPage_leaves (nodup : (m.hif.tlb.map (·.1)).Nodup) : tlbFind (invPage p m) p = none ∧
    (invPage p m).on R.DATU_INVSTAT_BUSY = true ∧ ∀ k, k % 128 ≠ p % 128 → tlbFind (invPage p m) k = tlbFind m k := by
  refine ⟨tlbFind_tlbDrop nodup, ?_, fun k ne => tlbFind_tlbDrop_ne ne⟩
  rw [invPage, Mach.on, get_onHif]
  exact Mach.on_set_flag (f := R.DATU_INVSTAT_BUSY) rfl rfl true _

theorem msix_snap (n : Nat) : (m.msix n).snap = m.snap ∧ (m.msix n).sheets = m.sheets := by
  rw [Mach.msix]
  split
  · exact ⟨rfl, rfl⟩
  · exact ⟨rfl, rfl⟩

end

/-! ## Status frames -/

section
variable {m : Mach} {mem : Mem}

theorem tlbTouch_sheets (a : Nat) : (tlbTouch a m).sheets = m.sheets := by
  rw [tlbTouch]
  split
  · rfl
  · rfl

/-- A frame goes out. -/
theorem opHsfWrite_eq {seq : Word} {body : List Word} {fs : List (Word × List Word)} {h : Nat}
    (frames : m.snap.frames = (seq, body) :: fs) (free : hostHeld m = false) (walks : m.hif.walks.any (·.req == 24) = false)
    (reqs : m.hif.reqs.any (·.req == 24) = false) (look : datuLook m (hsfAddr m seq.toNat) true = .hit h) :
    (opHsfWrite m mem).1.snap.frames = fs ∧ (opHsfWrite m mem).1.sheets = m.sheets ∧
      (opHsfWrite m mem).2 = mem.hostWrBytes h (wordBytes (frameSealed seq body)) := by
  have clear : (hostHeld m || m.hif.walks.any (·.req == 24) || m.hif.reqs.any (·.req == 24)) = false := by rw [free, walks, reqs]; rfl
  have eq : opHsfWrite m mem = (({ tlbTouch (hsfAddr m seq.toNat) m with
      snap := { (tlbTouch (hsfAddr m seq.toNat) m).snap with frames := fs } }).msix
        ((tlbTouch (hsfAddr m seq.toNat) m).get R.SNAP_CTL_HSFVEC), mem.hostWrBytes h (wordBytes (frameSealed seq body))) := by
    rw [opHsfWrite, frames]
    refine (if_neg (Bool.eq_false_iff.1 clear)).trans ?_
    simp only [look]
    rfl
  rw [eq]
  exact ⟨congrArg Snap.frames (msix_snap _).1, (msix_snap _).2.trans (tlbTouch_sheets _), rfl⟩

end

/-! ## The statement -/

/-- Settles O52: each command by the equation that says what it leaves. -/
theorem ringsAndTranslation : Obligations.RingsAndTranslation := by
  unfold Obligations.RingsAndTranslation
  intro q r n v s okr hr live
  refine ⟨?_, ?_, ?_, ?_, ?_, ?_, ?_, ?_, ?_, ?_, ?_⟩
  · intro lets off
    refine ⟨fun fine pend => ?_, fun bad => ?_⟩
    · exact ⟨_, (exec_ringEnable okr hr live lets).trans (congrArg _ (onMach_congr (g := ringStarted r v)
        ((ringCfgWrite_eq off).trans (if_pos fine)))), (ringStarted_leaves hr off pend).1, (ringStarted_leaves hr off pend).2.1,
        (ringStarted_leaves hr off pend).2.2.1, (ringStarted_leaves hr off pend).2.2.2, rfl⟩
    · exact (exec_ringEnable okr hr live lets).trans (congrArg _ (onMach_congr ((ringCfgWrite_eq off).trans (if_neg (Bool.eq_false_iff.1 bad)))))
  · intro reach lets
    refine ⟨fun side moves => ?_, fun bad => ?_⟩
    · obtain ⟨index, other⟩ := ringIndexWrite_pidx_leaves hr side moves
      exact ⟨_, exec_ringProducerDoorbell hr reach lets, index, other, rfl⟩
    · refine (exec_ringProducerDoorbell hr reach lets).trans (congrArg _ (onMach_congr (ringIndexWrite_pidx.trans (if_neg ?_))))
      rintro ⟨side, moves⟩
      exact bad.elim (fun h => h side) (fun h => h moves)
  · intro reach lets side moves
    obtain ⟨index, other⟩ := ringIndexWrite_cidx_leaves hr side moves
    exact ⟨_, exec_ringConsumerIndex hr reach lets, index, other, rfl⟩
  · intro x ring time en due
    exact (exec_ringIrqTimer hr).trans (congrArg _ (onMach_congr (opRingIrqTimer_eq ring time en due)))
  · intro k w wk hn found hw hk fine valid
    refine ⟨fun x walk allows => ?_, fun walk frame => ?_⟩
    · have e := opDatuWalkDone_eq (mem := s.mem) (result := xlatResume n (tlbUse x (walkEnded n s.mach))) hw found fine valid
        (fun y h => by cases h.symm.trans walk; exact ⟨allows, rfl⟩) fun h => nomatch h.symm.trans walk
      obtain ⟨tlb, walks⟩ := xlatResume_hif (n := n) (m := tlbUse x (walkEnded n s.mach))
      refine ⟨_, (exec_datuWalkDone hn).trans (congrArg _ (onMach_congr (g := fun m => xlatResume n (tlbUse x (walkEnded n m))) e)),
        ?_, walks, rfl⟩
      rw [State.onMach_mach, tlbFind, tlb, hk, ← tableWalk_page walk]
      exact tlbFind_tlbUse
    · have e := opDatuWalkDone_eq (mem := s.mem) (result := needPage n wk.addr wk.wr false (walkEnded n s.mach)) hw found fine valid
        (fun y h => nomatch h.symm.trans walk) fun _ => rfl
      subst frame
      exact ⟨_, (exec_datuWalkDone hn).trans (congrArg _ (onMach_congr (g := fun m => needPage 24 wk.addr wk.wr false (walkEnded 24 m)) e)),
        rfl, rfl⟩
  · intro p m' mem' first at_ put
    refine ⟨_, exec_pageRequestPost, ?_⟩
    rw [opPageRequestPost_eq first at_ put]
    exact ⟨rfl, rfl, rfl, rfl⟩
  · intro p lets inTime found good idle
    exact ⟨_, exec_prack okr live lets, prackWrite_eq found good inTime idle⟩
  · intro lets nodup
    obtain ⟨gone, busy, others⟩ := invPage_leaves (p := R.DATU_INVPAGE_PAGE.of v) nodup
    exact ⟨_, exec_invpage okr live lets, gone, busy, others, rfl⟩
  · intro lets all
    refine ⟨_, (exec_invall okr live lets).trans (congrArg _ (onMach_congr (g := invAll) (by rw [all]; rfl))), rfl, ?_, rfl⟩
    exact Mach.on_set_flag (f := R.DATU_INVSTAT_BUSY) rfl rfl true _
  · exact ⟨_, exec_invalidationDone, Mach.on_set_flag (f := R.DATU_INVSTAT_BUSY) rfl rfl false _, rfl, rfl⟩
  · intro seq body fs h frames free walks reqs look
    obtain ⟨left, sheets, mem⟩ := opHsfWrite_eq (mem := s.mem) frames free walks reqs look
    exact ⟨_, exec_hsfWrite, left, mem, sheets⟩

end Sys2Proof.Machine
end

section
/-! PROOFS. O54: the rail sequencer and its PMBus transactions (R339-R342). -/

namespace Sys2Proof.Machine

/-! ## Registers of the rails -/

section
variable {m n t : Mach} {k : Nat} {f : FRef}

theorem bitOf_mod {v w i : Nat} (h : i < w) : bitOf (v % 2 ^ w) i = bitOf v i := by
  have bit : (v % 2 ^ w).testBit i = v.testBit i := by rw [Nat.testBit_mod_two_pow, decide_eq_true h, Bool.true_and]
  rw [Nat.testBit_eq_decide_div_mod_eq, Nat.testBit_eq_decide_div_mod_eq, decide_eq_decide] at bit
  simp only [bitOf, beq_eq_decide, bit]

/-- A bit of a field that is written with the bit set or cleared. -/
theorem bitOf_set_field {i v : Nat} (h : f.sound = true) (hi : i < f.hi + 1 - f.lo) : bitOf ((m.set f v).get f) i = bitOf v i := by
  rw [Mach.get_set_self h, bitOf_mod hi]

theorem get_onPwr (g : Power → Power) (f : FRef) : (m.onPwr g).get f = m.get f := rfl

/-- The rails, their sequence and the time are as they were. -/
structure RailsAs (m n : Mach) : Prop where
  get : ∀ f : FRef, 0x020000 ≤ f.key → f.key < 0x020200 → n.get f = m.get f
  pwr : n.pwr = m.pwr
  clk : n.clk = m.clk

theorem Ripples.railsAs (h : Ripples False m n) : RailsAs m n :=
  ⟨fun f lo hi => h.get' (by simp only [rippleKey, List.mem_cons, List.not_mem_nil, or_false]; omega), h.pwr, h.clk⟩

theorem RailsAs.trans (h : RailsAs m n) (g : RailsAs n t) : RailsAs m t :=
  ⟨fun f lo hi => (g.get f lo hi).trans (h.get f lo hi), g.pwr.trans h.pwr, g.clk.trans h.clk⟩

/-- Only PMBus transactions have begun. -/
structure Asks (m n : Mach) : Prop where
  regs : n.regs = m.regs
  pwr : n.pwr = { m.pwr with pmb := n.pwr.pmb }
  clk : n.clk = m.clk
  flt : n.flt = m.flt

theorem Asks.get (h : Asks m n) (f : FRef) : n.get f = m.get f := by rw [Mach.get, Mach.word, h.regs]; rfl

theorem Asks.on (h : Asks m n) (f : FRef) : n.on f = m.on f := by rw [Mach.on, h.get f]; rfl

theorem asks_refl (m : Mach) : Asks m m := ⟨rfl, rfl, rfl, rfl⟩

theorem asks_railOff : Asks (m.set (R.PWR_RAILSTAT_ENOUT k) 0) (railOff k m) := by
  rw [railOff, when]
  split
  · exact ⟨rfl, rfl, rfl, rfl⟩
  · exact asks_refl _

theorem asks_railOn : Asks (m.set (R.PWR_RAILSTAT_ENOUT k) 1) (railOn k m) := by
  rw [railOn, when]
  split
  · exact ⟨rfl, rfl, rfl, rfl⟩
  · exact asks_refl _

theorem pgSrc_congr (h : n.get (R.PWR_RAILCFG_PGSRC k) = m.get (R.PWR_RAILCFG_PGSRC k)) : pgSrc k n = pgSrc k m := by
  rw [pgSrc, h]; rfl

/-! ## A slot's power-good -/

variable {v : Bool}

theorem setPg_good (hk : k < 16) : bitOf ((setPg k v m).get R.PWR_SEQSTAT_PG) k = v := by
  rw [setPg, Mach.get_set_ne _ (by simp only [R.PWR_SEQSTAT_PG, R.PWR_RAILSTAT_PG]; omega),
    bitOf_set_field (f := R.PWR_SEQSTAT_PG) rfl (by simp only [R.PWR_SEQSTAT_PG]; omega)]
  cases v
  · exact bitOf_clrBit ..
  · exact bitOf_setBit ..

theorem setPg_get (seq : R.PWR_SEQSTAT_PG.apart f) (rail : (R.PWR_RAILSTAT_PG k).apart f) : (setPg k v m).get f = m.get f := by
  rw [setPg, Mach.get_set_of_apart _ rail, Mach.get_set_of_apart _ seq]

/-- A register that holds no power-good. -/
theorem setPg_get_ne (seq : f.key ≠ 0x020014) (rail : f.key ≠ 0x02010C + 0x10 * k) : (setPg k v m).get f = m.get f :=
  setPg_get (.inl seq) (.inl rail)

theorem setPg_state : (setPg k v m).get R.PWR_SEQSTAT_STATE = m.get R.PWR_SEQSTAT_STATE :=
  setPg_get (FRef.apart_of_bits rfl) (.inl (by simp only [R.PWR_SEQSTAT_STATE, R.PWR_RAILSTAT_PG]; omega))

theorem setPg_slot : railSlot (setPg k v m) = railSlot m :=
  setPg_get (FRef.apart_of_bits rfl) (.inl (by simp only [R.PWR_SEQSTAT_SLOT, R.PWR_RAILSTAT_PG]; omega))

theorem setPg_waiting (x : Nat) : waiting x k (setPg k v m) = waiting x k m := by
  rw [waiting, setPg_state, setPg_slot]; rfl

/-! ## A slot's first wait -/

/-- The sequence stands at slot k in state x, k's rail on or off, with the slots ks still to come. -/
structure SlotWaits (x : Nat) (on : Bool) (k : Nat) (ks : List Nat) (m t : Mach) : Prop where
  state : t.get R.PWR_SEQSTAT_STATE = x
  slot : railSlot t = k
  enout : t.on (R.PWR_RAILSTAT_ENOUT k) = on
  slots : t.pwr.slots = ks
  inDelay : t.pwr.inDelay = (pgSrc k m == 0 && m.on (R.PWR_RAILSTAT_PG k) == on)
  railAt : t.pwr.railAt = m.clk.tick
  restart : t.pwr.restart = m.pwr.restart

/-- The slot's rail and the time are as a machine before showed them. -/
structure SlotAs (k : Nat) (m n : Mach) : Prop where
  pg : n.on (R.PWR_RAILSTAT_PG k) = m.on (R.PWR_RAILSTAT_PG k)
  src : pgSrc k n = pgSrc k m
  clk : n.clk = m.clk
  restart : n.pwr.restart = m.pwr.restart

theorem pinReady_eq (on : Bool) : pinReady on k n =
    if pgSrc k n == 0 && n.on (R.PWR_RAILSTAT_PG k) == on then railDelay n else n := by
  rw [pinReady, ← beq_eq_decide]

theorem pinReady_get (on : Bool) : (pinReady on k n).get f = n.get f := by
  rw [pinReady]
  split
  · rfl
  · rfl

theorem railWait_get (apart : R.PWR_SEQSTAT_SLOT.apart f) : (railWait k n).get f = n.get f := by
  rw [railWait, get_onPwr, Mach.get_set_of_apart _ apart]

/-- A slot's first wait begins; an input that shows the level already ends it. -/
theorem slotWaits_of {x : Nat} {on : Bool} {ks : List Nat} (hk : k < 16) (as : SlotAs k m n)
    (state : n.get R.PWR_SEQSTAT_STATE = x) (enout : n.on (R.PWR_RAILSTAT_ENOUT k) = on) (slots : n.pwr.slots = ks) :
    SlotWaits x on k ks m (pinReady on k (railWait k n)) := by
  obtain ⟨pg, src, clk, restart⟩ := as
  have far (g : FRef) (ne : g.key ≠ 0x020014) : (railWait k n).get g = n.get g := railWait_get (.inl ne)
  have pg' : (railWait k n).on (R.PWR_RAILSTAT_PG k) = m.on (R.PWR_RAILSTAT_PG k) := by
    rw [Mach.on, far _ (by simp only [R.PWR_RAILSTAT_PG]; omega)]
    exact pg
  have src' : pgSrc k (railWait k n) = pgSrc k m :=
    (pgSrc_congr (far _ (by simp only [R.PWR_RAILCFG_PGSRC]; omega))).trans src
  refine ⟨?_, ?_, ?_, ?_, ?_, ?_, ?_⟩
  · rw [pinReady_get, railWait_get (FRef.apart_of_bits rfl)]
    exact state
  · rw [railSlot, pinReady_get, railWait, get_onPwr]
    exact Mach.get_set_val (f := R.PWR_SEQSTAT_SLOT) rfl (Nat.lt_trans hk (by decide)) _
  · rw [Mach.on, pinReady_get, far _ (by simp only [R.PWR_RAILSTAT_ENOUT]; omega)]
    exact enout
  · rw [pinReady_eq]
    split
    · exact slots
    · exact slots
  · rw [pinReady_eq, src', pg']
    split
    · next ready => exact ready.symm
    · next unready => exact (Bool.eq_false_iff.2 unready).symm
  · rw [pinReady_eq, ← clk]
    split
    · rfl
    · rfl
  · rw [pinReady_eq]
    split
    · exact restart
    · exact restart

/-! ## The down sequence -/

/-- What the down sequence leaves alone, and its state. -/
structure DownKeeps (m t : Mach) : Prop where
  failed : ∀ n, t.on (R.PWR_RAILSTAT_FAILED n) = m.on (R.PWR_RAILSTAT_FAILED n)
  disto : ∀ n, t.on (R.PWR_RAILSTAT_DISTO n) = m.on (R.PWR_RAILSTAT_DISTO n)
  latch : t.get R.PWR_FAIL_LATCH = m.get R.PWR_FAIL_LATCH
  dto : t.get R.PWR_FAIL_DTO = m.get R.PWR_FAIL_DTO
  pg : t.get R.PWR_SEQSTAT_PG = m.get R.PWR_SEQSTAT_PG
  state : t.get R.PWR_SEQSTAT_STATE = m.get R.PWR_SEQSTAT_STATE ∨
    t.get R.PWR_SEQSTAT_STATE = if m.get R.PWR_FAIL_LATCH = 0 then seqOff else seqLatched
  flt : t.flt = m.flt
  after : t.pwr.after = m.pwr.after
  restart : t.pwr.restart = m.pwr.restart

theorem DownKeeps.trans (h : DownKeeps m n) (g : DownKeeps n t) : DownKeeps m t where
  failed k := (g.failed k).trans (h.failed k)
  disto k := (g.disto k).trans (h.disto k)
  latch := g.latch.trans h.latch
  dto := g.dto.trans h.dto
  pg := g.pg.trans h.pg
  state := by
    rcases g.state with e | e
    · rcases h.state with e' | e'
      · exact .inl (e.trans e')
      · exact .inr (e.trans e')
    · exact .inr (by rw [e, h.latch])
  flt := g.flt.trans h.flt
  after := g.after.trans h.after
  restart := g.restart.trans h.restart

/-- A step that changes neither failures, power-goods nor the state. -/
theorem downKeeps_of (get : ∀ f : FRef, (R.PWR_SEQSTAT_SLOT).apart f → (∀ k, (R.PWR_RAILSTAT_ENOUT k).apart f) → t.get f = m.get f)
    (flt : t.flt = m.flt) (after : t.pwr.after = m.pwr.after) (restart : t.pwr.restart = m.pwr.restart) : DownKeeps m t where
  failed n := by
    rw [Mach.on, get _ (.inl (by simp only [R.PWR_RAILSTAT_FAILED, R.PWR_SEQSTAT_SLOT]; omega)) fun k => ?_]; rfl
    by_cases e : k = n
    · rw [e]; exact FRef.apart_of_bits rfl
    · exact .inl (by simp only [R.PWR_RAILSTAT_FAILED, R.PWR_RAILSTAT_ENOUT]; omega)
  disto n := by
    rw [Mach.on, get _ (.inl (by simp only [R.PWR_RAILSTAT_DISTO, R.PWR_SEQSTAT_SLOT]; omega)) fun k => ?_]; rfl
    by_cases e : k = n
    · rw [e]; exact FRef.apart_of_bits rfl
    · exact .inl (by simp only [R.PWR_RAILSTAT_DISTO, R.PWR_RAILSTAT_ENOUT]; omega)
  latch := get _ (.inl (by decide)) fun k => .inl (by simp only [R.PWR_FAIL_LATCH, R.PWR_RAILSTAT_ENOUT]; omega)
  dto := get _ (.inl (by decide)) fun k => .inl (by simp only [R.PWR_FAIL_DTO, R.PWR_RAILSTAT_ENOUT]; omega)
  pg := get _ (FRef.apart_of_bits rfl) fun k => .inl (by simp only [R.PWR_SEQSTAT_PG, R.PWR_RAILSTAT_ENOUT]; omega)
  state := .inl (get _ (FRef.apart_of_bits rfl) fun k => .inl (by simp only [R.PWR_SEQSTAT_STATE, R.PWR_RAILSTAT_ENOUT]; omega))
  flt := flt
  after := after
  restart := restart

theorem railOff_keeps : DownKeeps m (railOff k m) :=
  have asks := asks_railOff (k := k) (m := m)
  downKeeps_of (fun f _ apart => (asks.get f).trans (Mach.get_set_of_apart _ (apart k) _)) asks.flt (congrArg Power.after asks.pwr :)
    (congrArg Power.restart asks.pwr :)

theorem railWait_keeps : DownKeeps m (railWait k m) := downKeeps_of (fun _ apart _ => railWait_get apart) rfl rfl rfl

theorem pinReady_keeps (on : Bool) : DownKeeps m (pinReady on k m) := by
  refine downKeeps_of (fun _ _ _ => pinReady_get on) ?_ ?_ ?_ <;> rw [pinReady] <;> split <;> rfl

/-- The end of the down sequence. -/
def downOver (m : Mach) : Mach :=
  ((m.set R.PWR_SEQSTAT_STATE (if m.get R.PWR_FAIL_LATCH = 0 then seqOff else seqLatched)).set R.PWR_SEQSTAT_SLOT 31).onPwr fun p =>
    { p with slots := [], inDelay := false }

/-- Nothing follows the down sequence. -/
theorem downEnd_eq (after : m.pwr.after = 0) : downEnd m = downOver m := by
  have after' : (downOver m).pwr.after = 0 := after
  show afterDown (downOver m) = downOver m
  simp only [afterDown, after']

theorem downOver_state : (downOver m).get R.PWR_SEQSTAT_STATE = if m.get R.PWR_FAIL_LATCH = 0 then seqOff else seqLatched := by
  rw [downOver, get_onPwr, Mach.get_set_bits (f := R.PWR_SEQSTAT_SLOT) (g := R.PWR_SEQSTAT_STATE) rfl]
  exact Mach.get_set_val (f := R.PWR_SEQSTAT_STATE) rfl (by split <;> decide) _

theorem downOver_slot : railSlot (downOver m) = 31 := by
  rw [railSlot, downOver, get_onPwr]
  exact Mach.get_set_val (f := R.PWR_SEQSTAT_SLOT) rfl (by decide) _

theorem downOver_keeps : DownKeeps m (downOver m) := by
  have far (f : FRef) (ne : f.key ≠ 0x020014) : (downOver m).get f = m.get f := by
    rw [downOver, get_onPwr, Mach.get_set_ne _ ne, Mach.get_set_ne _ ne]
  refine ⟨fun n => ?_, fun n => ?_, far _ (by decide), far _ (by decide), ?_, .inr downOver_state, rfl, rfl, rfl⟩
  · rw [Mach.on, far _ (by simp only [R.PWR_RAILSTAT_FAILED]; omega)]; rfl
  · rw [Mach.on, far _ (by simp only [R.PWR_RAILSTAT_DISTO]; omega)]; rfl
  · rw [downOver, get_onPwr, Mach.get_set_bits (f := R.PWR_SEQSTAT_SLOT) (g := R.PWR_SEQSTAT_PG) rfl,
      Mach.get_set_bits (f := R.PWR_SEQSTAT_STATE) (g := R.PWR_SEQSTAT_PG) rfl]

/-- The down sequence over any slots. -/
theorem downRun_keeps (ns : List Nat) : ∀ m, m.pwr.after = 0 → DownKeeps m (downRun ns m) := by
  induction ns with
  | nil => exact fun m after => by rw [downRun, downEnd_eq after]; exact downOver_keeps
  | cons k ns ih =>
    intro m after
    have off := railOff_keeps (k := k) (m := m)
    rw [downRun]
    split
    · exact off.trans (ih _ (off.after.trans after))
    · have slots : DownKeeps (railOff k m) ((railOff k m).onPwr fun p => { p with slots := ns }) :=
        downKeeps_of (fun _ _ _ => rfl) rfl rfl rfl
      exact ((off.trans slots).trans railWait_keeps).trans (pinReady_keeps false)

/-- The next slot of the down sequence, where it has not failed. -/
theorem downRun_cons {ks : List Nat} (hk : k < 16) (sound : m.on (R.PWR_RAILSTAT_FAILED k) = false) :
    SlotWaits (m.get R.PWR_SEQSTAT_STATE) false k ks m (downRun (k :: ks) m) := by
  have asks := asks_railOff (k := k) (m := m)
  have off := railOff_keeps (k := k) (m := m)
  have go : ((railOff k m).on (R.PWR_RAILSTAT_FAILED k)) = false := (off.failed k).trans sound
  have eq : downRun (k :: ks) m = pinReady false k (railWait k ((railOff k m).onPwr fun p => { p with slots := ks })) := by
    rw [downRun, if_neg (Bool.eq_false_iff.1 go)]
  rw [eq]
  refine slotWaits_of hk ⟨?_, ?_, asks.clk, off.restart⟩ ?_ ?_ rfl
  · exact (asks.on _).trans (Mach.on_set_bits (f := R.PWR_RAILSTAT_ENOUT k) (g := R.PWR_RAILSTAT_PG k) rfl _ _)
  · exact pgSrc_congr ((asks.get _).trans (Mach.get_set_ne _ (f := R.PWR_RAILSTAT_ENOUT k) (by simp only [R.PWR_RAILCFG_PGSRC, R.PWR_RAILSTAT_ENOUT]; omega) _))
  · exact (asks.get _).trans (Mach.get_set_ne _ (f := R.PWR_RAILSTAT_ENOUT k) (by simp only [R.PWR_SEQSTAT_STATE, R.PWR_RAILSTAT_ENOUT]; omega) _)
  · exact (asks.on _).trans (Mach.on_set_flag (f := R.PWR_RAILSTAT_ENOUT k) rfl rfl false _)

/-! ## The up sequence -/

/-- The next slot of the up sequence. -/
theorem upRun_cons {ks : List Nat} (hk : k < 16) : SlotWaits (m.get R.PWR_SEQSTAT_STATE) true k ks m (upRun (k :: ks) m) := by
  have asks := asks_railOn (k := k) (m := m.onPwr fun p => { p with slots := ks })
  have eq : upRun (k :: ks) m = pinReady true k (railWait k (railOn k (m.onPwr fun p => { p with slots := ks }))) := by rw [upRun]
  rw [eq]
  refine slotWaits_of hk ⟨?_, ?_, asks.clk, (congrArg Power.restart asks.pwr :)⟩ ?_ ?_ (congrArg Power.slots asks.pwr :)
  · exact (asks.on _).trans (Mach.on_set_bits (f := R.PWR_RAILSTAT_ENOUT k) (g := R.PWR_RAILSTAT_PG k) rfl _ _)
  · exact pgSrc_congr ((asks.get _).trans (Mach.get_set_ne _ (f := R.PWR_RAILSTAT_ENOUT k) (by simp only [R.PWR_RAILCFG_PGSRC, R.PWR_RAILSTAT_ENOUT]; omega) _))
  · exact (asks.get _).trans (Mach.get_set_ne _ (f := R.PWR_RAILSTAT_ENOUT k) (by simp only [R.PWR_SEQSTAT_STATE, R.PWR_RAILSTAT_ENOUT]; omega) _)
  · exact (asks.on _).trans (Mach.on_set_flag (f := R.PWR_RAILSTAT_ENOUT k) rfl rfl true _)

/-- The sequence is up. -/
theorem upRun_nil : (upRun [] m).get R.PWR_SEQSTAT_STATE = seqOn ∧ railSlot (upRun [] m) = 31 ∧
    (upRun [] m).pwr.restart = m.pwr.restart := by
  rw [upRun]
  refine ⟨?_, ?_, (congrArg Power.restart (ripples_assertEvent (trip := False) ..).pwr).trans rfl⟩
  · rw [assertEvent_get, get_onPwr, Mach.get_set_bits (f := R.PWR_SEQSTAT_SLOT) (g := R.PWR_SEQSTAT_STATE) rfl]
    exact Mach.get_set_val (f := R.PWR_SEQSTAT_STATE) rfl (by decide) _
  · rw [railSlot, assertEvent_get, get_onPwr]
    exact Mach.get_set_val (f := R.PWR_SEQSTAT_SLOT) rfl (by decide) _

theorem SlotWaits.of_as {x : Nat} {on : Bool} {ks : List Nat} (h : SlotWaits x on k ks n t) (as : SlotAs k m n) : SlotWaits x on k ks m t :=
  { h with
    inDelay := by rw [h.inDelay, as.src, as.pg]
    railAt := h.railAt.trans (congrArg Clk.tick as.clk)
    restart := h.restart.trans as.restart }

theorem upRun_cons_get {ks : List Nat} (slot : R.PWR_SEQSTAT_SLOT.apart f) (enout : (R.PWR_RAILSTAT_ENOUT k).apart f) :
    (upRun (k :: ks) m).get f = m.get f := by
  rw [upRun, pinReady_get, railWait_get slot, asks_railOn.get, Mach.get_set_of_apart _ enout, get_onPwr]

theorem railOrder_lt (h : k ∈ railOrder m) : k < 16 := by
  rw [railOrder, List.mem_flatMap] at h
  obtain ⟨o, _, hk⟩ := h
  exact List.mem_range.1 (List.mem_filter.1 hk).1

theorem railOrder_congr (en : ∀ k, n.get (R.PWR_RAILCFG_EN k) = m.get (R.PWR_RAILCFG_EN k))
    (order : ∀ k, n.get (R.PWR_RAILCFG_ORDER k) = m.get (R.PWR_RAILCFG_ORDER k)) : railOrder n = railOrder m := by
  simp only [railOrder, Mach.on, en, order]

/-- The discharge records gone. -/
def distoCleared (m : Mach) : Mach :=
  each (List.range 16) (fun n m => m.set (R.PWR_RAILSTAT_DISTO n) 0) (m.set R.PWR_FAIL_DTO 0)

theorem distoCleared_get (apart : ∀ k, (R.PWR_RAILSTAT_DISTO k).apart f) : (distoCleared m).get f = (m.set R.PWR_FAIL_DTO 0).get f :=
  each_keeps (p := fun m => m.get f) (f := fun n m => m.set (R.PWR_RAILSTAT_DISTO n) 0) _
    (fun k _ _ => Mach.get_set_of_apart _ (apart k) _) _

theorem distoCleared_get_ne (key : f.key ≠ 0x020018) (apart : ∀ k, f.key ≠ 0x02010C + 0x10 * k) : (distoCleared m).get f = m.get f :=
  (distoCleared_get fun k => .inl (apart k)).trans (Mach.get_set_ne _ key _)

theorem distoCleared_pwr : (distoCleared m).pwr = m.pwr ∧ (distoCleared m).clk = m.clk :=
  ⟨each_keeps (p := Mach.pwr) (f := fun n m => m.set (R.PWR_RAILSTAT_DISTO n) 0) _ (fun _ _ _ => rfl) _,
    each_keeps (p := Mach.clk) (f := fun n m => m.set (R.PWR_RAILSTAT_DISTO n) 0) _ (fun _ _ _ => rfl) _⟩

theorem upStart_eq : upStart m = upRun (railOrder m) ((distoCleared m).set R.PWR_SEQSTAT_STATE seqUp) := by
  have order : railOrder (distoCleared m) = railOrder m := by
    refine railOrder_congr (fun k => distoCleared_get_ne ?_ fun j => ?_) (fun k => distoCleared_get_ne ?_ fun j => ?_)
    · simp only [R.PWR_RAILCFG_EN]; omega
    · simp only [R.PWR_RAILCFG_EN]; omega
    · simp only [R.PWR_RAILCFG_ORDER]; omega
    · simp only [R.PWR_RAILCFG_ORDER]; omega
  show upRun (railOrder (distoCleared m)) _ = _
  rw [order]
  rfl

theorem state_set (x : Nat) (hx : x < 8) : (m.set R.PWR_SEQSTAT_STATE x).get R.PWR_SEQSTAT_STATE = x :=
  Mach.get_set_val (f := R.PWR_SEQSTAT_STATE) rfl hx _

theorem upStart_nil (none_ : railOrder m = []) : (upStart m).get R.PWR_SEQSTAT_STATE = seqOn ∧
    (upStart m).pwr.restart = m.pwr.restart := by
  have restart : (distoCleared m).pwr.restart = m.pwr.restart := congrArg Power.restart distoCleared_pwr.1
  rw [upStart_eq, none_]
  generalize distoCleared m = n at restart
  exact ⟨upRun_nil.1, upRun_nil.2.2.trans restart⟩

/-- What clearing the records leaves of a slot. -/
theorem distoCleared_as (k : Nat) : SlotAs k m (distoCleared m) := by
  refine ⟨?_, pgSrc_congr (distoCleared_get_ne ?_ fun j => ?_), distoCleared_pwr.2, congrArg Power.restart distoCleared_pwr.1⟩
  · have kept : (distoCleared m).get (R.PWR_RAILSTAT_PG k) = m.get (R.PWR_RAILSTAT_PG k) := by
      refine (distoCleared_get fun j => ?_).trans (Mach.get_set_ne _ (by simp only [R.PWR_RAILSTAT_PG, R.PWR_FAIL_DTO]; omega) _)
      by_cases e : j = k
      · rw [e]; exact FRef.apart_of_bits rfl
      · exact .inl (by simp only [R.PWR_RAILSTAT_PG, R.PWR_RAILSTAT_DISTO]; omega)
    exact congrArg (· == 1) kept
  · simp only [R.PWR_RAILCFG_PGSRC]; omega
  · simp only [R.PWR_RAILCFG_PGSRC]; omega

theorem distoCleared_dto : (distoCleared m).get R.PWR_FAIL_DTO = 0 :=
  (distoCleared_get fun j => .inl (by simp only [R.PWR_FAIL_DTO, R.PWR_RAILSTAT_DISTO]; omega)).trans
    (Mach.get_set_val (f := R.PWR_FAIL_DTO) rfl (Nat.two_pow_pos _) _)

theorem SlotAs.set_state (h : SlotAs k m n) (x : Nat) : SlotAs k m (n.set R.PWR_SEQSTAT_STATE x) where
  pg := (Mach.on_set_ne _ (by simp only [R.PWR_RAILSTAT_PG, R.PWR_SEQSTAT_STATE]; omega) _).trans h.pg
  src := (pgSrc_congr (Mach.get_set_ne _ (by simp only [R.PWR_RAILCFG_PGSRC, R.PWR_SEQSTAT_STATE]; omega) _)).trans h.src
  clk := h.clk
  restart := h.restart

theorem upStart_cons {ks : List Nat} (order : railOrder m = k :: ks) : SlotWaits seqUp true k ks m (upStart m) ∧
    (upStart m).get R.PWR_FAIL_DTO = 0 := by
  have hk : k < 16 := railOrder_lt (m := m) (by rw [order]; exact List.mem_cons_self)
  have as := distoCleared_as (m := m) k
  have dto := distoCleared_dto (m := m)
  rw [upStart_eq, order]
  generalize distoCleared m = n at as dto
  have waits := upRun_cons (m := n.set R.PWR_SEQSTAT_STATE seqUp) (ks := ks) hk
  rw [state_set _ (by decide)] at waits
  refine ⟨waits.of_as (as.set_state _), ?_⟩
  rw [upRun_cons_get (.inl (by decide)) (.inl (by simp only [R.PWR_FAIL_DTO, R.PWR_RAILSTAT_ENOUT]; omega)),
    Mach.get_set_ne _ (by decide)]
  exact dto

/-! ## Slots that fail -/

/-- A slot has failed: it is marked, and the sequence goes down or has ended latched. -/
structure Fails (k : Nat) (m t : Mach) : Prop where
  failed : t.on (R.PWR_RAILSTAT_FAILED k) = true
  latch : bitOf (t.get R.PWR_FAIL_LATCH) k = true
  pg : t.get R.PWR_SEQSTAT_PG = m.get R.PWR_SEQSTAT_PG
  state : t.get R.PWR_SEQSTAT_STATE = seqDown ∨ t.get R.PWR_SEQSTAT_STATE = seqLatched
  restart : t.pwr.restart = m.pwr.restart

theorem markFailed_failed : (markFailed k m).on (R.PWR_RAILSTAT_FAILED k) = true := by
  rw [markFailed, Mach.on_set_ne _ (by simp only [R.PWR_RAILSTAT_FAILED, R.PWR_FAIL_LATCH]; omega)]
  exact Mach.on_set_flag (f := R.PWR_RAILSTAT_FAILED k) rfl rfl true m

theorem markFailed_latch (hk : k < 16) : bitOf ((markFailed k m).get R.PWR_FAIL_LATCH) k = true := by
  rw [markFailed, bitOf_set_field (f := R.PWR_FAIL_LATCH) rfl (by simp only [R.PWR_FAIL_LATCH]; omega), bitOf_setBit]

theorem markFailed_get (key : f.key ≠ 0x020018) (rail : f.key ≠ 0x02010C + 0x10 * k) : (markFailed k m).get f = m.get f := by
  rw [markFailed, Mach.get_set_ne _ key, Mach.get_set_ne _ rail]

/-- The down sequence starts where a slot has failed. -/
theorem downStart_fails (ns : List Nat) (after : n.pwr.after = 0) (failed : n.on (R.PWR_RAILSTAT_FAILED k) = true)
    (latch : bitOf (n.get R.PWR_FAIL_LATCH) k = true) : Fails k n (downStart ns n) ∧ (downStart ns n).flt = n.flt := by
  have keeps := downRun_keeps ns.reverse (n.set R.PWR_SEQSTAT_STATE seqDown) after
  have latch' : (n.set R.PWR_SEQSTAT_STATE seqDown).get R.PWR_FAIL_LATCH = n.get R.PWR_FAIL_LATCH := Mach.get_set_ne _ (by decide) _
  have some_ : n.get R.PWR_FAIL_LATCH ≠ 0 := fun zero => by
    rw [zero, bitOf, Nat.zero_div] at latch
    exact absurd latch (by decide)
  refine ⟨⟨(keeps.failed k).trans ?_, ?_, keeps.pg.trans (Mach.get_set_bits (f := R.PWR_SEQSTAT_STATE) (g := R.PWR_SEQSTAT_PG) rfl _ _),
    ?_, keeps.restart⟩, keeps.flt⟩
  · exact (Mach.on_set_ne _ (by simp only [R.PWR_RAILSTAT_FAILED, R.PWR_SEQSTAT_STATE]; omega) _).trans failed
  · rw [show (downStart ns n).get R.PWR_FAIL_LATCH = n.get R.PWR_FAIL_LATCH from keeps.latch.trans latch']
    exact latch
  · refine keeps.state.imp (fun e => e.trans (state_set _ (by decide))) (fun e => e.trans ?_)
    rw [latch', if_neg some_]

/-- A message of a slot that has failed. -/
def failSaid (kind cls k : Nat) (m : Mach) : Mach := assertEvent 0x021 (raise 0x021 kind cls (markFailed k m) 0 k)

theorem failSaid_as {kind cls : Nat} (h4 : cls ≠ 4) : RailsAs (markFailed k m) (failSaid kind cls k m) :=
  ((ripples_raise h4).trans (ripples_assertEvent ..)).railsAs

theorem failSaid_fails {kind cls : Nat} (h4 : cls ≠ 4) (hk : k < 16) (after : m.pwr.after = 0) (ns : List Nat) :
    Fails k m (downStart ns (failSaid kind cls k m)) ∧
      (downStart ns (failSaid kind cls k m)).flt = (raise 0x021 kind cls (markFailed k m) 0 k).flt := by
  have as := failSaid_as (k := k) (m := m) (kind := kind) h4
  have failed : (failSaid kind cls k m).on (R.PWR_RAILSTAT_FAILED k) = true := by
    rw [Mach.on, as.get _ (by simp only [R.PWR_RAILSTAT_FAILED]; omega) (by simp only [R.PWR_RAILSTAT_FAILED]; omega)]
    exact markFailed_failed
  have latch : bitOf ((failSaid kind cls k m).get R.PWR_FAIL_LATCH) k = true := by
    rw [as.get _ (by decide) (by decide)]
    exact markFailed_latch hk
  have pg : (failSaid kind cls k m).get R.PWR_SEQSTAT_PG = m.get R.PWR_SEQSTAT_PG :=
    (as.get _ (by decide) (by decide)).trans (markFailed_get (by decide) (by simp only [R.PWR_SEQSTAT_PG]; omega))
  obtain ⟨fails, flt⟩ := downStart_fails ns ((congrArg Power.after as.pwr).trans after) failed latch
  exact ⟨{ fails with pg := fails.pg.trans pg, restart := fails.restart.trans (congrArg Power.restart as.pwr) },
    flt.trans (assertEvent_flt ..)⟩

theorem upFail_eq : upFail k m = downStart (railOrder (failSaid 0x03 3 k m)) (failSaid 0x03 3 k m) := by
  have order : railOrder (raise 0x021 0x03 3 (markFailed k m) 0 k) = railOrder (failSaid 0x03 3 k m) :=
    (railOrder_congr (fun _ => (assertEvent_get ..)) fun _ => (assertEvent_get ..)).symm
  rw [upFail]
  exact congrArg (fun ns => downStart ns (failSaid 0x03 3 k m)) order

/-- A critical slot that is lost takes the others down. -/
theorem onLost_critical (crit : (failSaid 0x04 (min 3 (m.get (R.PWR_RAILCFG_FCLS k))) k m).on (R.PWR_RAILCFG_CRIT k) = true) :
    onLost k m = downStart (railOrder (failSaid 0x04 (min 3 (m.get (R.PWR_RAILCFG_FCLS k))) k m))
      (failSaid 0x04 (min 3 (m.get (R.PWR_RAILCFG_FCLS k))) k m) := if_pos crit

/-- Another goes off alone. -/
theorem onLost_alone (crit : (failSaid 0x04 (min 3 (m.get (R.PWR_RAILCFG_FCLS k))) k m).on (R.PWR_RAILCFG_CRIT k) = false) :
    onLost k m = railOff k (failSaid 0x04 (min 3 (m.get (R.PWR_RAILCFG_FCLS k))) k m) := if_neg (Bool.eq_false_iff.1 crit)

theorem upFail_fails (hk : k < 16) (after : m.pwr.after = 0) : Fails k m (upFail k m) ∧
    (upFail k m).flt = (raise 0x021 0x03 3 (markFailed k m) 0 k).flt := by
  rw [upFail_eq]
  exact failSaid_fails (by decide) hk after _

/-- A message of a failed slot leaves the registers of the rails that a failure does not mark. -/
theorem failSaid_get {kind cls : Nat} (h4 : cls ≠ 4) (lo : 0x020000 ≤ f.key) (hi : f.key < 0x020200) (key : f.key ≠ 0x020018)
    (rail : f.key ≠ 0x02010C + 0x10 * k) : (failSaid kind cls k m).get f = m.get f :=
  ((failSaid_as h4).get f lo hi).trans (markFailed_get key rail)

theorem min3_ne (c : Nat) : min 3 c ≠ 4 := by omega

theorem onLost_fails (hk : k < 16) (after : m.pwr.after = 0) (crit : m.on (R.PWR_RAILCFG_CRIT k) = true) : Fails k m (onLost k m) := by
  have kept := failSaid_get (f := R.PWR_RAILCFG_CRIT k) (k := k) (m := m) (kind := 0x04)
    (min3_ne (m.get (R.PWR_RAILCFG_FCLS k))) (by simp only [R.PWR_RAILCFG_CRIT]; omega) (by simp only [R.PWR_RAILCFG_CRIT]; omega)
    (by simp only [R.PWR_RAILCFG_CRIT]; omega) (by simp only [R.PWR_RAILCFG_CRIT]; omega)
  rw [onLost_critical ((congrArg (· == 1) kept).trans crit)]
  exact (failSaid_fails (min3_ne _) hk after _).1

theorem onLost_off (hk : k < 16) (crit : m.on (R.PWR_RAILCFG_CRIT k) = false) :
    (onLost k m).get R.PWR_SEQSTAT_PG = m.get R.PWR_SEQSTAT_PG ∧
      (onLost k m).get R.PWR_SEQSTAT_STATE = m.get R.PWR_SEQSTAT_STATE ∧ (onLost k m).on (R.PWR_RAILSTAT_FAILED k) = true ∧
      (onLost k m).on (R.PWR_RAILSTAT_ENOUT k) = false ∧ (onLost k m).pwr.restart = m.pwr.restart := by
  have h4 := min3_ne (m.get (R.PWR_RAILCFG_FCLS k))
  have kept := failSaid_get (f := R.PWR_RAILCFG_CRIT k) (k := k) (m := m) (kind := 0x04) h4
    (by simp only [R.PWR_RAILCFG_CRIT]; omega) (by simp only [R.PWR_RAILCFG_CRIT]; omega)
    (by simp only [R.PWR_RAILCFG_CRIT]; omega) (by simp only [R.PWR_RAILCFG_CRIT]; omega)
  rw [onLost_alone ((congrArg (· == 1) kept).trans crit)]
  have as := failSaid_as (k := k) (m := m) (kind := 0x04) h4
  have seq (g : FRef) (key : g.key = 0x020014) : (failSaid 0x04 (min 3 (m.get (R.PWR_RAILCFG_FCLS k))) k m).get g = m.get g :=
    failSaid_get h4 (by omega) (by omega) (by omega) (by omega)
  have failed : (failSaid 0x04 (min 3 (m.get (R.PWR_RAILCFG_FCLS k))) k m).on (R.PWR_RAILSTAT_FAILED k) = true := by
    rw [Mach.on, as.get _ (by simp only [R.PWR_RAILSTAT_FAILED]; omega) (by simp only [R.PWR_RAILSTAT_FAILED]; omega)]
    exact markFailed_failed
  have restart := congrArg Power.restart as.pwr
  have pg := seq R.PWR_SEQSTAT_PG rfl
  have state := seq R.PWR_SEQSTAT_STATE rfl
  generalize failSaid 0x04 (min 3 (m.get (R.PWR_RAILCFG_FCLS k))) k m = n at failed restart pg state
  have keeps := railOff_keeps (k := k) (m := n)
  have asks := asks_railOff (k := k) (m := n)
  refine ⟨keeps.pg.trans pg, ?_, (keeps.failed k).trans failed, ?_, keeps.restart.trans restart⟩
  · exact ((asks.get _).trans (Mach.get_set_ne _ (by simp only [R.PWR_SEQSTAT_STATE, R.PWR_RAILSTAT_ENOUT]; omega) _)).trans state
  · exact (asks.on _).trans (Mach.on_set_flag (f := R.PWR_RAILSTAT_ENOUT k) rfl rfl false _)

/-! ## The sequencer's commands -/

theorem SlotAs.refl (k : Nat) (m : Mach) : SlotAs k m m := ⟨rfl, rfl, rfl, rfl⟩

section
variable {v : Word}

/-- A write that asks for the up sequence only. -/
theorem seqctlWrite_one (up : (R.PWR_SEQCTL_UP.of v == 0) = false) (down : (R.PWR_SEQCTL_DOWN.of v == 1) = false) :
    seqctlWrite v m = if m.get R.PWR_FAIL_LATCH != 0 then ignored R.PWR_SEQCTL_UP.key m
      else if m.get R.PWR_SEQSTAT_STATE == seqOff then upStart m else m := by
  simp only [seqctlWrite, up, down, Bool.false_and, Bool.false_eq_true, if_false]

theorem seqctlWrite_latched (latch : m.get R.PWR_FAIL_LATCH ≠ 0) : seqctlWrite 1 m = ignored R.PWR_SEQCTL_UP.key m :=
  (seqctlWrite_one (by decide) (by decide)).trans (if_pos (bne_iff_ne.2 latch))

theorem seqctlWrite_up (clear : m.get R.PWR_FAIL_LATCH = 0) (off : m.get R.PWR_SEQSTAT_STATE = seqOff) : seqctlWrite 1 m = upStart m :=
  (seqctlWrite_one (by decide) (by decide)).trans ((if_neg (by rw [clear]; decide)).trans (if_pos (by rw [off]; decide)))

/-- A write that asks for the down sequence only. -/
theorem seqctlWrite_two (up : (R.PWR_SEQCTL_UP.of v == 0) = true) (down : (R.PWR_SEQCTL_DOWN.of v == 1) = true) :
    seqctlWrite v m = if m.get R.PWR_SEQSTAT_STATE == seqOn then downStart (railOrder m) m else m := by
  simp only [seqctlWrite, up, down, Bool.true_and, if_true]

theorem seqctlWrite_down (on_ : m.get R.PWR_SEQSTAT_STATE = seqOn) : seqctlWrite 2 m = downStart (railOrder m) m :=
  (seqctlWrite_two (by decide) (by decide)).trans (if_pos (by rw [on_]; decide))

end

theorem downStart_cons {ks : List Nat} (order : (railOrder m).reverse = k :: ks) (sound : m.on (R.PWR_RAILSTAT_FAILED k) = false) :
    SlotWaits seqDown false k ks m (downStart (railOrder m) m) := by
  have hk : k < 16 := railOrder_lt (m := m) (List.mem_reverse.1 (by rw [order]; exact List.mem_cons_self))
  have waits := downRun_cons (m := m.set R.PWR_SEQSTAT_STATE seqDown) (ks := ks) hk
    ((Mach.on_set_ne _ (by simp only [R.PWR_RAILSTAT_FAILED, R.PWR_SEQSTAT_STATE]; omega) _).trans sound)
  rw [state_set _ (by decide)] at waits
  rw [downStart, order]
  exact waits.of_as ((SlotAs.refl k m).set_state _)

theorem railDelay_get : (railDelay m).get f = m.get f := rfl

/-- A slot's power-good or its fall begins the delay. -/
theorem railDelay_setPg (hk : k < 16) (v : Bool) : bitOf ((railDelay (setPg k v m)).get R.PWR_SEQSTAT_PG) k = v ∧
    (railDelay (setPg k v m)).get R.PWR_SEQSTAT_STATE = m.get R.PWR_SEQSTAT_STATE ∧ (railDelay (setPg k v m)).pwr.inDelay = true ∧
    (railDelay (setPg k v m)).pwr.railAt = m.clk.tick ∧ (railDelay (setPg k v m)).pwr.restart = m.pwr.restart := by
  rw [railDelay_get, railDelay_get]
  exact ⟨setPg_good hk, setPg_state, rfl, rfl, rfl⟩

/-- A rise of a slot's power-good. -/
theorem opRailPowerGood_leaves (hk : k < 16) (src : pgSrc k m = 0) : bitOf ((opRailPowerGood k m).get R.PWR_SEQSTAT_PG) k = true ∧
    (opRailPowerGood k m).get R.PWR_SEQSTAT_STATE = m.get R.PWR_SEQSTAT_STATE ∧
    (opRailPowerGood k m).pwr.inDelay = (m.pwr.inDelay || waiting seqUp k m) ∧ (opRailPowerGood k m).pwr.restart = m.pwr.restart := by
  rw [opRailPowerGood, if_neg (by rw [src]; decide)]
  split
  · next waits =>
    obtain ⟨good, state, delay, -, restart⟩ := railDelay_setPg (m := m) hk true
    exact ⟨good, state, by rw [waits, Bool.or_true]; exact delay, restart⟩
  · next not_ => exact ⟨setPg_good hk, setPg_state, by rw [Bool.eq_false_iff.2 not_, Bool.or_false]; rfl, rfl⟩

/-- A fall of it. -/
theorem opRailDischarged_leaves (hk : k < 16) (src : pgSrc k m = 0) : bitOf ((opRailDischarged k m).get R.PWR_SEQSTAT_PG) k = false ∧
    (opRailDischarged k m).get R.PWR_SEQSTAT_STATE = m.get R.PWR_SEQSTAT_STATE ∧
    (opRailDischarged k m).pwr.inDelay = (m.pwr.inDelay || waiting seqDown k m) ∧ (opRailDischarged k m).pwr.restart = m.pwr.restart := by
  have eq : opRailDischarged k m = if waiting seqDown k m then railDelay (setPg k false m) else setPg k false m := by
    rw [opRailDischarged, if_neg (by rw [src]; decide)]
    simp only [setPg_waiting]
  rw [eq]
  split
  · next waits =>
    obtain ⟨good, state, delay, -, restart⟩ := railDelay_setPg (m := m) hk false
    exact ⟨good, state, by rw [waits, Bool.or_true]; exact delay, restart⟩
  · next not_ => exact ⟨setPg_good hk, setPg_state, by rw [Bool.eq_false_iff.2 not_, Bool.or_false]; rfl, rfl⟩

theorem waiting_of {x : Nat} (state : m.get R.PWR_SEQSTAT_STATE = x) (slot : railSlot m = k) (no : m.pwr.inDelay = false) :
    waiting x k m = true := by
  rw [waiting, state, slot, no, beq_self_eq_true, beq_self_eq_true]; rfl

theorem railDue_of {units : Nat} (due : m.pwr.railAt.toNat + 10000 * units ≤ m.now) : railDue units m = true :=
  decide_eq_true (by rw [railUnit, Nat.mul_comm]; exact due)

theorem opRailPgTimeout_eq (state : m.get R.PWR_SEQSTAT_STATE = seqUp) (slot : railSlot m = k) (no : m.pwr.inDelay = false)
    (due : m.pwr.railAt.toNat + 10000 * m.get (R.PWR_RAILTIM_PGTO k) ≤ m.now) :
    opRailPgTimeout k m = if pgSrc k m = 2 then powerGood k m else upFail k m :=
  if_pos (by rw [waiting_of state slot no, railDue_of due]; rfl)

theorem opRailUpDelayEnd_eq (state : m.get R.PWR_SEQSTAT_STATE = seqUp) (slot : railSlot m = k) (delay : m.pwr.inDelay = true)
    (due : m.pwr.railAt.toNat + 10000 * m.get (R.PWR_RAILTIM_UPDLY k) ≤ m.now) : opRailUpDelayEnd k m = upRun m.pwr.slots m :=
  if_pos (by rw [decide_eq_true state, decide_eq_true slot, delay, railDue_of due]; rfl)

theorem opRailDownDelayEnd_eq (state : m.get R.PWR_SEQSTAT_STATE = seqDown) (slot : railSlot m = k) (delay : m.pwr.inDelay = true)
    (due : m.pwr.railAt.toNat + 10000 * m.get (R.PWR_RAILDIS_DNDLY k) ≤ m.now) : opRailDownDelayEnd k m = downRun m.pwr.slots m :=
  if_pos (by rw [decide_eq_true state, decide_eq_true slot, delay, railDue_of due]; rfl)

/-- The discharge of a slot has not been seen in time. -/
def distoSaid (k : Nat) (m : Mach) : Mach :=
  note 0x021 0x05 k ((m.set (R.PWR_RAILSTAT_DISTO k) 1).set R.PWR_FAIL_DTO (setBit (m.get R.PWR_FAIL_DTO) k))

theorem opRailDischargeTimeout_eq (state : m.get R.PWR_SEQSTAT_STATE = seqDown) (slot : railSlot m = k) (no : m.pwr.inDelay = false)
    (due : m.pwr.railAt.toNat + 10000 * m.get (R.PWR_RAILDIS_DISTO k) ≤ m.now) : opRailDischargeTimeout k m =
      if pgSrc k m = 2 then railDelay (setPg k false m) else downRun m.pwr.slots (distoSaid k m) := by
  have dto : (m.set (R.PWR_RAILSTAT_DISTO k) 1).get R.PWR_FAIL_DTO = m.get R.PWR_FAIL_DTO :=
    Mach.get_set_ne _ (by simp only [R.PWR_FAIL_DTO, R.PWR_RAILSTAT_DISTO]; omega) _
  refine (if_pos (by rw [waiting_of state slot no, railDue_of due]; rfl)).trans ?_
  rfl

theorem distoSaid_as : RailsAs ((m.set (R.PWR_RAILSTAT_DISTO k) 1).set R.PWR_FAIL_DTO (setBit (m.get R.PWR_FAIL_DTO) k)) (distoSaid k m) :=
  (ripples_note ..).railsAs

theorem distoSaid_get (lo : 0x020000 ≤ f.key) (hi : f.key < 0x020200) (dto : R.PWR_FAIL_DTO.apart f)
    (rail : (R.PWR_RAILSTAT_DISTO k).apart f) : (distoSaid k m).get f = m.get f := by
  rw [distoSaid_as.get f lo hi, Mach.get_set_of_apart _ dto, Mach.get_set_of_apart _ rail]

theorem disto_apart {j : Nat} (f : Nat → FRef) (same : ∀ k, (R.PWR_RAILSTAT_DISTO k).bitsApart (f k) = true)
    (key : ∀ k, (f k).key = 0x02010C + 0x10 * k) : (R.PWR_RAILSTAT_DISTO k).apart (f j) := by
  by_cases e : k = j
  · rw [e]; exact FRef.apart_of_bits (same j)
  · exact .inl (by rw [key]; simp only [R.PWR_RAILSTAT_DISTO]; omega)

theorem distoSaid_slot {j : Nat} (hj : j < 16) : SlotAs j m (distoSaid k m) ∧
    (distoSaid k m).on (R.PWR_RAILSTAT_FAILED j) = m.on (R.PWR_RAILSTAT_FAILED j) := by
  refine ⟨⟨?_, pgSrc_congr ?_, distoSaid_as.clk, congrArg Power.restart distoSaid_as.pwr⟩, ?_⟩
  · exact congrArg (· == 1) (distoSaid_get (f := R.PWR_RAILSTAT_PG j) (by simp only [R.PWR_RAILSTAT_PG]; omega)
      (by simp only [R.PWR_RAILSTAT_PG]; omega) (.inl (by simp only [R.PWR_RAILSTAT_PG, R.PWR_FAIL_DTO]; omega))
      (disto_apart R.PWR_RAILSTAT_PG (fun _ => rfl) fun _ => rfl))
  · exact distoSaid_get (by simp only [R.PWR_RAILCFG_PGSRC]; omega)
      (by simp only [R.PWR_RAILCFG_PGSRC]; omega) (.inl (by simp only [R.PWR_RAILCFG_PGSRC, R.PWR_FAIL_DTO]; omega))
      (.inl (by simp only [R.PWR_RAILCFG_PGSRC, R.PWR_RAILSTAT_DISTO]; omega))
  · exact congrArg (· == 1) (distoSaid_get (f := R.PWR_RAILSTAT_FAILED j) (by simp only [R.PWR_RAILSTAT_FAILED]; omega)
      (by simp only [R.PWR_RAILSTAT_FAILED]; omega) (.inl (by simp only [R.PWR_RAILSTAT_FAILED, R.PWR_FAIL_DTO]; omega))
      (disto_apart R.PWR_RAILSTAT_FAILED (fun _ => rfl) fun _ => rfl))

theorem distoSaid_seq : (distoSaid k m).get R.PWR_SEQSTAT_STATE = m.get R.PWR_SEQSTAT_STATE ∧
    (distoSaid k m).get R.PWR_FAIL_LATCH = m.get R.PWR_FAIL_LATCH :=
  ⟨distoSaid_get (by decide) (by decide) (.inl (by decide)) (.inl (by simp only [R.PWR_SEQSTAT_STATE, R.PWR_RAILSTAT_DISTO]; omega)),
    distoSaid_get (by decide) (by decide) (FRef.apart_of_bits rfl) (.inl (by simp only [R.PWR_FAIL_LATCH, R.PWR_RAILSTAT_DISTO]; omega))⟩

theorem distoSaid_marks (hk : k < 16) : (distoSaid k m).on (R.PWR_RAILSTAT_DISTO k) = true ∧
    bitOf ((distoSaid k m).get R.PWR_FAIL_DTO) k = true := by
  constructor
  · rw [Mach.on, distoSaid_as.get _ (by simp only [R.PWR_RAILSTAT_DISTO]; omega) (by simp only [R.PWR_RAILSTAT_DISTO]; omega),
      Mach.get_set_ne _ (by simp only [R.PWR_FAIL_DTO, R.PWR_RAILSTAT_DISTO]; omega)]
    exact Mach.on_set_flag (f := R.PWR_RAILSTAT_DISTO k) rfl rfl true m
  · rw [distoSaid_as.get _ (by decide) (by decide), bitOf_set_field (f := R.PWR_FAIL_DTO) rfl (by simp only [R.PWR_FAIL_DTO]; omega),
      bitOf_setBit]

/-- The down sequence goes on from a machine that shows the rails as before. -/
theorem goesDown_nil (after : m.pwr.after = 0) (latch : n.get R.PWR_FAIL_LATCH = m.get R.PWR_FAIL_LATCH) (pwr : n.pwr = m.pwr) :
    (downRun [] n).get R.PWR_SEQSTAT_STATE = (if m.get R.PWR_FAIL_LATCH = 0 then seqOff else seqLatched) ∧
      railSlot (downRun [] n) = 31 ∧ (downRun [] n).pwr.restart = m.pwr.restart := by
  rw [downRun, downEnd_eq ((congrArg Power.after pwr).trans after), downOver_state, latch]
  exact ⟨rfl, downOver_slot, downOver_keeps.restart.trans (congrArg Power.restart pwr)⟩

theorem goesDown_cons {ks : List Nat} (hk : k < 16) (as : SlotAs k m n) (state : n.get R.PWR_SEQSTAT_STATE = seqDown)
    (sound : n.on (R.PWR_RAILSTAT_FAILED k) = false) : SlotWaits seqDown false k ks m (downRun (k :: ks) n) :=
  state ▸ (downRun_cons hk sound).of_as as

theorem opRailLost_eq (state : m.get R.PWR_SEQSTAT_STATE = seqOn) (en : m.on (R.PWR_RAILCFG_EN k) = true)
    (enout : m.on (R.PWR_RAILSTAT_ENOUT k) = true) (sound : m.on (R.PWR_RAILSTAT_FAILED k) = false) (src : pgSrc k m ≠ 2) :
    opRailLost k m = onLost k (setPg k false m) :=
  if_pos (by rw [decide_eq_true state, en, enout, sound, bne_iff_ne.2 src]; rfl)

/-! ## PMBus transactions -/

variable {cmd d tries data : Nat}

theorem pmbPut_sent : (pmbPut k cmd d m).sent = m.sent ++ [pmbMsg m k 0x00 (m.get (R.PWR_RAILCFG_PAGE k)), pmbMsg m k cmd d] := by
  have two : (pmbPut k cmd d m).sent = (m.sent ++ [pmbMsg m k 0x00 (m.get (R.PWR_RAILCFG_PAGE k))]) ++ [pmbMsg m k cmd d] := rfl
  rw [two, List.append_assoc]
  rfl

theorem pmbSend_leaves : tfind k (pmbSend k cmd d m).pwr.pmb = some (cmd, d, 0) ∧ (pmbSend k cmd d m).regs = m.regs ∧
    (pmbSend k cmd d m).sent = m.sent ++ [pmbMsg m k 0x00 (m.get (R.PWR_RAILCFG_PAGE k)), pmbMsg m k cmd d] :=
  ⟨tfind_tput_same .., rfl, pmbPut_sent⟩

/-- A slot is polled. -/
def pollSent (k : Nat) (m : Mach) : Mach := pmbSend k 0x79 0 (m.onPwr fun p => { p with polled := tput k m.clk.tick p.polled })

theorem opPmbusTransactionDone_other (busy : tfind k m.pwr.pmb = some (cmd, d, tries)) (other : cmd ≠ 0x79) :
    opPmbusTransactionDone k true data m = m.onPwr fun p => { p with pmb := tdel k p.pmb } := by
  simp [opPmbusTransactionDone, busy, other]

theorem opPmbusTransactionDone_status (busy : tfind k m.pwr.pmb = some (0x79, d, tries)) (good : bitOf data 11 = false)
    (waits : waiting seqUp k m = true) :
    opPmbusTransactionDone k true data m = powerGood k (m.onPwr fun p => { p with pmb := tdel k p.pmb }) := by
  have waits' : waiting seqUp k (m.onPwr fun p => { p with pmb := tdel k p.pmb }) = true := waits
  simp [opPmbusTransactionDone, busy, pmbStatus, good, waits']

/-- The transaction is tried again. -/
theorem opPmbusTransactionDone_again (busy : tfind k m.pwr.pmb = some (cmd, d, tries)) (few : tries < 2) :
    opPmbusTransactionDone k false data m = pmbPut k cmd d (m.onPwr fun p => { p with pmb := tput k (cmd, d, tries + 1) p.pmb }) := by
  simp [opPmbusTransactionDone, busy, few]

/-- The third failure in the up sequence. -/
theorem opPmbusTransactionDone_fails (hk : k < 16) (after : m.pwr.after = 0) (busy : tfind k m.pwr.pmb = some (cmd, d, tries))
    (many : 2 ≤ tries) (state : m.get R.PWR_SEQSTAT_STATE = seqUp) (slot : railSlot m = k) :
    Fails k m (opPmbusTransactionDone k false data m) := by
  have as : RailsAs (m.onPwr fun p => { p with pmb := tdel k p.pmb })
      (note 0x022 0x07 k (m.onPwr fun p => { p with pmb := tdel k p.pmb })) := (ripples_note ..).railsAs
  have eq : opPmbusTransactionDone k false data m = pmbFail k (m.onPwr fun p => { p with pmb := tdel k p.pmb }) := by
    simp [opPmbusTransactionDone, busy, Nat.not_lt.2 many]
  rw [eq]
  unfold pmbFail
  extract_lets said
  have as : RailsAs (m.onPwr fun p => { p with pmb := tdel k p.pmb }) said := as
  clear_value said
  have state' : said.get R.PWR_SEQSTAT_STATE = seqUp := (as.get _ (by decide) (by decide)).trans state
  have slot' : railSlot said = k := (as.get R.PWR_SEQSTAT_SLOT (by decide) (by decide)).trans slot
  rw [if_pos (by rw [decide_eq_true state', decide_eq_true slot']; rfl)]
  have fails := (upFail_fails (m := said) hk ((congrArg Power.after as.pwr).trans after)).1
  exact { fails with
    pg := fails.pg.trans (as.get _ (by decide) (by decide))
    restart := fails.restart.trans ((congrArg Power.restart as.pwr).trans rfl) }

theorem opPmbusStatusPoll_eq (en : m.on (R.PWR_RAILCFG_EN k) = true) (kind : m.on (R.PWR_RAILCFG_KIND k) = true)
    (src : pgSrc k m = 1) (idle : thas k m.pwr.pmb = false) (never : tfind k m.pwr.polled = none) :
    opPmbusStatusPoll k m = pollSent k m := by
  simp [opPmbusStatusPoll, en, kind, src, idle, never, pollSent]

end

/-! ## The statement -/

section
variable {s : State} {k data : Nat} {q : Requester} {ok : Bool}

theorem exec_railSequenceUp (okr : okReq q = true) : exec (.railSequenceUp q) s = .next (settle (s.onMach (opRailSequenceUp q))) :=
  onUnitS_of okr _ s
theorem exec_railSequenceDown (okr : okReq q = true) :
    exec (.railSequenceDown q) s = .next (settle (s.onMach (opRailSequenceDown q))) := onUnitS_of okr _ s
theorem exec_railPowerGood (hk : k < 16) : exec (.railPowerGood k) s = .next (settle (s.onMach (opRailPowerGood k))) :=
  onUnitS_of (decide_eq_true hk) _ s
theorem exec_railPgTimeout (hk : k < 16) : exec (.railPgTimeout k) s = .next (settle (s.onMach (opRailPgTimeout k))) :=
  onUnitS_of (decide_eq_true hk) _ s
theorem exec_railUpDelayEnd (hk : k < 16) : exec (.railUpDelayEnd k) s = .next (settle (s.onMach (opRailUpDelayEnd k))) :=
  onUnitS_of (decide_eq_true hk) _ s
theorem exec_railDischarged (hk : k < 16) : exec (.railDischarged k) s = .next (settle (s.onMach (opRailDischarged k))) :=
  onUnitS_of (decide_eq_true hk) _ s
theorem exec_railDischargeTimeout (hk : k < 16) :
    exec (.railDischargeTimeout k) s = .next (settle (s.onMach (opRailDischargeTimeout k))) := onUnitS_of (decide_eq_true hk) _ s
theorem exec_railDownDelayEnd (hk : k < 16) : exec (.railDownDelayEnd k) s = .next (settle (s.onMach (opRailDownDelayEnd k))) :=
  onUnitS_of (decide_eq_true hk) _ s
theorem exec_railLost (hk : k < 16) : exec (.railLost k) s = .next (settle (s.onMach (opRailLost k))) :=
  onUnitS_of (decide_eq_true hk) _ s
theorem exec_pmbusTransactionDone (hk : k < 16) (hd : data < 65536) :
    exec (.pmbusTransactionDone k ok data) s = .next (settle (s.onMach (opPmbusTransactionDone k ok data))) :=
  onUnitS_of (by simp [hk, hd]) _ s
theorem exec_pmbusStatusPoll (hk : k < 16) : exec (.pmbusStatusPoll k) s = .next (s.onMach (opPmbusStatusPoll k)) :=
  onUnit_of (decide_eq_true hk) _ s

end

/-- Settles O54: each command by the equation that says where the sequence goes on. -/
theorem railSequencer : Obligations.RailSequencer := by
  unfold Obligations.RailSequencer
  intro q n data s okr hn hd restart after
  refine ⟨?_, ?_, ?_, ?_, ?_, ?_, ?_, ?_, ?_⟩
  · intro lets
    refine ⟨fun latch => ?_, fun clear off => ⟨fun none_ => ?_, fun k ks order => ?_⟩, fun k ks on_ order sound => ?_⟩
    · exact actsS_calm (exec_railSequenceUp okr) ((guarded_of_lets _ lets).trans (seqctlWrite_latched latch))
        ((congrArg Power.restart (ripples_note ..).pwr).trans restart)
    · obtain ⟨state, kept⟩ := upStart_nil none_
      exact ⟨_, actsS_calm (exec_railSequenceUp okr) ((guarded_of_lets _ lets).trans (seqctlWrite_up clear off)) (kept.trans restart), state⟩
    · obtain ⟨⟨state, slot, enout, slots, inDelay, railAt, kept⟩, dto⟩ := upStart_cons order
      exact ⟨_, actsS_calm (exec_railSequenceUp okr) ((guarded_of_lets _ lets).trans (seqctlWrite_up clear off)) (kept.trans restart),
        ⟨state, slot, enout, slots, inDelay, railAt, rfl⟩, dto⟩
    · obtain ⟨state, slot, enout, slots, inDelay, railAt, kept⟩ := downStart_cons order sound
      exact ⟨_, actsS_calm (exec_railSequenceDown okr) ((guarded_of_lets _ lets).trans (seqctlWrite_down on_)) (kept.trans restart),
        state, slot, enout, slots, inDelay, railAt, rfl⟩
  · intro src
    obtain ⟨good, state, inDelay, kept⟩ := opRailPowerGood_leaves hn src
    obtain ⟨good', state', inDelay', kept'⟩ := opRailDischarged_leaves hn src
    exact ⟨⟨_, actsS_calm (exec_railPowerGood hn) rfl (kept.trans restart), good, state, inDelay, rfl⟩,
      _, actsS_calm (exec_railDischarged hn) rfl (kept'.trans restart), good', state', inDelay', rfl⟩
  · rintro ⟨state, slot⟩ no due
    have eq := opRailPgTimeout_eq state slot no due
    refine ⟨fun src => ?_, fun src => ?_⟩
    · obtain ⟨good, st, delay, at_, kept⟩ := railDelay_setPg (m := s.mach) hn true
      exact ⟨_, actsS_calm (exec_railPgTimeout hn) (eq.trans (if_pos src)) (kept.trans restart), good, delay, at_, st⟩
    · obtain ⟨fails, flt⟩ := upFail_fails hn after
      refine ⟨_, actsS_calm (exec_railPgTimeout hn) (eq.trans (if_neg src)) (fails.restart.trans restart),
        ⟨fails.failed, fails.latch, fails.state⟩, fun held => ?_⟩
      show (upFail n s.mach).flt.last.src = _ ∧ (upFail n s.mach).flt.last.kind = _ ∧ (upFail n s.mach).flt.last.cls = _
      rw [flt]
      exact last_raise (by decide) (by decide) held
  · rintro ⟨state, slot⟩ delay due
    have eq := opRailUpDelayEnd_eq state slot delay due
    refine ⟨fun none_ => ?_, fun k ks some_ hk => ?_⟩
    · rw [none_] at eq
      obtain ⟨state', slot', kept⟩ := upRun_nil (m := s.mach)
      exact ⟨_, actsS_calm (exec_railUpDelayEnd hn) eq (kept.trans restart), state', slot'⟩
    · rw [some_] at eq
      obtain ⟨state', slot', enout, slots, inDelay, railAt, kept⟩ := upRun_cons (m := s.mach) (ks := ks) hk
      exact ⟨_, actsS_calm (exec_railUpDelayEnd hn) eq (kept.trans restart), state'.trans state, slot', enout, slots, inDelay, railAt, rfl⟩
  · rintro ⟨state, slot⟩ no due
    have eq := opRailDischargeTimeout_eq state slot no due
    refine ⟨fun src => ?_, fun src => ?_⟩
    · obtain ⟨good, st, delay, at_, kept⟩ := railDelay_setPg (m := s.mach) hn false
      exact ⟨_, actsS_calm (exec_railDischargeTimeout hn) (eq.trans (if_pos src)) (kept.trans restart), good, delay, at_, st⟩
    · replace eq := eq.trans (if_neg src)
      obtain ⟨state', latch⟩ := distoSaid_seq (k := n) (m := s.mach)
      refine ⟨⟨fun none_ => ?_, fun k ks some_ hk ne sound => ?_⟩, fun none_ => ?_⟩
      · rw [none_] at eq
        obtain ⟨ended, slot', kept⟩ := goesDown_nil after latch distoSaid_as.pwr
        exact ⟨_, actsS_calm (exec_railDischargeTimeout hn) eq (kept.trans restart), ended, slot', rfl⟩
      · rw [some_] at eq
        obtain ⟨as, failed⟩ := distoSaid_slot (m := s.mach) (k := n) hk
        obtain ⟨st, slot', enout, slots, inDelay, railAt, kept⟩ :=
          goesDown_cons (ks := ks) hk as (state'.trans state) (failed.trans sound)
        exact ⟨_, actsS_calm (exec_railDischargeTimeout hn) eq (kept.trans restart), st, slot', enout, slots, inDelay, railAt, rfl⟩
      · rw [none_] at eq
        have keeps := downRun_keeps [] (distoSaid n s.mach) ((congrArg Power.after distoSaid_as.pwr).trans after)
        obtain ⟨marked, dto⟩ := distoSaid_marks (m := s.mach) hn
        refine ⟨_, actsS_calm (exec_railDischargeTimeout hn) eq
          ((goesDown_nil after latch distoSaid_as.pwr).2.2.trans restart), (keeps.disto n).trans marked, ?_⟩
        show bitOf ((downRun [] (distoSaid n s.mach)).get R.PWR_FAIL_DTO) n = true
        rw [keeps.dto]
        exact dto
  · rintro ⟨state, slot⟩ delay due
    have eq := opRailDownDelayEnd_eq state slot delay due
    refine ⟨fun none_ => ?_, fun k ks some_ hk _ sound => ?_⟩
    · rw [none_] at eq
      obtain ⟨ended, slot', kept⟩ := goesDown_nil (m := s.mach) after rfl rfl
      exact ⟨_, actsS_calm (exec_railDownDelayEnd hn) eq (kept.trans restart), ended, slot', rfl⟩
    · rw [some_] at eq
      obtain ⟨st, slot', enout, slots, inDelay, railAt, kept⟩ := goesDown_cons (ks := ks) hk (SlotAs.refl k s.mach) state sound
      exact ⟨_, actsS_calm (exec_railDownDelayEnd hn) eq (kept.trans restart), st, slot', enout, slots, inDelay, railAt, rfl⟩
  · intro state en enout sound src
    have eq := opRailLost_eq state en enout sound src
    have crit := setPg_get_ne (f := R.PWR_RAILCFG_CRIT n) (k := n) (v := false) (m := s.mach)
      (by simp only [R.PWR_RAILCFG_CRIT]; omega) (by simp only [R.PWR_RAILCFG_CRIT]; omega)
    refine ⟨fun critical => ?_, fun alone => ?_⟩
    · have fails := onLost_fails (m := setPg n false s.mach) hn after ((congrArg (· == 1) crit).trans critical)
      refine ⟨_, actsS_calm (exec_railLost hn) eq (fails.restart.trans restart), ?_, fails.failed, fails.latch, fails.state⟩
      show bitOf ((onLost n (setPg n false s.mach)).get R.PWR_SEQSTAT_PG) n = false
      rw [fails.pg, setPg_good hn]
    · obtain ⟨pg, st, failed, off, kept⟩ := onLost_off (m := setPg n false s.mach) hn ((congrArg (· == 1) crit).trans alone)
      refine ⟨_, actsS_calm (exec_railLost hn) eq (kept.trans restart), ?_, (st.trans setPg_state).trans state, failed, off⟩
      show bitOf ((onLost n (setPg n false s.mach)).get R.PWR_SEQSTAT_PG) n = false
      rw [pg, setPg_good hn]
  · intro cmd d tries busy
    refine ⟨fun other => ?_, fun status good waits => ?_, fun few => ?_, fun many => ?_⟩
    · exact ⟨_, actsS_calm (exec_pmbusTransactionDone hn hd) (opPmbusTransactionDone_other busy other) restart, rfl, rfl, rfl⟩
    · rw [status] at busy
      obtain ⟨pg, st, delay, at_, kept⟩ := railDelay_setPg (m := s.mach.onPwr fun p => { p with pmb := tdel n p.pmb }) hn true
      exact ⟨_, actsS_calm (exec_pmbusTransactionDone hn hd) (opPmbusTransactionDone_status busy good waits) (kept.trans restart), pg, delay,
        at_, st⟩
    · exact ⟨_, actsS_calm (exec_pmbusTransactionDone hn hd) (opPmbusTransactionDone_again busy few) restart, tfind_tput_same .., rfl,
        pmbPut_sent⟩
    · rintro ⟨state, slot⟩
      have fails := opPmbusTransactionDone_fails (data := data) hn after busy many state slot
      exact ⟨_, actsS_calm (exec_pmbusTransactionDone hn hd) rfl (fails.restart.trans restart), fails.failed, fails.latch, fails.state⟩
  · intro en kind src idle never
    exact ⟨_, (exec_pmbusStatusPoll hn).trans (congrArg _ (onMach_congr (g := pollSent n) (opPmbusStatusPoll_eq en kind src idle never))),
      pmbSend_leaves⟩

end Sys2Proof.Machine
end

section
/-! PROOFS. A message of any class: the latest fault that it leaves, and what a class 4 trip turns off for good (R363,
R365). -/

namespace Sys2Proof.Machine

section
variable {m : Mach} {g : Msg} {src kind cls : Nat} {sid : Sid} {param : Nat}

/-! ## The latest fault -/

theorem collect_last (g : Msg) (m : Mach) : (collect g m).flt.last = m.flt.last := by
  simp only [collect]
  split
  · split
    · rfl
    · exact (congrArg Collector.last (spares_captured ..).flt).trans rfl
  · have counted : (assertEvent 0x043 (m.incSat R.FLT_LOSTCNT_LOST)).flt.last = m.flt.last :=
      congrArg Collector.last (assertEvent_flt ..)
    split
    · exact ((congrArg Collector.last (spares_captured ..).flt).trans rfl).trans counted
    · exact counted

theorem deliverNow_last (g : Msg) (m : Mach) : (deliverNow g m).flt.last = (withLast g m).flt.last :=
  (congrArg Collector.last ((spares_groupEffects ..).flt.trans (spares_classEffects ..).flt)).trans (collect_last ..)

theorem setIdok_flt (s : Nat) (b : Bool) (m : Mach) : (setIdok s b m).flt = m.flt := by
  rw [setIdok]
  split
  · rfl
  · exact assertEvent_flt ..

theorem lockDrop_flt (s : Nat) (m : Mach) : (lockDrop s m).flt = m.flt :=
  (setIdok_flt ..).trans (assertEvent_flt ..)

theorem locksDrop_last (m : Mach) : (locksDrop m).flt.last = m.flt.last :=
  each_keeps (p := fun m => m.flt.last) _ (fun s _ m => by
    rw [deliverNow_last, withLast_of_note _ _ (by exact Nat.zero_lt_succ 1), lockDrop_flt]) m

theorem locksDrop_heldEdges (m : Mach) : (locksDrop m).heldEdges = m.heldEdges :=
  each_keeps (p := fun m => m.heldEdges) _ (fun _ _ _ => (deliverNow_heldEdges ..).trans (lockDrop_heldEdges ..)) m

/-- A message of class 2 or above is the latest fault, whatever its class brings about. -/
theorem deliver_last (h2 : 2 ≤ g.cls) (held : m.heldEdges = []) : (deliver g m).flt.last = g.toRec m false := by
  have now : (deliverNow g m).flt.last = g.toRec m false := (deliverNow_last g m).trans (withLast_last g m h2)
  have locks : (when (g.cls == 4) locksDrop (deliverNow g m)).flt.last = g.toRec m false := by
    rw [when]
    split
    · exact (locksDrop_last _).trans now
    · exact now
  have none_ : (when (g.cls == 4) locksDrop (deliverNow g m)).heldEdges = [] := by
    rw [when]
    split
    · exact (locksDrop_heldEdges _).trans ((deliverNow_heldEdges g m).trans held)
    · exact (deliverNow_heldEdges g m).trans held
  have edges : (when (decide (0 < g.cls)) settleEdges (when (g.cls == 4) locksDrop (deliverNow g m))).flt.last = g.toRec m false := by
    rw [when.eq_def (decide (0 < g.cls))]
    split
    · rw [settleEdges_none none_]; exact locks
    · exact locks
  exact (congrArg Collector.last (spares_snapTry _).flt).trans edges

end

/-! ## The trip -/

/-- A trip lies between what the message does to the ledger and what it sends to the group. -/
theorem deliverNow_trip {g : Msg} (four : g.cls = 4) (m : Mach) : ∃ n, Ripples False m n ∧
    Ripples False (tripOutputs g.src g.kind n) (deliverNow g m) := by
  have eff (x : Mach) : classEffects g x = tripOutputs g.src g.kind (each (recsIn (·.engaged) x) (msgOnRecord g) x) := by
    simp only [classEffects, four]
  refine ⟨each (recsIn (·.engaged) (collect g (withLast g m))) (msgOnRecord g) (collect g (withLast g m)), ?_, ?_⟩
  · exact ((ripples_when (fun _ m => ripples_flt _ m) m).trans (ripples_collect ..)).trans
      (ripples_each _ _ (fun r _ => ripples_msgOnRecord g r) _)
  · rw [← eff]
    exact ripples_groupEffects g _ _

/-- The registers of the drives. -/
def driveKey (key : Nat) : Prop := 0x1A ≤ key / 65536 ∧ key / 65536 ≤ 0x1C

theorem driveIds_lt {m : Mach} {d : Nat} (h : d ∈ driveIds m) : d < 76 := by
  simp only [driveIds, List.mem_append, List.mem_map, List.mem_range] at h
  have := nStn_le m
  omega

/-- The registers of a polygon that brakes. -/
def polyBraked (d : Nat) (m : Mach) : Mach :=
  ((m.set (R.POLY_STAT_SWB d) 1).set (R.POLY_STAT_STATE d) 5).set (R.POLY_MEAS_DUTY d) 0

/-- The machine with a drive held off or braking. -/
def driveHeldOff (src kind d : Nat) (m : Mach) : Mach := holdDrive src kind d (m.set R.SRV_BRKSTAT_SWB 1)

theorem polyGates_word (n : Nat) (b : Bool) (m : Mach) (key : Nat) : (polyGates n b m).word key = m.word key := rfl

theorem srvGates_word (n : Nat) (b : Bool) (m : Mach) (key : Nat) : (srvGates n b m).word key = m.word key := rfl

/-- The registers of a drive that brakes, by the drive's kind. -/
theorem brakeDrive_words (src kind d : Nat) (m : Mach) (key : Nat) : (brakeDrive src kind d m).word key =
    (if d < 32 then polyBraked d (driveHeldOff src kind d m)
      else if d < 64 then (driveHeldOff src kind d m).set (R.SRV_STAT_SWB (d - 32)) 1
      else (driveHeldOff src kind d m).set (R.STP_STAT_SWB (d - 64)) 1).word key := by
  unfold brakeDrive
  extract_lets n x y
  change Mach.word (if d < 32 then _ else if d < 64 then _ else _) key = Mach.word (if d < 32 then polyBraked d n
    else if d < 64 then n.set (R.SRV_STAT_SWB (d - 32)) 1 else n.set (R.STP_STAT_SWB (d - 64)) 1) key
  split
  · rw [polyGates_word]; rfl
  · split
    · rw [srvGates_word]
    · rfl

theorem brakeDrive_word {key d : Nat} (hk : ¬driveKey key) (hd : d < 76) (src kind : Nat) (m : Mach) :
    (brakeDrive src kind d m).word key = m.word key := by
  have apart {f : FRef} (h : driveKey f.key) (v : Nat) (x : Mach) : (x.set f v).word key = x.word key :=
    Mach.word_set_ne _ (fun e => hk (by rw [e]; exact h)) _
  have shared : (driveHeldOff src kind d m).word key = m.word key :=
    apart (f := R.SRV_BRKSTAT_SWB) (by simp [driveKey, R.SRV_BRKSTAT_SWB]) 1 m
  rw [brakeDrive_words]
  generalize driveHeldOff src kind d m = n at shared ⊢
  split
  · rw [polyBraked, apart (by simp only [driveKey, R.POLY_MEAS_DUTY]; omega), apart (by simp only [driveKey, R.POLY_STAT_STATE]; omega),
      apart (by simp only [driveKey, R.POLY_STAT_SWB]; omega)]
    exact shared
  · split
    · exact (apart (by simp only [driveKey, R.SRV_STAT_SWB]; omega) 1 n).trans shared
    · exact (apart (by simp only [driveKey, R.STP_STAT_SWB]; omega) 1 n).trans shared

theorem brakeDrive_fus (src kind d : Nat) (m : Mach) : (brakeDrive src kind d m).fus = m.fus := by
  simp only [brakeDrive]
  split
  · rfl
  · split <;> rfl

theorem brakeAll_word {key : Nat} (hk : ¬driveKey key) (src kind : Nat) (m : Mach) :
    (brakeAll src kind m).word key = m.word key :=
  each_keeps (p := fun m => m.word key) _
    (fun _ hd m => brakeDrive_word hk (driveIds_lt (List.mem_of_mem_filter hd)) src kind m) m

theorem tripOutputs_gates (src kind : Nat) (m : Mach) : (tripOutputs src kind m).fus.gates = 0 :=
  congrArg Fuser.gates (each_keeps (p := Mach.fus) _ (fun d _ m => brakeDrive_fus src kind d m) _)

theorem tripOutputs_off (src kind : Nat) (m : Mach) :
    (tripOutputs src kind m).on R.HV_CTL_EN = false ∧ (tripOutputs src kind m).on R.FUS_CTL_EN = false := by
  have braked {f : FRef} (hf : ¬driveKey f.key) :
      (tripOutputs src kind m).on f = ((m.set R.HV_CTL_EN 0).set R.FUS_CTL_EN 0).on f := by
    rw [tripOutputs, Mach.on, get_of_word (brakeAll_word hf src kind _)]; rfl
  constructor
  · rw [braked (by simp [driveKey, R.HV_CTL_EN]), Mach.on_set_ne _ (by decide)]
    exact Mach.on_set_flag (f := R.HV_CTL_EN) rfl rfl false m
  · rw [braked (by simp [driveKey, R.FUS_CTL_EN])]
    exact Mach.on_set_flag (f := R.FUS_CTL_EN) rfl rfl false _

theorem brakeDrive_on (src kind d : Nat) (m : Mach) (f : FRef) : (brakeDrive src kind d m).on f =
    (if d < 32 then polyBraked d (driveHeldOff src kind d m)
      else if d < 64 then (driveHeldOff src kind d m).set (R.SRV_STAT_SWB (d - 32)) 1
      else (driveHeldOff src kind d m).set (R.STP_STAT_SWB (d - 64)) 1).on f := by
  rw [Mach.on, get_of_word (brakeDrive_words ..), Mach.on]

theorem polyBraked_swb (n : Nat) (m : Mach) : (polyBraked n m).on (R.POLY_STAT_SWB n) = true := by
  rw [polyBraked, Mach.on_set_ne _ (by simp only [R.POLY_MEAS_DUTY, R.POLY_STAT_SWB]; omega),
    Mach.on_set_bits (f := R.POLY_STAT_STATE n) rfl]
  exact Mach.on_set_flag (f := R.POLY_STAT_SWB n) rfl rfl true m

theorem brakeDrive_brakes {n : Nat} (hn : n < 5) (src kind : Nat) (m : Mach) :
    (brakeDrive src kind n m).on (R.POLY_STAT_SWB n) = true := by
  rw [brakeDrive_on, if_pos (by omega : n < 32)]
  exact polyBraked_swb ..

/-- A drive that is braked brakes on while others are. -/
theorem brakeDrive_braked {n : Nat} (hn : n < 5) (src kind d : Nat) {m : Mach} (h : m.on (R.POLY_STAT_SWB n) = true) :
    (brakeDrive src kind d m).on (R.POLY_STAT_SWB n) = true := by
  by_cases same : d = n
  · subst same; exact brakeDrive_brakes hn src kind m
  have apart {f : FRef} (h : (R.POLY_STAT_SWB n).key ≠ f.key) (v : Nat) (x : Mach) :
      (x.set f v).on (R.POLY_STAT_SWB n) = x.on (R.POLY_STAT_SWB n) := Mach.on_set_ne _ h _
  have shared : (driveHeldOff src kind d m).on (R.POLY_STAT_SWB n) = true :=
    (apart (f := R.SRV_BRKSTAT_SWB) (by simp only [R.SRV_BRKSTAT_SWB, R.POLY_STAT_SWB]; omega) 1 m).trans h
  rw [brakeDrive_on]
  generalize driveHeldOff src kind d m = x at shared ⊢
  split
  · rw [polyBraked, apart (by simp only [R.POLY_MEAS_DUTY, R.POLY_STAT_SWB]; omega),
      apart (by simp only [R.POLY_STAT_STATE, R.POLY_STAT_SWB]; omega), apart (by simp only [R.POLY_STAT_SWB]; omega)]
    exact shared
  · split
    · exact (apart (by simp only [R.SRV_STAT_SWB, R.POLY_STAT_SWB]; omega) 1 x).trans shared
    · exact (apart (by simp only [R.STP_STAT_SWB, R.POLY_STAT_SWB]; omega) 1 x).trans shared

/-- A polygon that no fault of its own holds off is braked by a trip. -/
theorem tripOutputs_brakes {n : Nat} {m : Mach} (hn : n < m.nStn) (on : m.get (R.POLY_STAT_STATE n) ≠ 6) (src kind : Nat) :
    (tripOutputs src kind m).on (R.POLY_STAT_SWB n) = true := by
  have five : n < 5 := Nat.lt_of_lt_of_le hn (nStn_le m)
  let off := gatesOff ((m.set R.HV_CTL_EN 0).set R.FUS_CTL_EN 0)
  have state : off.get (R.POLY_STAT_STATE n) = m.get (R.POLY_STAT_STATE n) :=
    (Mach.get_set_ne (f := R.FUS_CTL_EN) _ (by simp only [R.FUS_CTL_EN, R.POLY_STAT_STATE]; omega) 0).trans
      (Mach.get_set_ne (f := R.HV_CTL_EN) _ (by simp only [R.HV_CTL_EN, R.POLY_STAT_STATE]; omega) 0)
  have mem : n ∈ (driveIds off).filter fun d => !driveOff off d := by
    refine List.mem_filter.2 ⟨List.mem_append_left _ (List.mem_append_left _ (List.mem_range.2 hn)), ?_⟩
    simp only [driveOff, if_pos (by omega : n < 32), state]
    simpa using on
  exact each_reaches (P := fun _ => True) (Q := fun m => m.on (R.POLY_STAT_SWB n) = true) mem (fun _ _ _ => .inl trivial)
    (fun m _ => brakeDrive_brakes five src kind m) (fun d m h => brakeDrive_braked five src kind d h) off (.inl trivial)

/-! ## After the trip -/

/-- The machine after has the fuser of the one before, and its registers but those of islands and of messages. -/
structure LocksFall (m m' : Mach) : Prop where
  fus : m'.fus = m.fus
  word : ∀ key, ¬rippleKey key → ¬(0x10 ≤ key / 65536 ∧ key / 65536 ≤ 0x14) → m'.word key = m.word key

theorem LocksFall.refl (m : Mach) : LocksFall m m := ⟨rfl, fun _ _ _ => rfl⟩

theorem LocksFall.trans {a b c : Mach} (h : LocksFall a b) (g : LocksFall b c) : LocksFall a c :=
  ⟨g.fus.trans h.fus, fun key hr hi => (g.word key hr hi).trans (h.word key hr hi)⟩

theorem LocksFall.of_ripples {m m' : Mach} (h : Ripples False m m') : LocksFall m m' :=
  ⟨h.fus not_false, fun key hr _ => h.word key hr False.elim⟩

theorem locksFall_set {f : FRef} (hf : 0x10 ≤ f.key / 65536 ∧ f.key / 65536 ≤ 0x14) (v : Nat) (m : Mach) :
    LocksFall m (m.set f v) := ⟨rfl, fun _ _ hi => Mach.word_set_ne _ (fun e => hi (by rw [e]; exact hf)) _⟩

theorem locksFall_lockDrop {s : Nat} (hs : s < 5) (m : Mach) : LocksFall m (lockDrop s m) := by
  have event (code : Nat) (m : Mach) : LocksFall m (assertEvent code m) := .of_ripples (ripples_assertEvent ..)
  have idok (b : Bool) (m : Mach) : LocksFall m (setIdok s b m) := by
    rw [setIdok]
    split
    · exact .refl m
    · exact (locksFall_set (by simp only [R.VID_STAT_IDOK]; omega) _ m).trans (event ..)
  have island (f : Vid → Vid) (m : Mach) : LocksFall m (m.onVid s f) := ⟨rfl, fun _ _ _ => rfl⟩
  exact (((locksFall_set (f := R.VID_PLOCK_LOCK s) (by simp only [R.VID_PLOCK_LOCK]; omega) 0 m).trans (event ..)).trans
    (island _ _)).trans (idok ..)

theorem locksFall_each {l : List Nat} {f : Nat → Mach → Mach} (h : ∀ a ∈ l, ∀ m, LocksFall m (f a m)) :
    ∀ m, LocksFall m (each l f m) := by
  induction l with
  | nil => exact LocksFall.refl
  | cons a l ih => exact fun m => (h a List.mem_cons_self m).trans (ih (fun b hb => h b (List.mem_cons_of_mem _ hb)) _)

theorem locksFall_locksDrop (m : Mach) : LocksFall m (locksDrop m) :=
  locksFall_each (fun s hs m =>
    (locksFall_lockDrop (Nat.lt_of_lt_of_le (List.mem_range.1 (List.mem_of_mem_filter hs)) (nStn_le _)) m).trans
      (.of_ripples (ripples_deliverNow _ (fun e => absurd e (by decide : (0 : Nat) ≠ 4)) _))) m

/-- What follows a message lets locks fall and judges edges. -/
theorem locksFall_deliver (g : Msg) (m : Mach) : LocksFall (deliverNow g m) (deliver g m) := by
  have optional {f : Mach → Mach} (hf : ∀ m, LocksFall m (f m)) (c : Bool) (m : Mach) : LocksFall m (when c f m) := by
    cases c
    · exact .refl m
    · exact hf m
  exact ((optional locksFall_locksDrop _ _).trans (optional (fun m => .of_ripples (ripples_settleEdges m)) _ _)).trans
    (.of_ripples (ripples_snapTry _))

/-- What a class 4 message turns off stays off through all that follows it. -/
theorem deliver_trips {g : Msg} (four : g.cls = 4) (m : Mach) : (deliver g m).fus.gates = 0 ∧
    (deliver g m).on R.HV_CTL_EN = false ∧ (deliver g m).on R.FUS_CTL_EN = false ∧
    ∀ n, n < m.nStn → m.get (R.POLY_STAT_STATE n) ≠ 6 → (deliver g m).on (R.POLY_STAT_SWB n) = true := by
  obtain ⟨n, before, after⟩ := deliverNow_trip four m
  have later : LocksFall (tripOutputs g.src g.kind n) (deliver g m) :=
    (LocksFall.of_ripples after).trans (locksFall_deliver g m)
  have kept {f : FRef} (hr : ¬rippleKey f.key) (hi : ¬(0x10 ≤ f.key / 65536 ∧ f.key / 65536 ≤ 0x14)) :
      (deliver g m).on f = (tripOutputs g.src g.kind n).on f := by
    rw [Mach.on, Mach.on, get_of_word (later.word f.key hr hi)]
  obtain ⟨hv, fus⟩ := tripOutputs_off g.src g.kind n
  refine ⟨(congrArg Fuser.gates later.fus).trans (tripOutputs_gates ..), ?_, ?_, fun d hd on => ?_⟩
  · exact (kept (by simp [rippleKey, R.HV_CTL_EN]) (by simp [R.HV_CTL_EN])).trans hv
  · exact (kept (by simp [rippleKey, R.FUS_CTL_EN]) (by simp [R.FUS_CTL_EN])).trans fus
  · have five : d < 5 := Nat.lt_of_lt_of_le hd (nStn_le m)
    have quiet {key : Nat} (h : key = 0x1A0144 + 0x80 * d) : ¬rippleKey key := by
      simp only [rippleKey, List.mem_cons, List.not_mem_nil, or_false]; omega
    refine (kept (quiet rfl) (by simp only [R.POLY_STAT_SWB]; omega)).trans (tripOutputs_brakes ?_ ?_ ..)
    · rw [Mach.nStn, before.part]; exact hd
    · rw [before.get' (f := R.POLY_STAT_STATE d) (quiet rfl)]; exact on

/-! ## The sheets of a trip -/

/-- A lost sheet stays lost. -/
def lostSheet (r : Nat) (m : Mach) : Prop := (m.sheet r).state = .lost

theorem sheetTo_lost {r : Nat} {m : Mach} (h : lostSheet r m) {j : Nat} (other : j ≠ r) (st : SheetState) :
    lostSheet r (sheetTo j st m) := (congrArg Sheet.state (sheetTo_ne (Ne.symm other) st m)).trans h

theorem lostSheet.engaged {r : Nat} {m : Mach} (h : lostSheet r m) : (m.sheet r).state.engaged = false := by
  rw [show (m.sheet r).state = .lost from h]; rfl

theorem lostSheet.ne {r j : Nat} {m : Mach} (h : lostSheet r m) (open_ : (m.sheet j).state.engaged = true) : j ≠ r := by
  rintro rfl
  exact Bool.false_ne_true (h.engaged.symm.trans open_)

theorem lostSheet.of_sheets {r : Nat} {m m' : Mach} (h : lostSheet r m) (e : m'.sheets = m.sheets) : lostSheet r m' :=
  (congrArg Sheet.state (sheet_of_sheets e r)).trans h

theorem deliverNow_lost {r : Nat} {m : Mach} (h : lostSheet r m) (g : Msg) : lostSheet r (deliverNow g m) :=
  (congrArg Sheet.state (deliverNow_idle h.engaged g)).trans h

theorem sheetStep_lost {r : Nat} {m : Mach} (h : lostSheet r m) (j : Nat) : lostSheet r (sheetStep j m) := by
  have go {c : Bool} (open_ : (m.sheet j).state.engaged = true) (st : SheetState) :
      lostSheet r (if c then sheetTo j st m else m) := by
    split
    · exact sheetTo_lost h (h.ne open_) st
    · exact h
  rw [sheetStep]
  split
  case h_5 => exact h
  all_goals next state => exact go (by rw [state]; rfl) _

theorem sheetAdvance_lost {r : Nat} {m : Mach} (h : lostSheet r m) (j : Nat) : lostSheet r (sheetAdvance j m) := by
  rw [sheetAdvance]
  split
  · exact sheetStep_lost (sheetStep_lost (sheetStep_lost (sheetStep_lost h j) j) j) j
  · exact h

/-! ### Held edges -/

theorem watchStat_lost {r : Nat} {m : Mach} (h : lostSheet r m) (w : Nat) (sid : Sid) (b : Bool) :
    lostSheet r (watchStat w sid b m) := h.of_sheets (watchStat_sheets w sid b m)

theorem setSheet_lost {r j : Nat} {m : Mach} (h : lostSheet r m) (other : j ≠ r) (sh : Sheet) : lostSheet r (m.setSheet j sh) :=
  (congrArg Sheet.state (sheet_setSheet_ne (Ne.symm other) sh m)).trans h

theorem watchOk_lost {r j : Nat} {m : Mach} (h : lostSheet r m) (other : j ≠ r) (w : Nat) : lostSheet r (watchOk w j m) :=
  setSheet_lost (watchStat_lost h ..) other _

theorem watchFail_lost {r j : Nat} {m : Mach} (h : lostSheet r m) (other : j ≠ r) (w : Nat) :
    lostSheet r (watchFail w (some j) m) := by
  simp only [watchFail]
  refine deliverNow_lost ?_ _
  split
  · exact sheetTo_lost (watchStat_lost (setSheet_lost h other _) ..) other _
  · exact sheetTo_lost (setSheet_lost (watchStat_lost (setSheet_lost h other _) ..) other _) other _

/-- The first of a list of records is one of them. -/
theorem earliest_mem (m : Mach) (l : List Nat) {r : Nat} (h : earliest m l = some r) : r ∈ l := by
  have goal : ∀ (l : List Nat) (best : Option Nat), l.foldl (fun best r => match best with
      | none => some r
      | some b => if (m.sheet r).catchT.toNat < (m.sheet b).catchT.toNat then some r else some b) best = some r →
      r ∈ l ∨ best = some r := by
    intro l
    induction l with
    | nil => exact fun _ h => .inr h
    | cons a l ih =>
      intro best h
      rcases ih _ h with mem | e
      · exact .inl (List.mem_cons_of_mem _ mem)
      · cases best with
        | none => exact .inl (by rw [Option.some.inj e]; exact List.mem_cons_self)
        | some b =>
          simp only at e
          split at e
          · exact .inl (by rw [Option.some.inj e]; exact List.mem_cons_self)
          · exact .inr e
  exact (goal l none h).resolve_right (by simp)

/-- A verdict that names a record names an engaged one. -/
def Verdict.names : Verdict → Option Nat
  | .sat r => some r
  | .stray r => r
  | _ => none

theorem judgeEdge_names {w : Nat} {e : SnsEdge} {m : Mach} {r : Nat} (h : (judgeEdge w e m).names = some r) :
    (m.sheet r).state.engaged = true := by
  have due {l : List Nat} (sub : ∀ x ∈ l, x ∈ (recsIn (·.engaged) m).filter fun r => watchOpen w (m.sheet r)) {j : Nat}
      (first : earliest m l = some j) : (m.sheet j).state.engaged = true := by
    have open_ := (List.mem_filter.1 (sub j (earliest_mem m l first))).2
    simp only [watchOpen, Bool.and_eq_true] at open_
    exact open_.1.1
  unfold judgeEdge at h
  extract_lets l at h
  split at h
  · next j first =>
    have e : j = r := Option.some.inj h
    subst e
    exact due (fun x hx => List.mem_of_mem_filter hx) first
  · next j _ first =>
    split at h
    · cases h
    · have e : j = r := Option.some.inj h
      subst e
      exact due (fun x hx => hx) first
  · split at h <;> cases h

theorem actOn_lost {r : Nat} {m : Mach} (h : lostSheet r m) (p : Nat × SnsEdge) :
    lostSheet r (actOn p (judgeEdge p.1 p.2 m) m) := by
  have named {j : Nat} (e : (judgeEdge p.1 p.2 m).names = some j) : j ≠ r := h.ne (judgeEdge_names e)
  cases v : judgeEdge p.1 p.2 m with
  | sat j => exact watchOk_lost h (named (by rw [v]; rfl)) _
  | stray j =>
    cases j with
    | none => exact deliverNow_lost (watchStat_lost h ..) _
    | some j => exact watchFail_lost h (named (by rw [v]; rfl)) _
  | held => exact h
  | unseen => exact h

theorem settleEdges_lost {r : Nat} {m : Mach} (h : lostSheet r m) : lostSheet r (settleEdges m) := by
  have pass (x : Mach) (hx : lostSheet r x) : lostSheet r (settlePass x) :=
    each_preserves (P := lostSheet r) (fun j m hm => sheetAdvance_lost hm j) _ _
      (each_preserves (P := lostSheet r) (fun p m hm => actOn_lost hm p) _ _ (hx.of_sheets rfl))
  have goal (l : List Nat) : ∀ x, lostSheet r x → lostSheet r (l.foldl (fun m _ => settlePass m) x) := by
    induction l with
    | nil => exact fun _ hx => hx
    | cons _ l ih => exact fun x hx => ih _ (pass x hx)
  exact goal _ m h

theorem locksDrop_lost {r : Nat} {m : Mach} (h : lostSheet r m) : lostSheet r (locksDrop m) :=
  each_preserves (P := lostSheet r) (fun s m hm => deliverNow_lost (hm.of_sheets (lockDrop_sheets s m)) _) _ _ h

/-! ### The trip -/

/-- A message of class 4 loses a sheet that has been caught. -/
theorem msgOnRecord_loses {g : Msg} (four : g.cls = 4) {r : Nat} {m : Mach} (open_ : (m.sheet r).state.engaged = true)
    (late : (m.sheet r).state ≠ .admitted) : lostSheet r (msgOnRecord g r m) := by
  have notBefore : ((m.sheet r).state == .admitted && !pastLock (m.sheet r) m) = false := by simp [late]
  simp only [msgOnRecord, open_, four, notBefore]
  exact congrArg Sheet.state (sheetTo_same ..)

/-- An index whose value is not the default is listed with it. -/
theorem pair_mem_of_ne {α : Type} {d : α} {k : Nat} {t : Tab α} (h : tget d k t ≠ d) : (k, tget d k t) ∈ t := by
  induction t with
  | nil => exact absurd rfl h
  | cons p t ih =>
    obtain ⟨i, a⟩ := p
    by_cases e : i = k
    · simp [tget, e]
    · simp only [tget, if_neg e] at h ⊢
      exact List.mem_cons_of_mem _ (ih h)

theorem mem_recsIn {p : SheetState → Bool} {m : Mach} {r : Nat} (open_ : p (m.sheet r).state = true) (free : p .free = false) :
    r ∈ recsIn p m := by
  have listed : (r, m.sheet r) ∈ m.sheets := pair_mem_of_ne (d := ({ } : Sheet)) fun e => by
    have vacant : (m.sheet r).state = .free := congrArg Sheet.state e
    rw [vacant, free] at open_
    cases open_
  exact List.mem_filterMap.2 ⟨_, listed, by simp [open_]⟩

/-- A class 4 message leaves a sheet that has been caught lost. -/
theorem deliver_loses {g : Msg} (four : g.cls = 4) {r : Nat} {m : Mach} (open_ : (m.sheet r).state.engaged = true)
    (late : (m.sheet r).state ≠ .admitted) : lostSheet r (deliver g m) := by
  let n := collect g (withLast g m)
  have same : n.sheet r = m.sheet r := sheet_of_sheets ((collect_sheets ..).trans (withLast_sheets g m)) r
  have ledger : lostSheet r (each (recsIn (·.engaged) n) (msgOnRecord g) n) := by
    refine each_reaches (a := r) (P := fun x => x.sheet r = m.sheet r) (mem_recsIn (by rw [same]; exact open_) rfl)
      (fun j x hx => ?_) (fun x hx => ?_) (fun j x hx => ?_) n (.inl same)
    · by_cases e : j = r
      · subst e; exact .inr (msgOnRecord_loses four (by rw [hx]; exact open_) (by rw [hx]; exact late))
      · exact .inl ((msgOnRecord_ne (Ne.symm e) g x).trans hx)
    · exact msgOnRecord_loses four (by rw [hx]; exact open_) (by rw [hx]; exact late)
    · by_cases e : j = r
      · subst e; rw [msgOnRecord_idle hx.engaged]; exact hx
      · exact (congrArg Sheet.state (msgOnRecord_ne (Ne.symm e) g x)).trans hx
  have now : lostSheet r (deliverNow g m) :=
    ledger.of_sheets ((groupEffects_sheets ..).trans (classEffects_sheets g n))
  have locks : lostSheet r (when (g.cls == 4) locksDrop (deliverNow g m)) := by
    rw [when]
    split
    · exact locksDrop_lost now
    · exact now
  have edges : lostSheet r (when (decide (0 < g.cls)) settleEdges (when (g.cls == 4) locksDrop (deliverNow g m))) := by
    rw [when.eq_def (decide (0 < g.cls))]
    split
    · exact settleEdges_lost locks
    · exact locks
  exact edges.of_sheets (snapTry_sheets _)

end Sys2Proof.Machine
end

section
/-! PROOFS. The fault collector, ALIVE, the kick window and the interlock (O56). -/

namespace Sys2Proof.Machine

section
variable {m : Mach} {q : Requester} {v : Word}

/-! ## Messages -/

/-- LEN and HVEN stay away while a class 4 record is open. -/
theorem dark_of_classOpen (h : classOpen 4 m = true) : hvenOn m = false ∧ ∀ j, lenOn j m = false := by
  simp [hvenOn, lenOn, h]

/-- LEN and HVEN stay away while the interlock is open. -/
theorem dark_of_ilk (h : m.on R.ENV_STAT_ILK = false) : hvenOn m = false ∧ ∀ j, lenOn j m = false := by
  simp [hvenOn, lenOn, h]

/-- A message that finds its source's record free leaves itself there, held unless it is a note. -/
theorem srcRec_deliver_free {g : Msg} (free : g.lost m = false) : srcRec g.src (deliver g m) = g.toRec m (!g.noted m) := by
  cases noted : g.noted m with
  | true => exact srcRec_deliver_of_noted noted free
  | false =>
    have now : srcRec g.src (deliverNow g m) = g.toRec m true := by
      rw [srcRec_deliverNow, if_pos ⟨free, rfl⟩, noted]; rfl
    exact ((deliver_keeps g m).src _ (by rw [now]; rfl)).trans now

/-- After a class 4 message that finds its source's record free, its class is open. -/
theorem classOpen_deliver_free {g : Msg} (four : g.cls = 4) (free : g.lost m = false) : classOpen 4 (deliver g m) = true := by
  have unnoted : g.noted m = false := by simp [Msg.noted, four]
  have left := srcRec_deliver_free free
  rw [unnoted] at left
  have open_ := classOpen_of_srcRec (m := deliver g m) (j := g.src) (by rw [left]; rfl)
  rw [left] at open_
  exact four ▸ open_

/-! ## Clearing -/

theorem aliveResume_keeps (was : Bool) (m : Mach) : (aliveResume was m).flt.srcs = m.flt.srcs ∧
    (aliveResume was m).sheets = m.sheets ∧ (aliveResume was m).regs = m.regs := by
  rw [aliveResume]
  split <;> exact ⟨rfl, rfl, rfl⟩

/-- The result of a clearing: its code, the record it names. -/
def clearResult (q : Requester) (c n : Nat) (m : Mach) : Mach :=
  m.setOwn (Requester.id q) R.FLT_CLRRES_CODE.key (BitVec.ofNat 32 (c + n * 4))

theorem clearResult_code {c : Nat} (hc : c < 4) (n : Nat) (m : Mach) :
    R.FLT_CLRRES_CODE.of ((clearResult q c n m).own (Requester.id q) R.FLT_CLRRES_CODE.key) = c := by
  rw [clearResult, show (m.setOwn (Requester.id q) R.FLT_CLRRES_CODE.key (BitVec.ofNat 32 (c + n * 4))).own (Requester.id q)
    R.FLT_CLRRES_CODE.key = BitVec.ofNat 32 (c + n * 4) from tget_tput_same ..]
  simp only [FRef.of, bitsOf, R.FLT_CLRRES_CODE, BitVec.toNat_ofNat]
  omega

/-- The machine with a source's record no longer held. -/
def recordFreed (src : Nat) (m : Mach) : Mach :=
  { m with flt := { m.flt with srcs := tput src { tget {} src m.flt.srcs with held := false } m.flt.srcs } }

theorem fltClr_none (crec : R.FLT_CLR_CREC.of v = 0) (free : (tget {} (R.FLT_CLR_SRC.of v) m.flt.srcs).held = false) :
    fltClr q v m = clearResult q 2 (R.FLT_CLR_SRC.of v) m := by
  simp only [fltClr, crec, freeRecord, free]
  rfl

theorem fltClr_freed (crec : R.FLT_CLR_CREC.of v = 0) (held : (tget {} (R.FLT_CLR_SRC.of v) m.flt.srcs).held = true)
    (ended : stands (tget {} (R.FLT_CLR_SRC.of v) m.flt.srcs) (recordFreed (R.FLT_CLR_SRC.of v) m) = false) :
    fltClr q v m = clearResult q 0 (R.FLT_CLR_SRC.of v) (aliveResume (aliveHeld m) (recordFreed (R.FLT_CLR_SRC.of v) m)) := by
  rw [recordFreed] at ended ⊢
  simp only [fltClr, crec, freeRecord, held, ended]
  rfl

theorem fltClr_raised (crec : R.FLT_CLR_CREC.of v = 0) (held : (tget {} (R.FLT_CLR_SRC.of v) m.flt.srcs).held = true)
    (still : stands (tget {} (R.FLT_CLR_SRC.of v) m.flt.srcs) (recordFreed (R.FLT_CLR_SRC.of v) m) = true) :
    ∃ n, fltClr q v m = clearResult q 1 (R.FLT_CLR_SRC.of v) n := by
  rw [recordFreed] at still
  simp only [fltClr, crec, freeRecord, held, still]
  exact ⟨_, rfl⟩

/-! ## The alive signal -/

theorem on_flip (h : f.sound = true) (one : f.hi = f.lo) : (m.set f (1 - m.get f)).on f = !(m.on f) := by
  have bit : m.get f < 2 ^ 1 := by have := m.get_lt f; rwa [show f.hi + 1 - f.lo = 1 by omega] at this
  have flip : 1 - m.get f = b2n (!(m.on f)) := by
    rw [Mach.on]
    have : m.get f = 0 ∨ m.get f = 1 := by omega
    rcases this with e | e <;> rw [e] <;> rfl
  rw [flip]
  exact Mach.on_set_flag h one _ m

/-- FLT_ALIVE once its fields are written: HALF only while the signal is off. -/
def aliveSet (v : Word) (m : Mach) : Mach :=
  if m.on R.FLT_ALIVE_EN then m.set R.FLT_ALIVE_EN (R.FLT_ALIVE_EN.of v)
  else (m.set R.FLT_ALIVE_EN (R.FLT_ALIVE_EN.of v)).set R.FLT_ALIVE_HALF (R.FLT_ALIVE_HALF.of v)

/-- The fields of FLT_ALIVE. -/
def aliveEn : Fld := ⟨0, 0, .rw, .live, [0]⟩
def aliveLevel : Fld := ⟨1, 1, .ro, .live, [0]⟩
def aliveHeldFld : Fld := ⟨2, 2, .ro, .live, [0]⟩
def aliveHalfFld : Fld := ⟨21, 3, .rw, .locked, [50000]⟩

theorem rowAt_alive : rowAt R.FLT_ALIVE_EN.key =
    some (⟨0x0020, [], [aliveEn, aliveLevel, aliveHeldFld, aliveHalfFld]⟩, []) := rfl

theorem storeFld_ro {key : Nat} {g : Fld} (acc : ∀ m, fldAcc key g m = .ro) (gov : Bool) (x : Mach × Bool) :
    storeFld key v gov x g = x := by
  simp [storeFld, acc]

theorem storeFld_aliveEn (gov : Bool) (x : Mach × Bool) :
    storeFld R.FLT_ALIVE_EN.key v gov x aliveEn = (x.1.set R.FLT_ALIVE_EN (R.FLT_ALIVE_EN.of v), x.2) := by
  have res : fldReserved R.FLT_ALIVE_EN.key aliveEn = false := rfl
  have acc : fldAcc R.FLT_ALIVE_EN.key aliveEn x.1 = .rw := fldAcc_plain rfl ..
  have cls : fldCls R.FLT_ALIVE_EN.key aliveEn = .live := rfl
  simp only [storeFld, res, acc, cls]
  rfl

theorem storeFld_aliveHalf (gov : Bool) (x : Mach × Bool) :
    storeFld R.FLT_ALIVE_EN.key v gov x aliveHalfFld = if gov then (x.1, x.2 || R.FLT_ALIVE_HALF.of v != x.1.get R.FLT_ALIVE_HALF)
      else (x.1.set R.FLT_ALIVE_HALF (R.FLT_ALIVE_HALF.of v), x.2) := by
  have res : fldReserved R.FLT_ALIVE_EN.key aliveHalfFld = false := rfl
  have acc : fldAcc R.FLT_ALIVE_EN.key aliveHalfFld x.1 = .rw := fldAcc_plain rfl ..
  have cls : fldCls R.FLT_ALIVE_EN.key aliveHalfFld = .locked := rfl
  simp only [storeFld, res, acc, cls]
  rfl

/-- A write of FLT_ALIVE sets EN and HALF, and notes a HALF that it may not change. -/
theorem storeFields_alive (pend : m.pend = []) :
    ∃ b, storeFields R.FLT_ALIVE_EN.key v m = when b (regNote 0x3A R.FLT_ALIVE_EN.key) (aliveSet v m) := by
  have gov : govOn R.FLT_ALIVE_EN.key m = m.on R.FLT_ALIVE_EN := rfl
  have level := storeFld_ro (v := v) (key := R.FLT_ALIVE_EN.key) (g := aliveLevel) fun _ => fldAcc_plain rfl ..
  have held := storeFld_ro (v := v) (key := R.FLT_ALIVE_EN.key) (g := aliveHeldFld) fun _ => fldAcc_plain rfl ..
  simp only [storeFields, rowAt_alive, gov, List.foldl_cons, List.foldl_nil, storeFld_aliveEn, level, held, storeFld_aliveHalf, aliveSet]
  cases m.on R.FLT_ALIVE_EN
  · exact ⟨_, congrArg (when _ _)
      (settlePend_idle (m := (m.set R.FLT_ALIVE_EN (R.FLT_ALIVE_EN.of v)).set R.FLT_ALIVE_HALF (R.FLT_ALIVE_HALF.of v)) pend)⟩
  · exact ⟨_, congrArg (when _ _) (settlePend_idle (m := m.set R.FLT_ALIVE_EN (R.FLT_ALIVE_EN.of v)) pend)⟩

theorem aliveSet_reads (v : Word) (m : Mach) : (aliveSet v m).get R.FLT_ALIVE_EN = R.FLT_ALIVE_EN.of v ∧
    (aliveSet v m).get R.FLT_ALIVE_HALF = (if m.on R.FLT_ALIVE_EN then m.get R.FLT_ALIVE_HALF else R.FLT_ALIVE_HALF.of v) ∧
    (aliveSet v m).get R.FLT_ALIVE_LEVEL = m.get R.FLT_ALIVE_LEVEL := by
  have en : (m.set R.FLT_ALIVE_EN (R.FLT_ALIVE_EN.of v)).get R.FLT_ALIVE_EN = R.FLT_ALIVE_EN.of v :=
    Mach.get_set_val rfl (R.FLT_ALIVE_EN.of_lt v) m
  have level : (m.set R.FLT_ALIVE_EN (R.FLT_ALIVE_EN.of v)).get R.FLT_ALIVE_LEVEL = m.get R.FLT_ALIVE_LEVEL :=
    Mach.get_set_bits rfl _ m
  rw [aliveSet]
  split
  · exact ⟨en, Mach.get_set_bits rfl _ m, level⟩
  · exact ⟨(Mach.get_set_bits (f := R.FLT_ALIVE_HALF) (g := R.FLT_ALIVE_EN) rfl _ _).trans en,
      Mach.get_set_val (f := R.FLT_ALIVE_HALF) rfl (R.FLT_ALIVE_HALF.of_lt v) _,
      (Mach.get_set_bits (f := R.FLT_ALIVE_HALF) (g := R.FLT_ALIVE_LEVEL) rfl _ _).trans level⟩

theorem aliveSet_clk (v : Word) (m : Mach) : (aliveSet v m).clk = m.clk := by
  rw [aliveSet]; split <;> rfl

theorem aliveWrite_word (v : Word) (m : Mach) (key : Nat) :
    (aliveWrite v m).word key = (storeFields R.FLT_ALIVE_EN.key v m).word key := by
  simp only [aliveWrite, when]
  split <;> rfl

/-- A note that may follow changes neither FLT_ALIVE nor the ledger nor TICK. -/
theorem ripples_aliveNote (b : Bool) (m : Mach) : Ripples False m (when b (regNote 0x3A R.FLT_ALIVE_EN.key) m) :=
  ripples_when (fun _ m => ripples_note (regSrc R.FLT_ALIVE_EN.key) 0x3A (0x40000000 + R.FLT_ALIVE_EN.key) m) m

theorem aliveStored_reads (pend : m.pend = []) : (aliveWrite v m).get R.FLT_ALIVE_EN = R.FLT_ALIVE_EN.of v ∧
    (aliveWrite v m).get R.FLT_ALIVE_HALF = (if m.on R.FLT_ALIVE_EN then m.get R.FLT_ALIVE_HALF else R.FLT_ALIVE_HALF.of v) ∧
    (aliveWrite v m).get R.FLT_ALIVE_LEVEL = m.get R.FLT_ALIVE_LEVEL := by
  obtain ⟨b, stored⟩ := storeFields_alive (v := v) pend
  have reads {f : FRef} (hf : f.key = R.FLT_ALIVE_EN.key) : (aliveWrite v m).get f = (aliveSet v m).get f := by
    rw [get_of_word (aliveWrite_word ..), stored]
    exact (ripples_aliveNote b _).get' (by rw [hf]; simp [rippleKey, R.FLT_ALIVE_EN])
  rw [reads (f := R.FLT_ALIVE_EN) rfl, reads (f := R.FLT_ALIVE_HALF) rfl, reads (f := R.FLT_ALIVE_LEVEL) rfl]
  exact aliveSet_reads v m

theorem aliveWrite_leaves (pend : m.pend = []) : (aliveWrite v m).sheets = m.sheets ∧
    (R.FLT_ALIVE_EN.of v = 1 → (aliveWrite v m).flt.aliveFrom = m.clk.tick) := by
  constructor
  · refine Eq.trans ?_ (storeFields_sheets R.FLT_ALIVE_EN.key v m)
    simp only [aliveWrite, when]
    split <;> rfl
  · intro en
    obtain ⟨b, stored⟩ := storeFields_alive (v := v) pend
    have clk : (storeFields R.FLT_ALIVE_EN.key v m).clk = m.clk := by
      rw [stored]; exact (ripples_aliveNote b _).clk.trans (aliveSet_clk v m)
    rw [aliveWrite, en]
    exact congrArg Clk.tick clk

/-! ## The kick window -/

/-- The window after a write of FLT_KICK. -/
theorem kickWrite_eq (v : Word) (m : Mach) : ∃ k, kickWrite v m =
      { m.set R.FLT_KICK_KWIN (R.FLT_KICK_KWIN.of v) with flt := { m.flt with kickFrom := k } } ∧
    (R.FLT_KICK_KWIN.of v = 0 → k = none) ∧ (R.FLT_KICK_KWIN.of v ≠ 0 → R.FLT_KICK.of v = 1 → k = some m.clk.tick) := by
  simp only [kickWrite]
  split
  · next zero => exact ⟨none, rfl, fun _ => rfl, fun ne => absurd zero ne⟩
  · next ne =>
    split
    · exact ⟨some m.clk.tick, rfl, fun zero => absurd zero ne, fun _ _ => rfl⟩
    · next stay =>
      refine ⟨m.flt.kickFrom, rfl, fun zero => absurd zero ne, fun _ kick => ?_⟩
      exact absurd (by simp [kick]) stay

/-- The start of the kick window, which no message moves. -/
def windowFrom (m : Mach) : Option Tick := m.flt.kickFrom

theorem windowFrom_spares {m m' : Mach} (h : Spares m m') : windowFrom m' = windowFrom m := congrArg Collector.kickFrom h.flt

theorem windowFrom_putSrc (src : Nat) (x : FltRec) (l : List Nat) (m : Mach) : windowFrom (putSrc src x l m) = windowFrom m := rfl

theorem windowFrom_putCls (c : Nat) (x : FltRec) (m : Mach) : windowFrom (putCls c x m) = windowFrom m := rfl

theorem windowFrom_captured (g : Msg) (m : Mach) : windowFrom (captured g m) = windowFrom m :=
  windowFrom_spares (spares_captured ..)

theorem collect_windowFrom (g : Msg) (m : Mach) : windowFrom (collect g m) = windowFrom m := by
  have counted : windowFrom (countLost m) = windowFrom m := (windowFrom_spares (spares_assertEvent 0x043 _)).trans rfl
  rw [collect_eq]
  split
  · split
    · rw [windowFrom_captured, windowFrom_putCls, counted]
    · exact counted
  · split
    · exact windowFrom_putSrc ..
    · rw [windowFrom_captured, windowFrom_putSrc]

theorem deliverNow_windowFrom (g : Msg) (m : Mach) : windowFrom (deliverNow g m) = windowFrom m := by
  refine (windowFrom_spares (deliverNow_spares g m)).trans ((collect_windowFrom ..).trans ?_)
  rw [withLast, when]; split <;> rfl

theorem actOn_windowFrom (p : Nat × SnsEdge) (x : Verdict) (m : Mach) : windowFrom (actOn p x m) = windowFrom m := by
  cases x with
  | sat r => rfl
  | stray r =>
    cases r with
    | none => exact deliverNow_windowFrom ..
    | some r =>
      simp only [actOn, watchFail]
      refine (deliverNow_windowFrom ..).trans ?_
      split
      · exact (windowFrom_spares (spares_sheetTo ..)).trans rfl
      · exact (windowFrom_spares (spares_sheetTo ..)).trans rfl
  | held => rfl
  | unseen => rfl

theorem settleEdges_windowFrom (m : Mach) : windowFrom (settleEdges m) = windowFrom m := by
  have pass (x : Mach) : windowFrom (settlePass x) = windowFrom x :=
    (each_keeps (p := windowFrom) _ (fun r _ m => windowFrom_spares (spares_sheetAdvance r m)) _).trans
      (each_keeps (p := windowFrom) _ (fun p _ m => actOn_windowFrom p _ m) _)
  have goal (l : List Nat) : ∀ x, windowFrom (l.foldl (fun m _ => settlePass m) x) = windowFrom x := by
    induction l with
    | nil => exact fun _ => rfl
    | cons _ l ih => exact fun x => (ih _).trans (pass x)
  exact goal _ m

theorem raise_windowFrom {src kind cls : Nat} (h : cls ≠ 4) (m : Mach) : windowFrom (raise src kind cls m) = windowFrom m := by
  have quiet : (cls == 4) = false := by simp [h]
  let g : Msg := { src := src, kind := kind, cls := cls }
  have judged : windowFrom (when (decide (0 < cls)) settleEdges (when (cls == 4) locksDrop (deliverNow g m))) = windowFrom m := by
    rw [quiet]
    refine Eq.trans ?_ (deliverNow_windowFrom g m)
    rw [when]
    split
    · exact settleEdges_windowFrom _
    · rfl
  exact (windowFrom_spares (spares_snapTry _)).trans judged

theorem opKickWindowExpire_due {x : Tick} (open_ : m.flt.kickFrom = some x)
    (passed : x.toNat + 100000 * m.get R.FLT_KICK_KWIN < m.now) :
    opKickWindowExpire m = raise 0x040 0x01 3 { m with flt := { m.flt with kickFrom := none } } := by
  have due : x.toNat + msTicks (m.get R.FLT_KICK_KWIN) < m.now := by rw [msTicks, Nat.mul_comm]; exact passed
  simp only [opKickWindowExpire, open_, if_pos due]

end

/-- Settles O56: a message writes its record and its effects, and what follows it takes neither back. -/
theorem faultCollector : Obligations.FaultCollector := by
  intro q src kind cls sid param v s okq hsrc hkind hcls m msg old rec_ alone auto dark code cs held released hit
  let g : Msg := { src := src, kind := kind, cls := cls, sid := sid, param := param }
  have run : exec msg s = .next (s.onMach (deliver g)) := exec_faultMessage sid param s hsrc hkind hcls
  have unfollowed (h : alone) : g.Alone m := ⟨.inr h.1, h.2⟩
  have unheld (c : old.held = false) : g.lost m = false := c
  refine ⟨fun free => ?_, fun lost => ?_, fun h2 => ?_, fun four free => ?_, fun lets crec => ⟨fun free => ?_,
    fun taken ended => ?_, fun taken still => ?_⟩, fun on awake due => ?_, fun lets pend => ?_, fun lets => ?_,
    fun x open_ passed => ?_, ?_, ?_⟩
  · have left := srcRec_deliver_free (unheld free)
    have noted : g.noted m = decide auto := by
      simp [Msg.noted, auto, g]; rfl
    obtain ⟨hs, hk, hc, hsid, hp, ht⟩ := shows_of_eq_toRec left
    refine ⟨_, run, ?_, hs, hk, hc, hsid, hp, ht, rfl, fun h => ⟨?_, fun j ne => ?_⟩⟩
    · refine (congrArg FltRec.held left).trans ?_
      change (!g.noted m) = _
      rw [noted, decide_not]
    · exact (deliver_spares (unfollowed h)).lostcnt.trans ((lostcnt_deliverNow g m).trans (by rw [unheld free]; rfl))
    · exact ((deliver_spares (unfollowed h)).srcRec_eq j).trans ((srcRec_deliverNow g m j).trans (if_neg fun e => ne e.2))
  · have lostG : g.lost m = true := lost
    refine ⟨_, run, srcRec_deliver_of_lost lostG, fun h => ?_⟩
    refine (deliver_spares (unfollowed h)).lostcnt.trans ((lostcnt_deliverNow g m).trans ?_)
    rw [lostG, if_pos rfl, Nat.min_comm]
  · refine ⟨_, run, fun none_ => ?_⟩
    have last := deliver_last (g := g) h2 none_
    exact ⟨congrArg FltRec.src last, congrArg FltRec.kind last, congrArg FltRec.cls last⟩
  · obtain ⟨gates, hv, fus, poly⟩ := deliver_trips (g := g) four m
    exact ⟨_, run, dark_of_classOpen (classOpen_deliver_free (g := g) four free), gates, hv, fus, poly,
      fun r open_ late => deliver_loses (g := g) four open_ late⟩
  · have ran := acts_to (acts_guarded (onUnit_of okq (opFaultClear q v) s) lets) (fltClr_none crec free)
    exact ⟨_, ran, clearResult_code (by decide) _ m, rfl, rfl⟩
  · have ran := acts_to (acts_guarded (onUnit_of okq (opFaultClear q v) s) lets) (fltClr_freed crec taken ended)
    obtain ⟨srcs, sheets, regs⟩ := aliveResume_keeps (aliveHeld m) (recordFreed cs m)
    refine ⟨_, ran, clearResult_code (by decide) _ _, ?_, sheets, regs, rfl⟩
    change (tget {} cs (aliveResume (aliveHeld m) (recordFreed cs m)).flt.srcs).held = false
    rw [srcs]
    exact congrArg FltRec.held (tget_tput_same ..)
  · obtain ⟨n, eff⟩ := fltClr_raised (q := q) crec taken still
    exact ⟨_, acts_to (acts_guarded (onUnit_of okq (opFaultClear q v) s) lets) eff, clearResult_code (by decide) _ n⟩
  · have eff : opAliveToggle m = { m.set R.FLT_ALIVE_LEVEL (1 - m.get R.FLT_ALIVE_LEVEL) with
        flt := { m.flt with aliveFrom := m.clk.tick } } := if_pos (by rw [on, awake, due]; rfl)
    exact ⟨_, acts_to (onUnit_of rfl opAliveToggle s) eff, on_flip (f := R.FLT_ALIVE_LEVEL) rfl rfl, rfl, rfl, rfl⟩
  · obtain ⟨en, half, level⟩ := aliveStored_reads (v := v) pend
    obtain ⟨sheets, start⟩ := aliveWrite_leaves (v := v) pend
    exact ⟨_, acts_to (acts_guarded (onUnit_of okq (opAliveWrite q v) s) lets) rfl, en, half, level, sheets, rfl, start⟩
  · obtain ⟨k, eff, closed, opened⟩ := kickWrite_eq v m
    have ran := acts_to (acts_guarded (onUnit_of okq (opKick q v) s) lets) eff
    exact ⟨_, ran, Mach.get_set_val (f := R.FLT_KICK_KWIN) rfl (R.FLT_KICK_KWIN.of_lt v) m, rfl, rfl, closed, opened⟩
  · refine ⟨_, acts_to (onUnit_of rfl opKickWindowExpire s) (opKickWindowExpire_due open_ passed), ?_, ?_, rfl⟩
    · exact faulted_raise (by decide) (by decide) id
    · exact raise_windowFrom (by decide) _
  · have two : 2 ≤ (if hit then 3 else 2) := by split <;> decide
    have four : (if hit then 3 else 2) ≠ 4 := by split <;> decide
    have ran : exec .interlockOpen s = .next { s with mach := raise 0x051 0x02 (if hit then 3 else 2) (m.set R.ENV_STAT_ILK 0) } :=
      onUnit_of rfl opInterlockOpen s
    have ilk : (raise 0x051 0x02 (if hit then 3 else 2) (m.set R.ENV_STAT_ILK 0)).on R.ENV_STAT_ILK = false :=
      ((ripples_raise four).on' (by simp [rippleKey, R.ENV_STAT_ILK])).trans (Mach.on_set_flag (f := R.ENV_STAT_ILK) rfl rfl false m)
    exact ⟨_, ran, ilk, dark_of_ilk ilk, faulted_raise two four id, rfl⟩
  · exact ⟨_, onUnit_of rfl opInterlockQualified s, Mach.on_set_flag (f := R.ENV_STAT_ILK) rfl rfl true m, rfl, rfl, rfl⟩

end Sys2Proof.Machine
end

section
/-! PROOFS. Fjarilink's ports and frames (O58). -/

namespace Sys2Proof.Machine

/-! ## What a note leaves of Fjarilink -/

/-- Everything sent before has been sent. -/
def Sends (m m' : Mach) : Prop := ∃ rest, m'.sent = m.sent ++ rest

theorem Sends.of_eq {m m' : Mach} (h : m'.sent = m.sent) : Sends m m' := ⟨[], by rw [h, List.append_nil]⟩

theorem Sends.trans {a b c : Mach} (h : Sends a b) (g : Sends b c) : Sends a c := by
  obtain ⟨x, hx⟩ := h
  obtain ⟨y, hy⟩ := g
  exact ⟨x ++ y, by rw [hy, hx, List.append_assoc]⟩

/-- The machine after has Fjarilink's state, and what has been sent was sent before or after. -/
structure LinkKept (m m' : Mach) : Prop where
  fjl : m'.fjl = m.fjl
  sent : Sends m m'

theorem LinkKept.refl (m : Mach) : LinkKept m m := ⟨rfl, .of_eq rfl⟩

theorem LinkKept.trans {a b c : Mach} (h : LinkKept a b) (g : LinkKept b c) : LinkKept a c :=
  ⟨g.fjl.trans h.fjl, h.sent.trans g.sent⟩

theorem linkKept_when {c : Bool} {f : Mach → Mach} (h : ∀ m, LinkKept m (f m)) (m : Mach) : LinkKept m (when c f m) := by
  cases c
  · exact .refl m
  · exact h m

theorem linkKept_assertEvent (code : Nat) (m : Mach) : LinkKept m (assertEvent code m) :=
  ⟨assertEvent_fjl .., .of_eq (assertEvent_sent ..)⟩

theorem linkKept_msix (v : Nat) (m : Mach) : LinkKept m (m.msix v) := by
  simp only [Mach.msix]
  split
  · exact ⟨rfl, .of_eq rfl⟩
  · exact ⟨rfl, [_], rfl⟩

theorem linkKept_captured (g : Msg) (m : Mach) : LinkKept m (captured g m) := by
  have event (code : Nat) := linkKept_assertEvent code
  exact (((event _ m).trans (linkKept_when (event _) _)).trans (linkKept_when (event _) _)).trans
    (linkKept_when (fun m => linkKept_msix _ m) _)

theorem linkKept_putSrc (src : Nat) (x : FltRec) (l : List Nat) (m : Mach) : LinkKept m (putSrc src x l m) := ⟨rfl, .of_eq rfl⟩

theorem linkKept_putCls (c : Nat) (x : FltRec) (m : Mach) : LinkKept m (putCls c x m) := ⟨rfl, .of_eq rfl⟩

theorem linkKept_countLost (m : Mach) : LinkKept m (countLost m) :=
  LinkKept.trans (b := m.incSat R.FLT_LOSTCNT_LOST) ⟨rfl, .of_eq rfl⟩ (linkKept_assertEvent ..)

theorem linkKept_collect (g : Msg) (m : Mach) : LinkKept m (collect g m) := by
  rw [collect_eq]
  split
  · split
    · exact ((linkKept_countLost m).trans (linkKept_putCls ..)).trans (linkKept_captured ..)
    · exact linkKept_countLost m
  · split
    · exact linkKept_putSrc ..
    · exact (linkKept_putSrc ..).trans (linkKept_captured ..)

theorem linkKept_captureBegin (b : Nat) (m : Mach) : LinkKept m (captureBegin b m) :=
  LinkKept.trans (b := when m.snap.deferred (·.incSat R.SNAP_STAT_DEFER) m)
    (linkKept_when (f := (·.incSat R.SNAP_STAT_DEFER)) (fun _ => ⟨rfl, .of_eq rfl⟩) m) ⟨rfl, .of_eq rfl⟩

theorem linkKept_snapTry (m : Mach) : LinkKept m (snapTry m) := by
  simp only [snapTry]
  split
  · split
    · exact linkKept_captureBegin ..
    · exact ⟨rfl, .of_eq rfl⟩
  · exact .refl m

/-- A note concerns no record, no output and no group. -/
theorem deliver_note {g : Msg} (zero : g.cls = 0) (m : Mach) : deliver g m = snapTry (collect g m) := by
  have records (n : Mach) : each (recsIn (·.engaged) n) (msgOnRecord g) n = n :=
    each_idle (fun r => by simp only [msgOnRecord, zero]; split <;> rfl) _
  have effects (n : Mach) : classEffects g n = n := by simp only [classEffects, zero, records]
  have group (o : Bool) (n : Mach) : groupEffects g o n = n := by
    simp only [groupEffects, zero]
    split <;> rfl
  have now : deliverNow g m = collect g m :=
    ((group _ _).trans (effects _)).trans (congrArg (collect g) (withLast_of_note g m (by omega)))
  rw [deliver, now, zero]
  rfl

theorem linkKept_note (src kind : Nat) (sid : Sid) (param : Nat) (m : Mach) : LinkKept m (raise src kind 0 m sid param) := by
  rw [raise, deliver_note rfl]
  exact (linkKept_collect ..).trans (linkKept_snapTry _)

/-! ## The time port -/

/-- What a change of the time state or of the time port leaves: the ports, what they wait for, and the routes. -/
structure TimeMoves (m m' : Mach) : Prop where
  up : ∀ p, portUp p m' = portUp p m
  clk : m'.clk.tick = m.clk.tick
  routes : m'.fjl.routes = m.fjl.routes
  unacked0 : m'.fjl.unacked0 = m.fjl.unacked0
  unacked1 : m'.fjl.unacked1 = m.fjl.unacked1
  helloAt : m'.fjl.helloAt = m.fjl.helloAt
  sent : Sends m m'

theorem TimeMoves.refl (m : Mach) : TimeMoves m m := ⟨fun _ => rfl, rfl, rfl, rfl, rfl, rfl, .of_eq rfl⟩

theorem TimeMoves.trans {a b c : Mach} (h : TimeMoves a b) (g : TimeMoves b c) : TimeMoves a c where
  up p := (g.up p).trans (h.up p)
  clk := g.clk.trans h.clk
  routes := g.routes.trans h.routes
  unacked0 := g.unacked0.trans h.unacked0
  unacked1 := g.unacked1.trans h.unacked1
  helloAt := g.helloAt.trans h.helloAt
  sent := h.sent.trans g.sent

theorem portUp_of_word {m m' : Mach} (h : m'.word R.FJL_PSTAT_UUP.key = m.word R.FJL_PSTAT_UUP.key) (p : Nat) :
    portUp p m' = portUp p m := by
  rw [portUp, portUp, Mach.on, Mach.on, Mach.on, Mach.on, get_of_word (f := R.FJL_PSTAT_UUP) h,
    get_of_word (f := R.FJL_PSTAT_DUP) h]

theorem timeMoves_of_linkKept {m m' : Mach} (h : LinkKept m m') (r : Ripples False m m') : TimeMoves m m' where
  up := portUp_of_word (r.word _ (by simp [rippleKey, R.FJL_PSTAT_UUP]) False.elim)
  clk := congrArg Clk.tick r.clk
  routes := congrArg Fjl.routes h.fjl
  unacked0 := congrArg Fjl.unacked0 h.fjl
  unacked1 := congrArg Fjl.unacked1 h.fjl
  helloAt := congrArg Fjl.helloAt h.fjl
  sent := h.sent

theorem timeMoves_assertEvent (code : Nat) (m : Mach) : TimeMoves m (assertEvent code m) :=
  timeMoves_of_linkKept (linkKept_assertEvent ..) (ripples_assertEvent ..)

theorem timeMoves_note (src kind : Nat) (m : Mach) : TimeMoves m (raise src kind 0 m) :=
  timeMoves_of_linkKept (linkKept_note ..) (ripples_raise (by decide))

/-- A field of the ports' register besides the ports themselves is set. -/
theorem timeMoves_set {f : FRef} (uup : f.bitsApart R.FJL_PSTAT_UUP = true) (dup : f.bitsApart R.FJL_PSTAT_DUP = true) (v : Nat)
    (m : Mach) : TimeMoves m (m.set f v) where
  up p := by rw [portUp, portUp, Mach.on_set_bits uup, Mach.on_set_bits dup]
  clk := rfl
  routes := rfl
  unacked0 := rfl
  unacked1 := rfl
  helloAt := rfl
  sent := .of_eq rfl

theorem timeMoves_setTime (st : Nat) (m : Mach) : TimeMoves m (setTime st m) := by
  rw [setTime]
  split
  · exact .refl m
  · exact (timeMoves_set (f := R.FJL_PSTAT_TSTATE) rfl rfl st m).trans (timeMoves_assertEvent ..)

/-- TRIM is held at its mean. -/
def trimMean (m : Mach) : Mach :=
  if (trimSum (m.now - 100000000) m.now m.fjl.trims).2 = 0 then m
  else
    let q := m.roundFree (trimSum (m.now - 100000000) m.now m.fjl.trims).1 (trimSum (m.now - 100000000) m.now m.fjl.trims).2
    q.2.setI R.CLK_TRIM q.1

/-- HOLDOVER begins now. -/
def holding (m : Mach) : Mach := m.onFjl fun f => { f with holdAt := m.clk.tick, gtSent := false, t1 := none }

theorem enterHoldover_eq (m : Mach) : enterHoldover m = raise 0x202 0x02 0 (setTime tHoldover (holding (trimMean m))) := rfl

theorem trimMean_leaves (m : Mach) : (trimMean m).fjl = m.fjl ∧ (trimMean m).clk.tick = m.clk.tick ∧ (trimMean m).sent = m.sent ∧
    (trimMean m).word R.FJL_PSTAT_UUP.key = m.word R.FJL_PSTAT_UUP.key := by
  rw [trimMean]
  split
  · exact ⟨rfl, rfl, rfl, rfl⟩
  · extract_lets q
    obtain ⟨fresh, e⟩ := roundFree_eq (trimSum (m.now - 100000000) m.now m.fjl.trims).1
      (trimSum (m.now - 100000000) m.now m.fjl.trims).2 m
    have e : q.2 = { m with fresh := fresh } := e
    rw [e]
    exact ⟨rfl, rfl, rfl, Mach.word_set_ne _ (by decide) _⟩

theorem timeMoves_trimMean (m : Mach) : TimeMoves m (trimMean m) := by
  obtain ⟨fjl, clk, sent, word⟩ := trimMean_leaves m
  exact ⟨portUp_of_word word, clk, congrArg Fjl.routes fjl, congrArg Fjl.unacked0 fjl, congrArg Fjl.unacked1 fjl,
    congrArg Fjl.helloAt fjl, .of_eq sent⟩

theorem timeMoves_holding (m : Mach) : TimeMoves m (holding m) := ⟨fun _ => rfl, rfl, rfl, rfl, rfl, rfl, .of_eq rfl⟩

theorem timeMoves_enterHoldover (m : Mach) : TimeMoves m (enterHoldover m) := by
  rw [enterHoldover_eq]
  exact (((timeMoves_trimMean m).trans (timeMoves_holding _)).trans (timeMoves_setTime ..)).trans (timeMoves_note ..)

theorem timeMoves_timePort (m : Mach) : TimeMoves m (timePort m) := by
  unfold timePort
  extract_lets tm p m1
  have written : TimeMoves m m1 :=
    (timeMoves_set (f := R.FJL_PSTAT_TMADDR) rfl rfl tm m).trans (timeMoves_set (f := R.FJL_PSTAT_TPORT) rfl rfl p _)
  split
  · exact written.trans (timeMoves_enterHoldover _)
  · exact written

/-! ## Ports -/

section
variable {p : Nat} {m : Mach} {f : Frame}

theorem portUp_setPort_same (hp : p < 2) (up : Bool) (m : Mach) : portUp p (setPort p up m) = up := by
  rcases (by omega : p = 0 ∨ p = 1) with rfl | rfl
  · exact Mach.on_set_flag (f := R.FJL_PSTAT_UUP) rfl rfl up m
  · exact Mach.on_set_flag (f := R.FJL_PSTAT_DUP) rfl rfl up m

theorem portUp_setPort_other (hp : p < 2) (up : Bool) (m : Mach) : portUp (1 - p) (setPort p up m) = portUp (1 - p) m := by
  rcases (by omega : p = 0 ∨ p = 1) with rfl | rfl
  · exact Mach.on_set_bits (f := R.FJL_PSTAT_UUP) (g := R.FJL_PSTAT_DUP) rfl _ m
  · exact Mach.on_set_bits (f := R.FJL_PSTAT_DUP) (g := R.FJL_PSTAT_UUP) rfl _ m

/-- The frames that wait at a port. -/
def portWaits (p : Nat) (m : Mach) : List Unacked := if p = 0 then m.fjl.unacked0 else m.fjl.unacked1

theorem TimeMoves.portWaits {m m' : Mach} (h : TimeMoves m m') (p : Nat) : portWaits p m' = portWaits p m := by
  rw [Machine.portWaits, Machine.portWaits, h.unacked0, h.unacked1]

/-- The port's own part of going down. -/
def portCut (p : Nat) (m : Mach) : Mach :=
  (setPort p false m).onFjl fun f =>
    { f with unacked0 := if p = 0 then [] else f.unacked0, unacked1 := if p = 0 then f.unacked1 else [],
             routes := keepRoutes (f.routes.map fun r => (r.1, forgetPort p r.2)) }

theorem portDown_moves (p : Nat) (m : Mach) : TimeMoves (portCut p m) (portDown p m) :=
  ((timeMoves_note ..).trans (timeMoves_assertEvent ..)).trans (timeMoves_timePort _)

/-- A port that goes down drops its frames and leaves the other port. -/
theorem portDown_leaves (hp : p < 2) : portUp p (portDown p m) = false ∧ portWaits p (portDown p m) = [] ∧
    portUp (1 - p) (portDown p m) = portUp (1 - p) m := by
  have moves := portDown_moves p m
  refine ⟨(moves.up p).trans (portUp_setPort_same hp false m), (moves.portWaits p).trans ?_,
    (moves.up _).trans (portUp_setPort_other hp false m)⟩
  rcases (by omega : p = 0 ∨ p = 1) with rfl | rfl <;> rfl

/-! ## HELLOs and retransmission -/

theorem resendIn_length (t : Tick) (l : List Unacked) : (resendIn t l).length = l.length := by
  induction l with
  | nil => rfl
  | cons u l ih =>
    rw [resendIn]
    split
    · rfl
    · exact congrArg (· + 1) ih

/-- A frame handed to a port changes sequence numbers and what waits, and is sent. -/
theorem frameTx_learned (p : Nat) (f : Frame) (m : Mach) : (frameTx p f m).fjl.routes = m.fjl.routes ∧
    (frameTx p f m).clk = m.clk := by
  by_cases hp : p = 0 <;> simp only [frameTx, hp, ↓reduceIte] <;> split <;> exact ⟨rfl, rfl⟩

/-- What a HELLO teaches about its sender by a port. -/
def told (p : Nat) (f : Frame) (m : Mach) : Route :=
  let h : Option Hop := some { hops := 255 - f.hops, at_ := m.clk.tick }
  let r := tget {} f.src m.fjl.routes
  if p = 0 then { r with up := h, master := f.body.getD 3 0 != 0 } else { r with down := h, master := f.body.getD 3 0 != 0 }

theorem learn_route (p : Nat) (f : Frame) (m : Mach) : tget {} f.src (learn p f m).fjl.routes = told p f m :=
  tget_tput_same ..

theorem told_way (p : Nat) (f : Frame) (m : Mach) :
    (if p = 0 then (told p f m).up else (told p f m).down) = some { hops := 255 - f.hops, at_ := m.clk.tick } ∧
      (told p f m).master = (f.body.getD 3 0 != 0) := by
  by_cases h : p = 0 <;> simp [told, h]

/-- The HELLO once it has been forwarded. -/
def helloForwarded (p : Nat) (f : Frame) (m : Mach) : Mach :=
  when (0 < f.hops) (frameTx (1 - p) { f with hops := f.hops - 1 }) m

theorem helloForwarded_clk (p : Nat) (f : Frame) (m : Mach) : (helloForwarded p f m).clk = m.clk := by
  rw [helloForwarded, when]
  split
  · exact (frameTx_learned ..).2
  · rfl

theorem opHelloFrame_bad (en : m.on R.FJL_CTL_EN = true) : opHelloFrame p f false m = badCrc p m := by
  simp [opHelloFrame, en]

theorem opHelloFrame_other (en : m.on R.FJL_CTL_EN = true) (other : f.src ≠ ownAddr m) :
    opHelloFrame p f true m = timePort (learn p f (helloForwarded p f m)) := by
  simp [opHelloFrame, en, other, helloForwarded]

theorem opHelloFrame_double (en : m.on R.FJL_CTL_EN = true) (own : f.src = ownAddr m) (fresh : dupSeen m = false)
    (uid : f.body.getD 1 0 ≠ Config.unitId.truncate 32) :
    opHelloFrame p f true m = raise (0x200 + p) 0x0A 2 (m.onFjl fun j => { j with dupAt := some m.clk.tick }) := by
  have another : (f.body.getD 1 0 == Config.unitId.truncate 32 && f.body.getD 2 0 == (Config.unitId >>> 32).truncate 32) = false := by
    rw [beq_eq_false_iff_ne.2 uid]; rfl
  have own : (f.src == ownAddr m) = true := beq_iff_eq.2 own
  simp only [opHelloFrame, en, own, another, fresh]
  rfl

/-- The machine with this node's HELLO sent and the ways that no HELLO has confirmed dropped. -/
def helloSent (m : Mach) : Mach :=
  ((m.send (.frame 0 (helloFrame m))).send (.frame 1 (helloFrame m))).onFjl fun j =>
    { j with helloAt := m.clk.tick,
             routes := keepRoutes (j.routes.map fun r =>
               (r.1, { r.2 with up := ageHop m.now r.2.up, down := ageHop m.now r.2.down })) }

theorem opHelloTimer_due (en : m.on R.FJL_CTL_EN = true) (due : m.fjl.helloAt.toNat + 100000 ≤ m.now) :
    opHelloTimer m = timePort (helloSent m) := by
  have cond : (m.on R.FJL_CTL_EN && decide (m.fjl.helloAt.toNat + msTicks 1 ≤ m.now)) = true := by
    rw [en, Bool.true_and, decide_eq_true_eq]; exact due
  exact if_pos cond

theorem opPortUp_heard (en : m.on R.FJL_CTL_EN = true) (down : portUp p m = false)
    (heard : ∃ r ∈ m.fjl.routes, ∃ h, (if p = 0 then r.2.up else r.2.down) = some h ∧ h.hops = 0) :
    opPortUp p m = timePort (assertEvent 0x203 (setPort p true m)) := by
  obtain ⟨r, mem, h, way, near⟩ := heard
  refine if_pos ?_
  simp only [en, down, Bool.not_false, Bool.true_and, List.any_eq_true]
  exact ⟨r, mem, by rw [way]; simpa using near⟩

/-- The first frame due is sent again. -/
def resent (p : Nat) (u : Unacked) (m : Mach) : Mach :=
  ((m.onFjl fun f => if p = 0 then { f with unacked0 := resendIn m.clk.tick (portWaits p m) }
    else { f with unacked1 := resendIn m.clk.tick (portWaits p m) }).send (.frame p u.frame)).incSat R.FJL_LSTAT_RETX

theorem resent_waits (hp : p < 2) (u : Unacked) (m : Mach) : (portWaits p (resent p u m)).length = (portWaits p m).length := by
  rw [← resendIn_length m.clk.tick (portWaits p m)]
  rcases (by omega : p = 0 ∨ p = 1) with rfl | rfl <;> rfl

theorem opFrameRetransmit_due {u : Unacked} (due : (portWaits p m).find? (fun u => u.at_.toNat + 2000 ≤ m.now) = some u) :
    opFrameRetransmit p m = if 5 ≤ u.tries then portDown p m else resent p u m := by
  rw [portWaits] at due
  simp only [opFrameRetransmit, due]
  rfl

end

/-- Settles O58: each command is the branch that its hypotheses choose; notes and the time port leave ports and frames. -/
theorem portsAndFrames : Obligations.PortsAndFrames := by
  intro p lseq f s hp hl okf m en waits way downNow
  have okp : decide (p < 2) = true := decide_eq_true hp
  have okh : (decide (p < 2) && okFrame f) = true := by rw [okp, okf]; rfl
  have cut (t : State) (ht : t.mach = portDown p m) (mem : t.mem = s.mem) : downNow t := by
    obtain ⟨down, drained, other⟩ := portDown_leaves (m := m) hp
    rw [← ht] at down drained other
    exact ⟨down, drained, other, mem⟩
  refine ⟨fun en down heard => ?_, fun en due => ?_, fun en => ?_, fun en other => ?_, fun en own fresh uid => ?_, ?_,
    fun u due => ⟨fun few => ?_, fun many => ?_⟩, fun en up => ?_⟩
  · have moves := (timeMoves_assertEvent 0x203 (setPort p true m)).trans (timeMoves_timePort _)
    exact ⟨_, acts_to (onUnit_of okp (opPortUp p) s) (opPortUp_heard en down heard),
      (moves.up p).trans (portUp_setPort_same hp true m), (moves.up _).trans (portUp_setPort_other hp true m), rfl⟩
  · have moves := timeMoves_timePort (helloSent m)
    obtain ⟨rest, sent⟩ := moves.sent
    refine ⟨_, rest, acts_to (onUnit_of rfl opHelloTimer s) (opHelloTimer_due en due), moves.helloAt, sent.trans ?_, rfl⟩
    exact congrArg (· ++ rest) (List.append_assoc m.sent [_] [_])
  · exact acts_to (onUnit_of okh (opHelloFrame p f false) s) (opHelloFrame_bad en)
  · have moves := timeMoves_timePort (learn p f (helloForwarded p f m))
    have route : tget {} f.src (timePort (learn p f (helloForwarded p f m))).fjl.routes = told p f (helloForwarded p f m) := by
      rw [moves.routes]; exact learn_route ..
    obtain ⟨hop, master⟩ := told_way p f (helloForwarded p f m)
    refine ⟨_, acts_to (onUnit_of okh (opHelloFrame p f true) s) (opHelloFrame_other en other), ?_, ?_, rfl⟩
    · simp only [way]
      rw [route, hop, helloForwarded_clk]
    · exact (congrArg Route.master route).trans master
  · refine ⟨_, acts_to (onUnit_of okh (opHelloFrame p f true) s) (opHelloFrame_double en own fresh uid), ?_, ?_⟩
    · exact faulted_raise (by decide) (by decide) id
    · exact congrArg Fjl.dupAt (ripples_raise (by decide)).fjl
  · have ok : (decide (p < 2) && decide (lseq < 65536)) = true := by rw [okp, decide_eq_true hl]; rfl
    refine ⟨_, onUnit_of ok (opFrameAck p lseq) s, ?_, ?_, rfl, rfl⟩
    · rcases (by omega : p = 0 ∨ p = 1) with rfl | rfl <;> rfl
    · rcases (by omega : p = 0 ∨ p = 1) with rfl | rfl <;> rfl
  · have eff := (opFrameRetransmit_due due).trans (if_neg (by omega))
    refine ⟨_, acts_to (onUnit_of okp (opFrameRetransmit p) s) eff, rfl, ?_, resent_waits hp u m, rfl⟩
    exact get_incSat (f := R.FJL_LSTAT_RETX) rfl
  · have eff := (opFrameRetransmit_due due).trans (if_pos many)
    exact ⟨_, acts_to (onUnit_of okp (opFrameRetransmit p) s) eff, cut _ rfl rfl⟩
  · have eff : opBlockLockLoss p m = portDown p m := if_pos (by rw [en, up]; rfl)
    exact ⟨_, acts_to (onUnit_of okp (opBlockLockLoss p) s) eff, cut _ rfl rfl⟩

end Sys2Proof.Machine
end

section
/-! PROOFS. Time, USER events and press groups (O59). -/

namespace Sys2Proof.Machine

section
variable {p sub turn : Nat} {m : Mach} {f : Frame} {act : Mach → Mach}

/-! ## Frames in and out -/

/-- A frame that passes through: registers, faults, the time and Fjarilink's state stay but for sequence numbers and what
waits for acknowledgement. -/
structure FramePasses (m m' : Mach) : Prop where
  part : m'.part = m.part
  regs : m'.regs = m.regs
  sheets : m'.sheets = m.sheets
  flt : m'.flt = m.flt
  clk : m'.clk = m.clk
  fresh : m'.fresh = m.fresh
  heldEdges : m'.heldEdges = m.heldEdges
  fjl : m'.fjl = { m.fjl with lseq0 := m'.fjl.lseq0, lseq1 := m'.fjl.lseq1, unacked0 := m'.fjl.unacked0, unacked1 := m'.fjl.unacked1 }
  perReq : m'.perReq = m.perReq

theorem FramePasses.refl (m : Mach) : FramePasses m m := ⟨rfl, rfl, rfl, rfl, rfl, rfl, rfl, rfl, rfl⟩

theorem FramePasses.trans {a b c : Mach} (h : FramePasses a b) (g : FramePasses b c) : FramePasses a c where
  part := g.part.trans h.part
  regs := g.regs.trans h.regs
  sheets := g.sheets.trans h.sheets
  flt := g.flt.trans h.flt
  clk := g.clk.trans h.clk
  fresh := g.fresh.trans h.fresh
  heldEdges := g.heldEdges.trans h.heldEdges
  fjl := g.fjl.trans (by rw [h.fjl])
  perReq := g.perReq.trans h.perReq

theorem framePasses_when {c : Bool} {f : Mach → Mach} (h : ∀ m, FramePasses m (f m)) (m : Mach) : FramePasses m (when c f m) := by
  cases c
  · exact .refl m
  · exact h m

theorem framePasses_send (x : Sent) (m : Mach) : FramePasses m (m.send x) := ⟨rfl, rfl, rfl, rfl, rfl, rfl, rfl, rfl, rfl⟩

theorem framePasses_frameTx (port : Nat) (f : Frame) (m : Mach) : FramePasses m (frameTx port f m) := by
  by_cases hp : port = 0 <;> simp only [frameTx, hp, ↓reduceIte] <;> split
  · exact ⟨rfl, rfl, rfl, rfl, rfl, rfl, rfl, rfl, rfl⟩
  · exact .refl m
  · exact ⟨rfl, rfl, rfl, rfl, rfl, rfl, rfl, rfl, rfl⟩
  · exact .refl m

theorem framePasses_frameSend (f : Frame) (m : Mach) : FramePasses m (frameSend f m) := by
  simp only [frameSend]
  split
  · exact (framePasses_frameTx ..).trans (framePasses_frameTx ..)
  · split
    · exact framePasses_frameTx ..
    · exact (framePasses_frameTx ..).trans (framePasses_frameTx ..)

theorem FramePasses.get {m m' : Mach} (h : FramePasses m m') (g : FRef) : m'.get g = m.get g := by
  rw [Mach.get, Mach.get, Mach.word, Mach.word, h.regs]

theorem FramePasses.on {m m' : Mach} (h : FramePasses m m') (g : FRef) : m'.on g = m.on g := by
  rw [Mach.on, Mach.on, h.get]

/-- This node takes a frame that arrives by the port. -/
structure Taken (p : Nat) (f : Frame) (m : Mach) : Prop where
  en : m.on R.FJL_CTL_EN = true
  up : portUp p m = true
  mine : frameMine f m = true
  notOwn : m.on R.FJL_CTL_RING = true → f.src ≠ ownAddr m

/-- The machine when it acts on a frame it takes: the frame has been acknowledged and forwarded. -/
def received (p : Nat) (f : Frame) (m : Mach) : Mach :=
  let n := when (2 ≤ f.cls) (ackFrame p f) m
  when (!frameAlone f n && 0 < f.hops) (frameTx (1 - p) { f with hops := f.hops - 1 }) n

theorem framePasses_ackFrame (p : Nat) (f : Frame) (m : Mach) : FramePasses m (ackFrame p f m) := framePasses_send ..

theorem framePasses_received (p : Nat) (f : Frame) (m : Mach) : FramePasses m (received p f m) :=
  (framePasses_when (framePasses_ackFrame p f) m).trans (framePasses_when (framePasses_frameTx _ _) _)

theorem FramePasses.frameMine {m m' : Mach} (h : FramePasses m m') (f : Frame) : frameMine f m' = frameMine f m := by
  rw [Machine.frameMine, Machine.frameMine, frameAlone, frameAlone, ownAddr, ownAddr, h.get, h.get]

/-- A frame that this node takes is acted on after it has been acknowledged and forwarded. -/
theorem frameIn_taken (h : Taken p f m) : frameIn p f true act m = act (received p f m) := by
  have acked := framePasses_when (c := decide (2 ≤ f.cls)) (framePasses_ackFrame p f) m
  have open_ : (!m.on R.FJL_CTL_EN || !portUp p m) = false := by rw [h.en, h.up]; rfl
  have ring : ((when (2 ≤ f.cls) (ackFrame p f) m).on R.FJL_CTL_RING && f.src == ownAddr (when (2 ≤ f.cls) (ackFrame p f) m)) = false := by
    rw [acked.on, ownAddr, acked.get, ← ownAddr]
    cases on : m.on R.FJL_CTL_RING
    · rfl
    · rw [Bool.true_and, beq_eq_false_iff_ne]; exact h.notOwn on
  have mine : frameMine f (received p f m) = true := ((framePasses_received p f m).frameMine f).trans h.mine
  unfold frameIn
  rw [if_neg (by rw [open_]; exact Bool.false_ne_true), if_neg (by decide)]
  change (if ((when (2 ≤ f.cls) (ackFrame p f) m).on R.FJL_CTL_RING && f.src == ownAddr (when (2 ≤ f.cls) (ackFrame p f) m)) = true then
    when (2 ≤ f.cls) (ackFrame p f) m else when (frameMine f (received p f m)) act (received p f m)) = _
  rw [ring, mine]
  rfl

/-- A frame to the neighbour alone that asks for no acknowledgement leaves the machine as it was. -/
theorem received_neighbour (low : f.cls < 2) (alone : f.dst = 0) : received p f m = m := by
  have unacked : decide (2 ≤ f.cls) = false := decide_eq_false (by omega)
  have kept : frameAlone f m = true := by rw [frameAlone, alone]; rfl
  simp [received, unacked, kept, when]

/-- A frame of class 0 or 1 handed to a port that is up is sent. -/
theorem frameTx_sent {port : Nat} {g : Frame} (en : m.on R.FJL_CTL_EN = true) (up : portUp port m = true) :
    ∃ lseq, (frameTx port g m).sent = m.sent ++ [.frame port { g with lseq := lseq }] := by
  by_cases hp : port = 0
  · have open_ : (m.on R.FJL_CTL_EN && m.on R.FJL_PSTAT_UUP) = true := by
      rw [portUp, if_pos hp] at up; rw [en, up]; rfl
    exact ⟨m.fjl.lseq0, by simp only [frameTx, hp, open_, ↓reduceIte]; rfl⟩
  · have open_ : (m.on R.FJL_CTL_EN && m.on R.FJL_PSTAT_DUP) = true := by
      rw [portUp, if_neg hp] at up; rw [en, up]; rfl
    exact ⟨m.fjl.lseq1, by simp only [frameTx, hp, open_, ↓reduceIte]; rfl⟩

/-! ## The time exchange -/

/-- The time state. -/
def timeState (m : Mach) : Nat := m.get R.FJL_PSTAT_TSTATE

/-- The machine after has the exchange of the one before. -/
structure ExchangeKept (m m' : Mach) : Prop where
  t1 : m'.fjl.t1 = m.fjl.t1
  exAt : m'.fjl.exAt = m.fjl.exAt

theorem ExchangeKept.refl (m : Mach) : ExchangeKept m m := ⟨rfl, rfl⟩

theorem ExchangeKept.trans {a b c : Mach} (h : ExchangeKept a b) (g : ExchangeKept b c) : ExchangeKept a c :=
  ⟨g.t1.trans h.t1, g.exAt.trans h.exAt⟩

theorem setTime_state {st : Nat} (small : st < 8) (m : Mach) : timeState (setTime st m) = st := by
  rw [setTime]
  split
  · next e => exact e
  · rw [timeState, assertEvent_get]
    exact Mach.get_set_val rfl small m

theorem setTime_fjl (st : Nat) (m : Mach) : (setTime st m).fjl = m.fjl := by
  rw [setTime]
  split
  · rfl
  · exact assertEvent_fjl ..

theorem exchangeKept_setTime (st : Nat) (m : Mach) : ExchangeKept m (setTime st m) :=
  ⟨congrArg Fjl.t1 (setTime_fjl ..), congrArg Fjl.exAt (setTime_fjl ..)⟩

theorem timeState_set {g : FRef} (apart : R.FJL_PSTAT_TSTATE.key ≠ g.key) (v : Nat) (m : Mach) :
    timeState (m.set g v) = timeState m := Mach.get_set_ne _ apart v

/-- A quotient takes at most a free value. -/
theorem roundFree_kept (n : Int) (d : Nat) (m : Mach) : ExchangeKept m (m.roundFree n d).2 ∧
    timeState (m.roundFree n d).2 = timeState m := by
  obtain ⟨fresh, e⟩ := roundFree_eq n d m
  rw [e]
  exact ⟨⟨rfl, rfl⟩, rfl⟩

theorem timeState_onFjl (g : Fjl → Fjl) (m : Mach) : timeState (m.onFjl g) = timeState m := rfl

theorem timeState_setI {g : FRef} (apart : R.FJL_PSTAT_TSTATE.key ≠ g.key) (v : Int) (m : Mach) :
    timeState (m.setI g v) = timeState m := timeState_set apart _ m

theorem trimTo_kept (v : Int) (m : Mach) : ExchangeKept m (trimTo v m) ∧ timeState (trimTo v m) = timeState m := by
  rw [trimTo, timeState_onFjl, timeState_setI (by decide)]
  exact ⟨⟨rfl, rfl⟩, rfl⟩

theorem pull_kept (theta : Int) (m : Mach) : ExchangeKept m (pull theta m) ∧ timeState (pull theta m) = timeState m := by
  obtain ⟨round, state⟩ := roundFree_kept (theta * 2 ^ 32) (512 * syncPeriod m) m
  obtain ⟨trim, state'⟩ := trimTo_kept (clampI (-429496) 429496 (m.roundFree (theta * 2 ^ 32) (512 * syncPeriod m)).1)
    (m.roundFree (theta * 2 ^ 32) (512 * syncPeriod m)).2
  exact ⟨round.trans trim, state'.trans state⟩

theorem setToff_kept (v : Int) (m : Mach) : ExchangeKept m (setToff v m) ∧ timeState (setToff v m) = timeState m :=
  ⟨⟨rfl, rfl⟩, (timeState_set (by decide) _ _).trans (timeState_set (by decide) _ m)⟩

theorem timeOffset_kept (m : Mach) : ExchangeKept m (raise 0x202 0x04 2 m) ∧ timeState (raise 0x202 0x04 2 m) = timeState m := by
  have moved := ripples_raise (src := 0x202) (kind := 0x04) (cls := 2) (sid := 0) (param := 0) (by decide) (m := m)
  exact ⟨⟨(congrArg Fjl.t1 moved.fjl).trans rfl, (congrArg Fjl.exAt moved.fjl).trans rfl⟩,
    moved.get' (f := R.FJL_PSTAT_TSTATE) (by simp [rippleKey, R.FJL_PSTAT_TSTATE])⟩

/-- TOFF is set, once in an ACQUIRE. -/
def toffMoved (v : Int) (m : Mach) : Mach := (setToff v m).onFjl fun f => { f with toffSet := true }

theorem toffMoved_kept (v : Int) (m : Mach) : ExchangeKept m (toffMoved v m) ∧ timeState (toffMoved v m) = timeState m := by
  obtain ⟨kept, state⟩ := setToff_kept v m
  rw [toffMoved, timeState_onFjl]
  exact ⟨kept.trans ⟨rfl, rfl⟩, state⟩

/-- The offset has been reported, once in an ACQUIRE. -/
def offsetTold (m : Mach) : Mach := raise 0x202 0x04 2 (m.onFjl fun f => { f with offSent := true })

theorem offsetTold_kept (m : Mach) : ExchangeKept m (offsetTold m) ∧ timeState (offsetTold m) = timeState m := by
  obtain ⟨kept, state⟩ := timeOffset_kept (m.onFjl fun f => { f with offSent := true })
  exact ⟨ExchangeKept.trans (b := m.onFjl fun f => { f with offSent := true }) ⟨rfl, rfl⟩ kept, state⟩

/-- The exchange is counted, and how many in a row were within TWIN. -/
def acquireCounted (theta : Int) (m : Mach) : Mach :=
  m.onFjl fun f => { f with acq := f.acq + 1, within := if theta.natAbs * 10 ≤ m.get R.FJL_TWIN * 64 then f.within + 1 else 0 }

/-- TOFF takes the whole TICKs of theta, and TRIM pulls the rest. -/
def toffStepped (theta round : Int) (m : Mach) : Mach :=
  let q := m.roundFree round 128
  pull (theta - 64 * q.1) (toffMoved ((toff m : Int) + q.1) q.2)

theorem toffStepped_kept (theta round : Int) (m : Mach) : ExchangeKept m (toffStepped theta round m) ∧
    timeState (toffStepped theta round m) = timeState m := by
  obtain ⟨rounded, rs⟩ := roundFree_kept round 128 m
  rw [toffStepped]
  generalize m.roundFree round 128 = q at rounded rs ⊢
  obtain ⟨moved, ms⟩ := toffMoved_kept ((toff m : Int) + q.1) q.2
  obtain ⟨pulled, ps⟩ := pull_kept (theta - 64 * q.1) (toffMoved ((toff m : Int) + q.1) q.2)
  exact ⟨(rounded.trans moved).trans pulled, ps.trans (ms.trans rs)⟩

/-- What an exchange in ACQUIRE does once it is counted (Table 14.2). -/
def acquireActs (theta round : Int) (m : Mach) : Mach :=
  if 16 ≤ m.fjl.within then pull theta (setTime tTrack m)
  else if m.fjl.acq < 4 || m.fjl.toffSet then when (m.fjl.toffSet) (pull theta) m
  else if countIn (·.engaged) m = 0 then toffStepped theta round m
  else if beyondUs theta then when (!m.fjl.offSent) offsetTold m
  else pull theta m

theorem acquireStep_eq (theta : Int) (m : Mach) : ∃ round, acquireStep theta m = acquireActs theta round (acquireCounted theta m) :=
  ⟨_, rfl⟩

theorem acquireActs_kept (theta round : Int) (m : Mach) : ExchangeKept m (acquireActs theta round m) ∧
    (timeState (acquireActs theta round m) = timeState m ∨ timeState (acquireActs theta round m) = tTrack) := by
  have go {x : Mach} (h : ExchangeKept m x ∧ timeState x = timeState m) :
      ExchangeKept m x ∧ (timeState x = timeState m ∨ timeState x = tTrack) := ⟨h.1, .inl h.2⟩
  rw [acquireActs]
  split
  · obtain ⟨pulled, ps⟩ := pull_kept theta (setTime tTrack m)
    exact ⟨(exchangeKept_setTime ..).trans pulled, .inr (ps.trans (setTime_state (by decide) m))⟩
  · split
    · rw [when]
      split
      · exact go (pull_kept ..)
      · exact go ⟨.refl m, rfl⟩
    · split
      · exact go (toffStepped_kept ..)
      · split
        · rw [when]
          split
          · exact go (offsetTold_kept m)
          · exact go ⟨.refl m, rfl⟩
        · exact go (pull_kept ..)

/-- An exchange in ACQUIRE stays in its state or ends in TRACK. -/
theorem acquireStep_kept (theta : Int) (m : Mach) : ExchangeKept m (acquireStep theta m) ∧
    (timeState (acquireStep theta m) = timeState m ∨ timeState (acquireStep theta m) = tTrack) := by
  obtain ⟨round, eff⟩ := acquireStep_eq theta m
  obtain ⟨kept, state⟩ := acquireActs_kept theta round (acquireCounted theta m)
  rw [eff]
  exact ⟨ExchangeKept.trans (b := acquireCounted theta m) ⟨rfl, rfl⟩ kept, state⟩

theorem enterAcquire_kept (m : Mach) : ExchangeKept m (enterAcquire m) ∧ timeState (enterAcquire m) = tAcquire :=
  ⟨ExchangeKept.trans (b := m.onFjl fun f => { f with acq := 0, within := 0, toffSet := false, offSent := false }) ⟨rfl, rfl⟩
    (exchangeKept_setTime ..), setTime_state (by decide) _⟩

/-- A valid exchange has ended. -/
def exchanged (at_ : Tick) (theta : Int) (m : Mach) : Mach :=
  (m.setI R.FJL_THETA theta).onFjl fun j => { j with t1 := none, exAt := at_ }

/-- What the time state makes of an exchange. -/
def disciplined (theta : Int) (m : Mach) : Mach :=
  match m.get R.FJL_PSTAT_TSTATE with
  | 2 => acquireStep theta m
  | 3 => pull theta m
  | 4 => if beyondUs theta then acquireStep theta (enterAcquire m) else pull theta (setTime tTrack m)
  | _ => m

theorem disciplined_track {theta : Int} (h : timeState m = tTrack) : disciplined theta m = pull theta m := by
  rw [timeState] at h
  rw [disciplined, h]; rfl

theorem disciplined_holdover {theta : Int} (h : timeState m = tHoldover) : disciplined theta m =
    if beyondUs theta then acquireStep theta (enterAcquire m) else pull theta (setTime tTrack m) := by
  rw [timeState] at h
  rw [disciplined, h]; rfl

theorem holdover_kept (theta : Int) (m : Mach) :
    ExchangeKept m (if beyondUs theta then acquireStep theta (enterAcquire m) else pull theta (setTime tTrack m)) ∧
      (timeState (if beyondUs theta then acquireStep theta (enterAcquire m) else pull theta (setTime tTrack m)) = tTrack ∨
        timeState (if beyondUs theta then acquireStep theta (enterAcquire m) else pull theta (setTime tTrack m)) = tAcquire) := by
  split
  · obtain ⟨entered, astate⟩ := enterAcquire_kept m
    obtain ⟨stepped, state⟩ := acquireStep_kept theta (enterAcquire m)
    exact ⟨entered.trans stepped, state.symm.imp id fun e => e.trans astate⟩
  · obtain ⟨pulled, pstate⟩ := pull_kept theta (setTime tTrack m)
    exact ⟨(exchangeKept_setTime ..).trans pulled, .inl (pstate.trans (setTime_state (by decide) m))⟩

theorem disciplined_kept (theta : Int) (m : Mach) : ExchangeKept m (disciplined theta m) := by
  rw [disciplined]
  split
  · exact (acquireStep_kept theta m).1
  · exact (pull_kept theta m).1
  · exact (holdover_kept theta m).1
  · exact .refl m

/-- Twice the offset that the stamps of a reply tell, in 1/64 TICK. -/
def replyOffset (sub : Nat) (f : Frame) (m : Mach) : Int :=
  let t1 := stampAt f.body 0
  let t4 := stampNow sub m
  let d (a b : Nat) : Int := sint 70 ((a + 2 ^ 70 - b % 2 ^ 70) % 2 ^ 70)
  d (stampAt f.body 3) t1 - d t4 (stampAt f.body 6)

/-- What a reply does that this node takes. -/
def replyActs (p sub : Nat) (f : Frame) (m : Mach) : Mach :=
  if m.fjl.t1 != some (stampAt f.body 0) || m.get R.FJL_PSTAT_TPORT != p + 1 then m
  else disciplined (m.roundFree (replyOffset sub f m) 2).1
    (exchanged m.clk.tick (m.roundFree (replyOffset sub f m) 2).1 (m.roundFree (replyOffset sub f m) 2).2)

theorem opTimeReplyFrame_eq (good : Bool) : opTimeReplyFrame p f good sub m = frameIn p f good (replyActs p sub f) m := rfl

/-- The reply to the request that waits, at the time port, ends the exchange. -/
theorem opTimeReplyFrame_taken (h : Taken p f m) (low : f.cls < 2) (alone : f.dst = 0)
    (waits : m.fjl.t1 = some (stampAt f.body 0)) (port : m.get R.FJL_PSTAT_TPORT = p + 1) :
    ∃ theta fresh, opTimeReplyFrame p f true sub m = disciplined theta (exchanged m.clk.tick theta { m with fresh := fresh }) := by
  have ours : (m.fjl.t1 != some (stampAt f.body 0) || m.get R.FJL_PSTAT_TPORT != p + 1) = false := by
    rw [waits, port, bne_self_eq_false, bne_self_eq_false]; rfl
  obtain ⟨fresh, e⟩ := roundFree_eq (replyOffset sub f m) 2 m
  rw [opTimeReplyFrame_eq, frameIn_taken h, received_neighbour low alone, replyActs, ours, e]
  exact ⟨_, fresh, rfl⟩

/-! ## Holdover -/

/-- HOLDOVER begins now, with no request waiting. -/
theorem enterHoldover_enters (m : Mach) : timeState (enterHoldover m) = tHoldover ∧
    (enterHoldover m).fjl.holdAt = m.clk.tick ∧ (enterHoldover m).fjl.t1 = none := by
  obtain ⟨-, clk, -, -⟩ := trimMean_leaves m
  have noted := linkKept_note 0x202 0x02 0 0 (setTime tHoldover (holding (trimMean m)))
  have fjl : (enterHoldover m).fjl = (holding (trimMean m)).fjl := noted.fjl.trans (setTime_fjl ..)
  refine ⟨?_, (congrArg Fjl.holdAt fjl).trans clk, congrArg Fjl.t1 fjl⟩
  exact ((ripples_note 0x202 0x02 0 _).get' (f := R.FJL_PSTAT_TSTATE) (by simp [rippleKey, R.FJL_PSTAT_TSTATE])).trans
    (setTime_state (by decide) _)

/-! ## USER events -/

/-- A USER event put into EVDATA and EVCODE. -/
def userShown (u : UserEv) (m : Mach) : Mach :=
  (((m.onFjl fun j => { j with users := j.users.erase u }).set (R.FJL_EVDATA_VAL 0) u.value.toNat).set (R.FJL_EVDATA_VAL 1)
    (u.value.toNat / 2 ^ 32)).set R.FJL_EVCODE_CODE u.code

theorem opUserEventDue_due {u : UserEv} (first : userFirst m = some u) (due : localOf u.due m ≤ m.now) :
    opUserEventDue m = assertEvent 0x201 (userShown u m) := by
  simp only [opUserEventDue, first]
  exact if_pos due

theorem userShown_reads (u : UserEv) (m : Mach) : (userShown u m).get R.FJL_EVCODE_CODE = u.code % 65536 ∧
    (userShown u m).get (R.FJL_EVDATA_VAL 0) = u.value.toNat % 2 ^ 32 ∧
    (userShown u m).get (R.FJL_EVDATA_VAL 1) = u.value.toNat / 2 ^ 32 := by
  have high : u.value.toNat / 2 ^ 32 < 2 ^ 32 := by have := u.value.isLt; omega
  refine ⟨Mach.get_set_self (f := R.FJL_EVCODE_CODE) rfl _ _, ?_, ?_⟩
  · rw [userShown, Mach.get_set_ne _ (by decide), Mach.get_set_ne _ (by decide)]
    exact Mach.get_set_self (f := R.FJL_EVDATA_VAL 0) rfl _ _
  · rw [userShown, Mach.get_set_ne _ (by decide)]
    exact Mach.get_set_val (f := R.FJL_EVDATA_VAL 1) rfl high _

/-- A USER frame whose time has not passed is kept for it. -/
theorem userFrame_kept (h : Taken p f m) (ahead : m.now ≤ localOf (pairAt f.body 3) m) :
    opUserFrame p f true m = (received p f m).onFjl fun j =>
      { j with users := j.users ++ [{ due := pairAt f.body 3, code := (f.body.getD 0 0).toNat % 65536,
                                      value := BitVec.ofNat 64 (pairAt f.body 1) }] } := by
  have passes := framePasses_received p f m
  rw [opUserFrame, frameIn_taken h]
  refine if_neg ?_
  rw [localOf, toff, passes.get, passes.get, ← toff, ← localOf, Mach.now, passes.clk, ← Mach.now]
  omega

/-! ## The catch table -/

/-- A catch in its entry. -/
def catchEntered (e sid t : Nat) (m : Mach) : Mach :=
  (((m.set (R.FJL_CTAB_SID e) sid).set (R.FJL_CTAB_VALID e) 1).set (R.FJL_CTAB_T_LO_T e) t).set (R.FJL_CTAB_T_HI_T e) (t / 2 ^ 32)

theorem catchEntered_reads {e sid t : Nat} (small : sid < 2 ^ 24) (wide : t < 2 ^ 64) (m : Mach) :
    (catchEntered e sid t m).on (R.FJL_CTAB_VALID e) = true ∧ (catchEntered e sid t m).get (R.FJL_CTAB_SID e) = sid ∧
      tableT e (catchEntered e sid t m) = t := by
  have head {g : FRef} (hg : g.key = 0x200400 + 0x10 * e) :
      (catchEntered e sid t m).get g = ((m.set (R.FJL_CTAB_SID e) sid).set (R.FJL_CTAB_VALID e) 1).get g := by
    rw [catchEntered, Mach.get_set_ne _ (by simp only [R.FJL_CTAB_T_HI_T]; omega),
      Mach.get_set_ne _ (by simp only [R.FJL_CTAB_T_LO_T]; omega)]
  refine ⟨?_, ?_, ?_⟩
  · rw [Mach.on, head rfl]
    exact Mach.on_set_flag (f := R.FJL_CTAB_VALID e) rfl rfl true _
  · rw [head rfl, Mach.get_set_bits (f := R.FJL_CTAB_VALID e) rfl]
    exact Mach.get_set_val (f := R.FJL_CTAB_SID e) rfl small m
  · rw [tableT, catchEntered, Mach.get_set_ne (f := R.FJL_CTAB_T_HI_T e) _ (by simp only [R.FJL_CTAB_T_HI_T, R.FJL_CTAB_T_LO_T]; omega),
      Mach.get_set_self (f := R.FJL_CTAB_T_LO_T e) rfl, Mach.get_set_val (f := R.FJL_CTAB_T_HI_T e) rfl (show t / 2 ^ 32 < 2 ^ 32 by omega)]
    exact (Nat.mod_add_div' t (2 ^ 32))

theorem catchEntered_word {e sid t key : Nat} (other : key < 0x200400 + 0x10 * e ∨ 0x200400 + 0x10 * e + 0x10 ≤ key) (m : Mach) :
    (catchEntered e sid t m).word key = m.word key := by
  rw [catchEntered, Mach.word_set_ne _ (by simp only [R.FJL_CTAB_T_HI_T]; omega),
    Mach.word_set_ne _ (by simp only [R.FJL_CTAB_T_LO_T]; omega), Mach.word_set_ne _ (by simp only [R.FJL_CTAB_VALID]; omega),
    Mach.word_set_ne _ (by simp only [R.FJL_CTAB_SID]; omega)]

theorem catchEntered_other {e j sid t : Nat} (ne : j ≠ e) (m : Mach) : tableT j (catchEntered e sid t m) = tableT j m ∧
    (catchEntered e sid t m).get (R.FJL_CTAB_SID j) = m.get (R.FJL_CTAB_SID j) := by
  have kept {g : FRef} (lo : 0x200400 + 0x10 * j ≤ g.key) (hi : g.key < 0x200400 + 0x10 * j + 0x10) :
      (catchEntered e sid t m).get g = m.get g := get_of_word (catchEntered_word (by omega) m)
  rw [tableT, tableT, kept (g := R.FJL_CTAB_T_LO_T j) (by simp only [R.FJL_CTAB_T_LO_T]; omega) (by simp only [R.FJL_CTAB_T_LO_T]; omega),
    kept (g := R.FJL_CTAB_T_HI_T j) (by simp only [R.FJL_CTAB_T_HI_T]; omega) (by simp only [R.FJL_CTAB_T_HI_T]; omega),
    kept (g := R.FJL_CTAB_SID j) (by simp only [R.FJL_CTAB_SID]; omega) (by simp only [R.FJL_CTAB_SID]; omega)]
  exact ⟨rfl, rfl⟩

/-- What the catch table's functions read. -/
theorem tableSlot_of_regs {m m' : Mach} (regs : m'.regs = m.regs) (clk : m'.clk = m.clk) (sid : Nat) :
    tableSlot sid m' = tableSlot sid m := by
  have get (g : FRef) : m'.get g = m.get g := by rw [Mach.get, Mach.get, Mach.word, Mach.word, regs]
  have time (e : Nat) : tableT e m' = tableT e m := by rw [tableT, tableT, get, get]
  have valid (e : Nat) : m'.on (R.FJL_CTAB_VALID e) = m.on (R.FJL_CTAB_VALID e) := by rw [Mach.on, Mach.on, get]
  have first (es : List Nat) : earliestOf es m' = earliestOf es m := by simp only [earliestOf, time]
  have now : m'.now = m.now := by rw [Mach.now, Mach.now, clk]
  unfold tableSlot
  generalize List.range 64 = all
  simp only [time, valid, first, get, now]

theorem FramePasses.localOf {m m' : Mach} (h : FramePasses m m') (t : Nat) : localOf t m' = localOf t m := by
  rw [Machine.localOf, Machine.localOf, toff, toff, h.get, h.get]

theorem FramePasses.groupRole {m m' : Mach} (h : FramePasses m m') : groupRole m' = groupRole m := by
  rw [Machine.groupRole, Machine.groupRole, h.on, h.get]

theorem FramePasses.now {m m' : Mach} (h : FramePasses m m') : m'.now = m.now := by rw [Mach.now, h.clk]; rfl

theorem get_onFjl (h : Fjl → Fjl) (m : Mach) (g : FRef) : (m.onFjl h).get g = m.get g := rfl

/-- A catch is entered, to be checked for its arm, and announced. -/
def catchTaken (e sid t : Nat) (m : Mach) : Mach :=
  assertEvent 0x200 ((catchEntered e sid t m).onFjl fun j => { j with armChecked := clrBit j.armChecked e })

theorem catchTaken_get (e sid t : Nat) (m : Mach) (g : FRef) : (catchTaken e sid t m).get g = (catchEntered e sid t m).get g := by
  rw [catchTaken, assertEvent_get, get_onFjl]

/-- A slave enters a catch whose time has not passed. -/
theorem catchFrame_entered (h : Taken p f m) (slave : groupRole m = 2) (ahead : m.now ≤ localOf (pairAt f.body 1) m) :
    opCatchFrame p f true m = catchTaken (tableSlot ((f.body.getD 0 0).toNat % 2 ^ 24) m) ((f.body.getD 0 0).toNat % 2 ^ 24)
      (localOf (pairAt f.body 1) m) (received p f m) := by
  have passes := framePasses_received p f m
  rw [opCatchFrame, frameIn_taken h, passes.groupRole, slave, if_neg (by decide), passes.localOf, passes.now, if_neg (by omega),
    ← tableSlot_of_regs passes.regs passes.clk]
  generalize (f.body.getD 0 0).toNat % 2 ^ 24 = sid
  generalize localOf (pairAt f.body 1) m = t
  generalize received p f m = n
  rfl

theorem catchTaken_sheets (e sid t : Nat) (m : Mach) : (catchTaken e sid t m).sheets = m.sheets := by
  rw [catchTaken, assertEvent_sheets]; rfl

/-! ## Group frames -/

/-- A message of a group frame. -/
def groupMsg (kind cls : Nat) (sid : Sid) : Msg := { src := 0x203, kind := kind, cls := cls, sid := sid, fromGroup := true }

/-- A group frame's message, on a free record, is captured there. -/
theorem groupFault_captured {kind cls : Nat} {sid : Sid} (pos : 0 < cls) (free : (srcRec 0x203 m).held = false) :
    srcRec 0x203 (groupFault kind cls sid (received p f m)) = (groupMsg kind cls sid).toRec (received p f m) true := by
  have same : (groupMsg kind cls sid).lost (received p f m) = false := by
    rw [Msg.lost, srcRec, (framePasses_received p f m).flt]; exact free
  have unnoted : (groupMsg kind cls sid).noted (received p f m) = false := by
    rw [Msg.noted, beq_eq_false_iff_ne.2 (show (groupMsg kind cls sid).cls ≠ 0 by exact Nat.pos_iff_ne_zero.1 pos)]; rfl
  have left := srcRec_deliver_free same
  rw [unnoted] at left
  exact left

theorem cancelFrame_taken (h : Taken p f m) (group : groupRole m ≠ 0) :
    opCancelFrame p f true m = groupFault 0x05 1 (frameSid f) (received p f m) := by
  rw [opCancelFrame, frameIn_taken h, (framePasses_received p f m).groupRole, if_neg group]

theorem spoilFrame_taken (h : Taken p f m) (group : groupRole m ≠ 0) :
    opSpoilFrame p f true m = groupFault 0x07 1 (frameSid f) (received p f m) := by
  rw [opSpoilFrame, frameIn_taken h, (framePasses_received p f m).groupRole, if_neg group]

theorem stopFrame_taken (h : Taken p f m) (group : groupRole m ≠ 0) :
    opStopFrame p f true m = groupFault 0x08 3 0 (received p f m) := by
  rw [opStopFrame, frameIn_taken h, (framePasses_received p f m).groupRole, if_neg group]

theorem missFrame_taken (h : Taken p f m) (master : groupRole m = 1) :
    opMissFrame p f true m = groupFault 0x06 1 (frameSid f) (received p f m) := by
  rw [opMissFrame, frameIn_taken h, (framePasses_received p f m).groupRole, if_pos master]

/-! ## HEARTs -/

/-- A HEART of a counterpart has been heard. -/
def heartHeard (node : Nat) (m : Mach) : Mach :=
  m.onFjl fun j => { j with hearts := tput node m.clk.tick j.hearts, lost := tdel node j.lost }

theorem FramePasses.counterparts {m m' : Mach} (h : FramePasses m m') : counterparts m' = counterparts m := by
  simp only [Machine.counterparts, h.groupRole, h.get, ownAddr]

theorem heartFrame_taken (h : Taken p f m) (known : f.src ∈ counterparts m) : opHeartFrame p f true m =
    when (groupRole (heartHeard f.src (received p f m)) = 2) (fun m => frameSend (heartTo f.src m) m)
      (heartHeard f.src (received p f m)) := by
  have passes := framePasses_received p f m
  rw [opHeartFrame, frameIn_taken h]
  refine if_pos ?_
  rw [passes.counterparts]
  exact List.contains_iff_mem.2 known

theorem framePasses_answerHeart (node : Nat) (m : Mach) :
    FramePasses m (when (groupRole m = 2) (fun m => frameSend (heartTo node m) m) m) :=
  framePasses_when (fun m => framePasses_frameSend _ m) m

theorem FramePasses.hearts {m m' : Mach} (h : FramePasses m m') : m'.fjl.hearts = m.fjl.hearts := by rw [h.fjl]

theorem FramePasses.heartAt {m m' : Mach} (h : FramePasses m m') : m'.fjl.heartAt = m.fjl.heartAt := by rw [h.fjl]

theorem FramePasses.sched {m m' : Mach} (h : FramePasses m m') : m'.fjl.sched = m.fjl.sched := by rw [h.fjl]

theorem FramePasses.users {m m' : Mach} (h : FramePasses m m') : m'.fjl.users = m.fjl.users := by rw [h.fjl]

theorem opHeartTimer_due (master : groupRole m = 1) (due : m.fjl.heartAt.toNat + 100000 ≤ m.now) : ∃ g,
    opHeartTimer m = frameSend g (m.onFjl fun j => { j with heartAt := m.clk.tick }) := by
  have cond : (decide (groupRole m = 1) && decide (m.fjl.heartAt.toNat + msTicks 1 ≤ m.now)) = true := by
    rw [decide_eq_true master, Bool.true_and, decide_eq_true_eq]; exact due
  exact ⟨groupFrame 6 [] m, if_pos cond⟩

theorem opMemberLostTimeout_due {node : Nat} (known : node ∈ counterparts m) (here : tget false node m.fjl.lost = false)
    (due : (tget m.fjl.enAt node m.fjl.hearts).toNat + 1000000 ≤ m.now) : opMemberLostTimeout node m =
      raise 0x203 0x09 2 (m.onFjl fun j => { j with lost := tput node true j.lost }) := by
  have cond : ((counterparts m).contains node && !tget false node m.fjl.lost &&
      decide ((tget m.fjl.enAt node m.fjl.hearts).toNat + msTicks 10 ≤ m.now)) = true := by
    rw [List.contains_iff_mem.2 known, here, Bool.not_false, Bool.true_and, Bool.true_and, decide_eq_true_eq]; exact due
  exact if_pos cond

/-! ## GCGO -/

theorem gcCode {c : Nat} (hc : c < 16) (q : Nat) (m : Mach) :
    R.FJL_GCRES_CODE.of ((m.setOwn q R.FJL_GCRES_CODE.key (BitVec.ofNat 32 c)).own q R.FJL_GCRES_CODE.key) = c := by
  rw [show (m.setOwn q R.FJL_GCRES_CODE.key (BitVec.ofNat 32 c)).own q R.FJL_GCRES_CODE.key = BitVec.ofNat 32 c from tget_tput_same ..]
  simp only [FRef.of, bitsOf, R.FJL_GCRES_CODE, BitVec.toNat_ofNat]
  omega

/-- The catch that GCATCH names comes too soon. -/
def gcLate (m : Mach) : Prop :=
  m.get (R.FJL_GCATCH_T 0) + m.get (R.FJL_GCATCH_T 1) * 2 ^ 32 < m.now + clampN 100000 100000000 (m.get R.FJL_GLEAD)

theorem gcGo_late (late : gcLate m) (q : Nat) : gcGo q m = m.setOwn q R.FJL_GCRES_CODE.key (BitVec.ofNat 32 1) := if_pos late

theorem gcGo_other (ahead : ¬gcLate m) (other : groupRole m ≠ 1) (q : Nat) :
    gcGo q m = m.setOwn q R.FJL_GCRES_CODE.key (BitVec.ofNat 32 2) :=
  (if_neg ahead).trans (if_pos (bne_iff_ne.2 other))

/-- The sheet that GCATCH names is scheduled. -/
def gcScheduled (m : Mach) : Mach :=
  let sid : Sid := BitVec.ofNat 24 (m.get R.FJL_GCATCH_SID)
  m.onFjl fun f => { f with sched := sid :: f.sched.filter (· != sid) }

theorem gcGo_master (ahead : ¬gcLate m) (master : groupRole m = 1) (q : Nat) :
    ∃ g, gcGo q m = (frameSend g (gcScheduled m)).setOwn q R.FJL_GCRES_CODE.key (BitVec.ofNat 32 0) := by
  have role : ¬(groupRole m != 1) = true := by rw [master]; decide
  rw [gcLate] at ahead
  unfold gcGo
  extract_lets res t sid d body n
  rw [if_neg ahead, if_neg role]
  exact ⟨groupFrame 1 body n, rfl⟩

end

/-- Settles O59: a frame that this node takes is acted on after it has been acknowledged and forwarded, which leaves
registers, faults and the catch table. -/
theorem timeAndGroups : Obligations.TimeAndGroups := by
  intro q p sub turn node f s okq hp hsub hnode okf m tp ts taken t2 due catchAt sid e src told lead code
  have okh : (decide (p < 2) && okFrame f) = true := by rw [decide_eq_true hp, okf]; rfl
  have oksub : (decide (p < 2) && okFrame f && decide (sub < 64)) = true := by rw [okh, decide_eq_true hsub]; rfl
  have take (h : taken) : Taken p f m := ⟨h.1, h.2.1, h.2.2.1, h.2.2.2⟩
  have passes := framePasses_received p f m
  refine ⟨fun en pos small up due => ?_, fun h low alone => ?_, fun h low alone waits port => ?_, fun track late => ?_,
    fun hold slave unsent late => ?_, fun h ahead => ?_, fun u first late => ?_, fun h slave ahead => ?_, fun h free => ⟨fun group => ?_,
    fun master => ?_⟩, fun h known => ?_, fun master late => ?_, fun known here late => ?_, fun lets => ⟨fun late => ?_,
    fun ahead other => ?_, fun ahead master => ?_⟩⟩
  · have eff : opTimeExchangeTimer sub m = frameTx (tp - 1) (timeFrame 0 t2 m)
        (m.onFjl fun f => { f with t1 := some (stampNow sub m), reqAt := m.clk.tick }) :=
      if_pos (by rw [en, decide_eq_true pos, decide_eq_true due]; rfl)
    have passed := framePasses_frameTx (tp - 1) (timeFrame 0 t2 m)
      (m.onFjl fun f => { f with t1 := some (stampNow sub m), reqAt := m.clk.tick })
    obtain ⟨lseq, sent⟩ := frameTx_sent (port := tp - 1) (g := timeFrame 0 t2 m)
      (m := m.onFjl fun f => { f with t1 := some (stampNow sub m), reqAt := m.clk.tick }) en up
    exact ⟨_, _, acts_to (onUnit_of (decide_eq_true hsub) (opTimeExchangeTimer sub) s) eff, congrArg Fjl.t1 passed.fjl,
      congrArg Fjl.reqAt passed.fjl, sent, rfl, rfl, rfl, passed.regs⟩
  · have eff : opTimeRequestFrame p f true sub turn m =
        frameTx p (timeFrame 1 (f.body.take 3 ++ t2 ++ stampWords (stampNow sub m + turn)) m) m := by
      rw [opTimeRequestFrame, frameIn_taken (take h), received_neighbour low alone]
    obtain ⟨lseq, sent⟩ := frameTx_sent (port := p) (m := m)
      (g := timeFrame 1 (f.body.take 3 ++ t2 ++ stampWords (stampNow sub m + turn)) m) h.1 h.2.1
    exact ⟨_, _, acts_to (onUnit_of oksub (opTimeRequestFrame p f true sub turn) s) eff, sent, rfl,
      (framePasses_frameTx ..).regs⟩
  · obtain ⟨theta, fresh, eff⟩ := opTimeReplyFrame_taken (sub := sub) (take h) low alone waits port
    have before : timeState (exchanged m.clk.tick theta { m with fresh := fresh }) = ts s := by
      rw [exchanged, timeState_onFjl, timeState_setI (by decide)]; rfl
    have ended := disciplined_kept theta (exchanged m.clk.tick theta { m with fresh := fresh })
    refine ⟨_, acts_to (onUnit_of oksub (opTimeReplyFrame p f true sub) s) eff, ended.t1, ended.exAt, fun track => ?_,
      fun hold => ?_, rfl⟩
    · have state : timeState (exchanged m.clk.tick theta { m with fresh := fresh }) = tTrack := before.trans track
      exact (congrArg timeState (disciplined_track state)).trans ((pull_kept theta _).2.trans state)
    · have state : timeState (exchanged m.clk.tick theta { m with fresh := fresh }) = tHoldover := before.trans hold
      have after := (holdover_kept theta (exchanged m.clk.tick theta { m with fresh := fresh })).2
      rw [← disciplined_holdover state] at after
      exact after
  · have eff : opTimeHoldoverTimeout m = enterHoldover m := by
      refine if_pos ?_
      rw [decide_eq_true (show m.get R.FJL_PSTAT_TSTATE = tTrack from track), decide_eq_true late]; rfl
    obtain ⟨state, holdAt, t1⟩ := enterHoldover_enters m
    exact ⟨_, acts_to (onUnit_of rfl opTimeHoldoverTimeout s) eff, state, holdAt, t1, rfl⟩
  · have eff : opGroupTimeTimeout m = raise 0x202 0x03 2 (m.onFjl fun f => { f with gtSent := true }) := by
      have passed : m.fjl.holdAt.toNat + msTicks (m.get R.FJL_TWIN_GHOLD) ≤ m.now := by
        rw [msTicks, Nat.mul_comm]; exact late
      refine if_pos ?_
      rw [decide_eq_true (show m.get R.FJL_PSTAT_TSTATE = tHoldover from hold), decide_eq_true slave, unsent, decide_eq_true passed]
      rfl
    exact ⟨_, acts_to (onUnit_of rfl opGroupTimeTimeout s) eff, faulted_raise (by decide) (by decide) id,
      congrArg Fjl.gtSent (ripples_raise (by decide)).fjl⟩
  · exact ⟨_, acts_to (onUnit_of okh (opUserFrame p f true) s) (userFrame_kept (take h) ahead),
      congrArg (· ++ _) passes.users, passes.regs, rfl⟩
  · obtain ⟨evcode, low, high⟩ := userShown_reads u m
    refine ⟨_, acts_to (onUnit_of rfl opUserEventDue s) (opUserEventDue_due first late),
      congrArg Fjl.users (assertEvent_fjl 0x201 (userShown u m)), ?_, ?_, ?_, rfl⟩
    · exact (assertEvent_get ..).trans evcode
    · exact (assertEvent_get ..).trans low
    · exact (assertEvent_get ..).trans high
  · have wide : catchAt < 2 ^ 64 := Nat.mod_lt _ (by decide)
    have small : sid < 2 ^ 24 := Nat.mod_lt _ (by decide)
    obtain ⟨valid, named, time⟩ := catchEntered_reads (e := e) small wide (received p f m)
    refine ⟨_, acts_to (onUnit_of okh (opCatchFrame p f true) s) (catchFrame_entered (take h) slave ahead), ?_, ?_, ?_,
      fun j _ ne => ?_, (catchTaken_sheets ..).trans passes.sheets, rfl⟩
    · exact (congrArg (· == 1) (catchTaken_get ..)).trans valid
    · exact (catchTaken_get ..).trans named
    · rw [tableT] at time ⊢
      rw [catchTaken_get, catchTaken_get]; exact time
    · obtain ⟨otime, oname⟩ := catchEntered_other (sid := sid) (t := catchAt) ne (received p f m)
      constructor
      · rw [tableT] at otime ⊢
        rw [catchTaken_get, catchTaken_get, otime, tableT, tableT, passes.get, passes.get]
      · exact (catchTaken_get ..).trans (oname.trans (passes.get _))
  · have tells {i : Instr} {kind : Nat} (run : exec i s = .next { s with mach := groupFault kind 1 (frameSid f) (received p f m) }) :
        told i kind := by
      have left := groupFault_captured (p := p) (f := f) (kind := kind) (cls := 1) (sid := frameSid f) (by decide) free
      exact ⟨_, run, congrArg FltRec.kind left, congrArg FltRec.cls left, congrArg FltRec.sid left, congrArg FltRec.held left, rfl⟩
    refine ⟨tells (acts_to (onUnit_of okh (opCancelFrame p f true) s) (cancelFrame_taken (take h) group)),
      tells (acts_to (onUnit_of okh (opSpoilFrame p f true) s) (spoilFrame_taken (take h) group)),
      _, acts_to (onUnit_of okh (opStopFrame p f true) s) (stopFrame_taken (take h) group), fun none_ => ?_⟩
    have last := deliver_last (g := groupMsg 0x08 3 0) (m := received p f m) (by decide) (passes.heldEdges.trans none_)
    exact ⟨congrArg FltRec.src last, congrArg FltRec.kind last, congrArg FltRec.cls last⟩
  · have left := groupFault_captured (p := p) (f := f) (kind := 0x06) (cls := 1) (sid := frameSid f) (by decide) free
    exact ⟨_, acts_to (onUnit_of okh (opMissFrame p f true) s) (missFrame_taken (take h) master), congrArg FltRec.kind left,
      congrArg FltRec.cls left, congrArg FltRec.sid left, congrArg FltRec.held left, rfl⟩
  · have answered := framePasses_answerHeart f.src (heartHeard f.src (received p f m))
    refine ⟨_, acts_to (onUnit_of okh (opHeartFrame p f true) s) (heartFrame_taken (take h) known), ?_,
      answered.regs.trans passes.regs, answered.flt.trans passes.flt, rfl⟩
    rw [answered.hearts]
    exact (tget_tput_same ..).trans (congrArg Clk.tick passes.clk)
  · obtain ⟨g, eff⟩ := opHeartTimer_due master late
    have sent := framePasses_frameSend g (m.onFjl fun j => { j with heartAt := m.clk.tick })
    exact ⟨_, acts_to (onUnit_of rfl opHeartTimer s) eff, sent.heartAt, sent.regs, sent.flt, rfl⟩
  · refine ⟨_, acts_to (onUnit_of (decide_eq_true hnode) (opMemberLostTimeout node) s) (opMemberLostTimeout_due known here late),
      faulted_raise (by decide) (by decide) id, ?_⟩
    rw [congrArg Fjl.lost (ripples_raise (cls := 2) (by decide)).fjl]
    exact tget_tput_same ..
  · exact ⟨_, acts_to (acts_guarded (onUnit_of okq (opGcgo q) s) lets) (gcGo_late late _), gcCode (by decide) _ m, rfl⟩
  · exact ⟨_, acts_to (acts_guarded (onUnit_of okq (opGcgo q) s) lets) (gcGo_other ahead other _), gcCode (by decide) _ m, rfl⟩
  · obtain ⟨g, eff⟩ := gcGo_master ahead master (Requester.id q)
    have sent := framePasses_frameSend g (gcScheduled m)
    exact ⟨_, acts_to (acts_guarded (onUnit_of okq (opGcgo q) s) lets) eff, gcCode (by decide) _ _,
      congrArg List.head? sent.sched, sent.regs⟩

end Sys2Proof.Machine
end

section
/-! PROOFS. SEC operations, chunks and the resident loader (O60). -/

namespace Sys2Proof.Machine

section
variable {op : SecOp} {arg q code : Nat} {m : Mach} {mem : Mem}

/-! ## Starting an operation -/

/-- CODE and DONE of a requester's SEC_OPRES. -/
def secRes (m : Mach) (n : Nat) : Nat × Nat :=
  (R.SEC_OPRES_CODE.of (m.own n R.SEC_OPRES_CODE.key), R.SEC_OPRES_DONE.of (m.own n R.SEC_OPRES_CODE.key))

theorem secRes_of_own {w : Word} (h : m.own q R.SEC_OPRES_CODE.key = w) :
    secRes m q = (R.SEC_OPRES_CODE.of w, R.SEC_OPRES_DONE.of w) := by rw [secRes, h]

theorem own_setOwn_same (q off : Nat) (w : Word) (m : Mach) : (m.setOwn q off w).own q off = w := tget_tput_same ..

theorem assertEvent_own (event q off : Nat) (m : Mach) : (assertEvent event m).own q off = m.own q off := by
  rw [Mach.own, (calm_assertEvent (K := quietKey) event m).perReq]; rfl

/-- An operation that ends reports its code with DONE. -/
theorem secEnd_res (small : code < 8) (m : Mach) : secRes (secEnd q code m) q = (code, 1) := by
  have own : (secEnd q code m).own q R.SEC_OPRES_CODE.key = BitVec.ofNat 32 (code + 8) :=
    (assertEvent_own ..).trans (own_setOwn_same ..)
  rw [secRes_of_own own]
  simp only [FRef.of, bitsOf, R.SEC_OPRES_CODE, R.SEC_OPRES_DONE, BitVec.toNat_ofNat]
  refine Prod.ext ?_ ?_
  · show (code + 8) % 2 ^ 32 / 2 ^ 0 % 2 ^ (2 + 1 - 0) = code
    omega
  · show (code + 8) % 2 ^ 32 / 2 ^ 3 % 2 ^ (3 + 1 - 3) = 1
    omega

theorem secEnd_leaves (q code : Nat) (m : Mach) : (secEnd q code m).sec = m.sec ∧ (secEnd q code m).regs = m.regs ∧
    (secEnd q code m).pwr = m.pwr :=
  ⟨(assertEvent_sec ..).trans rfl, (assertEvent_regs ..).trans rfl, (assertEvent_pwr ..).trans rfl⟩

/-- The operation begins, its result not yet there. -/
def secBegun (op : SecOp) (arg q : Nat) (m : Mach) : Mach :=
  (m.setOwn q R.SEC_OPRES_CODE.key 0).onSec fun s => { s with run := some { op := op, arg := arg, q := q } }

theorem secBegun_res (op : SecOp) (arg q : Nat) (m : Mach) : secRes (secBegun op arg q m) q = (0, 0) :=
  (secRes_of_own (own_setOwn_same q R.SEC_OPRES_CODE.key 0 m)).trans (by decide)

theorem secStart_begins (idle : m.sec.run = none) (sound : secRefuses op arg m = false) :
    secStart op arg q m = secBegun op arg q m := by
  simp only [secStart, idle, sound]
  rfl

theorem secStart_refused (idle : m.sec.run = none) (bad : secRefuses op arg m = true) :
    secStart op arg q m = secEnd q secRefused m := by
  simp only [secStart, idle, bad]
  rfl

theorem secStart_busy (runs : m.sec.run ≠ none) : secStart op arg q m = secEnd q secBusy m :=
  if_pos (Option.isSome_iff_ne_none.2 runs)

/-! ## What an operation does -/

/-- The machine after runs the operation of the one before, and its power is as it was. -/
structure RunKept (m m' : Mach) : Prop where
  run : m'.sec.run = m.sec.run
  pwr : m'.pwr = m.pwr

theorem RunKept.refl (m : Mach) : RunKept m m := ⟨rfl, rfl⟩

theorem RunKept.trans {a b c : Mach} (h : RunKept a b) (g : RunKept b c) : RunKept a c := ⟨g.run.trans h.run, g.pwr.trans h.pwr⟩

theorem runKept_each {α : Type} (f : α → Mach → Mach) (h : ∀ a m, RunKept m (f a m)) (l : List α) :
    ∀ m, RunKept m (each l f m) := by
  induction l with
  | nil => exact RunKept.refl
  | cons a l ih => exact fun m => (h a m).trans (ih _)

theorem runKept_setWord (key : Nat) (w : Word) (m : Mach) : RunKept m (m.setWord key w) := ⟨rfl, rfl⟩

theorem runKept_freeBytes (n : Nat) : ∀ m, RunKept m (freeBytes n m).2 := by
  induction n with
  | zero => exact RunKept.refl
  | succ n ih => exact fun m => RunKept.trans (b := m.free.2) ⟨rfl, rfl⟩ (ih m.free.2)

theorem runKept_setBuf (off : Nat) (bs : List Byte) (m : Mach) : RunKept m (setBuf off bs m) :=
  runKept_each _ (fun _ m => runKept_setWord _ _ m) _ m

theorem runKept_setMeas (i : Nat) (h : List Byte) (m : Mach) : RunKept m (setMeas i h m) :=
  runKept_each _ (fun _ m => runKept_setWord _ _ m) _ m

theorem runKept_note (src kind param : Nat) (m : Mach) : RunKept m (note src kind param m) := by
  have calm := calm_note src kind param m
  exact ⟨congrArg Sec.run calm.sec, calm.pwr⟩

theorem runKept_imageInvalid (reason : Nat) (m : Mach) : RunKept m (imageInvalid reason m) :=
  RunKept.trans (b := m.set R.SEC_STAT_REASON reason) ⟨rfl, rfl⟩ (runKept_note ..)

theorem runKept_sectionPut (t : Nat) (bs : List Byte) (m : Mach) (mem : Mem) : RunKept m (sectionPut t bs m mem).1 := by
  unfold sectionPut
  extract_lets words
  have written (k : Nat → FRef) (n : Nat) : RunKept m (words k n m) := runKept_each _ (fun _ m => runKept_setWord _ _ m) _ m
  clear_value words
  split
  · exact .refl m
  · split
    · exact .refl m
    · split
      · exact written ..
      · exact written ..

/-- An operation ends with a code of Table 14.11, and no other operation starts in it. -/
structure SecEffect (m : Mach) (x : Nat × Mach) : Prop where
  small : x.1 < 8
  kept : RunKept m x.2

theorem SecEffect.of {code : Nat} {n : Mach} (small : code < 8) (kept : RunKept m n) : SecEffect m (code, n) := ⟨small, kept⟩

theorem SecEffect.of_mem {code : Nat} {n : Mach} {mem' : Mem} (small : code < 8) (kept : RunKept m n) :
    SecEffect m ((code, n, mem').1, (code, n, mem').2.1) := ⟨small, kept⟩

theorem SecEffect.plain {x : Nat × Mach} (h : SecEffect m x) : SecEffect m ((x.1, x.2, mem).1, (x.1, x.2, mem).2.1) :=
  ⟨h.small, h.kept⟩

theorem doAttest_effect (m : Mach) : SecEffect m (doAttest m) :=
  .of (by decide) ((runKept_freeBytes 16 m).trans ((runKept_setBuf ..).trans (runKept_setBuf ..)))

theorem doLoad_effect (t : Nat) (m : Mach) (mem : Mem) : SecEffect m ((doLoad t m mem).1, (doLoad t m mem).2.1) := by
  simp only [doLoad]
  split
  · exact .of_mem (by decide) (.refl m)
  · split
    · exact .of_mem (by decide) (runKept_imageInvalid ..)
    · split
      · exact .of_mem (by decide) (.refl m)
      · exact .of_mem (by decide) ((runKept_sectionPut ..).trans (runKept_setMeas ..))

theorem doCheckhdr_effect (m : Mach) : SecEffect m (doCheckhdr m) := by
  have checked (b : Bool) : RunKept m (m.onSec fun s => { s with checked := b }) := ⟨rfl, rfl⟩
  unfold doCheckhdr
  extract_lets r n
  split
  · exact .of (by decide) (checked _)
  · exact .of (by decide) ((checked _).trans (runKept_imageInvalid ..))

theorem doEnvwrite_effect (ok : Bool) (m : Mach) (mem : Mem) : SecEffect m ((doEnvwrite ok m mem).1, (doEnvwrite ok m mem).2.1) := by
  simp only [doEnvwrite]
  split
  · exact .of_mem (by decide) (.refl m)
  · split <;> exact .of_mem (by decide) (.refl m)

theorem doAdvance_effect (m : Mach) : SecEffect m (doAdvance m) := .of (by decide) ⟨rfl, rfl⟩

theorem doKeyprog_effect (k : Nat) (m : Mach) : SecEffect m (doKeyprog k m) := by
  simp only [doKeyprog]
  split
  · exact .of (by decide) (.refl m)
  · exact .of (by decide) ⟨rfl, rfl⟩

theorem doDbgchal_effect (m : Mach) : SecEffect m (doDbgchal m) :=
  .of (by decide) (((runKept_freeBytes 8 m).trans (runKept_setBuf ..)).trans ⟨rfl, rfl⟩)

theorem doDbgresp_effect (m : Mach) : SecEffect m (doDbgresp m) := by
  have spent : RunKept m (m.onSec fun s => { s with chal := none }) := ⟨rfl, rfl⟩
  simp only [doDbgresp]
  split
  · exact .of (by decide) (.refl m)
  · split
    · exact .of (by decide) ((spent.trans (runKept_setWord ..)).trans (runKept_note 0x210 0x02 0 _))
    · exact .of (by decide) spent

theorem secDo_effect {r : SecRun} (other : r.op ≠ .armupd) (ok : Bool) (m : Mach) (mem : Mem) :
    SecEffect m ((secDo r ok m mem).1, (secDo r ok m mem).2.1) := by
  obtain ⟨op, arg, q⟩ := r
  cases op with
  | attest => exact (doAttest_effect m).plain
  | load => exact doLoad_effect arg m mem
  | checkhdr => exact (doCheckhdr_effect m).plain
  | armupd => exact absurd rfl other
  | envwrite => exact doEnvwrite_effect ok m mem
  | advance => exact (doAdvance_effect m).plain
  | keyprog => exact (doKeyprog_effect arg m).plain
  | dbgchal => exact (doDbgchal_effect m).plain
  | dbgresp => exact (doDbgresp_effect m).plain

/-- The machine with no operation running. -/
def secIdle (m : Mach) : Mach := m.onSec fun s => { s with run := none }

theorem opSecOpDone_runs {r : SecRun} (runs : m.sec.run = some r) (other : r.op ≠ .armupd) (ok : Bool) :
    opSecOpDone ok m mem = (secEnd r.q (secDo r ok (secIdle m) mem).1 (secDo r ok (secIdle m) mem).2.1, (secDo r ok (secIdle m) mem).2.2) := by
  have noReset : (r.op == .armupd) = false := beq_eq_false_iff_ne.2 other
  simp only [opSecOpDone, runs, noReset]
  rfl

end

/-! ## Chunks -/

section
variable {p k id : Nat} {f : Frame} {m : Mach} {mem : Mem} {l : Loader} {c bs : List Byte}

theorem frameTx_sec (p : Nat) (g : Frame) (m : Mach) : (frameTx p g m).sec = m.sec := by
  by_cases hp : p = 0 <;> simp only [frameTx, hp, ↓reduceIte] <;> split <;> rfl

/-- A bulk frame of the neighbour's is acknowledged, and goes no further. -/
theorem received_bulk (bulk : f.cls = 3) (alone : f.dst = 0) : received p f m = ackFrame p f m := by
  have acked : decide (2 ≤ f.cls) = true := decide_eq_true (by omega)
  have kept : frameAlone f (ackFrame p f m) = true := by rw [frameAlone, alone]; rfl
  simp [received, acked, kept, when]

theorem mine_of_neighbour (alone : f.dst = 0) : frameMine f m = true := by
  rw [frameMine, frameAlone, alone]; rfl

/-- A chunk that is asked for is answered, with its bytes or with CHNAK. -/
theorem chreq_answered (h : Taken p f m) (bulk : f.cls = 3) (alone : f.dst = 0) : ∃ g,
    opChreq p f true mem m = frameTx p g (ackFrame p f m) ∧
      g.typ = (if holdsChunk (pairAt f.body 0) (f.body.getD 2 0).toNat m mem then 2 else 3) ∧
      g.body.take 3 = chunkName (pairAt f.body 0) (f.body.getD 2 0).toNat := by
  have same : holdsChunk (pairAt f.body 0) (f.body.getD 2 0).toNat (ackFrame p f m) mem =
      holdsChunk (pairAt f.body 0) (f.body.getD 2 0).toNat m mem := rfl
  rw [opChreq, frameIn_taken h, received_bulk bulk alone]
  simp only [same]
  split
  · exact ⟨_, rfl, rfl, rfl⟩
  · exact ⟨_, rfl, rfl, rfl⟩

theorem ackFrame_sent (p : Nat) (f : Frame) (m : Mach) : ∃ a, (ackFrame p f m).sent = m.sent ++ [.frame p a] := ⟨_, rfl⟩

/-! ## The loader -/

theorem loaderAsk_idle (none_ : m.sec.loader = none) : loaderAsk m = m := by rw [loaderAsk, none_]

theorem framePasses_loaderAsk (m : Mach) : FramePasses m (loaderAsk m) ∧ (loaderAsk m).sec = m.sec := by
  unfold loaderAsk
  split
  · split
    · split
      · exact ⟨framePasses_frameTx .., frameTx_sec ..⟩
      · exact ⟨.refl m, rfl⟩
    · exact ⟨.refl m, rfl⟩
  · exact ⟨.refl m, rfl⟩

/-- The loader with one more chunk. -/
def chunkGot (k : Nat) (at_ : Tick) (l : Loader) : Loader := { l with got := k :: l.got.filter (· != k), since := at_ }

/-- An image without a header has no chunk. -/
theorem header_of_chunk (some_ : k < chunkCount c) : c.isEmpty = false := by
  cases c with
  | nil =>
    have none_ : chunkCount [] = 0 := by decide
    omega
  | cons b c => rfl

/-- A chunk of the image, whole, from the source that is asked, is accepted and written. -/
theorem loaderChunk_taken (loads : m.sec.loader = some l) (first : l.chunk0 = some c) (wanted : l.id? = some id) (pos : k ≠ 0)
    (inside : k < chunkCount c) (whole : bs.length = chunkLen c k) : loaderChunk l.source id k bs true m mem =
      (true, m.onSec fun s => { s with loader := some (chunkGot k m.clk.tick l) }, mem.flashWrBytes (slotAt + 4096 * k) bs) := by
  have hdr : (l.chunk0.getD []) = c := by rw [first]; rfl
  simp only [loaderChunk, loads, wanted, if_neg pos, hdr, header_of_chunk inside, whole, bne_self_eq_false, beq_self_eq_true,
    Bool.not_true, Bool.or_self, Bool.false_eq_true, if_false,
    decide_eq_false (Nat.not_le.2 inside), decide_eq_false pos, Bool.false_and]
  rfl

/-- While a chunk is missing the next is asked for. -/
theorem loaderOn_asks (loads : m.sec.loader = some l) (first : l.chunk0 = some c)
    (missing : ∃ j, j ≠ 0 ∧ j < chunkCount c ∧ l.got.contains j = false) : loaderOn m mem = (loaderAsk m, mem) := by
  obtain ⟨j, pos, inside, absent⟩ := missing
  have more : ((List.range (chunkCount c)).all fun k => k == 0 || l.got.contains k) = false := by
    refine List.all_eq_false.2 ⟨j, List.mem_range.2 inside, ?_⟩
    rw [absent, beq_eq_false_iff_ne.2 pos]
    decide
  simp only [loaderOn, loads, first, more]
  rfl

theorem chunkGot_missing {j : Nat} {at_ : Tick} (other : j ≠ k) (absent : l.got.contains j = false) :
    (chunkGot k at_ l).got.contains j = false := by
  simp only [chunkGot, List.contains_cons, beq_eq_false_iff_ne.2 other, Bool.false_or]
  rw [← Bool.not_eq_true, List.contains_iff_mem, List.mem_filter]
  rintro ⟨mem, -⟩
  exact Bool.false_ne_true (absent.symm.trans (List.contains_iff_mem.2 mem))

/-- The bytes of a CHDATA frame. -/
def chunkBytes (f : Frame) : List Byte := (f.body.drop 3).flatMap fun w => leBytes 4 w.toNat

/-- The bytes that the chunk has, which the frame may pad. -/
def chunkWidth (f : Frame) (m : Mach) : Nat :=
  match m.sec.loader with
  | some l => chunkLen (if (f.body.getD 2 0).toNat = 0 then chunkBytes f else l.chunk0.getD []) (f.body.getD 2 0).toNat
  | none => 0

theorem chunkWidth_of_loader (loads : m.sec.loader = some l) (first : l.chunk0 = some c) (pos : (f.body.getD 2 0).toNat ≠ 0) :
    chunkWidth f m = chunkLen c (f.body.getD 2 0).toNat := by
  simp only [chunkWidth, loads, first, if_neg pos]
  rfl

/-- The loader judges a CHDATA frame that this node takes. -/
def chunkJudged (p : Nat) (f : Frame) (m : Mach) (mem : Mem) : Bool × Mach × Mem :=
  loaderChunk (p + 1) (pairAt f.body 0) (f.body.getD 2 0).toNat ((chunkBytes f).take (chunkWidth f m)) true (ackFrame p f m) mem

theorem opChdata_taken (h : Taken p f m) (bulk : f.cls = 3) (alone : f.dst = 0) : opChdata p f true true m mem =
    if (chunkJudged p f m mem).1 then loaderOn (chunkJudged p f m mem).2.1 (chunkJudged p f m mem).2.2
    else (chunkJudged p f m mem).2 := by
  have arrived : frameIn p f true id m = ackFrame p f m := (frameIn_taken h).trans (received_bulk bulk alone)
  have here : (m.on R.FJL_CTL_EN && portUp p m && true && frameMine f m) = true := by rw [h.en, h.up, h.mine]; rfl
  simp only [opChdata, arrived, here]
  rfl

theorem chunkJudged_idle (none_ : m.sec.loader = none) : chunkJudged p f m mem = (false, ackFrame p f m, mem) := by
  have acked : (ackFrame p f m).sec.loader = none := none_
  simp only [chunkJudged, loaderChunk, acked]

/-- The next source is asked from now on. -/
def nextSource (at_ : Tick) (l : Loader) : Loader := { l with cur := (l.cur + 1) % max 1 l.order.length, since := at_ }

theorem opLoaderSourceTimeout_due (loads : m.sec.loader = some l) (late : l.since.toNat + 1000000000 ≤ m.now) :
    opLoaderSourceTimeout m = loaderAsk (m.onSec fun s => { s with loader := some (nextSource m.clk.tick l) }) := by
  simp only [opLoaderSourceTimeout, loads]
  exact if_pos late

/-! ## The host's descriptors -/

theorem datuDirect_clk (mem : Mem) (a : Nat) (wr : Bool) (m : Mach) : (datuDirect mem a wr m).2.clk = m.clk := by
  simp only [datuDirect]
  split
  · split <;> rfl
  · split
    · split <;> rfl
    · rfl
  · rfl

theorem slotAsk_clk (a : Nat) (m : Mach) : (slotAsk a m).clk = m.clk := by
  rw [slotAsk, when]
  split
  · exact dramAsk_clk ..
  · rfl

theorem ringXlate_clk (r : Nat) (m : Mach) : (ringXlate r m).clk = m.clk := (calm_note ..).clk

theorem slotRead_clk (r idx : Nat) (mem : Mem) (m : Mach) : (slotRead r idx mem m).2.clk = m.clk := by
  have looked := datuDirect_clk mem (ringSlot m r idx) false m
  simp only [slotRead]
  split
  · split
    · next e => rw [e] at looked; exact looked
    · next e => rw [e] at looked; exact (ringXlate_clk ..).trans looked
  · exact slotAsk_clk ..

theorem msix_clk (v : Nat) (m : Mach) : (m.msix v).clk = m.clk := by
  rw [Mach.msix]
  split <;> rfl

theorem tellProducer_clk (r : Nat) (m : Mach) : (tellProducer r m).clk = m.clk := by
  rw [tellProducer]
  split
  · rw [when]
    split
    · exact assertEvent_clk ..
    · rfl
  · rw [when]
    split
    · exact msix_clk ..
    · rfl
  · rfl

/-- Taking an entry from a ring takes no time. -/
theorem ringTake_clk (r side : Nat) (mem : Mem) (m : Mach) : (ringTake r side mem m).2.clk = m.clk := by
  have slot := slotRead_clk r (m.get (R.RING_CIDX r)) mem m
  simp only [ringTake]
  split
  · split
    · next e => rw [e] at slot; exact (tellProducer_clk ..).trans slot
    · next e => rw [e] at slot; exact slot
  · rfl

/-- The answer to a descriptor. -/
def chunkAnswer (d : List Byte) (bad : Nat) (at_ : Nat) : List Byte :=
  leBytes 4 (leAt d 8 4) ++ leBytes 4 bad ++ leBytes 8 (leAt d 16 8) ++ leBytes 8 at_ ++ List.replicate 8 0

/-- What the loader makes of a descriptor's chunk. -/
def descriptorJudged (back : Bool) (d : List Byte) (m : Mach) (mem : Mem) : Bool × Mach × Mem :=
  if leAt d 0 8 % 64 != 0 || leAt d 12 4 = 0 || 4096 < leAt d 12 4 then (false, m, mem)
  else match hostFetch mem (leAt d 0 8) (leAt d 12 4) m with
    | (none, m) => (false, m, mem)
    | (some bs, m) => loaderChunk 3 (leAt d 16 8) (leAt d 8 4) bs back m mem

/-- The descriptor is answered, and an accepted chunk goes on. -/
def descriptorAnswered (d : List Byte) (at_ : Nat) (x : Bool × Mach × Mem) : Mach × Mem :=
  let y := (ringPut 1 0 (chunkAnswer d (b2n !x.1) at_) x.2.1 x.2.2).2
  if x.1 then loaderOn y.1 y.2 else y

theorem opLoaderChunkDescriptor_taken {d : List Byte} {m1 : Mach} (loads : m.sec.loader = some l) (host : l.source = 3)
    (room : ringCount m 1 < ringSize m 1) (took : ringTake 0 0 mem m = (some d, m1)) (back : Bool) :
    opLoaderChunkDescriptor back m mem = descriptorAnswered d m.now (descriptorJudged back d m1 mem) := by
  have now : m1.now = m.now := by
    have clk := ringTake_clk 0 0 mem m
    rw [took] at clk
    rw [Mach.now, clk]; rfl
  have open_ : (!(l.source == 3) || decide (ringSize m 1 ≤ ringCount m 1)) = false := by
    rw [host, decide_eq_false (Nat.not_le.2 room)]; rfl
  rw [← now]
  simp only [opLoaderChunkDescriptor, loads, open_, took]
  rfl

theorem descriptorJudged_empty {d : List Byte} (none_ : leAt d 12 4 = 0) (back : Bool) :
    descriptorJudged back d m mem = (false, m, mem) := if_pos (by rw [decide_eq_true none_]; simp)

theorem descriptorJudged_fetched {d b : List Byte} {m2 : Mach} (aligned : leAt d 0 8 % 64 = 0) (pos : 0 < leAt d 12 4)
    (fits : leAt d 12 4 ≤ 4096) (fetched : hostFetch mem (leAt d 0 8) (leAt d 12 4) m = (some b, m2)) (back : Bool) :
    descriptorJudged back d m mem = loaderChunk 3 (leAt d 16 8) (leAt d 8 4) b back m2 mem := by
  have sound : (leAt d 0 8 % 64 != 0 || decide (leAt d 12 4 = 0) || decide (4096 < leAt d 12 4)) = false := by
    rw [aligned, decide_eq_false (Nat.pos_iff_ne_zero.1 pos), decide_eq_false (Nat.not_lt.2 fits)]; rfl
  simp only [descriptorJudged, sound, fetched]
  rfl

end

theorem secDo_advance {r : SecRun} (adv : r.op = .advance) (ok : Bool) (m : Mach) (mem : Mem) :
    secDo r ok m mem = (secOk, (doAdvance m).2, mem) := by
  simp only [secDo, adv]
  rfl

/-- An operation but ARMUPD ends, and leaves SEC as its effect does. -/
theorem secOpDone_runs {s : State} {r : SecRun} (noRestart : s.mach.pwr.restart = false) (runs : s.mach.sec.run = some r)
    (other : r.op ≠ .armupd) (ok : Bool) :
    exec (.secOpDone ok) s = .next { s with
      mach := secEnd r.q (secDo r ok (secIdle s.mach) s.mem).1 (secDo r ok (secIdle s.mach) s.mem).2.1,
      mem := (secDo r ok (secIdle s.mach) s.mem).2.2 } ∧
    (secEnd r.q (secDo r ok (secIdle s.mach) s.mem).1 (secDo r ok (secIdle s.mach) s.mem).2.1).sec =
      (secDo r ok (secIdle s.mach) s.mem).2.1.sec := by
  have effect := secDo_effect other ok (secIdle s.mach) s.mem
  obtain ⟨sec, -, pwr⟩ := secEnd_leaves r.q (secDo r ok (secIdle s.mach) s.mem).1 (secDo r ok (secIdle s.mach) s.mem).2.1
  have calm := (congrArg Power.restart (pwr.trans effect.kept.pwr)).trans noRestart
  have run : exec (.secOpDone ok) s = _ := onUnitSM_of rfl (opSecOpDone ok) s
  rw [opSecOpDone_runs runs other ok] at run
  exact ⟨run.trans (congrArg _ (settle_of_no_restart calm)), sec⟩

/-- Settles O60: an operation of SEC starts in one step and ends in another; the loader's commands are the branches that
their hypotheses choose. -/
theorem securityAndLoader : Obligations.SecurityAndLoader := by
  intro q arg p f s okq harg hp okf noRestart m res starts taken id_ k bs answer
  have okh : (decide (p < 2) && okFrame f) = true := by rw [decide_eq_true hp, okf]; rfl
  have take (h : taken) : Taken p f m := ⟨h.1, h.2.1, mine_of_neighbour h.2.2.2.1, h.2.2.2.2⟩
  refine ⟨fun lets => ?_, fun r ok runs other => ?_, fun r ok runs adv => ?_, fun h => ?_, fun h none_ => ?_, fun h none_ => ?_,
    fun l c h loads first source wanted pos inside whole missing => ?_, fun l d m1 loads host room took => ⟨fun none_ back => ?_,
    fun b m2 m3 mem3 back aligned pos fits fetched accepted => ?_⟩, fun l loads late => ?_⟩
  · have begins {i : Instr} {op : SecOp} {a : Nat} (run : exec i s = .next (s.onMach (bySec q op a))) : starts i op a := by
      have ran : exec i s = .next (s.onMach (secStart op a (Requester.id q))) := acts_guarded run lets
      refine ⟨fun idle sound => ?_, fun idle bad => ?_, fun runs => ?_⟩
      · exact ⟨_, acts_to ran (secStart_begins idle sound), rfl, secBegun_res .., rfl, rfl⟩
      · obtain ⟨sec, regs, -⟩ := secEnd_leaves (Requester.id q) secRefused m
        exact ⟨_, acts_to ran (secStart_refused idle bad), sec, secEnd_res (by decide) m, regs, rfl⟩
      · obtain ⟨sec, regs, -⟩ := secEnd_leaves (Requester.id q) secBusy m
        exact ⟨_, acts_to ran (secStart_busy runs), sec, secEnd_res (by decide) m, regs, rfl⟩
    have small : (okReq q && decide (arg < 16)) = true := by rw [okq, decide_eq_true harg]; rfl
    have wide : (okReq q && decide (arg < 256)) = true := by rw [okq, decide_eq_true (by omega : arg < 256)]; rfl
    exact ⟨begins (onUnit_of okq (opAttest q) s), begins (onUnit_of small (opLoad q arg) s),
      begins (onUnit_of okq (opCheckhdr q) s), begins (onUnit_of wide (opArmupd q arg) s),
      begins (onUnit_of okq (opEnvwrite q) s), begins (onUnit_of okq (opAdvance q) s),
      begins (onUnit_of wide (opKeyprog q arg) s), begins (onUnit_of okq (opDbgchal q) s),
      begins (onUnit_of okq (opDbgresp q) s)⟩
  · obtain ⟨ran, ended⟩ := secOpDone_runs noRestart runs other ok
    have effect := secDo_effect other ok (secIdle m) s.mem
    exact ⟨_, ran, ended, (congrArg Sec.run ended).trans effect.kept.run, secEnd_res effect.small _, rfl⟩
  · have other : r.op ≠ .armupd := by rw [adv]; exact SecOp.noConfusion
    obtain ⟨ran, ended⟩ := secOpDone_runs noRestart runs other ok
    exact ⟨_, ran, (congrArg Sec.rollback ended).trans (by rw [secDo_advance adv]; rfl)⟩
  · obtain ⟨g, eff, typ, name⟩ := chreq_answered (mem := s.mem) (take h) h.2.2.1 h.2.2.2.1
    obtain ⟨a, acked⟩ := ackFrame_sent p f m
    obtain ⟨lseq, sent⟩ := frameTx_sent (port := p) (g := g) (m := ackFrame p f m) h.1 h.2.1
    refine ⟨_, a, { g with lseq := lseq }, acts_to (onUnit_of okh (opChreq p f true s.mem) s) eff, ?_, typ, name, (frameTx_sec ..).trans rfl, rfl⟩
    exact sent.trans (by rw [acked, List.append_assoc]; rfl)
  · have eff : opChnak p f true m = ackFrame p f m := by
      rw [opChnak, frameIn_taken (take h), received_bulk h.2.2.1 h.2.2.2.1]
      exact loaderAsk_idle none_
    obtain ⟨a, acked⟩ := ackFrame_sent p f m
    exact ⟨_, a, acts_to (onUnit_of okh (opChnak p f true) s) eff, acked, rfl, rfl⟩
  · have eff : opChdata p f true true m s.mem = (ackFrame p f m, s.mem) := by
      rw [opChdata_taken (take h) h.2.2.1 h.2.2.2.1, chunkJudged_idle none_]; rfl
    exact ⟨_, actsM_to (onUnitM_of okh (opChdata p f true true) s) eff, rfl, rfl⟩
  · have judged : chunkJudged p f m s.mem = (true,
        (ackFrame p f m).onSec fun x => { x with loader := some (chunkGot k m.clk.tick l) },
        s.mem.flashWrBytes (slotAt + 4096 * k) (bs.take (chunkLen c k))) := by
      rw [chunkJudged, chunkWidth_of_loader loads first pos, ← source]
      exact loaderChunk_taken (m := ackFrame p f m) loads first wanted pos inside (List.length_take_of_le whole)
    obtain ⟨j, jpos, jin, jother, absent⟩ := missing
    have asks := loaderOn_asks (m := (ackFrame p f m).onSec fun x => { x with loader := some (chunkGot k m.clk.tick l) })
      (mem := s.mem.flashWrBytes (slotAt + 4096 * k) (bs.take (chunkLen c k))) (l := chunkGot k m.clk.tick l) rfl first
      ⟨j, jpos, jin, chunkGot_missing jother absent⟩
    have eff := opChdata_taken (mem := s.mem) (take h) h.2.2.1 h.2.2.2.1
    rw [judged, if_pos rfl, asks] at eff
    exact ⟨_, actsM_to (onUnitM_of okh (opChdata p f true true) s) eff, congrArg Sec.loader (framePasses_loaderAsk _).2, rfl⟩
  · have eff := opLoaderChunkDescriptor_taken loads host room took back
    rw [descriptorJudged_empty none_] at eff
    exact actsM_to (onUnitM_of rfl (opLoaderChunkDescriptor back) s) eff
  · have eff := opLoaderChunkDescriptor_taken loads host room took back
    rw [descriptorJudged_fetched aligned pos fits fetched, accepted] at eff
    exact actsM_to (onUnitM_of rfl (opLoaderChunkDescriptor back) s) eff
  · have asked := framePasses_loaderAsk (m.onSec fun s => { s with loader := some (nextSource m.clk.tick l) })
    exact ⟨_, acts_to (onUnit_of rfl opLoaderSourceTimeout s) (opLoaderSourceTimeout_due loads late),
      congrArg Sec.loader asked.2, asked.1.regs, rfl⟩

end Sys2Proof.Machine
end
